-- ==== Sys2Proof/Word.lean ====
section
/-! DEFINITION. The plain word types the whole model uses. -/

namespace Sys2Proof

/-- A byte, the code symbol of R104. -/
abbrev Byte := BitVec 8

/-- The content of one 4 KiB unit: bytes in address order, with no trailing zero byte; a byte that is not listed reads
as zero (canonical form `Block.wf`). -/
abbrev Block := List Byte

/-- A 32-bit register or parameter word. -/
abbrev Word := BitVec 32

/-- Port bitmaps, position masks and segment masks (R72, R197). -/
abbrev Mask := BitVec 64

end Sys2Proof
end

