-- ==== Sys2Proof/Syntax.lean ====
section
/-! DEFINITION. The commands of the block: one constructor of `Instr` for each row of spec/opcode_table.json, and the
operand types they carry. -/

namespace Sys2Proof

/-- A PCIe function (R529, R531, R565): endpoint 0 or 1, and 0 for the PF or n for VF n. -/
structure FnId where
  ep : Nat
  num : Nat
deriving DecidableEq, Repr

/-- The states of a cache frame (R140, R145). -/
inductive FrameSt where
  | free | gather | filling | clean | dirty | destaging | superseded
deriving DecidableEq, Repr

/-- The bits in which a 144-bit word of the word code, as read, differs from the word as stored: 36 symbols of 4 bits (R645). -/
abbrev WordError := BitVec 144

/-- A word found in error: its number among the 16-byte words of a 4 KiB segment, and the error. -/
abbrev BadWords := List (Nat × WordError)

/-- What a completion TLP carries (R541, R553, R590). One completion answers one whole read; `stored` holds the words of the data,
by 16-byte word from the first byte, that the HBM channel finds in error when it stores them (R150, R646). -/
inductive HostCpl where
  | ok (data : List Byte) (stored : BadWords)
  | poisoned
  | unsuccessful
deriving DecidableEq, Repr

/-- A dword of a base address register: BAR0 or BAR2 of the function, or VF BAR0 or VF BAR2 of the SR-IOV capability, its low or its high
half (R535). -/
inductive BarDword where
  | low0 | high0 | low2 | high2 | vfLow0 | vfHigh0 | vfLow2 | vfHigh2
deriving DecidableEq, Repr

/-- The configuration-space fields a host write may set (R533, R534, R535, R542, R545, R546, R550, R552, R555, R562). -/
inductive CfgField where
  | bar (dword : BarDword)
  | ariHierarchy | numVfs | vfEnableSet
  | completionTimeout | relaxedOrdering | maxPayload | maxReadRequest | tenBitTags
  | msixEnable | functionMask | ltrEnable | maxSnoop | maxNoSnoop
  | aerUncorrStatus | aerUncorrMask | aerUncorrSeverity | aerCorrStatus | aerCorrMask
  | reportCorrectable | reportNonFatal | reportFatal | reportUnsupported | ecrcCheck | ecrcGenerate
deriving DecidableEq, Repr

/-- The target and value of a REGISTER_WRITE: a BAR access (R537, R717), a configuration field (R533), an SMBus block
write (R702, R703; `pec` is none without a PEC byte, else whether it is right) or an I3C private write (R702); or an access of the sideband
that reads: an SMBus block read, with the PEC byte past the block or without, or an I3C private read of a number of bytes (R702, R703). -/
inductive RegTarget where
  | bar (fn : FnId) (bar offset len : Nat) (value : BitVec 64) (poisoned : Bool)
  | config (fn : FnId) (field : CfgField) (value : Nat)
  | smbus (offset count : Nat) (data : List Byte) (pec : Option Bool)
  | i3c (offset : Nat) (data : List Byte)
  | smbusRead (offset : Nat) (pec : Bool)
  | i3cRead (count : Nat)
deriving DecidableEq, Repr

/-- A read of a register with an RC field: the function that reads, and whether the read is of 8 bytes and so covers the register above it
too (R717). -/
structure RcRead where
  fn : FnId
  wide : Bool
deriving DecidableEq, Repr

/-- An input word that a code tile found in error (R129, R645): the job's input index, the segment's place in the job, the word of
the segment, and the error. A job without such words ends as done; it fails on the first uncorrectable one. -/
structure TileWord where
  input : Nat
  seg : Nat
  word : Nat
  err : WordError
deriving DecidableEq, Repr

/-- One segment of a member read as the port takes it in: the content and the words found in error before it is stored (R646). -/
structure SegData where
  data : Block
  words : BadWords
deriving DecidableEq, Repr

/-- The ending of a member command as the drive reports it (R238, R239, R293, R310). -/
inductive DriveStatus where
  | success | mediaError | otherError
  | reservationConflict (holder : BitVec 64)
deriving DecidableEq, Repr

/-- The rates of a drive link in GT/s (R271). -/
inductive LinkSpeed where
  | g32 | g16 | g8 | g5 | g2_5
deriving DecidableEq, Repr

/-- The far end of a drive link as its registers show it (R273, R291): whether it is an endpoint, its largest Max_Payload_Size in
bytes, and CAP.TO in units of 500 ms. -/
structure DriveLink where
  endpoint : Bool
  maxPayload : Nat
  capTo : Nat
deriving DecidableEq, Repr

/-- What the bring-up commands of R276 find out about a drive (R273, R277, R280, R282, R283, R308). -/
structure DriveInfo where
  hasNs1 : Bool
  lbaSize : Nat
  metadata : Bool
  nsze : Nat
  mdts : Nat
  sgl : Bool
  wrr : Bool
  mqes : Nat
  nsqa : Nat
  ncqa : Nat
  vectors : Nat
  abortLimit : Nat
  reservations : Bool
deriving DecidableEq, Repr

/-- A completion from a drive (R279): of I/O request `req`, with the content of each segment read; of a bring-up step (R276); of the
health log, with whether it shows a critical warning (R293); of the Abort that names a request (R287); or of the Reservation
Report, with the holder's key, if there is a holder (R309). -/
inductive DriveReply where
  | io (req : Nat) (status : DriveStatus) (data : List SegData)
  | admin (ok : Bool) (info : DriveInfo)
  | health (critical : Bool)
  | aborted (req : Nat)
  | holder (key : Option (BitVec 64))
deriving DecidableEq, Repr

/-- What the governor samples that its own state does not hold (R364, R368): the hottest island (0.125 °C), the bytes
moved on the HBM channels in the previous period, and the complete pulse periods as
(high, period) counts of 10 ns. -/
structure GovInputs where
  temp : Int
  hbmBytes : Nat
  pulses : List (Nat × Nat)
deriving DecidableEq, Repr

/-- The measured part of a power-link status frame (R26, R432, R433): the power drawn from VIN_MAIN, drawn by the hold-up converter from the
pack and delivered to the pack by the charger, VIN_MAIN, and whether the load takes more than the converter's 110 W. The rest of the frame is
the power die's own state. -/
structure StatusFrame where
  vinMw : Nat
  converterMw : Nat
  chargerMw : Nat
  vinMv : Nat
  limited : Bool
  /-- the voltage of PACK_P in mV -/
  packMv : Nat
deriving DecidableEq, Repr

/-- A reading of the pack pins (R429, R436): pack voltage in mV, current in mA (into the pack positive), temperature in
0.125 °C. -/
structure PackReading where
  mv : Nat
  ma : Int
  temp : Int
deriving DecidableEq, Repr

/-- The charge-end causes of R436. -/
inductive ChargeEnd where
  | overTemp | overVolt | timer
deriving DecidableEq, Repr

/-- The fields of a drive label that decide what a start-up or take-over does (R498, R499). -/
structure LabelImage where
  arrayId : BitVec 64
  labelSeq : Nat
  ownerId : BitVec 256
  partnerId : BitVec 256
  takeover : Bool
  configSeq : Nat
  importedDumpSeq : Nat
deriving DecidableEq, Repr

/-- One frame as a dump section 5 carries it (R473); `bad` is bit 63. -/
structure FrameImage where
  vol : Nat
  lba : Nat
  st : FrameSt
  journaled : Bool
  absorbed : Bool
  gen : BitVec 32
  data : Block
  bad : Bool
deriving DecidableEq, Repr

/-- One in-flight destage entry (R197) with the content of its staging run (position, segment, block), as dump sections
1 and 2 carry it (R471). -/
structure EntryImage where
  seq : Nat
  region : Nat
  template : Nat
  regionGen : BitVec 32
  vol : Nat
  stripe : Nat
  method : Nat
  parison : Option Nat
  newestGen : BitVec 32
  writeMask : Mask
  doneMask : Mask
  segMask : Mask
  staging : List (Nat × Nat × Block)
  /-- STAGING: the first segment of the run -/
  stagingAt : Nat := 0
  dataGens : List (Nat × Nat × BitVec 32)
deriving DecidableEq, Repr

/-- An open parison as dump section 3 carries it (R472): its check content as (position, segment, block). -/
structure ParisonImage where
  region : Nat
  stripe : Nat
  vol : Nat
  fill : Nat
  home : Nat
  strips : List (Nat × Nat × Block)
deriving DecidableEq, Repr

/-- The kinds of journal record (R211). -/
inductive JKind where
  | write | destage | intent | retire | pad
deriving DecidableEq, Repr

/-- A descriptor of a journal record (R213): of a DESTAGE payload segment, or a retired item (0x1FF the whole record). -/
inductive JDesc where
  | seg (pos seg : Nat) (check noFrame : Bool) (gen : BitVec 32)
  | item (item seq : Nat)
deriving DecidableEq, Repr

/-- A journal record (R210 to R214): header fields, descriptors and payload segments. -/
structure JRecImage where
  seq : Nat
  kind : JKind
  method : Nat
  vol : Nat
  stripe : Nat
  region : Nat
  template : Nat
  regionGen : BitVec 32
  gen : BitVec 32
  posMask : Mask
  segMask : Mask
  firstLba : Nat
  chainIndex : Nat
  chainCount : Nat
  descs : List JDesc
  payload : List Block
deriving DecidableEq, Repr

/-- A partner's seal (R475, R518): whether it passes R482, whose it is, its sequence, and the DRAINED mask. -/
structure SealImage where
  usable : Bool
  identity : BitVec 256
  dumpSeq : Nat
  drained : Mask
deriving DecidableEq, Repr

/-- The counters of R269, R311 and R353, by volume, member and pool, as a checkpoint and dump section 0 save them (R471). The number
after the index tells one object from an earlier one of the same index. -/
structure CountersImage where
  volumes : List (Nat × Nat × List Nat) := []
  members : List (Nat × Nat × List Nat) := []
  pools : List (Nat × Nat × List Nat) := []
deriving DecidableEq, Repr

/-- An exported dump (R515): sections 0, 1, 2, 3 and 5 and the journal records in SEQ order. -/
structure DumpImage where
  counters : CountersImage
  entries : List EntryImage
  parisons : List ParisonImage
  frames : List FrameImage
  records : List JRecImage
  nextDestageSeq : Nat
deriving DecidableEq, Repr

/-- A region-table entry's relocation slot (R79). -/
structure Reloc where
  pos : Nat
  port : Nat
  row : Nat
  complete : Bool
deriving DecidableEq, Repr

/-- The region states of R78 and R92. -/
inductive RegionSt where
  | free | normal | degraded | critical | rebuilding | relocating | lost
deriving DecidableEq, Repr

/-- A region-table entry (R78); relocation slots 0 to RELOC_COUNT − 1 are the list. -/
structure Region where
  bitmap : Mask := 0
  row : Nat := 0
  gen : BitVec 32 := 0
  perm : BitVec 16 := 0
  watermark : Nat := 0
  template : Nat := 0
  chunkCode : Nat := 0
  st : RegionSt := .free
  pool : Nat := 0
  crit : Bool := false
  replacePending : Bool := false
  checkPending : Bool := false
  relocs : List Reloc := []
deriving DecidableEq, Repr

/-- A template (R58): strip code and the tiers (n_t, c_t) from innermost to outermost. -/
structure Template where
  stripCode : Nat
  tiers : List (Nat × Nat)
deriving DecidableEq, Repr

/-- Acknowledgement modes (R156). -/
inductive AckMode where
  | pwb | jwt | stw
deriving DecidableEq, Repr

/-- Member states (R99). -/
inductive MemberSt where
  | online | slow | suspect | failed | removed | replacing | spareOnly
deriving DecidableEq, Repr

/-- A pool as the drives describe it (R67, R69, R500). -/
structure PoolImage where
  id : Nat
  chunkCode : Nat
  spare : Nat
  seed : BitVec 32
  rows : Nat
  hedgeMode : Nat
  hedgeFixed : Nat
  hardTimeout : Nat
  mediaThreshold : Nat
  scrubDays : Nat
deriving DecidableEq, Repr

/-- A member as the drives describe it (R99, R500). -/
structure MemberImage where
  port : Nat
  pool : Nat
  st : MemberSt
  lbaSize : Nat
  capacity : Nat
deriving DecidableEq, Repr

/-- An array volume as the drives describe it (R62, R63, R500). -/
structure VolumeImage where
  id : Nat
  capacity : Nat
  template : Nat
  pool : Nat
  vmap : List Nat
  init : Bool
  ackMode : AckMode
  ageLimit : Nat
  attached : Option FnId
  cacheLost : Bool
deriving DecidableEq, Repr

/-- A label copy as it reads: which copy, whether MAGIC and LABEL_CRC are good, its fields, and the ports of the log drives that are
assigned (R498). -/
structure LabelCopy where
  copy : Nat
  good : Bool
  label : LabelImage
  logs : List Nat
deriving DecidableEq, Repr

/-- A configuration copy as it reads: whether its CRC is good, CONFIG_SEQ, and what it describes (R500). -/
structure ConfigCopy where
  good : Bool
  seq : Nat
  templates : List (Nat × Template)
  pools : List PoolImage
  members : List MemberImage
  volumes : List VolumeImage
deriving DecidableEq, Repr

/-- A slice copy as its slot reads: whether both CRCs are good, the header's values, and the entries that are not FREE by their place in the
slice (R504). -/
structure SliceCopy where
  good : Bool
  slice : Nat
  checkpointSeq : Nat
  beginSeq : Nat
  entries : List (Nat × Region)
deriving DecidableEq, Repr

/-- An item of the change log, by KIND: a region entry (0 and 4), a member, a pool, a volume; none: it is there no more (R503). -/
inductive MetaItem where
  | region (index : Nat) (entry : Region)
  | member (port : Nat) (x : Option MemberImage)
  | pool (id : Nat) (x : Option PoolImage)
  | volume (id : Nat) (x : Option VolumeImage)
deriving DecidableEq, Repr

/-- A change-log segment as it reads: whether MAGIC and SEG_CRC are good, its SEQ and its items (R503). -/
structure LogSegment where
  good : Bool
  seq : Nat
  items : List MetaItem
deriving DecidableEq, Repr

/-- The metadata area of a drive that reads (R500): label copies, configuration copies, the bits that are set in each slot of the activity
bitmap, the bits of sectors that do not read as (first, how many), the change log, and the slice slots. -/
structure DriveMeta where
  port : Nat
  labels : List LabelCopy := []
  configs : List ConfigCopy := []
  slotA : List Nat := []
  slotB : List Nat := []
  unread : List (Nat × Nat) := []
  changeLog : List LogSegment := []
  slices : List SliceCopy := []
deriving DecidableEq, Repr

/-- The array that a reader finds on the drives (R499, R506, R509, R516): label (none: no valid one) and the copy it stands in, templates,
pools, members, volumes, the region table and the activity bitmap, the next SEQ of the change log, the highest CHECKPOINT_SEQ, and the
begin SEQ of each slice. -/
structure ArrayImage where
  label : Option LabelImage := none
  labelCopy : Nat := 1
  logPorts : List Nat := []
  templates : List (Nat × Template) := []
  pools : List PoolImage := []
  members : List MemberImage := []
  volumes : List VolumeImage := []
  regions : List (Nat × Region) := []
  bitmap : List Nat := []
  changeSeq : Nat := 1
  sliceSeq : Nat := 0
  sliceBegin : List (Nat × Nat) := []
deriving DecidableEq, Repr

/-- Programs of a lehr pass that fail or do not verify: the dump's blocks by their place in the order of use, and pages of the map log by
their place in the order of programming (R390, R415, R465, R467); and the cache frames, by number, that hold an uncorrectable word as the
dump reads them (R473, R479). -/
structure PassPlaces where
  blocks : List Nat := []
  logPages : List Nat := []
  frames : List Nat := []
deriving DecidableEq, Repr

/-- What start-up finds outside the logic die's own stores (R480, R481, R499): whether firmware slots A and B verify,
the HBM channels that train, the PERST_N level, the strap levels, and the metadata areas of the drives; and for how many µs every board rail has
been in its static range with SYS_REFCLK present (R742). -/
structure StartFindings where
  slotAOk : Bool
  slotBOk : Bool
  hbmTrained : BitVec 32
  perstHigh : Bool
  hostBif : Bool
  pairSide : Bool
  sbAddr : BitVec 2
  drives : List DriveMeta
  steadyUs : Nat := 10000
deriving DecidableEq, Repr

/-- Why an island goes down alone (R651, R658). -/
inductive DownCause where
  | reset | drained | mappedOut
deriving DecidableEq, Repr

/-- Scope and instance of an event record (R671, R673, R674). -/
structure RecordSrc where
  scope : Option FnId
  inst : Nat
deriving DecidableEq, Repr

/-- The once-a-second samples of series 18 to 25 (R693), in 0.125 °C and mW. -/
structure TempSample where
  hottest : Int
  hottestIsland : Nat
  hbm0 : Int
  hbm1 : Int
  vault : Int
  vaultDie : Nat
  powerDie : Int
  inputMw : Nat
deriving DecidableEq, Repr

/-- A heartbeat frame from the partner (R495, R496): its identity and whether it is in STANDBY. -/
structure PartnerFrame where
  identity : BitVec 256
  standby : Bool
deriving DecidableEq, Repr

/-- The link-level errors of R552. -/
inductive LinkError where
  | receiverError | badTlp | badDllp | replayTimeout | replayRollover
  | dllProtocol | flowControl | overflow | malformedTlp | ecrc
deriving DecidableEq, Repr

/-- The commands: one constructor for each row of spec/opcode_table.json, in its order. `acc` is the acceptance number
(R186) of the accepted host command that the step starts. -/
inductive Instr where
  /-- READ (R231): I/O command that reads blocks of a volume from cache, members or reconstruction into host memory. -/
  | read (acc : Nat)
  /-- WRITE (R151): I/O command that gathers host data into frames and commits it to the cache, or writes a vault volume. -/
  | write (acc : Nat)
  /-- FLUSH (R160): I/O command that completes once every write to the volume committed before it has been destaged. -/
  | flush (acc : Nat)
  /-- WRITE_ZEROES (R610): I/O command that commits zero-filled frames over a range, or UNMAP entries on a vault volume. -/
  | writeZeroes (acc : Nat)
  /-- DEALLOCATE (R610): I/O command that acts as WRITE_ZEROES on an array volume and commits UNMAP entries on a vault volume. -/
  | deallocate (acc : Nat)
  /-- VERIFY (R612): I/O command that obtains and checks every block of its range without writing to the host. -/
  | verify (acc : Nat)
  /-- IDENTIFY_MODULE (R616): IDENTIFY with CNS 0 returns the module page. -/
  | identifyModule (acc : Nat)
  /-- IDENTIFY_VOLUMES (R616): IDENTIFY with CNS 1 returns the ids of the volumes attached to the issuing function. -/
  | identifyVolumes (acc : Nat)
  /-- IDENTIFY_TEMPLATE (R616): IDENTIFY with CNS 2 returns a template descriptor. -/
  | identifyTemplate (acc : Nat)
  /-- RING_CREATE_SUBMISSION (R569): RING_CREATE with KIND 0 creates a submission ring with its class, burst and shadow area. -/
  | ringCreateSubmission (acc : Nat)
  /-- RING_CREATE_COMPLETION (R569): RING_CREATE with KIND 1 creates a completion ring with its vector and coalescing. -/
  | ringCreateCompletion (acc : Nat)
  /-- GET_LOG (R620): Admin command that writes the bytes of a log page to the host. -/
  | getLog (acc : Nat)
  /-- GET_FEATURE (R619): Admin command that returns the values of a feature. -/
  | getFeature (acc : Nat)
  /-- SET_FEATURE_ACK_MODE (R156): Sets a volume's acknowledgement mode for commands accepted afterwards. -/
  | setFeatureAckMode (acc : Nat)
  /-- SET_FEATURE_AGE_LIMIT (R181): Sets a volume's destage age limit. -/
  | setFeatureAgeLimit (acc : Nat)
  /-- SET_FEATURE_LOSS_ACK (R627): Acknowledges a volume's loss report when LOSS_SEQ matches, clearing CACHE_LOST. -/
  | setFeatureLossAck (acc : Nat)
  /-- SET_FEATURE_DIRTY_LIMIT (R164): Sets the configured dirty limit L_cfg, starting urgent destage if it falls below the dirty amount. -/
  | setFeatureDirtyLimit (acc : Nat)
  /-- SET_FEATURE_HEDGE (R244): Sets a pool's hedge mode and fixed threshold. -/
  | setFeatureHedge (acc : Nat)
  /-- SET_FEATURE_HARD_TIMEOUT (R286): Sets a pool's hard timeout for member commands. -/
  | setFeatureHardTimeout (acc : Nat)
  /-- SET_FEATURE_MEDIA_THRESHOLD (R293): Sets a pool's media error threshold. -/
  | setFeatureMediaThreshold (acc : Nat)
  /-- SET_FEATURE_SCRUB_PERIOD (R347): Sets a pool's scrub period. -/
  | setFeatureScrubPeriod (acc : Nat)
  /-- SET_FEATURE_PATROL_PERIOD (R417): Sets the reheat patrol period. -/
  | setFeaturePatrolPeriod (acc : Nat)
  /-- SET_FEATURE_REFRESH_THRESHOLD (R418): Sets the vault refresh threshold in corrected bits. -/
  | setFeatureRefreshThreshold (acc : Nat)
  /-- SET_FEATURE_TAG_BUDGET (R542): Sets an endpoint's TAG_BUDGET and ENTRY_TAGS. -/
  | setFeatureTagBudget (acc : Nat)
  /-- SET_FEATURE_CLASS_WEIGHTS (R595): Sets the HIGH, MEDIUM and LOW arbitration weights. -/
  | setFeatureClassWeights (acc : Nat)
  /-- SET_FEATURE_MAX_CLASS (R570): Sets the highest ring class a function may create. -/
  | setFeatureMaxClass (acc : Nat)
  /-- SET_FEATURE_RATE_LIMIT (R596): Sets a function's command and byte token buckets. -/
  | setFeatureRateLimit (acc : Nat)
  /-- SET_FEATURE_STALL_TIMEOUT (R601): Sets the completion ring stall timeout. -/
  | setFeatureStallTimeout (acc : Nat)
  /-- SET_FEATURE_EXPORT_WAIT (R518): Sets how long a take-over waits for the partner's seal. -/
  | setFeatureExportWait (acc : Nat)
  /-- SET_FEATURE_TIME_BASE (R679): Selects the time form of event records. -/
  | setFeatureTimeBase (acc : Nat)
  /-- ABORT (R617): Ends a named command with ABORTED while it has taken no effect. -/
  | abort (acc : Nat)
  /-- TEMPLATE_DEFINE (R58): Stages the definition of a template from its 16-byte descriptor. -/
  | templateDefine (acc : Nat)
  /-- TEMPLATE_DELETE (R615): TEMPLATE_DEFINE with DELETE set stages deletion of a template. -/
  | templateDelete (acc : Nat)
  /-- POOL_CREATE (R66): Stages creation of a pool from a port bitmap, chunk code, spare divisor and seed. -/
  | poolCreate (acc : Nat)
  /-- POOL_DELETE (R615): POOL_CREATE with DELETE set stages deletion of a pool and frees its drives. -/
  | poolDelete (acc : Nat)
  /-- POOL_EXPAND (R70): Stages adding drives to a pool as ONLINE members. -/
  | poolExpand (acc : Nat)
  /-- POOL_EXPAND_SPARE (R99): POOL_EXPAND with SPARE set stages adding drives as SPARE_ONLY members. -/
  | poolExpandSpare (acc : Nat)
  /-- VOLUME_CREATE_ARRAY (R623): Places the regions of a new array volume and zeroes their slots, all or nothing. -/
  | volumeCreateArray (acc : Nat)
  /-- VOLUME_CREATE_VAULT (R420): Creates a vault volume, refused when vault capacity does not allow it. -/
  | volumeCreateVault (acc : Nat)
  /-- VOLUME_DELETE (R624): Deletes a detached volume, freeing its frames, records and regions. -/
  | volumeDelete (acc : Nat)
  /-- VOLUME_ATTACH (R622): Attaches a volume to a function. -/
  | volumeAttach (acc : Nat)
  /-- VOLUME_DETACH (R625): Detaches a volume once its earlier commands have completed. -/
  | volumeDetach (acc : Nat)
  /-- MEMBER_FAIL (R628): Declares a pool member FAILED under criterion 7. -/
  | memberFail (acc : Nat)
  /-- MEMBER_REPLACE_COPYBACK (R338): MEMBER_REPLACE in copyback mode puts a drive on the failed member's port into REPLACING and starts copyback. -/
  | memberReplaceCopyback (acc : Nat)
  /-- MEMBER_REPLACE_JOIN (R99): MEMBER_REPLACE in join mode adds a drive on a free port as a new ONLINE member. -/
  | memberReplaceJoin (acc : Nat)
  /-- REBUILD_PAUSE (R352): REBUILD_CONTROL PAUSE pauses rebuild, moves and re-placement in a pool or all pools. -/
  | rebuildPause (acc : Nat)
  /-- REBUILD_RESUME (R352): REBUILD_CONTROL RESUME ends a pause. -/
  | rebuildResume (acc : Nat)
  /-- REBUILD_PROMOTE (R352): REBUILD_CONTROL PROMOTE places a region at the head of its rebuild rank. -/
  | rebuildPromote (acc : Nat)
  /-- REBUILD_RETRY (R352): REBUILD_CONTROL RETRY retries at once a region halted on an unreadable stripe. -/
  | rebuildRetry (acc : Nat)
  /-- CONSISTENCY_CHECK (R629): Sets CHECK_PENDING on named regions so that their consistency checks run. -/
  | consistencyCheck (acc : Nat)
  /-- DEVICE_STOP (R630): Moves the module from READY to STOPPING and then STOPPED once accepted I/O has completed. -/
  | deviceStop (acc : Nat)
  /-- DEVICE_START (R633): Rechecks and applies the staged set, writes the configuration copy and returns to READY. -/
  | deviceStart (acc : Nat)
  /-- CONFIG_STAGE_GOVERNOR (R632): CONFIG_STAGE kind 1 stages a governor structure. -/
  | configStageGovernor (acc : Nat)
  /-- CONFIG_STAGE_PACK (R632): CONFIG_STAGE kind 2 stages a pack declaration. -/
  | configStagePack (acc : Nat)
  /-- CONFIG_DISCARD (R634): Empties the staged set. -/
  | configDiscard (acc : Nat)
  /-- SELF_TEST_SHORT (R635): Starts the short self-test. -/
  | selfTestShort (acc : Nat)
  /-- SELF_TEST_EXTENDED (R635): Starts the extended self-test. -/
  | selfTestExtended (acc : Nat)
  /-- SELF_TEST_ABORT (R635): Ends a running self-test with status 4. -/
  | selfTestAbort (acc : Nat)
  /-- SELF_TEST_COMPLETE (R636): A self-test finishes, passes or fails, and records EV_SELF_TEST. -/
  | selfTestComplete (failed : Option Nat)
  /-- FW_STAGE (R637): Writes image data into the slot not running and verifies the image when LAST is set. -/
  | fwStage (acc : Nat)
  /-- FW_ACTIVATE (R638): Marks a valid slot as the one the next start-up tries first. -/
  | fwActivate (acc : Nat)
  /-- EVENT_READ (R691): Writes the event records shown to the function from FIRST_SEQ onward. -/
  | eventRead (acc : Nat)
  /-- EVENT_CLEAR (R687): Empties the fixed records from a PF, or sets a VF's floor. -/
  | eventClear (acc : Nat)
  /-- HISTOGRAM_READ (R692): Writes one histogram series or the extremes table to the host. -/
  | histogramRead (acc : Nat)
  /-- PACK_REPLACED (R454): Resets the learned capacity to the nominal value and requests a learning run. -/
  | packReplaced (acc : Nat)
  /-- PACK_LEARN (R445): Requests a capacity learning run. -/
  | packLearn (acc : Nat)
  /-- PACK_LEARN_ABORT (R446): PACK_LEARN with ABORT set aborts a pending or running learning run. -/
  | packLearnAbort (acc : Nat)
  /-- SHIP_MODE_ARM (R449): SHIP_MODE arm enters SHIP_ARMED, taking E_avail to zero. -/
  | shipModeArm (acc : Nat)
  /-- SHIP_MODE_CANCEL (R449): SHIP_MODE cancel returns SHIP_ARMED to IDENTIFY or closes the FETs in SHIP. -/
  | shipModeCancel (acc : Nat)
  /-- ARRAY_IMPORT (R527): Takes over a foreign array, checks its marked regions and attaches its volumes. -/
  | arrayImport (acc : Nat)
  /-- PAIR_BIND (R496): PAIR_CONTROL BIND exchanges identities with a STANDBY partner and writes PARTNER_ID to the labels. -/
  | pairBind (acc : Nat)
  /-- PAIR_UNBIND (R496): PAIR_CONTROL UNBIND clears PARTNER_ID. -/
  | pairUnbind (acc : Nat)
  /-- PAIR_DISCARD_DUMP (R496): PAIR_CONTROL DISCARD_DUMP releases a held dump and journal without applying them. -/
  | pairDiscardDump (acc : Nat)
  /-- SLOT_POWER_ON (R642): SLOT_CONTROL power on sets PWR_EN and completes on PWR_GOOD or a power fault. -/
  | slotPowerOn (acc : Nat)
  /-- SLOT_POWER_OFF (R306): SLOT_CONTROL power off powers the slot off under the button policy or with FORCE. -/
  | slotPowerOff (acc : Nat)
  /-- SLOT_LOCATE_ON (R307): SLOT_CONTROL locate on sets ATTN to blink. -/
  | slotLocateOn (acc : Nat)
  /-- SLOT_LOCATE_OFF (R307): SLOT_CONTROL locate off ends the locate blink. -/
  | slotLocateOff (acc : Nat)
  /-- SLOT_AUTOMATIC_POWER (R303): SLOT_CONTROL enables or disables automatic power-on for a slot. -/
  | slotAutomaticPower (acc : Nat)
  /-- SLOT_BUTTON_POLICY (R305): SLOT_CONTROL sets the slot's button policy. -/
  | slotButtonPolicy (acc : Nat)
  /-- CLOCK_SET (R643): Sets the calendar time used by the Event Recorder. -/
  | clockSet (acc : Nat)
  /-- SQ_TAIL (R584): Doorbell write giving a submission ring's new tail. -/
  | sqTail (fn : FnId) (ring : Nat) (value : Word)
  /-- CQ_HEAD (R585): Doorbell write reporting consumed completion entries, letting stashed entries be posted. -/
  | cqHead (fn : FnId) (ring : Nat) (value : Word)
  /-- SHADOW_POLL (R587): Poll interval expiry reads a ring's shadow area and takes changed halves as doorbell writes. -/
  | shadowPoll (fn : FnId) (ring : Nat)
  /-- ADMIN_EN (R730): Write of 1 to ADMIN_EN creates the admin ring pair or sets ADMIN_FAULT. -/
  | adminEn (fn : FnId)
  /-- CAUSE_WRITE (R725): RW1C write to the function-event CAUSE register clears cause bits. -/
  | causeWrite (fn : FnId) (value : BitVec 12)
  /-- CAUSE_MASK_WRITE (R724): Write to CAUSE_MASK that may make a function-event message due. -/
  | causeMaskWrite (fn : FnId) (value : BitVec 12)
  /-- INT_EN_WRITE (R724): Write to INT_EN that may make a function-event message due. -/
  | intEnWrite (fn : FnId) (value : Bool)
  /-- FORCE (R726): Write to FORCE sets cause bits exactly as the causes would. -/
  | force (fn : FnId) (value : BitVec 12)
  /-- SUPPRESSED_TOTAL_READ (R722): Read of the RC count SUPPRESSED_TOTAL returns and clears the PF's copy. -/
  | suppressedTotalRead (read : RcRead)
  /-- OVERRUNS_READ (R383): Read of the RC governor OVERRUNS count returns and clears it. -/
  | overrunsRead (read : RcRead)
  /-- MSIX_ENTRY_WRITE (R550): Write to an MSI-X table entry; unmasking sends a held message for a set PBA bit. -/
  | msixEntryWrite (fn : FnId) (vector : Nat) (dword : Nat) (value : Word)
  /-- REGISTER_WRITE (R14): Write to a host, configuration or sideband register that has no row of its own, under its access types. -/
  | registerWrite (target : RegTarget)
  /-- RING_GRANT (R594): The ring engine grants an eligible submission ring and fetches up to its burst of entries. -/
  | ringGrant
  /-- HOST_COMPLETION (R541): A completion TLP for an entry-fetch or data-fetch read arrives from the host. -/
  | hostCompletion (ep : Nat) (tag : Nat) (cpl : HostCpl)
  /-- COMPLETION_TIMEOUT (R562): A host read reaches its completion timeout and its command fails or its fetch is retried. -/
  | completionTimeout (ep : Nat) (tag : Nat)
  /-- TAG_HOLD_EXPIRY (R563): Twice the timeout has passed since a tag's timeout, freeing the tag value. -/
  | tagHoldExpiry (ep : Nat) (tag : Nat)
  /-- COALESCING_TIME (R602): The coalescing time passes after a posted entry, sending the completion ring's MSI-X message. -/
  | coalescingTime (fn : FnId) (ring : Nat)
  /-- CQ_STALL (R601): A completion ring has been backed up for STALL_TIMEOUT, recording EV_CQ_STALL and raising RING_STALL. -/
  | cqStall (fn : FnId) (ring : Nat)
  /-- STASH_POOL_EMPTY (R601): Once-a-second record of EV_STASH_POOL_EMPTY while the stash pool is empty. -/
  | stashPoolEmpty
  /-- LTR_IDLE (R555): Ten milliseconds without activity change the endpoint to idle and send an LTR message. -/
  | ltrIdle (ep : Nat)
  /-- HOST_LINK_UP (R530): An endpoint's link reaches L0 at its trained rate. -/
  | hostLinkUp (ep : Nat) (speed : Nat) (width : Nat) (flit : Bool)
  /-- HOST_LINK_DOWN (R557): DL_Down resets every function of the endpoint as an FLR. -/
  | hostLinkDown (ep : Nat)
  /-- HOT_RESET (R557): A received Hot Reset resets every function of the endpoint as an FLR. -/
  | hotReset (ep : Nat)
  /-- FLR (R558): Function Level Reset destroys the function's rings and stops all its host traffic. -/
  | flr (fn : FnId)
  /-- VF_ENABLE_CLEARED (R557): Clearing VF Enable resets every VF of the PF as an FLR. -/
  | vfEnableCleared (ep : Nat)
  /-- BUS_MASTER_ENABLE_CLEARED (R560): Clearing Bus Master Enable stops a function's requests and ends ungathered WRITEs with ABORTED_BME. -/
  | busMasterEnableCleared (fn : FnId)
  /-- BUS_MASTER_ENABLE_SET (R560): Setting Bus Master Enable posts held completions and messages and resumes fetching. -/
  | busMasterEnableSet (fn : FnId)
  /-- D3HOT_ENTRY (R556): A function enters D3hot and stops requests as if Bus Master Enable were clear. -/
  | d3hotEntry (fn : FnId)
  /-- D0_RETURN (R556): A function returns to D0 keeping its rings and held completions. -/
  | d0Return (fn : FnId)
  /-- PERST_N_ASSERT (R477): PERST_N assertion resets the host link and triggers a lehr pass. -/
  | perstNAssert
  /-- PERST_N_DEASSERT (R750): PERST_N deassertion samples the straps and lets the host port train. -/
  | perstNDeassert (hostBif : Bool) (pairSide : Bool)
  /-- GATHER_FRAMES_AVAILABLE (R149): Free frames let a waiting WRITE take its gather frames and request its data. -/
  | gatherFramesAvailable
  /-- WRITE_COMMIT (R152): A WRITE whose commit conditions all hold installs its blocks in one directory operation. -/
  | writeCommit (acc : Nat)
  /-- READ_LOOKUP (R231): A READ that ordering permits looks up its blocks and issues member reads for missing ones. -/
  | readLookup (acc : Nat)
  /-- STRIPE_INTERLOCK_GRANT (R178): A waiting shared, exclusive or upgrade request on a stripe interlock is granted. -/
  | stripeInterlockGrant (region : Nat) (stripe : Nat)
  /-- DESTAGE_START (R182): The module starts destage of an eligible dirty stripe in R181 order. -/
  | destageStart
  /-- DESTAGE_AGE_LIMIT (R181): A stripe's oldest dirty frame passes the volume's age limit and becomes foreground destage work. -/
  | destageAgeLimit (region : Nat) (stripe : Nat)
  /-- DESTAGE_ENTRY_FREED (R197): A free in-flight destage table entry lets a waiting destage proceed. -/
  | destageEntryFreed
  /-- STAGING_RUN_FREED (R199): Freed staging segments let a waiting destage take its run. -/
  | stagingRunFreed
  /-- COMMIT_STALL (R180): Commits have waited for dirty room for 1 s and EV_COMMIT_STALL is recorded. -/
  | commitStall
  /-- RECLAIM_SWEEP (R147): Fewer than 262,144 free frames start the reclaim sweep until 524,288 are free. -/
  | reclaimSweep
  /-- LR_RECOMPUTE (R166): The once-a-second recomputation of L_r that may change the PWB permission. -/
  | lrRecompute
  /-- PERMISSION_RETURN_FULL (R167): W1 has stayed not asserted with nonzero E_avail for 60 s and the permission returns to FULL. -/
  | permissionReturnFull
  /-- RETIRE_FLUSH (R218): 100 µs after the first queued retire item, a RETIRE record is written. -/
  | retireFlush
  /-- JOURNAL_SPACE_FREED (R220): Journal reclaim frees space and a waiting record is written. -/
  | journalSpaceFreed
  /-- JOURNAL_FULL (R221): A record has waited 1 s for journal space and EV_JOURNAL_FULL is recorded. -/
  | journalFull
  /-- TILE_JOB_COMPLETE (R127): A code tile finishes a job, done or failed, and starts its next queued job. -/
  | tileJobComplete (tile : Nat) (words : List TileWord)
  /-- TILE_QUEUE_PLACE_FREED (R135): A tile queue place frees and a waiting job is queued. -/
  | tileQueuePlaceFreed
  /-- DRIVE_COMPLETION (R279): An NVMe completion from a drive ends a member command and is handed to its requester. -/
  | driveCompletion (port : Nat) (reply : DriveReply)
  /-- HEDGE_DELAY (R247): A member read outstanding for the hedge delay starts a hedged reconstruction. -/
  | hedgeDelay (port : Nat) (req : Nat)
  /-- HEDGE_HOLD_TIMEOUT (R253): 50 ms after a delivered reconstruction, the READ's shared interlock is released. -/
  | hedgeHoldTimeout (task : Nat)
  /-- HEDGE_INTERVAL_END (R250): A 1 s hedge interval ends, resetting the hedge limit and recording EV_HEDGE_LIMIT. -/
  | hedgeIntervalEnd
  /-- HEDGE_THRESHOLD_UPDATE (R242): Every 1 s the pool and member p99 estimates are formed and thresholds and SLOW states updated. -/
  | hedgeThresholdUpdate
  /-- STREAM_IDLE (R268): A run-ahead stream goes 1 s without being extended and is cancelled. -/
  | streamIdle (stream : Nat)
  /-- RUNAHEAD_FRAMES_AVAILABLE (R264): Run-ahead FILLING frames fall below the limit and a waiting unit is issued. -/
  | runaheadFramesAvailable
  /-- DRIVE_LINK_UP (R295): A drive port's link reaches or returns to L0, bringing up the controller. -/
  | driveLinkUp (port : Nat) (speeds : List LinkSpeed) (widths : List Nat) (far : DriveLink)
  /-- DRIVE_LINK_DOWN (R295): A drive port's link leaves L0 and requests are held. -/
  | driveLinkDown (port : Nat)
  /-- LINK_DOWN_HOLD_EXPIRY (R292): A drive link stays out of L0 for 100 ms and the member enters FAILED. -/
  | linkDownHoldExpiry (port : Nat)
  /-- PORT_NO_LINK (R274): A drive link has not reached L0 within 1 s of DPn_PERST_N deassertion. -/
  | portNoLink (port : Nat)
  /-- DRIVE_PERST_DEASSERT (R274): 100 ms after PWR_GOOD is first read high, the port deasserts DPn_PERST_N. -/
  | drivePerstDeassert (port : Nat)
  /-- SMART_POLL (R276): Every 60 s the port reads the drive's SMART / Health Information log. `critical` is the critical warning of a
  log that arrives within the row (R293), none where the read stays outstanding until DRIVE_COMPLETION. -/
  | smartPoll (port : Nat) (critical : Option Bool)
  /-- ASYNCHRONOUS_EVENT (R293): A drive's asynchronous event reports a critical warning. -/
  | asynchronousEvent (port : Nat) (critical : Bool)
  /-- SOFT_TIMEOUT (R284): A non-read member command passes 1 s and is counted and recorded. -/
  | softTimeout (port : Nat) (req : Nat)
  /-- HARD_TIMEOUT (R286): A member command reaches the hard timeout, is aborted and quarantined. -/
  | hardTimeout (port : Nat) (req : Nat)
  /-- QUARANTINE_TIMEOUT (R289): A command has been in quarantine for 30 s and the controller is reset. -/
  | quarantineTimeout (port : Nat) (req : Nat)
  /-- ADMIN_COMMAND_TIMEOUT (R289): A drive admin command has been outstanding for 30 s and the controller is reset. -/
  | adminCommandTimeout (port : Nat)
  /-- CONTROLLER_DISABLED (R290): CSTS.RDY reads 0 during a controller reset; quarantine is released and bring-up runs. -/
  | controllerDisabled (port : Nat)
  /-- CONTROLLER_RESET_TIMEOUT (R291): CSTS.RDY misses its level within CAP.TO and the reset fails. -/
  | controllerResetTimeout (port : Nat)
  /-- CONTROLLER_FATAL_STATUS (R292): CSTS.CFS reads 1 and the member enters FAILED. -/
  | controllerFatalStatus (port : Nat)
  /-- SLOT_SCAN (R296): Every 520 µs a slot chain scan exchanges inbound and outbound bits. -/
  | slotScan (inbound : BitVec 512)
  /-- SLOT_PRESENCE_CHANGE (R300): A debounced PRSNT_N change is accepted, powering on, removing a member or raising a presence conflict. -/
  | slotPresenceChange (slot : Nat) (present : Bool)
  /-- SLOT_BUTTON_PRESS (R305): A debounced BTN_N assertion starts or cancels the 5 s button window. -/
  | slotButtonPress (slot : Nat)
  /-- BUTTON_WINDOW_END (R305): The 5 s button window ends and the slot is powered on, off, or refused. -/
  | buttonWindowEnd (slot : Nat)
  /-- SLOT_POWER_FAULT (R304): PWR_GOOD fails to rise within 100 ms or falls while powered, clearing PWR_EN. -/
  | slotPowerFault (slot : Nat)
  /-- SLOT_POWER_GOOD (R303): PWR_GOOD is read high after PWR_EN takes effect. -/
  | slotPowerGood (slot : Nat)
  /-- SLOT_POWER_OFF_DELAY (R306): 1 ms after DPn_PERST_N is asserted for power-off, PWR_EN is cleared. -/
  | slotPowerOffDelay (slot : Nat)
  /-- REBUILD_REGION_START (R316): A queued region starts rebuild when a place, budget and targets are available. -/
  | rebuildRegionStart
  /-- REBUILD_STRIPE_START (R321): A rebuild stripe takes its interlock and reads survivors for decode. -/
  | rebuildStripeStart (region : Nat)
  /-- REBUILD_RETRY_TIMER (R323): 600 s after a rebuild halts on an unreadable stripe, the stripe is retried. -/
  | rebuildRetryTimer (region : Nat)
  /-- REBUILD_STARVED (R351): The REBUILD share stays zero for 60 s with a CRIT region waiting. -/
  | rebuildStarved (pool : Nat)
  /-- MOVE_START (R339): A copyback or evacuation of a NORMAL region starts. -/
  | moveStart
  /-- SCRUB_PASS_START (R347): A scrub pass of a pool starts. -/
  | scrubPassStart (pool : Nat)
  /-- SCRUB_PERIOD_END (R347): A scrub period ends before its pass, recording EV_SCRUB_BEHIND. -/
  | scrubPeriodEnd (pool : Nat)
  /-- SCRUB_STRIPE (R348): Scrub or a consistency check reads and checks one stripe. -/
  | scrubStripe (pool : Nat)
  /-- GOV_SAMPLE_INSTANT (R358): A governor sample instant applies the budget, splits it, latches fields and samples. -/
  | govSampleInstant (inputs : GovInputs)
  /-- GOV_COMPUTATION_DONE (R370): A period's loop and profile computation completes and is committed. -/
  | govComputationDone
  /-- PWM_INPUT_LOST (R368): PWR_CAP_PWM held low for 2 ms marks the input lost. -/
  | pwmInputLost
  /-- PWM_STEADY_HIGH (R368): PWR_CAP_PWM held high for 2 ms gives k = 1,024 and restores a lost input. -/
  | pwmSteadyHigh
  /-- PWM_INPUT_RESTORED (R368): A complete pulse period of 9 µs or more restores a lost pulse input. -/
  | pwmInputRestored (high : Nat) (period : Nat)
  /-- VAULT_PROGRAM_COMPLETE (R390): A vault page program completes and is read back; a failure retires the block. -/
  | vaultProgramComplete (op : Nat) (back : Option (List (List Nat)))
  /-- VAULT_READ_COMPLETE (R389): A vault read completes, with retries for uncorrectable sectors. -/
  | vaultReadComplete (op : Nat) (reads : List (List Nat))
  /-- VAULT_ERASE_COMPLETE (R393): A vault erase completes, freeing or retiring the block. -/
  | vaultEraseComplete (op : Nat) (ok : List Bool)
  /-- VAULT_CHECKPOINT (R408): Every 60 s, or when the map log is half full, a vault checkpoint is written. -/
  | vaultCheckpoint
  /-- WEAR_MOVE_CHECK (R396): Every 4 h the least-worn full block may be moved onto a worn free block. -/
  | wearMoveCheck
  /-- GARBAGE_COLLECTION_START (R411): Migration or tri-level garbage collection starts on a source block. -/
  | garbageCollectionStart
  /-- VAULT_BLOCK_OPENABLE (R413): A vault write waiting for a block to open proceeds. -/
  | vaultBlockOpenable
  /-- PATROL_PASS_START (R417): A reheat patrol pass starts. -/
  | patrolPassStart
  /-- PATROL_PERIOD_END (R417): A patrol period ends before its pass, recording EV_VAULT_PATROL_BEHIND. -/
  | patrolPeriodEnd
  /-- VAULT_REQUEST_TIMEOUT (R424): A vault-volume request held for 1 s fails with VAULT_UNAVAILABLE. -/
  | vaultRequestTimeout (acc : Nat)
  /-- PERCENT_USED_RECOMPUTE (R425): Every 60 s PERCENT_USED is recomputed, possibly reaching 90 or 100. -/
  | percentUsedRecompute
  /-- VAULT_OPERATION_TIMEOUT (R658): A vault die operation runs 50 ms and its channel is reset. -/
  | vaultOperationTimeout (channel : Nat)
  /-- STATUS_FRAME (R26): A power-link status frame arrives with input power, pack data and warning state. -/
  | statusFrame (frame : StatusFrame)
  /-- STATUS_FRAME_TIMEOUT (R28): No valid status frame for 100 µs makes pack energy unavailable. -/
  | statusFrameTimeout
  /-- PACK_ENERGY_AVAILABLE (R28): Valid frames for 1 s continuously make pack energy available again. -/
  | packEnergyAvailable
  /-- POWER_FAIL_DETECT (R462): VIN_MAIN below 10.5 V for 100 µs drives the power-fail strobe. -/
  | powerFailDetect (vinMv : Nat)
  /-- POWER_FAIL_STROBE (R27): The power-fail strobe starts a lehr pass. -/
  | powerFailStrobe
  /-- DUMP_COMMAND_FRAME (R27): A dump command frame from Punty starts a lehr pass. -/
  | dumpCommandFrame
  /-- LEHR_SEALED (R469): The dump seal is verified and reported to Punty, which stops or resets the logic die. -/
  | lehrSealed (failed unverified : PassPlaces)
  /-- LEHR_TIMEOUT (R470): A lehr pass not sealed within 3.0 s is ended by Punty. -/
  | lehrTimeout
  /-- PUNTY_RELEASE (R469): After VIN_MAIN has held for 100 ms, or a thermal hold ends, Punty resets and releases the logic die. -/
  | puntyRelease
  /-- VIN_OVERVOLTAGE (R430): VIN_MAIN above 14.0 V opens the input switch and signals power-fail. -/
  | vinOvervoltage (vinMv : Nat)
  /-- VIN_RETURN_IN_RANGE (R430): VIN_MAIN within range for 1 s closes the input switch again. An earlier reading of VIN_MAIN begins or breaks the 1 s. -/
  | vinReturnInRange
  /-- VIN_BELOW_HOLDUP (R431): VIN_MAIN below 10.7 V enables the hold-up converter and enters HOLDUP. -/
  | vinBelowHoldup (vinMv : Nat)
  /-- VIN_ABOVE_HOLDUP (R431): VIN_MAIN at 10.8 V disables the converter; after 100 ms HOLDUP returns to IDENTIFY. -/
  | vinAboveHoldup
  /-- HOLDUP_UVLO (R431): PACK_P below n × 2.70 V for 1 ms stops the converter and asserts W3. An earlier reading of PACK_P begins or breaks
the 1 ms. -/
  | holdupUvlo
  /-- HOLDUP_UVLO_RECOVER (R431): PACK_P at or above n × V_0 for 1 s ends the under-voltage stop. An earlier reading of PACK_P begins
or breaks the 1 s. -/
  | holdupUvloRecover
  /-- PACK_PRESENCE_CHANGE (R436): A debounced PACK_PRES_N change moves the pack to ABSENT or IDENTIFY. -/
  | packPresenceChange (present : Bool)
  /-- IDENTIFY_COMPLETE (R436): After 2 s in IDENTIFY, the pack goes to PRECHARGE, CC, CHARGE_HOLD or MISMATCH. -/
  | identifyComplete (reading : PackReading)
  /-- CHARGE_PHASE_CHANGE (R436): Cell or pack voltage reaching its charge level moves PRECHARGE to CC or CC to CV. -/
  | chargePhaseChange (reading : PackReading)
  /-- CHARGE_TERMINATION (R436): Current below I_term for 60 s in CV ends charging with the full anchor. -/
  | chargeTermination
  /-- RECHARGE_NEEDED (R436): In FULL, falling Q or rest voltage returns the pack to CC. -/
  | rechargeNeeded (reading : PackReading)
  /-- CHARGE_END (R436): Over-temperature, over-voltage or a charge timer moves the pack to CHARGE_HOLD. -/
  | chargeEnd (cause : ChargeEnd)
  /-- CHARGE_HOLD_RELEASE (R436): The temperature held within 3 to 42 °C for 60 s releases an over-temperature hold. -/
  | chargeHoldRelease
  /-- LEARN_DISCHARGE_DONE (R436): Discharge since rest point a reaches 0.40 × C_learned and the pack enters LEARN_REST. -/
  | learnDischargeDone
  /-- LEARN_REST_TIMEOUT (R447): No rest point within 4 h of LEARN_REST ends the run with result 4. -/
  | learnRestTimeout
  /-- EAVAIL_COMPUTE (R442): Every 100 ms the power die computes E_avail and evaluates W1 to W3. -/
  | eavailCompute (reading : PackReading)
  /-- REST_POINT (R441): A rest point is taken, anchoring, learning or starting a learning run. -/
  | restPoint (reading : PackReading)
  /-- LEARN_OVERDUE (R448): 180 days, then every further 30 days, without a capacity update set LEARN_OVERDUE. -/
  | learnOverdue
  /-- GAUGE_STORE_PERIODIC (R456): Every 6 h of power-die time the gauge store is written. -/
  | gaugeStorePeriodic
  /-- SHIP_CLEAN_REPORT (R451): The logic die reports no unprotected dirty data and the FETs open in SHIP_ARMED. -/
  | shipCleanReport
  /-- SHIP_RECONNECT (R452): VIN_MAIN held at 10.8 V for 1 s closes the FETs in SHIP. -/
  | shipReconnect
  /-- POWER_DIE_START (R457): The power die starts and loads its gauge store bank. -/
  | powerDieStart
  /-- PACK_SAMPLE (R459): Once per second the power die adds pack samples to the lifetime series. -/
  | packSample (reading : PackReading)
  /-- LOGIC_DIE_RESET_EXIT (R480): The logic die leaves reset and start-up begins. -/
  | logicDieResetExit (found : StartFindings)
  /-- STARTUP_READY (R480): Start-up step 11 attaches volumes, enters READY and starts the governor. -/
  | startupReady
  /-- PAIR_HEARTBEAT (R495): A heartbeat frame arrives from the partner on the pairing port. -/
  | pairHeartbeat (partner : PartnerFrame)
  /-- PARTNER_LOST (R495): No heartbeat for 100 ms records EV_PARTNER_LOST. -/
  | partnerLost
  /-- ARB_HB_TOGGLE (R510): Every 50 ms ARB_HB changes level in the states that allow it. -/
  | arbHbToggle
  /-- FATAL_CONDITION (R511): A fatal condition stops ARB_HB and enters FAILED with a lehr pass. -/
  | fatalCondition (cause : Nat) (island : Nat)
  /-- WATCHDOG_EXPIRY (R511): The firmware watchdog expires, a fatal condition. -/
  | watchdogExpiry
  /-- ARB_FENCE_ASSERT (R512): ARB_FENCE_N accepted asserted fences the module with a fence pass. -/
  | arbFenceAssert
  /-- ARB_FENCE_RELEASE (R512): ARB_FENCE_N not asserted for 100 ms restarts a pin-fenced module. -/
  | arbFenceRelease
  /-- ARB_TAKE_ASSERT (R512): ARB_TAKE_N accepted asserted starts a take-over or is ignored. -/
  | arbTakeAssert (drives : List DriveMeta)
  /-- FENCE_DRAIN_TIMEOUT (R514): 100 ms of reaping in a fence pass ends; ports release reservations and are gated. -/
  | fenceDrainTimeout
  /-- EXPORT_REQUEST (R515): A partner's export request is served with seal, dump sections and journal records. -/
  | exportRequest
  /-- RELEASE (R515): The partner's RELEASE message releases the held dump and journal. -/
  | release
  /-- EXPORT_WAIT (R518): EXPORT_WAIT passes without a partner seal and the take-over continues without import. -/
  | exportWait
  /-- DRIVE_SETTLE (R519): The hard timeout passes since a drive's preempt and member writes to it may begin. -/
  | driveSettle (port : Nat)
  /-- CHANGE_LOG_FLUSH (R502): Every 100 µs waiting metadata changes are written as a change-log record. -/
  | changeLogFlush
  /-- METADATA_CHECKPOINT (R504): Every 600 s, or when the change log is three-quarters full, region-table slices are written. -/
  | metadataCheckpoint
  /-- BITMAP_REWRITE (R509): Every 1 s the region-activity bitmap is rewritten to the other slot. -/
  | bitmapRewrite
  /-- UNIT_DOWN (R658): An island goes down alone on an uncorrectable word in its own state, a drain or a map-out. -/
  | unitDown (island : Nat) (why : DownCause)
  /-- UNIT_UP (R657): An island comes up with its new epoch and the up-notice is sent. -/
  | unitUp (island : Nat)
  /-- ROUTER_TIMEOUT (R660): A mesh router boundary stops answering handshakes for 1 ms, a fatal internal error. -/
  | routerTimeout (island : Nat)
  /-- DROOP_STRETCH_50 (R38): An island supply below 94 % stretches its clock to 50 %. -/
  | droopStretch50 (island : Nat)
  /-- DROOP_STRETCH_25 (R39): An island supply below 90 % stretches its clock to 25 %. -/
  | droopStretch25 (island : Nat)
  /-- DROOP_RECOVER (R40): The supply held above the recovery level for 1 µs raises the clock a step. -/
  | droopRecover (island : Nat)
  /-- SUPPLY_FAULT (R739): A board rail out of range for 2 µs resets the logic die without a lehr pass. -/
  | supplyFault (rail : Nat) (high : Bool)
  /-- REFCLK_LOST (R745): SYS_REFCLK absent for 10 µs switches to the internal oscillator and enters FAILED. -/
  | refclkLost
  /-- THERMAL_WARN (R755): The hottest island reaches 100 °C. -/
  | thermalWarn (island : Nat) (temp : Int)
  /-- THERMAL_TRIP (R756): The hottest island stays at 115 °C for 1 ms and the module enters FAILED. -/
  | thermalTrip (island : Nat) (temp : Int)
  /-- RECORD_ACCEPT (R675): The recorder accepts a record, applying rate limit, full handling and sequence. -/
  | recordAccept (code : Nat) (src : RecordSrc) (p1 p2 p3 : Word)
  /-- RECORDER_COMMIT (R677): Every 100 ms, or at 512 pending, pending records are programmed. -/
  | recorderCommit
  /-- OPERATING_SECONDS_SAVE (R680): Every 60 s the operating seconds count is saved. -/
  | operatingSecondsSave
  /-- HISTOGRAM_INTERVAL_END (R693): A 60 s interval ends, replacing rolling series, recomputing snapshots and saving lifetime series. -/
  | histogramIntervalEnd
  /-- GET_IDENTITY (R710): Mailbox command returning the module identity. -/
  | getIdentity
  /-- GET_HEALTH (R710): Mailbox command returning state and health summary. -/
  | getHealth
  /-- READ_LOG (R710): Mailbox command returning 32 bytes of a log page. -/
  | readLog
  /-- READ_EVENT (R710): Mailbox command returning one event record. -/
  | readEvent
  /-- CLEAR_EVENTS (R710): Mailbox command clearing the fixed records. -/
  | clearEvents
  /-- READ_HISTOGRAM (R710): Mailbox command returning 32 bytes of histogram output. -/
  | readHistogram
  /-- READ_PACK (R710): Mailbox command returning 32 bytes of the pack status block. -/
  | readPack
  /-- MAILBOX_COMPLETE (R706): A mailbox command completes, writing results and setting CMD_DONE. -/
  | mailboxComplete
  /-- ALERT_STATUS_CLEAR (R713): RW1C write to ALERT_STATUS that may end a pending alert. -/
  | alertStatusClear (value : BitVec 10)
  /-- ALERT_ENABLE_WRITE (R713): Write to ALERT_ENABLE that may make an alert pending. -/
  | alertEnableWrite (value : BitVec 10)
  /-- PEC_ERRORS_READ (R704): Read of the RC count PEC_ERRORS returns and clears it. -/
  | pecErrorsRead
  /-- ALERT_RESPONSE (R713): An SMBus Alert Response Address read is answered, ending the pending alert. -/
  | alertResponse
  /-- IBI_RETRY (R713): A NACKed in-band interrupt is retried after 1 ms. -/
  | ibiRetry (acked : Bool)
  /-- ENTDAA (R699): I3C dynamic address assignment puts the target in I3C mode. -/
  | entdaa (dynamicAddr : Nat)
  /-- SETDASA (R699): I3C SETDASA assigns a dynamic address from the static address. -/
  | setdasa (dynamicAddr : Nat)
  /-- RSTDAA (R699): I3C RSTDAA returns the target to SMBus mode. -/
  | rstdaa
  /-- ENEC (R699): I3C ENEC enables in-band interrupts. -/
  | enec
  /-- DISEC (R699): I3C DISEC disables in-band interrupts. -/
  | disec
  /-- GETPID (R699): I3C GETPID returns the provisional ID. -/
  | getpid
  /-- GETBCR (R699): I3C GETBCR returns the bus characteristics register. -/
  | getbcr
  /-- GETDCR (R699): I3C GETDCR returns the device characteristics register. -/
  | getdcr
  /-- GETSTATUS (R699): I3C GETSTATUS returns the target status. -/
  | getstatus
  /-- GETMWL (R699): I3C GETMWL returns the maximum write length. -/
  | getmwl
  /-- GETMRL (R699): I3C GETMRL returns the maximum read length. -/
  | getmrl
  /-- PAIR_HEARTBEAT_SEND (R495): Every 10 ms the module sends a heartbeat frame to its partner over the pairing port. -/
  | pairHeartbeatSend
  /-- DUMP_IMPORT (R518): The partner's seal and exported dump sections and journal records arrive over the pairing port and are checked and imported into HBM. -/
  | dumpImport (theSeal : SealImage) (content : DumpImage)
  /-- PAIRING_LINK_FAILURE (R518): The pairing link fails during an import, so the imported content is discarded and the import retried once or abandoned. -/
  | pairingLinkFailure
  /-- HBM_PARITY_ERROR (R664): An HBM channel interface reports a command or address parity error, counted toward mapping the channel out. -/
  | hbmParityError (channel : Nat)
  /-- HOST_LINK_ERROR (R552): A link-level error on a host endpoint (Receiver Error, Bad TLP or DLLP, replay timeout or rollover, protocol, flow-control, overflow or malformed TLP) is logged in AER. -/
  | hostLinkError (ep : Nat) (err : LinkError)
  /-- BAD_REGISTER_READ (R537): A BAR read of a size or alignment the module does not accept completes with Unsupported Request and records EV_HOST_BAD_ACCESS. -/
  | badRegisterRead (fn : FnId) (bar : Nat) (offset : Nat) (len : Nat)
  /-- BUTTON_REFUSAL_END (R305): Five seconds after a refused button power-off, ATTN stops blinking and returns to the indicator table. -/
  | buttonRefusalEnd (slot : Nat)
  /-- VIN_MAIN_POWER_UP (R740): With the rails down, VIN_MAIN held at or above 10.8 V for 10 ms closes the input switch so VBUS_HOLD and the rails rise. -/
  | vinMainPowerUp (vinMv : Nat)
  /-- CHARGE_COUNT_SAMPLE (R439): At 4 kHz the power die samples the sense current and adds it times 250 µs to Q. -/
  | chargeCountSample (currentMa : Int)
  /-- HISTOGRAM_SAMPLE (R693): Once per second the recorder adds temperature, input-power and droop-entry samples to lifetime series 18 to 25 and their extremes. -/
  | histogramSample (sample : TempSample)
  /-- THERMAL_WARN_END (R755): The hottest island falls to 95 °C, ending the warning and re-arming EV_THERMAL_WARN. -/
  | thermalWarnEnd
deriving DecidableEq, Repr

end Sys2Proof
end

