-- ==== Sys2Proof/Decode.lean ====
section
/-! DEFINITION. Words of commands. The opcode table gives no row any bits: a command of this block is an event at its
edge and has no encoding of its own (a submission entry is parsed by `Machine.parseSqe`, a mailbox command by its CMD
byte), so that no word spells a command. -/

namespace Sys2Proof

/-- The command that a word spells by the table's bits: none, as the table gives no row bits. -/
def decodeTableWord (_nbits _w : Nat) : Option Instr := none

end Sys2Proof
end

