-- ==== Sys2Proof/Config.lean ====
section
/-! DEFINITION. What the manual leaves to the implementation or does not fix: constants without a body, so that no
proof can see a value of them. -/

namespace Sys2Proof.Config

/-- The 256-bit identity fixed at manufacture (R497). -/
opaque identity : BitVec 256

/-- The free value from which every choice that no rule orders is read (which free frame, tag or page is taken); the
reset value of `State.choice`. -/
opaque choiceSeed : Nat

/-- Values the module chooses itself and no rule fixes (a pool seed under R74, an ARRAY_ID under R498), by a counter. -/
opaque fresh : Nat → BitVec 64

/-- The verdict of the ECDSA P-384 check on a firmware image (R480 step 2, R637). -/
opaque imageValid : List Byte → Bool

/-- The version the signed header of an image carries (R764). -/
opaque imageVersion : List Byte → BitVec 32

/-- The firmware in slot A of a new module (R480, R637): its image. -/
opaque factoryImage : List Byte

/-- Whether a vault sector with the given physical address was listed as retired at test (R416): the blocks a new
module retires. -/
opaque factoryRetired : List Nat

/-- What the word check answers where three or more symbols are wrong (R645): 0 good, 1 corrected, else uncorrectable. -/
opaque wordCheck : BitVec 144 → Nat

/-- The data bits that are wrong after such a word has been taken as good or as corrected (R645). -/
opaque wordLeft : BitVec 144 → BitVec 128

/-- The 16 check bits of a data word; the code's matrix cannot be observed (R645). -/
opaque wordChecks : BitVec 128 → BitVec 16

/-- A value that a rule uses and no rule states for the operands at hand, by a number that names the place and the
operands. -/
opaque openValue : Nat → Nat → Int

/-- The metadata areas of the drives as they read at an instant, which an ARRAY_IMPORT takes (R516 step 3, R527): what another module has
written there the commands do not show. -/
opaque drivesAt : Nat → List DriveMeta

end Sys2Proof.Config
end

