-- ==== Sys2Proof/Machine/State.lean ====
section
/-! DEFINITION. The state of the block as plain data, the reasons a step may stop, and the state after reset.

Each field's docstring names the rule of spec/ that gives the field and its reset value (the structure's default). -/

namespace Sys2Proof.Machine

open Sys2Proof

/-- Why the block stops with a fault. No meaning raises one today: every trigger the state does not admit leaves the
state unchanged (00_scope, table conventions). -/
inductive Fault where
  /-- Raised by nothing: the manual gives the block no fault that stops it. Safe. -/
  | none
deriving DecidableEq, Repr

/-- Why a command has no meaning. -/
inductive Refusal where
  /-- Raised by an arm of `exec` whose meaning is not written yet. Safe. -/
  | notModelled (mnemonic : String)
deriving DecidableEq, Repr

/-- Records by key, keys rising and none twice (`Store.wf`); a key that is not listed has no record. -/
abbrev Store (α : Type) := List (Nat × α)

/-- The block's STATE field (R718). -/
inductive DevState where
  | booting | restoring | ready | stopping | stopped | fenced | standby | failed
deriving DecidableEq, Repr

/-- A completion status (R578, R607): class and code. -/
structure Status where
  cls : Nat
  code : Nat
deriving DecidableEq, Repr

/-! ### Host link and functions -/

/-- Per-function state of the host side: bus mastering, power state, MSI-X, global and function block registers. -/
structure Fn where
  /-- 1 bit; Bus Master Enable; R560; reset 0 (DESIGN CHOICE: the PCIe default). -/
  bme : Bool := false
  /-- 1 bit; D3hot; R556; reset D0. -/
  d3 : Bool := false
  /-- 1 bit; MSI-X Enable; R550; reset 0. -/
  msixEnable : Bool := false
  /-- 1 bit; MSI-X Function Mask; R550; reset 0. -/
  functionMask : Bool := false
  /-- MSI-X table by vector: MSG_ADDR, MSG_ADDR_HI, MSG_DATA, MASK; R734; reset 0, 0, 0, 1 for a vector not listed. -/
  msix : Store (Word × Word × Word × Bool) := []
  /-- PBA bits set, ascending vectors; R550, R734; reset none. -/
  pba : List Nat := []
  /-- 1 bit; INT_EN; R718; reset 0. -/
  intEn : Bool := false
  /-- 12 bits; CAUSE; R718, R723; reset 0. -/
  cause : BitVec 12 := 0
  /-- 12 bits; CAUSE_MASK; R718; reset 0. -/
  causeMask : BitVec 12 := 0
  /-- 1 bit; PACK_CROSSED (PF); R718; reset 0. -/
  packCrossed : Bool := false
  /-- 32 bits; SUPPRESSED_TOTAL (each PF its own copy); R718, R722; reset 0. -/
  suppressedTotal : Nat := 0
  /-- 1 bit; ADMIN_ACTIVE; R729; reset 0. -/
  adminActive : Bool := false
  /-- 1 bit; ADMIN_FAULT; R729; reset 0. -/
  adminFault : Bool := false
  /-- 13 bits; ADMIN_DEPTH; R729; reset 0. -/
  adminDepth : Nat := 0
  /-- 11 bits; ADMIN_VECTOR; R729; reset 0. -/
  adminVector : Nat := 0
  /-- 64 bits; ASQ_BASE; R729; reset 0. -/
  asqBase : BitVec 64 := 0
  /-- 64 bits; ACQ_BASE; R729; reset 0. -/
  acqBase : BitVec 64 := 0
  /-- 2 bits; MAX_CLASS, none until set (then the default of R570: PF URGENT, VF HIGH); R570, R618; reset none. -/
  maxClass : Option Nat := none
  /-- IOPS_LIMIT; R596; reset 0. -/
  iopsLimit : Nat := 0
  /-- IOPS_BURST; R596; reset 256. -/
  iopsBurst : Nat := 256
  /-- BW_LIMIT in MB/s; R596; reset 0. -/
  bwLimit : Nat := 0
  /-- BW_BURST in KiB; R596; reset 4,096. -/
  bwBurst : Nat := 4096
  /-- Command bucket in millionths of a command; R596, R597; reset full. -/
  cmdTokens : Int := 256000000
  /-- Byte bucket in bytes; R596, R597; reset full. -/
  byteTokens : Int := 4194304
  /-- Instant the buckets were last filled, µs; R596; reset 0. -/
  tokensAt : Nat := 0
  /-- 4 bits; Device Control 2 completion timeout field; R562; reset 0. -/
  cplTimeout : Nat := 0
  /-- 1 bit; Enable Relaxed Ordering; R546; reset 1 (PRESUMED: the PCIe default). -/
  relaxedOrdering : Bool := true
  /-- Max_Payload_Size in bytes; R545; reset 128 (PRESUMED: the PCIe default). -/
  maxPayload : Nat := 128
  /-- Max_Read_Request_Size in bytes; R545; reset 512 (PRESUMED: the PCIe default). -/
  maxReadRequest : Nat := 512
  /-- 1 bit; 10-bit Tag Requester Enable; R543; reset 0 (PRESUMED). -/
  tenBitTags : Bool := false
  /-- 32 bits; AER uncorrectable status; R552; reset 0. -/
  aerUncorr : Nat := 0
  /-- 32 bits; AER uncorrectable mask; R552; reset 0x400000 (PRESUMED: the standard masks Uncorrectable Internal). -/
  aerUncorrMask : Nat := 0x400000
  /-- 32 bits; AER uncorrectable severity; R552; reset 0x462030 (PRESUMED: the standard's default). -/
  aerUncorrSev : Nat := 0x462030
  /-- 32 bits; AER correctable status; R552; reset 0. -/
  aerCorr : Nat := 0
  /-- 32 bits; AER correctable mask; R552; reset 0x6000 (PRESUMED: the standard's default). -/
  aerCorrMask : Nat := 0x6000
  /-- First Error Pointer, none until an unmasked uncorrectable error is logged; R554; reset none. -/
  firstError : Option Nat := none
  /-- AER header log: the dwords of the TLP of the first unmasked uncorrectable error; R554; reset empty, which reads as zeros (PRESUMED: the
  standard's default). -/
  headerLog : List Word := []
  /-- 64 bits; base address of BAR0, in a PF; R535; reset 0 (PRESUMED: the standard's default). -/
  bar0 : BitVec 64 := 0
  /-- 64 bits; base address of BAR2, in a PF; R535; reset 0 (PRESUMED). -/
  bar2 : BitVec 64 := 0
  /-- Error-reporting enables of Device Control: correctable, non-fatal, fatal, unsupported request; R552; reset 0. -/
  report : Bool × Bool × Bool × Bool := (false, false, false, false)
  /-- ECRC check and generate enables; R533, R552; reset 0. -/
  ecrc : Bool × Bool := (false, false)
  /-- 32 bits; the VF's event floor; R688; reset 0 (none). -/
  floor : Option (BitVec 32) := none
deriving DecidableEq, Repr

/-- What an outstanding host read fetches (R541): entries of a submission ring from an index, the shadow area of a ring,
a piece of a command's segment list, a piece of a command's data at a byte offset, or a piece of a 4 KiB unit of it that is fetched a
second time (R662). -/
inductive ReadKind where
  | entries (sq first count : Nat)
  | shadow (sq : Nat)
  | list (acc offset len : Nat)
  | data (acc offset len : Nat)
  | again (acc offset len : Nat)
deriving DecidableEq, Repr

/-- An outstanding host read by tag (R541, R544, R559). -/
structure HostRead where
  fn : FnId
  kind : ReadKind
  addr : Nat
  at_ : Nat
  /-- its function has been reset, so its completion is discarded (R559) -/
  orphan : Bool := false
  /-- it fetches the data of a WRITE (R553) -/
  write : Bool := false
deriving DecidableEq, Repr

/-- A tag value held after a completion timeout, until twice the timeout has passed (R563). -/
structure HeldTag where
  fn : FnId
  since : Nat
  timeout : Nat
  silent : Bool
deriving DecidableEq, Repr

/-- Per-endpoint state of the host link. -/
structure Endpoint where
  /-- 1 bit; link in L0; R530; reset 0. -/
  up : Bool := false
  /-- trained speed in GT/s; R530; reset 0. -/
  speed : Nat := 0
  /-- trained width; R530; reset 0. -/
  width : Nat := 0
  /-- 1 bit; flit mode; R530, R543; reset 0. -/
  flit : Bool := false
  /-- instant the link came up, µs; R565; reset 0. -/
  upAt : Nat := 0
  /-- TAG_BUDGET; R542; reset 2,048. -/
  tagBudget : Nat := 2048
  /-- ENTRY_TAGS; R542; reset 512. -/
  entryTags : Nat := 512
  /-- outstanding reads by tag value; R541; reset none. -/
  reads : Store HostRead := []
  /-- tag values held after a timeout; R563; reset none. -/
  held : Store HeldTag := []
  /-- 1 bit; ARI Capable Hierarchy; R534; reset 0. -/
  ari : Bool := false
  /-- NumVFs; R534; reset 0. -/
  numVfs : Nat := 0
  /-- 1 bit; VF Enable; R557; reset 0. -/
  vfEnable : Bool := false
  /-- 64 bits; base address of the VFs' BAR0; R535; reset 0 (PRESUMED: the standard's default). -/
  vfBar0 : BitVec 64 := 0
  /-- 64 bits; base address of the VFs' BAR2; R535; reset 0 (PRESUMED). -/
  vfBar2 : BitVec 64 := 0
  /-- 1 bit; LTR Mechanism Enable; R555; reset 0. -/
  ltrEnable : Bool := false
  /-- Max Snoop latency limit in ns; R555; reset 0 (PRESUMED: the PCIe default). -/
  maxSnoop : Nat := 0
  /-- Max No-Snoop latency limit in ns; R555; reset 0 (PRESUMED). -/
  maxNoSnoop : Nat := 0
  /-- 1 bit; the LTR condition last announced is Active; R555; reset 0. -/
  ltrActive : Bool := false
  /-- instant of the last doorbell write or command end, µs; R555; reset 0. -/
  lastActivity : Nat := 0
deriving DecidableEq, Repr

/-- Ring states of R567 (NONE is absence from the list). -/
inductive RingSt where
  | active | error
deriving DecidableEq, Repr

/-- A submission ring (R566 to R573, R583 to R590). -/
structure Sq where
  fn : FnId
  ring : Nat
  base : Nat
  depth : Nat
  cq : Nat
  /-- 4 is ADMIN, 0 URGENT, 1 HIGH, 2 MEDIUM, 3 LOW (R592, R615) -/
  cls : Nat
  burst : Nat
  /-- shadow area address and poll interval in µs (R569) -/
  shadow : Option (Nat × Nat)
  st : RingSt := .active
  /-- fetch pointer (R567, R589) -/
  fetch : Nat := 0
  /-- live tail values: by MMIO and by shadow (R588) -/
  tailMmio : Option Nat := none
  tailShadow : Option Nat := none
  /-- entries accepted since the fetch pointer reached the last value of each path, at most a ring's (R588) -/
  pastMmio : Nat := 0
  pastShadow : Nat := 0
  /-- shadow values read at the previous poll, tail half and head half (R587) -/
  keptTail : Nat := 0
  keptHead : Nat := 0
  /-- entry-fetch failures in a row (R590) -/
  fails : Nat := 0
  /-- entries that have arrived but wait for an earlier one, by ring index (R589) -/
  arrived : Store (List Byte) := []
  /-- start of the present poll interval, µs (R587) -/
  polledAt : Nat := 0
deriving DecidableEq, Repr

/-- A completion entry (R578). -/
structure Cqe where
  result : Word := 0
  resultHi : Word := 0
  sqHead : Nat := 0
  sqIndex : Nat := 0
  jwtAck : Bool := false
  cid : Nat := 0
  status : Status := ⟨0, 0⟩
deriving DecidableEq, Repr

/-- A completion ring (R566 to R569, R578 to R582, R598 to R603). -/
structure Cq where
  fn : FnId
  ring : Nat
  base : Nat
  depth : Nat
  vector : Nat
  ien : Bool
  coalCount : Nat
  coalTime : Nat
  st : RingSt := .active
  head : Nat := 0
  tail : Nat := 0
  /-- 1 in the first lap (R579) -/
  phase : Bool := true
  /-- stashed completion entries, oldest first, at most 64 (R598) -/
  stash : List Cqe := []
  /-- entries waiting with their commands, oldest first (R599) -/
  waiting : List Cqe := []
  /-- entries posted since the last message, and the instant of the first (R602) -/
  sinceMsg : Nat := 0
  firstAt : Nat := 0
  /-- instant from which the ring has been backed up without a break (R601) -/
  backedSince : Option Nat := none
  /-- EV_CQ_STALL recorded in this episode; the STALLED bit (R601, R732) -/
  stalled : Bool := false
deriving DecidableEq, Repr

/-- A submission entry as fetched (R573, R615). -/
structure Sqe where
  opcode : Nat
  fence : Bool
  fua : Bool
  dptrMode : Nat
  cid : Nat
  vol : Nat
  /-- bytes 0x08 to 0x0F: LBA in [39:0] for I/O opcodes -/
  w08 : Nat
  nblocks : Nat
  dptrAddr : Nat
  dptrLen : Nat
  /-- PARAM0 to PARAM6 -/
  params : List Word
deriving DecidableEq, Repr

/-- The stages of an accepted host command (R186, R149 to R157, R231, R617). -/
inductive Phase where
  /-- accepted, its step not started -/
  | accepted
  /-- a WRITE waiting for gather frames (R149) -/
  | gatherWait
  /-- data being fetched from the host -/
  | gathering
  /-- every byte arrived and stored good; waits for its commit conditions (R151) -/
  | gathered
  /-- committed; the completion waits for durability (R157) -/
  | committed
  /-- a READ or VERIFY whose lookup waits for R187 -/
  | ordered
  /-- a READ or VERIFY collecting its blocks -/
  | reading
  /-- started, waiting for another happening (DEVICE_STOP, MEMBER_REPLACE, FLUSH, VOLUME_CREATE …) -/
  | running
deriving DecidableEq, Repr

/-- One block of a READ or VERIFY: not yet obtained, obtained, or not obtainable (R235). -/
inductive BlockSt where
  | pending | have_ (data : Block) | lost
deriving DecidableEq, Repr

/-- An accepted host command whose completion entry has not been generated, or that runs on after its ring is gone
(R186, R558). -/
structure Cmd where
  acc : Nat
  fn : FnId
  sq : Nat
  sqe : Sqe
  /-- instant of acceptance, µs (R364, R693) -/
  at_ : Nat
  phase : Phase := .accepted
  /-- its ring has been destroyed: no completion entry (R558) -/
  silent : Bool := false
  /-- the buffers of the data: (address, length) in order, once known (R577) -/
  buffers : Option (List (Nat × Nat)) := none
  /-- the segment list as it arrives: (byte offset, bytes) (R577) -/
  listBytes : Store (List Byte) := []
  /-- host data of an admin command, by byte offset -/
  data : Store (List Byte) := []
  /-- next data byte to request from the host -/
  asked : Nat := 0
  /-- units of 4 KiB whose data is fetched again, and the (offset, length) still to be requested for them (R662) -/
  refetched : List Nat := []
  again : List (Nat × Nat) := []
  /-- bytes arrived and stored good (R150) -/
  good : Nat := 0
  /-- gather frames in LBA order (R149) -/
  frames : List Nat := []
  /-- sectors of a vault WRITE verified so far, as (LBA, physical address, CONTENT_SEQ) (R421) -/
  vdone : List (Nat × Nat × Nat) := []
  /-- commit generation (R143) -/
  gen : BitVec 32 := 0
  /-- acknowledged under the JWT rule though the volume is PWB (R169, R578) -/
  jwtAck : Bool := false
  /-- the segment list's (offset, length) still to be read (R577) -/
  listAsk : List (Nat × Nat) := []
  /-- the volume's mode at acceptance (R156); from the commit on, the rule its completion waits for (R157, R159, R169) -/
  rule : AckMode := .pwb
  /-- journal records that must commit before completion (R157) -/
  journalSeqs : List Nat := []
  /-- (volume LBA, generation) pairs that must be destaged before completion (R157, R160) -/
  cover : List (Nat × BitVec 32) := []
  /-- covered blocks dropped under R185, as LBAs -/
  dropped : List Nat := []
  /-- blocks of a READ or VERIFY -/
  blocks : List BlockSt := []
  /-- the READ has looked up its blocks (R231) -/
  looked : Bool := false
  /-- vault sectors still to be programmed or read for this command (R421) -/
  vaultLeft : Nat := 0
  /-- zero tasks of VOLUME_CREATE still running (R623) -/
  tasksLeft : Nat := 0
  /-- instant from which its commit waits for dirty room (R180) -/
  stallSince : Option Nat := none
  /-- it has had to wait for destages that hold superseded frames (R468) -/
  heldBack : Bool := false
deriving DecidableEq, Repr

/-! ### Array: templates, pools, members, regions, volumes -/

/-- Latency bins of R241 for the last ten 1 s intervals: the running interval first; (bin, count) pairs. -/
abbrev Hist := List (Nat × Nat)

/-- A pool (R49, R66, R67, R74, R242 to R246, R286, R293, R347, R353). -/
structure Pool where
  chunkCode : Nat
  /-- spare divisor S, 0 for none; R67; reset 32 -/
  spare : Nat
  seed : BitVec 32
  /-- rows R; R66 -/
  rows : Nat
  /-- hedge mode; R244; reset 0 -/
  hedgeMode : Nat := 0
  /-- fixed threshold µs of mode 1; R244 -/
  hedgeFixed : Nat := 500
  /-- automatic threshold µs; R242, R243; reset 2,000 -/
  hedgeAuto : Nat := 2000
  /-- value in the last EV_HEDGE_THRESHOLD; R246 -/
  hedgeRecorded : Nat := 2000
  /-- hard timeout s; R286; reset 8 -/
  hardTimeout : Nat := 8
  /-- media threshold; R293; reset 32 -/
  mediaThreshold : Nat := 32
  /-- scrub period days; R347; reset 14 -/
  scrubDays : Nat := 14
  /-- read counts per 1 s interval, newest first, at most ten complete; R242 -/
  hist : List Hist := [[]]
  /-- hedges started and refused in this interval, foreground reads of the previous one; R250 -/
  hedgesNow : Nat := 0
  refusedNow : Nat := 0
  readsPrev : Nat := 0
  /-- paused by REBUILD_CONTROL; R352; reset 0 -/
  paused : Bool := false
  /-- scrub pass: next (region, stripe), none when no pass runs; R347 -/
  scrubAt : Option (Nat × Nat) := none
  scrubStarted : Nat := 0
  scrubBehind : Bool := false
  /-- REBUILD_BYTES, SCRUB_PASSES, SCRUB_MISMATCHES; R353; reset 0 -/
  rebuildBytes : Nat := 0
  scrubPasses : Nat := 0
  scrubMismatches : Nat := 0
  /-- REBUILD share zero with a CRIT region waiting since; recorded in this episode; R351 -/
  starvedSince : Option Nat := none
  starvedRecorded : Bool := false
  /-- EV_SPARE_LOW recorded and condition not yet ceased; R354 -/
  spareLow : Bool := false
  /-- foreign pool not imported; R96, R484 -/
  foreign_ : Bool := false
  /-- foreground reads counted in this hedge interval; R250 -/
  readsNow : Nat := 0
  /-- tells the pool from an earlier one of its number, in the saved counters -/
  born : Nat := 0
deriving DecidableEq, Repr

/-- A member, by port (R99, R293, R311). -/
structure Member where
  pool : Nat
  st : MemberSt := .online
  lbaSize : Nat
  capacity : Nat
  softTimeouts : Nat := 0
  hardTimeouts : Nat := 0
  abortsSent : Nat := 0
  lateCompletions : Nat := 0
  mediaErrors : Nat := 0
  controllerResets : Nat := 0
  linkDowns : Nat := 0
  /-- instants of media errors and hard timeouts in the windows of R292, µs -/
  mediaTimes : List Nat := []
  hardTimes : List Nat := []
  /-- member latency window; R245 -/
  hist : List Hist := [[]]
  /-- seconds at or below half the threshold; R99, R245 -/
  slowSecs : Nat := 0
  failedAt : Nat := 0
  /-- regions rebuilt since the failure, the positions it affected then that are still without a complete target, as (region,
  position), event recorded; R324 -/
  rebuilt : Nat := 0
  owed : List (Nat × Nat) := []
  rebuildDone : Bool := false
  /-- evacuation (SUSPECT) or copyback (REPLACING): moved so far, started at; R341, R342 -/
  moved : Nat := 0
  movedSince : Nat := 0
  evacDone : Bool := false
  /-- the member record of a drive replaced in join mode, dropped once nothing refers to it; R99 -/
  dropPending : Bool := false
  /-- tells the membership from an earlier one of its port, in the saved counters -/
  born : Nat := 0
deriving DecidableEq, Repr

/-- One entry of a loss report (R626). -/
structure LossEntry where
  firstLba : Nat
  blocks : Nat
  region : Nat
  cause : Nat
deriving DecidableEq, Repr

/-- A volume (R63, R96, R143, R156, R181, R269, R420, R622 to R627). -/
structure Volume where
  vault : Bool
  capacity : Nat
  template : Nat := 0
  pool : Nat := 0
  /-- ordered region list; R62 -/
  vmap : List Nat := []
  attached : Option FnId := none
  /-- acceptance number of a VOLUME_DETACH in progress; R625 -/
  detaching : Option Nat := none
  /-- accepted VOLUME_DELETE in progress; R624 -/
  deleting : Bool := false
  init : Bool := false
  ackMode : AckMode := .pwb
  /-- age limit ms; R181; reset 1,000 -/
  ageLimit : Nat := 1000
  /-- commit counter; R143; reset 0 -/
  commitCtr : BitVec 32 := 0
  /-- the running restart has found a generation of the volume, and `commitCtr` is the highest so far; R143; reset false -/
  genFound : Bool := false
  cacheLost : Bool := false
  lossSeq : BitVec 32 := 0
  loss : List LossEntry := []
  lossOverflow : Bool := false
  /-- blocks dropped under R185 and not written since: reads of them fail until the report is acknowledged -/
  lostBlocks : List Nat := []
  hedgesStarted : Nat := 0
  hedgesWon : Nat := 0
  hedgesRefused : Nat := 0
  returnedSuspect : Nat := 0
  returnedFalse : Nat := 0
  unresolved : Nat := 0
  lateUncompared : Nat := 0
  readRepairs : Nat := 0
  dataLostReads : Nat := 0
  runaheadVisible : Nat := 0
  runaheadDiscarded : Nat := 0
  /-- tells the volume from an earlier one of its number, in the saved counters -/
  born : Nat := 0
deriving DecidableEq, Repr

/-- A whole-region re-placement record (R332): the new set of slots. -/
structure Placement where
  bitmap : Mask
  row : Nat
  perm : BitVec 16
deriving DecidableEq, Repr

/-- A move record (R339): copyback or evacuation of one position, and what its slot held before. -/
structure Move where
  copyback : Bool
  port : Nat
  pos : Nat
  srcPort : Nat
  srcRow : Nat
  dstPort : Nat
  dstRow : Nat
  before_ : Option Reloc
deriving DecidableEq, Repr

/-- Work on a region beyond its entry: rebuild place, queue, halt, in-flight stripes (R315 to R324, R332, R339). -/
structure RegionWork where
  queued : Bool := false
  /-- 0 not promoted, else the place in the order of promotions, a later one before an earlier; R352 -/
  promoted : Nat := 0
  place : Bool := false
  /-- the stripes at which it is halted, each with the instant (R323) -/
  halted : List (Nat × Nat) := []
  /-- stripes complete at or above WATERMARK -/
  done : List Nat := []
  replace : Option Placement := none
  move : Option Move := none
  /-- no target or no room was found: the slots then in use and the drives then there; it tries again when one of the slots
  is freed or a drive is added (R84, R319, R330) -/
  waits : Option (List (Nat × Nat) × List Nat) := none
  /-- REPORT_ONLY option of a queued check, next stripe of the check (R350, R629) -/
  reportOnly : Bool := false
  checkNext : Nat := 0
  /-- the stripes in flight drain before the watermark is reset to 0 (R329) -/
  restartAt0 : Bool := false
deriving DecidableEq, Repr

/-! ### Cache, interlock, tasks, destage table -/

/-- A frame's directory entry (R140) with its data; FREE frames are not listed. `next` is the hash chain (R141). -/
structure Frame where
  vol : Nat
  lba : Nat
  st : FrameSt
  journaled : Bool := false
  absorbed : Bool := false
  ref : Bool := false
  pins : Nat := 0
  gen : BitVec 32 := 0
  next : Option Nat := none
  data : Block := []
  /-- the data holds an uncorrectable word (R662) -/
  bad : Bool := false
  /-- instant it became DIRTY, µs (R179) -/
  dirtyAt : Nat := 0
  /-- held by a destage, a parison delta (R145) -/
  holds : Nat := 0
  /-- dirty with JOURNALED = 0 when the permission became JOURNALED: covered by that urgent destage (R167) -/
  urgent : Bool := false
  /-- run-ahead fill (R264) -/
  runahead : Bool := false
  /-- the journal record (SEQ, block) that holds this content (R185) -/
  jref : Option (Nat × Nat) := none
deriving DecidableEq, Repr

/-- A stripe interlock (R178, R255): holders and the queue in arrival order; `true` asks exclusively. -/
structure Lock where
  shared : List Nat := []
  excl : Option Nat := none
  queue : List (Nat × Bool) := []
  upgrade : Option Nat := none
deriving DecidableEq, Repr

/-- A line repair (R117, R121, R123): tier, the line's positions in digit order, those repaired, and those whose content is
wanted. -/
structure Repair where
  tier : Nat
  line : List Nat
  lost : List Nat
  out : List Nat := lost
deriving DecidableEq, Repr

/-- The operation of a tile job (R125). -/
inductive JobOp where
  /-- ENCODE of a line's check rows: tier, line positions in digit order -/
  | encode (tier : Nat) (line : List Nat)
  /-- DECODE of a line's lost positions, with those written -/
  | decode (tier : Nat) (line lost out : List Nat)
  /-- UPDATE of at most 8 touched check positions by the change of a data position: input 0 is its old content, input 1 the new -/
  | update (pos : Nat) (outs : List Nat)
  /-- UPDATE of at most 8 strips of a parison's accumulator by a frame, with the frame it supersedes -/
  | absorb (parison frame : Nat) (old : Option Nat) (outs : List Nat)
  | verify (tier : Nat) (line : List Nat)
  | locate (tier : Nat) (line : List Nat)
  /-- a pattern of the self-test: 0 ENCODE, 1 DECODE, 2 LOCATE (R133, R635) -/
  | pattern (k : Nat)
deriving DecidableEq, Repr

/-- A tile operation of a task and the segments it covers (R125, R127). -/
structure TileOp where
  op : JobOp
  segs : List Nat
deriving DecidableEq, Repr

/-- What a stripe task is for. -/
inductive TaskKind where
  /-- the missing blocks of command `acc` in one stripe (R232, R233, R237) -/
  | fill (acc : Nat)
  /-- a run-ahead unit of a stream (R260 to R266) -/
  | unit (stream : Nat)
  /-- the hedged reconstruction of a member read of a fill or unit task (R249) -/
  | hedge (ofTask req pos : Nat)
  /-- a destage (R182) -/
  | destage
  /-- a re-destage of a restored entry, or the replay of journal records (R205, R224) -/
  | redestage (records : List Nat)
  /-- a consistency-repair write of a read's repaired segments (R238) -/
  | repair
  /-- a rebuild stripe (R321) -/
  | rebuild
  /-- a move or re-placement stripe (R333, R340) -/
  | copy
  /-- a scrub or check stripe (R348) -/
  | scrub (reportOnly check : Bool)
  /-- the resolution of late member data (R255, R256) -/
  | resolve
  /-- zeroing of a new region's stripe (R623), for command `acc` -/
  | zero (acc : Nat)
deriving DecidableEq, Repr

/-- How a destage writes its stripe: the rows of the method table of R182. -/
inductive How where
  | parison | encode | rmw | reconstruct | full | lostRegion
deriving DecidableEq, Repr

/-- The stages of a stripe task. -/
inductive Stage where
  | lockWait | entryWait | stagingWait | journalWait | reading | writing | retiring | late | uncompared
deriving DecidableEq, Repr

/-- A READ as the records of the read path name it, which outlive its command, and the blocks that it takes from a task, as LBAs
(R254, R259, R270). -/
structure ReadTag where
  acc : Nat
  fn : FnId
  ring : Nat
  cid : Nat
  first : Nat
  blocks : Nat
  took : List Nat := []
deriving DecidableEq, Repr

/-- Late member data that differed from what was delivered (R254, R255): the READs it was delivered to, the position, both contents
by segment, the volume blocks delivered in the differing segments, and the FILLING frames that hold the late data (R252). -/
structure LateRead where
  reads : List ReadTag
  pos : Nat
  late : List (Nat × Block)
  delivered : List (Nat × Block)
  lbas : List Nat
  frames : List Nat := []
deriving DecidableEq, Repr

/-- A READ whose late data differed, until every resolution it takes part in is over (R259): what they found so far. -/
structure Suspect where
  tag : ReadTag
  vol : Nat
  row : Nat := 0
  wrong : Bool := false
  open_ : Bool := false
  lbas : List Nat := []
deriving DecidableEq, Repr

/-- Work on one stripe by one requester: what it reads, computes and writes. -/
structure Task where
  kind : TaskKind
  vol : Nat
  region : Nat
  stripe : Nat
  stage : Stage := .lockWait
  /-- 4 KiB segments covered, in SEG_MASK order -/
  segs : List Nat
  /-- cells wanted, as (position, segment) -/
  want : List (Nat × Nat) := []
  /-- positions treated as lost for this task beyond the region's lost set (R238, R239, R766) -/
  lost : List Nat := []
  /-- content in hand: (position, segment, block) -/
  got : List (Nat × Nat × Block) := []
  /-- tile operations still to carry out, innermost first (R112, R123) -/
  todo : List TileOp := []
  /-- outstanding member requests, as (request, position) -/
  reads : List (Nat × Nat) := []
  writes : List (Nat × Nat) := []
  /-- cells whose read ended in a media error or a bad word, to be recovered and written back (R238, R348), as (position, segment) -/
  back : List (Nat × Nat) := []
  /-- the tile job in progress -/
  job : Option Nat := none
  /-- METHOD (R197) and how the stripe is written (R182) -/
  method : Nat := 0
  how : How := .encode
  writeMask : Mask := 0
  doneMask : Mask := 0
  /-- content to write: (position, segment, block) -/
  newData : List (Nat × Nat × Block) := []
  /-- frames this destage writes, or a re-destage reads and then writes, as (frame, position, segment) -/
  frames : List (Nat × Nat × Nat) := []
  /-- destage table entry, staging run (first segment, length), journal records -/
  entry : Option Nat := none
  staging : Option (Nat × Nat) := none
  journal : List Nat := []
  tableMethod : Bool := true
  /-- R203 applies: a table-method destage that has a DESTAGE record too -/
  both : Bool := false
  regionGen : BitVec 32 := 0
  seq : Nat := 0
  parison : Option Nat := none
  /-- foreground (R133, R283) -/
  fg : Bool := true
  /-- the budget class its member bytes count against, none for work the governor never limits, and the bytes charged at its start that
  no request has used yet (R351, R356, R377) -/
  cls : Option Nat := none
  paid : Nat := 0
  /-- cells zeroed under R767 or R225, as (position, segment) -/
  zeroed : List (Nat × Nat) := []
  /-- frames of a fill, as (frame, position, segment) -/
  fills : List (Nat × Nat × Nat) := []
  /-- the commands that have attached to the fill, as (acceptance number, LBA), and whether a host READ has (R232, R248) -/
  attached : List (Nat × Nat) := []
  readAttached : Bool := false
  /-- what the READ's cells could not give, as (position, segment) -/
  missing : List (Nat × Nat) := []
  /-- member reads whose hedge has started or was refused (R247, R250) -/
  hedged : List Nat := []
  /-- hedged member reads that have ended without good data while their reconstruction runs, which alone decides now, as (request,
  position, segments, whether the position is to be written back) (R238, R239, R252) -/
  failing : List (Nat × Nat × List Nat × Bool) := []
  /-- member reads that go on after their reconstruction was delivered, as (request, position) (R252) -/
  lateReads : List (Nat × Nat) := []
  /-- instant of the delivery (R253) -/
  deliveredAt : Nat := 0
  /-- the READs that it delivers to (R259) -/
  owners : List ReadTag := []
  late : List LateRead := []
  /-- what VERIFY found: (tier, line, segment, mismatch mask) -/
  findings : List (Nat × List Nat × Nat × Nat) := []
  /-- what LOCATE found: (tier, line, segment, the position it names, if it names one) -/
  located : List (Nat × List Nat × Nat × Option Nat) := []
  /-- positions unreadable for this stripe (R348) -/
  unreadable : List Nat := []
  /-- rows applied so far to each READ of a resolution: (index in `late`, segment, row, judged false) (R257, R259) -/
  rows : List (Nat × Nat × Nat × Bool) := []
  /-- a failed tile job: tile, input index; its operation is tried once more (R130) -/
  firstFail : Option (Nat × Nat) := none
  /-- the second phase of the computation has begun: encoding after recovery, LOCATE after VERIFY -/
  phase2 : Bool := false
  /-- cells of outstanding reads, as (position, segment) -/
  asked : List (Nat × Nat) := []
  /-- cells never read from a member for this task (R206), as (position, segment) -/
  never : List (Nat × Nat) := []
  /-- cells that a replay reads from a member only for their own content, never to repair others (R224) -/
  noRepair : List (Nat × Nat) := []
  /-- CLEAN frames whose content a full-stripe rewrite takes, as (frame, position, segment); its tile jobs pin them (R140, R182) -/
  clean : List (Nat × Nat × Nat) := []
  /-- its next tile job waits for the pin of a frame whose PIN_COUNT is 31 (R148) -/
  pinWait : Bool := false
  /-- a re-destage has repaired a lost data position (R490) -/
  repaired : Bool := false
  /-- what the restart supplies to the repairs of a re-destage or replay, as (position, segment, block) (R206, R224) -/
  given : List (Nat × Nat × Block) := []
  /-- generations that a re-destage writes, as (position, segment, generation) -/
  gens : List (Nat × Nat × BitVec 32) := []
deriving DecidableEq, Repr

/-- An in-flight destage table entry (R197); listed entries have VALID = 1. -/
structure Entry where
  seq : Nat
  region : Nat
  template : Nat
  regionGen : BitVec 32
  vol : Nat
  stripe : Nat
  method : Nat
  parison : Option Nat
  newestGen : BitVec 32
  writeMask : Mask
  doneMask : Mask
  segMask : Mask
  /-- first staging segment and run length (R199) -/
  staging : Option (Nat × Nat)
deriving DecidableEq, Repr

/-- A parison (R171 to R177): where its granules lie, fill point, home tile, content. -/
structure Parison where
  vol : Nat
  region : Nat
  stripe : Nat
  inSram : Bool := true
  granules : Nat
  fill : Nat := 0
  home : Nat
  lastAbsorbed : Nat := 0
  /-- accumulated check content (position, segment, block); absent means zero -/
  acc : List (Nat × Nat × Block) := []
  /-- UPDATE job issued and not complete (R174, R175) -/
  jobs : List Nat := []
  /-- the absorption under way: frame, the frame it supersedes, and the strips of its jobs still to issue, 8 to a job (R125) -/
  current : Option (Nat × Option Nat × List (List Nat)) := none
  /-- differences queued: (new frame, superseded frame) (R145, R175) -/
  deltas : List (Nat × Nat) := []
  /-- its next UPDATE waits for the pin of a frame whose PIN_COUNT is 31 (R148) -/
  pinWait : Bool := false
deriving DecidableEq, Repr

/-- A run-ahead stream (R261). -/
structure Stream where
  vol : Nat
  next : Nat
  run : Nat
  extends_ : Nat
  active : Bool := false
  depth : Nat := 4
  at_ : Nat
  /-- units waiting for frames (R264), as first LBAs -/
  waiting : List Nat := []
deriving DecidableEq, Repr

/-! ### Code tiles -/

/-- A job on a tile (R127, R133 to R136). -/
structure Job where
  id : Nat
  op : JobOp
  /-- requesting task; none for a parison or the self-test -/
  task : Option Nat
  fg : Bool
  /-- input bytes (R134) -/
  bytes : Nat
  /-- the segments it covers (R127) -/
  segs : List Nat := []
  /-- DEST_EPOCH and SRC_EPOCH of its request (R653) -/
  dest : BitVec 8 := 0
  src : BitVec 8 := 0
  /-- the cache frames among its inputs, which it pins (R140) -/
  pins : List Nat := []
deriving DecidableEq, Repr

/-- A code tile (R124, R134 to R136, R664). -/
structure Tile where
  running : Option Job := none
  queue : List Job := []
  fgRun : Nat := 0
  /-- instants of failures counted under R130 and resets under R658, µs (R664) -/
  failTimes : List Nat := []
  resetTimes : List Nat := []
deriving DecidableEq, Repr

/-! ### Drive ports and slots -/

/-- A member request in a port (R279 to R288): a read or write of segments of one position of a stripe. -/
structure Req where
  task : Nat
  write : Bool
  fg : Bool
  region : Nat
  stripe : Nat
  pos : Nat
  segs : List Nat
  /-- slot row on this port's drive -/
  row : Nat
  data : List Block := []
  /-- GENERATION read at issue (R87) -/
  gen : BitVec 32
  acceptedAt : Nat
  /-- submission instant; none while it waits in the port (R284, R285) -/
  submittedAt : Option Nat := none
  softCounted : Bool := false
  /-- in quarantine since (R286); the requester has been answered -/
  quarantined : Option Nat := none
  /-- it is the reissue of a request that failed (R227, R238, R321) -/
  retry : Bool := false
  /-- DEST_EPOCH and SRC_EPOCH (R653) -/
  dest : BitVec 8 := 0
  src : BitVec 8 := 0
  /-- byte offset on the drive (R64, R65) -/
  off : Nat := 0
  /-- the queue and command identifier it was submitted with (R283, R284) -/
  slot : Option (Nat × Nat) := none
  /-- a write of the array metadata; `task` is then its job (R768) -/
  meta_ : Bool := false
  /-- its bytes are rebuild work of this pool (R353) -/
  rebuild : Option Nat := none
  /-- may be hedged (R247, R248), and is counted in the latency histograms (R240) -/
  hedgeable : Bool := false
  counted : Bool := false
deriving DecidableEq, Repr

/-- How a member request ended for its requester (R238, R239, R286, R294): a block or a bad word for each segment. -/
inductive ReqResult where
  | ok (data : List (Option Block))
  | media | other | absent | timeout
deriving DecidableEq, Repr

/-- Follow-up work inside one step, done before the step ends. -/
inductive Todo where
  /-- a task's interlock is granted -/
  | start (task : Nat)
  /-- a member request has ended -/
  | reqDone (port id : Nat) (req : Req) (res : ReqResult)
  /-- a task goes on after a change to its reads, jobs or writes -/
  | advance (task : Nat)
  /-- a criterion of R292 is met -/
  | fail (port cause : Nat) (removed : Bool)
  /-- a read or verify may be complete -/
  | readCheck (acc : Nat)
  /-- a task was to write a frame's block, and the exit met a marked word in it -/
  | marked (task frame : Nat)
deriving DecidableEq, Repr

/-- The controller of a drive as the port sees it (R274, R276, R290, R295). -/
inductive CtlSt where
  | off
  /-- DPn_PERST_N deasserted, link not yet up -/
  | training
  /-- bring-up step 1 to 7 of R276 -/
  | bringUp (step : Nat)
  | ready
  /-- CC.EN = 0, waiting for CSTS.RDY = 0 -/
  | disabling
  | failed
  | unused
deriving DecidableEq, Repr

/-- Why a controller reset runs (EV_CONTROLLER_RESET, R312). -/
inductive ResetWhy where
  | quarantine | adminTimeout | linkReturn
  /-- an uncorrectable word in the port's queue state (R658) -/
  | queueState
deriving DecidableEq, Repr

/-- The admin commands to a drive that the 30 s of R289 apply to: a bring-up step from 2 on, the health log, an Abort, a Reservation
Report, a Reservation Release (R514). -/
inductive AdminOp where
  | bringUp | health | abort (req : Nat) | report | release
  /-- Identify Controller for a self-test (R635) -/
  | identify
deriving DecidableEq, Repr

/-- A drive port and its slot (R271 to R311). -/
structure Port where
  linkUp : Bool := false
  /-- trained rate, width, Max_Payload_Size and CAP.TO; R271, R273, R291 -/
  speed : Option LinkSpeed := none
  width : Nat := 0
  maxPayload : Nat := 128
  capTo : Nat := 0
  ctl : CtlSt := .off
  /-- a reset is running, with its reason (R289, R295) -/
  resetWhy : Option ResetWhy := none
  /-- instant the link left L0 (R292, R295) -/
  linkDownAt : Option Nat := none
  /-- DPn_PERST_N asserted; R274; reset asserted -/
  perst : Bool := true
  perstAt : Nat := 0
  info : Option DriveInfo := none
  /-- controller level change awaited since (R291); admin commands outstanding, each since when (R289) -/
  rdySince : Nat := 0
  admin : List (AdminOp × Nat) := []
  unusable : Bool := false
  /-- requests by number, in arrival order -/
  reqs : Store Req := []
  /-- requests whose Abort waits for the drive's limit (R287) -/
  aborts : List Nat := []
  /-- a Reservation Report runs, and the reservation is to be taken by Preempt (R309) -/
  preempting : Bool := false
  /-- reservation held by this module (R308) -/
  reserved : Bool := false
  /-- settle hold after a preempt, since (R519) -/
  settle : Option Nat := none
  drained : Bool := false
  /-- a power-on is in progress: from PWR_EN until the controller is ready or the drive is found unusable (R305, R307) -/
  poweringOn : Bool := false
  /-- slot outbound bits: PWR_EN, ATTN, PWR_IND; R298; reset 0 -/
  pwrEn : Bool := false
  attn : Nat := 0
  pwrInd : Nat := 0
  /-- the outbound byte last shifted and in effect; R300 -/
  shifted : Byte := 0
  inEffect : Byte := 0
  /-- inbound bits accepted: PRSNT_N, BTN_N, PWR_GOOD; reset 1, 1, 0 (an empty slot) -/
  prsntN : Bool := true
  btnN : Bool := true
  pwrGood : Bool := false
  /-- debounce: level read last and consecutive scans for PRSNT_N, BTN_N and PWR_GOOD (R300) -/
  prsntRaw : Bool × Nat := (true, 0)
  btnRaw : Bool × Nat := (true, 39)
  pwrRaw : Bool × Nat := (false, 39)
  conflict : Bool := false
  powerFault : Bool := false
  faultBit : Bool := false
  buttonBit : Bool := false
  cmdCompleted : Bool := false
  autoPower : Bool := true
  buttonPolicy : Bool := false
  /-- button window since, with the former PWR_IND (R305) -/
  window : Option (Nat × Nat) := none
  refusalSince : Option Nat := none
  locate : Bool := false
  /-- PWR_GOOD has been read high since PWR_EN took effect (R303, R304) -/
  sawGood : Bool := false
  /-- PWR_EN took effect at; PWR_GOOD first high at; power-off PERST asserted at -/
  pwrOnAt : Option Nat := none
  goodAt : Option Nat := none
  offAt : Option Nat := none
  /-- the SLOT_CONTROL commands that wait for this slot, in the order in which they started, and whether the outbound bits as each left
  them have been shifted (R300, R642) -/
  slotCmds : List (Nat × Bool) := []
  pollAt : Nat := 0
deriving DecidableEq, Repr

/-! ### Journal -/

/-- A journal record in the ring (R210 to R221). -/
structure JRec where
  img : JRecImage
  /-- pages not yet verified (R215) -/
  pages : Nat
  committed : Bool := false
  /-- items retired: block numbers, 0x1FF the whole record (R213, R219) -/
  retired : List Nat := []
deriving DecidableEq, Repr

/-- Records that wait for ring space together (R214, R220), since when (R221), and for which command or task. -/
structure JWait where
  imgs : List JRecImage
  since : Nat
  acc : Option Nat := none
  task : Option Nat := none
deriving DecidableEq, Repr

/-- The vault journal (R210 to R226). -/
structure Journal where
  recs : Store JRec := []
  nextSeq : Nat := 1
  waiting : List JWait := []
  /-- queued retire items: (SEQ, item, task whose interlock waits) and the instant of the first (R218) -/
  retireQ : List (Nat × Nat × Option Nat) := []
  retireAt : Nat := 0
  /-- RETIRE records on the way: SEQ and the tasks that wait for their commit (R216) -/
  retireTasks : Store (List Nat) := []
  fullRecorded : Bool := false
  /-- ring position (in 4 KiB segments) of the oldest record (R222) -/
  oldestPos : Nat := 0
deriving DecidableEq, Repr

/-! ### Vault -/

/-- Block states (R393); FREE blocks with no wear are not listed. -/
inductive VBlockSt where
  | free | open_ | full | cullet | retired
deriving DecidableEq, Repr

/-- What a block is open for (R397, R398). -/
inductive VUse where
  | journalStream | hot | cold | checkpoint (copy : Nat) | firmware (slot : Nat) | dump
  /-- the destination of a wear move (R396) -/
  | wear (tri : Bool)
deriving DecidableEq, Repr

/-- A vault block (R387, R393, R394). -/
structure VBlock where
  st : VBlockSt := .free
  triLevel : Bool := false
  use : VUse := .journalStream
  nextPage : Nat := 0
  nS : Nat := 0
  nT : Nat := 0
  /-- order in which it became FULL (R411) -/
  closedAt : Nat := 0
  erasing : Bool := false
deriving DecidableEq, Repr

/-- What a sector holds (R391): a vault-volume sector, or a part of one of the areas. -/
inductive VLogical where
  | user (vol lba : Nat)
  /-- a sector of a map page: the page's index and the sector's place in it (R404) -/
  | mapPage (index part : Nat)
  | journal (seq seg : Nat)
  | mapLog (seq seg : Nat)
  | checkpoint (copy part : Nat)
  | firmware (slot part : Nat)
  | records (part : Nat)
  /-- the gauge mirror's copy of a bank of the gauge store: 0 for A, 1 for B (R458) -/
  | gauge (bank : Nat)
  | dump (seq seg : Nat)
deriving DecidableEq, Repr

/-- A programmed sector (R389 to R391). -/
structure VSector where
  what : VLogical
  contentSeq : Nat
  programSeq : Nat
  data : Block := []
  /-- the back-pointer in the spare: LOGICAL_ID, CONTENT_SEQ, PROGRAM_SEQ and their CRC-32C (R391) -/
  spare : List Byte := []
  /-- corrected bits when last read; none: uncorrectable (R389) -/
  corrected : Option Nat := some 0
deriving DecidableEq, Repr

/-- One entry of the extremes table (R694). -/
structure Extreme where
  max : Int
  min : Int
  maxInst : Nat
  minInst : Nat
  maxTime : Nat × Bool
  minTime : Nat × Bool
deriving DecidableEq, Repr

/-- What waits for a page program (R407, R412, R415, R421, R677, R680, R695). -/
inductive VFor where
  | journalRec (seq : Nat)
  | mapRec (seq : Nat)
  | userWrite (acc : Nat)
  | copyOf (copy : Nat)
  | checkpointPart
  /-- a map page on its way before a checkpoint (R408) -/
  | mapFlush (index : Nat)
  /-- sectors of records, by number, with the SEQUENCEs that each holds (R677) -/
  | recordsPart (parts : Store (List (BitVec 32)))
  /-- the lifetime series and the extremes (R695) -/
  | seriesPart (lifetime : Store Nat) (extremes : Store Extreme)
  /-- the operating seconds (R680) -/
  | secondsPart (n : Nat)
  /-- a part of a firmware image that a FW_STAGE writes (R390, R637) -/
  | firmwarePart (acc : Nat)
deriving DecidableEq, Repr

/-- What a vault read is for (R412, R417, R421). -/
inductive VRead where
  | command (acc : Nat)
  | patrol
  /-- the checkpoint read of a self-test (R635) -/
  | test
  | copy (copy : Nat)
deriving DecidableEq, Repr

/-- Sectors to program: what, CONTENT_SEQ (0 where the content is first written, R391), data. -/
abbrev VContent := List (VLogical × Nat × Block)

/-- A die operation (R388 to R393): a program of a page, a read of the sectors wanted from one block and page on the four planes of a die,
an erase of one block on those planes of a die whose block is to be erased. -/
inductive VOp where
  | program (use : VUse) (block page : Nat) (sectors : VContent) (why : List VFor)
  | read (addr : List Nat) (why : VRead)
  | erase (blocks : List Nat)
deriving DecidableEq, Repr

/-- A request to a vault channel (R34, R424, R653): its operation, since when it runs or is held, the epochs it carries, and whether an
ABSENT holds it back. -/
structure VReq where
  op : VOp
  since : Nat
  dest : BitVec 8
  src : BitVec 8
  held : Bool := false
deriving DecidableEq, Repr

/-- Sectors that wait for a page of a block of their use (R413), and why they are programmed. -/
structure VWait where
  use : VUse
  sectors : VContent
  why : List VFor
deriving DecidableEq, Repr

/-- Map-log entries (R406). -/
inductive MapEntry where
  | map (vol lba phys contentSeq : Nat)
  | unmap (vol lba : Nat)
  | blockOpen (block : Nat) (triLevel : Bool)
  | blockErased (block : Nat)
  | blockRetired (block : Nat)
  | sectorLost (vol lba : Nat)
  | mapPage (index phys : Nat)
  | checkpoint (seq : Nat)
deriving DecidableEq, Repr

/-- A map-log record (R405, R407), with the command it completes and the copies whose sources it frees. -/
structure MapRec where
  entries : List MapEntry
  /-- pages not yet verified -/
  pages : Nat
  /-- its first segment's place in the ring; not written while the ring has no room -/
  pos : Nat := 0
  written : Bool := true
  committed : Bool := false
  acc : Option Nat := none
  copies : List Nat := []
deriving DecidableEq, Repr

/-- A map entry of a vault-volume sector (R404, R419). -/
structure VMap where
  phys : Nat
  contentSeq : Nat
  lost : Bool := false
deriving DecidableEq, Repr

/-- A copy of valid sectors (R412, R415, R418): the sectors still to copy, those copied as (source, destination), the
stream they go to, the source block to empty and whether it is retired instead of erased. -/
structure VCopy where
  left : List Nat
  done : List (Nat × Nat) := []
  use : VUse
  block : Option Nat := none
  retire : Bool := false
  patrol : Bool := false
  /-- it runs as foreground work outside the governor (R413) -/
  outside : Bool := false
deriving DecidableEq, Repr

/-- What a checkpoint copy holds that a start-up takes from it (R408, R427): the committed map, the blocks and the stone map, the map-page
table, and the map-log record and place from which replay starts. -/
structure Checkpoint where
  seq : Nat
  /-- which of the two copies it is -/
  copy : Nat := 0
  mapSeq : Nat
  mapPos : Nat := 0
  blocks : Store VBlock := []
  stone : List Nat := []
  mapTable : Store Nat := []
  /-- its segments in the vault, their CRC-32C, and the PROGRAM_SEQ after which they were programmed -/
  parts : Nat := 0
  crc : Nat := 0
  after : Nat := 0
  map : Store VMap
  regions : Store Region
  /-- the bytes of the array metadata: templates, pools, members and volumes -/
  array : List Byte := []
  counts : List Nat
  /-- SEQ of the journal's oldest record, where a scan begins (R222) -/
  journalOldest : Nat := 1
  counters : CountersImage := {}
deriving DecidableEq, Repr

/-- The checkpoint of a new module: an empty map and nothing counted (R408, R409; DESIGN CHOICE: a module leaves manufacture
with a valid copy, without which no mount could ever succeed), whose stone map lists the blocks retired at test (R416). -/
def factoryCheckpoint : Checkpoint :=
  { seq := 0, mapSeq := 1, stone := Config.factoryRetired, map := [], regions := [], counts := [0, 0, 0, 0, 0, 0, 0] }

/-- The vault (R386 to R428). -/
structure Vault where
  mounted : Bool := false
  /-- blocks by block address (die, plane, block as R392); not listed: FREE, no erases -/
  blocks : Store VBlock := []
  /-- programmed sectors by physical sector address (R392) -/
  sectors : Store VSector := []
  /-- the sectors whose program the last reset cut off: they read as nothing whole (R222) -/
  torn : List VLogical := []
  /-- in-memory map by volume × 2^40 + LBA (R404, R407) -/
  map : Store VMap := []
  /-- the map as the committed records leave it (R407) -/
  committedMap : Store VMap := []
  /-- the map-page table, by map page, and the map pages in the 64 MiB cache, the last used first (R404) -/
  mapTable : Store Nat := []
  mapCache : List Nat := []
  /-- requests to the vault channels, by number -/
  ops : Store VReq := []
  programSeq : Nat := 0
  mapRecs : Store MapRec := []
  /-- map pages with changes not yet flushed, and those being flushed for a checkpoint (R404, R408) -/
  dirtyPages : List Nat := []
  flushing : List Nat := []
  nextMapSeq : Nat := 1
  /-- the segment of the map-log ring that the next record starts at (R405) -/
  mapPos : Nat := 0
  /-- BLOCK_OPEN entries for the next map-log record (R393) -/
  openEntries : List MapEntry := []
  closeCtr : Nat := 0
  /-- next die of the journal, hot-user and cold streams and of the other uses (R397) -/
  turns : List Nat := [0, 0, 0, 0, 0, 0, 0]
  /-- writes that wait for a block to open, in acceptance order (R413) -/
  waiting : List VWait := []
  /-- blocks held for the dump, until released (R400) -/
  dumpBlocks : List Nat := []
  /-- checkpoint copies, the one being written with its pages left, sequence, instant of the last (R408) -/
  copy0 : Option Checkpoint := some factoryCheckpoint
  copy1 : Option Checkpoint := none
  writing : Option (Checkpoint × Nat) := none
  /-- another checkpoint was asked for while one is under way (R408) -/
  checkpointDue : Bool := false
  checkpointSeq : Nat := 0
  checkpointAt : Nat := 0
  /-- patrol pass running with the sectors left; start (R417) -/
  patrol : Option (List Nat) := none
  patrolStarted : Nat := 0
  patrolBehind : Bool := false
  wearAt : Nat := 0
  /-- PERCENT_USED and its crossings (R425, R426); when it was last recomputed -/
  percentUsed : Nat := 0
  percentAt : Nat := 0
  life90 : Bool := false
  readOnly : Bool := false
  programFails : Nat := 0
  eraseFails : Nat := 0
  uncorrectable : Nat := 0
  refreshes : Nat := 0
  correctedBits : Nat := 0
  patrolPasses : Nat := 0
  /-- sectors over the refresh threshold that are not being copied yet (R418) -/
  refreshDue : List Nat := []
  /-- blocks whose program failed, that wait to be emptied and retired (R413, R415) -/
  retireDue : List Nat := []
  /-- the reserve cannot be kept (R401): the permission is held in JOURNALED -/
  hold : Bool := false
  /-- foreground garbage collection until 2,048 (R413) -/
  gcForeground : Bool := false
  /-- copies in progress by number (R412) -/
  copies : Store VCopy := []
deriving DecidableEq, Repr

/-! ### Write path registers, power and pack -/

/-- The PWB permission (R167). -/
inductive Permission where
  | full | reduced | journaled
deriving DecidableEq, Repr

/-- The device-scope features of R618, kept over every restart (R763). -/
structure Settings where
  /-- L_cfg in MiB; R164; reset 32,768 -/
  lCfg : Nat := 32768
  /-- patrol period h; R417; reset 72 -/
  patrolHours : Nat := 72
  /-- refresh threshold bits; R418; reset 24 -/
  refreshBits : Nat := 24
  /-- class weights; R595; reset 16, 4, 1 -/
  high : Nat := 16
  medium : Nat := 4
  low : Nat := 1
  /-- STALL_TIMEOUT ms; R601; reset 500 -/
  stallTimeout : Nat := 500
  /-- EXPORT_WAIT s; R518; reset 5 -/
  exportWait : Nat := 5
  /-- TIME_BASE: 1 selects the calendar; R679; reset 0 -/
  calendarBase : Bool := false
deriving DecidableEq, Repr

/-- Stripes, as (region, stripe), in the order in which they came into an order of R181; those that came at one time stand together. -/
abbrev Waves := List (List (Nat × Nat))

/-- Device-wide state of the write path (R164 to R181). -/
structure WritePath where
  /-- L_eff in MiB; R167; reset 32,768 -/
  lEff : Nat := 32768
  /-- permission; R168; reset JOURNALED -/
  perm : Permission := .journaled
  /-- W1 not asserted and E_avail nonzero since; R167 -/
  goodSince : Option Nat := none
  /-- urgent destage active; R179 -/
  urgent : Bool := false
  lrAt : Nat := 0
  /-- demanded destage set as (region, stripe), in order of demand: the stripes demanded at one time together; R159, R160, R181 -/
  demanded : Waves := []
  /-- stripes past their age limit; R179 -/
  aged : List (Nat × Nat) := []
  /-- complete stripes in order of completion, those of one commit together; R181 -/
  complete : Waves := []
  /-- unjournaled frames must all be destaged as urgent; R167 -/
  urgentUnjournaled : Bool := false
  /-- commits have waited since; EV_COMMIT_STALL recorded; R180 -/
  stallSince : Option Nat := none
  stallRecorded : Bool := false
  /-- reclaim active, sweep position; R147 -/
  reclaim : Bool := false
  sweep : Nat := 0
  nextDestageSeq : Nat := 1
  nextParison : Nat := 0
  /-- bucket count of the hash: the frame count at start-up; R141; reset 11,796,480 -/
  buckets : Nat := 11796480
deriving DecidableEq, Repr

/-- Pack states (R436), coded 0 to 13. -/
inductive PackSt where
  | notDeclared | absent | identify | precharge | cc | cv | full | chargeHold | learnDischarge | learnRest
  | holdup | shipArmed | ship | mismatch
deriving DecidableEq, Repr

/-- A kept rest point (R441): Q in quarters of a µC, pack voltage in mV, power-die seconds. -/
structure RestPoint where
  q : Option Int
  packMv : Nat
  at_ : Nat
  /-- what the charge count stood at (R444) -/
  count : Int := 0
deriving DecidableEq, Repr

/-- One bank of the gauge store (R455). -/
structure GaugeBank where
  valid : Bool := false
  seq : BitVec 32 := 0
  cLearned : Nat := 0
  cNominal : Nat := 0
  q : Int := 0
  fullTime : Option Nat := none
  emptyTime : Option Nat := none
  learnTime : Nat := 0
  dieSeconds : Nat := 0
  cells4 : Bool := false
  capUnverified : Bool := false
  learnPending : Bool := false
  learnOverdue : Bool := false
  learnCount : Nat := 0
  rejectCount : Nat := 0
  throughput : Nat := 0
deriving DecidableEq, Repr

/-- A pack declaration (R435). -/
structure PackDecl where
  cells : Nat
  nominalMah : Nat
  chargeMa : Nat
  /-- mV per cell at 0, 5, …, 100 % -/
  ocv : List Nat
deriving DecidableEq, Repr

/-- A record on its way from its source (R676): the time is the source's. -/
structure RawRecord where
  code : Nat
  src : RecordSrc
  p1 : Word
  p2 : Word
  p3 : Word
  time : Nat
  calendar : Bool
  clockUnset : Bool
deriving DecidableEq, Repr

/-- The power die: input path, charger, gauge (R429 to R460). -/
structure Pack where
  /-- power die running; R740 -/
  running : Bool := true
  st : PackSt := .notDeclared
  decl : Option PackDecl := none
  /-- debounced presence; R436; reset absent -/
  present : Bool := false
  fetClosed : Bool := true
  reading : PackReading := ⟨0, 0, 200⟩
  vinMv : Nat := 12000
  /-- VIN_MAIN has been below 10.7 V and has not reached 10.8 V since; R431 -/
  lowVin : Bool := false
  inputMw : Nat := 0
  /-- the converter holds its 110 W and the load takes more (R432) -/
  limited : Bool := false
  /-- input switch closed; opened for over-voltage; R430 -/
  inputSwitch : Bool := true
  overVolt : Bool := false
  /-- the converter's set-point in mV, 0 off; its under-voltage stop; R430 to R432 -/
  converter : Nat := 0
  uvlo : Bool := false
  /-- since when PACK_P has stayed below n × 2.70 V, and at or above n × V_0 (R431) -/
  lowSince : Option Nat := none
  highSince : Option Nat := none
  /-- since when the charge current of CV has stayed below I_term, and the temperature within 3 to 42 °C (R436) -/
  termSince : Option Nat := none
  coolSince : Option Nat := none
  /-- pack voltages of the last 10 minutes as they changed, newest first: instant, mV (R441) -/
  volts : List (Nat × Nat) := []
  /-- charger: current limit in mA and voltage limit in mV, (0, 0) off; R430, R436 -/
  charger : Nat × Nat := (0, 0)
  /-- VIN above 10.8 V since (holdup, ship, return); below 10.5 V once since the FETs opened; R430, R436, R452 -/
  vinGoodSince : Option Nat := some 0
  /-- since when VIN_MAIN has been between 10.8 V and 13.2 V (R430) -/
  vinRangeSince : Option Nat := some 0
  vinFell : Bool := false
  shipCancelled : Bool := false
  stateAt : Nat := 0
  chargeStart : Nat := 0
  holdCause : Option ChargeEnd := none
  /-- Q in quarters of a µC (4,000 to the mC), the unit of one 250 µs sample of 1 mA; none when invalid; R439 -/
  q : Option Int := none
  counting : Bool := false
  provisional : Bool := false
  capUnverified : Bool := false
  learnOverdue : Bool := false
  learnPending : Bool := false
  /-- C_learned in mC; R444 -/
  cLearned : Nat := 0
  /-- the gauge has a valid estimate since start-up; R165 -/
  valid : Bool := false
  rest : Option RestPoint := none
  /-- the current rest point has been taken and |I| has stayed below 10 mA since; R441 -/
  restTaken : Bool := false
  /-- instant of the last |I| of 10 mA or more; R441 -/
  movedAt : Nat := 0
  /-- the charge counted, in units of Q, which no anchor and no learning sets; R444 -/
  counted : Int := 0
  learnTime : Nat := 0
  overdueAt : Nat := 0
  learnCount : Nat := 0
  rejectCount : Nat := 0
  throughput : Nat := 0
  fullTime : Option Nat := none
  emptyTime : Option Nat := none
  /-- power-die seconds offset; R434 -/
  dieSeconds : Nat := 0
  dieAt : Nat := 0
  eAvailMj : Nat := 0
  w1 : Bool := false
  w2 : Bool := false
  w3 : Bool := false
  /-- the strobe is driven and has not reached the survival domain yet (R27, R462); reset false -/
  strobe : Bool := false
  /-- crossing register 0x030004; R460; reset 0 -/
  crossing : BitVec 9 := 0
  bankA : GaugeBank := {}
  bankB : GaugeBank := {}
  lastBankB : Bool := true
  /-- store writes that the vault has not mirrored yet, oldest first: bank, bytes (R458) -/
  mirrorDue : List (Nat × Block) := []
  storeAt : Nat := 0
  /-- the instant of a store write that nothing has followed yet (R456) -/
  storing : Option Nat := none
  /-- supply-fault flag (rail, high), thermal trip (island, temperature, STATE); R739, R756 -/
  supplyFault : Option (Nat × Bool) := none
  thermalTrip : Option (Nat × Int × DevState) := none
  /-- lifetime samples held while the logic die is down, by series × 32 + bin, and their highest and lowest; R459 -/
  heldSamples : Store Nat := []
  heldExtremes : Store Extreme := []
  /-- depth-of-discharge episode: charge discharged in quarters of a µC; R459 -/
  episode : Option Int := none
  /-- events of the power die held for the recorder, each with the time at which it happened; R676 -/
  heldEvents : List RawRecord := []
deriving DecidableEq, Repr

/-- The logic-die end of the power link (R26, R28). -/
structure Link where
  /-- pack energy available; R28; reset unavailable -/
  valid : Bool := false
  /-- instant of the last valid frame; start of the continuous run; R28 -/
  lastFrame : Nat := 0
  runSince : Option Nat := none
  /-- E_avail in mJ, warning levels, input power and learning flag as the last frame carried them -/
  eAvailMj : Nat := 0
  w1 : Bool := true
  w2 : Bool := true
  inputMw : Nat := 0
  learning : Bool := false
  /-- the third warning level, and pack voltage, current and temperature, as the last frame carried them (R26) -/
  w3 : Bool := true
  reading : PackReading := ⟨0, 0, 200⟩
deriving DecidableEq, Repr

/-! ### Governor -/

/-- The configuration of a loop slot (R384): LOOP_CFG word and the live fields. -/
structure LoopCfg where
  /-- 0x00: ENABLE, MEAS_SEL, SP_SEL, POLARITY, FILTER_SHIFT; reset 0 -/
  cfg : Word := 0
  spValue : Int := 0
  kpM : Int := 0
  kpE : Int := 0
  kiM : Int := 0
  kiE : Int := 0
  outMin : Nat := 0
  outMax : Nat := 400000
deriving DecidableEq, Repr

/-- The computing state of a loop slot (R361 to R370). -/
structure LoopSt where
  init : Bool := false
  eF : Int := -32
  eP : Int := -32
  eO : Int := -32
  y : Int := 0
  sp : Int := 0
  err : Int := 0
  pt : Int := 0
  i : Int := 0
  it : Int := 0
  v : Int := 0
  u : Int := 0
  satF : Bool := false
  satP : Bool := false
  satO : Bool := false
  expLimit : Bool := false
  stale : Bool := false
  x : Int := 0
  /-- results stored in the previous period before saturation, as (stage, n, e) for n × 2^e (R363 case 1) -/
  wide : List (Nat × Int × Int) := []
deriving DecidableEq, Repr

/-- Live governor fields that are latched at a sample instant (R358, R359, R383). -/
structure GovLive where
  profInMin : Bool := true
  profTarget : Nat := 400000
  profVmax : Nat := 400000
  profAccel : Nat := 102400
  profJerk : Nat := 2048
  wattsMin : Nat := 60000
  wattsMax : Nat := 150000
  wattsFail : Nat := 60000
  /-- weights of REBUILD, COPYBACK, SCRUB, VAULT_GC, VAULT_PATROL, DESTAGE_AHEAD -/
  weights : List Nat := [128, 32, 16, 32, 8, 40]
  loops : List LoopCfg := List.replicate 8 {}
deriving DecidableEq, Repr

/-- The governor (R356 to R384). -/
structure Gov where
  /-- PERIOD_US; R383; reset 100 -/
  period : Nat := 100
  live : GovLive := {}
  latched : GovLive := {}
  /-- what DEVICE_START last saved (R382): live fields and the period -/
  saved : Option (Nat × GovLive) := none
  running : Bool := false
  loops : List LoopSt := List.replicate 8 {}
  /-- result of the period's computation, and whether it is complete (R358, R360) -/
  computed : Bool := false
  computing : Bool := false
  budgetNext : Nat := 0
  winnerNext : Nat := 15
  budget : Nat := 0
  winner : Nat := 15
  overruns : Nat := 0
  periodCount : BitVec 32 := 0
  rate : Int := 0
  slope : Int := 0
  /-- samples of the running period by MEAS_SEL 0 to 6 -/
  samples : List (Option Int) := List.replicate 7 none
  /-- the last sample that each measurement gave (R365) -/
  held : List Int := List.replicate 7 0
  /-- commands outstanding on members that count, added up for each µs since the last sample, and how many µs (R364) -/
  depth : Nat × Nat := (0, 0)
  /-- the last sample instant; none: the next one is due at once (R379, R381) -/
  sampledAt : Option Nat := none
  /-- duty code, input lost, LOST, FAST -/
  duty : Nat := 0
  lost : Bool := false
  lostBit : Bool := false
  fastBit : Bool := false
  shares : List Nat := [0, 0, 0, 0, 0, 0]
  allowance : List Int := [0, 0, 0, 0, 0, 0]
  /-- classes active at the last instant -/
  active : List Bool := [false, false, false, false, false, false]
  /-- learning cap in force; learning reported at the last instant (R367) -/
  learnCap : Bool := false
  learnSeen : Bool := false
  /-- input lost and duty code as the running period sampled them (R358, R366) -/
  pulse : Bool × Nat := (false, 0)
  /-- READ latency bins of the last 16 periods (R364) -/
  latency : List Hist := [[]]
deriving DecidableEq, Repr

/-! ### Life cycle -/

/-- What started a lehr pass (R475). -/
inductive LehrCause where
  | powerFail | overVolt | perst | fence | failed
deriving DecidableEq, Repr

/-- The CAUSE code of the seal (R475). -/
def LehrCause.code : LehrCause → Nat
  | .powerFail => 0
  | .overVolt => 1
  | .perst => 2
  | .fence => 3
  | .failed => 4

/-- A dump (R471 to R475) as its sections hold it. -/
structure Dump where
  cause : LehrCause
  permission : Permission
  seq : Nat
  identity : BitVec 256
  checkpointSeq : Nat
  lEff : Nat
  nextDestageSeq : Nat
  nextJournalSeq : Nat
  startTime : Nat × Bool
  durationUs : Nat := 0
  packMj : Nat := 0
  framesJ0 : Nat
  framesJ1 : Nat
  omitted : Nat
  entries : List EntryImage
  parisons : List ParisonImage
  regions : Store Region
  frames : List FrameImage
  sealed_ : Bool := false
  lCfg : Nat
  blocks : List Nat
  /-- section 0 (R471) -/
  counters : CountersImage := {}
  /-- how many 4 KiB segments it has in the vault, the seal last, and the PROGRAM_SEQ after which they were programmed (R471 to R475) -/
  parts : Nat := 0
  after : Nat := 0
deriving DecidableEq, Repr

/-- A lehr pass in progress (R465 to R470). -/
structure Lehr where
  cause : LehrCause
  at_ : Nat
  /-- the trigger time as the seal carries it (R475) -/
  time : Nat × Bool
  /-- the pass is over and Punty waits (R469, R512) -/
  sealed_ : Bool := false
  /-- it is over without a seal (R470, R479) -/
  noSeal : Bool := false
  /-- the SRAM image area: the parisons of SRAM banks 0 to 31 as step 3 copied them (R36) -/
  sramImage : Store ParisonImage := []
  /-- the converter has run in the pass; discharge current × pack voltage over its samples, in mA × mV × 250 µs (R475) -/
  onPack : Bool := false
  drawn : Nat := 0
deriving DecidableEq, Repr

/-- Why the module is FENCED (R512). -/
inductive FenceBy where
  | pin | conflict
deriving DecidableEq, Repr

/-- A take-over in progress (R516 to R521). -/
structure TakeOver where
  at_ : Nat
  partner : BitVec 256
  imported : Bool := false
  /-- the wait for the partner's seal is over without import -/
  noImport : Bool := false
  importFails : Nat := 0
  /-- the labels of step 2 wait for the drives -/
  labelsDue : Bool := false
  dumpSeq : Nat := 0
  cacheLost : Nat := 0
  label : LabelImage
deriving DecidableEq, Repr

/-- STATE, resets, start-up, lehr pass, dump (R462 to R490, R510 to R527). -/
structure Life where
  st : DevState := .booting
  /-- logic die held in reset; R742; reset held until LOGIC_DIE_RESET_EXIT -/
  inReset : Bool := true
  /-- board rails up; R740 -/
  railsUp : Bool := true
  railsSince : Nat := 0
  /-- PERST_N level recognised as asserted; R750 -/
  perst : Bool := true
  /-- straps sampled; R529, R492 -/
  bifurcated : Bool := false
  side : Bool := false
  /-- islands 64, 65 and 254 and SRAM banks 32 to 47 are up: neither gated by a lehr pass nor held in reset (R37, R469, R477) -/
  hostReady : Bool := false
  lehr : Option Lehr := none
  dump : Option Dump := none
  /-- the dump of a pass that ran while another one was held (R484) -/
  passDump : Option Dump := none
  dumpSeq : Nat := 0
  /-- start-up: step reached, dump usable, foreign, re-destages still running, checks before READY -/
  starting : Bool := false
  /-- step 8, 9 or 10 of R480 -/
  step : Nat := 0
  usableDump : Bool := false
  redestages : List Nat := []
  redestaged : Nat := 0
  repaired : Nat := 0
  zeroedStripes : Nat := 0
  checksFirst : List Nat := []
  replayed : Nat := 0
  installed : Nat := 0
  foreign_ : Bool := false
  /-- a held dump or journal (R484, R522) -/
  held : Bool := false
  fencedBy : Option FenceBy := none
  fencePin : Bool := false
  /-- the ports reap completions since (R514) -/
  fenceDrain : Option Nat := none
  /-- export of the held dump has ended (R515) -/
  exportOff : Bool := false
  /-- records of ARB_TAKE_N that a module FENCED with a pass behind it holds for the restart (R512) -/
  takesIgnored : List RawRecord := []
  takeover : Option TakeOver := none
  /-- a dump released in a fence pass, with its blocks, for the record at restart (R490, R515) -/
  released : Option (Nat × Nat) := none
  hb : Bool := false
  hbAt : Nat := 0
  hbStopped : Bool := false
  lastFatal : Nat := 0
  /-- wait before Punty's release: reset ends at (R469), thermal hold until (R756) -/
  resetUntil : Option Nat := none
  thermalHold : Option Nat := none
  fwRunning : Nat := 0
  /-- staged items that a PERST_N with a pass discarded, for the record at restart (R478, R645) -/
  stagedLost : Nat := 0
  refclkLost : Bool := false
  hbmTrained : BitVec 32 := 0xFFFFFFFF
  startCount : BitVec 24 := 0
  opSecondsBase : Nat := 0
  opSince : Nat := 0
  opSaved : Nat := 0
  opSavedAt : Nat := 0
deriving DecidableEq, Repr

/-- What a write of the array metadata is for (R502, R508, R509, R768): a change-log record with its SEQ and items, each the number of
the change, KIND, INDEX, the new region entry and the IMAGE; the bits of regions, in both slots; the whole bitmap in one slot, with the bits
that were set before; the whole bitmap in both slots of a new log drive. -/
inductive MetaKind where
  | record (seq : Nat) (items : List (Nat × Nat × Nat × Region × List Byte))
  | bits (regions : List Nat)
  | rewrite (slot : Nat) (bits before_ : List Nat)
  | bring (bits : List Nat)
deriving DecidableEq, Repr

/-- A metadata write to the log drives with the requests still outstanding (R768). -/
structure MetaJob where
  kind : MetaKind
  left : List Nat := []
deriving DecidableEq, Repr

/-- An admin command that has made a change and ends once the change's record has committed (R502, R768). -/
structure LateAnswer where
  acc : Nat
  /-- number of the newest change it waits for -/
  change : Nat
  status : Status
  result : Word
  resultHi : Word
deriving DecidableEq, Repr

/-- Pairing and array metadata on the drives (R491 to R509). -/
structure Pair where
  partner : Option (BitVec 256) := none
  partnerPresent : Bool := false
  /-- EV_PARTNER_LOST has been recorded since the last frame or the reset (R495) -/
  partnerLost : Bool := false
  partnerStandby : Bool := false
  lastBeat : Nat := 0
  sentAt : Nat := 0
  /-- the label as the array drives carry it; none: no array -/
  label : Option LabelImage := none
  logPorts : List Nat := []
  configSeq : Nat := 0
  /-- the configuration copy written last; R500 -/
  configCopy : Nat := 1
  /-- the label copy written last; R498 -/
  labelCopy : Nat := 1
  /-- metadata writes on their way to the log drives; R768 -/
  jobs : Store MetaJob := []
  /-- changes made so far, and admin commands that wait for the record of theirs; R502 -/
  changeNo : Nat := 0
  answers : List LateAnswer := []
  /-- change log: next SEQ; the changes not yet in a record, as (number, KIND, INDEX), the instant of the first, and the instant each
  region's WATERMARK was last logged; R502, R503 -/
  changeSeq : Nat := 1
  changes : List (Nat × Nat × Nat) := []
  changesAt : Nat := 0
  loggedAt : Store Nat := []
  /-- the region table as slices and change log hold it on the drives; R504, R506 -/
  onDrives : Store Region := []
  sliceSeq : Nat := 0
  sliceAt : Nat := 0
  /-- the begin SEQ of each slice's newest copy; R504 -/
  sliceBegin : Store Nat := []
  /-- activity bitmap on the drives: regions whose bit is set, slot written last, instants at which activity was last seen or had ended; R507 to R509 -/
  bitmap : List Nat := []
  bitmapSlot : Nat := 0
  /-- the bits of the slot written last; `bitmap` is the OR of both -/
  slotBits : List Nat := []
  bitmapAt : Nat := 0
  activeAt : Store Nat := []
  /-- the regions active after the last row; R507 -/
  activeNow : List Nat := []
deriving DecidableEq, Repr

/-! ### Islands, recorder, sideband, management -/

/-- An island (R30, R651, R669): listed only where it differs from up with epoch 0 and zero counts. -/
structure Island where
  epoch : BitVec 8 := 0
  /-- 0 up, 1 down, 2 draining, 3 mapped out, 4 gated -/
  status : Nat := 0
  uncorrectable : Nat := 0
  corrected : Nat := 0
  stale : Nat := 0
  downCount : Nat := 0
  advancedAt : Option Nat := none
  /-- the epoch advance waits for the 1 ms of R652 -/
  advanceDue : Bool := false
  /-- instant it last came up; the up-notice reaches the requesters within 1 µs after it (R657) -/
  upAt : Option Nat := none
  /-- instant it last went down, whether for a drain, and the criterion row of R664 that a drain to a map-out met -/
  downAt : Nat := 0
  drained : Bool := false
  outRow : Nat := 0
  /-- clock: 0 full, 1 at 50 %, 2 at 25 %; counts of entries; R38 to R42 -/
  clock : Nat := 0
  enter50 : Nat := 0
  enter25 : Nat := 0
  clockAt : Nat := 0
  /-- fresh uncorrectable words and parity errors of an HBM channel, instants; R664 -/
  uncorrTimes : List Nat := []
  parityTimes : List Nat := []
deriving DecidableEq, Repr

/-- A fixed event record (R671). -/
structure Record where
  seq : BitVec 32
  code : Nat
  calendar : Bool
  clockUnset : Bool
  scope : Option FnId
  inst : Nat
  suppressed : Nat
  time : Nat
  p1 : Word
  p2 : Word
  p3 : Word
deriving DecidableEq, Repr

/-- Rate-limit bucket of one code (R683): tokens in 1/6,000,000 (one such part refills each µs), instant of the last
refill; records left unrecorded (R684). -/
structure Bucket where
  tokens : Nat := 120000000
  at_ : Nat := 0
  unrecorded : Nat := 0
deriving DecidableEq, Repr

/-- The event recorder (R671 to R696). -/
structure Recorder where
  up : Bool := true
  /-- stored records in SEQUENCE order, and how many of the last are pending (R677) -/
  records : List Record := []
  pending : Nat := 0
  /-- committed sectors of the records area by number, each with the SEQUENCEs of at most 128 records (R398, R677) -/
  parts : Store (List (BitVec 32)) := []
  /-- next SEQUENCE; R675, R677; 1 at manufacture -/
  next : BitVec 32 := 1
  highest : BitVec 32 := 0
  full : Bool := false
  fullDiscards : Nat := 0
  buckets : Store Bucket := []
  /-- records held by their source while the recorder is down (R658), oldest first -/
  held : List RawRecord := []
  /-- calendar ns at an instant; R681; reset unset -/
  clock : Option (Nat × Nat) := none
  commitAt : Nat := 0
  /-- lifetime series 18 to 31 by series × 32 + bin; rolling of the last minute; running minute of 0 and 1; R693 -/
  lifetime : Store Nat := []
  rolling : Store Nat := []
  minute : Store Nat := []
  extremes : Store Extreme := []
  savedLifetime : Store Nat := []
  savedExtremes : Store Extreme := []
  intervalAt : Nat := 0
  thermalWarn : Bool := false
  /-- droop entries since the last collection -/
  droop50 : Nat := 0
  droop25 : Nat := 0
  droop50At : Nat := 0
  /-- sensor readings last sampled -/
  hottest : Int := 0
deriving DecidableEq, Repr

/-- The management sideband (R697 to R714). -/
structure Sideband where
  /-- the static address from the straps; none while the logic die has not left reset since power-off (R697) -/
  staticAddr : Option Nat := none
  i3c : Bool := false
  dynAddr : Nat := 0
  ibiEnabled : Bool := false
  /-- ALERT_STATUS; R704; reset 0x200 -/
  status : BitVec 10 := 0x200
  /-- ALERT_ENABLE; R704; reset 0x2FF -/
  enable : BitVec 10 := 0x2FF
  alert : Bool := false
  ibiAt : Nat := 0
  busy : Bool := false
  stale : Bool := true
  overrun : Bool := false
  resultCode : Nat := 0xFE
  cmdSeq : Nat := 0
  args : List Word := [0, 0, 0, 0]
  results : List Word := [0, 0, 0, 0, 0, 0, 0, 0]
  pecErrors : Nat := 0
  /-- command in progress and its arguments -/
  cmd : Nat := 0
  cmdArgs : List Word := [0, 0, 0, 0]
  lastOffset : Nat := 0
deriving DecidableEq, Repr

/-- An item of the staged set (R631, R632). -/
inductive Staged where
  | template (id : Nat) (t : Template)
  | templateDelete (id : Nat)
  | pool (id chunkCode spare : Nat) (seed : BitVec 32) (ports : Mask)
  | poolDelete (id : Nat)
  | expand (id : Nat) (ports : Mask) (spare : Bool)
  | governor (period : Nat) (loops : List Word)
  | pack (d : PackDecl)
deriving DecidableEq, Repr

/-- A firmware slot (R637, R638). -/
structure FwSlot where
  valid : Bool := false
  /-- the PROGRAM_SEQ after which the slot's image was programmed (R391, R637) -/
  after : Nat := 0
  image : List Byte := []
  staged : List Byte := []
  partialValid : Bool := false
deriving DecidableEq, Repr

/-- A self-test (R635, R636). -/
structure SelfTest where
  status : Nat := 0
  kind : Nat := 0
  failedIsland : Nat := 0xFFFF
  startedAt : Nat := 0
  seconds : Nat := 0
  regionsChecked : Nat := 0
  mismatches : Nat := 0
  issuer : FnId := ⟨0, 0⟩
  /-- regions an extended test still has to check (R635) -/
  left : List Nat := []
  /-- code tiles and HBM channels, by island, that the short test has still to test -/
  units : List Nat := []
  /-- the HBM channel of which a range of frames is drained, and whether it is empty and the patterns run (R668) -/
  range : Option (Nat × Bool) := none
  /-- HBM channels, by island, that the march of an extended test has still to take -/
  marches : List Nat := []
  /-- ports whose member has still to answer Identify Controller -/
  asks : List Nat := []
  /-- the checkpoint that is read: its SEQ and the sectors not asked for yet -/
  ckpt : Option (Nat × List Nat) := none
  /-- the newest checkpoint copy has been read and its CRC is good; the power link has shown a valid frame -/
  ckptGood : Bool := false
  linkGood : Bool := false
  /-- the patrol pass of an extended test: 1 still to come, 2 running -/
  patrol : Nat := 0
deriving DecidableEq, Repr

/-- Device-wide settings and management state. -/
structure Mgmt where
  staged : List Staged := []
  selfTest : SelfTest := {}
  slotA : FwSlot := { valid := true, image := Config.factoryImage }
  slotB : FwSlot := {}
  nextSlot : Nat := 0
  /-- credits of HIGH, MEDIUM, LOW; R594 -/
  credits : List Nat := [0, 0, 0]
  /-- ring last granted per class 4, 0, 1, 2, 3 (R594) -/
  lastGrant : Store Nat := []
  stashEmptyAt : Option Nat := none
  /-- start of the last scan of the slot chain; R296 -/
  scanAt : Option Nat := none
  /-- HBM channels and tiles mapped out; R666; reset none -/
  hbmOut : BitVec 32 := 0
  tilesOut : BitVec 48 := 0
  /-- the frames of other channels that hold a drained or mapped-out channel's share of the other areas, by channel; R665, R668 -/
  shares : Store (List Nat) := []
  /-- starts of the hedge interval and of the running latency interval; R242, R250 -/
  hedgeAt : Nat := 0
  estimateAt : Nat := 0
  markedExits : Nat := 0
  rebuilt : Nat := 0
  arrayId : BitVec 64 := 0
  /-- a running ARRAY_IMPORT: its command, the former owner and the regions marked (R527) -/
  importing : Option (Nat × BitVec 256 × Nat) := none
deriving DecidableEq, Repr

/-- A member command as it goes to its drive (R64, R279 to R284): queue, command identifier, starting LBA and length in the namespace's
LBA size, FUA, and whether SGLs describe the data or PRPs do. -/
structure NvmeIo where
  req : Nat
  write : Bool
  queue : Nat
  cid : Nat
  slba : Nat
  blocks : Nat
  fua : Bool
  sgl : Bool
  data : List Block
deriving DecidableEq, Repr

/-- What the block puts on its pins and links. -/
inductive Output where
  /-- a posted write of READ data or log bytes to host memory (R541) -/
  | hostData (fn : FnId) (addr : Nat) (data : List Byte) (relaxed : Bool)
  /-- a completion entry of 16 bytes written at an address (R578) -/
  | completion (fn : FnId) (addr : Nat) (entry : List Byte)
  | msix (fn : FnId) (vector : Nat) (addr : Nat) (data : Word)
  | hostRead (fn : FnId) (tag addr len : Nat) (relaxed : Bool)
  | registerRead (fn : FnId) (value : BitVec 64)
  | unsupported (fn : FnId)
  | ltr (ep : Nat) (ns : Nat)
  | errorMessage (fn : FnId) (fatal nonFatal : Bool)
  | driveCommand (port : Nat) (cmd : NvmeIo)
  | driveAbort (port queue cid : Nat)
  | driveAdmin (port step : Nat)
  | driveAdminQueue (port entries : Nat)
  /-- an I/O queue pair with its depth, MSI-X vector and, where the drive offers weighted round robin, its priority (R282, R283) -/
  | driveQueue (port queue depth vector : Nat) (high : Option Bool)
  /-- the arbitration weights High and Low (R283) -/
  | driveWeights (port high low : Nat)
  /-- Set Features Host Identifier and the registration of the reservation key (R308) -/
  | driveRegister (port : Nat) (hostId : BitVec 128) (key : BitVec 64)
  | driveReport (port : Nat)
  /-- Reservation Acquire of a reservation type, by Preempt of a holder's key where one is named (R308, R309) -/
  | driveAcquire (port rtype : Nat) (key : BitVec 64) (preempt : Option (BitVec 64))
  | driveRelease (port : Nat) (key : BitVec 64)
  | drivePerst (port : Nat) (asserted : Bool)
  /-- SLOT_SO of a scan, bit i first to last (R297) -/
  | slotBits (bits : BitVec 512)
  | arbHb (level : Bool)
  | pairFrame (identity : BitVec 256) (standby : Bool)
  | exportData (theSeal : SealImage) (content : DumpImage)
  | pairRelease
  /-- a label written to a copy on an array drive (R498) -/
  | label (port copy : Nat) (content : Block)
  /-- a configuration copy on a log drive, at 1 MiB + 80 MiB × copy (R500, DESIGN CHOICE 47) -/
  | config (port copy : Nat) (content : List Byte)
  /-- a slice slot on an array drive, at 240 MiB + 16.0625 MiB × slot: the header and the slice's entries (R78, R500, R504, DESIGN CHOICE 47) -/
  | slice (port slot : Nat) (header : List Byte) (entries : List Byte)
  /-- the export is asked for over the pairing port (R516 step 4) -/
  | exportRequest
  | converter (mv limitMw : Nat)
  /-- the charger's current limit in mA and voltage limit in mV, 0 and 0 off (R430, R436) -/
  | charger (ma mv : Nat)
  | fets (closed : Bool)
  | inputSwitch (closed : Bool)
  | strobe
  | logicReset (asserted : Bool)
  | sidebandReply (data : List Byte)
  | sidebandIbi (byte : Byte)
  | sidebandAlert (asserted : Bool)
  /-- the target holds the bus clock low while island 253 is reset (R701) -/
  | sidebandClock (held : Bool)
deriving DecidableEq, Repr

/-- The state of the block. -/
structure State where
  /-- waiting commands, first in first out (the host's block interface); reset empty -/
  pending : List Instr := []
  /-- µs since reset (the model's clock, DESIGN CHOICE 2); reset 0 -/
  now : Nat := 0
  /-- the free value behind every choice no rule orders (the MODEL's own field, DESIGN CHOICE 3) -/
  choice : Nat
  /-- counter of values the module chooses itself (the MODEL's own field, DESIGN CHOICE 3); reset 0 -/
  fresh : Nat := 0
  /-- what has left the block, newest first (the MODEL's own field, DESIGN CHOICE 4); reset empty -/
  out : List Output := []
  /-- next task, request and job numbers (the MODEL's own fields); reset 0 -/
  nextId : Nat := 0
  /-- next acceptance number; R186; reset 1 -/
  nextAcc : Nat := 1
  /-- follow-up work of the present step (the MODEL's own field); empty between steps -/
  todo : List Todo := []
  life : Life := {}
  pair : Pair := {}
  /-- endpoints 0 and 1; R529; not listed: reset values -/
  eps : Store Endpoint := []
  /-- functions by endpoint × 256 + number; R531; not listed: reset values -/
  fns : Store Fn := []
  /-- submission and completion rings by function key × 4,096 + index; R566; not listed: NONE -/
  sqs : Store Sq := []
  cqs : Store Cq := []
  /-- accepted commands by acceptance number; R186 -/
  cmds : Store Cmd := []
  templates : Store Template := []
  pools : Store Pool := []
  members : Store Member := []
  volumes : Store Volume := []
  /-- region table; R78; not listed: FREE with GENERATION 0 -/
  regions : Store Region := []
  /-- work on regions; R315 -/
  work : Store RegionWork := []
  settings : Settings := {}
  wp : WritePath := {}
  /-- cache directory and frames; R140; not listed: FREE -/
  frames : Store Frame := []
  /-- hash heads by bucket; R141; not listed: empty bucket -/
  heads : Store Nat := []
  /-- stripe interlocks by region × 4,096 + stripe; R178; not listed: free -/
  locks : Store Lock := []
  /-- stripe tasks by number -/
  tasks : Store Task := []
  /-- in-flight destage table; R197; not listed: VALID = 0 -/
  table : Store Entry := []
  /-- staging segments in use: (position, segment, block) by segment number; R199 -/
  staging : Store (Nat × Nat × Block) := []
  parisons : Store Parison := []
  streams : Store Stream := []
  /-- code tiles 0 to 47; R124; not listed: idle -/
  tiles : Store Tile := []
  /-- jobs waiting for a queue place; R135 -/
  tileWait : List Job := []
  /-- drive ports 0 to 63; R271; not listed: reset values -/
  ports : Store Port := []
  journal : Journal := {}
  vault : Vault := {}
  pack : Pack := {}
  link : Link := {}
  gov : Gov := {}
  /-- clock islands 0 to 259; R30; not listed: up, epoch 0 -/
  islands : Store Island := []
  /-- READs with late data that differed, by acceptance number; R259; reset empty -/
  suspects : Store Suspect := []
  /-- destination epochs that requesters have learned from ABSENT replies, by requester × 512 + destination; R657; reset empty -/
  learned : Store (BitVec 8) := []
  recorder : Recorder := {}
  sb : Sideband := {}
  mgmt : Mgmt := {}
deriving DecidableEq, Repr

/-- The block right after reset: a new module with its rails up and the logic die held in reset, so that the first
command of a run is LOGIC_DIE_RESET_EXIT. Every field stands at its structure's default. -/
def State.reset : State := { choice := Config.choiceSeed }

end Sys2Proof.Machine
end

