-- ==== Sys2Proof/Machine/Store.lean ====
section
/-! DEFINITION. Records by key, the digit-wise reading of the free choice, and small list helpers. -/

namespace Sys2Proof.Machine

open Sys2Proof

/-- The record at key `k`, if listed. -/
def Store.look {α : Type} : Store α → Nat → Option α
  | [], _ => none
  | (k', v) :: t, k => if k' = k then some v else Store.look t k

/-- The record at key `k`, or `d` where none is listed. -/
def Store.read {α : Type} (m : Store α) (k : Nat) (d : α) : α := (Store.look m k).getD d

/-- Write a record; keys stay rising. -/
def Store.put {α : Type} : Store α → Nat → α → Store α
  | [], k, v => [(k, v)]
  | (k', v') :: t, k, v =>
    if k < k' then (k, v) :: (k', v') :: t
    else if k = k' then (k, v) :: t
    else (k', v') :: Store.put t k v

/-- Drop the records at a key. -/
def Store.del {α : Type} : Store α → Nat → Store α
  | [], _ => []
  | (k', v') :: t, k => if k' = k then Store.del t k else (k', v') :: Store.del t k

/-- Change a listed record. -/
def Store.upd {α : Type} (m : Store α) (k : Nat) (f : α → α) : Store α :=
  m.map fun e => if e.1 = k then (e.1, f e.2) else e

/-- Write a record, or drop it where it equals what an unlisted key reads as. -/
def Store.putD {α : Type} [DecidableEq α] (d : α) (m : Store α) (k : Nat) (v : α) : Store α :=
  if v = d then Store.del m k else Store.put m k v

/-- Is the key listed? -/
def Store.has {α : Type} (m : Store α) (k : Nat) : Bool := (Store.look m k).isSome

/-- The keys, rising. -/
def Store.keys {α : Type} (m : Store α) : List Nat := m.map (·.1)

/-- The records, by rising key. -/
def Store.vals {α : Type} (m : Store α) : List α := m.map (·.2)

/-- Keep the records that pass. -/
def Store.keep {α : Type} (m : Store α) (p : Nat → α → Bool) : Store α := m.filter fun e => p e.1 e.2

/-- Change every record. -/
def Store.each {α : Type} (m : Store α) (f : Nat → α → α) : Store α := m.map fun e => (e.1, f e.1 e.2)

/-- Keys rise strictly: the canonical form. -/
def Store.wf {α : Type} : Store α → Bool
  | [] => true
  | [_] => true
  | (a, _) :: (b, v) :: t => a < b && Store.wf ((b, v) :: t)

/-- Nth digit reading of the free choice: a number below `n`, and what is left of the choice (0 for `n` = 0). -/
def State.pick (s : State) (n : Nat) : Nat × State := (s.choice % n, { s with choice := s.choice / n })

/-- A value the module chooses itself (R74, R498). -/
def State.freshValue (s : State) : BitVec 64 × State := (Config.fresh s.fresh, { s with fresh := s.fresh + 1 })

/-- A number for a new task, request, job or die operation. -/
def State.newId (s : State) : Nat × State := (s.nextId, { s with nextId := s.nextId + 1 })

/-- Put something on the pins and links. -/
def State.emit (s : State) (o : Output) : State := { s with out := o :: s.out }

/-- Fold a list through the state. -/
def State.over {α : Type} (s : State) (l : List α) (f : State → α → State) : State := l.foldl f s

/-- The shape of every meaning: the command changes anything but the queue, the clock and the device settings that
SET_FEATURE owns (R618). -/
def State.keepOwned (s t : State) : State := { t with pending := s.pending, now := s.now, settings := s.settings }

/-- The outcome of a command that owns no device setting. -/
def act (s t : State) : Host.Outcome State Fault Refusal := .next (s.keepOwned t)

/-- The outcome of a command that gives the device settings the value `x`. -/
def actSet (s : State) (x : Settings) (t : State) : Host.Outcome State Fault Refusal :=
  .next { t with pending := s.pending, now := s.now, settings := x }

/-- `u` where `c` holds, else the state unchanged: a trigger the state does not admit changes nothing (00_scope, table
conventions). -/
def State.when (s : State) (c : Bool) (t : State) : State := if c then t else s

/-- The numbers from `a`, `n` of them. -/
def span (a n : Nat) : List Nat := (List.range n).map (a + ·)

/-- The positions of a bit mask that are set, ascending. -/
def bitsOf {w : Nat} (m : BitVec w) : List Nat := (List.range w).filter fun i => m.getLsbD i

/-- The mask of a list of bit numbers. -/
def maskOf (w : Nat) (l : List Nat) : BitVec w := l.foldl (fun m i => m ||| (1#w <<< i)) 0

/-- Remove duplicates, keeping the first of each. -/
def uniq (l : List Nat) : List Nat := l.foldl (fun r x => if r.contains x then r else r ++ [x]) []

/-- Insertion into a list sorted by `le`. -/
def insertBy {α : Type} (le : α → α → Bool) (x : α) : List α → List α
  | [] => [x]
  | y :: t => if le x y then x :: y :: t else y :: insertBy le x t

/-- A list sorted by `le` (insertion sort, stable). -/
def sortBy {α : Type} (le : α → α → Bool) : List α → List α
  | [] => []
  | x :: t => insertBy le x (sortBy le t)

/-- A content with its trailing zero bytes dropped (canonical form of `Block`). -/
def trim (b : List Byte) : Block := (b.reverse.dropWhile (· == 0#8)).reverse

end Sys2Proof.Machine
end

