-- ==== Sys2Proof/Machine/WordCode.lean ====
section
/-! DEFINITION. The word code: what a check of a 144-bit word answers, and what a bad word leaves in its data (R645 to R648). -/

namespace Sys2Proof.Machine

open Sys2Proof

/-- A data word as it is stored: 128 data bits above 16 check bits (R645). -/
def storedWord (d : BitVec 128) : BitVec 144 := d ++ Config.wordChecks d

/-- Symbol i of a word: bits [4i + 3 : 4i] (R645). -/
def symbolAt (e : WordError) (i : Nat) : BitVec 4 := e.extractLsb' (4 * i) 4

/-- How many of the 36 symbols are wrong. -/
def symbolsWrong (e : WordError) : Nat := ((List.range 36).filter fun i => symbolAt e i ≠ 0).length

/-- What the check of a word answers (R645 to R648). -/
inductive WordCheck where
  | good | corrected | uncorrectable
deriving DecidableEq, Repr

/-- The check: an error within one symbol is corrected, one within two symbols is reported; one over three or more gets the answer
its check result gives, which no rule states (R645). -/
def checkWord (e : WordError) : WordCheck :=
  match symbolsWrong e with
  | 0 => .good
  | 1 => .corrected
  | 2 => .uncorrectable
  | _ => match Config.wordCheck e with
    | 0 => .good
    | 1 => .corrected
    | _ => .uncorrectable

/-- The data bits that are wrong in a word that the check has let pass: none after an error within one symbol. -/
def wordLeft (e : WordError) : BitVec 128 := if symbolsWrong e ≤ 1 then 0 else Config.wordLeft e

/-- Bytes with the wrong data bits x of one 16-byte word: byte k of a word is its data bits [8k + 7 : 8k]. -/
def damageBytes (b : List Byte) (word : Nat) (x : BitVec 128) : List Byte :=
  b.zipIdx.map fun c => if c.2 / 16 = word then c.1 ^^^ x.extractLsb' (8 * (c.2 % 16)) 8 else c.1

/-- A block's content after a word with an error has been taken in. -/
def damage (b : Block) (word : Nat) (e : WordError) : Block :=
  let x := wordLeft e
  if x = 0 then b else trim (damageBytes (b ++ List.replicate (4096 - b.length) 0) word x)

/-- Is one of the words uncorrectable? -/
def anyBad (l : BadWords) : Bool := l.any fun w => checkWord w.2 = .uncorrectable

/-- The words that a check corrects. -/
def correctedWords (l : BadWords) : List Nat := (l.filter fun w => checkWord w.2 = .corrected).map (·.1)

/-- What a tile takes in of segment `seg` of input `input` of a job whose words in error its checks have let pass (R129). -/
def inputContent (words : List TileWord) (input seg : Nat) (b : Block) : Block :=
  (words.filter fun w => w.input = input && w.seg = seg).foldl (fun b w => damage b w.word w.err) b

/-- The content that a segment of a member read gives: none where a word is uncorrectable (R238, R648). -/
def segContent (d : SegData) : Option Block :=
  if anyBad d.words then none else some (d.words.foldl (fun b w => damage b w.1 w.2) d.data)

end Sys2Proof.Machine
end

