-- ==== Sys2Proof/Machine/Flags.lean ====
section
/-! DEFINITION. The codes the block reports: completion statuses (R607), event codes (the event table at the end of each
chapter) and which of them are rate-limited (R683), function-event causes (R723) and alert causes (R712). -/

namespace Sys2Proof.Machine

open Sys2Proof

/-- SUCCESS (R607). -/
def St.success : Status := ⟨0, 0x00⟩
/-- INVALID_OPCODE (R607). -/
def St.invalidOpcode : Status := ⟨0, 0x01⟩
/-- INVALID_FIELD (R607). -/
def St.invalidField : Status := ⟨0, 0x02⟩
/-- WRONG_RING (R607). -/
def St.wrongRing : Status := ⟨0, 0x03⟩
/-- ACCESS_DENIED (R607). -/
def St.accessDenied : Status := ⟨0, 0x04⟩
/-- LENGTH_MISMATCH (R607). -/
def St.lengthMismatch : Status := ⟨0, 0x05⟩
/-- TRANSFER_TOO_LONG (R607). -/
def St.transferTooLong : Status := ⟨0, 0x06⟩
/-- LBA_OUT_OF_RANGE (R607). -/
def St.lbaOutOfRange : Status := ⟨0, 0x07⟩
/-- VOLUME_NOT_ATTACHED (R607). -/
def St.volumeNotAttached : Status := ⟨0, 0x08⟩
/-- ABORTED (R607). -/
def St.aborted : Status := ⟨0, 0x09⟩
/-- TEMPLATE_INVALID (R607). -/
def St.templateInvalid : Status := ⟨1, 0x01⟩
/-- TEMPLATE_IN_USE (R607). -/
def St.templateInUse : Status := ⟨1, 0x02⟩
/-- TEMPLATE_UNKNOWN (R607). -/
def St.templateUnknown : Status := ⟨1, 0x03⟩
/-- POOL_EXISTS (R607). -/
def St.poolExists : Status := ⟨1, 0x04⟩
/-- POOL_UNKNOWN (R607). -/
def St.poolUnknown : Status := ⟨1, 0x05⟩
/-- POOL_IN_USE (R607). -/
def St.poolInUse : Status := ⟨1, 0x06⟩
/-- DRIVE_UNSUITABLE (R607). -/
def St.driveUnsuitable : Status := ⟨1, 0x07⟩
/-- DRIVE_IN_USE (R607). -/
def St.driveInUse : Status := ⟨1, 0x08⟩
/-- DRIVE_TOO_SMALL (R607). -/
def St.driveTooSmall : Status := ⟨1, 0x09⟩
/-- VOLUME_EXISTS (R607). -/
def St.volumeExists : Status := ⟨1, 0x0A⟩
/-- VOLUME_UNKNOWN (R607). -/
def St.volumeUnknown : Status := ⟨1, 0x0B⟩
/-- VOLUME_ATTACHED (R607). -/
def St.volumeAttached : Status := ⟨1, 0x0C⟩
/-- NO_SPACE (R607). -/
def St.noSpace : Status := ⟨1, 0x0D⟩
/-- VAULT_CAPACITY (R607). -/
def St.vaultCapacity : Status := ⟨1, 0x0E⟩
/-- MEMBER_STATE (R607). -/
def St.memberState : Status := ⟨1, 0x0F⟩
/-- WRONG_PORT (R607). -/
def St.wrongPort : Status := ⟨1, 0x10⟩
/-- REBUILD_IN_PROGRESS (R607). -/
def St.rebuildInProgress : Status := ⟨1, 0x11⟩
/-- RING_EXISTS (R607). -/
def St.ringExists : Status := ⟨1, 0x12⟩
/-- NO_RING_CONTEXT (R607). -/
def St.noRingContext : Status := ⟨1, 0x13⟩
/-- CLASS_NOT_PERMITTED (R607). -/
def St.classNotPermitted : Status := ⟨1, 0x14⟩
/-- PACK_REFUSED (R607). -/
def St.packRefused : Status := ⟨1, 0x15⟩
/-- FW_IMAGE_INVALID (R607). -/
def St.fwImageInvalid : Status := ⟨1, 0x16⟩
/-- FW_SLOT_INVALID (R607). -/
def St.fwSlotInvalid : Status := ⟨1, 0x17⟩
/-- STAGE_FULL (R607). -/
def St.stageFull : Status := ⟨1, 0x18⟩
/-- STAGE_CONFLICT (R607). -/
def St.stageConflict : Status := ⟨1, 0x19⟩
/-- SELF_TEST_RUNNING (R607). -/
def St.selfTestRunning : Status := ⟨1, 0x1A⟩
/-- SLOT_REFUSED (R607). -/
def St.slotRefused : Status := ⟨1, 0x1B⟩
/-- IMPORT_REFUSED (R607). -/
def St.importRefused : Status := ⟨1, 0x1C⟩
/-- PAIR_REFUSED (R607). -/
def St.pairRefused : Status := ⟨1, 0x1D⟩
/-- LOSS_SEQ_STALE (R607). -/
def St.lossSeqStale : Status := ⟨1, 0x1E⟩
/-- DATA_LOST (R607). -/
def St.dataLost : Status := ⟨2, 0x01⟩
/-- HOST_TRANSFER_ERROR (R607). -/
def St.hostTransferError : Status := ⟨3, 0x01⟩
/-- ABORTED_BME (R607). -/
def St.abortedBme : Status := ⟨3, 0x02⟩
/-- NOT_READY (R607). -/
def St.notReady : Status := ⟨4, 0x01⟩
/-- NOT_ACTIVE (R607). -/
def St.notActive : Status := ⟨4, 0x02⟩
/-- DEVICE_FAILED (R607). -/
def St.deviceFailed : Status := ⟨4, 0x03⟩
/-- INVALID_STATE (R607). -/
def St.invalidState : Status := ⟨4, 0x04⟩
/-- VOLUME_OFFLINE (R607). -/
def St.volumeOffline : Status := ⟨4, 0x05⟩
/-- VAULT_UNAVAILABLE (R607). -/
def St.vaultUnavailable : Status := ⟨4, 0x06⟩
/-- VAULT_READ_ONLY (R607). -/
def St.vaultReadOnly : Status := ⟨4, 0x07⟩

/-- EV_THERMAL_WARN. -/
def Ev.thermalWarn : Nat := 0x0001
/-- EV_THERMAL_TRIP. -/
def Ev.thermalTrip : Nat := 0x0002
/-- EV_SUPPLY_FAULT. -/
def Ev.supplyFault : Nat := 0x0003
/-- EV_REFCLK_LOST. -/
def Ev.refclkLost : Nat := 0x0004
/-- EV_HOST_LINK_UP. -/
def Ev.hostLinkUp : Nat := 0x1001
/-- EV_HOST_LINK_DOWN. -/
def Ev.hostLinkDown : Nat := 0x1002
/-- EV_HOST_HOT_RESET. -/
def Ev.hostHotReset : Nat := 0x1003
/-- EV_HOST_FLR. -/
def Ev.hostFlr : Nat := 0x1004
/-- EV_HOST_BME_CLEARED. -/
def Ev.hostBmeCleared : Nat := 0x1005
/-- EV_HOST_CPL_TIMEOUT. -/
def Ev.hostCplTimeout : Nat := 0x1006
/-- EV_HOST_LATE_CPL. -/
def Ev.hostLateCpl : Nat := 0x1007
/-- EV_HOST_POISONED. -/
def Ev.hostPoisoned : Nat := 0x1008
/-- EV_HOST_BAD_ACCESS. -/
def Ev.hostBadAccess : Nat := 0x1009
/-- EV_RING_PROTOCOL. -/
def Ev.ringProtocol : Nat := 0x2001
/-- EV_CQ_STALL. -/
def Ev.cqStall : Nat := 0x2002
/-- EV_CQ_STALL_END. -/
def Ev.cqStallEnd : Nat := 0x2003
/-- EV_STASH_POOL_EMPTY. -/
def Ev.stashPoolEmpty : Nat := 0x2004
/-- EV_CONFIG_APPLIED. -/
def Ev.configApplied : Nat := 0x2101
/-- EV_CONFIG_DISCARDED. -/
def Ev.configDiscarded : Nat := 0x2102
/-- EV_VOLUME. -/
def Ev.volume : Nat := 0x2103
/-- EV_VOLUME_CREATE_UNDONE. -/
def Ev.volumeCreateUndone : Nat := 0x2104
/-- EV_LOSS_ACK. -/
def Ev.lossAck : Nat := 0x2105
/-- EV_SELF_TEST. -/
def Ev.selfTest : Nat := 0x2106
/-- EV_FW_STAGED. -/
def Ev.fwStaged : Nat := 0x2107
/-- EV_FW_ACTIVATED. -/
def Ev.fwActivated : Nat := 0x2108
/-- EV_CLOCK_SET. -/
def Ev.clockSet : Nat := 0x2109
/-- EV_ACK_PERMISSION. -/
def Ev.ackPermission : Nat := 0x3101
/-- EV_URGENT_DESTAGE. -/
def Ev.urgentDestage : Nat := 0x3102
/-- EV_COMMIT_STALL. -/
def Ev.commitStall : Nat := 0x3103
/-- EV_CACHE_BLOCK_LOST. -/
def Ev.cacheBlockLost : Nat := 0x3104
/-- EV_CACHE_BLOCK_RECOVERED. -/
def Ev.cacheBlockRecovered : Nat := 0x3105
/-- EV_GATHER_DISCARD. -/
def Ev.gatherDiscard : Nat := 0x3106
/-- EV_PARISON_ABANDONED. -/
def Ev.parisonAbandoned : Nat := 0x3107
/-- EV_STRIPE_UNRECOVERABLE. -/
def Ev.stripeUnrecoverable : Nat := 0x3108
/-- EV_REDESTAGE. -/
def Ev.redestage : Nat := 0x3201
/-- EV_JOURNAL_REPLAY. -/
def Ev.journalReplay : Nat := 0x3202
/-- EV_JOURNAL_SCAN_END. -/
def Ev.journalScanEnd : Nat := 0x3203
/-- EV_JOURNAL_FULL. -/
def Ev.journalFull : Nat := 0x3204
/-- EV_DESTAGE_WRITE_FAILED. -/
def Ev.destageWriteFailed : Nat := 0x3205
/-- EV_INTENT_STRIPE_LOSS. -/
def Ev.intentStripeLoss : Nat := 0x3206
/-- EV_ACTIVITY_CHECK. -/
def Ev.activityCheck : Nat := 0x3207
/-- EV_HEDGE_DISAGREE. -/
def Ev.hedgeDisagree : Nat := 0x3301
/-- EV_HEDGE_LIMIT. -/
def Ev.hedgeLimit : Nat := 0x3302
/-- EV_READ_REPAIR. -/
def Ev.readRepair : Nat := 0x3303
/-- EV_READ_DATA_LOST. -/
def Ev.readDataLost : Nat := 0x3304
/-- EV_HEDGE_THRESHOLD. -/
def Ev.hedgeThreshold : Nat := 0x3305
/-- EV_TILE_CORRECTED. -/
def Ev.tileCorrected : Nat := 0x4001
/-- EV_TILE_JOB_FAILED. -/
def Ev.tileJobFailed : Nat := 0x4002
/-- EV_TILE_RETRY_LOST. -/
def Ev.tileRetryLost : Nat := 0x4003
/-- EV_VERIFY_MISMATCH. -/
def Ev.verifyMismatch : Nat := 0x4004
/-- EV_TILE_MAPPED_OUT. -/
def Ev.tileMappedOut : Nat := 0x4005
/-- EV_PORT_LINK_DEGRADED. -/
def Ev.portLinkDegraded : Nat := 0x5001
/-- EV_PORT_NO_LINK. -/
def Ev.portNoLink : Nat := 0x5002
/-- EV_PORT_LINK_DOWN. -/
def Ev.portLinkDown : Nat := 0x5003
/-- EV_MEMBER_SOFT_TIMEOUT. -/
def Ev.memberSoftTimeout : Nat := 0x5004
/-- EV_MEMBER_HARD_TIMEOUT. -/
def Ev.memberHardTimeout : Nat := 0x5005
/-- EV_LATE_COMPLETION. -/
def Ev.lateCompletion : Nat := 0x5006
/-- EV_CONTROLLER_RESET. -/
def Ev.controllerReset : Nat := 0x5007
/-- EV_FAIL_CRITERION. -/
def Ev.failCriterion : Nat := 0x5008
/-- EV_SLOT_POWER_FAULT. -/
def Ev.slotPowerFault : Nat := 0x5009
/-- EV_SLOT_PRESENCE_CONFLICT. -/
def Ev.slotPresenceConflict : Nat := 0x500A
/-- EV_SLOT_BUTTON. -/
def Ev.slotButton : Nat := 0x500B
/-- EV_RESERVATION_LOST. -/
def Ev.reservationLost : Nat := 0x500C
/-- EV_DRIVE_UNUSABLE. -/
def Ev.driveUnusable : Nat := 0x500D
/-- EV_REGION_STATE. -/
def Ev.regionState : Nat := 0x6001
/-- EV_MEMBER_STATE. -/
def Ev.memberState : Nat := 0x6002
/-- EV_REBUILD_NO_TARGET. -/
def Ev.rebuildNoTarget : Nat := 0x6003
/-- EV_REPLACE_NO_SPACE. -/
def Ev.replaceNoSpace : Nat := 0x6004
/-- EV_REBUILD_STRIPE_UNREADABLE. -/
def Ev.rebuildStripeUnreadable : Nat := 0x6005
/-- EV_REGION_LOST. -/
def Ev.regionLost : Nat := 0x6006
/-- EV_MEMBER_REBUILD_DONE. -/
def Ev.memberRebuildDone : Nat := 0x6007
/-- EV_COPYBACK_DONE. -/
def Ev.copybackDone : Nat := 0x6008
/-- EV_EVACUATION_DONE. -/
def Ev.evacuationDone : Nat := 0x6009
/-- EV_SCRUB_MISMATCH. -/
def Ev.scrubMismatch : Nat := 0x600A
/-- EV_SCRUB_BEHIND. -/
def Ev.scrubBehind : Nat := 0x600B
/-- EV_REBUILD_STARVED. -/
def Ev.rebuildStarved : Nat := 0x600C
/-- EV_SPARE_LOW. -/
def Ev.spareLow : Nat := 0x600D
/-- EV_VAULT_LIFE. -/
def Ev.vaultLife : Nat := 0x7001
/-- EV_VAULT_BLOCK_RETIRED. -/
def Ev.vaultBlockRetired : Nat := 0x7002
/-- EV_VAULT_UNCORRECTABLE. -/
def Ev.vaultUncorrectable : Nat := 0x7003
/-- EV_VAULT_PATROL_BEHIND. -/
def Ev.vaultPatrolBehind : Nat := 0x7004
/-- EV_VAULT_MAPLOG_END. -/
def Ev.vaultMaplogEnd : Nat := 0x7005
/-- EV_VAULT_RESERVE_SHORT. -/
def Ev.vaultReserveShort : Nat := 0x7006
/-- EV_VAULT_MOUNT. -/
def Ev.vaultMount : Nat := 0x7007
/-- EV_PACK_WARNING. -/
def Ev.packWarning : Nat := 0x8001
/-- EV_PACK_PRESENCE. -/
def Ev.packPresence : Nat := 0x8002
/-- EV_PACK_ANCHOR. -/
def Ev.packAnchor : Nat := 0x8003
/-- EV_PACK_LEARN. -/
def Ev.packLearn : Nat := 0x8004
/-- EV_PACK_LEARN_OVERDUE. -/
def Ev.packLearnOverdue : Nat := 0x8005
/-- EV_PACK_REPLACED. -/
def Ev.packReplaced : Nat := 0x8006
/-- EV_PACK_MISMATCH. -/
def Ev.packMismatch : Nat := 0x8007
/-- EV_PACK_SHIP. -/
def Ev.packShip : Nat := 0x8008
/-- EV_GAUGE_STORE. -/
def Ev.gaugeStore : Nat := 0x8009
/-- EV_HOLDUP_UVLO. -/
def Ev.holdupUvlo : Nat := 0x800A
/-- EV_VIN_OVERVOLTAGE. -/
def Ev.vinOvervoltage : Nat := 0x800B
/-- EV_LEHR_SEALED. -/
def Ev.lehrSealed : Nat := 0x9001
/-- EV_LEHR_INCOMPLETE. -/
def Ev.lehrIncomplete : Nat := 0x9002
/-- EV_DUMP_RESTORED. -/
def Ev.dumpRestored : Nat := 0x9003
/-- EV_DUMP_RELEASED. -/
def Ev.dumpReleased : Nat := 0x9004
/-- EV_DUMP_FOREIGN. -/
def Ev.dumpForeign : Nat := 0x9005
/-- EV_FW_SLOT_FALLBACK. -/
def Ev.fwSlotFallback : Nat := 0x9006
/-- EV_START_FAILED. -/
def Ev.startFailed : Nat := 0x9007
/-- EV_READY. -/
def Ev.ready : Nat := 0x9008
/-- EV_PAIR_BOUND. -/
def Ev.pairBound : Nat := 0xA001
/-- EV_PARTNER_LOST. -/
def Ev.partnerLost : Nat := 0xA002
/-- EV_FENCED. -/
def Ev.fenced : Nat := 0xA003
/-- EV_TAKE_IGNORED. -/
def Ev.takeIgnored : Nat := 0xA004
/-- EV_TAKEOVER_DONE. -/
def Ev.takeoverDone : Nat := 0xA005
/-- EV_DUMP_IMPORT. -/
def Ev.dumpImport : Nat := 0xA006
/-- EV_DRIVE_SETTLE. -/
def Ev.driveSettle : Nat := 0xA007
/-- EV_TAKEOVER_NO_DUMP. -/
def Ev.takeoverNoDump : Nat := 0xA008
/-- EV_ARRAY_FOREIGN. -/
def Ev.arrayForeign : Nat := 0xA009
/-- EV_ARRAY_IMPORTED. -/
def Ev.arrayImported : Nat := 0xA00A
/-- EV_METADATA_REHOMED. -/
def Ev.metadataRehomed : Nat := 0xA00B
/-- EV_GOV_SATURATION. -/
def Ev.govSaturation : Nat := 0xB001
/-- EV_GOV_EXP_LIMIT. -/
def Ev.govExpLimit : Nat := 0xB002
/-- EV_GOV_PWM. -/
def Ev.govPwm : Nat := 0xB003
/-- EV_GOV_OVERRUN. -/
def Ev.govOverrun : Nat := 0xB004
/-- EV_GOV_CONFIG. -/
def Ev.govConfig : Nat := 0xB005
/-- EV_WORD_CORRECTED. -/
def Ev.wordCorrected : Nat := 0xC001
/-- EV_WORD_UNCORRECTABLE. -/
def Ev.wordUncorrectable : Nat := 0xC002
/-- EV_MARKED_EXIT. -/
def Ev.markedExit : Nat := 0xC003
/-- EV_UNIT_DOWN. -/
def Ev.unitDown : Nat := 0xC004
/-- EV_UNIT_UP. -/
def Ev.unitUp : Nat := 0xC005
/-- EV_STALE_REPLY. -/
def Ev.staleReply : Nat := 0xC006
/-- EV_MAP_OUT. -/
def Ev.mapOut : Nat := 0xC007
/-- EV_FATAL_INTERNAL. -/
def Ev.fatalInternal : Nat := 0xC008
/-- EV_STRUCTURE_REBUILT. -/
def Ev.structureRebuilt : Nat := 0xC009
/-- EV_RECORDER_FULL. -/
def Ev.recorderFull : Nat := 0xD001
/-- EV_RECORDER_CLEARED. -/
def Ev.recorderCleared : Nat := 0xD002
/-- EV_RECORDS_DROPPED. -/
def Ev.recordsDropped : Nat := 0xD003
/-- EV_TIME_BASE. -/
def Ev.timeBase : Nat := 0xD004
/-- EV_SB_MODE. -/
def Ev.sbMode : Nat := 0xE001
/-- EV_SB_PEC_ERROR. -/
def Ev.sbPecError : Nat := 0xE002
/-- EV_SB_CMD_REJECTED. -/
def Ev.sbCmdRejected : Nat := 0xE003

/-- The codes their event tables mark "subject to the per-code rate limit" (R683). -/
def Ev.limited : List Nat :=
  [Ev.hostCplTimeout, Ev.hostLateCpl, Ev.hostPoisoned, Ev.hostBadAccess,
   Ev.ringProtocol, Ev.gatherDiscard, Ev.readRepair, Ev.tileCorrected,
   Ev.memberSoftTimeout, Ev.lateCompletion, Ev.regionState, Ev.rebuildNoTarget,
   Ev.packAnchor, Ev.govSaturation, Ev.govOverrun, Ev.wordCorrected,
   Ev.staleReply, Ev.structureRebuilt, Ev.sbPecError, Ev.sbCmdRejected]

/-- CAUSE bits (R723). -/
inductive Cause where
  | stateChange | fatal | pack | vaultHealth | internalUnits | recorderFull | ringStall | ringError | member
  | cacheLost | selfTestDone | pair
deriving DecidableEq, Repr

/-- The bit of a cause (R723). -/
def Cause.bit : Cause → Nat
  | .stateChange => 0 | .fatal => 1 | .pack => 2 | .vaultHealth => 3 | .internalUnits => 4 | .recorderFull => 5
  | .ringStall => 6 | .ringError => 7 | .member => 8 | .cacheLost => 9 | .selfTestDone => 10 | .pair => 11

/-- The CAUSE bits that a function has: all twelve in a PF; STATE_CHANGE, FATAL, RING_STALL, RING_ERROR and CACHE_LOST
in a VF (R723, last column). -/
def causeBits (f : FnId) : BitVec 12 := if f.num = 0 then 0xFFF else 0x2C3

/-- ALERT_STATUS bits (R712). -/
inductive Alert where
  | fatal | stateChanged | packWarning | vaultLife | recorderFull | memberFailed | cacheLost | mapOut | cmdDone | sbReset
deriving DecidableEq, Repr

/-- The bit of an alert cause (R712). -/
def Alert.bit : Alert → Nat
  | .fatal => 0 | .stateChanged => 1 | .packWarning => 2 | .vaultLife => 3 | .recorderFull => 4 | .memberFailed => 5
  | .cacheLost => 6 | .mapOut => 7 | .cmdDone => 8 | .sbReset => 9

/-- The code of STATE (R718). -/
def DevState.code : DevState → Nat
  | .booting => 0 | .restoring => 1 | .ready => 2 | .stopping => 3 | .stopped => 4 | .fenced => 5 | .standby => 6
  | .failed => 7

/-- The code of the PWB permission (R167, R704). -/
def Permission.code : Permission → Nat
  | .full => 0 | .reduced => 1 | .journaled => 2

/-- PACK_STATE (R436, R460). -/
def PackSt.code : PackSt → Nat
  | .notDeclared => 0 | .absent => 1 | .identify => 2 | .precharge => 3 | .cc => 4 | .cv => 5 | .full => 6
  | .chargeHold => 7 | .learnDischarge => 8 | .learnRest => 9 | .holdup => 10 | .shipArmed => 11 | .ship => 12
  | .mismatch => 13

end Sys2Proof.Machine

namespace Sys2Proof

/-- A number as a parameter word (its low 32 bits). -/
def w32 (n : Nat) : Word := BitVec.ofNat 32 n

/-- A function in the form of R565: endpoint in bit 8, function in bits [7:0]. -/
def fnWord (f : FnId) : Word := w32 (f.ep * 256 + f.num)

/-- The key of a function in `State.fns`. -/
def fnKey (f : FnId) : Nat := f.ep * 256 + f.num

/-- The function of a key. -/
def fnOfKey (k : Nat) : FnId := ⟨k / 256, k % 256⟩

/-- The code of an acknowledgement mode (R615, R618). -/
def AckMode.code : AckMode → Nat
  | .pwb => 0 | .jwt => 1 | .stw => 2

/-- The mode of a code (R615, R618); 3 names none. -/
def AckMode.ofCode : Nat → Option AckMode
  | 0 => some .pwb | 1 => some .jwt | 2 => some .stw | _ => none

/-- The code of a member state (R355). -/
def MemberSt.code : MemberSt → Nat
  | .online => 0 | .slow => 1 | .suspect => 2 | .failed => 3 | .removed => 4 | .replacing => 5 | .spareOnly => 6

/-- The code of a region state (R78). -/
def RegionSt.code : RegionSt → Nat
  | .free => 0 | .normal => 1 | .degraded => 2 | .critical => 3 | .rebuilding => 4 | .relocating => 5 | .lost => 6

end Sys2Proof
end

