-- ==== Sys2Proof/Machine/Operands.lean ====
section
/-! DEFINITION. Byte order, bit fields, page images, and the operand forms of a submission entry (R12, R573, R577,
R615). -/

namespace Sys2Proof.Machine

open Sys2Proof

/-- The number little-endian bytes hold (R12). -/
def leNat : List Byte → Nat
  | [] => 0
  | b :: t => b.toNat + 256 * leNat t

/-- A number as `n` little-endian bytes (R12). -/
def toLe : Nat → Nat → List Byte
  | 0, _ => []
  | n + 1, v => BitVec.ofNat 8 v :: toLe n (v / 256)

/-- `n` bytes from offset `off`, zero past the end. -/
def bytesAt (l : List Byte) (off n : Nat) : List Byte :=
  let t := (l.drop off).take n
  t ++ List.replicate (n - t.length) 0

/-- The number in `n` bytes from offset `off` (R12). -/
def numAt (l : List Byte) (off n : Nat) : Nat := leNat (bytesAt l off n)

/-- Bits [lo + w − 1 : lo] of a number. -/
def field (v lo w : Nat) : Nat := v / 2 ^ lo % 2 ^ w

/-- Bit `i` of a number. -/
def bitAt (v i : Nat) : Bool := v / 2 ^ i % 2 == 1

/-- One more in a 32-bit counter that stays at its maximum (R269, R311). -/
def sat32 (n : Nat) : Nat := min 0xFFFFFFFF (n + 1)

/-- One more in a 64-bit counter that stays at its maximum (R269). -/
def sat64 (n : Nat) : Nat := min 0xFFFFFFFFFFFFFFFF (n + 1)

/-- A flag as a number. -/
def b2n (b : Bool) : Nat := if b then 1 else 0

/-- Write bytes over a page from an offset. -/
def overlay (page : List Byte) (off : Nat) (b : List Byte) : List Byte :=
  page.take off ++ b ++ page.drop (off + b.length)

/-- A page of `len` bytes with the given fields (offset, bytes, value) and zeros elsewhere. -/
def pageOf (len : Nat) (fields : List (Nat × Nat × Nat)) : List Byte :=
  (fields.foldl (fun p f => overlay p f.1 (toLe f.2.1 f.2.2)) (List.replicate len 0)).take len

/-- The bytes of a page from `off`, `len` of them; bytes beyond the page read as zero (R620). -/
def pageFrom (page : List Byte) (off len : Nat) : List Byte := bytesAt page off len

/-- PARAMk of an entry. -/
def Sqe.param (e : Sqe) (k : Nat) : Nat := (e.params.getD k 0).toNat

/-- Bits of PARAMk. -/
def Sqe.pfield (e : Sqe) (k lo w : Nat) : Nat := field (e.param k) lo w

/-- Bit `i` of PARAMk. -/
def Sqe.pbit (e : Sqe) (k i : Nat) : Bool := bitAt (e.param k) i

/-- A submission entry from its 64 bytes (R573); reserved fields are ignored (R574). -/
def parseSqe (b : List Byte) : Sqe :=
  let w0 := numAt b 0 4
  { opcode := field w0 0 8, fence := bitAt w0 8, fua := bitAt w0 9, dptrMode := field w0 10 2, cid := field w0 16 16,
    vol := field (numAt b 4 4) 0 12, w08 := numAt b 8 8, nblocks := numAt b 0x10 4, dptrAddr := numAt b 0x18 8,
    dptrLen := numAt b 0x20 4, params := (List.range 7).map fun k => w32 (numAt b (0x24 + 4 * k) 4) }

/-- First block of an I/O entry: bits [39:0] of bytes 0x08 to 0x0F (R573). -/
def Sqe.lba (e : Sqe) : Nat := field e.w08 0 40

/-- The 16 bytes of a completion entry with its phase (R578). -/
def Cqe.bytes (c : Cqe) (phase : Bool) : List Byte :=
  toLe 4 c.result.toNat ++ toLe 4 c.resultHi.toNat ++ toLe 2 c.sqHead
    ++ toLe 2 (c.sqIndex + b2n c.jwtAck * 0x1000 + b2n phase * 0x8000) ++ toLe 2 c.cid
    ++ toLe 2 (c.status.code + c.status.cls * 256)

/-- Is the opcode an I/O opcode (chapter 16, first paragraph)? -/
def isIoOpcode (op : Nat) : Bool := 1 ≤ op && op ≤ 6

/-- The admin opcodes of R613. -/
def adminOpcodes : List Nat :=
  [0x80, 0x81, 0x82, 0x83, 0x84, 0x85, 0x88, 0x89, 0x8A, 0x8B, 0x8C, 0x8D, 0x8E, 0x90, 0x91, 0x92, 0x93, 0x98, 0x99,
   0x9A, 0x9B, 0xA0, 0xA1, 0xA2, 0xA8, 0xA9, 0xAA, 0xB0, 0xB1, 0xB2, 0xB8, 0xB9, 0xC1, 0xC2]

/-- The device-wide group of R614. -/
def deviceGroup : List Nat := [0x88, 0x89, 0x8A, 0x9A, 0x9B, 0x98, 0x99, 0xA1, 0xA2, 0xB8, 0xB9]

/-- The segments of a descriptor list (R577): (address, length) of each 16-byte descriptor. -/
def segmentsOf : Nat → List Byte → List (Nat × Nat)
  | 0, _ => []
  | n + 1, b => (numAt b 0 8, numAt b 8 4) :: segmentsOf n (b.drop 16)

/-- The part of a buffer list that holds `len` bytes from byte `off`: (address, length) pieces. -/
def sliceBuffers : List (Nat × Nat) → Nat → Nat → List (Nat × Nat)
  | [], _, _ => []
  | (a, n) :: t, off, len =>
    if len = 0 then []
    else if n ≤ off then sliceBuffers t (off - n) len
    else
      let k := min len (n - off)
      (a + off, k) :: sliceBuffers t 0 (len - k)

/-- The length of the first read or write at an address: at most `most` bytes and not across a 4 KiB boundary (R545). -/
def pieceLen (addr len most : Nat) : Nat := min (min len most) (4096 - addr % 4096)

/-- Bytes at a buffer list cut into pieces that keep R545: (address, byte offset, length), with fuel. -/
def cutPieces : Nat → Nat → Nat → Nat → Nat → List (Nat × Nat × Nat)
  | 0, _, _, _, _ => []
  | k + 1, addr, off, len, most =>
    if len = 0 then []
    else
      let n := max 1 (pieceLen addr len most)
      (addr, off, n) :: cutPieces k (addr + n) (off + n) (len - n) most

end Sys2Proof.Machine

namespace Sys2Proof

/-- A rate in GT/s as a whole number, as events and the drive-port page carry it; how 2.5 is carried no rule states (R312, R621). -/
def LinkSpeed.gts : LinkSpeed → Nat
  | .g32 => 32
  | .g16 => 16
  | .g8 => 8
  | .g5 => 5
  | .g2_5 => (Config.openValue 0x5001 0).toNat % 256

end Sys2Proof
end

