-- ==== Sys2Proof/Machine/Ops.lean ====
section
/-! DEFINITION. The named operations on the state that every family shares: records of the parts by number, MSI-X
messages, function-event causes, alerts, event records, and a change of STATE. -/

namespace Sys2Proof.Machine

open Sys2Proof

/-! ### Parts by number -/

/-- An endpoint. -/
def State.ep (s : State) (e : Nat) : Endpoint := s.eps.read e {}

def State.setEp (s : State) (e : Nat) (v : Endpoint) : State := { s with eps := s.eps.putD {} e v }

/-- A function's state. -/
def State.fn (s : State) (f : FnId) : Fn := s.fns.read (fnKey f) {}

def State.setFn (s : State) (f : FnId) (v : Fn) : State := { s with fns := s.fns.putD {} (fnKey f) v }

/-- A drive port. -/
def State.port (s : State) (p : Nat) : Port := s.ports.read p {}

def State.setPort (s : State) (p : Nat) (v : Port) : State := { s with ports := s.ports.putD {} p v }

/-- A code tile. -/
def State.tile (s : State) (t : Nat) : Tile := s.tiles.read t {}

def State.setTile (s : State) (t : Nat) (v : Tile) : State := { s with tiles := s.tiles.putD {} t v }

/-- An island. -/
def State.island (s : State) (i : Nat) : Island := s.islands.read i {}

def State.setIsland (s : State) (i : Nat) (v : Island) : State := { s with islands := s.islands.putD {} i v }

/-- A region-table entry (R78). -/
def State.region (s : State) (r : Nat) : Region := s.regions.read r {}

def State.setRegion (s : State) (r : Nat) (v : Region) : State := { s with regions := s.regions.putD {} r v }

/-- The work on a region. -/
def State.workOf (s : State) (r : Nat) : RegionWork := s.work.read r {}

def State.setWork (s : State) (r : Nat) (v : RegionWork) : State := { s with work := s.work.putD {} r v }

/-- Is the function enabled? PF 0 always, PF 1 of a bifurcated module, VF n while VF Enable covers it (R529, R534). -/
def State.fnExists (s : State) (f : FnId) : Bool :=
  (f.ep == 0 || (f.ep == 1 && s.life.bifurcated)) &&
    (f.num == 0 || ((s.ep f.ep).vfEnable && f.num ≤ (if (s.ep f.ep).ari then (s.ep f.ep).numVfs else min 7 (s.ep f.ep).numVfs)))

/-- The endpoints in use (R529). -/
def State.endpoints (s : State) : List Nat := if s.life.bifurcated then [0, 1] else [0]

/-- The enabled functions of an endpoint. -/
def State.functionsOf (s : State) (e : Nat) : List FnId :=
  ((span 0 256).map fun n => FnId.mk e n).filter s.fnExists

/-- Every enabled function. -/
def State.functions (s : State) : List FnId := s.endpoints.flatMap s.functionsOf

/-- The PFs. -/
def State.pfs (s : State) : List FnId := s.endpoints.map fun e => ⟨e, 0⟩

/-- Vectors of a function (R533). -/
def vectorsOf (f : FnId) : Nat := if f.num = 0 then 2048 else 64

/-- Ring indices of a function (R539). -/
def maxRings (f : FnId) : Nat := if f.num = 0 then 4096 else 256

/-- A lehr pass runs: the islands outside the survival domain are gated (R37). -/
def State.lehrOn (s : State) : Bool := s.life.lehr.isSome

/-- The host side works: its islands are up and PERST_N is not asserted (R37, R469, R477). -/
def State.hostOn (s : State) : Bool := s.life.hostReady && !s.life.perst

/-- The function may issue requests: Bus Master Enable, D0, link up (R556, R560). -/
def State.mayRequest (s : State) (f : FnId) : Bool :=
  s.hostOn && s.fnExists f && (s.fn f).bme && !(s.fn f).d3 && (s.ep f.ep).up

/-! ### MSI-X (R550, R551, R734) -/

/-- The MSI-X table entry of a vector: MSG_ADDR, MSG_ADDR_HI, MSG_DATA, MASK. -/
def Fn.entry (x : Fn) (v : Nat) : Word × Word × Word × Bool := x.msix.read v (0, 0, 0, true)

/-- None of the conditions of R550 holds. -/
def State.vectorOpen (s : State) (f : FnId) (v : Nat) : Bool :=
  (s.fn f).msixEnable && !(s.fn f).functionMask && !((s.fn f).entry v).2.2.2 && s.mayRequest f

/-- Send the message of a vector with the entry as it stands (R551). -/
def State.emitVector (s : State) (f : FnId) (v : Nat) : State :=
  let e := (s.fn f).entry v
  s.emit (.msix f v (e.1.toNat + e.2.1.toNat * 2 ^ 32) e.2.2.1)

/-- A message is due on a vector: sent, or its PBA bit set (R550). -/
def State.sendVector (s : State) (f : FnId) (v : Nat) : State :=
  if s.vectorOpen f v then s.emitVector f v
  else s.setFn f { s.fn f with pba := insertBy (· ≤ ·) v ((s.fn f).pba.filter (· ≠ v)) }

/-- Send one message for each set PBA bit whose conditions have ended (R550). -/
def State.flushPba (s : State) (f : FnId) : State :=
  s.over (s.fn f).pba fun s v =>
    if s.vectorOpen f v then (s.emitVector f v).setFn f { s.fn f with pba := (s.fn f).pba.filter (· ≠ v) } else s

/-! ### Causes and alerts -/

/-- Raise a cause in one function: sets the CAUSE bit where the function has it, and a message is due on vector 0 where
the bit is newly set, unmasked and INT_EN is 1 (R723, R724, R727). While the host side is in reset the registers stay
at their reset values. -/
def State.raise (s : State) (f : FnId) (c : Cause) : State :=
  if !s.hostOn || !s.fnExists f || !(causeBits f).getLsbD c.bit || (s.fn f).cause.getLsbD c.bit then s
  else
    let x := s.fn f
    let s' := s.setFn f { x with cause := x.cause ||| (1#12 <<< c.bit) }
    if x.intEn && !x.causeMask.getLsbD c.bit then s'.sendVector f 0 else s'

/-- Raise a cause in both PFs. -/
def State.raisePfs (s : State) (c : Cause) : State := s.over s.pfs fun s f => s.raise f c

/-- Raise a cause in every function. -/
def State.raiseAll (s : State) (c : Cause) : State := s.over s.functions fun s f => s.raise f c

/-- The sideband serves its bus: its island is up, no pass but one that PERST_N started gates it, and the logic die is out of reset
or in the reset after such a pass, which leaves the island up (R469, R701). -/
def State.sbOn (s : State) : Bool :=
  (s.island 253).status = 0 && (!s.life.inReset || s.life.hostReady) && (match s.life.lehr with | some l => l.cause = .perst | none => true)

/-- Set an ALERT_STATUS bit; a newly set enabled bit makes an alert pending (R712, R713). -/
def State.alert (s : State) (a : Alert) : State :=
  if !s.sbOn || s.sb.status.getLsbD a.bit then s
  else
    let s' := { s with sb := { s.sb with status := s.sb.status ||| (1#10 <<< a.bit) } }
    if s.sb.enable.getLsbD a.bit then
      let s2 := { s' with sb := { s'.sb with alert := true, ibiAt := s.now } }
      let s3 := if s.sb.alert then s2 else s2.emit (.sidebandAlert true)
      if s.sb.i3c && s.sb.ibiEnabled then s3.emit (.sidebandIbi (BitVec.ofNat 8 s3.sb.status.toNat)) else s3
    else s'

/-- The pending alert ends (R713). -/
def State.endAlert (s : State) : State :=
  if s.sb.alert then { s with sb := { s.sb with alert := false } }.emit (.sidebandAlert false) else s

/-- The sideband island after a reset: its registers at their reset values with SB_RESET newly set; bus mode and dynamic address
stay in the boundary logic (R700, R704, R709). -/
def State.sbCleared (s : State) : State :=
  let b := s.sb
  let s := { s with sb := { staticAddr := b.staticAddr, i3c := b.i3c, dynAddr := b.dynAddr, ibiEnabled := b.ibiEnabled,
                            alert := b.alert, status := 0 } }
  s.endAlert.alert .sbReset

/-! ### Event records (R671 to R687) -/

/-- Operating seconds (R680). -/
def State.opSeconds (s : State) : Nat :=
  (s.life.opSecondsBase + (if s.life.inReset then 0 else (s.now - s.life.opSince) / 1000000)) % 2 ^ 40

/-- The time of an event: value, calendar form, CLOCK_UNSET (R679, R681). -/
def State.stamp (s : State) : Nat × Bool × Bool :=
  match s.settings.calendarBase, s.recorder.clock with
  | true, some (ns, at_) => (ns + (s.now - at_) * 1000, true, false)
  | base, _ => (s.opSeconds + s.life.startCount.toNat * 2 ^ 40, false, base)

/-- SEQUENCE after one (R675). -/
def nextSequence (q : BitVec 32) : BitVec 32 := if q = 0xFFFFFFFF then 1 else q + 1

/-- Count a record left unrecorded: its code's count and every PF's SUPPRESSED_TOTAL (R684, R722). -/
def State.countUnrecorded (s : State) (code : Nat) : State :=
  let b := s.recorder.buckets.read code {}
  let s := { s with recorder := { s.recorder with buckets := s.recorder.buckets.put code { b with unrecorded := b.unrecorded + 1 } } }
  s.over s.pfs fun s f => s.setFn f { s.fn f with suppressedTotal := min 0xFFFFFFFF ((s.fn f).suppressedTotal + 1) }

/-- Store a record in the next place with the next SEQUENCE (R671, R675, R684). -/
def State.storeRecord (s : State) (r : RawRecord) : State :=
  let b := s.recorder.buckets.read r.code {}
  let rec_ : Record :=
    { seq := s.recorder.next, code := r.code, calendar := r.calendar, clockUnset := r.clockUnset, scope := r.src.scope,
      inst := (match r.src.scope with | some f => f.num | none => r.src.inst), suppressed := min 15 b.unrecorded,
      time := r.time, p1 := r.p1, p2 := r.p2, p3 := r.p3 }
  { s with recorder :=
      { s.recorder with
        records := s.recorder.records ++ [rec_], pending := s.recorder.pending + 1,
        next := nextSequence s.recorder.next,
        buckets := if b.unrecorded = 0 then s.recorder.buckets else s.recorder.buckets.put r.code { b with unrecorded := 0 } } }

/-- Tokens of a code's bucket now (R683). -/
def State.codeTokens (s : State) (code : Nat) : Nat :=
  let b := s.recorder.buckets.read code {}
  min 120000000 (b.tokens + (s.now - b.at_))

/-- The recorder accepts a record: rate limit, full handling, sequence (R675, R683 to R687). -/
def State.accept (s : State) (r : RawRecord) : State :=
  if s.recorder.full then { s with recorder := { s.recorder with fullDiscards := s.recorder.fullDiscards + 1 } }
  else if Ev.limited.contains r.code && s.codeTokens r.code < 6000000 then s.countUnrecorded r.code
  else
    let b := s.recorder.buckets.read r.code {}
    let s := if Ev.limited.contains r.code then
        let b := { b with tokens := s.codeTokens r.code - 6000000, at_ := s.now }
        { s with recorder := { s.recorder with buckets := s.recorder.buckets.put r.code b } }
      else s
    if s.recorder.records.length ≥ 65535 then
      let t := s.stamp
      let s := s.storeRecord ⟨Ev.recorderFull, ⟨none, 0⟩, w32 r.code, 0, 0, t.1, t.2.1, t.2.2⟩
      let s := { s with recorder := { s.recorder with full := true, fullDiscards := 1 } }
      (s.raisePfs .recorderFull).alert .recorderFull
    else s.storeRecord r

/-- Hold a record at its source while the recorder is down: 16 for each source, the oldest dropped beyond (R658). The
sources are told apart by class. -/
def State.holdRecord (s : State) (r : RawRecord) : State :=
  let same := s.recorder.held.filter fun h => h.code / 4096 = r.code / 4096
  match same with
  | old :: _ =>
    if same.length < 16 then { s with recorder := { s.recorder with held := s.recorder.held ++ [r] } }
    else { s with recorder := { s.recorder with held := s.recorder.held.erase old ++ [r] } }.countUnrecorded old.code
  | [] => { s with recorder := { s.recorder with held := s.recorder.held ++ [r] } }

/-- An event happens: its record reaches the recorder, waits at its source while the recorder is down, or is lost where
the recorder is gated or in reset (R659, R676, R677). -/
def State.record (s : State) (code : Nat) (src : RecordSrc) (p1 p2 p3 : Word) : State :=
  if s.life.inReset || s.lehrOn then s
  else
    let t := s.stamp
    let r : RawRecord := ⟨code, src, p1, p2, p3, t.1, t.2.1, t.2.2⟩
    if s.recorder.up then s.accept r else s.holdRecord r

/-- A device-wide event with the SOURCE_INSTANCE of its class (R673). -/
def State.event (s : State) (code inst : Nat) (p1 p2 p3 : Nat) : State :=
  s.record code ⟨none, inst⟩ (w32 p1) (w32 p2) (w32 p3)

/-- An event whose parameter 1 names a function (R565, R674). -/
def State.fnEvent (s : State) (code : Nat) (f : FnId) (p2 p3 : Nat) : State :=
  s.record code ⟨some f, 0⟩ (fnWord f) (w32 p2) (w32 p3)

/-- The side of the module as an instance number (R673). -/
def State.sideNo (s : State) : Nat := b2n s.life.side

/-- The function a volume's records are scoped to (R674). -/
def State.volScope (s : State) (v : Nat) : FnId :=
  match s.volumes.look v with
  | some x => x.attached.getD ⟨0, 0⟩
  | none => ⟨0, 0⟩

/-- An event whose parameters name a volume (R674). -/
def State.volEvent (s : State) (code v : Nat) (p1 p2 p3 : Nat) : State :=
  s.record code ⟨some (s.volScope v), 0⟩ (w32 p1) (w32 p2) (w32 p3)

/-! ### Words and islands (R647, R648, R651 to R659) -/

/-- Change an island. -/
def State.updIsland (s : State) (i : Nat) (g : Island → Island) : State := s.setIsland i (g (s.island i))

/-- The low 32 bits of a word's address, which no rule lays out: an open value by island, instant and the words found before. -/
def State.wordAddress (s : State) (i : Nat) : Nat :=
  let x := s.island i
  (Config.openValue (0xC000 + i) ((s.now * 2 ^ 32 + x.corrected) * 2 ^ 16 + x.uncorrectable)).toNat % 2 ^ 32

/-- Log a correctable error (R552). -/
def State.aerCorrectable (s : State) (f : FnId) (bit : Nat) : State :=
  let x := s.fn f
  let s := s.setFn f { x with aerCorr := x.aerCorr ||| 2 ^ bit }
  if !bitAt x.aerCorrMask bit && x.report.1 then s.emit (.errorMessage f false false) else s

/-- Count a fresh uncorrectable word of an island (R648). -/
def State.countBad (s : State) (i : Nat) : State := s.updIsland i fun x => { x with uncorrectable := min 0xFFFF (x.uncorrectable + 1) }

/-- Count a corrected word of an island; one of a host port logs Corrected Internal Error in its PF, that of the one x16 link where both
islands carry it (R32), one of the ring engine, which both endpoints share, in each PF (R552, R647, DEDUCED 49). -/
def State.countFixed (s : State) (i : Nat) : State :=
  let s := s.updIsland i fun x => { x with corrected := min 0xFFFFFFFF (x.corrected + 1) }
  s.over (s.pfs.filter fun f => i = 64 + f.ep || i = 254 || (i = 65 && !s.life.bifurcated)) fun s f => s.aerCorrectable f 14

/-- A fresh uncorrectable word is found by an island, in an area of R662 or outside HBM (R648, R670). -/
def State.wordBad (s : State) (i area : Nat) : State :=
  (s.countBad i).event Ev.wordUncorrectable (i % 256) i area (s.wordAddress i)

/-- A word is corrected by an island (R647, R670). -/
def State.wordFixed (s : State) (i area : Nat) : State := (s.countFixed i).event Ev.wordCorrected (i % 256) i area (s.wordAddress i)

/-- An exit point meets a marked word (R649): `requester` is the requesting island, `exit` 0 host, 1 drive, 2 vault. -/
def State.markedExit (s : State) (i requester exit : Nat) : State :=
  { s with mgmt := { s.mgmt with markedExits := min 0xFFFFFFFF (s.mgmt.markedExits + 1) } }.event Ev.markedExit (i % 256) i
    requester exit

/-- A structure of HBM is rebuilt after an uncorrectable word in it: it is counted, and the event names its area and index (R662, R669, R670). -/
def State.rebuilt (s : State) (i area index : Nat) : State :=
  { s with mgmt := { s.mgmt with rebuilt := min 0xFFFFFFFF (s.mgmt.rebuilt + 1) } }.event Ev.structureRebuilt (i % 256) i area index

/-! #### Epochs and the boundary (R651 to R657) -/

/-- The islands that a PERST_N pass resets instead of gating them, with SRAM banks 32 to 47 (R477). -/
def hostSide (i : Nat) : Bool := i = 64 || i = 65 || i = 253 || i = 254 || (202 ≤ i && i < 218)

/-- The island of the firmware that issues member, tile and vault requests; no rule says which cluster issues which
(DESIGN CHOICE 41). -/
def firmwareIsland : Nat := 163

/-- A requester's view of a destination's epoch: the current one once the up-notice has come, which a request issued in the same
µs as the return does not know yet, unless an ABSENT reply told it (R657, DESIGN CHOICE 41). -/
def State.viewOf (s : State) (requester dest : Nat) : BitVec 8 :=
  let x := s.island dest
  match s.learned.look (requester * 512 + dest) with
  | some e => if x.upAt = some s.now then e else x.epoch
  | none => if x.upAt = some s.now then x.epoch - 1 else x.epoch

/-- The reasons of an ABSENT reply (R654): 0 DOWN, 1 STALE, 2 MAPPED_OUT, 3 DRAINING. -/
inductive AbsentWhy where
  | down | stale | mappedOut | draining
deriving DecidableEq, Repr

/-- What a destination's boundary answers a request with this DEST_EPOCH: ABSENT with its reason, which is DOWN while its epoch waits to
advance, or none where the request goes in (R652, R654). Status 4 is gated, and only a code tile answers while it drains. -/
def State.boundary (s : State) (dest : Nat) (epoch : BitVec 8) : Option AbsentWhy :=
  let x := s.island dest
  if x.advanceDue || x.status = 1 || x.status = 4 then some .down
  else if x.status = 3 then some .mappedOut
  else if x.status = 2 && 114 ≤ dest && dest < 162 then some .draining
  else if epoch ≠ x.epoch then some .stale
  else none

/-- An ABSENT reply carries the current epoch, which its requester keeps (R654, R657). -/
def State.learnEpoch (s : State) (requester dest : Nat) : State :=
  { s with learned := s.learned.put (requester * 512 + dest) (s.island dest).epoch }

/-- Replies whose SRC_EPOCH is not the requester's current epoch are dropped at its boundary and counted (R656, R670). -/
def State.dropStale (s : State) (requester responder n : Nat) : State :=
  s.over (List.range n) fun s _ =>
    let x := s.island requester
    let k := min 0xFFFF (x.stale + 1)
    (s.setIsland requester { x with stale := k }).event Ev.staleReply (requester % 256) requester responder k

/-- A reply comes back to a requester: dropped where its SRC_EPOCH is an old one (R656). -/
def State.replyTo (s : State) (requester responder : Nat) (src : BitVec 8) (f : State → State) : State :=
  if src = (s.island requester).epoch then f s else s.dropStale requester responder 1

/-- An island goes down: its epoch advances, unless it advanced less than 1 ms ago, and then the advance waits (R651, R652);
`why` is 0 reset, 1 drained, 2 mapped out (R659, R670). -/
def State.islandDown (s : State) (i why : Nat) : State :=
  let x := s.island i
  let late := match x.advancedAt with | some t => s.now < t + 1000 | none => false
  let s := s.setIsland i { x with
    epoch := if late then x.epoch else x.epoch + 1, advancedAt := if late then x.advancedAt else some s.now,
    advanceDue := late, status := if why = 2 then 3 else 1, drained := why = 1, downAt := s.now,
    downCount := min 0xFFFF (x.downCount + 1) }
  let s := { s with learned := s.learned.keep fun k _ => k % 512 ≠ i }
  s.event Ev.unitDown (i % 256) i why (x.epoch + 1).toNat

/-- HBM channels not mapped out, nor on their way out (R664). -/
def State.channelsIn (s : State) : Nat :=
  ((span 0 32).filter fun c => s.life.hbmTrained.getLsbD c && !s.mgmt.hbmOut.getLsbD c && (s.island (66 + c)).outRow = 0).length

/-- Code tiles not mapped out, nor on their way out. -/
def State.tilesIn (s : State) : Nat :=
  ((span 0 48).filter fun t => !s.mgmt.tilesOut.getLsbD t && (s.island (114 + t)).outRow = 0).length

/-- HBM channels in service, as IDENTIFY shows them: also those on their way out (R616, R666). -/
def State.channelsActive (s : State) : Nat :=
  ((span 0 32).filter fun c => s.life.hbmTrained.getLsbD c && !s.mgmt.hbmOut.getLsbD c).length

/-- Code tiles in service, as IDENTIFY shows them. -/
def State.tilesActive (s : State) : Nat := ((span 0 48).filter fun t => !s.mgmt.tilesOut.getLsbD t).length

/-- A unit is mapped out for good: it leaves the lists of units in service, and the event, the cause and the alert follow (R666,
R667, R723). `row` is the criterion row of R664: 1 for an HBM channel, 2 for a code tile. -/
def State.mapOut (s : State) (i row : Nat) : State :=
  let m := s.mgmt
  let s := s.updIsland i fun x => { x with status := 3, outRow := 0, drained := false }
  let s := { s with mgmt := if i < 98 then { m with hbmOut := m.hbmOut ||| (1#32 <<< (i - 66)) }
                            else { m with tilesOut := m.tilesOut ||| (1#48 <<< (i - 114)) } }
  let left := if i < 98 then s.channelsActive else s.tilesActive
  let s := s.event Ev.mapOut (i % 256) i row left
  let s := if i < 98 then s else s.event Ev.tileMappedOut (i - 114) i (s.island i).uncorrectable 0
  (s.raisePfs .internalUnits).alert .mapOut

/-! ### STATE (R721, R723) -/

/-- Does an uncorrectable error come with a TLP to log? Poisoned TLP, Unexpected Completion, Malformed TLP, ECRC Error and Unsupported
Request do (R554, PRESUMED 36 from the PCIe standard). -/
def hasHeader (bit : Nat) : Bool := [12, 16, 18, 19, 20].contains bit

/-- The TLP header the log captures: four dwords, and fourteen on a link in flit mode (R554, PRESUMED 36). The commands do not carry the
TLP's header, so its dwords are free values. -/
def State.tlpHeader (s : State) (f : FnId) (bit : Nat) : List Word :=
  (span 0 (if (s.ep f.ep).flit then 14 else 4)).map fun i =>
    BitVec.ofInt 32 (Config.openValue 0x554 (((s.now * 32 + bit) * 512 + 256 * f.ep + f.num) * 16 + i))

/-- Log an uncorrectable error in a function's AER registers; the first unmasked one sets the First Error Pointer and the header log (R552,
R554). `advisory` errors are signalled as correctable, and an Unsupported Request only while its reporting is enabled. Bit numbers are
those the PCIe standard gives the status register. -/
def State.aer (s : State) (f : FnId) (bit : Nat) (advisory : Bool) : State :=
  let x := s.fn f
  let masked := bitAt x.aerUncorrMask bit
  let first := !masked && x.firstError.isNone
  let x := { x with aerUncorr := x.aerUncorr ||| 2 ^ bit,
                    firstError := if masked then x.firstError else some (x.firstError.getD bit),
                    headerLog := if first && hasHeader bit then s.tlpHeader f bit else x.headerLog }
  let told := bit ≠ 20 || x.report.2.2.2
  if advisory && !bitAt x.aerUncorrSev bit then
    let m := bitAt x.aerCorrMask 13
    let s := s.setFn f { x with aerCorr := x.aerCorr ||| 2 ^ 13 }
    if told && !m && !masked && x.report.1 then s.emit (.errorMessage f false false) else s
  else
    let fatal := bitAt x.aerUncorrSev bit
    let s := s.setFn f x
    if told && !masked && (if fatal then x.report.2.2.1 else x.report.2.1) then s.emit (.errorMessage f fatal (!fatal)) else s

/-- The function's memory space answers: its host side works, its link is up and it is in D0. -/
def State.mmioOk (s : State) (f : FnId) : Bool := s.hostOn && s.fnExists f && (s.ep f.ep).up && !(s.fn f).d3

/-- A memory access to a function: it has its effect where the memory space answers; a function in D3hot answers no memory access but with
Unsupported Request, advisory for a write, which is posted (R533, R552; PRESUMED 36 from the PCIe standard). -/
def State.mmio (s : State) (f : FnId) (read : Bool) (t : State) : State :=
  if s.mmioOk f then t
  else if s.hostOn && s.fnExists f && (s.ep f.ep).up then (s.aer f 20 (!read)).emit (.unsupported f)
  else s

/-- STATE takes a value: nothing where it holds it already; else STATE_CHANGE in every function and STATE_CHANGED, and for
FAILED also FATAL and Uncorrectable Internal Error in each PF (R552, R712, R721, R723). -/
def State.setState (s : State) (st : DevState) : State :=
  if s.life.st = st then s
  else
    let s := { s with life := { s.life with st := st } }
    let s := (s.raiseAll .stateChange).alert .stateChanged
    if st = .failed then s.over s.pfs (fun s f => s.aer f 22 false) |>.raiseAll .fatal else s

end Sys2Proof.Machine
end

