-- ==== Sys2Proof/Machine/Code.lean ====
section
/-! DEFINITION. The erasure code: field, check matrix, positions of a template, the recovery rule, and what the tile
operations compute (R50 to R60, R75, R104 to R126), with the CRC-32C of placement (R72, R74). -/

namespace Sys2Proof

open Sys2Proof.Machine

/-! ### Field (R105, R106) -/

/-- Multiply by α = 0x02 modulo 0x11D. -/
def gfDouble (a : Byte) : Byte := if a.getLsbD 7 then (a <<< 1) ^^^ 0x1D#8 else a <<< 1

/-- Product of `a` and the lowest `n` bits of `b`, by shift and add. -/
def gfMulBits : Nat → Byte → Nat → Byte
  | 0, _, _ => 0
  | n + 1, a, b => (if b % 2 = 1 then a else 0) ^^^ gfMulBits n (gfDouble a) (b / 2)

/-- Product in GF(2^8). -/
def gfMul (a b : Byte) : Byte := gfMulBits 8 a b.toNat

/-- Power. -/
def gfPow (a : Byte) : Nat → Byte
  | 0 => 1
  | n + 1 => gfMul a (gfPow a n)

/-- The element whose product with `b` is 1 (for b ≠ 0): b^254. -/
def gfInv (b : Byte) : Byte := gfPow b 254

/-- Quotient. -/
def gfDiv (a b : Byte) : Byte := gfMul a (gfInv b)

/-- Coefficient c_{j,i} of data position i in check row j (R107). -/
def coefficient (j i : Nat) : Byte :=
  let x := BitVec.ofNat 8 j
  let y := BitVec.ofNat 8 (8 + i)
  gfDiv y (x ^^^ y)

/-! ### Blocks as vectors over the field -/

/-- Bytewise sum, the shorter block padded with zeros. -/
def xorBytes : List Byte → List Byte → List Byte
  | [], b => b
  | a, [] => a
  | x :: a, y :: b => (x ^^^ y) :: xorBytes a b

/-- Sum of two blocks (R106). -/
def blockXor (a b : Block) : Block := trim (xorBytes a b)

/-- A block times a field element. -/
def blockScale (c : Byte) (a : Block) : Block := if c = 0 then [] else a.map (gfMul c)

/-- Σ c_k × b_k. -/
def blockSum (l : List (Byte × Block)) : Block := l.foldl (fun r e => blockXor r (blockScale e.1 e.2)) []

/-! ### CRC-32C -/

/-- One bit of the reflected CRC-32C. -/
def crcBit (c : BitVec 32) : BitVec 32 := if c.getLsbD 0 then (c >>> 1) ^^^ 0x82F63B78#32 else c >>> 1

/-- One byte. -/
def crcByte (c : BitVec 32) (b : Byte) : BitVec 32 :=
  (List.range 8).foldl (fun c _ => crcBit c) (c ^^^ b.zeroExtend 32)

/-- CRC-32C over bytes. -/
def crc32c (l : List Byte) : BitVec 32 := (l.foldl crcByte 0xFFFFFFFF#32) ^^^ 0xFFFFFFFF#32

/-! ### Templates (R50 to R60) -/

/-- D_t of a tier. -/
def tierData (t : Nat × Nat) : Nat := t.1 - t.2

/-- Region width w. -/
def Template.width (m : Template) : Nat := (m.tiers.map (·.1)).foldl (· * ·) 1

/-- Region data width D (R52). -/
def Template.data (m : Template) : Nat := (m.tiers.map tierData).foldl (· * ·) 1

/-- Is the template valid (R50, R58)? -/
def Template.valid (m : Template) : Bool :=
  1 ≤ m.tiers.length && m.tiers.length ≤ 4 && m.stripCode ≤ 4
    && m.tiers.all (fun t => 2 ≤ t.1 && t.2 ≤ 8 && t.2 + 1 ≤ t.1 && tierData t ≤ 56)
    && m.width ≤ 64

/-- Blocks in a strip: 4, 8, 16, 32, 64 (R47, R58). -/
def Template.strip (m : Template) : Nat := 4 * 2 ^ m.stripCode

/-- Digits of a position, tier 1 first (R59). -/
def digitsOf : List (Nat × Nat) → Nat → List Nat
  | [], _ => []
  | t :: ts, p => (p % t.1) :: digitsOf ts (p / t.1)

/-- Position of digits (R59). -/
def posOfDigits : List (Nat × Nat) → List Nat → Nat
  | t :: ts, u :: us => u + t.1 * posOfDigits ts us
  | _, _ => 0

/-- Digits of data strip k (R60). -/
def dataDigits : List (Nat × Nat) → Nat → List Nat
  | [], _ => []
  | t :: ts, k => (k % tierData t) :: dataDigits ts (k / tierData t)

/-- Position of data strip k (R60). -/
def Template.dataPos (m : Template) (k : Nat) : Nat := posOfDigits m.tiers (dataDigits m.tiers k)

/-- Are all digits data digits? -/
def allData : List (Nat × Nat) → List Nat → Bool
  | t :: ts, u :: us => u < tierData t && allData ts us
  | _, _ => true

/-- Does the position hold data (R60)? -/
def Template.isData (m : Template) (p : Nat) : Bool := allData m.tiers (digitsOf m.tiers p)

/-- Positions 0 to w − 1. -/
def Template.positions (m : Template) : List Nat := span 0 m.width

/-- Data strip number of a data position: the inverse of `dataPos`. -/
def stripOf : List (Nat × Nat) → List Nat → Nat
  | t :: ts, u :: us => u + tierData t * stripOf ts us
  | _, _ => 0

/-- The tier-t (0 for tier 1) line through a position, in digit order (R54, R109). -/
def Template.line (m : Template) (t p : Nat) : List Nat :=
  let step := ((m.tiers.take t).map (·.1)).foldl (· * ·) 1
  let n := (m.tiers.getD t (1, 0)).1
  let u := p / step % n
  (span 0 n).map fun k => p - u * step + k * step

/-- The lines of tier t (0 for tier 1) by ascending first position. -/
def Template.lines (m : Template) (t : Nat) : List (List Nat) :=
  (m.positions.filter fun p => (digitsOf m.tiers p).getD t 0 = 0).map (m.line t)

/-- The factor by which a change at data position p reaches position q; none where q does not change (R114). -/
def deltaFactor : List (Nat × Nat) → List Nat → List Nat → Option Byte
  | t :: ts, u :: us, v :: vs =>
    match deltaFactor ts us vs with
    | none => none
    | some f =>
      if u = v then some f
      else if v ≥ tierData t then some (if tierData t = 1 then f else gfMul f (coefficient (v - tierData t) u))
      else none
  | _, _, _ => some 1

/-- The factor of a change at data position p at position q (R113, R114). -/
def Template.factor (m : Template) (p q : Nat) : Option Byte :=
  deltaFactor m.tiers (digitsOf m.tiers p) (digitsOf m.tiers q)

/-- The check positions a change at data position p touches (R114). -/
def Template.touched (m : Template) (p : Nat) : List Nat :=
  m.positions.filter fun q => q ≠ p && (m.factor p q).isSome

/-! ### The recovery rule (R116 to R123) -/

/-- Repair the repairable lines of tier t, in order: every one of tier 1 (0 here), but of a tier above only the first, after which
R117 returns to tier 1, the line with the lowest first position (DESIGN CHOICE 54). Answers what stays unresolved, and the repairs. -/
def repairTier (m : Template) (t : Nat) (un : List Nat) : List Nat × List Repair :=
  (m.lines t).foldl (fun (acc : List Nat × List Repair) l =>
    let lost := l.filter acc.1.contains
    if 1 ≤ lost.length && lost.length ≤ (m.tiers.getD t (1, 0)).2 && (t = 0 || acc.2.isEmpty) then
      (acc.1.filter fun p => !lost.contains p, acc.2 ++ [{ tier := t, line := l, lost := lost }])
    else acc) (un, [])

/-- The first of the tiers from `t` (`n` of them) at which a repair succeeds. -/
def repairFrom (m : Template) : Nat → Nat → List Nat → List Nat × List Repair
  | 0, _, un => (un, [])
  | n + 1, t, un =>
    let r := repairTier m t un
    if r.2.isEmpty then repairFrom m n (t + 1) un else r

/-- The closure of R117 with the first `tiers` tiers: unresolved positions and repairs in order. -/
def closureLoop (m : Template) (tiers : Nat) : Nat → List Nat → List Nat × List Repair
  | 0, un => (un, [])
  | n + 1, un =>
    let r := repairFrom m tiers 0 un
    if r.2.isEmpty then (un, [])
    else
      let r' := closureLoop m tiers n r.1
      (r'.1, r.2 ++ r'.2)

/-- The closure of R117 with the first `tiers` tiers. -/
def closure (m : Template) (tiers : Nat) (lost : List Nat) : List Nat × List Repair :=
  closureLoop m tiers (lost.length + 1) lost

/-- Is the lost set recoverable (R90, R117)? -/
def recoverable (m : Template) (lost : List Nat) : Bool := (closure m m.tiers.length lost).1.isEmpty

/-- Is a recoverable lost set critical: adding some one position makes it unrecoverable (R90)? -/
def critical (m : Template) (lost : List Nat) : Bool :=
  m.positions.any fun p => !lost.contains p && !recoverable m (lost ++ [p])

/-- The survivors a repair reads (R120, R122): for a Reed–Solomon line every surviving data position and as many of the
lowest surviving check rows as data positions are lost; for a repetition line the lowest surviving position. -/
def Machine.Repair.inputs (m : Template) (r : Repair) : List Nat :=
  let d := tierData (m.tiers.getD r.tier (1, 0))
  let live := r.line.filter fun p => !r.lost.contains p
  if d = 1 then live.take 1
  else
    let lostData := ((r.line.take d).filter r.lost.contains).length
    ((r.line.take d).filter fun p => !r.lost.contains p)
      ++ ((r.line.drop d).filter fun p => !r.lost.contains p).take lostData

/-- What a repair writes for the positions wanted: of a Reed–Solomon line every lost data position, and the lost check positions
that are wanted (R121); of a repetition line what is wanted. -/
def Machine.Repair.outputs (m : Template) (r : Repair) (want : List Nat) : List Nat :=
  let d := tierData (m.tiers.getD r.tier (1, 0))
  r.lost.filter fun p => want.contains p || (d ≠ 1 && (r.line.take d).contains p)

/-- The repairs on which wanted positions depend, in order, found from the last repair back (R123). -/
def neededRepairs (m : Template) (want : List Nat) (l : List Repair) : List Repair :=
  (l.foldr (fun r (acc : List Nat × List Repair) =>
    if r.lost.any acc.1.contains then (acc.1 ++ r.inputs m, { r with out := r.outputs m acc.1 } :: acc.2) else acc) (want, [])).2

/-- The smallest number of tiers whose closure recovers the wanted positions, with the repairs needed (R123). -/
def planFrom (m : Template) (lost want : List Nat) : Nat → Nat → Option (List Repair)
  | 0, _ => none
  | n + 1, t =>
    let c := closure m t lost
    if want.all fun p => !c.1.contains p then some (neededRepairs m want c.2) else planFrom m lost want n (t + 1)

/-- The plan for wanted positions of a stripe with a lost set; none where they are unrecoverable (R123). -/
def planRepairs (m : Template) (lost want : List Nat) : Option (List Repair) :=
  planFrom m lost want m.tiers.length 1

/-- The positions a plan reads from members. -/
def planReads (m : Template) (lost : List Nat) (plan : List Repair) : List Nat :=
  uniq ((plan.flatMap (·.inputs m)).filter fun p => !lost.contains p)

/-! ### Line arithmetic (R110, R121, R126) -/

/-- Reduce a row by the pivot row so that its column `c` becomes zero. -/
def rowReduce (c : Nat) (pivot row : List Byte) : List Byte :=
  let f := row.getD c 0
  (row.zip pivot).map fun e => e.1 ^^^ gfMul f e.2

/-- Gauss–Jordan elimination of columns `c` on, over augmented rows; `done` holds the rows already pivoted. -/
def gaussLoop : Nat → Nat → List (List Byte) → List (List Byte) → List (List Byte)
  | 0, _, done, _ => done
  | n + 1, c, done, rest =>
    match rest.find? (fun r => r.getD c 0 ≠ 0) with
    | none => done ++ rest
    | some r =>
      let inv := gfInv (r.getD c 0)
      let p := r.map (gfMul inv)
      gaussLoop n (c + 1) (done.map (rowReduce c p) ++ [p]) ((rest.erase r).map (rowReduce c p))

/-- The inverse of a square matrix over the field (R121). -/
def matrixInverse (a : List (List Byte)) : List (List Byte) :=
  let k := a.length
  let aug := a.zipIdx.map fun e => e.1 ++ (span 0 k).map fun i => if i = e.2 then (1 : Byte) else 0
  (gaussLoop k 0 [] aug).map (·.drop k)

/-- The content of a position in a list of (position, block). -/
def contentOf (l : List (Nat × Block)) (p : Nat) : Block := ((l.find? fun e => e.1 = p).map (·.2)).getD []

/-- Check row j of a line from its data contents (R110, R111). -/
def checkRow (d j : Nat) (line : List Nat) (content : List (Nat × Block)) : Block :=
  if d = 1 then contentOf content (line.getD 0 0)
  else blockSum ((span 0 d).map fun i => (coefficient j i, contentOf content (line.getD i 0)))

/-- The lost positions of a line from the contents of the positions a repair reads (R121, R122): data first, then by R110 the
lost check positions that are wanted. -/
def decodeLine (m : Template) (r : Repair) (content : List (Nat × Block)) : List (Nat × Block) :=
  let d := tierData (m.tiers.getD r.tier (1, 0))
  if d = 1 then
    let b := contentOf content ((r.inputs m).getD 0 0)
    r.out.map fun p => (p, b)
  else
    let lostData := (span 0 d).filter fun i => r.lost.contains (r.line.getD i 0)
    let liveData := (span 0 d).filter fun i => !r.lost.contains (r.line.getD i 0)
    let rows := ((span 0 (r.line.length - d)).filter fun j => !r.lost.contains (r.line.getD (d + j) 0)).take lostData.length
    let inv := matrixInverse (rows.map fun j => lostData.map fun i => coefficient j i)
    let syn := rows.map fun j =>
      blockXor (contentOf content (r.line.getD (d + j) 0))
        (blockSum (liveData.map fun i => (coefficient j i, contentOf content (r.line.getD i 0))))
    let data := lostData.zipIdx.map fun e => (r.line.getD e.1 0, blockSum ((inv.getD e.2 []).zip syn))
    let all := data ++ content
    let checks := ((span 0 (r.line.length - d)).filter fun j => r.out.contains (r.line.getD (d + j) 0)).map fun j =>
      (r.line.getD (d + j) 0, checkRow d j r.line all)
    data ++ checks

/-- The mask of check rows that mismatch in one segment of a line (VERIFY, R125). -/
def verifyLine (m : Template) (t : Nat) (line : List Nat) (content : List (Nat × Block)) : List Nat :=
  let d := tierData (m.tiers.getD t (1, 0))
  (span 0 (line.length - d)).filter fun j => checkRow d j line content ≠ contentOf content (line.getD (d + j) 0)

/-- What LOCATE reports of one segment (R126). -/
inductive Located where
  | clean | named (pos : Nat) | uncorrectable
deriving DecidableEq, Repr

/-- LOCATE at one byte offset, from the syndromes S_0 to S_(c−1): the index in the line that it names. -/
def locateByte (d : Nat) (syn : List Byte) : Located :=
  let nz := (span 0 syn.length).filter fun j => syn.getD j 0 ≠ 0
  match nz with
  | [] => .clean
  | [j] => .named (d + j)
  | _ =>
    let s0 := syn.getD 0 0
    match (span 0 d).find? (fun i => (span 0 syn.length).all fun j => syn.getD j 0 = gfMul (if d = 1 then 1 else coefficient j i) s0) with
    | some i => if s0 = 0 then .uncorrectable else .named i
    | none => .uncorrectable

/-- LOCATE of one segment of a line (R126): clean, one named position, or uncorrectable. -/
def locateLine (m : Template) (t : Nat) (line : List Nat) (content : List (Nat × Block)) : Located :=
  let d := tierData (m.tiers.getD t (1, 0))
  let syn := (span 0 (line.length - d)).map fun j =>
    blockXor (checkRow d j line content) (contentOf content (line.getD (d + j) 0))
  let len := (syn.map List.length).foldl max 0
  (span 0 len).foldl (fun acc b =>
    match acc, locateByte d (syn.map fun s => s.getD b 0) with
    | a, .clean => a
    | .clean, .named i => .named (line.getD i 0)
    | .named p, .named i => if line.getD i 0 = p then .named p else .uncorrectable
    | _, _ => .uncorrectable) .clean

/-- Full-stripe encode of one segment: every position's content from the data positions' (R110 to R112, R114). -/
def encodeAll (m : Template) (data : List (Nat × Block)) : List (Nat × Block) :=
  m.positions.map fun q =>
    if m.isData q then (q, contentOf data q)
    else (q, blockSum ((m.positions.filter m.isData).filterMap fun p => (m.factor p q).map fun f => (f, contentOf data p)))

/-! ### Locations (R75, R80) -/

/-- The integers from 1 to w that are coprime to w. -/
def coprimes (w : Nat) : List Nat := (span 1 w).filter fun a => Nat.gcd a w = 1

/-- The port and row of a position where no relocation names it (R75). -/
def basePlace (bitmap : Mask) (row : Nat) (perm : BitVec 16) (p : Nat) : Nat × Nat :=
  let b := bitsOf bitmap
  let w := b.length
  let cs := coprimes w
  let a := cs.getD (perm.toNat / 256 % cs.length) 1
  (b.getD ((a * p + perm.toNat % 256 % w) % w) 0, row)

/-- The relocation slot of a position (R79, R80). -/
def Region.reloc (r : Region) (p : Nat) : Option Reloc := r.relocs.find? fun x => x.pos = p

/-- Where a position lies (R80): port and slot row. -/
def Region.place (r : Region) (p : Nat) : Nat × Nat :=
  match r.reloc p with
  | some x => (x.port, x.row)
  | none => basePlace r.bitmap r.row r.perm p

/-- h(d) of R72. -/
def rankHash (seed : BitVec 32) (row d : Nat) : BitVec 32 :=
  crc32c (toLe 4 seed.toNat ++ toLe 4 row ++ toLe 4 d)

/-- Permutation id of a new region (R74). -/
def permId (seed : BitVec 32) (index : Nat) : BitVec 16 :=
  BitVec.ofNat 16 (crc32c (toLe 4 seed.toNat ++ toLe 4 index)).toNat

end Sys2Proof
end

