-- ==== Sys2Proof/Machine/Rings.lean ====
section
/-! DEFINITION. The operations of the ring engine: live tails and heads, posting and stashing of completion entries,
back-pressure, and the end of a command (R578 to R603). -/

namespace Sys2Proof.Machine

open Sys2Proof

/-- The key of a ring index of a function. -/
def ringKey (f : FnId) (r : Nat) : Nat := fnKey f * 4096 + r

/-- Ring contexts in use: a context for each index that holds a ring of either kind (R566). -/
def State.contexts (s : State) : Nat := (uniq (s.sqs.keys ++ s.cqs.keys)).length

/-- Does the index hold a ring of either kind? -/
def State.hasContext (s : State) (k : Nat) : Bool := s.sqs.has k || s.cqs.has k

/-- How far a value lies ahead of a point in ring order. -/
def ahead (depth value point : Nat) : Nat := (value + depth - point % depth) % depth

/-- The value in force: the point itself when no value is live, else the live value further ahead (R588). -/
def inForce (depth point : Nat) (a b : Option Nat) : Nat :=
  match a, b with
  | none, none => point
  | some x, none => x
  | none, some y => y
  | some x, some y => if ahead depth x point < ahead depth y point then y else x

/-- A live value once the point has advanced by `n` places: dropped when the point reaches or passes it (R588). -/
def stillLive (depth point n : Nat) (v : Option Nat) : Option Nat :=
  v.bind fun x => if ahead depth x point ≤ n then none else some x

/-- Has the fetch pointer, `past` entries beyond the last value of a path, reached or passed a value that the path now brings (R588)? Beyond
a whole ring the two cannot be told apart, and the value counts as new (DESIGN CHOICE 55). -/
def reached (depth point past value : Nat) : Bool := past < depth && ahead depth (value + past) point ≤ past

/-- Entries accepted since a path's value was reached, after one more (R588). -/
def pastAfter (depth past : Nat) (v : Option Nat) : Nat := if v.isSome then 0 else min depth (past + 1)

/-- The tail in force of a submission ring (R588). -/
def Sq.tail (q : Sq) : Nat := inForce q.depth q.fetch q.tailMmio q.tailShadow

/-- The head in force is taken at once: R585 checks the value and the head moves to it. -/
def Cq.room (c : Cq) : Bool := ahead c.depth c.tail c.head < c.depth - 1

/-- Stash places in use (R598). -/
def State.stashed (s : State) : Nat := (s.cqs.vals.map fun c => c.stash.length).sum

/-- Backed up: 64 stashed, or at least one and the pool is empty (R599). -/
def State.isBacked (s : State) (c : Cq) : Bool :=
  c.stash.length ≥ 64 || (!c.stash.isEmpty && s.stashed ≥ 16384)

/-- Note for every completion ring since when it is backed up; the end of a recorded stall records EV_CQ_STALL_END and
clears its STALLED bit (R601, R732). -/
def State.noteBacked (s : State) : State :=
  s.over s.cqs.keys fun s k =>
    match s.cqs.look k with
    | none => s
    | some c =>
      match s.isBacked c, c.backedSince with
      | true, none => { s with cqs := s.cqs.put k { c with backedSince := some s.now } }
      | false, some t =>
        let s' := { s with cqs := s.cqs.put k { c with backedSince := none, stalled := false } }
        if c.stalled then s'.fnEvent Ev.cqStallEnd c.fn c.ring ((s.now - t) / 1000) else s'
      | _, _ => s

/-- Stalled beyond STALL_TIMEOUT: EV_CQ_STALL and the ring-stall cause, once an episode (R601, R732). -/
def State.stallCheck (s : State) (k : Nat) : State :=
  match s.cqs.look k with
  | none => s
  | some c =>
    match c.backedSince with
    | none => s
    | some t =>
      if !c.stalled && s.now ≥ t + s.settings.stallTimeout * 1000 then
        let s := { s with cqs := s.cqs.put k { c with stalled := true } }
        (s.fnEvent Ev.cqStall c.fn c.ring (c.stash.length + c.waiting.length)).raise c.fn .ringStall
      else s

/-- May an entry be posted on the ring now (R581, R598, R603)? -/
def State.canPost (s : State) (c : Cq) : Bool := c.st = .active && c.room && s.mayRequest c.fn

/-- Write one completion entry at the tail (R547, R578, R579). -/
def State.postEntry (s : State) (k : Nat) (c : Cq) (e : Cqe) : State :=
  let s := s.emit (.completion c.fn (c.base + 16 * c.tail) (e.bytes c.phase))
  let wrap := c.tail + 1 ≥ c.depth
  { s with cqs := s.cqs.put k { c with
      tail := if wrap then 0 else c.tail + 1, phase := if wrap then !c.phase else c.phase,
      sinceMsg := c.sinceMsg + 1, firstAt := if c.sinceMsg = 0 then s.now else c.firstAt } }

/-- The message of a completion ring after posting: due at the coalescing count or at a coalescing time of 0 (R602). -/
def State.cqMessage (s : State) (k : Nat) : State :=
  match s.cqs.look k with
  | none => s
  | some c =>
    if c.sinceMsg > 0 && (c.sinceMsg ≥ c.coalCount || c.coalTime = 0) then
      let s := { s with cqs := s.cqs.put k { c with sinceMsg := 0 } }
      if c.ien then s.sendVector c.fn c.vector else s
    else s

/-- Move entries of a ring that wait with their commands into its stash while it has room (R598, R600). -/
def State.refillStash (s : State) (k : Nat) : State :=
  match s.cqs.look k with
  | none => s
  | some c =>
    let n := min (64 - c.stash.length) (16384 - s.stashed)
    { s with cqs := s.cqs.put k { c with stash := c.stash ++ c.waiting.take n, waiting := c.waiting.drop n } }

/-- Post stashed and waiting entries in the order they were generated while R581 allows, with fuel (R600). -/
def State.drainLoop : Nat → State → Nat → State
  | 0, s, _ => s
  | n + 1, s, k =>
    match s.cqs.look k with
    | none => s
    | some c =>
      if s.canPost c then
        match c.stash, c.waiting with
        | e :: t, _ => State.drainLoop n (s.postEntry k { c with stash := t } e) k
        | [], e :: t => State.drainLoop n (s.postEntry k { c with waiting := t } e) k
        | [], [] => s
      else s

/-- Posting resumes on a ring, then its message, then the waiting entries move up (R600, R602). -/
def State.drainCq (s : State) (k : Nat) : State :=
  match s.cqs.look k with
  | none => s
  | some c =>
    let s := State.drainLoop (c.stash.length + c.waiting.length) s k
    -- pool places that posting returns also serve entries of other rings, by ring (R598, DESIGN CHOICE 54)
    let s := (s.cqMessage k).refillStash k
    (s.over s.cqs.keys fun s j => s.refillStash j).noteBacked

/-- A completion entry is generated for a ring: posted, stashed, or kept waiting (R598 to R600, R603). -/
def State.generate (s : State) (k : Nat) (e : Cqe) : State :=
  match s.cqs.look k with
  | none => s
  | some c =>
    if s.canPost c && c.stash.isEmpty && c.waiting.isEmpty then (s.postEntry k c e).cqMessage k
    else if c.stash.length < 64 && s.stashed < 16384 && c.waiting.isEmpty then
      { s with cqs := s.cqs.put k { c with stash := c.stash ++ [e] } }.noteBacked
    else { s with cqs := s.cqs.put k { c with waiting := c.waiting ++ [e] } }

/-! ### The end of a command -/

/-- The lower limit of a latency above bin k: ⌈16 × 2^(k/2)⌉ µs, the upper edge of bin k (R241). -/
def latencyEdges : List Nat :=
  [16, 23, 32, 46, 64, 91, 128, 182, 256, 363, 512, 725, 1024, 1449, 2048, 2897, 4096, 5793, 8192, 11586, 16384,
   23171, 32768, 46341, 65536, 92682, 131072, 185364, 262144, 370728, 524288]

/-- The bin of a latency in µs (R241). -/
def latencyBin (us : Nat) : Nat := (latencyEdges.filter (· ≤ us)).length

/-- Add one to a bin of a histogram. -/
def Hist.bump (h : Hist) (bin : Nat) : Hist := Store.put h bin (Store.read h bin 0 + 1)

/-- The extremes of one value: highest and lowest are the same (R694). -/
def Extreme.sample (v : Int) (inst : Nat) (t : Nat × Bool) : Extreme :=
  { max := v, min := v, maxInst := inst, minInst := inst, maxTime := t, minTime := t }

/-- Extremes joined to those before them: a value that equals an earlier extreme leaves it as it is (R694). -/
def Extreme.over (x : Extreme) : Option Extreme → Extreme
  | none => x
  | some y =>
    let y := if x.max > y.max then { y with max := x.max, maxInst := x.maxInst, maxTime := x.maxTime } else y
    if x.min < y.min then { y with min := x.min, minInst := x.minInst, minTime := x.minTime } else y

/-- Extremes of a series are joined to the table's (R694). -/
def State.extremeOf (s : State) (series : Nat) (x : Extreme) : State :=
  { s with recorder := { s.recorder with extremes := s.recorder.extremes.put series (x.over (s.recorder.extremes.look series)) } }

/-- Highest and lowest value of a series (R694). -/
def State.extreme (s : State) (series : Nat) (v : Int) (inst : Nat) : State :=
  s.extremeOf series (Extreme.sample v inst (s.stamp.1, s.stamp.2.1))

/-- Count a latency in the running minute of rolling series 0 or 1, in the extremes, and for the governor (R364, R693). -/
def State.countHostLatency (s : State) (series us : Nat) : State :=
  let k := series * 32 + latencyBin us
  let r := s.recorder
  let s := { s with recorder := { r with minute := r.minute.put k (r.minute.read k 0 + 1) } }
  let s := s.extreme series us 0
  if series = 0 then
    match s.gov.latency with
    | h :: t => { s with gov := { s.gov with latency := h.bump (latencyBin us) :: t } }
    | [] => { s with gov := { s.gov with latency := [Hist.bump [] (latencyBin us)] } }
  else s

/-- The completion entry of a command is generated with its status, and the command is gone; a command whose ring was
destroyed ends without one (R558, R578, R598). -/
def State.finishOne (s : State) (acc : Nat) (st : Status) (result resultHi : Word) : State :=
  match s.cmds.look acc with
  | none => s
  | some c =>
    let s := { s with cmds := s.cmds.del acc }
    let s := s.setEp c.fn.ep { s.ep c.fn.ep with lastActivity := s.now }
    if c.silent then s
    else
      let s := if c.sqe.opcode = 1 then s.countHostLatency 0 (s.now - c.at_)
               else if c.sqe.opcode = 2 then s.countHostLatency 1 (s.now - c.at_) else s
      match s.sqs.look c.sq with
      | none => s
      | some q =>
        s.generate (ringKey q.fn q.cq)
          { result := result, resultHi := resultHi, sqHead := q.fetch, sqIndex := q.ring, jwtAck := c.jwtAck,
            cid := c.sqe.cid, status := st }

/-! ### Changes of the array metadata (R502, R503) -/

/-- Another module's array is on the drives, and no ARRAY_IMPORT or take-over has decided its fate (R484, R526). -/
def State.foreignHere (s : State) : Bool :=
  match s.pair.label with | some l => l.ownerId ≠ Config.identity | none => false

/-- A change waits for the next change-log record, on an array that is not another module's (R526): KIND 0 a region entry, 1 a member, 2 a pool, 3 a volume, 4 WATERMARK alone. The
state of the model holds the new value from the decision on; what R502 makes wait for the record waits for it (DESIGN CHOICE 47). -/
def State.noteChange (s : State) (kind index : Nat) : State :=
  let n := s.pair.changeNo + 1
  let p := s.pair
  if s.foreignHere then s
  else if kind = 4 && p.changes.any (fun c => c.2.2 = index && (c.2.1 = 0 || c.2.1 = 4)) then s
  else { s with pair := { p with
    changeNo := n, changes := (p.changes.filter fun c => !(c.2.2 = index && (c.2.1 = kind || (kind = 0 && c.2.1 = 4)))) ++ [(n, kind, index)],
    changesAt := if p.changes.isEmpty then s.now else p.changesAt } }

/-- The changes whose records have not committed, as (number, KIND, INDEX). -/
def Pair.uncommitted (p : Pair) : List (Nat × Nat × Nat) :=
  p.changes ++ p.jobs.flatMap fun j => match j.2.kind with
    | .record _ items => items.map fun i => (i.1, i.2.1, i.2.2.1)
    | _ => []

/-- The region table without the changes whose records have not committed (R502). -/
def State.committed (s : State) : Store Region :=
  (s.pair.uncommitted.filter fun (c : Nat × Nat × Nat) => c.2.1 = 0).foldl
    (fun (m : Store Region) (c : Nat × Nat × Nat) => m.putD {} c.2.2 (s.pair.onDrives.read c.2.2 {})) s.regions

/-- Does a region entry wait for its change-log record (R502)? -/
def Pair.unlogged (p : Pair) (r : Nat) : Bool := p.uncommitted.any fun c => c.2.1 = 0 && c.2.2 = r

/-- An array volume's descriptor changes; a vault volume's is not on the drives (R502, R523). -/
def State.noteVolume (s : State) (v : Nat) : State :=
  match s.volumes.look v with
  | some x => if x.vault then s else s.noteChange 3 v
  | none => s

/-- A command that may have changed a descriptor ends once the changes made so far have committed (R502, R768). -/
def State.answer (s : State) (acc : Nat) (st : Status) (result resultHi : Word) : State :=
  if s.pair.uncommitted.any fun c => 1 ≤ c.2.1 && c.2.1 ≤ 3 then
    { s with cmds := s.cmds.upd acc fun c => { c with phase := .running },
             pair := { s.pair with answers := s.pair.answers ++ [⟨acc, s.pair.changeNo, st, result, resultHi⟩] } }
  else s.finishOne acc st result resultHi

/-- A FLUSH of a vault volume completes once every write to the volume accepted before it has ended (R162). A DEVICE_STOP
completes, and STATE becomes STOPPED, once every I/O command accepted before it has ended (R630). A
VOLUME_DETACH completes, and the volume is detached, once every command accepted before it from the volume's function
for that volume has ended (R625). -/
def State.settleWaits (s : State) : State :=
  s.over (s.cmds.filter fun e => e.2.phase = .running && !(s.pair.answers.any fun a => a.acc = e.1) &&
      (e.2.sqe.opcode = 0x98 || e.2.sqe.opcode = 0x8E || e.2.sqe.opcode = 3)) fun s e =>
    let acc := e.1
    let c := e.2
    if c.sqe.opcode = 3 then
      if s.cmds.all fun x => x.1 ≥ acc || x.2.sqe.vol ≠ c.sqe.vol
          || !(x.2.sqe.opcode = 2 || x.2.sqe.opcode = 4 || x.2.sqe.opcode = 5) then
        s.finishOne acc St.success 0 0
      else s
    else if c.sqe.opcode = 0x98 then
      if s.cmds.all fun x => x.1 ≥ acc || !isIoOpcode x.2.sqe.opcode then
        let s := if s.life.st = .stopping then s.setState .stopped else s
        s.finishOne acc St.success 0 0
      else s
    else
      let v := c.sqe.pfield 0 0 12
      match s.volumes.look v with
      | none => s.finishOne acc St.success 0 0
      | some x =>
        -- an earlier VOLUME_DETACH has detached it
        if x.attached.isNone then s.finishOne acc St.success 0 0
        else if s.cmds.all fun y => y.1 ≥ acc || !isIoOpcode y.2.sqe.opcode || y.2.sqe.vol ≠ v || x.attached ≠ some y.2.fn then
          let f := x.attached.getD ⟨0, 0⟩
          let s := s.volEvent Ev.volume v v 3 (fnKey f)
          let s := { s with volumes := s.volumes.put v { x with attached := none, detaching := none },
                            streams := s.streams.keep fun _ st => st.vol ≠ v }
          (s.noteVolume v).answer acc St.success 0 0
        else s

/-- A command ends with a status; commands that waited for its end go on. -/
def State.finish (s : State) (acc : Nat) (st : Status) (result : Word := 0) (resultHi : Word := 0) : State :=
  (s.finishOne acc st result resultHi).settleWaits

/-- A command that may have changed a descriptor ends, at once or once its change has committed; commands that waited for its end go
on (R502). -/
def State.finishLogged (s : State) (acc : Nat) (st : Status) (result : Word := 0) (resultHi : Word := 0) : State :=
  (s.answer acc st result resultHi).settleWaits

/-- A command ends with SUCCESS. -/
def State.succeed (s : State) (acc : Nat) : State := s.finish acc St.success

/-- Change an accepted command. -/
def State.updCmd (s : State) (acc : Nat) (f : Cmd → Cmd) : State := { s with cmds := s.cmds.upd acc f }

end Sys2Proof.Machine
end

