-- ==== Sys2Proof/Machine/Array.lean ====
section
/-! DEFINITION. Pools, slots, placement, lost sets, region and volume states, and block addresses (R59 to R103). -/

namespace Sys2Proof.Machine

open Sys2Proof

/-- Stripes in a chunk (R48): chunk ÷ strip. -/
def stripesOf (chunkCode stripCode : Nat) : Nat := 4 * 2 ^ 20 * 2 ^ chunkCode / (16 * 1024 * 2 ^ stripCode)

/-- Blocks in a chunk. -/
def chunkBlocks (code : Nat) : Nat := 1024 * 2 ^ code

/-- The template of a region. -/
def State.tmpl (s : State) (id : Nat) : Template := s.templates.read id ⟨0, []⟩

/-- The template of a region's entry. -/
def State.regionTmpl (s : State) (r : Nat) : Template := s.tmpl (s.region r).template

/-- Stripes of a region. -/
def State.stripes (s : State) (r : Nat) : Nat := stripesOf (s.region r).chunkCode (s.regionTmpl r).stripCode

/-- Is the drive of the port a member in FAILED or REMOVED? A port with no member record holds nothing. -/
def State.memberGone (s : State) (p : Nat) : Bool :=
  match s.members.look p with
  | some m => m.st = .failed || m.st = .removed
  | none => true

/-- The lost set of a region (R89). -/
def State.lostSet (s : State) (r : Nat) : List Nat :=
  let e := s.region r
  (s.regionTmpl r).positions.filter fun p =>
    s.memberGone (e.place p).1 || (match e.reloc p with | some x => !x.complete | none => false)

/-- "Recompute" of R92. -/
def State.recomputed (s : State) (r : Nat) : RegionSt :=
  let l := s.lostSet r
  if l.isEmpty then .normal
  else if !recoverable (s.regionTmpl r) l then .lost
  else if critical (s.regionTmpl r) l then .critical
  else .degraded

/-- A changed entry: GENERATION increments on every change but one of WATERMARK or flags alone (R85). -/
def bumpGen (old new : Region) : Region :=
  if old.bitmap = new.bitmap && old.row = new.row && old.perm = new.perm && old.st = new.st && old.relocs = new.relocs
  then new else { new with gen := old.gen + 1 }

/-- Write a region-table entry whole (R86), with GENERATION as R85 says, on the log drives first unless WATERMARK alone
advances (R502), and EV_REGION_STATE where its state changes. -/
def State.updRegion (s : State) (r : Nat) (f : Region → Region) : State :=
  let old := s.region r
  let new := bumpGen old (f old)
  if new = old then s
  else
    let s := s.setRegion r new
    let s := s.noteChange (if { new with watermark := old.watermark } = old then 4 else 0) r
    if new.st = old.st then s
    else if new.st = .free then s.event Ev.regionState 0 r new.st.code 0
    else s.event Ev.regionState 0 r new.st.code (s.lostSet r).length

/-- The volume whose region list holds a region. -/
def State.volumeOf (s : State) (r : Nat) : Option Nat := (s.volumes.find? fun e => e.2.vmap.contains r).map (·.1)

/-- Members of a pool: ports. -/
def State.poolMembers (s : State) (p : Nat) : List Nat := (s.members.keep fun _ m => m.pool = p).keys

/-! ### Slots (R65 to R70, R81) -/

/-- Is row r a spare row of a pool with spare divisor d (R67)? -/
def isSpareRow (d r : Nat) : Bool := d ≠ 0 && r % d == d - 1

/-- The slots a region-table entry holds: base slots of positions whose relocation is absent or still being written, and relocation targets
(R68). -/
def State.entrySlots (s : State) (e : Region) : List (Nat × Nat) :=
  let m := s.tmpl e.template
  ((m.positions.filter fun p =>
    match e.reloc p with | some x => !x.complete | none => true).map fun p => basePlace e.bitmap e.row e.perm p)
    ++ e.relocs.map fun x => (x.port, x.row)

/-- The slots one region holds (R68): those of its entry, of a re-placement in progress and the source of a move in progress. -/
def State.slotsHeld (s : State) (r : Nat) : List (Nat × Nat) :=
  let w := s.workOf r
  let fresh := match w.replace with | some n => (bitsOf n.bitmap).map fun d => (d, n.row) | none => []
  let moving := match w.move with | some v => [(v.srcPort, v.srcRow)] | none => []
  s.entrySlots (s.region r) ++ fresh ++ moving

/-- The slots in use in a pool: those that its regions hold, and those that an entry on the drives still holds whose update has not committed,
since no slot is used again before (R68, R502). -/
def State.slotsUsed (s : State) (pool : Nat) : List (Nat × Nat) :=
  let here (e : Region) : Bool := e.st ≠ .free && e.pool = pool
  let late := s.pair.uncommitted.filterMap fun c => if c.2.1 = 0 then some (s.pair.onDrives.read c.2.2 {}) else none
  (s.regions.keep fun _ e => here e).keys.flatMap s.slotsHeld ++ (late.filter here).flatMap s.entrySlots

/-- May the member take a new region (R71)? -/
def State.placeable (s : State) (p : Nat) : Bool :=
  match s.members.look p with
  | some m => m.st = .online || m.st = .slow
  | none => false

/-- May the member hold a relocation target (R81)? -/
def State.targetable (s : State) (p : Nat) : Bool :=
  match s.members.look p with
  | some m => m.st = .online || m.st = .slow || m.st = .spareOnly
  | none => false

/-- The free drives of a row among `ports`. -/
def freeIn (used : List (Nat × Nat)) (ports : List Nat) (row : Nat) : List Nat :=
  ports.filter fun p => !used.contains (p, row)

/-- The lowest ordinary row from `row` with at least w free slots on the ports, with fuel (R72). -/
def findRow (used : List (Nat × Nat)) (ports : List Nat) (spare rows w : Nat) : Nat → Nat → Option Nat
  | 0, _ => none
  | n + 1, row =>
    if row ≥ rows then none
    else if !isSpareRow spare row && w ≤ (freeIn used ports row).length then some row
    else findRow used ports spare rows w n (row + 1)

/-- Placement of a region of width w (R72): the row, and the w drives of lowest rank, as a bitmap. -/
def State.placeRegion (s : State) (pool w : Nat) (used : List (Nat × Nat)) : Option (Nat × Mask) :=
  match s.pools.look pool with
  | none => none
  | some x =>
    let ports := (s.poolMembers pool).filter s.placeable
    match findRow used ports x.spare x.rows w (2 * used.length + 4) 0 with
    | none => none
    | some row =>
      let ranked := sortBy (fun a b => a.1 < b.1 || (a.1 = b.1 && a.2 ≤ b.2))
        ((freeIn used ports row).map fun d => ((rankHash x.seed row d).toNat, d))
      some (row, maskOf 64 ((ranked.take w).map (·.2)))

/-- The lowest free row of a port, from `row` on, that is (or is not) a spare row, with fuel. -/
def findTargetRow (used : List (Nat × Nat)) (port spare rows : Nat) (wantSpare : Bool) : Nat → Nat → Option Nat
  | 0, _ => none
  | n + 1, row =>
    if row ≥ rows then none
    else if isSpareRow spare row == wantSpare && !used.contains (port, row) then some row
    else findTargetRow used port spare rows wantSpare n (row + 1)

/-- A free slot of a port: a spare row where one is free, else an ordinary row (R81). -/
def targetRow (x : Pool) (used : List (Nat × Nat)) (port : Nat) : Option Nat :=
  let n := used.length + 2
  match (if x.spare = 0 then none else findTargetRow used port x.spare x.rows true ((n + 1) * x.spare) 0) with
  | some r => some r
  | none => findTargetRow used port x.spare x.rows false (2 * n) 0

/-! ### Region-table offer (R505) -/

/-- The array drives: every member record that is not dropped, in every state, but for those of a foreign array's pools, which count once
an ARRAY_IMPORT takes them (R504, R527). -/
def State.arrayDrives (s : State) : List Nat :=
  (s.members.filter fun e => s.mgmt.importing.isSome || match s.pools.look e.2.pool with | some x => !x.foreign_ | none => true).map (·.1)

/-- Region-table entries offered (R505). -/
def offered (drives : Nat) : Nat := 262144 * min 64 (16 * drives)

/-- The lowest free region-table indices, `n` of them, within the offer, with fuel (R73, R505). -/
def State.freeIndices (s : State) (limit : Nat) : Nat → Nat → Nat → List Nat
  | 0, _, _ => []
  | _, 0, _ => []
  | fuel + 1, n + 1, i =>
    if i ≥ limit then []
    else if (s.region i).st = .free then i :: State.freeIndices s limit fuel n (i + 1)
    else State.freeIndices s limit fuel (n + 1) (i + 1)

/-! ### Addresses (R60, R61) -/

/-- The place of a volume block: region, stripe, data position, 4 KiB segment within the strip (R61). -/
structure Addr where
  region : Nat
  stripe : Nat
  pos : Nat
  seg : Nat
deriving DecidableEq, Repr

/-- R61 up to the position. -/
def State.locate (s : State) (v : Volume) (lba : Nat) : Addr :=
  let m := s.tmpl v.template
  let x := s.pools.read v.pool { chunkCode := 0, spare := 0, seed := 0, rows := 0 }
  let per := chunkBlocks x.chunkCode * m.data
  let o := lba % per
  let b := m.strip
  { region := v.vmap.getD (lba / per) 0, stripe := o / (b * m.data),
    pos := m.dataPos (o % (b * m.data) / b), seg := o % b }

/-- The volume block at a data position and segment of a stripe: the inverse of `locate`. -/
def State.lbaAt (s : State) (v : Volume) (r stripe pos seg : Nat) : Nat :=
  let m := s.tmpl v.template
  let x := s.pools.read v.pool { chunkCode := 0, spare := 0, seed := 0, rows := 0 }
  let per := chunkBlocks x.chunkCode * m.data
  (v.vmap.takeWhile (· ≠ r)).length * per + stripe * (m.strip * m.data)
    + stripOf m.tiers (digitsOf m.tiers pos) * m.strip + seg

/-- The byte of a segment on its drive (R61, R65). -/
def State.memberByte (s : State) (e : Region) (pos stripe seg : Nat) : Nat :=
  2 ^ 30 + (e.place pos).2 * (chunkBlocks e.chunkCode * 4096) + stripe * ((s.tmpl e.template).strip * 4096) + seg * 4096

/-! ### Volume states (R96, R98) -/

/-- The codes of the volume page (R621). -/
inductive VolSt where
  | online | degraded | critical | partialLoss | cacheLost | offline
deriving DecidableEq, Repr

/-- The code of a volume state (R621). -/
def VolSt.code : VolSt → Nat
  | .online => 0 | .degraded => 1 | .critical => 2 | .partialLoss => 3 | .cacheLost => 4 | .offline => 5

/-- The state of a volume (R96); a vault volume is ONLINE, CACHE_LOST or OFFLINE (R98, R423). -/
def State.volState (s : State) (v : Volume) : VolSt :=
  if v.vault then
    if v.attached.isNone || !s.vault.mounted || s.life.st = .standby || s.life.st = .fenced then .offline else if v.cacheLost then .cacheLost else .online
  else
    let es := v.vmap.map s.region
    let foreign := match s.pools.look v.pool with | some x => x.foreign_ | none => true
    if v.attached.isNone || v.init || foreign || es.all (fun e => e.st = .lost) then .offline
    else if v.cacheLost then .cacheLost
    else if es.any (fun e => e.st = .lost) then .partialLoss
    else if es.any (fun e => e.st = .critical || (e.st = .rebuilding && e.crit)) then .critical
    else if es.any (fun e => e.st = .degraded || e.st = .rebuilding) then .degraded
    else .online

/-! ### Loss reports (R97, R626) -/

/-- The function set that a volume's CACHE_LOST cause is raised in: both PFs and the VF it is attached to (R723). -/
def State.raiseLoss (s : State) (v : Volume) : State :=
  let s := s.raisePfs .cacheLost
  match v.attached with
  | some f => if f.num = 0 then s else s.raise f .cacheLost
  | none => s

/-- Blocks of one region of an array volume (R61). -/
def State.regionBlocks (s : State) (v : Volume) : Nat :=
  chunkBlocks (s.pools.read v.pool { chunkCode := 0, spare := 0, seed := 0, rows := 0 }).chunkCode * (s.tmpl v.template).data

/-- The region-level entry, of cause 4, of the i-th region of a volume: its whole range (R626). -/
def State.regionLoss (s : State) (v : Volume) (i : Nat) : LossEntry :=
  let per := s.regionBlocks v
  { firstLba := i * per, blocks := min per (v.capacity - i * per), region := v.vmap.getD i 0xFFFFFF, cause := 4 }

/-- The region-level entries, in cause 4 form, that a block entry is merged into (R626). A vault volume has no regions: one entry stands
for all of it (DESIGN CHOICE 15). An entry that names no block stays. -/
def State.regionLevel (s : State) (v : Volume) (e : LossEntry) : List LossEntry :=
  let per := s.regionBlocks v
  if e.region ≠ 0xFFFFFF || e.blocks = 0 then [e]
  else if v.vault then [{ firstLba := 0, blocks := v.capacity, region := 0xFFFFFF, cause := 4 }]
  else (span (e.firstLba / per) ((e.firstLba + e.blocks - 1) / per + 1 - e.firstLba / per)).map (s.regionLoss v)

/-- Merge entries into region-level ones, none twice (R626). -/
def State.mergeLoss (s : State) (v : Volume) (have_ l : List LossEntry) : List LossEntry :=
  (l.flatMap (s.regionLevel v)).foldl (fun acc r => if acc.contains r then acc else acc ++ [r]) have_

/-- At most 65,536 entries: the last one reaches over what is left (R626, DESIGN CHOICE 15). -/
def capLoss (l : List LossEntry) : List LossEntry :=
  match l.drop 65535 with
  | a :: b :: rest =>
    let end_ := (b :: rest).foldl (fun n e => max n (e.firstLba + e.blocks)) (a.firstLba + a.blocks)
    l.take 65535 ++ [{ a with blocks := min (2 ^ 32 - 1) (end_ - a.firstLba) }]
  | _ => l

/-- Runs of blocks listed together for one region and cause make one entry (R626). -/
def joinRuns (l : List LossEntry) : List LossEntry :=
  l.foldl (fun acc e => match acc.getLast? with
    | some p => if p.region = e.region && p.cause = e.cause && p.firstLba + p.blocks = e.firstLba then
        acc.dropLast ++ [{ p with blocks := p.blocks + e.blocks }] else acc ++ [e]
    | none => [e]) []

/-- Add entries to a volume's loss report (R626); `lost` also sets CACHE_LOST (R97). -/
def State.addLoss (s : State) (vol : Nat) (l : List LossEntry) (lost : Bool) : State :=
  match s.volumes.look vol with
  | none => s
  | some v =>
    if l.isEmpty then s
    else
      let l := joinRuns l
      let all := v.loss ++ l
      let tooMany := all.length > 65536
      let merged := s.mergeLoss v v.loss l
      let kept := if merged.length > 65536 then capLoss (s.mergeLoss v [] all) else merged
      let v' := { v with loss := if tooMany then kept else all, lossSeq := v.lossSeq + 1,
                         lossOverflow := v.lossOverflow || tooMany, cacheLost := v.cacheLost || lost }
      let s := ({ s with volumes := s.volumes.put vol v' }).raiseLoss v'
      let s := if v'.cacheLost ≠ v.cacheLost then s.noteVolume vol else s
      if lost && !v.cacheLost then s.alert .cacheLost else s

end Sys2Proof.Machine
end

