-- ==== Sys2Proof/Machine/Cache.lean ====
section
/-! DEFINITION. The areas of HBM and the cache directory: frames, hash chains, visibility, dirty amount, pins, and the energy a dirty limit
needs (R138 to R148, R163 to R166, R661). -/

namespace Sys2Proof.Machine

open Sys2Proof

/-! ### The frame pool (R138, R139, R666) -/

/-- Frames of the module (R138). -/
def frameTotal : Nat := 11796480

/-- Frames of one HBM channel. -/
def channelFrames : Nat := 368640

/-- The areas of HBM beside the cache frames, in R138's order. -/
inductive HbmArea where
  | regionTable | regionLists | parisonSpill | destageTable | working | directory | hashHeads
deriving DecidableEq, Repr

/-- An area's 4 KiB units, 256 to a MiB (R138). -/
def HbmArea.units : HbmArea → Nat
  | .regionTable => 1024 * 256
  | .regionLists => 64 * 256
  | .parisonSpill => 1024 * 256
  | .destageTable => 64 * 256
  | .working => 671 * 256
  | .directory => 180 * 256
  | .hashHeads => 45 * 256

/-- All of them, in that order. -/
def hbmAreas : List HbmArea := [.regionTable, .regionLists, .parisonSpill, .destageTable, .working, .directory, .hashHeads]

/-- The first unit of an area among those of all the areas, which lie one after the other as R138 lists them (DESIGN CHOICE 49). -/
def HbmArea.first (a : HbmArea) : Nat := ((hbmAreas.takeWhile (· ≠ a)).map HbmArea.units).sum

/-- The channel of unit k of an area: the units of all the areas are interleaved over the 32 channels, and those of a drained channel lie in
frames of others (R661, R665). -/
def State.unitChannel (s : State) (a : HbmArea) (k : Nat) : Nat :=
  let n := a.first + k
  match s.mgmt.shares.look (n % 32) with
  | some l => l.getD (n / 32) 0 % 32
  | none => n % 32

/-- The units of the other areas on one channel, its 96 MiB share (R661, R666). -/
def shareUnits : Nat := 24576

/-- Is an HBM channel in the pool: trained at start-up and neither drained nor mapped out (R481, R665, R666)? -/
def State.hbmUsable (s : State) (ch : Nat) : Bool :=
  s.life.hbmTrained.getLsbD ch && !s.mgmt.hbmOut.getLsbD ch && (s.island (66 + ch)).status = 0

/-- Frames that a short self-test drains of an HBM channel: 64 MiB (R668). -/
def rangeFrames : Nat := 16384

/-- Is a frame in the range that a short self-test has drained, the lowest of its channel (R668, DESIGN CHOICE 14)? -/
def State.inRange (s : State) (f : Nat) : Bool :=
  match s.mgmt.selfTest.range with
  | some (c, _) => f % 32 = c && f / 32 < rangeFrames
  | none => false

/-- Frames that hold units of a drained channel's share (R665). -/
def State.shareFrames (s : State) : List Nat := s.mgmt.shares.flatMap fun e => e.2

/-- Frames of the pool: each channel out of it takes its own frames, its share of the other areas the frames it has moved to (R665, R666), a
range under self-test its frames (R668). -/
def State.framePool (s : State) : Nat :=
  frameTotal - ((span 0 32).filter fun c => !s.hbmUsable c).length * channelFrames
    - (s.shareFrames.filter fun f => s.hbmUsable (f % 32)).length
    - (match s.mgmt.selfTest.range with | some (c, _) => if s.hbmUsable c then rangeFrames else 0 | none => 0)

/-- Frames in state FREE. -/
def State.freeFrames (s : State) : Nat :=
  s.framePool - (s.frames.filter fun e => s.hbmUsable (e.1 % 32) && !s.inRange e.1).length

/-- Frames in state GATHER. -/
def State.gatherFrames (s : State) : Nat := (s.frames.filter fun e => e.2.st = .gather).length

/-- Dirty frames: those in DIRTY or DESTAGING (R146). -/
def State.dirtyFrames (s : State) : Nat := (s.frames.filter fun e => e.2.st = .dirty || e.2.st = .destaging).length

/-- The dirty amount in bytes (R146). -/
def State.dirtyBytes (s : State) : Nat := 4096 * s.dirtyFrames

/-- Is a frame FREE and in the pool? -/
def State.isFree (s : State) (f : Nat) : Bool :=
  !s.frames.has f && s.hbmUsable (f % 32) && !s.inRange f && !s.mgmt.shares.any fun e => e.2.contains f

/-- A free frame of a usable channel but `not_`, searched from a start, with fuel. -/
def State.findFree (s : State) (not_ : Option Nat) : Nat → Nat → Option Nat
  | 0, _ => none
  | n + 1, i =>
    let f := i % frameTotal
    if s.isFree f && not_ ≠ some (f % 32) then some f else s.findFree not_ n (i + 1)

/-- Take a free frame, of a channel but `not_`: which one is among the orders no rule fixes. -/
def State.takeFrameBut (s : State) (not_ : Option Nat) (x : Frame) : Option (Nat × State) :=
  let room := s.freeFrames
  let (d, s) := s.pick frameTotal
  if room = 0 then none
  else match s.findFree not_ ((s.frames.length + s.shareFrames.length + rangeFrames + 1) * 32) d with
  | some f => some (f, { s with frames := s.frames.put f x })
  | none => none

/-- Take a free frame: which one is among the orders no rule fixes. -/
def State.takeFrame (s : State) (x : Frame) : Option (Nat × State) := s.takeFrameBut none x

/-- Up to n free frames from a start on, with fuel. -/
def State.freeFrom (s : State) : Nat → Nat → Nat → List Nat
  | 0, _, _ => []
  | fuel + 1, n, i =>
    if n = 0 then []
    else
      let f := i % frameTotal
      if s.isFree f then f :: s.freeFrom fuel (n - 1) (i + 1) else s.freeFrom fuel n (i + 1)

/-- Put new frames in the place of those of channel c: the list, and the new frames left. -/
def refill (c : Nat) : List Nat → List Nat → List Nat × List Nat
  | [], new => ([], new)
  | f :: l, new =>
    if f % 32 = c then
      let (l', r) := refill c l (new.drop 1)
      (new.headD f :: l', r)
    else
      let (l', r) := refill c l new
      (f :: l', r)

/-- Units of the shares of drained channels that lie in frames of channel c. -/
def State.sharesIn (s : State) (c : Nat) : Nat := (s.shareFrames.filter fun f => f % 32 = c).length

/-- Has all of channel c's share moved away, and every unit of another's that lay in its frames (R665 step 4)? -/
def State.shareGone (s : State) (c : Nat) : Bool := s.mgmt.shares.has c && s.sharesIn c = 0

/-- Step 2 of R665: free frames of other channels take channel c's share, once enough of them are FREE; which ones no rule says. -/
def State.moveShare (s : State) (c : Nat) : State :=
  let own := if s.mgmt.shares.has c then 0 else shareUnits
  let n := own + s.sharesIn c
  if s.shareGone c || s.freeFrames < n then s
  else
    let (d, s) := s.pick frameTotal
    let new := s.freeFrom ((s.frames.length + s.shareFrames.length + rangeFrames + n) * 32) n d
    let (l, _) := s.mgmt.shares.foldl (fun (a : Store (List Nat) × List Nat) e =>
      let (x, r) := refill c e.2 a.2
      (a.1.put e.1 x, r)) ([], new.drop own)
    { s with mgmt := { s.mgmt with shares := if own = 0 then l else l.put c (new.take own) } }

/-- Take frames for a list of contents: their numbers in order. -/
def State.takeFrames (s : State) (l : List Frame) : List Nat × State :=
  l.foldl (fun acc x =>
    match acc.2.takeFrame x with
    | some (f, s') => (acc.1 ++ [f], s')
    | none => acc) ([], s)

/-! ### Hash chains (R140, R141) -/

/-- The bucket of a block (R141); the bucket count is the frame count at start-up. -/
def State.bucket (s : State) (vol lba : Nat) : Nat := (crc32c (toLe 8 (vol * 2 ^ 40 + lba))).toNat % max 1 s.wp.buckets

/-- The frames of a chain from its head, with fuel. -/
def chainFrom (m : Store Frame) : Nat → Option Nat → List Nat
  | 0, _ => []
  | _, none => []
  | n + 1, some f => match m.look f with
    | some x => f :: chainFrom m n x.next
    | none => []

/-- The chain of a bucket. -/
def State.chain (s : State) (b : Nat) : List Nat := chainFrom s.frames s.frames.length (s.heads.look b)

/-- Write a chain back: head word and NEXT fields. -/
def State.setChain (s : State) (b : Nat) (l : List Nat) : State :=
  let m := (l.zip (l.drop 1 |>.map some |>.append [none])).foldl
    (fun m e => m.upd e.1 fun x => { x with next := e.2 }) s.frames
  { s with frames := m, heads := match l with | [] => s.heads.del b | f :: _ => s.heads.put b f }

/-- Link a frame at the head of its chain. -/
def State.chainIn (s : State) (f : Nat) : State :=
  match s.frames.look f with
  | none => s
  | some x => let b := s.bucket x.vol x.lba
    s.setChain b (f :: s.chain b)

/-- Free a frame, unlinking it. -/
def State.freeFrame (s : State) (f : Nat) : State :=
  match s.frames.look f with
  | none => s
  | some x =>
    let b := s.bucket x.vol x.lba
    let c := s.chain b
    let s := if c.contains f then s.setChain b (c.filter (· ≠ f)) else s
    { s with frames := s.frames.del f }

def State.freeAll (s : State) (l : List Nat) : State := s.over l fun s f => s.freeFrame f

/-- Is a frame visible (R142)? -/
def Frame.visible (x : Frame) : Bool := x.st = .clean || x.st = .dirty || x.st = .destaging

/-- The visible entry of a block (R142). -/
def State.visible (s : State) (vol lba : Nat) : Option (Nat × Frame) :=
  (s.chain (s.bucket vol lba)).findSome? fun f =>
    match s.frames.look f with
    | some x => if x.vol = vol && x.lba = lba && x.visible then some (f, x) else none
    | none => none

/-- Change a frame. -/
def State.updFrame (s : State) (f : Nat) (g : Frame → Frame) : State := { s with frames := s.frames.upd f g }

/-- A SUPERSEDED frame that no destage, pin or parison delta holds any longer becomes FREE (R145). -/
def State.settleFrame (s : State) (f : Nat) : State :=
  match s.frames.look f with
  | some x => if x.st = .superseded && x.pins = 0 && x.holds = 0 then s.freeFrame f else s
  | none => s

/-- The superseded action (R145): a CLEAN frame that no read and no tile job holds is freed, any other visible frame becomes
SUPERSEDED. The parison delta of an absorbed frame holds it; the caller queues the delta (R175). -/
def State.supersede (s : State) (f : Nat) : State :=
  match s.frames.look f with
  | none => s
  | some x =>
    if x.st = .clean && x.pins = 0 then s.freeFrame f
    else (s.updFrame f fun x => { x with st := .superseded }).settleFrame f

/-- Can each of these frames take one more pin (R140, R148)? -/
def State.canPin (s : State) (l : List Nat) : Bool :=
  l.all fun f => match s.frames.look f with | some x => x.pins < 31 | none => true

/-- Pin frames for a read or a tile job (R140). -/
def State.pinAll (s : State) (l : List Nat) : State := s.over l fun s f => s.updFrame f fun x => { x with pins := x.pins + 1 }

/-- Release pins (R140, R145). -/
def State.unpin (s : State) (l : List Nat) : State :=
  s.over l fun s f => (s.updFrame f fun x => { x with pins := x.pins - 1 }).settleFrame f

/-- Hold frames for a parison delta (R145, R175). -/
def State.holdAll (s : State) (l : List Nat) : State := s.over l fun s f => s.updFrame f fun x => { x with holds := x.holds + 1 }

/-- Release holds on frames. -/
def State.unhold (s : State) (l : List Nat) : State :=
  s.over l fun s f => (s.updFrame f fun x => { x with holds := x.holds - 1 }).settleFrame f

/-- Generation a is newer than b (R143). -/
def newerGen (a b : BitVec 32) : Bool := 1 ≤ (a - b).toNat && (a - b).toNat ≤ 2 ^ 31 - 1

/-- A generation found at a restart counts for the commit counter of its volume (R143). -/
def State.noteGen (s : State) (vol : Nat) (g : BitVec 32) : State :=
  { s with volumes := s.volumes.upd vol fun v =>
      { v with commitCtr := if !v.genFound || newerGen g v.commitCtr then g else v.commitCtr, genFound := true } }

/-- The same generation or a newer one. -/
def atLeastGen (a b : BitVec 32) : Bool := a = b || newerGen a b

/-- A fill completes (R145): CLEAN and linked where no entry is visible and the data is good, else FREE. It takes the
counter's current value as its generation (R143). -/
def State.fillDone (s : State) (f : Nat) (data : Option Block) : State :=
  match s.frames.look f, data with
  | some x, some b =>
    if x.st ≠ .filling then s
    else if (s.visible x.vol x.lba).isSome then s.freeFrame f
    else
      let g := match s.volumes.look x.vol with | some v => v.commitCtr | none => 0
      (s.updFrame f fun x => { x with st := .clean, data := b, gen := g }).chainIn f
  | some _, none => s.freeFrame f
  | none, _ => s

/-! ### Reclaim (R147) -/

/-- One visit of the sweep to a listed frame. -/
def State.sweepFrame (s : State) (f : Nat) : State :=
  match s.frames.look f with
  | none => s
  | some x =>
    if x.st ≠ .clean then s
    else if x.ref then s.updFrame f fun x => { x with ref := false }
    else if x.pins = 0 then s.freeFrame f else s

/-- The sweep from where it last stopped until 524,288 frames are FREE, over a list of frames (FREE frames pass unchanged),
and the position where it stops. -/
def State.sweepList (s : State) : List Nat → State
  | [] => s
  | f :: t =>
    if s.freeFrames ≥ 524288 then { s with wp := { s.wp with reclaim := false } }
    else State.sweepList { s.sweepFrame f with wp := { s.wp with sweep := (f + 1) % frameTotal } } t

/-! ### Energy of a dirty limit (R163 to R166) -/

/-- 360,000 × E_dump(L) in mJ, for L in bytes (R163): 60 W × (0.25 s + L ÷ 24 GB/s) ÷ 0.9. -/
def dumpEnergy (l : Nat) : Nat := 6000000000 + l

/-- E_dump of a limit in MiB, in mJ, rounded up. -/
def dumpMj (mib : Nat) : Nat := (dumpEnergy (mib * 2 ^ 20) + 359999) / 360000

/-- E_avail as the logic die takes it, in mJ (R165, R28). -/
def State.eAvail (s : State) : Nat := if s.link.valid then s.link.eAvailMj else 0

/-- The largest multiple of 256 MiB from `n` × 256 MiB down whose 1.25 × E_dump is within E_avail. -/
def reducedFrom (mj : Nat) : Nat → Nat
  | 0 => 0
  | n + 1 => if 5 * dumpEnergy ((n + 1) * 2 ^ 28) ≤ 4 * 360000 * mj then (n + 1) * 256 else reducedFrom mj n

/-- L_r in MiB (R166). -/
def State.reducedLimit (s : State) : Nat := reducedFrom s.eAvail (s.settings.lCfg / 256)

/-- Dirty amount in MiB, as events state it. -/
def State.dirtyMib (s : State) : Nat := s.dirtyBytes / 2 ^ 20

/-- The stripe a dirty frame belongs to, as (region, stripe). -/
def State.stripeOf (s : State) (vol lba : Nat) : Option (Nat × Nat) :=
  match s.volumes.look vol with
  | some v => if v.vault then none else let a := s.locate v lba; some (a.region, a.stripe)
  | none => none

/-- The stripes of a list of blocks of a volume, without repeats. -/
def State.stripesOfBlocks (s : State) (vol : Nat) (lbas : List Nat) : List (Nat × Nat) :=
  lbas.foldl (fun acc l => match s.stripeOf vol l with
    | some k => if acc.contains k then acc else acc ++ [k]
    | none => acc) []

/-- Is a stripe in an order of R181? -/
def Waves.has (w : Waves) (k : Nat × Nat) : Bool := List.any w fun g => g.contains k

/-- Stripes leave an order of R181. -/
def Waves.drop (w : Waves) (out : Nat × Nat → Bool) : Waves :=
  (List.map (fun g : List (Nat × Nat) => g.filter fun k => !out k) w).filter fun g => !g.isEmpty

/-- Stripes enter an order of R181 at one time; one that stands in it keeps its place. -/
def Waves.join (w : Waves) (l : List (Nat × Nat)) : Waves :=
  let new := l.eraseDups.filter fun k => !w.has k
  if new.isEmpty then w else List.append w [new]

/-- A stripe's place in an order of R181: stripes that entered at one time share it. -/
def Waves.place (w : Waves) (k : Nat × Nat) : Nat := (List.takeWhile (fun g : List (Nat × Nat) => !g.contains k) w).length

/-- Add stripes to the demanded destage set, in order of demand (R159, R160, R181). -/
def State.demand (s : State) (l : List (Nat × Nat)) : State :=
  { s with wp := { s.wp with demanded := s.wp.demanded.join l } }

end Sys2Proof.Machine
end

