-- ==== Sys2Proof/Machine/Fetch.lean ====
section
/-! DEFINITION. Host reads and their tags, fetching and acceptance of submission entries, the checks of R605, and the
movement of command data (R541 to R545, R576, R577, R589 to R597, R605, R606). -/

namespace Sys2Proof.Machine

open Sys2Proof

/-! ### Tags and pools (R541 to R544) -/

/-- Is the read one of the entry-fetch pool? -/
def ReadKind.isEntry : ReadKind → Bool
  | .entries .. => true
  | .shadow .. => true
  | .list .. => true
  | .data .. => false
  | .again .. => false

/-- The command whose data a read fetches. -/
def ReadKind.dataOf : ReadKind → Option Nat
  | .data acc _ _ => some acc
  | .again acc _ _ => some acc
  | _ => none

/-- Reads outstanding at most by the tag values of the link mode (R543). -/
def State.tagLimit (s : State) (e : Nat) : Nat :=
  let x := s.ep e
  if x.flit then x.tagBudget
  else if (s.fn ⟨e, 0⟩).tenBitTags then min x.tagBudget 768 else min x.tagBudget 256

/-- Limits of the entry-fetch and the data-fetch pool (R542, R543). -/
def State.poolLimits (s : State) (e : Nat) : Nat × Nat :=
  let x := s.ep e
  let l := s.tagLimit e
  if l = x.tagBudget then (x.entryTags, x.tagBudget - x.entryTags)
  else (max 32 (x.entryTags * l / x.tagBudget), (x.tagBudget - x.entryTags) * l / x.tagBudget)

/-- Room in the pool of a read (R542). -/
def State.poolRoom (s : State) (e : Nat) (entry : Bool) : Bool :=
  let n := ((s.ep e).reads.vals.filter fun r => r.kind.isEntry == entry).length
  n < (if entry then (s.poolLimits e).1 else (s.poolLimits e).2)

/-- First tag value and how many there are, by link mode (R543). -/
def State.tagRange (s : State) (e : Nat) : Nat × Nat :=
  if (s.ep e).flit then (0, 16384) else if (s.fn ⟨e, 0⟩).tenBitTags then (256, 768) else (0, 256)

/-- A tag value that is neither outstanding nor held, searched from a start, with fuel (R544). -/
def freeTag (x : Endpoint) (base count : Nat) : Nat → Nat → Option Nat
  | 0, _ => none
  | n + 1, t =>
    let v := base + t % count
    if x.reads.has v || x.held.has v then freeTag x base count n (t + 1) else some v

/-- Issue a host read where its pool has room, a tag value is free and the function may issue requests (R541 to R546).
Which free tag value is taken is one of the orders no rule fixes. -/
def State.issueRead (s : State) (f : FnId) (kind : ReadKind) (addr len : Nat) : Option State :=
  if !s.mayRequest f || !s.poolRoom f.ep kind.isEntry then none
  else
    let (base, count) := s.tagRange f.ep
    let (d, s) := s.pick count
    match freeTag (s.ep f.ep) base count ((s.ep f.ep).reads.length + (s.ep f.ep).held.length + 1) d with
    | none => none
    | some t =>
      let x := s.ep f.ep
      let write := (kind.dataOf.bind s.cmds.look).any fun c => c.sqe.opcode = 2
      let s := s.setEp f.ep { x with reads := x.reads.put t { fn := f, kind := kind, addr := addr, at_ := s.now, write := write } }
      some (s.emit (.hostRead f t addr len (s.fn f).relaxedOrdering))

/-- Issue a list of reads in order until one cannot be issued. -/
def State.issueAll (s : State) : List (FnId × ReadKind × Nat × Nat) → State
  | [] => s
  | (f, k, a, n) :: t =>
    match s.issueRead f k a n with
    | some s' => State.issueAll s' t
    | none => s

/-! ### Which ring kinds are fetched (R591, R465) -/

/-- Does STATE let the ring engine fetch from a ring of this kind? -/
def State.fetches (s : State) (admin : Bool) : Bool :=
  if !s.hostOn then false
  else match s.life.st with
    | .fenced => false
    | .stopping | .stopped => admin
    | _ => true

/-- The status that STATE gives a command of this ring kind, where it is not served (R591). -/
def stateStatus (st : DevState) (admin : Bool) : Option Status :=
  match st with
  | .booting | .restoring => some St.notReady
  | .standby => if admin then none else some St.notActive
  | .failed => some St.deviceFailed
  | _ => none

/-! ### Token buckets (R596, R597) -/

/-- A bucket filled up to now in whole µs steps; one without a limit is full. -/
def filled (burst : Nat) (limit dt : Nat) (tokens : Int) : Int := if limit = 0 then burst else min burst (tokens + limit * dt)

/-- A function's buckets filled up to now: command tokens in millionths, byte tokens in bytes. -/
def Fn.refill (x : Fn) (now : Nat) : Fn :=
  let dt := now - x.tokensAt
  { x with
    cmdTokens := filled (x.iopsBurst * 1000000) x.iopsLimit dt x.cmdTokens,
    byteTokens := filled (x.bwBurst * 1024) x.bwLimit dt x.byteTokens,
    tokensAt := now }

/-- Tokens taken at acceptance from an I/O ring (R597). -/
def State.takeTokens (s : State) (f : FnId) (e : Sqe) : State :=
  let x := (s.fn f).refill s.now
  let bytes := if (e.opcode = 1 || e.opcode = 2) && 1 ≤ e.nblocks && e.nblocks ≤ 4096 then e.nblocks * 4096 else 0
  s.setFn f { x with cmdTokens := x.cmdTokens - 1000000, byteTokens := x.byteTokens - bytes }

/-! ### The feature table (R618) -/

/-- Do the values of a SET_FEATURE lie in range? -/
def featureValuesOk (id : Nat) (v : List Nat) : Bool :=
  let a := v.getD 0 0
  let b := v.getD 1 0
  let c := v.getD 2 0
  let d := v.getD 3 0
  match id with
  | 0x01 => a ≤ 2
  | 0x02 => 10 ≤ a && a ≤ 60000
  | 0x03 => true
  | 0x04 => 4096 ≤ a && a ≤ 32768 && a % 256 = 0
  | 0x05 => a ≤ 2 && (a ≠ 1 || (500 ≤ b && b ≤ 50000))
  | 0x06 => 1 ≤ a && a ≤ 60
  | 0x07 => 4 ≤ a && a ≤ 1024
  | 0x08 => a ≤ 90
  | 0x09 => 24 ≤ a && a ≤ 336
  | 0x0A => 8 ≤ a && a ≤ 64
  | 0x0B => 256 ≤ a && a ≤ 4096 && a % 256 = 0 && 64 ≤ b && b ≤ 1024 && b % 64 = 0 && b < a
  | 0x0C => true
  | 0x0D => a ≤ 3
  | 0x0E => (a = 0 || (1000 ≤ a && a ≤ 50000000)) && 1 ≤ b && b ≤ 65535 && (c = 0 || (1 ≤ c && c ≤ 128000))
      && 4 ≤ d && d ≤ 1048576
  | 0x0F => 10 ≤ a && a ≤ 60000
  | 0x10 => 1 ≤ a && a ≤ 60
  | 0x11 => a ≤ 1
  | _ => false

/-- Does OBJECT name an existing object of the feature's scope? -/
def State.featureObjectOk (s : State) (id obj : Nat) : Bool :=
  if id = 1 || id = 2 || id = 3 then s.volumes.has obj
  else if 5 ≤ id && id ≤ 8 then s.pools.has obj
  else if id = 0x0B then s.endpoints.contains obj
  else if id = 0x0D || id = 0x0E then obj ≤ 255
  else true

/-- Is the feature of device scope? -/
def deviceFeature (id : Nat) : Bool := [0x04, 0x09, 0x0A, 0x0C, 0x0F, 0x10, 0x11].contains id

/-! ### The checks of R605 -/

/-- Check 4: may the function issue the opcode, and does the object belong to it (R613, R618 to R620)? -/
def State.permitted (s : State) (f : FnId) (e : Sqe) : Bool :=
  if f.num = 0 then
    if e.opcode = 0x83 && e.pfield 0 0 8 = 0x0B then e.param 1 = f.ep || !s.endpoints.contains (e.param 1) else true
  else if isIoOpcode e.opcode || [0x81, 0x85, 0xA8, 0xA9, 0xAA].contains e.opcode then true
  else if e.opcode = 0x80 then e.pfield 0 0 8 = 1
  else if e.opcode = 0x82 then
    (e.pfield 0 0 8 = 2 || e.pfield 0 0 8 = 7)
      && (match s.volumes.look (e.param 1) with | some v => v.attached = some f | none => false)
  else if e.opcode = 0x84 then (e.pfield 0 0 8 = 0x0D || e.pfield 0 0 8 = 0x0E) && e.param 1 = f.num
  else false

/-- Check 5: is the opcode served in STATE (R613)? -/
def servedIn (st : DevState) (e : Sqe) : Bool :=
  let r := st = .ready || st = .stopping
  if isIoOpcode e.opcode then true
  else if e.opcode = 0x83 then r || st = .stopped || (st = .standby && deviceFeature (e.pfield 0 0 8))
  else if e.opcode = 0x99 || e.opcode = 0xA2 then st = .stopped
  else if [0x80, 0x81, 0x82, 0x84, 0x85, 0xA0, 0xA1, 0xA8, 0xA9, 0xAA, 0xB0, 0xB1, 0xB2, 0xB8, 0xB9, 0xC2].contains e.opcode
  then r || st = .stopped || st = .standby
  else r || st = .stopped

/-- Does the opcode carry data (R606, R608, R613)? -/
def carriesData (op : Nat) : Bool := [0x01, 0x02, 0x80, 0x82, 0x84, 0x88, 0x9A, 0xA1, 0xA8, 0xAA].contains op

/-- Is the data read from the host? -/
def fromHost (op : Nat) : Bool := [0x02, 0x88, 0x9A, 0xA1].contains op

/-- The port bitmap of PARAM2 and PARAM3 (R615). -/
def Sqe.ports (e : Sqe) : Mask := BitVec.ofNat 64 (e.param 2 + e.param 3 * 2 ^ 32)

/-- Check 6 for the opcode's own fields (R615, R618, R620, R632, R637); reserved fields aside. -/
def State.fieldsOk (s : State) (f : FnId) (e : Sqe) : Bool :=
  match e.opcode with
  | 0x80 => e.pfield 0 0 8 ≤ 2
  | 0x81 =>
    let idx := e.pfield 0 0 12
    let depth := e.pfield 3 0 17
    let base := e.param 1 + e.param 2 * 2 ^ 32
    1 ≤ idx && idx < maxRings f && 2 ≤ depth && depth ≤ 65536 && base % 4096 = 0
      && (if e.pbit 0 12 then e.pfield 4 0 11 < vectorsOf f && e.pfield 5 0 10 ≤ 1000
          else e.pfield 4 16 8 ≤ 128 && (e.pfield 5 0 16 = 0 || e.w08 % 8 = 0) && 1 ≤ e.pfield 4 0 12
            && (match s.cqs.look (ringKey f (e.pfield 4 0 12)) with | some c => c.st = .active | none => false))
  | 0x82 =>
    let id := e.pfield 0 0 8
    let obj := e.param 1
    e.param 2 % 4 = 0 && 1 ≤ id && id ≤ 12
      && (if id = 2 || id = 7 then s.volumes.has obj else if id = 3 then s.pools.has obj
          else if id = 4 then s.members.has obj else if id = 5 then obj < 64 else if id = 6 then obj < 16777216
          else obj = 0)
  | 0x83 => s.featureObjectOk (e.pfield 0 0 8) (e.param 1)
      && featureValuesOk (e.pfield 0 0 8) [e.param 2, e.param 3, e.param 4, e.param 5]
  | 0x84 => 1 ≤ e.pfield 0 0 8 && e.pfield 0 0 8 ≤ 0x11 && s.featureObjectOk (e.pfield 0 0 8) (e.param 1)
  | 0x89 => e.pbit 0 16 || (e.pfield 0 4 3 ≤ 4 && e.pfield 0 8 3 ≤ 4 && 2 ≤ (bitsOf e.ports).length)
  | 0x8B => 1 ≤ e.param 2 + e.pfield 3 0 8 * 2 ^ 32
      && (if e.pbit 0 12 then e.pfield 0 13 2 = 0 && e.pfield 1 0 12 = 0 else e.pfield 0 13 2 ≤ 2)
  | 0x8D => s.endpoints.contains (e.pfield 1 8 1)
  | 0x92 =>
    if e.pfield 0 0 2 ≤ 1 then true
    else
      (s.region (e.pfield 1 0 24)).st ≠ .free && e.pfield 1 0 24 < offered s.arrayDrives.length
  | 0x93 => e.pbit 0 1 || (1 ≤ e.param 2 && e.param 2 ≤ 16777216)
  | 0xA0 => 1 ≤ e.pfield 0 0 2
  | 0xA1 => e.param 0 % 4096 = 0 && (e.dptrMode ≠ 1 || e.param 0 + e.dptrLen ≤ 64 * 2 ^ 20)
  | 0xAA => e.pfield 0 0 8 ≤ 63 || e.pfield 0 0 8 = 0xFF
  | 0xB9 => e.pfield 0 0 2 ≤ 2
  | 0xC1 => e.pfield 0 8 3 ≤ 5
  | _ => true

/-- Does DPTR_MODE suit the opcode (R573, R577, R606)? -/
def dptrOk (e : Sqe) : Bool :=
  if carriesData e.opcode then
    e.dptrMode = 1 || (e.dptrMode = 2 && 1 ≤ e.dptrLen && e.dptrLen ≤ 4096 && e.dptrAddr % 16 = 0)
  else e.dptrMode = 0

/-- Check 8: is a total data length what the opcode requires (R577, R613, R615)? A CONFIG_STAGE body length is checked
again once its header has arrived. -/
def lengthOk (e : Sqe) (n : Nat) : Bool :=
  match e.opcode with
  | 0x01 | 0x02 => n = e.nblocks * 4096
  | 0x80 => n = 4096
  | 0x82 => 4 ≤ n && n ≤ 1048576 && n % 4 = 0
  | 0x84 => n = 16
  | 0x88 => n = 16
  | 0x9A => 8 ≤ n
  | 0xA1 => 4096 ≤ n && n ≤ 1048576 && n % 4096 = 0
  | 0xA8 => 32 ≤ n && n ≤ 2097152 && n % 32 = 0
  | 0xAA => n = (if e.pfield 0 0 8 = 0xFF then 2048 else 128)
  | _ => true

/-- Checks 1 to 7 of R605, in order: the status of the first that fails. -/
def State.checksBefore (s : State) (f : FnId) (admin : Bool) (e : Sqe) : Option Status :=
  match stateStatus s.life.st admin with
  | some st => some st
  | none =>
    if !isIoOpcode e.opcode && !adminOpcodes.contains e.opcode then some St.invalidOpcode
    else if isIoOpcode e.opcode == admin then some St.wrongRing
    else if !s.permitted f e then some St.accessDenied
    else if !servedIn s.life.st e then some St.invalidState
    else if !dptrOk e || (isIoOpcode e.opcode && e.nblocks = 0) || !s.fieldsOk f e then some St.invalidField
    else if isIoOpcode e.opcode && e.nblocks > 4096 then some St.transferTooLong
    else none

/-- Checks 8 to 11 of R605 for a total data length: the status of the first that fails. A VOLUME_DETACH accepted earlier
counts as done for check 9 (R625). -/
def State.checksAfter (s : State) (f : FnId) (acc : Nat) (e : Sqe) (n : Nat) : Option Status :=
  if carriesData e.opcode && !lengthOk e n then some St.lengthMismatch
  else if isIoOpcode e.opcode then
    match s.volumes.look e.vol with
    | none => some St.volumeNotAttached
    | some v =>
      if v.attached ≠ some f
          || s.cmds.any (fun c => c.1 < acc && c.2.sqe.opcode = 0x8E && c.2.sqe.pfield 0 0 12 = e.vol)
      then some St.volumeNotAttached
      else if e.lba + e.nblocks > v.capacity then some St.lbaOutOfRange
      else if s.volState v = .offline then some St.volumeOffline
      else none
  else none

/-! ### Command data -/

/-- Total bytes of a command's data, once its buffers are known. -/
def Cmd.total (c : Cmd) : Nat := ((c.buffers.getD []).map (·.2)).sum

/-- Has every byte of host data arrived? -/
def Cmd.dataDone (c : Cmd) : Bool := c.buffers.isSome && c.good ≥ c.total

/-- The host data of a command, in byte order. -/
def Cmd.bytes (c : Cmd) : List Byte := c.data.flatMap (·.2)

/-- Is a command held back by FENCE (R189)? -/
def State.fenceHolds (s : State) (c : Cmd) : Bool :=
  c.sqe.fence && s.cmds.any fun e => e.1 < c.acc && e.2.fn = c.fn && !e.2.silent

/-- Does a command set a feature of device scope? -/
def Sqe.setsDevice (e : Sqe) : Bool := e.opcode = 0x83 && deviceFeature (e.pfield 0 0 8)

/-- Is a command held back by the order of acceptance: the device-wide group runs one at a time, VOLUME_CREATE and VOLUME_DELETE start
in acceptance order (R614), and features of device scope are set in it (R618)? -/
def State.groupHolds (s : State) (c : Cmd) : Bool :=
  let vol (op : Nat) : Bool := op = 0x8B || op = 0x8C
  s.cmds.any fun e => e.1 < c.acc &&
    ((deviceGroup.contains c.sqe.opcode && deviceGroup.contains e.2.sqe.opcode)
      || (vol c.sqe.opcode && vol e.2.sqe.opcode && (e.2.phase = .accepted || e.2.sqe.opcode = 0x8C))
      || (c.sqe.setsDevice && e.2.sqe.setsDevice))

/-- Should the command fetch data from the host now? A WRITE once it has its gather frames (or is a vault WRITE that
has started), an admin command from its acceptance on. -/
def Cmd.wantsData (c : Cmd) : Bool :=
  fromHost c.sqe.opcode && c.buffers.isSome && (c.asked < c.total || !c.again.isEmpty)
    && (if c.sqe.opcode = 2 then c.phase = .gathering else c.phase = .accepted)

/-- Does a command wait for its segment list, or for data that nothing holds back (R189, R577, R614)? -/
def State.wantsRead (s : State) (c : Cmd) : Bool :=
  !c.listAsk.isEmpty || (c.wantsData && !(c.phase = .accepted && (s.fenceHolds c || s.groupHolds c)))

/-- Issue the list reads or data reads of one command while there is room, with fuel (R541, R544, R545, R577). -/
def State.pumpCmd : Nat → State → Nat → State
  | 0, s, _ => s
  | n + 1, s, acc =>
    match s.cmds.look acc with
    | none => s
    | some c =>
      if !s.wantsRead c then s
      else match c.listAsk with
      | (off, len) :: rest =>
        match s.issueRead c.fn (.list acc off len) (c.sqe.dptrAddr + off) len with
        | none => s
        | some s' => State.pumpCmd n (s'.updCmd acc fun c => { c with listAsk := rest }) acc
      | [] =>
        let (off, len) := c.again.head?.getD (c.asked, c.total - c.asked)
        match sliceBuffers (c.buffers.getD []) off len with
        | [] => s
        | (a, l) :: _ =>
          let k := max 1 (pieceLen a l (s.fn c.fn).maxReadRequest)
          match s.issueRead c.fn (if c.again.isEmpty then .data acc off k else .again acc off k) a k with
          | none => s
          | some s' => State.pumpCmd n (s'.updCmd acc fun c =>
              if c.again.isEmpty then { c with asked := c.asked + k }
              else { c with again := (if k < len then [(off + k, len - k)] else []) ++ c.again.tail }) acc

/-- Issue what reads the pools allow, commands in acceptance order. -/
def State.pump (s : State) : State :=
  s.over (s.cmds.keep fun _ c => s.wantsRead c).keys fun s acc =>
    State.pumpCmd (match s.cmds.look acc with
      | some c => c.listAsk.length + (c.total - c.asked) + (c.again.map (·.2)).sum
      | none => 0) s acc

/-- Write bytes to the buffers of a command in pieces that keep R545 (R541, R546). -/
def State.hostWrite (s : State) (f : FnId) (buffers : List (Nat × Nat)) (data : List Byte) : State :=
  let x := s.fn f
  let pieces := (buffers.foldl (fun (acc : Nat × List (Nat × Nat × Nat)) b =>
    (acc.1 + b.2, acc.2 ++ cutPieces b.2 b.1 acc.1 b.2 x.maxPayload)) (0, [])).2
  s.over pieces fun s p => s.emit (.hostData f p.1 (bytesAt data p.2.1 p.2.2) x.relaxedOrdering)

/-- The segment list has arrived: its descriptors are checked, then checks 8 to 11 (R577, R605). -/
def State.afterList (s : State) (acc : Nat) : State :=
  match s.cmds.look acc with
  | none => s
  | some c =>
    let segs := segmentsOf c.sqe.dptrLen (c.listBytes.flatMap (·.2))
    if segs.any fun g => g.2 = 0 || g.2 > 16777216 then s.finish acc St.invalidField
    else
      let n := (segs.map (·.2)).sum
      if c.sqe.opcode = 0xA1 && c.sqe.param 0 + n > 64 * 2 ^ 20 then s.finish acc St.invalidField
      else match s.checksAfter c.fn acc c.sqe n with
        | some st => s.finish acc st
        | none => s.updCmd acc fun c => { c with buffers := some segs }

/-- The segment list of a mode-2 command is to be read, in pieces that keep R545; those that find no room wait for it (R542, R544,
R577). -/
def State.askList (s : State) (acc : Nat) (c : Cmd) : State :=
  let len := c.sqe.dptrLen * 16
  let l := (cutPieces (len + 1) c.sqe.dptrAddr 0 len (s.fn c.fn).maxReadRequest).map (·.2)
  State.pumpCmd l.length (s.updCmd acc fun c => { c with listAsk := l }) acc

/-- A FLUSH covers the dirty blocks its volume holds at its acceptance, and their stripes are demanded (R160). -/
def State.coverFlush (s : State) (acc : Nat) (e : Sqe) : State :=
  let l := (s.frames.filter fun f => f.2.vol = e.vol && (f.2.st = .dirty || f.2.st = .destaging)).map
    fun f => (f.2.lba, f.2.gen)
  (s.updCmd acc fun c => { c with cover := l }).demand (s.stripesOfBlocks e.vol (l.map (·.1)))

/-- A command is accepted: it takes its acceptance number and its tokens, and checks 1 to 11 decide (R186, R597, R605).
The fetch pointer has advanced. -/
def State.acceptEntry (s : State) (key : Nat) (q : Sq) (bytes : List Byte) : State :=
  let e := parseSqe bytes
  let acc := s.nextAcc
  let admin := q.cls = 4
  let mode := match s.volumes.look e.vol with | some v => v.ackMode | none => .pwb
  let c : Cmd := { acc := acc, fn := q.fn, sq := key, sqe := e, at_ := s.now, rule := mode }
  let s := { s with nextAcc := acc + 1, cmds := s.cmds.put acc c }
  let s := if admin then s else s.takeTokens q.fn e
  match s.checksBefore q.fn admin e with
  | some st => s.finish acc st
  | none =>
    if carriesData e.opcode && e.dptrMode = 2 then s.askList acc c
    else
      match s.checksAfter q.fn acc e e.dptrLen with
      | some st => s.finish acc st
      | none =>
        let s := if e.opcode = 3 then s.coverFlush acc e else s
        s.updCmd acc fun c => { c with buffers := if carriesData e.opcode then some [(e.dptrAddr, e.dptrLen)] else some [] }

/-- Accept, in ring order, the entries that have arrived, with fuel (R589). -/
def State.acceptLoop : Nat → State → Nat → State
  | 0, s, _ => s
  | n + 1, s, key =>
    match s.sqs.look key with
    | none => s
    | some q =>
      if q.st ≠ .active then s
      else match q.arrived.look q.fetch with
        | none => s
        | some b =>
          let next := (q.fetch + 1) % q.depth
          let q' := { q with fetch := next, arrived := q.arrived.del q.fetch,
                             tailMmio := stillLive q.depth q.fetch 1 q.tailMmio,
                             tailShadow := stillLive q.depth q.fetch 1 q.tailShadow,
                             pastMmio := pastAfter q.depth q.pastMmio q.tailMmio,
                             pastShadow := pastAfter q.depth q.pastShadow q.tailShadow }
          let s := { s with sqs := s.sqs.put key q' }
          State.acceptLoop n (s.acceptEntry key q' b) key

/-- The indices of a ring from `i` up to the tail, with fuel. -/
def ringSpan (depth tail : Nat) : Nat → Nat → List Nat
  | 0, _ => []
  | n + 1, i => if i = tail then [] else i :: ringSpan depth tail n ((i + 1) % depth)

/-- Cut a run of consecutive indices into reads of at most `most` entries that cross neither the ring's end nor a 4 KiB
boundary (R545, R589): (first, count). -/
def entryReads (most : Nat) (l : List Nat) : List (Nat × Nat) :=
  (l.foldl (fun (acc : List (Nat × Nat)) i =>
    match acc with
    | (a, n) :: t => if a + n = i && n < most && i % 64 ≠ 0 then (a, n + 1) :: t else (i, 1) :: acc
    | [] => [(i, 1)]) []).reverse

/-- The indices of a ring's entries that are being fetched. -/
def State.fetching (s : State) (key : Nat) (q : Sq) : List Nat :=
  (s.ep q.fn.ep).reads.vals.flatMap fun r => match r.kind with
    | .entries k first n => if k = key && !r.orphan then (span first n).map (· % q.depth) else []
    | _ => []

/-- The entries up to the tail in force that a grant may fetch: neither arrived nor being fetched (R589). -/
def State.toFetch (s : State) (key : Nat) (q : Sq) : List Nat :=
  let busy := s.fetching key q
  (ringSpan q.depth q.tail q.depth q.fetch).filter fun i => !q.arrived.has i && !busy.contains i

/-- Entries of a function's I/O rings that are being fetched, or have arrived and wait for an earlier one. -/
def State.comingEntries (s : State) (f : FnId) : Nat :=
  ((s.sqs.filter fun e => e.2.fn = f && e.2.cls ≠ 4).map fun e => (s.fetching e.1 e.2).length + e.2.arrived.length).sum

/-- Do a function's buckets allow a grant to one of its I/O rings: does each hold more than zero beyond what the entries on their way may
still take, so that it falls below zero by one grant's worth at most (R593, R597, DEDUCED 12)? -/
def State.tokensFor (s : State) (f : FnId) : Bool :=
  let x := (s.fn f).refill s.now
  let n : Int := s.comingEntries f
  (x.iopsLimit = 0 || x.cmdTokens > n * 1000000) && (x.bwLimit = 0 || x.byteTokens > n * 16777216)

/-- Is the ring eligible for a grant (R593)? -/
def State.eligible (s : State) (_key : Nat) (q : Sq) : Bool :=
  q.st = .active && s.fetches (q.cls = 4) && q.tail ≠ q.fetch
    && (match s.cqs.look (ringKey q.fn q.cq) with | some c => !s.isBacked c | none => false)
    && s.mayRequest q.fn && s.poolRoom q.fn.ep true && (q.cls = 4 || s.tokensFor q.fn)

/-- The next eligible ring of a class in round-robin order after the one last granted (R594). -/
def State.nextOfClass (s : State) (cls : Nat) : Option Nat :=
  let keys := (s.sqs.filter fun e => e.2.cls = cls && s.eligible e.1 e.2).map (·.1)
  match s.mgmt.lastGrant.look cls with
  | none => keys.head?
  | some last => match keys.find? (last < ·) with
    | some k => some k
    | none => keys.head?

/-- The weight of a weighted class (R595). -/
def State.weight (s : State) (cls : Nat) : Nat :=
  if cls = 1 then s.settings.high else if cls = 2 then s.settings.medium else s.settings.low

/-- The ring that a grant slot serves, with the credits after it (R594). Classes: 4 ADMIN, 0 URGENT, 1 HIGH, 2 MEDIUM,
3 LOW. -/
def State.choose (s : State) : Option (Nat × Nat × List Nat) :=
  let cr := s.mgmt.credits
  match s.nextOfClass 4 with
  | some k => some (4, k, cr)
  | none => match s.nextOfClass 0 with
    | some k => some (0, k, cr)
    | none =>
      let live := [1, 2, 3].filter fun c => (s.nextOfClass c).isSome
      let heavy := live.filter fun c => s.weight c > 0
      match live, heavy with
      | [], _ => none
      | c :: _, [] => (s.nextOfClass c).map fun k => (c, k, cr)
      | _, _ =>
        let cr := if heavy.all fun c => cr.getD (c - 1) 0 = 0 then [s.weight 1, s.weight 2, s.weight 3] else cr
        match heavy.find? fun c => cr.getD (c - 1) 0 > 0 with
        | none => none
        | some c => (s.nextOfClass c).map fun k => (c, k, cr.set (c - 1) (cr.getD (c - 1) 0 - 1))

/-- Fetch up to a burst of entries of a ring, never past the tail in force (R589). -/
def State.fetchBurst (s : State) (key : Nat) (q : Sq) : State :=
  let burst := if q.cls = 4 then 1 else q.burst
  let want := (s.toFetch key q).take burst
  let most := min 8 ((s.fn q.fn).maxReadRequest / 64)
  s.issueAll ((entryReads most want).map fun r =>
    (q.fn, ReadKind.entries key r.1 r.2, q.base + 64 * r.1, 64 * r.2))

end Sys2Proof.Machine
end

