-- ==== Sys2Proof/Machine/Layout.lean ====
section
/-! DEFINITION. How the structures that outlive HBM are laid out as bytes, little-endian (R12, R13): the destage entry, journal
records, map-log records, the region-table entry, drive labels, the change log, the activity bitmap, the gauge store, and the dump
with its seal (R78, R79, R140, R197, R212, R213, R405, R406, R455, R471 to R475, R498, R503, R507). -/

namespace Sys2Proof.Machine

open Sys2Proof

/-- A segment in full: 4,096 bytes, zeros after what is given. -/
def fullSeg (b : List Byte) : List Byte := bytesAt b 0 4096

/-- Cut bytes into segments, with fuel. -/
def segmentsFrom : Nat → List Byte → List Block
  | 0, _ => []
  | n + 1, b => if b.isEmpty then [] else trim (b.take 4096) :: segmentsFrom n (b.drop 4096)

/-- Bytes as whole segments. -/
def toSegments (b : List Byte) : List Block := segmentsFrom (b.length / 4096 + 1) b

/-- CRC-32C over whole segments (R475). -/
def segmentsCrc (l : List Block) : Nat := (crc32c (l.flatMap fullSeg)).toNat

/-- Bytes with a checksum written over an offset, computed with that field as zero or, at the end, over what stands before it. -/
def withCrc (b : List Byte) (off : Nat) : List Byte := overlay b off (toLe 4 (crc32c b).toNat)

/-! ### The region table and the drives' metadata area (R58, R62, R78, R79, R498, R500, R503, R507) -/

/-- A relocation slot's 8 bytes (R79). -/
def relocBytes (x : Reloc) : List Byte :=
  toLe 8 (x.pos + x.port * 2 ^ 6 + x.row * 2 ^ 12 + 2 ^ 37 + b2n x.complete * 2 ^ 38)

/-- A region-table entry's 64 bytes (R78). -/
def regionBytes (e : Region) : List Byte :=
  toLe 8 e.bitmap.toNat ++ toLe 4 e.row ++ toLe 4 e.gen.toNat ++ toLe 2 e.perm.toNat ++ toLe 2 e.watermark ++ toLe 1 e.template
    ++ toLe 1 (e.chunkCode + e.st.code * 8) ++ toLe 1 e.pool
    ++ toLe 1 (e.relocs.length + b2n e.crit * 8 + b2n e.replacePending * 16 + b2n e.checkPending * 32)
    ++ bytesAt (e.relocs.flatMap relocBytes) 0 40

/-- A template's 16-byte descriptor (R58). -/
def templateBytes (id : Nat) (m : Template) : List Byte :=
  toLe 1 id ++ toLe 1 (m.tiers.length + m.stripCode * 8)
    ++ ((m.tiers ++ List.replicate (4 - m.tiers.length) (0, 0)).take 4).flatMap (fun (t : Nat × Nat) => toLe 1 t.1 ++ toLe 1 t.2)
    ++ List.replicate 6 0

/-- A volume's region list: one 4-byte word per region (R62, R500). -/
def regionList (v : Volume) : List Byte := v.vmap.flatMap (toLe 4)

/-- The rule a commit's completion follows, from the mode at acceptance, and whether JWT_ACK is set (R156, R157, R159,
R169). -/
def State.ackRule (s : State) (mode : AckMode) (fua : Bool) : AckMode × Bool :=
  if fua then (.stw, false)
  else match mode with
    | .stw => (.stw, false)
    | .jwt => (.jwt, false)
    | .pwb =>
      if s.wp.perm = .journaled || (s.wp.perm = .reduced && s.dirtyBytes > s.wp.lEff * 2 ^ 20) then (.jwt, true)
      else (.pwb, false)

/-- The rule a commit would take now (R169, R621): 3 for a vault volume. -/
def State.effMode (s : State) (v : Volume) : Nat := if v.vault then 3 else (s.ackRule v.ackMode false).1.code

/-- The hedge threshold of a pool (R244): where the mode is off, the automatic one stands. -/
def Pool.threshold (x : Pool) : Nat := if x.hedgeMode = 1 then x.hedgeFixed else x.hedgeAuto

/-- The head of page 0x02 up to its embedded block (R621). -/
def State.volumeHead (s : State) (id : Nat) (v : Volume) : List (Nat × Nat × Nat) :=
  let fn := match v.attached with | some f => f.num % 256 + f.ep * 256 + 0x8000 | none => 0
  [(0, 2, id), (2, 1, (s.volState v).code + b2n v.vault * 8 + b2n v.init * 16), (3, 1, v.ackMode.code + s.effMode v * 4),
   (4, 1, v.template), (5, 1, v.pool), (6, 2, fn), (8, 8, v.capacity), (0x10, 4, v.vmap.length), (0x14, 4, v.ageLimit),
   (0x18, 8, (s.frames.filter fun e => e.2.vol = id && (e.2.st = .dirty || e.2.st = .destaging)).length),
   (0x20, 4, v.lossSeq.toNat)]

/-- The head of page 0x03 up to its embedded block (R621). -/
def State.poolHead (s : State) (id : Nat) (x : Pool) : List (Nat × Nat × Nat) :=
  [(0, 1, id + x.chunkCode * 16), (1, 1, x.spare), (2, 2, (s.poolMembers id).length), (4, 4, x.seed.toNat), (8, 4, x.rows),
   (0xC, 1, x.hedgeMode), (0x10, 4, x.threshold), (0x14, 1, x.hardTimeout), (0x16, 2, x.mediaThreshold), (0x18, 1, x.scrubDays)]

/-- The head of page 0x04 up to its embedded block (R621). -/
def memberHead (m : Member) : List (Nat × Nat × Nat) :=
  [(0, 1, m.st.code + m.pool * 16), (8, 8, m.capacity), (0x10, 2, m.lbaSize)]

/-- The 64 bytes of a member (KIND 1), pool (2) or volume (3) descriptor: the forms that Command Set gives are the heads of their log pages,
64 bytes for a pool and a member (R500, R503, R621; DEDUCED 47). One that is gone has none but zeros (DESIGN CHOICE 47). -/
def State.descriptor (s : State) (kind index : Nat) : List Byte :=
  pageOf 64 (match kind with
    | 1 => match s.members.look index with | some m => memberHead m | none => []
    | 2 => match s.pools.look index with | some x => s.poolHead index x | none => []
    | _ => match s.volumes.look index with | some v => s.volumeHead index v | none => [])

/-- A configuration copy: CONFIG_SEQ, how many of each there are, the templates, the pool, member and volume descriptors with their numbers, the
region lists of the array volumes, and the CRC-32C over it all (R58, R62, R500; the order is DESIGN CHOICE 47). -/
def State.configBytes (s : State) : List Byte :=
  let lists : Store Volume := s.volumes.keep fun _ v => !v.vault
  let numbered (kind : Nat) (l : List Nat) : List Byte := l.flatMap fun k => toLe 4 k ++ s.descriptor kind k
  let body := toLe 8 s.pair.configSeq ++ toLe 4 s.templates.length ++ toLe 4 s.pools.length ++ toLe 4 s.members.length
    ++ toLe 4 lists.length ++ s.templates.flatMap (fun e => templateBytes e.1 e.2) ++ numbered 2 s.pools.keys ++ numbered 1 s.members.keys
    ++ numbered 3 lists.keys ++ lists.flatMap fun e => regionList e.2
  body ++ toLe 4 (crc32c body).toNat

/-- A drive label's 4 KiB (R498): its log ports are those assigned, in order. -/
def labelBytes (l : LabelImage) (port pool : Nat) (member : Bool) (logs : List Nat) : List Byte :=
  let head := pageOf 4092 [(0, 4, 0x4C444C49), (4, 2, 1), (6, 1, port), (7, 1, pool + 16 * b2n member), (8, 8, l.arrayId.toNat),
    (0x10, 8, l.labelSeq), (0x18, 32, l.ownerId.toNat), (0x38, 32, l.partnerId.toNat),
    (0x58, 1, match logs[0]? with | some p => p + 128 | none => 0), (0x59, 1, match logs[1]? with | some p => p + 128 | none => 0),
    (0x5A, 1, match logs[2]? with | some p => p + 128 | none => 0), (0x5B, 1, b2n l.takeover), (0x5C, 4, l.configSeq),
    (0x60, 8, l.importedDumpSeq)]
  head ++ toLe 4 (crc32c head).toNat

/-- A change-log segment of at most 56 items: (KIND, INDEX, image) each (R503). -/
def changeSegment (seq : Nat) (items : List (Nat × Nat × List Byte)) : List Byte :=
  let head := pageOf 64 [(0, 4, 0x474C4349), (4, 2, items.length), (8, 8, seq)]
  let body := items.flatMap fun e => toLe 4 (e.2.1 + e.1 * 2 ^ 24) ++ toLe 4 0 ++ bytesAt e.2.2 0 64
  withCrc (fullSeg (head ++ body)) 0x10

/-- A 4 KiB block of the activity bitmap: bit i at byte i div 8, bit i mod 8 (R507). -/
def bitmapBlock (bits : List Nat) (k : Nat) : Block :=
  trim ((span (4096 * k) 4096).map fun b => BitVec.ofNat 8 (((bits.filter fun i => i / 8 = b).map fun i => 2 ^ (i % 8)).sum))

/-! ### The in-flight destage table (R197) -/

/-- A destage entry's 64 bytes; a listed entry has VALID = 1 (R197). -/
def Entry.bytes (e : Entry) : List Byte :=
  let head := pageOf 60 [(0, 8, e.seq), (8, 4, e.region + e.template * 2 ^ 24), (0xC, 4, e.regionGen.toNat),
    (0x10, 4, e.vol + e.stripe * 2 ^ 12 + e.method * 2 ^ 24 + 2 ^ 27 + b2n e.parison.isSome * 2 ^ 28), (0x14, 4, e.newestGen.toNat),
    (0x18, 8, e.writeMask.toNat), (0x20, 8, e.doneMask.toNat), (0x28, 8, e.segMask.toNat),
    (0x30, 4, match e.staging with | some r => r.1 | none => 0xFFFFFFFF), (0x34, 4, e.parison.getD 0)]
  head ++ toLe 4 (crc32c head).toNat

end Sys2Proof.Machine

namespace Sys2Proof

open Machine

/-! ### The vault journal (R212, R213, R222) -/

/-- The KIND codes (R211, R212). -/
def JKind.code : JKind → Nat
  | .write => 1
  | .destage => 2
  | .intent => 3
  | .retire => 4
  | .pad => 5

/-- A descriptor's 8 bytes (R213). -/
def JDesc.bytes : JDesc → List Byte
  | .seg p g check noFrame gen => toLe 8 (p + g * 2 ^ 6 + b2n check * 2 ^ 12 + b2n noFrame * 2 ^ 13 + gen.toNat * 2 ^ 32)
  | .item k q => toLe 8 (k + q * 2 ^ 9)

/-- A record's descriptor segment (R212). -/
def JRecImage.segment (r : JRecImage) : List Byte :=
  let head := pageOf 128 [(0, 4, 0x4E524A49), (4, 1, r.kind.code), (5, 1, r.method), (6, 2, r.descs.length), (8, 8, r.seq % 2 ^ 55),
    (0x10, 2, r.vol), (0x12, 2, r.stripe), (0x14, 4, r.region + r.template * 2 ^ 24), (0x18, 4, r.regionGen.toNat),
    (0x1C, 4, r.gen.toNat), (0x20, 8, r.posMask.toNat), (0x28, 8, r.segMask.toNat), (0x30, 8, r.firstLba),
    (0x38, 2, r.payload.length), (0x3C, 4, segmentsCrc r.payload), (0x40, 1, r.chainIndex), (0x41, 1, r.chainCount)]
  withCrc (fullSeg (head ++ r.descs.flatMap JDesc.bytes)) 0x7C

end Sys2Proof

namespace Sys2Proof.Machine

open Sys2Proof

/-- The first check of R222 that a record's segments fail where `expect` is due, as EV_JOURNAL_SCAN_END numbers it (R230): 0 MAGIC or
KIND, 1 DESC_CRC, 3 SEQ, 2 PAYLOAD_CRC. -/
def recordCheck (desc : List Byte) (payload : List Block) (expect : Nat) : Option Nat :=
  let kind := numAt desc 4 1
  if numAt desc 0 4 ≠ 0x4E524A49 || kind < 1 || kind > 5 then some 0
  else if crc32c (overlay (fullSeg desc) 0x7C (toLe 4 0)) ≠ BitVec.ofNat 32 (numAt desc 0x7C 4) then some 1
  else if numAt desc 8 8 % 2 ^ 55 ≠ expect then some 3
  else if segmentsCrc (payload.take (numAt desc 0x38 2)) ≠ numAt desc 0x3C 4 then some 2
  else none

/-! ### The map log (R405, R406) -/

/-- A map-log entry's 32 bytes (R406). PHYS of a kind that names no sector address is 0 (DESIGN CHOICE 55). -/
def MapEntry.bytes (e : MapEntry) : List Byte :=
  let lay (kind logical phys seq : Nat) : List Byte := pageOf 32 [(0, 8, kind + logical * 2 ^ 8), (8, 8, phys), (0x10, 8, seq)]
  let user (v l : Nat) : Nat := v * 2 ^ 28 + l
  match e with
  | .map v l p c => lay 1 (user v l) p c
  | .unmap v l => lay 2 (user v l) 0 0
  | .blockOpen b tri => lay 3 0 (b * 2048 + b2n tri * 2 ^ 29) 0
  | .blockErased b => lay 4 0 (b * 2048) 0
  | .blockRetired b => lay 5 0 (b * 2048) 0
  | .mapPage i p => lay 6 (1 * 2 ^ 44 + i) p 0
  | .checkpoint n => lay 7 (4 * 2 ^ 44 + n) 0 0
  | .sectorLost v l => lay 8 (user v l) 0 0

/-- Segments of a map-log record with n entries (R405): 126 in the first, 128 in each later one. -/
def mapSegments (n : Nat) : Nat := 1 + (n - 126 + 127) / 128

/-- A map-log record's segments (R405). -/
def mapRecordSegments (seq : Nat) (l : List MapEntry) : List Block :=
  let n := mapSegments l.length
  let head := pageOf 64 [(0, 4, 0x4C4D4C49), (4, 1, n), (6, 2, l.length), (8, 8, seq)]
  let all := bytesAt (head ++ l.flatMap MapEntry.bytes) 0 (4096 * n)
  toSegments (withCrc all 0x10)

/-! ### The gauge store (R455) -/

/-- A number in two's complement of 32 bits. -/
def signed32 (x : Int) : Nat := (BitVec.ofInt 32 x).toNat

/-- A bank's 64 bytes (R455). -/
def GaugeBank.bytes (b : GaugeBank) : List Byte :=
  let head := pageOf 60 [(0, 4, 0x47504B49), (4, 4, b.seq.toNat), (8, 4, b.cLearned), (0xC, 4, b.cNominal), (0x10, 4, signed32 b.q),
    (0x14, 4, b.fullTime.getD 0xFFFFFFFF), (0x18, 4, b.emptyTime.getD 0xFFFFFFFF), (0x1C, 4, b.learnTime), (0x20, 4, b.dieSeconds),
    (0x24, 1, b2n b.cells4 + 2 * b2n b.capUnverified + 4 * b2n b.learnPending + 8 * b2n b.learnOverdue), (0x28, 2, b.learnCount),
    (0x2A, 2, b.rejectCount), (0x2C, 4, b.throughput)]
  head ++ toLe 4 (crc32c head).toNat

end Sys2Proof.Machine

namespace Sys2Proof

open Machine

/-! ### The dump (R140, R471 to R475) -/

/-- The STATE codes of a directory entry (R140). -/
def FrameSt.code : FrameSt → Nat
  | .free => 0
  | .gather => 1
  | .filling => 2
  | .clean => 3
  | .dirty => 4
  | .destaging => 5
  | .superseded => 6

/-- A dumped frame's directory entry (R140, R473): NEXT ends the chain, PIN_COUNT and REF are zero, bit 63 marks a bad frame. -/
def FrameImage.entry (x : FrameImage) : List Byte :=
  toLe 8 (x.lba % 2 ^ 40 + x.vol * 2 ^ 40 + FrameSt.code x.st * 2 ^ 52 + b2n x.journaled * 2 ^ 55 + b2n x.absorbed * 2 ^ 56 + b2n x.bad * 2 ^ 63)
    ++ toLe 4 x.gen.toNat ++ toLe 4 0xFFFFFF

/-- The frame groups of section 5, 256 frames to a group, with fuel (R473). -/
def frameGroups : Nat → List FrameImage → List Block
  | 0, _ => []
  | n + 1, l => if l.isEmpty then []
    else trim ((l.take 256).flatMap FrameImage.entry) :: (l.take 256).map (·.data) ++ frameGroups n (l.drop 256)

/-- A parison of section 3: its descriptor segment and its P strips of a template's strip (R471, R472). -/
def ParisonImage.segments (p : ParisonImage) (coded : List Nat) (strip : Nat) : List Block :=
  trim (pageOf 32 [(0, 4, p.region), (4, 4, p.stripe), (8, 4, p.vol), (0xC, 4, p.fill), (0x10, 4, coded.length), (0x14, 4, 114 + p.home)])
    :: coded.flatMap fun q => (span 0 strip).map fun g =>
      ((p.strips.find? fun c => c.1 = q && c.2.1 = g).map (·.2.2)).getD []

end Sys2Proof

namespace Sys2Proof.Machine

open Sys2Proof

/-- The seal's segment (R475); `sections` gives each section's segments and item count. -/
def sealSegment (d : Dump) (sections : List (List Block × Nat)) : Block :=
  let firsts := sections.zipIdx.map fun e => ((sections.take e.2).map fun x => x.1.length).sum
  let rows := (sections.zip firsts).zipIdx.flatMap fun e =>
    let o := 0x80 + 16 * e.2
    [(o, 4, e.1.2), (o + 4, 4, e.1.1.1.length), (o + 8, 4, e.1.1.2), (o + 12, 4, segmentsCrc e.1.1.1)]
  let head := pageOf 0xFC ([(0, 4, 0x53444C49), (4, 1, d.cause.code + d.permission.code * 16), (8, 8, d.seq), (0x10, 32, d.identity.toNat),
    (0x30, 4, d.checkpointSeq), (0x34, 4, d.lEff), (0x38, 8, d.nextDestageSeq), (0x40, 8, d.nextJournalSeq), (0x48, 8, d.startTime.1),
    (0x50, 4, d.durationUs), (0x54, 4, d.packMj), (0x58, 4, d.framesJ0), (0x5C, 4, d.framesJ1), (0x60, 4, d.omitted)] ++ rows)
  trim (head ++ toLe 4 (crc32c head).toNat)

/-- Does a seal have a good MAGIC and SEAL_CRC (R482)? -/
def sealHeadGood (s : Block) : Bool :=
  let b := bytesAt s 0 256
  numAt b 0 4 = 0x53444C49 && crc32c (b.take 0xFC) = BitVec.ofNat 32 (numAt b 0xFC 4)

/-- Does a seal have a good MAGIC and SEAL_CRC, and each section a good SECTION_CRC (R482)? -/
def sealGood (segments : List Block) : Bool :=
  match segments.getLast? with
  | none => false
  | some s =>
    let b := bytesAt s 0 256
    sealHeadGood s
      && (span 0 6).all fun k =>
        let o := 0x80 + 16 * k
        segmentsCrc ((segments.drop (numAt b o 4)).take (numAt b (o + 4) 4)) = numAt b (o + 12) 4

end Sys2Proof.Machine
end

