-- ==== Sys2Proof/Machine/Vault.lean ====
section
/-! DEFINITION. The vault's own translation layer: blocks and streams, page programs, the map and its log, copies,
erases, the reserve and the health figures (R386 to R428). -/

namespace Sys2Proof.Machine

open Sys2Proof

/-! ### Blocks (R386 to R399) -/

/-- The block of a physical sector address, as die × 16,384 + plane × 4,096 + block (R392). -/
def vblockOf (addr : Nat) : Nat := addr / 2048

/-- The die of a block. -/
def vdie (b : Nat) : Nat := b / 16384

/-- The physical sector address of a sector of a page (R392). -/
def vaddr (b page sector : Nat) : Nat := b * 2048 + page * 4 + sector

/-- "No sector" (R392). -/
def noSector : Nat := 0x1FFFFFFF

/-- A block's record. -/
def State.vblk (s : State) (b : Nat) : VBlock := s.vault.blocks.read b {}

def State.setVblk (s : State) (b : Nat) (x : VBlock) : State :=
  { s with vault := { s.vault with blocks := s.vault.blocks.putD {} b x } }

/-- Tri-level uses (R397, R398). -/
def VUse.tri : VUse → Bool
  | .cold => true
  | .checkpoint _ => true
  | .journalStream => false
  | .hot => false
  | .firmware _ => false
  | .dump => false
  | .wear tri => tri

/-- Pages per block (R386). -/
def VUse.pages (u : VUse) : Nat := if u.tri then 384 else 128

/-- The place of a stream in `Vault.turns` (R397). -/
def VUse.turn : VUse → Nat
  | .journalStream => 0
  | .hot => 1
  | .cold => 2
  | .checkpoint _ => 3
  | .firmware _ => 4
  | .dump => 5
  | .wear _ => 6

/-- The blocks of the fixed areas (R398): dump reserve, journal ring, map log, checkpoints, firmware slots, records. -/
def areaBlocks : List Nat := [18432, 4096, 128, 684, 64, 16]

/-- The most blocks that a use of whole blocks may hold (R398): one checkpoint copy 342, one firmware slot 32. The rings of the journal and
the map log bound their areas by the segments of the pages they take, and the records area its own by the sectors that its records fill,
513 at most, beside those of the series, the operating seconds and the gauge mirror: never 2,048 pages. -/
def VUse.most : VUse → Option Nat
  | .checkpoint _ => some 342
  | .firmware _ => some 32
  | _ => none

/-- The LOGICAL_ID of a sector: its space above 44 bits of index (R391). The index within spaces 1 to 6, and space 7 for a sector of the
dump, are the model's (DESIGN CHOICE 25). -/
def VLogical.id : VLogical → Nat
  | .user v l => v * 2 ^ 28 + l
  | .mapPage i k => 1 * 2 ^ 44 + (i * 4 + k)
  | .journal q k => 2 * 2 ^ 44 + (q * 2 ^ 10 + k) % 2 ^ 44
  | .mapLog q k => 3 * 2 ^ 44 + (q * 16 + k) % 2 ^ 44
  | .checkpoint c k => 4 * 2 ^ 44 + (c * 2 ^ 40 + k)
  | .firmware c k => 5 * 2 ^ 44 + (c * 2 ^ 40 + k)
  | .records k => 6 * 2 ^ 44 + k % 2 ^ 44
  | .gauge b => 6 * 2 ^ 44 + b
  | .dump _ k => 7 * 2 ^ 44 + k

/-- The back-pointer of a sector: LOGICAL_ID, CONTENT_SEQ, PROGRAM_SEQ, then their CRC-32C (R391). -/
def backPointer (id contentSeq programSeq : Nat) : List Byte :=
  let head := toLe 6 id ++ toLe 8 contentSeq ++ toLe 8 programSeq
  head ++ toLe 4 (crc32c head).toNat

/-- A back-pointer whose CRC is good (R391, R410). -/
def backPointerGood (b : List Byte) : Bool := crc32c (b.take 22) = BitVec.ofNat 32 (numAt b 22 4)

/-- The outcome of reading a sector: the bits corrected at the first of at most 9 attempts, the plain read and 8 read-level offsets, that
the code can correct, which is up to 72; none where it stays uncorrectable (R389). An attempt is given as its bit errors. -/
def decoded (attempts : List Nat) : Option Nat := (attempts.take 9).find? fun n => n ≤ 72

/-- Is a sector's reading over: decoded, or tried at every offset (R389)? -/
def readOver (attempts : List Nat) : Bool := (decoded attempts).isSome || attempts.length ≥ 9

/-- Life used by a block in units of 10^-8 (R394). -/
def VBlock.life (x : VBlock) : Nat := x.nS + 100 * x.nT

/-- Does a vault channel answer (R424, R651)? -/
def State.vaultUp (s : State) (die : Nat) : Bool := (s.island (98 + die)).status = 0

/-! ### Requests to the vault channels (R34, R388, R424, R653, R654, R657) -/

/-- The die that an operation works on: each uses one (R388). -/
def VOp.die : VOp → Nat
  | .program _ b _ _ _ => vdie b
  | .read l _ => vdie (vblockOf (l.headD 0))
  | .erase l => vdie (l.headD 0)

/-- A request with a number goes to the channel of its die, with the epochs of R653. Where the boundary answers ABSENT for an old epoch,
the sender learns the new one and the request goes again; where the channel is down it is held (R424, R654, R657). -/
def State.askDie (s : State) (id : Nat) (op : VOp) : State :=
  let i := 98 + op.die
  let s := if s.boundary i (s.viewOf firmwareIsland i) = none then s else s.learnEpoch firmwareIsland i
  let dest := s.viewOf firmwareIsland i
  let r : VReq :=
    { op := op, since := s.now, dest := dest, src := (s.island firmwareIsland).epoch, held := (s.boundary i dest).isSome }
  { s with vault := { s.vault with ops := s.vault.ops.put id r } }

/-- A new request to a vault channel. -/
def State.issueOp (s : State) (op : VOp) : State :=
  let (id, s) := s.newId
  s.askDie id op

/-- The held requests of a die are issued again, now that its channel answers with its new epoch (R424). -/
def State.reissueOps (s : State) (d : Nat) : State :=
  s.over (s.vault.ops.filter fun (o : Nat × VReq) => o.2.held && o.2.op.die = d) fun s o => s.askDie o.1 o.2.op

/-- The block and page that a sector shares with those of the other planes: its die, block number and page (R388, R392). -/
def readKey (a : Nat) : Nat := a / 2 ^ 25 * 2 ^ 21 + a % 2 ^ 23 / 4

/-- Sectors cut into reads: each takes those of one block and page on the four planes of a die (R388). -/
def readGroups (l : List Nat) : List (List Nat) := (uniq (l.map readKey)).map fun k => l.filter fun a => readKey a = k

/-- Read sectors. -/
def State.startReads (s : State) (l : List Nat) (why : VRead) : State := s.over (readGroups l) fun s g => s.issueOp (.read g why)

/-! ### Opening blocks (R393, R395, R397, R399) -/

/-- FREE blocks of a die. -/
def State.freeOnDie (s : State) (d : Nat) : Nat :=
  16384 - (s.vault.blocks.filter fun e => vdie e.1 = d && e.2.st ≠ .free).length

/-- Blocks that a use holds open or full. -/
def State.blocksOf (s : State) (u : VUse) : Nat :=
  (s.vault.blocks.filter fun e => e.2.use = u && (e.2.st = .open_ || e.2.st = .full)).length

/-- May a block be opened on the die for this use? Only the dump takes from the reserve (R399), and an area of whole blocks takes no more
than its count (R398). -/
def State.mayOpen (s : State) (d : Nat) (u : VUse) : Bool :=
  s.freeOnDie d > (if u = .dump then 0 else 1152) && (match u.most with | some n => s.blocksOf u < n | none => true)

/-- The first block address from `b` that is not listed, with fuel. -/
def firstUnlisted (m : Store VBlock) : Nat → Nat → Nat
  | 0, b => b
  | n + 1, b => if m.has b then firstUnlisted m n (b + 1) else b

/-- The FREE block of a die with the lowest life used, ties to the lower address (R395). -/
def State.leastWorn (s : State) (d : Nat) : Option Nat :=
  let listed := (s.vault.blocks.filter fun e => vdie e.1 = d && e.2.st = .free).map fun e => (e.2.life, e.1)
  let u := firstUnlisted s.vault.blocks (s.vault.blocks.length + 1) (d * 16384)
  let cands := if vdie u = d then (0, u) :: listed else listed
  ((sortBy (fun a b => a.1 < b.1 || (a.1 = b.1 && a.2 ≤ b.2)) cands).head?).map (·.2)

/-- Open a block: its mode is fixed, and a BLOCK_OPEN entry goes into the map log (R393). -/
def State.openBlock (s : State) (b : Nat) (u : VUse) : State :=
  let s := s.setVblk b { s.vblk b with st := .open_, triLevel := u.tri, use := u, nextPage := 0 }
  { s with vault := { s.vault with openEntries := s.vault.openEntries ++ [.blockOpen b u.tri] } }

/-- The OPEN block of a use on a die with a page left. -/
def State.openOn (s : State) (d : Nat) (u : VUse) : Option Nat :=
  (s.vault.blocks.find? fun e => vdie e.1 = d && e.2.st = .open_ && e.2.use = u && e.2.nextPage < u.pages).map (·.1)

/-- A page for a use: the next die in turn that has an OPEN block of it or may open one (R395, R397). The block of a wear
move is opened beforehand (R396). -/
def State.pageFor (s : State) (u : VUse) : Option (Nat × Nat × State) :=
  let t := s.vault.turns.getD u.turn 0
  let dies := (span 0 16).map fun i => (t + i) % 16
  let pick := dies.findSome? fun d =>
    match s.openOn d u with
    | some b => some (d, b, s)
    | none => if s.mayOpen d u && u ≠ .wear u.tri then (s.leastWorn d).map fun b => (d, b, s.openBlock b u) else none
  pick.map fun (d, b, s) =>
    let x := s.vblk b
    let s := s.setVblk b { x with nextPage := x.nextPage + 1 }
    (b, x.nextPage, { s with vault := { s.vault with turns := s.vault.turns.set u.turn ((d + 1) % 16) } })

/-- Program one page, or wait for a block to open, in acceptance order (R413). The page is programmed in the one block that its use has
open on the die; on the other planes nothing is programmed (DEDUCED R388, R397). -/
def State.programPage (s : State) (u : VUse) (sectors : VContent) (why : List VFor) : State :=
  let wait := { s with vault := { s.vault with waiting := s.vault.waiting ++ [⟨u, sectors, why⟩] } }
  if s.vault.waiting.any fun w => w.use = u then wait
  else match s.pageFor u with
    | none => wait
    | some (b, page, s) => s.issueOp (.program u b page sectors why)

/-- Sectors of a page stand programmed and verified: PROGRAM_SEQ, CONTENT_SEQ where the content is new, the back-pointer, and the bits that
the read-back corrected (R390, R391). -/
def State.storeSectors (s : State) (b page : Nat) (sectors : VContent) (corrected : List (Option Nat)) : State :=
  s.over (sectors.zip corrected).zipIdx fun s e =>
    let q := s.vault.programSeq + 1
    let c := if e.1.1.2.1 = 0 then q else e.1.1.2.1
    let x : VSector := { what := e.1.1.1, contentSeq := c, programSeq := q, data := e.1.1.2.2, spare := backPointer e.1.1.1.id c q,
                         corrected := e.1.2 }
    { s with vault := { s.vault with programSeq := q, sectors := s.vault.sectors.put (vaddr b page e.2) x } }

/-- Cut content into pages of four sectors. -/
def pagesOf : Nat → VContent → List VContent
  | 0, _ => []
  | n + 1, l => if l.isEmpty then [] else l.take 4 :: pagesOf n (l.drop 4)

/-- Program content page by page for one reason. -/
def State.program (s : State) (u : VUse) (content : VContent) (why : List VFor) : State :=
  s.over (pagesOf content.length content) fun s p => s.programPage u p why

/-! ### The map log (R405 to R407) -/

/-- The map key of a vault-volume sector. -/
def vkey (vol lba : Nat) : Nat := vol * 2 ^ 40 + lba

/-- The effect of an entry on the in-memory map (R407). -/
def applyEntry (m : Store VMap) : MapEntry → Store VMap
  | .map v l p c => m.put (vkey v l) { phys := p, contentSeq := c }
  | .unmap v l => m.del (vkey v l)
  | .sectorLost v l => m.upd (vkey v l) fun x => { x with lost := true }
  | .blockOpen _ _ => m
  | .blockErased _ => m
  | .blockRetired _ => m
  | .mapPage _ _ => m
  | .checkpoint _ => m

/-- The map page of a vault-volume sector: each covers 4,096 consecutive sectors of one volume (R404). -/
def mapPageOf (vol lba : Nat) : Nat := vol * 2 ^ 16 + lba / 4096

/-- The map page that an entry changes. -/
def MapEntry.page : MapEntry → Option Nat
  | .map v l _ _ => some (mapPageOf v l)
  | .unmap v l => some (mapPageOf v l)
  | .sectorLost v l => some (mapPageOf v l)
  | _ => none

/-- The four sectors of a map page as the committed map leaves it: the physical address of each of its 4,096 sectors, 0x1FFFFFFF where none
is mapped (R404, R407); bit 31 marks a lost one (DESIGN CHOICE 25). -/
def State.mapPageContent (s : State) (i : Nat) : VContent :=
  (span 0 4).map fun k => (VLogical.mapPage i k, 0, trim ((span (i % 2 ^ 16 * 4096 + 1024 * k) 1024).flatMap fun l =>
    toLe 4 (match s.vault.committedMap.look (vkey (i / 2 ^ 16) l) with | some m => m.phys + b2n m.lost * 2 ^ 31 | none => noSector)))

/-- Map pages are used: they stand in the 64 MiB cache, which holds 4,096, the last used first (R404). -/
def State.touchMap (s : State) (l : List Nat) : State :=
  { s with vault := { s.vault with mapCache := (uniq (l ++ s.vault.mapCache)).take 4096 } }

/-- Segments of the map-log ring: 128 blocks (R398, R405). -/
def mapRing : Nat := 65536

/-- A map-log record's segments as they are programmed. -/
def mapContent (seq : Nat) (l : List MapEntry) : VContent :=
  (mapRecordSegments seq l).zipIdx.map fun e => (VLogical.mapLog seq e.2, 0, e.1)

/-- The segments of the pages that n segments of a record take: a record starts a page of its own (R398, R407). -/
def pageRoom (n : Nat) : Nat := (n + 3) / 4 * 4

/-- Segments of the map log in use, from the replay position of the newer copy on, as the pages that they take (R398, R408). -/
def State.mapLogSegments (s : State) : Nat :=
  ((s.vault.mapRecs.vals.filter (·.written)).map fun r => pageRoom (mapSegments r.entries.length)).sum

/-- Build a map-log record, apply it to the in-memory map, and program its pages in the journal stream (R397, R407); where the ring has no
room, they wait for the checkpoint that makes it (R405, R408). -/
def State.appendRecord (s : State) (all : List MapEntry) (acc copy : Option Nat) : State :=
  let v := s.vault
  let seq := v.nextMapSeq
  let content := mapContent seq all
  let room := v.mapRecs.vals.all (·.written) && s.mapLogSegments + pageRoom content.length ≤ mapRing
  let s := { s with vault := { v with
    openEntries := [], nextMapSeq := seq + 1, mapPos := (v.mapPos + content.length) % mapRing, map := all.foldl applyEntry v.map,
    mapRecs := v.mapRecs.put seq
      { entries := all, pages := (pagesOf content.length content).length, pos := v.mapPos, written := room, acc := acc,
        copies := copy.toList } } }
  let s := s.touchMap (all.filterMap MapEntry.page)
  if room then s.program .journalStream content [.mapRec seq] else s

/-- Records that waited for ring room are programmed in SEQ order where it now has it. -/
def State.writeHeld (s : State) : State :=
  s.over (s.vault.mapRecs.filter fun (e : Nat × MapRec) => !e.2.written) fun s e =>
    if s.vault.mapRecs.any (fun x => x.1 < e.1 && !x.2.written) || s.mapLogSegments + pageRoom (mapSegments e.2.entries.length) > mapRing then s
    else ({ s with vault := { s.vault with mapRecs := s.vault.mapRecs.upd e.1 fun r => { r with written := true } } }).program
      .journalStream (mapContent e.1 e.2.entries) [.mapRec e.1]

/-- Log entries in one record, with the BLOCK_OPEN entries that no record has taken yet; these get a record of their own where the
entries leave them no room (R393, R405). -/
def State.appendMap (s : State) (entries : List MapEntry) (acc copy : Option Nat) : State :=
  let opens := s.vault.openEntries
  if opens.length + entries.length ≤ 2046 then s.appendRecord (opens ++ entries) acc copy
  else (s.appendRecord opens none none).appendRecord entries acc copy

/-- BLOCK_OPEN entries that no record has taken yet get one of their own (R393). -/
def State.flushOpens (s : State) : State :=
  if s.vault.openEntries.isEmpty then s else s.appendMap [] none none

/-- Program content, then log the blocks that were opened for it. -/
def State.vprogram (s : State) (u : VUse) (content : VContent) (why : List VFor) : State :=
  (s.program u content why).flushOpens

/-- Cut entries into records of at most 2,046; the command completes with the last (R405, R421). -/
def chunks {α : Type} (most : Nat) : Nat → List α → List (List α)
  | 0, _ => []
  | n + 1, l => if l.isEmpty then [] else l.take most :: chunks most n (l.drop most)

/-- Log map entries in records of at most 2,046, each naming the command (R421). -/
def State.logEntries (s : State) (entries : List MapEntry) (acc copy : Option Nat) : State :=
  s.over (chunks 2046 entries.length entries) fun s l => s.appendMap l acc copy

/-! ### What the blocks hold -/

/-- Is the map entry of a sector in a map this address, and not lost? -/
def namesSector (m : Store VMap) (k addr : Nat) : Bool :=
  match m.look k with | some x => x.phys = addr && !x.lost | none => false

/-- Is a programmed sector referenced: by the map in memory or the committed one, by an area, or by a log that still needs it (R393, R412)? -/
def State.sectorLive (s : State) (addr : Nat) : Bool :=
  match s.vault.sectors.look addr with
  | none => false
  | some x =>
    let v := s.vault
    let newest := v.sectors.all fun e => e.2.what ≠ x.what || e.2.programSeq ≤ x.programSeq
    let ofCopy (c : Checkpoint) (k : Nat) : Bool := c.copy = k && x.programSeq > c.after
    match x.what with
    | .user vol l => namesSector v.map (vkey vol l) addr || namesSector v.committedMap (vkey vol l) addr
    | .journal q _ => s.journal.recs.has q && newest
    | .mapLog q _ => v.mapRecs.has q && newest
    | .mapPage i k => newest || (k = 0 && v.mapTable.look i = some addr)
    | .gauge _ => newest
    | .checkpoint k _ => newest && (v.copy0.toList ++ v.copy1.toList ++ (v.writing.map (·.1)).toList).any fun c => ofCopy c k
    | .firmware k _ =>
      let slot := if k = 0 then s.mgmt.slotA else s.mgmt.slotB
      newest && (slot.valid || slot.partialValid) && x.programSeq > slot.after
    | .records k => newest && (k < 16 || s.recorder.parts.has (k - 16))
    | .dump _ _ => v.dumpBlocks.contains (vblockOf addr)

/-- Programmed sectors of a block. -/
def State.sectorsOf (s : State) (b : Nat) : List Nat := (s.vault.sectors.filter fun e => vblockOf e.1 = b).map (·.1)

/-- Valid sectors of a block. -/
def State.validOf (s : State) (b : Nat) : List Nat := (s.sectorsOf b).filter s.sectorLive

/-- Verified sectors that their map-log record does not name yet: of a WRITE that still programs, or of a copy (R412, R415, R421). -/
def State.unmapped (s : State) : List Nat :=
  (s.cmds.vals.flatMap fun (c : Cmd) => c.vdone.map fun d => d.2.1) ++ s.vault.copies.vals.flatMap fun (c : VCopy) => c.done.map (·.2)

/-- What must leave a block before it is erased or retired: its valid sectors, and those verified that no record names yet. -/
def State.keepOf (s : State) (b : Nat) : List Nat := uniq (s.validOf b ++ s.unmapped.filter fun a => vblockOf a = b)

/-- Does a die operation use the block? -/
def State.blockBusy (s : State) (b : Nat) : Bool :=
  s.vault.ops.vals.any fun o => match o.op with
    | .program _ x _ _ _ => x = b
    | .read l _ => l.any fun a => vblockOf a = b
    | .erase l => l.contains b

/-- Blocks that a copy empties, that wait to be retired, or that hold the dump. -/
def State.inCopy (s : State) (b : Nat) : Bool :=
  (s.vault.copies.vals.any fun (c : VCopy) => c.block = some b) || s.vault.retireDue.contains b || s.vault.dumpBlocks.contains b

/-- Start the erases of the CULLET blocks that nothing uses: the blocks of one number on the planes of a die together (R388, R393, R400), on
the dies whose reserve is short before the others (R399). -/
def State.startErases (s : State) : State :=
  let l := (s.vault.blocks.filter fun (e : Nat × VBlock) => e.2.st = .cullet && !e.2.erasing && !s.blockBusy e.1).map (·.1)
  let key (b : Nat) : Nat := vdie b * 4096 + b % 4096
  let groups := (uniq (l.map key)).map fun k => l.filter fun b => key b = k
  let (short, rest) := groups.partition fun g => s.freeOnDie (vdie (g.headD 0)) < 1152
  s.over (short ++ rest) fun s g =>
    (s.over g fun s b => s.setVblk b { s.vblk b with erasing := true }).issueOp (.erase g)

/-- A dump is released: its blocks go to the cullet pool and their erase (R208, R400), with EV_DUMP_RELEASED (R490). -/
def State.releaseBlocks (s : State) (d : Dump) : State :=
  let l := d.blocks.filter s.vault.dumpBlocks.contains
  let s := s.over l fun s b => s.setVblk b { s.vblk b with st := .cullet }
  let s := { s with vault := { s.vault with dumpBlocks := s.vault.dumpBlocks.filter fun b => !l.contains b } }
  let s := s.startErases
  if !d.sealed_ then s
  -- in a fence pass the recorder is gated, and the next start-up records it (R490, R515)
  else if s.lehrOn then { s with life := { s.life with released := some (d.seq, l.length) } }
  else s.event Ev.dumpReleased 0 d.seq l.length 0

/-- Release the dump that the module has (R208). -/
def State.releaseDump (s : State) : State :=
  match s.life.dump with
  | none => s
  | some d => ({ s with life := { s.life with dump := none } } : State).releaseBlocks d

/-- OPEN blocks with a page programmed and FULL ones join the cullet pool where nothing in them is referenced, then erases start (R393). A
block that a copy still empties waits for the copy's record (R412). -/
def State.cullBlocks (s : State) : State :=
  let copied := s.vault.copies.vals.flatMap fun (c : VCopy) => c.left.map vblockOf
  let dead := s.vault.blocks.filter fun (e : Nat × VBlock) =>
    (e.2.st = .full || (e.2.st = .open_ && e.2.nextPage ≠ 0 && e.2.use ≠ .wear e.2.use.tri)) && !s.inCopy e.1 && !copied.contains e.1
      && !s.blockBusy e.1 && (s.keepOf e.1).isEmpty
  (s.over dead fun s e => s.setVblk e.1 { e.2 with st := .cullet }).startErases

/-- The sectors of a block are gone: from the lists of the patrol and of refreshes too (R417, R418). -/
def State.dropSectors (s : State) (b : Nat) : State :=
  let keep (l : List Nat) : List Nat := l.filter fun a => vblockOf a ≠ b
  { s with vault := { s.vault with
    sectors := s.vault.sectors.keep fun a _ => vblockOf a ≠ b, patrol := s.vault.patrol.map keep, refreshDue := keep s.vault.refreshDue } }

/-- How a sector reads: as programmed, erased, or not whole, because its program was cut off or it is uncorrectable (R222, R389). -/
inductive SegRead where
  | good (data : Block) | erased | broken
deriving DecidableEq, Repr

/-- The sector of a logical id that was programmed last after a PROGRAM_SEQ, with its address. -/
def Vault.segmentAt (v : Vault) (w : VLogical) (after : Nat) : Option (Nat × VSector) :=
  (sortBy (fun (a b : Nat × VSector) => b.2.programSeq ≤ a.2.programSeq)
    (v.sectors.filter fun e => e.2.what = w && e.2.programSeq > after)).head?

/-- Read the sector of a logical id that was programmed last after a PROGRAM_SEQ. -/
def Vault.segmentRead (v : Vault) (w : VLogical) (after : Nat) : SegRead :=
  match v.segmentAt w after with
  | some (_, x) => if x.corrected.isSome then .good x.data else .broken
  | none => if v.torn.contains w then .broken else .erased

/-- The content of a read, where there is one. -/
def SegRead.data : SegRead → Option Block
  | .good b => some b
  | .erased => none
  | .broken => none

/-! ### Capacity, reserve and health (R398 to R403, R411, R425) -/

/-- Blocks in the stone map (R416). -/
def State.retiredBlocks (s : State) : Nat := (s.vault.blocks.filter fun e => e.2.st = .retired).length

/-- A: the sum of the capacities of the vault volumes in bytes (R402). -/
def State.vaultAllocated (s : State) : Nat := 4096 * ((s.volumes.vals.filter (·.vault)).map (·.capacity)).sum

/-- M of R402 for A bytes. -/
def mapBlocks (a : Nat) : Nat := 2 * ((a + 2 ^ 31 - 1) / 2 ^ 31)

/-- T for n bytes (R402, R403): ⌈1.125 × n ÷ 6 MiB⌉. -/
def triBlocks (n : Nat) : Nat := (9 * n + 8 * 6291456 - 1) / (8 * 6291456)

/-- SPARE_LEFT for an allocation (R402). -/
def State.spareLeftFor (s : State) (a : Nat) : Int :=
  262144 - (s.retiredBlocks : Int) - areaBlocks.sum - mapBlocks a - triBlocks a - 8192

/-- SPARE_LEFT (R402). -/
def State.spareLeft (s : State) : Int := s.spareLeftFor s.vaultAllocated

/-- B of R403, in blocks. -/
def State.writeBuffer (s : State) : Int :=
  262144 - (s.retiredBlocks : Int) - areaBlocks.sum - mapBlocks s.vaultAllocated - triBlocks (4096 * s.vault.map.length)

/-- Blocks of the hot user stream (R411). -/
def State.hotBlocks (s : State) : Nat := (s.vault.blocks.filter fun e => e.2.use = .hot && (e.2.st = .open_ || e.2.st = .full)).length

/-- The 4 h of a wear move are over (R396). -/
def State.wearDue (s : State) : Bool := s.now ≥ s.vault.wearAt + 14400000000

/-- FREE_COUNT (R411). -/
def State.freeCount (s : State) : Nat :=
  ((span 0 16).map fun d => s.freeOnDie d - 1152).sum + (s.vault.blocks.filter fun e => e.2.st = .cullet).length

/-- Blocks the dump reserve can keep (R398, R401): at most 1,152 good blocks on each die. -/
def reserveKept (m : Store VBlock) : Nat :=
  ((span 0 16).map fun d =>
    min 1152 (16384 - (m.filter fun e => vdie e.1 = d && e.2.st = .retired).length)).sum

/-- The largest L_cfg in MiB that a reserve allows, never below 4 GiB (R401). -/
def reserveLimit (m : Store VBlock) : Nat := max 4096 (256 * ((reserveKept m * 2 - 4096) / 256))

/-- L_cfg after R401: lowered to what the reserve allows, never raised. -/
def cappedLimit (l : Nat) (m : Store VBlock) : Nat := if reserveLimit m < l then reserveLimit m else l

/-- Mean life used over the blocks not retired, in 10^-8 × blocks, with the count of those blocks (R425). -/
def State.lifeSum (s : State) : Nat × Nat :=
  (((s.vault.blocks.filter fun e => e.2.st ≠ .retired).map fun e => e.2.life).sum, 262144 - s.retiredBlocks)

/-- PERCENT_USED before the maximum is taken (R425). -/
def State.percentNow (s : State) : Nat :=
  let (sum, n) := s.lifeSum
  let wear := if n = 0 then 0 else 100 * sum / (n * 100000000)
  let left := s.spareLeft
  let ret := if left ≤ 0 then 100 else 100 * s.retiredBlocks / (s.retiredBlocks + left.toNat)
  min 100 (max wear ret)

/-- Recompute PERCENT_USED: it never decreases, and reaching 90 and 100 is recorded once each (R425, R426, R712), with SPARE_LEFT as the
health log gives it, 0 when negative (R427; DESIGN CHOICE 25 for the event). -/
def State.percentUpdate (s : State) : State :=
  let p := max s.vault.percentUsed s.percentNow
  let s := { s with vault := { s.vault with percentUsed := p, percentAt := s.now } }
  let note (s : State) (v : Nat) : State :=
    ((s.event Ev.vaultLife 0 v (s.spareLeft.toNat) s.retiredBlocks).raisePfs .vaultHealth).alert .vaultLife
  let s := if p ≥ 90 && !s.vault.life90 then note { s with vault := { s.vault with life90 := true } } 90 else s
  if p ≥ 100 && !s.vault.readOnly then note { s with vault := { s.vault with readOnly := true } } 100 else s

/-- Parts per million of L(b). -/
def VBlock.ppm (x : VBlock) : Nat := x.life / 100

/-- Retire a block: stone map, BLOCK_RETIRED entry, event, PERCENT_USED (R393, R415, R416, R425). The reserve check of
R401 follows in `vaultAct`. -/
def State.retireBlock (s : State) (b : Nat) (program : Bool) : State :=
  let x := s.vblk b
  let s := (s.setVblk b { x with st := .retired, erasing := false }).dropSectors b
  let s := if program then s else { s with vault := { s.vault with eraseFails := s.vault.eraseFails + 1 } }
  let s := s.appendMap [.blockRetired b] none none
  (s.event Ev.vaultBlockRetired (vdie b) (b * 2048) (b2n program) x.ppm).percentUpdate

/-! ### Copies (R412, R415, R418) -/

/-- Start a copy of sectors to a stream: its reads are issued (R412 step 1). -/
def State.startCopy (s : State) (c : VCopy) : State :=
  let (id, s) := s.newId
  { s with vault := { s.vault with copies := s.vault.copies.put id c } }.startReads c.left (.copy id)

/-- The stream a refreshed sector goes to: one of its own mode (R397, R418). -/
def copyUse (b : VBlock) : VUse := if b.triLevel then .cold else if b.use = .hot then .hot else .journalStream

/-- A block that was OPEN is FULL, in the order in which blocks close (R393, R411). -/
def State.closeBlock (s : State) (b : Nat) : State :=
  let c := s.vault.closeCtr + 1
  { s.setVblk b { s.vblk b with st := .full, closedAt := c } with
    vault := { (s.setVblk b { s.vblk b with st := .full, closedAt := c }).vault with closeCtr := c } }

/-- The OPEN blocks of a use that is over are closed, whatever pages they have left: a wear move's with the move (R396), those of a
checkpoint or of a firmware image with the image, since each is written in whole blocks opened for it (R397, DESIGN CHOICE 55). -/
def State.closeUse (s : State) (u : VUse) : State :=
  s.over ((s.vault.blocks.filter fun (e : Nat × VBlock) => e.2.st = .open_ && e.2.use = u).map (·.1)) fun s b => s.closeBlock b

/-- The destination of a finished wear move is closed, and counts from then on with the stream of its source (R396). -/
def State.closeWear (s : State) (b : Nat) (u : VUse) : State :=
  if u ≠ .wear u.tri then s
  else
    let src := (s.vblk b).use
    let s := s.closeUse u
    { s with vault := { s.vault with blocks := s.vault.blocks.each fun _ x => if x.use = u && x.st = .full then { x with use := src } else x } }

/-- The block of a finished copy leaves use: retired, or to the cullet pool and its erase where nothing references it any more (R412 step 3,
R415). -/
def State.freeSource (s : State) (c : VCopy) : State :=
  match c.block with
  | none => s
  | some b =>
    let s := s.closeWear b c.use
    if c.retire then s.retireBlock b true
    else if (s.keepOf b).isEmpty then (s.setVblk b { s.vblk b with st := .cullet }).startErases
    else s

/-- Copied sectors that no record names yet are known by their new places (R415). -/
def State.moved (s : State) (l : List (Nat × Nat)) : State :=
  let now (a : Nat) : Nat := match l.find? fun e => e.1 = a with | some e => e.2 | none => a
  { s with
    cmds := s.cmds.each fun _ (c : Cmd) => { c with vdone := c.vdone.map fun d => (d.1, now d.2.1, d.2.2) },
    vault := { s.vault with copies := s.vault.copies.each fun _ (c : VCopy) => { c with done := c.done.map fun e => (e.1, now e.2) } } }

/-- Every sector of a copy has been copied and verified: the map record with an entry for each sector whose in-memory
entry still names the source (R412 step 2). The source of a copy without such entries is freed once every record built so far has
committed, for one of them removed its last reference (R412 step 3). -/
def State.copyCopied (s : State) (id : Nat) (c : VCopy) : State :=
  let s := s.moved c.done
  let s := if c.patrol then { s with vault := { s.vault with refreshes := s.vault.refreshes + c.done.length } } else s
  let entries := c.done.filterMap fun e => (s.vault.sectors.look e.2).bind fun x => match x.what with
    | .user v l => match s.vault.map.look (vkey v l) with
      | some m => if m.phys = e.1 then some (MapEntry.map v l e.2 x.contentSeq) else none
      | none => none
    | .mapPage i 0 => if s.vault.mapTable.look i = some e.1 then some (MapEntry.mapPage i e.2) else none
    | _ => none
  if !entries.isEmpty then s.appendMap entries none (some id)
  else match (s.vault.mapRecs.filter fun (e : Nat × MapRec) => !e.2.committed).getLast? with
    | some (q, _) => { s with vault := { s.vault with mapRecs := s.vault.mapRecs.upd q fun r => { r with copies := r.copies ++ [id] } } }
    | none => { s with vault := { s.vault with copies := s.vault.copies.del id } }.freeSource c

/-! ### Commit of map-log records (R407) -/

/-- A committed record's effects: the committed map and the map-page table follow it, its map pages are to be flushed, erased blocks become
FREE, and the sources of finished copies leave use (R404, R407, R412). -/
def State.mapCommitted (s : State) (seq : Nat) : State :=
  match s.vault.mapRecs.look seq with
  | none => s
  | some r =>
    let v := s.vault
    let s := { s with vault := { v with
      mapRecs := v.mapRecs.put seq { r with committed := true }, committedMap := r.entries.foldl applyEntry v.committedMap,
      dirtyPages := uniq (v.dirtyPages ++ r.entries.filterMap MapEntry.page),
      mapTable := r.entries.foldl (fun m e => match e with | MapEntry.mapPage i p => m.put i p | _ => m) v.mapTable } }
    let s := s.over r.entries fun s e => match e with
      | .blockErased b =>
        let x := s.vblk b
        s.setVblk b { nS := x.nS + b2n !x.triLevel, nT := x.nT + b2n x.triLevel }
      | _ => s
    s.over r.copies fun s id => match s.vault.copies.look id with
      | none => s
      | some c => { s with vault := { s.vault with copies := s.vault.copies.del id } }.freeSource c

/-- The records that are ready to commit, in SEQ order: every lower one is committed and their pages are verified. -/
def readyMaps : Store MapRec → List Nat
  | [] => []
  | (q, r) :: t => if r.committed then readyMaps t else if r.pages = 0 then q :: readyMaps t else []

/-- Mapping a gather frame back to FREE once its vault command is over (R420), and the end of the command. -/
def State.endVaultWrite (s : State) (acc : Nat) (st : Status) : State :=
  match s.cmds.look acc with
  | none => s
  | some c => (s.freeAll c.frames).finish acc st

/-- Commit what is ready; a command all of whose records have committed completes (R421). -/
def State.commitMaps (s : State) : State :=
  let l := readyMaps s.vault.mapRecs
  let accs := uniq (l.filterMap fun q => (s.vault.mapRecs.look q).bind (·.acc))
  let s := s.over l fun s q => s.mapCommitted q
  let s := s.over accs fun s a =>
    if s.vault.mapRecs.vals.any fun r => r.acc = some a && !r.committed then s else s.endVaultWrite a St.success
  s.cullBlocks

/-- A page of a map-log record has been verified. -/
def State.mapPageDone (s : State) (seq : Nat) : State :=
  { s with vault := { s.vault with mapRecs := s.vault.mapRecs.upd seq fun r => { r with pages := r.pages - 1 } } }

/-! ### Checkpoints (R408) -/

/-- The counts a checkpoint saves (R427). -/
def Vault.counts (v : Vault) : List Nat :=
  [v.percentUsed, v.programFails, v.eraseFails, v.uncorrectable, v.refreshes, v.correctedBits, v.patrolPasses]

/-- The counters of R269, R311 and R353 as they stand. -/
def State.counters (s : State) : CountersImage :=
  { volumes := s.volumes.map fun e => (e.1, e.2.born, [e.2.hedgesStarted, e.2.hedgesWon, e.2.hedgesRefused, e.2.returnedSuspect,
      e.2.returnedFalse, e.2.unresolved, e.2.lateUncompared, e.2.readRepairs, e.2.dataLostReads, e.2.runaheadVisible, e.2.runaheadDiscarded]),
    members := s.members.map fun e => (e.1, e.2.born, [e.2.softTimeouts, e.2.hardTimeouts, e.2.abortsSent, e.2.lateCompletions,
      e.2.mediaErrors, e.2.controllerResets, e.2.linkDowns]),
    pools := s.pools.map fun e => (e.1, e.2.born, [e.2.rebuildBytes, e.2.scrubPasses, e.2.scrubMismatches]) }

/-- What was saved of an object: nothing for one that came after the save. One read from the drives alone has no birth to compare. -/
def savedCounts (l : List (Nat × Nat × List Nat)) (k born : Nat) : List Nat :=
  match l.find? fun e => e.1 = k && (born = 0 || e.2.1 = born) with | some e => e.2.2 | none => []

/-- The counters resume from what was saved (R269, R311, R353, R483). -/
def State.resumeCounters (s : State) (c : CountersImage) : State :=
  { s with
    volumes := s.volumes.each fun k v =>
      let n := savedCounts c.volumes k v.born
      { v with hedgesStarted := n.getD 0 0, hedgesWon := n.getD 1 0, hedgesRefused := n.getD 2 0, returnedSuspect := n.getD 3 0,
               returnedFalse := n.getD 4 0, unresolved := n.getD 5 0, lateUncompared := n.getD 6 0, readRepairs := n.getD 7 0,
               dataLostReads := n.getD 8 0, runaheadVisible := n.getD 9 0, runaheadDiscarded := n.getD 10 0 },
    members := s.members.each fun k m =>
      let n := savedCounts c.members k m.born
      { m with softTimeouts := n.getD 0 0, hardTimeouts := n.getD 1 0, abortsSent := n.getD 2 0, lateCompletions := n.getD 3 0,
               mediaErrors := n.getD 4 0, controllerResets := n.getD 5 0, linkDowns := n.getD 6 0 },
    pools := s.pools.each fun k p =>
      let n := savedCounts c.pools k p.born
      { p with rebuildBytes := n.getD 0 0, scrubPasses := n.getD 1 0, scrubMismatches := n.getD 2 0 } }

/-- The newer checkpoint copy (R408). -/
def Vault.newest (v : Vault) : Option Checkpoint :=
  match v.copy0, v.copy1 with
  | some a, some b => if a.seq < b.seq then some b else some a
  | some a, none => some a
  | none, x => x

/-- Does a checkpoint copy read with a good CRC (R408, R409)? -/
def Vault.copyGood (v : Vault) (c : Checkpoint) : Bool :=
  segmentsCrc ((span 0 c.parts).map fun p => ((v.segmentRead (.checkpoint c.copy p) c.after).data).getD []) = c.crc

/-- The copy that the next checkpoint is written to: not the newer one (R408). -/
def Vault.nextCopy (v : Vault) : Nat := match v.newest with | some c => 1 - c.copy | none => 0

/-- The codes of the block states in a checkpoint. -/
def VBlockSt.code : VBlockSt → Nat
  | .free => 0
  | .open_ => 1
  | .full => 2
  | .cullet => 3
  | .retired => 4

/-- The saved counters as bytes: each object's number, when it came, and its counts. -/
def countersBytes (c : CountersImage) : List Byte :=
  (c.volumes ++ c.members ++ c.pools).flatMap fun e => toLe 4 e.1 ++ toLe 8 e.2.1 ++ e.2.2.flatMap (toLe 8)

/-- The segments of a checkpoint: a header, the pages of the region table that are not empty after a list of them, the map-page table, the
blocks with their states, modes and erase counts, the stone map, and the array metadata (R408, R416). No rule gives the layout (DESIGN CHOICE 21). -/
def Checkpoint.segments (c : Checkpoint) : List Block :=
  let pages := sortBy (· ≤ ·) (uniq (c.regions.keys.map (· / 64)))
  let whole (b : List Byte) : List Block := toSegments (bytesAt b 0 ((b.length + 4095) / 4096 * 4096))
  whole (pageOf 64 [(0, 8, c.seq), (8, 8, c.mapSeq), (0x10, 4, c.mapPos), (0x14, 4, pages.length), (0x18, 8, c.journalOldest),
      (0x20, 4, c.mapTable.length), (0x24, 4, c.blocks.length)] ++ c.counts.flatMap (toLe 8) ++ countersBytes c.counters)
    ++ whole (pages.flatMap fun p => toLe 4 p)
    ++ pages.map (fun p => trim ((span (64 * p) 64).flatMap fun r => regionBytes (c.regions.read r {})))
    ++ whole (c.mapTable.flatMap fun e => toLe 8 e.1 ++ toLe 8 e.2)
    ++ whole (c.blocks.flatMap fun e => toLe 4 e.1 ++ toLe 4 (e.2.st.code + b2n e.2.triLevel * 8) ++ toLe 4 e.2.nS ++ toLe 4 e.2.nT)
    ++ (span 0 8).map (bitmapBlock c.stone) ++ whole (toLe 4 c.array.length ++ c.array)

/-- Write a checkpoint: its content is taken now, with the map as the committed records leave it; replay will start at the first record that
has not committed. The older copy gives way, and the copy is valid once its pages verify (R407, R408). -/
def State.writeCheckpoint (s : State) : State :=
  if s.vault.writing.isSome || !s.vault.mounted then s
  else
    let s := s.flushOpens
    let v := s.vault
    let k := v.nextCopy
    let seq := v.checkpointSeq + 1
    let from_ := match v.mapRecs.find? fun e => !e.2.committed with | some (q, r) => (q, r.pos) | none => (v.nextMapSeq, v.mapPos)
    let c : Checkpoint :=
      { seq := seq, copy := k, mapSeq := from_.1, mapPos := from_.2, blocks := v.blocks,
        stone := (v.blocks.filter fun (e : Nat × VBlock) => e.2.st = .retired).map (·.1), mapTable := v.mapTable, after := v.programSeq,
        map := v.committedMap, regions := s.committed, array := s.configBytes, counts := v.counts,
        journalOldest := (match s.journal.recs with | (q, _) :: _ => q | [] => s.journal.nextSeq), counters := s.counters }
    let segs := c.segments
    let c := { c with parts := segs.length, crc := segmentsCrc segs }
    let content : VContent := segs.zipIdx.map fun e => (VLogical.checkpoint k e.2, 0, e.1)
    let s := { s with vault := { v with
      checkpointSeq := seq, checkpointAt := s.now, writing := some (c, (pagesOf content.length content).length),
      copy0 := if k = 0 then none else v.copy0, copy1 := if k = 1 then none else v.copy1 } }
    (s.cullBlocks.appendMap [.checkpoint seq] none none).vprogram (.checkpoint k) content [.checkpointPart]

/-- The dirty map pages are flushed in the journal stream; the checkpoint is written once none is dirty (R397, R404, R408). -/
def State.flushMap (s : State) : State :=
  let v := s.vault
  if v.dirtyPages.isEmpty then s.writeCheckpoint
  else
    let s := { s with vault := { v with dirtyPages := [], flushing := v.dirtyPages } }
    (s.over v.dirtyPages fun s i => s.program .journalStream (s.mapPageContent i) [.mapFlush i]).flushOpens

/-- A checkpoint is asked for: one that is under way is followed by another (R408). -/
def State.startCheckpoint (s : State) : State :=
  if !s.vault.mounted then s
  else if s.vault.writing.isSome || !s.vault.flushing.isEmpty then { s with vault := { s.vault with checkpointDue := true } }
  else s.flushMap

/-- A map page is verified: its MAP_PAGE entry is logged; after the last one those that have become dirty meanwhile follow, then the
checkpoint (R406, R408). -/
def State.mapFlushed (s : State) (i phys : Nat) : State :=
  if !s.vault.flushing.contains i then s
  else
    let s := { s with vault := { s.vault with flushing := s.vault.flushing.filter (· ≠ i) } }
    let s := s.appendMap [.mapPage i phys] none none
    if s.vault.flushing.isEmpty then s.flushMap else s

/-- The checkpoint's pages are verified: the copy is valid and its blocks are closed, log space older than its position is reused, and what
waited for that is written (R397, R408). -/
def State.checkpointDone (s : State) : State :=
  match s.vault.writing with
  | none => s
  | some (c, _) =>
    let v := s.vault
    let s := { s with vault := { v with
      writing := none, checkpointDue := false,
      copy0 := if c.copy = 0 then some c else v.copy0,
      copy1 := if c.copy = 1 then some c else v.copy1,
      mapRecs := v.mapRecs.keep fun q r => q ≥ c.mapSeq || !r.committed } }
    let s := (s.closeUse (.checkpoint c.copy)).writeHeld.cullBlocks
    if v.checkpointDue then s.startCheckpoint else s

/-! ### Uncorrectable sectors (R419) -/

/-- A vault-volume sector is lost: a SECTOR_LOST entry, the loss report and CACHE_LOST (R97, R419). -/
def State.blockGone (s : State) (vol lba : Nat) : State :=
  (s.appendMap [.sectorLost vol lba] none none).addLoss vol [⟨lba, 1, 0xFFFFFF, 3⟩] true

/-- A map page is rebuilt: a sector that the scan does not find at its place, with a good back-pointer, is lost, and the page is written again
(R410, R419). -/
def State.rebuildMapPage (s : State) (i : Nat) : State :=
  let vol := i / 2 ^ 16
  let gone := (s.vault.map.filter fun (e : Nat × VMap) => mapPageOf (e.1 / 2 ^ 40) (e.1 % 2 ^ 40) = i && !e.2.lost
      && !(match s.vault.sectors.look e.2.phys with
        | some x => x.what = .user vol (e.1 % 2 ^ 40) && backPointerGood x.spare && x.corrected.isSome
        | none => false)).map fun e => e.1 % 2 ^ 40
  let s := s.over gone fun s l => s.blockGone vol l
  { s with vault := { s.vault with dirtyPages := uniq (s.vault.dirtyPages ++ [i]) } }

/-- Stored records of a sector are dropped: EV_RECORDS_DROPPED with the first and their number (R419, R678, R696). -/
def State.recordsDrop (s : State) (k : Nat) (lost : List (BitVec 32)) : State :=
  let (gone, kept) := s.recorder.records.partition fun r => lost.contains r.seq
  match gone with
  | [] => s
  | r :: _ =>
    let left := (s.recorder.parts.read (k - 16) []).filter fun q => !lost.contains q
    let parts := if left.isEmpty then s.recorder.parts.del (k - 16) else s.recorder.parts.put (k - 16) left
    ({ s with recorder := { s.recorder with records := kept, parts := parts } }).event Ev.recordsDropped 0 r.seq.toNat gone.length 0

/-- The records of a sector that is lost are dropped (R419, R678). -/
def State.recordsLost (s : State) (k : Nat) : State := if k < 16 then s else s.recordsDrop k (s.recorder.parts.read (k - 16) [])

/-- A sector of records has been read: those whose CRC fails are dropped (R671, R678). -/
def State.recordsCheck (s : State) (addr : Nat) : State :=
  match s.vault.sectors.look addr with
  | none => s
  | some x => match x.what with
    | .records k =>
      if k < 16 || !s.sectorLive addr then s
      else s.recordsDrop k (((s.recorder.parts.read (k - 16) []).zipIdx.filter fun e =>
        let r := bytesAt x.data (32 * e.2) 32
        crc32c (r.take 28) ≠ BitVec.ofNat 32 (numAt r 28 4)).map (·.1))
    | _ => s

/-- A sector that stays uncorrectable is handled by its space; the event names the space and the index of its LOGICAL_ID (R391, R419,
R428). -/
def State.vaultLost (s : State) (addr : Nat) : State :=
  match s.vault.sectors.look addr with
  | none => s
  | some x =>
    let s := s.event Ev.vaultUncorrectable (vdie (vblockOf addr)) addr (x.what.id / 2 ^ 44) (x.what.id % 2 ^ 44)
    let used := s.sectorLive addr
    let s := { s with vault := { s.vault with
      uncorrectable := s.vault.uncorrectable + 1,
      sectors := s.vault.sectors.upd addr fun x => { x with corrected := none } } }
    match x.what with
    | .user v l => if used && namesSector s.vault.map (vkey v l) addr then s.blockGone v l else s
    | .journal q _ =>
      match s.journal.recs.look q with
      | some r =>
        s.demand (if r.img.kind = .write then
            s.stripesOfBlocks r.img.vol (span r.img.firstLba r.img.payload.length)
          else if r.img.kind = .destage || r.img.kind = .intent then [(r.img.region, r.img.stripe)] else [])
      | none => s
    | .mapLog _ _ => s
    | .mapPage i _ => if used then s.rebuildMapPage i else s
    | .checkpoint k _ =>
      if !used then s
      else
        let v := s.vault
        { s with vault := { v with copy0 := if k = 0 then none else v.copy0, copy1 := if k = 1 then none else v.copy1 } }.startCheckpoint
    | .firmware k _ =>
      let gone (x : FwSlot) : FwSlot := { x with valid := false, partialValid := false }
      if !used then s
      else { s with mgmt := if k = 0 then { s.mgmt with slotA := gone s.mgmt.slotA } else { s.mgmt with slotB := gone s.mgmt.slotB } }
    | .records k => if used then s.recordsLost k else s
    | .gauge _ => s
    | .dump _ _ => s

/-! ### What wear moves and collection take (R396, R411) -/

/-- The FREE block of most life used that R399 lets be opened; where no FREE block has been used before, a new one (R396). -/
def State.mostWornFree (s : State) : Option (Nat × Nat) :=
  let dies := (span 0 16).filter fun d => s.mayOpen d (.wear false)
  let used := (s.vault.blocks.filter fun e => e.2.st = .free && dies.contains (vdie e.1)).map fun e => (e.2.life, e.1)
  match (sortBy (fun a b => a.1 > b.1 || (a.1 = b.1 && a.2 ≤ b.2)) used).head? with
  | some e => some e
  | none => dies.findSome? fun d =>
    let u := firstUnlisted s.vault.blocks (s.vault.blocks.length + 1) (d * 16384)
    if vdie u = d then some (0, u) else none

/-- The block that a wear move empties and the one it opens: the FULL block of least life used, where it lies more than 0.05 below the mean,
and the FREE block of most life used that may be opened (R396). -/
def State.wearPick (s : State) : Option (Nat × Nat) :=
  let full := (s.vault.blocks.filter fun e => e.2.st = .full && !s.inCopy e.1).map fun e => (e.2.life, e.1)
  let (sum, n) := s.lifeSum
  match (sortBy (fun a b => a.1 < b.1 || (a.1 = b.1 && a.2 ≤ b.2)) full).head?, s.mostWornFree with
  | some (l, b), some (_, d) => if n * (l + 5000000) ≥ sum then none else some (b, d)
  | _, _ => none

/-- Do migration and collection run as foreground work outside the governor (R413)? -/
def State.gcOutside (s : State) : Bool := s.freeCount < 1024 || (s.vault.gcForeground && s.freeCount < 2048)

/-- Is migration to run, at a FREE_COUNT (R411)? -/
def State.migrationDue (s : State) (free : Nat) : Bool := 2 * (s.hotBlocks : Int) > s.writeBuffer || free < 4096

/-- The block that migration takes: the FULL hot-user block that closed first (R411). -/
def State.migrationSource (s : State) : Option Nat :=
  let src := (s.vault.blocks.filter fun e => e.2.use = .hot && e.2.st = .full && !s.inCopy e.1).map fun e => (e.2.closedAt, e.1)
  ((sortBy (fun a b => a.1 ≤ b.1) src).head?).map (·.2)

/-- The block that tri-level collection takes: the FULL cold block with the fewest valid sectors, ties to the lower life used (R411). -/
def State.collectionSource (s : State) : Option Nat :=
  let tri := (s.vault.blocks.filter fun e => e.2.use = .cold && e.2.st = .full && !s.inCopy e.1).map fun e =>
    ((s.validOf e.1).length, e.2.life, e.1)
  ((sortBy (fun a b => a.1 < b.1 || (a.1 = b.1 && (a.2.1 < b.2.1 || (a.2.1 = b.2.1 && a.2.2 ≤ b.2.2)))) tri).head?).map (·.2.2)

/-- Has migration or collection a block to take inside the governor (R376, R411, R413)? -/
def State.gcWaits (s : State) : Bool :=
  !s.gcOutside && ((s.migrationDue s.freeCount && s.migrationSource.isSome)
    || (s.freeCount < 4096 && s.collectionSource.isSome))

end Sys2Proof.Machine
end

