-- ==== Sys2Proof/Machine/Journal.lean ====
section
/-! DEFINITION. The vault journal: records, their place in the ring, commit, retirement and reclaim (R210 to R221). -/

namespace Sys2Proof.Machine

open Sys2Proof

/-- Segments of a record: its descriptor segment and its payload (R210). -/
def segmentsOfRec (r : JRecImage) : Nat := 1 + r.payload.length

/-- Segments of the ring: 8 GiB (R210). -/
def ringSegments : Nat := 2097152

/-- Segments in use, from the oldest record not reclaimed. -/
def State.ringUsed (s : State) : Nat := (s.journal.recs.vals.map fun r => segmentsOfRec r.img).sum

/-- How far a kind of record may fill the ring (R220). -/
def kindLimit : JKind → Nat
  | .write => ringSegments - 65536
  | .destage => ringSegments - 4096
  | .intent => ringSegments - 4096
  | .retire => ringSegments
  | .pad => ringSegments

/-- Do records fit the ring now, and the PAD records that fill their last page (R211, R220)? -/
def State.fitsRing (s : State) (l : List JRecImage) : Bool :=
  match l with
  | [] => true
  | r :: _ =>
    let n := (l.map segmentsOfRec).sum
    s.ringUsed + n ≤ kindLimit r.kind && s.ringUsed + (n + 3) / 4 * 4 ≤ ringSegments

/-- A record with nothing but a kind. -/
def bareRec (kind : JKind) : JRecImage :=
  { seq := 0, kind := kind, method := 0, vol := 0, stripe := 0, region := 0, template := 0, regionGen := 0, gen := 0,
    posMask := 0, segMask := 0, firstLba := 0, chainIndex := 0, chainCount := 0, descs := [], payload := [] }

/-- Records' segments as they are programmed (R210, R212). -/
def recContent (l : List JRecImage) : VContent :=
  l.flatMap fun r => (trim r.segment :: r.payload).zipIdx.map fun e => (VLogical.journal r.seq e.2, 0, e.1)

/-- Write records to the ring: they take consecutive sequence numbers, PAD records fill the last page, and the pages are
programmed in the journal stream. Answers the numbers of the records (R210 to R215). -/
def State.writeRecs (s : State) (l : List JRecImage) : List Nat × State :=
  let segs := (l.map segmentsOfRec).sum
  let pads := List.replicate ((4 - segs % 4) % 4) (bareRec .pad)
  let seq := s.journal.nextSeq
  let all := ((l ++ pads).zipIdx).map fun e => { e.1 with seq := seq + e.2 }
  let content := recContent all
  let pages := pagesOf content.length content
  let seqsIn (p : VContent) : List Nat := uniq (p.map fun e => match e.1 with | .journal q _ => q | _ => 0)
  let recs := all.foldl (fun m r =>
    Store.put m r.seq { img := r, pages := (pages.filter fun p => (seqsIn p).contains r.seq).length }) s.journal.recs
  let s := { s with journal := { s.journal with recs := recs, nextSeq := seq + all.length } }
  let s := (s.over pages fun s p => s.programPage .journalStream p ((seqsIn p).map VFor.journalRec)).flushOpens
  (span seq l.length, s)

/-- Set the journal references of the frames a WRITE record holds: the record's blocks at its generation (R185, R217). -/
def State.noteRefs (s : State) (q : Nat) (r : JRecImage) : State :=
  s.over (span 0 r.payload.length) fun s k =>
    { s with frames := s.frames.each fun _ x =>
        if x.vol = r.vol && x.lba = r.firstLba + k && x.gen = r.gen && (x.st = .dirty || x.st = .destaging)
        then { x with jref := some (q, k) } else x }

/-- Does a record of a task still wait for ring room (R203, R220)? -/
def State.recordWaits (s : State) (t : Nat) : Bool := s.journal.waiting.any fun w => w.task = some t

/-- Records are written, and the command or task that waits for them learns their numbers. Answers the numbers. -/
def State.putRecs (s : State) (l : List JRecImage) (acc task : Option Nat) : List Nat × State :=
  let (qs, s) := s.writeRecs l
  let s := s.over (qs.zip l) fun s e => if e.2.kind = .write then s.noteRefs e.1 e.2 else s
  let s := match acc with
    | some a => s.updCmd a fun c => { c with journalSeqs := c.journalSeqs ++ qs }
    | none => s
  (qs, match task with
    | some t => { s with tasks := s.tasks.upd t fun x => { x with journal := x.journal ++ qs } }
    | none => s)

/-- Records are written where the ring has room and nothing waits before them, else they wait (R220). The command or
task named learns the numbers. -/
def State.appendRecs (s : State) (l : List JRecImage) (acc task : Option Nat) : State :=
  let full := !s.fitsRing l
    || s.journal.waiting.any fun w => (w.imgs.map (·.kind)).head? = (l.map (·.kind)).head?
  if full then
    { s with journal := { s.journal with waiting := s.journal.waiting ++ [⟨l, s.now, acc, task⟩] } }
  else
    (s.putRecs l acc task).2

/-! ### Items and retirement (R213, R217 to R219) -/

/-- Is every item of a record retired? -/
def JRec.allRetired (r : JRec) : Bool :=
  match r.img.kind with
  | .retire => true
  | .pad => true
  | .destage => r.retired.contains 0x1FF
  | .intent => r.retired.contains 0x1FF
  | .write => r.retired.contains 0x1FF || (span 0 r.img.payload.length).all r.retired.contains

/-- Reclaim from the oldest end (R219), which replay holds still (R226), with fuel. -/
def reclaimFrom : Store JRec → Nat → Store JRec × Nat
  | [], n => ([], n)
  | (q, r) :: t, n => if r.committed && r.allRetired then reclaimFrom t (n + segmentsOfRec r.img) else ((q, r) :: t, n)

def State.reclaimJournal (s : State) : State :=
  if s.life.starting then s
  else
    let (recs, n) := reclaimFrom s.journal.recs s.journal.oldestPos
    { s with journal := { s.journal with recs := recs, oldestPos := n % ringSegments } }

/-- A WRITE record's blocks not yet retired. -/
def JRec.liveBlocks (r : JRec) : List Nat :=
  if r.retired.contains 0x1FF then [] else (span 0 r.img.payload.length).filter fun k => !r.retired.contains k

/-- While the ring is 75 % full or more, the stripes of the 1,024 oldest WRITE records not yet retired are demanded
(R221). -/
def State.journalPressure (s : State) : State :=
  if 4 * s.ringUsed < 3 * ringSegments then s
  else
    let old := (s.journal.recs.vals.filter fun r => r.img.kind = .write && !r.liveBlocks.isEmpty).take 1024
    s.over old fun s r => s.demand (s.stripesOfBlocks r.img.vol (r.liveBlocks.map (r.img.firstLba + ·)))

/-- Write the queued items in RETIRE records of at most 496, while `least` or more are queued and the ring has room; what finds none
waits (R211, R218, R220). With fuel. -/
def State.flushRetire : Nat → State → Nat → State
  | 0, s, _ => s
  | n + 1, s, least =>
    let now := s.journal.retireQ.take 496
    let r := { bareRec .retire with descs := now.map fun e => JDesc.item e.2.1 e.1 }
    if now.isEmpty || s.journal.retireQ.length < least || !s.fitsRing [r] then s
    else
      let (qs, s) := s.writeRecs [r]
      let tasks := uniq (now.filterMap (·.2.2))
      State.flushRetire n { s with journal := { s.journal with
        retireQ := s.journal.retireQ.drop 496, retireTasks := s.journal.retireTasks.put (qs.getD 0 0) tasks } } least

/-- Queue retire items (R217); the interlock of the task, where one is named, waits for their commit (R216). At 496 items a RETIRE
record is written at once (R218). -/
def State.queueRetire (s : State) (items : List (Nat × Nat)) (task : Option Nat) : State :=
  let fresh := items.filter fun e =>
    (match s.journal.recs.look e.1 with | some r => !r.retired.contains e.2 | none => false)
      && !s.journal.retireQ.any fun x => x.1 = e.1 && x.2.1 = e.2
  if fresh.isEmpty then s
  else
    let s := { s with journal := { s.journal with
      retireQ := s.journal.retireQ ++ fresh.map (fun e => (e.1, e.2, task)),
      retireAt := if s.journal.retireQ.isEmpty then s.now else s.journal.retireAt } }
    State.flushRetire (s.journal.retireQ.length + 1) s 496

/-- All that is queued is written now (R218). -/
def State.retireNow (s : State) : State := State.flushRetire (s.journal.retireQ.length + 1) s 1

/-- The waiting records that fit are written, each kind in its own order (R220). A task that waits only for the retirement of its
records queues the item of one written this late (R203, R217). -/
def State.journalRetry (s : State) : State :=
  let (left, s) := s.journal.waiting.foldl (fun (acc : List JWait × State) w =>
    let behind := acc.1.any fun u => (u.imgs.map (·.kind)).head? = (w.imgs.map (·.kind)).head?
    if behind || !acc.2.fitsRing w.imgs then (acc.1 ++ [w], acc.2)
    else
      let (qs, s) := acc.2.putRecs w.imgs w.acc w.task
      let late : Bool := match w.task.bind s.tasks.look with | some x => x.stage == .retiring | none => false
      (acc.1, if late then s.queueRetire (qs.map fun q => (q, 0x1FF)) w.task else s)) ([], s)
  { s with journal := { s.journal with
      waiting := left, fullRecorded := if left.isEmpty then false else s.journal.fullRecorded } }

/-- Is a RETIRE record due and held back only by the ring (R220)? -/
def State.retireWaits (s : State) : Bool :=
  !s.journal.retireQ.isEmpty && s.now ≥ s.journal.retireAt + 100

/-- A page that holds segments of a record has been verified. -/
def State.journalPageDone (s : State) (q : Nat) : State :=
  { s with journal := { s.journal with recs := s.journal.recs.upd q fun r => { r with pages := r.pages - 1 } } }

/-- The records that are ready to commit, in SEQ order (R215). -/
def readyRecs : Store JRec → List Nat
  | [] => []
  | (q, r) :: t => if r.committed then readyRecs t else if r.pages = 0 then q :: readyRecs t else []

/-- A record commits: frames it holds are journaled, and a RETIRE record's items are retired (R140, R215, R217). -/
def State.recCommitted (s : State) (q : Nat) : State :=
  match s.journal.recs.look q with
  | none => s
  | some r =>
    let s := { s with journal := { s.journal with recs := s.journal.recs.put q { r with committed := true } } }
    match r.img.kind with
    | .write => { s with frames := s.frames.each fun _ x => match x.jref with
        | some (q', _) => if q' = q then { x with journaled := true } else x
        | none => x }
    | .retire => s.over r.img.descs fun s d => match d with
      | .item k q' => { s with journal := { s.journal with
          recs := s.journal.recs.upd q' fun r => { r with retired := if r.retired.contains k then r.retired else r.retired ++ [k] } } }
      | .seg .. => s
    | _ => s

/-- Does a task still wait for retire items: queued, or in a RETIRE record that has not committed (R216)? -/
def State.retirePending (s : State) (t : Nat) : Bool :=
  s.journal.retireQ.any (fun e => e.2.2 = some t) || s.journal.retireTasks.any fun e => e.2.contains t

end Sys2Proof.Machine
end

