-- ==== Sys2Proof/Machine/Stripes.lean ====
section
/-! DEFINITION. What every stripe task shares: the interlock, the budget classes, member requests in the drive ports,
and the end of a task (R178, R279 to R286, R377). -/

namespace Sys2Proof.Machine

open Sys2Proof

/-- Add follow-up work of this step. -/
def State.later (s : State) (t : Todo) : State := { s with todo := s.todo ++ [t] }

/-! ### Budget classes (R351, R376, R377): 0 REBUILD, 1 COPYBACK, 2 SCRUB, 3 VAULT_GC, 4 VAULT_PATROL, 5 DESTAGE_AHEAD -/

/-- A class may start a unit of work (R377). -/
def State.mayStart (s : State) (cls : Nat) : Bool := s.gov.allowance.getD cls 0 > 0

/-- Charge a unit's bytes when it starts (R377). -/
def State.charge (s : State) (cls bytes : Nat) : State :=
  { s with gov := { s.gov with allowance := s.gov.allowance.set cls (s.gov.allowance.getD cls 0 - bytes) } }

/-! ### The interlock (R178) -/

/-- The key of a stripe's interlock. -/
def lockKey (r k : Nat) : Nat := r * 4096 + k

def State.lock (s : State) (r k : Nat) : Lock := s.locks.read (lockKey r k) {}

def State.setLock (s : State) (r k : Nat) (l : Lock) : State := { s with locks := s.locks.putD {} (lockKey r k) l }

/-- May a request be granted with this lock, apart from those that wait? -/
def Lock.open (l : Lock) (excl : Bool) : Bool :=
  l.excl.isNone && l.upgrade.isNone && (!excl || l.shared.isEmpty)

/-- Hold a lock. -/
def Lock.hold (l : Lock) (t : Nat) (excl : Bool) : Lock :=
  if excl then { l with excl := some t } else { l with shared := l.shared ++ [t] }

/-- Request the interlock of a stripe: granted at once where nothing holds it back, else queued in arrival order. -/
def State.requestLock (s : State) (t r k : Nat) (excl : Bool) : State :=
  let l := s.lock r k
  if l.open excl && l.queue.isEmpty then (s.setLock r k (l.hold t excl)).later (.start t)
  else s.setLock r k { l with queue := l.queue ++ [(t, excl)] }

/-- Release what a task holds or waits for on a stripe. -/
def State.releaseLock (s : State) (t r k : Nat) : State :=
  let l := s.lock r k
  s.setLock r k { shared := l.shared.filter (· ≠ t), excl := if l.excl = some t then none else l.excl,
                  queue := l.queue.filter (·.1 ≠ t), upgrade := if l.upgrade = some t then none else l.upgrade }

/-- Grant what waits: the upgrade first, then the queue in order (R178, R255). -/
def State.grantLock (s : State) (r k : Nat) : State :=
  let l := s.lock r k
  match l.upgrade with
  | some u =>
    if l.shared = [u] && l.excl.isNone then
      (s.setLock r k { l with shared := [], excl := some u, upgrade := none }).later (.start u)
    else s
  | none =>
    match l.queue with
    | [] => s
    | (t, true) :: rest =>
      if l.open true then (s.setLock r k { l with queue := rest, excl := some t }).later (.start t) else s
    | (_, false) :: _ =>
      if l.open false then
        let run := (l.queue.takeWhile fun e => !e.2).map (·.1)
        let s := s.setLock r k { l with queue := l.queue.drop run.length, shared := l.shared ++ run }
        s.over run fun s t => s.later (.start t)
      else s

/-! ### Tasks -/

def State.updTask (s : State) (t : Nat) (f : Task → Task) : State := { s with tasks := s.tasks.upd t f }

/-- Start a task on a stripe; `excl` none takes no interlock (a hedge works under its READ's). -/
def State.newTask (s : State) (x : Task) (excl : Option Bool) : Nat × State :=
  let (id, s) := s.newId
  let s := { s with tasks := s.tasks.put id x }
  (id, match excl with
    | some e => s.requestLock id x.region x.stripe e
    | none => s.later (.start id))

/-- Content of a cell a task has in hand. -/
def Task.cell (t : Task) (p g : Nat) : Option Block :=
  (t.got.find? fun e => e.1 = p && e.2.1 = g).map (·.2.2)

/-- Add content, replacing what the cell held. -/
def Task.gain (t : Task) (cells : List (Nat × Nat × Block)) : Task :=
  { t with got := (t.got.filter fun e => !cells.any fun c => c.1 = e.1 && c.2.1 = e.2.1) ++ cells }

/-- The positions whose content one segment of the task holds, as (position, block). -/
def Task.column (t : Task) (g : Nat) : List (Nat × Block) :=
  (t.got.filter fun e => e.2.1 = g).map fun e => (e.1, e.2.2)

/-! ### Member requests (R279 to R288) -/

/-- I/O queue pairs and their depth (R282). -/
def Port.queues (p : Port) : Nat × Nat :=
  match p.info with
  | some i => (min 64 (min (i.nsqa + 1) (i.ncqa + 1)), min 1024 (i.mqes + 1))
  | none => (1, 2)

/-- The queues of a class: 1 to ⌈Q ÷ 2⌉ for foreground, the others for background; one queue carries both (R283). -/
def Port.queuesOf (p : Port) (fg : Bool) : List Nat :=
  let (q, _) := p.queues
  let f := (q + 1) / 2
  if q = 1 then [1] else if fg then span 1 f else span (f + 1) (q - f)

/-- Commands on a queue that the drive has not completed: outstanding or in quarantine (R284, R287). -/
def Port.onQueue (p : Port) (q : Nat) : List Nat :=
  p.reqs.filterMap fun e => match e.2.slot with | some (a, c) => if a = q then some c else none | none => none

/-- The queue and command identifier with which a command would be submitted now: of the queues of its class with fewer than E − 1
commands on them the one with the fewest, then the lowest, and the lowest identifier not in use on it. Which queue of its class
carries a command, and how identifiers are assigned, no rule fixes (R283, R284, R287, R312; DESIGN CHOICE 22). -/
def Port.freeSlot (p : Port) (fg : Bool) : Option (Nat × Nat) :=
  let (_, e) := p.queues
  let l := ((p.queuesOf fg).map fun q => (p.onQueue q, q)).filter fun x => x.1.length < e - 1
  match sortBy (fun a b => a.1.length < b.1.length || (a.1.length = b.1.length && a.2 ≤ b.2)) l with
  | [] => none
  | (used, q) :: _ => some (q, ((span 0 (used.length + 1)).find? fun c => !used.contains c).getD 0)

/-- The queue and command identifier of a request, as events carry them (R312). -/
def Req.slotNo (r : Req) : Nat × Nat := r.slot.getD (0, 0)

/-- The MSI-X vector of an I/O completion queue: one of its own while the drive offers enough, else the vectors shared in order
(R282). The admin queue has vector 0 (DESIGN CHOICE 22). -/
def Port.vectorOf (p : Port) (q : Nat) : Nat :=
  match p.info with
  | some i => if i.vectors > p.queues.1 then q else q % max 1 i.vectors
  | none => 0

/-- The longest that a completion waits in a queue for its examination, in µs (R282). -/
def examineUs : Nat := 10

/-- The port may issue commands to its drive. -/
def Port.canIssue (p : Port) : Bool :=
  p.linkUp && p.ctl = .ready && p.resetWhy.isNone && p.linkDownAt.isNone && !p.unusable

/-- Do two requests address bytes of the drive in common (R281)? -/
def Req.overlaps (a b : Req) : Bool :=
  a.off < b.off + 4096 * b.segs.length && b.off < a.off + 4096 * a.segs.length

/-- May a request be issued apart from its turn and room: the drive takes commands, a write is not held back by a fence, a settling
drive or a reservation not yet taken, and the region's entry is on the log drives (R290, R295, R310, R465, R502, R519)? -/
def State.mayIssue (s : State) (p : Port) (r : Req) : Bool :=
  p.canIssue && !s.lehrOn && r.submittedAt.isNone
    && (!r.write || (s.life.st ≠ .fenced && p.settle.isNone && !p.preempting))
    && (r.meta_ || !s.pair.unlogged r.region)

/-- Must a request wait for room on its queues or for an earlier one that overlaps it (R281, R284)? -/
def Port.holdsBack (p : Port) (id : Nat) (r : Req) : Bool :=
  (p.freeSlot r.fg).isNone || p.reqs.any fun e => e.1 < id && (e.2.write || r.write) && e.2.overlaps r

/-- The LBA size of a port's namespace (R64, R277). -/
def Port.lbaBytes (p : Port) : Nat := match p.info with | some i => i.lbaSize | none => 4096

/-- Submit a request to the drive: its byte range in the namespace's LBAs, FUA on every write, and SGLs where the drive supports them
(R64, R279, R280). -/
def State.submitReq (s : State) (port id : Nat) (r : Req) : State :=
  let p := s.port port
  let slot := (p.freeSlot r.fg).getD (1, 0)
  let s := s.setPort port { p with reqs := p.reqs.put id { r with submittedAt := some s.now, slot := some slot } }
  let size := max 1 p.lbaBytes
  s.emit (.driveCommand port
    { req := id, write := r.write, queue := slot.1, cid := slot.2, slba := r.off / size, blocks := 4096 * r.segs.length / size,
      fua := r.write, sgl := (match p.info with | some i => i.sgl | none => false), data := r.data })

/-- Issue the requests of a class in arrival order: one that must wait for its turn holds those behind it (R281, R284). -/
def State.pumpClass (port : Nat) : List Nat → State → State
  | [], s => s
  | id :: t, s =>
    match (s.port port).reqs.look id with
    | none => State.pumpClass port t s
    | some r =>
      if !s.mayIssue (s.port port) r then State.pumpClass port t s
      else if (s.port port).holdsBack id r then s
      else State.pumpClass port t (s.submitReq port id r)

/-- Issue what a port may issue: foreground requests first, each class in arrival order (R284). -/
def State.pumpPort (s : State) (port : Nat) : State :=
  let ids (fg : Bool) : List Nat := ((s.port port).reqs.filter fun e => e.2.fg == fg && e.2.submittedAt.isNone).map (·.1)
  State.pumpClass port (ids false) (State.pumpClass port (ids true) s)

/-- Issue what every port may issue. -/
def State.pumpAll (s : State) : State := s.over s.ports.keys fun s p => s.pumpPort p

/-- Runs of consecutive segments, each at most `most` long (R233, R280). -/
def runsOf (most : Nat) (l : List Nat) : List (List Nat) :=
  (l.foldl (fun (acc : List (List Nat)) g =>
    match acc with
    | run :: t => if run.getLastD 0 + 1 = g && run.length < most then (run ++ [g]) :: t else [g] :: acc
    | [] => [[g]]) []).reverse

/-- Segments a command to the port's drive may carry (R280): MDTS in 4 KiB units, 0 for no limit. -/
def Port.mostSegs (p : Port) : Nat := match p.info with | some i => if i.mdts = 0 then 64 else i.mdts | none => 64

/-- The byte offset of a member request: its row, its stripe and its first segment (R64, R65). -/
def State.byteOff (s : State) (r : Req) : Nat :=
  let e := s.region r.region
  2 ^ 30 + r.row * (chunkBlocks e.chunkCode * 4096) + r.stripe * ((s.tmpl e.template).strip * 4096) + r.segs.headD 0 * 4096

/-- A member request is handed to a port with the epochs of R653: answered ABSENT where the drive is a member no longer (R294), the
port is powered off, or its boundary says so (R654), else accepted and issued when it may be. -/
def State.askPort (s : State) (port : Nat) (r : Req) : Nat × State :=
  let (id, s) := s.newId
  let r := { r with off := if r.meta_ then r.off else s.byteOff r, slot := none, dest := s.viewOf firmwareIsland port,
                    src := (s.island firmwareIsland).epoch }
  if s.memberGone port || (s.port port).unusable || (s.boundary port r.dest).isSome then
    (id, s.later (.reqDone port id r .absent))
  else
    let p := s.port port
    let s := s.setPort port { p with reqs := p.reqs.put id r }
    (id, s.pumpPort port)

/-- Member bytes of a task count against its class: those charged when it started are used first, and what goes beyond them is charged
now (R351, R377). -/
def State.spend (s : State) (t bytes : Nat) : State :=
  match s.tasks.look t with
  | none => s
  | some x => match x.cls with
    | none => s
    | some c => (s.updTask t fun x => { x with paid := x.paid - bytes }).charge c (bytes - x.paid)

/-- The bytes of a member request that has moved them for rebuild work are counted in the pool that it was for (R353). -/
def State.countRebuildBytes (s : State) (r : Req) : State :=
  match r.rebuild with
  | none => s
  | some k => { s with pools := s.pools.upd k fun p =>
    { p with rebuildBytes := min (2 ^ 64 - 1) (p.rebuildBytes + 4096 * r.segs.length) } }

/-- The I/O of a task goes on the queues for foreground work: all but background I/O, among which no destage is (R283). -/
def Task.fgIo (x : Task) : Bool := x.fg || x.kind == .destage

/-- Ask for segments of a position at a place: one request for each run. -/
def State.askCells (s : State) (t : Nat) (write : Bool) (pos : Nat) (place : Nat × Nat) (cells : List (Nat × Block))
    (hedgeable counted : Bool) : State :=
  match s.tasks.look t with
  | none => s
  | some x =>
    s.over (runsOf (s.port place.1).mostSegs (cells.map (·.1))) fun s run =>
      let r : Req := { task := t, write := write, fg := x.fgIo, region := x.region, stripe := x.stripe, pos := pos,
                       segs := run, row := place.2,
                       data := if write then run.map fun g => ((cells.find? (·.1 = g)).map (·.2)).getD [] else [],
                       gen := (s.region x.region).gen, acceptedAt := s.now, rebuild := if x.cls = some 0 then some (s.region x.region).pool else none,
                       hedgeable := hedgeable, counted := counted }
      let (id, s) := (s.spend t (4096 * run.length)).askPort place.1 r
      s.updTask t fun x => if write then { x with writes := x.writes ++ [(id, pos)] } else { x with reads := x.reads ++ [(id, pos)] }

/-- Issue a failed request of a task once more, for the same segments at a place of its position (R227, R238, R321, R766): the hedge of
the read, where one runs, is the reissue's. -/
def State.reissue (s : State) (t old : Nat) (place : Nat × Nat) (r : Req) : State :=
  let again : Req := { r with row := place.2, gen := (s.region r.region).gen, acceptedAt := s.now, submittedAt := none,
                              softCounted := false, quarantined := none, retry := true }
  let (id, s) := (s.spend t (4096 * r.segs.length)).askPort place.1 again
  let s := s.updTask t fun x => if r.write then { x with writes := x.writes ++ [(id, r.pos)] }
    else { x with reads := x.reads ++ [(id, r.pos)], asked := x.asked ++ r.segs.map fun g => (r.pos, g),
                  hedged := x.hedged.map fun h => if h = old then id else h }
  { s with tasks := s.tasks.each fun _ y => match y.kind with
      | .hedge p q k => if p = t && q = old then { y with kind := .hedge p id k } else y
      | _ => y }

/-- Forget a task's requests: those not yet submitted leave their port; the results of the others find no task. -/
def State.dropReqs (s : State) (t : Nat) : State :=
  { s with ports := s.ports.each fun _ p =>
      { p with reqs := p.reqs.keep fun _ r => r.meta_ || r.task ≠ t || r.submittedAt.isSome } }

/-! ### Tile jobs (R127, R134 to R136) -/

/-- Does a tile take jobs (R132, R134)? -/
def State.tileEligible (s : State) (t : Nat) : Bool := (s.island (114 + t)).status = 0 && !s.mgmt.tilesOut.getLsbD t

/-- Queued input bytes of a tile (R134): those of the jobs that wait, without the job it runs (DESIGN CHOICE 55). -/
def Tile.queued (t : Tile) : Nat := (t.queue.map (·.bytes)).sum

/-- The eligible tile with room and the fewest queued input bytes; `not_` is the tile a retry avoids (R130, R134). -/
def State.bestTile (s : State) (not_ : Option Nat) (needRoom : Bool) : Option Nat :=
  let l := (span 0 48).filter fun t => s.tileEligible t && some t ≠ not_ && (!needRoom || (s.tile t).queue.length < 64)
  ((sortBy (fun a b => a.1 < b.1 || (a.1 = b.1 && a.2 ≤ b.2)) (l.map fun t => ((s.tile t).queued, t))).head?).map (·.2)

/-- A tile that idles starts its next job: foreground first, but the oldest background job after seven foreground jobs in
a row while one waited (R136). -/
def Tile.startNext (t : Tile) : Tile :=
  if t.running.isSome then t
  else
    let bg := t.queue.find? fun j => !j.fg
    let fg := t.queue.find? fun j => j.fg
    match bg, fg with
    | some b, some f =>
      if t.fgRun ≥ 7 then { t with running := some b, queue := t.queue.erase b, fgRun := 0 }
      else { t with running := some f, queue := t.queue.erase f, fgRun := t.fgRun + 1 }
    | some b, none => { t with running := some b, queue := t.queue.erase b, fgRun := 0 }
    | none, some f => { t with running := some f, queue := t.queue.erase f, fgRun := 0 }
    | none, none => t

/-- Queue a job on a tile whose boundary lets it in, with the epochs of its request (R653). -/
def State.giveTile (s : State) (t : Nat) (j : Job) : State :=
  let i := 114 + t
  let x := s.tile t
  let j := { j with dest := s.viewOf firmwareIsland i, src := (s.island firmwareIsland).epoch }
  s.setTile t { x with queue := x.queue ++ [j] }.startNext

/-- The tile that takes a new job. A job whose DEST_EPOCH its tile's boundary finds old is answered ABSENT, reason 1: the requester
learns the epoch from the reply and chooses a tile again, with fuel (R132, R134, R654, R657). -/
def State.tileFor : Nat → State → Option Nat → Option Nat × State
  | 0, s, _ => (none, s)
  | n + 1, s, not_ =>
    match s.bestTile (if (s.bestTile not_ false).isSome then not_ else none) true with
    | none => (none, s)
    | some t =>
      if (s.boundary (114 + t) (s.viewOf firmwareIsland (114 + t))).isNone then (some t, s)
      else State.tileFor n (s.learnEpoch firmwareIsland (114 + t)) not_

/-- Send a job: to a parison's home tile, else to the best tile; where every queue is full it waits for a place (R134,
R135). A retry goes to a different tile, where there is one (R130). -/
def State.sendJob (s : State) (j : Job) (home not_ : Option Nat) : State :=
  let (target, s) := match home with
    | some h => (if s.tileEligible h && (s.tile h).queue.length < 64 then some h else none, s)
    | none => State.tileFor 49 s not_
  match target with
  | some t => s.giveTile t j
  | none => { s with tileWait := s.tileWait ++ [j] }

/-! ### Staging (R199) -/

/-- Segments of the staging pool. -/
def stagingTotal : Nat := 65536

/-- The lowest free run of n segments among runs in use, as (first, length) pairs in rising order, from `at_`. -/
def freeRun (n : Nat) : List (Nat × Nat) → Nat → Option Nat
  | [], a => if a + n ≤ stagingTotal then some a else none
  | (b, m) :: t, a => if a + n ≤ b then some a else freeRun n t (b + m)

/-- Runs in use, rising. -/
def State.runsUsed (s : State) : List (Nat × Nat) :=
  sortBy (fun a b => a.1 ≤ b.1) (s.tasks.vals.filterMap (·.staging))

/-- The lowest destage table entry with VALID = 0 (R197), with fuel. -/
def freeEntry (m : Store Entry) : Nat → Nat → Option Nat
  | 0, _ => none
  | n + 1, i => if i ≥ 1048576 then none else if m.has i then freeEntry m n (i + 1) else some i

/-- Write a task's staged content to its run (R199). -/
def State.stage (s : State) (first : Nat) (cells : List (Nat × Nat × Block)) : State :=
  { s with staging := (cells.zipIdx).foldl (fun m e => m.put (first + e.2) e.1) s.staging }

/-- Free a staging run. -/
def State.freeStaging (s : State) (r : Option (Nat × Nat)) : State :=
  match r with
  | none => s
  | some (a, n) => { s with staging := s.staging.keep fun k _ => k < a || k ≥ a + n }

/-- Drop a task's tile jobs that still wait for a queue place. -/
def State.dropJobs (s : State) (t : Nat) : State :=
  let s := s.over (s.tileWait.filter fun j => j.task = some t) fun s j => s.unpin j.pins
  { s with tileWait := s.tileWait.filter fun j => j.task ≠ some t }

/-- End a task: its requests, entry, staging run, frame holds and interlock are released. -/
def State.endTask (s : State) (t : Nat) : State :=
  match s.tasks.look t with
  | none => s
  | some x =>
    let s := (s.dropReqs t).freeStaging x.staging
    let s := match x.entry with | some e => { s with table := s.table.del e } | none => s
    let s := s.dropJobs t
    let s := { s with tasks := s.tasks.del t }
    let s := { s with journal := { s.journal with waiting := s.journal.waiting.filter fun w => w.task ≠ some t } }
    let s := s.freeAll (x.fills.map (·.1) ++ x.late.flatMap (·.frames))
    s.releaseLock t x.region x.stripe

end Sys2Proof.Machine
end

