-- ==== Sys2Proof/Machine/Members.lean ====
section
/-! DEFINITION. Members and regions: failure of a member, region transitions, rebuild targets, the rebuild queue,
re-placement, moves and their completion (R89 to R102, R292 to R294, R313 to R345, R354). -/

namespace Sys2Proof.Machine

open Sys2Proof

end Sys2Proof.Machine

namespace Sys2Proof

/-! ### Positions and members (R313) -/

/-- The port a position homes on (R75). -/
def Region.home (e : Region) (p : Nat) : Nat := (basePlace e.bitmap e.row e.perm p).1

/-- Is a position affected by the member on a port (R313)? -/
def Region.affected (e : Region) (port p : Nat) : Bool :=
  match e.reloc p with
  | none => e.home p = port
  | some x => x.port = port

/-- First rank of R95: CRITICAL, or REBUILDING with CRIT = 1. -/
def Region.urgentRank (e : Region) : Bool := e.st = .critical || (e.st = .rebuilding && e.crit)

end Sys2Proof

namespace Sys2Proof.Machine

open Sys2Proof

/-- Positions of a region that a member affects. -/
def State.affectedBy (s : State) (r port : Nat) : List Nat :=
  (s.regionTmpl r).positions.filter fun p => (s.region r).affected port p

/-- Regions in use. -/
def State.usedRegions (s : State) : List Nat := (s.regions.filter fun e => e.2.st ≠ .free).map (·.1)

/-- Regions of a pool in use. -/
def State.poolRegions (s : State) (pool : Nat) : List Nat :=
  (s.regions.filter fun e => e.2.st ≠ .free && e.2.pool = pool).map (·.1)

/-- Drives that hold a chunk of the region: homes and targets (R318). -/
def State.holders (s : State) (r : Nat) : List Nat :=
  let e := s.region r
  bitsOf e.bitmap ++ e.relocs.map (·.port)

/-! ### Targets (R81, R318) -/

/-- The rank of a candidate for a position (R318). -/
def targetRank (seed : BitVec 32) (r p d : Nat) : Nat := (crc32c (toLe 4 seed.toNat ++ toLe 4 r ++ toLe 4 p ++ toLe 4 d)).toNat

/-- Choose a target for one position, given slots and drives taken in this pass (R318). -/
def State.targetFor (s : State) (r p : Nat) (taken : List Nat) (used : List (Nat × Nat)) : Option (Nat × Nat) :=
  let e := s.region r
  match s.pools.look e.pool with
  | none => none
  | some x =>
    let cands := (s.poolMembers e.pool).filter fun d => s.targetable d && !(s.holders r).contains d && !taken.contains d
    let ranked := (sortBy (fun a b => a.1 < b.1 || (a.1 = b.1 && a.2 ≤ b.2))
      (cands.map fun d => (targetRank x.seed r p d, d))).map (·.2)
    let n := used.length + 2
    let spare := if x.spare = 0 then none else
      ranked.findSome? fun d => (findTargetRow used d x.spare x.rows true ((n + 1) * x.spare) 0).map fun row => (d, row)
    match spare with
    | some t => some t
    | none => ranked.findSome? fun d => (findTargetRow used d x.spare x.rows false (2 * n) 0).map fun row => (d, row)

/-- Choose targets for positions in ascending order; the position that has none ends the choice (R318, R319). -/
def State.targetsFor (s : State) (r : Nat) : List Nat → List Nat → List (Nat × Nat) → Sum Nat (List Reloc)
  | [], _, _ => .inr []
  | p :: t, taken, used =>
    match s.targetFor r p taken used with
    | none => .inl p
    | some (d, row) =>
      match State.targetsFor s r t (taken ++ [d]) ((d, row) :: used) with
      | .inl q => .inl q
      | .inr l => .inr (⟨p, d, row, false⟩ :: l)

/-! ### Spare space (R353, R354) -/

/-- Free spare-row slots on ONLINE, SLOW and SPARE_ONLY members (R353): spare rows of each less those in use. -/
def State.spareFree (s : State) (pool : Nat) : Nat :=
  match s.pools.look pool with
  | none => 0
  | some x =>
    if x.spare = 0 then 0
    else
      let ports := (s.poolMembers pool).filter s.targetable
      let used := (s.slotsUsed pool).filter fun u => isSpareRow x.spare u.2 && ports.contains u.1
      ports.length * (x.rows / x.spare) - used.length

/-- The largest number of chunks any one ONLINE or SLOW member affects (R354). -/
def State.largestAffected (s : State) (pool : Nat) : Nat :=
  (((s.poolMembers pool).filter s.placeable).map fun d =>
    ((s.poolRegions pool).map fun r => (s.affectedBy r d).length).sum).foldl max 0

/-- EV_SPARE_LOW once while the condition holds (R354). -/
def State.spareCheck (s : State) (pool : Nat) : State :=
  match s.pools.look pool with
  | none => s
  | some x =>
    let free := s.spareFree pool
    let most := s.largestAffected pool
    if free < most then
      if x.spareLow then s
      else { s with pools := s.pools.put pool { x with spareLow := true } }.event Ev.spareLow pool pool free most
    else if x.spareLow then { s with pools := s.pools.put pool { x with spareLow := false } } else s

/-! ### The rebuild queue (R95, R315 to R317) -/

def State.updWork (s : State) (r : Nat) (f : RegionWork → RegionWork) : State := s.setWork r (f (s.workOf r))

/-- Order of two regions in the queue: rank, then promotion, the latest at the head, then index (R95, R352). -/
def State.before (s : State) (a b : Nat) : Bool :=
  let ra := b2n !(s.region a).urgentRank
  let rb := b2n !(s.region b).urgentRank
  let pa := (s.workOf a).promoted
  let pb := (s.workOf b).promoted
  ra < rb || (ra = rb && (pb < pa || (pa = pb && a ≤ b)))

/-- The queue in order. -/
def State.rebuildQueue (s : State) : List Nat :=
  sortBy s.before ((s.work.filter fun e => e.2.queued).map (·.1))

/-- Regions that hold a rebuild place. -/
def State.rebuilding (s : State) : List Nat := (s.work.filter fun e => e.2.place).map (·.1)

def State.enqueue (s : State) (r : Nat) : State := s.updWork r fun w => { w with queued := true }

/-! ### Stripe tasks of a region -/

/-- Background stripe tasks of a region: rebuild and copy. -/
def State.stripeTasks (s : State) (r : Nat) : List Nat :=
  (s.tasks.filter fun e => e.2.region = r && (e.2.kind = .rebuild || e.2.kind = .copy)).map (·.1)

def State.endStripes (s : State) (r : Nat) : State := s.over (s.stripeTasks r) fun s t => s.endTask t

/-! ### Loss of a region (R331) -/

/-- Is a region's work halted at its next stripe, the lowest at or above WATERMARK that is not complete (R323)? -/
def State.haltedNow (s : State) (r : Nat) : Bool :=
  let w := s.workOf r
  let k := (s.region r).watermark
  let next := (span k (w.done.length + 1)).find? fun i => !w.done.contains i
  w.halted.any fun h => some h.1 = next

/-- What stays of a region's work when its rebuild, move or re-placement is over: the check that is queued (R350). -/
def RegionWork.checkOnly (w : RegionWork) : RegionWork := { checkNext := w.checkNext, reportOnly := w.reportOnly }

/-- A region takes LOST: its work ends, incomplete targets are freed, and EV_REGION_LOST follows; destages that do not write yet take the
LOST row of R182 (R92, R315, R331, R767). WATERMARK, CRIT and REPLACE_PENDING are 0 (DESIGN CHOICE 54). -/
def State.regionLost (s : State) (r : Nat) : State :=
  let s := s.endStripes r
  let e := s.region r
  let s := s.updWork r RegionWork.checkOnly
  let s := s.over ((s.tasks.filter fun t => t.2.region = r && t.2.kind = .destage).map (·.1)) fun s t => s.later (.advance t)
  let s := s.updRegion r fun e => { e with st := .lost, crit := false, replacePending := false, watermark := 0,
                                           relocs := e.relocs.filter (·.complete) }
  match s.volumeOf r with
  | some v => s.volEvent Ev.regionLost v r v e.pool
  | none => s.event Ev.regionLost e.pool r 0 e.pool

/-! ### Re-placement (R83, R84, R320, R332) -/

/-- Place a new set of slots for a region, with the permutation id of R74 (R72, R332). -/
def State.placeAnew (s : State) (r : Nat) : Option Placement :=
  let e := s.region r
  match s.placeRegion e.pool (s.regionTmpl r).width (s.slotsUsed e.pool), s.pools.look e.pool with
  | some (row, map), some x => some ⟨map, row, permId x.seed r⟩
  | _, _ => none

/-- What R84 and R319 wait for: remember the slots in use and the drives there are. -/
def State.noteWait (s : State) (r : Nat) : State :=
  let pool := (s.region r).pool
  let seen := (s.slotsUsed pool, (s.poolMembers pool).filter s.targetable)
  s.updWork r fun w => { w with waits := some seen }

/-- May a region that found no target or no room try again: a slot has been freed or a drive added since (R84, R319)? A
SPARE_ONLY member that becomes ONLINE is no added drive (DESIGN CHOICE 54). -/
def State.maySeek (s : State) (r : Nat) : Bool :=
  match (s.workOf r).waits with
  | none => true
  | some (used, ports) =>
    let pool := (s.region r).pool
    let now := s.slotsUsed pool
    used.any (fun u => !now.contains u) || ((s.poolMembers pool).filter s.targetable).any fun d => !ports.contains d

/-- Start the re-placement of a region (R332): to RELOCATING where it is intact, else to REBUILDING; one that waits in the queue stays
there until it has a place. False where no row has room, and R84's record is made. -/
def State.startReplace (s : State) (r : Nat) : Bool × State :=
  match s.placeAnew r with
  | some n =>
    let lost := s.lostSet r
    let s := s.updRegion r fun e =>
      { e with replacePending := true, watermark := 0,
               st := if lost.isEmpty then .relocating else .rebuilding,
               crit := e.crit || (e.st = .critical) }
    (true, s.updWork r fun w => { w with replace := some n, done := [], halted := [], restartAt0 := false, waits := none })
  | none =>
    let e := s.region r
    (false, (s.event Ev.replaceNoSpace e.pool r (s.regionTmpl r).width e.pool).noteWait r)

/-! ### Moves (R339 to R343) -/

/-- Abandon a move or the re-placement of an intact region: the slot returns to what it held before with COMPLETE = 1, or is cleared,
or REPLACE_PENDING is, and the target is freed (R92, R343). A restart has dropped what the slot held before: the incomplete slot
of an evacuation is then cleared, that of a copyback, whose target is the position's own home, stays and is rebuilt (DESIGN
CHOICE 44). The change of STATE is an update of its own (DESIGN CHOICE 54). -/
def State.abandonMove (s : State) (r : Nat) : State :=
  let s := s.endStripes r
  match (s.workOf r).move with
  | none =>
    let s := s.updRegion r fun e =>
      { e with replacePending := false, watermark := 0,
               relocs := e.relocs.filter fun x => x.complete || basePlace e.bitmap e.row e.perm x.pos = (x.port, x.row) }
    s.updWork r fun w => { w with replace := none, done := [], halted := [] }
  | some m =>
    let s := s.updRegion r fun e =>
      { e with watermark := 0,
               relocs := match m.before_ with
                 | some b => e.relocs.map fun x => if x.pos = m.pos then { b with complete := true } else x
                 | none => e.relocs.filter fun x => x.pos ≠ m.pos }
    s.updWork r fun w => { w with move := none, done := [], halted := [] }

/-- Recompute the state of a region that is not being rebuilt, with CRIT where one more loss makes it LOST (R78), and queue it; what it looked for before, for a move or another lost set,
holds it back no longer (R92, R315, R316, R319). CRIT of a NORMAL or RELOCATING region stays 0, also where the template has g = 0 (DESIGN CHOICE 55). -/
def State.recompute (s : State) (r : Nat) : State :=
  let st := s.recomputed r
  if st = .lost then s.regionLost r
  else
    let s := s.updRegion r fun e => { e with st := st, crit := st = .critical }
    let s := s.updWork r fun w => { w with waits := none }
    if st = .degraded || st = .critical then (s.updWork r fun w => { w with halted := [] }).enqueue r else s.updWork r fun w => { w with queued := false }

/-! ### A further loss while rebuilding (R328 to R331, R336) -/

/-- Positions in the lost set that a rebuild must give a new slot: those on a gone member, whatever slot they have. -/
def State.unslotted (s : State) (r : Nat) : List Nat :=
  (s.lostSet r).filter fun p => s.memberGone ((s.region r).place p).1

/-- Write slots with COMPLETE = 0 for positions: the slot of a position that has one is rewritten, the others follow (R82). -/
def writeSlots (l fresh : List Reloc) : List Reloc :=
  (l.map fun x => (fresh.find? fun y => y.pos = x.pos).getD x) ++ fresh.filter fun y => !l.any fun x => x.pos = y.pos

/-- Would slots for these positions need a sixth (R320)? -/
def State.needsSixth (s : State) (r : Nat) (ps : List Nat) : Bool :=
  let e := s.region r
  e.relocs.length + (ps.filter fun p => (e.reloc p).isNone).length > 5

/-- CRIT from the lost set as it stands (R92). -/
def State.setCrit (s : State) (r : Nat) : State :=
  s.updRegion r fun e => { e with crit := critical (s.regionTmpl r) (s.lostSet r) }

/-- A REBUILDING region returns to the queue for want of a target or of room, and waits for a slot or a drive (R84, R330). -/
def State.backToQueue (s : State) (r : Nat) : State :=
  (s.updWork r fun w => { w with place := false, queued := true, restartAt0 := false }).noteWait r

/-- Stripes of a region in flight: issued and not complete (R322). -/
def State.flying (s : State) (r : Nat) : List Nat :=
  (s.stripeTasks r).filter fun t => match s.tasks.look t with | some x => !(s.workOf r).done.contains x.stripe | none => false

/-- R329, once no stripe of the region is in flight: new slots, WATERMARK 0 and CRIT from the new lost set; R330 where a
target is missing; R320 where a sixth slot would be needed. The stripes that are complete above WATERMARK are rebuilt again, so
their interlocks are released. -/
def State.furtherLoss (s : State) (r : Nat) : State :=
  let ps := s.unslotted r
  if !(s.flying r).isEmpty then s.updWork r fun w => { w with restartAt0 := true }
  else if ps.isEmpty then s.updWork r fun w => { w with restartAt0 := false }
  else
    let s := (s.endStripes r).updWork r fun w => { w with done := [] }
    if s.needsSixth r ps then
      let (ok, s) := s.startReplace r
      if ok then s.setCrit r else s.backToQueue r
    else
      match s.targetsFor r ps [] (s.slotsUsed (s.region r).pool) with
      | .inr l =>
        let s := (s.updRegion r fun e => { e with relocs := writeSlots e.relocs l, watermark := 0 }).setCrit r
        s.updWork r fun w => { w with halted := [], restartAt0 := false, waits := none }
      | .inl p => (s.event Ev.rebuildNoTarget (s.region r).pool r p (s.region r).pool).backToQueue r

/-- The new set of a re-placement lost a drive: place another and start again (R336); where no row has room the region waits, a
REBUILDING one in the queue (R84). -/
def State.replaceAgain (s : State) (r : Nat) : State :=
  let s := s.endStripes r
  let s := s.updWork r fun w => { w with replace := none, done := [], halted := [] }
  let s := s.updRegion r fun e => { e with watermark := 0 }
  match s.placeAnew r with
  | some n => s.updWork r fun w => { w with replace := some n, waits := none }
  | none =>
    let e := s.region r
    let s := s.event Ev.replaceNoSpace e.pool r (s.regionTmpl r).width e.pool
    if e.st = .rebuilding then s.backToQueue r else s.noteWait r

/-- The R92 transition of a region when a member holding one of its positions enters FAILED or REMOVED (R314, R328 to
R336, R343). -/
def State.regionHit (s : State) (r port : Nat) : State :=
  let e := s.region r
  match e.st with
  | .free => s
  | .lost => s
  | .normal => if (s.affectedBy r port).isEmpty then s else s.recompute r
  | .degraded => if (s.affectedBy r port).isEmpty then s else s.recompute r
  | .critical => if (s.affectedBy r port).isEmpty then s else s.recompute r
  | .relocating =>
    let w := s.workOf r
    let onNew := match w.replace with | some n => (bitsOf n.bitmap).contains port | none => false
    let hit := !(s.affectedBy r port).isEmpty
    let moving := match w.move with | some m => m.srcPort = port || m.dstPort = port | none => false
    if hit || moving then (s.abandonMove r).recompute r
    else if onNew then s.replaceAgain r else s
  | .rebuilding =>
    let w := s.workOf r
    let onNew := match w.replace with | some n => (bitsOf n.bitmap).contains port | none => false
    if !(s.affectedBy r port).isEmpty then
      if !recoverable (s.regionTmpl r) (s.lostSet r) then s.regionLost r
      else if e.replacePending then if onNew then (s.setCrit r).replaceAgain r else s.setCrit r
      else (s.setCrit r).furtherLoss r
    else if onNew then s.replaceAgain r else s

/-! ### Rebuild done (R324) -/

/-- Is a position that a gone member affected still without a complete target, in a region that is neither LOST nor FREE (R324)? -/
def State.stillOwed (s : State) (c : Nat × Nat) : Bool :=
  (s.region c.1).st ≠ .lost && (s.region c.1).st ≠ .free && (s.lostSet c.1).contains c.2

/-- EV_MEMBER_REBUILD_DONE for each gone member none of whose regions is owed any longer (R324). -/
def State.memberDone (s : State) : State :=
  s.over (s.members.filter fun e => (e.2.st = .failed || e.2.st = .removed) && !e.2.rebuildDone) fun s e =>
    let (port, m) := e
    if m.owed.any s.stillOwed then s
    else
      let s := { s with members := s.members.upd port fun m => { m with rebuildDone := true, owed := [] } }
      s.event Ev.memberRebuildDone 0 port m.rebuilt ((s.now - m.failedAt) / 1000000)

/-- An old member record is dropped once no slot or bitmap refers to it (R99). -/
def State.dropMembers (s : State) : State :=
  { s with members := s.members.keep fun p m =>
      !m.dropPending || (s.poolRegions m.pool).any fun r => (s.holders r).contains p }

/-! ### Labels, log drives and the metadata checkpoint (R498, R501, R504) -/

/-- May the module write the metadata area of an array whose owner is `owner`: its own, out of STANDBY, FENCED and FAILED (R494, R512, R526)? -/
def State.mayWriteMeta (s : State) (owner : BitVec 256) : Bool :=
  !s.life.inReset && !s.lehrOn && owner = Config.identity && !([DevState.standby, .fenced, .failed].contains s.life.st)

/-- Does the module own the array whose metadata area it may write? -/
def State.writesMeta (s : State) : Bool := match s.pair.label with | some l => s.mayWriteMeta l.ownerId | none => false

/-- Write the drive labels, LABEL_SEQ one above the highest, to the copy not written last on every array drive that is not gone
(R498); the labels of another module's array are not written (R494, R526). -/
def State.writeLabels (s : State) (f : LabelImage → LabelImage) : State :=
  match s.pair.label with
  | none => s
  | some l =>
    let l := { f l with labelSeq := l.labelSeq + 1 }
    if !s.mayWriteMeta l.ownerId then s
    else
    let copy := 1 - s.pair.labelCopy
    let s := { s with pair := { s.pair with label := some l, labelCopy := copy } }
    s.over (s.arrayDrives.filter fun p => !s.memberGone p) fun s p =>
      let pool := match s.members.look p with | some m => m.pool | none => 0
      s.emit (.label p copy (trim (labelBytes l p pool true s.pair.logPorts)))

/-- The array drives that may be log drives, in the order of their numbers: those in ONLINE, SLOW or SPARE_ONLY (R501). -/
def State.logDrives (s : State) : List Nat :=
  s.arrayDrives.filter fun p => match s.members.look p with
    | some m => m.st = .online || m.st = .slow || m.st = .spareOnly
    | none => false

/-- The log drives that R501 assigns: those there are that still may be, and after them the lowest-numbered others, up to three. -/
def State.logsDue (s : State) : List Nat :=
  let kept := s.pair.logPorts.filter s.logDrives.contains
  kept ++ ((s.logDrives.filter fun p => !kept.contains p).take (3 - kept.length))

/-- The drives that hold copies of slice k, first copy first: three in turn, or every drive once where there are fewer (R504). -/
def sliceDrives (ports : List Nat) (k : Nat) : List Nat :=
  let n := ports.length
  if n < 3 then ports else [k, k + 1, k + 2].map fun i => ports.getD (i % n) 0

/-- The configuration is written to the copy not written last of every log drive (R500, R633). -/
def State.writeConfig (s : State) : State :=
  if !s.writesMeta then s
  else
  let copy := 1 - s.pair.configCopy
  let s := { s with pair := { s.pair with configCopy := copy } }
  s.over s.pair.logPorts fun s p => s.emit (.config p copy s.configBytes)

/-- The slot of a drive that holds a slice: its place among the slices that the drive holds (R500, R504; DESIGN CHOICE 47). -/
def sliceSlot (ports : List Nat) (slices : List Nat) (p k : Nat) : Nat :=
  (slices.filter fun j => j < k && (sliceDrives ports j).contains p).length

/-- A slot header: SLICE, CHECKPOINT_SEQ, the begin SEQ, the CRC-32C over the entries and the CRC-32C over the header; no rule gives their
places (R504, DESIGN CHOICE 47). -/
def sliceHeader (slice seq begin_ : Nat) (entries : List Byte) : List Byte :=
  let head := toLe 4 slice ++ toLe 8 seq ++ toLe 8 begin_ ++ toLe 4 (crc32c entries).toNat
  head ++ toLe 4 (crc32c head).toNat

/-- Segments of the change-log ring in use: from the oldest begin SEQ that a slice copy names which a reader would take (R504). -/
def Pair.logUsed (p : Pair) : Nat :=
  p.changeSeq - (match p.sliceBegin.vals with | [] => 1 | x :: t => t.foldl min x)

/-- A metadata checkpoint writes the offered slices, all first copies, then all second, then all third, and none to a drive that is
gone; log segments are reused behind the oldest begin SEQ that is still named (R504, R505). Its writes complete within the step (DESIGN
CHOICE 31). -/
def State.metadataCheckpoint (s : State) : State :=
  if !s.writesMeta then s
  else
  let ports := s.arrayDrives
  let seq := s.pair.sliceSeq + 1
  let begin_ := s.pair.changeSeq
  let slices := span 0 (min 64 (16 * ports.length))
  let copies := (span 0 3).flatMap fun c => slices.filterMap fun k =>
    ((sliceDrives ports k)[c]?).bind fun p => if s.memberGone p then none else some (p, k)
  let table := s.committed
  let s := s.over copies fun s e =>
    let entries := (span (e.2 * 262144) 262144).flatMap fun r => regionBytes (table.read r {})
    s.emit (.slice e.1 (sliceSlot ports slices e.1 e.2) (sliceHeader e.2 seq begin_ entries) entries)
  { s with pair := { s.pair with sliceSeq := seq, sliceAt := s.now, onDrives := table,
                                 sliceBegin := copies.foldl (fun (m : Store Nat) e => m.put e.2 begin_) s.pair.sliceBegin,
                                 changes := s.pair.changes.filter fun c => c.2.1 ≠ 4 } }

/-! ### Metadata writes to the log drives (R500, R502, R508, R509, R768) -/

/-- Byte offsets of the bitmap slots and of the change-log segment of a SEQ (R500). -/
def bitmapOff (slot : Nat) : Nat := 161 * 2 ^ 20 + slot * 2 ^ 21
def changeOff (seq : Nat) : Nat := 168 * 2 ^ 20 + seq % 16384 * 4096

/-- The IMAGE of a change-log item: a region entry's 64 bytes, or those of a member, pool or volume descriptor (R503). -/
def State.changeImage (s : State) (kind index : Nat) : List Byte :=
  if kind = 0 || kind = 4 then regionBytes (s.region index) else s.descriptor kind index

/-- The 4 KiB blocks of the bitmap that hold bits. -/
def blocksOf (bits : List Nat) : List Nat := uniq (bits.map fun i => i / 32768)

/-- What a metadata write puts on a log drive: byte offsets and segments (R500, R503, R507 to R509). `all` are the bits to be set. -/
def MetaKind.writes (k : MetaKind) (all : List Nat) : List (Nat × List Block) :=
  let whole (slot : Nat) (bits : List Nat) : Nat × List Block := (bitmapOff slot, (span 0 512).map fun b => bitmapBlock bits b)
  match k with
  | .record seq items =>
    [(changeOff seq, [trim (changeSegment seq (items.map fun i => (i.2.1, i.2.2.1, i.2.2.2.2)))])]
  | .bits rs => (blocksOf rs).flatMap fun b => [0, 1].map fun slot => (bitmapOff slot + 4096 * b, [bitmapBlock all b])
  | .rewrite slot now _ => [whole slot now]
  | .bring now => [whole 0 now, whole 1 now]

/-- The bits that are set on the log drives or on their way there. -/
def State.bitsComing (s : State) : List Nat :=
  uniq (s.pair.bitmap ++ s.pair.jobs.flatMap fun j => match j.2.kind with | .bits rs => rs | _ => [])

/-- Issue a job's writes to one log drive, each with FUA and no longer than its commands may be (R280, R502, R508). -/
def State.metaAsk (s : State) (job port : Nat) : State :=
  match s.pair.jobs.look job with
  | none => s
  | some j =>
    let most := (s.port port).mostSegs
    let pieces := (j.kind.writes s.bitsComing).flatMap fun w =>
      (runsOf most (span 0 w.2.length)).map fun run => (w.1 + 4096 * run.headD 0, run.map fun k => w.2.getD k [])
    s.over pieces fun s w =>
      let (id, s) := s.askPort port
        { task := job, write := true, fg := true, region := 0, stripe := 0, pos := 0, segs := span 0 w.2.length, row := 0, data := w.2,
          gen := 0, acceptedAt := s.now, off := w.1, meta_ := true }
      { s with pair := { s.pair with jobs := s.pair.jobs.upd job fun j => { j with left := j.left ++ [id] } } }

/-- A metadata write has reached every log drive that counts: a record's entries are on the drives and what waited for them goes on;
bits are set (R502, R508, R509). -/
def State.metaDone (s : State) (job : Nat) : State :=
  match s.pair.jobs.look job with
  | none => s
  | some j =>
    let s := { s with pair := { s.pair with jobs := s.pair.jobs.del job } }
    match j.kind with
    | .record _ items =>
      let entries := items.filter fun (i : Nat × Nat × Nat × Region × List Byte) => i.2.1 = 0 || i.2.1 = 4
      let s := { s with pair := { s.pair with onDrives := entries.foldl (fun (m : Store Region) (i : Nat × Nat × Nat × Region × List Byte) => m.putD {} i.2.2.1 i.2.2.2.1) s.pair.onDrives } }
      let left := s.pair.uncommitted.filter fun (c : Nat × Nat × Nat) => 1 ≤ c.2.1 && c.2.1 ≤ 3
      let go := s.pair.answers.filter fun (a : LateAnswer) => left.all fun c => c.1 > a.change
      let s := { s with pair := { s.pair with answers := s.pair.answers.filter fun (a : LateAnswer) => !go.contains a } }
      (s.over go fun s a => s.finish a.acc a.status a.result a.resultHi).pumpAll
    | .bits rs =>
      { s with pair := { s.pair with
          bitmap := uniq (s.pair.bitmap ++ rs), slotBits := uniq (s.pair.slotBits ++ rs),
          activeAt := rs.foldl (fun m r => Store.put m r s.now) s.pair.activeAt } }
    | .rewrite slot bits before =>
      let fresh := s.pair.bitmap.filter fun r => !before.contains r
      let here := uniq (bits ++ fresh)
      { s with pair := { s.pair with bitmap := uniq (s.pair.slotBits ++ here), slotBits := here, bitmapSlot := slot } }
    | .bring _ => s

/-- The end of a job, where nothing of it is outstanding any longer. -/
def State.metaCheck (s : State) (job : Nat) : State :=
  match s.pair.jobs.look job with
  | some j => if j.left.isEmpty then s.metaDone job else s
  | none => s

/-- Start a metadata write on every log drive (R502, R508, R509); without one it is over at once. -/
def State.metaStart (s : State) (k : MetaKind) : State :=
  let (job, s) := s.newId
  let s := { s with pair := { s.pair with jobs := s.pair.jobs.put job { kind := k } } }
  (s.over s.pair.logPorts fun s p => s.metaAsk job p).metaCheck job

/-- The log drives become those that R501 assigns: the bitmap and the metadata writes under way go to each new one (R501, R768); and the event
for each that another has taken the place of. -/
def State.bringLogs (s : State) : State :=
  let old := s.pair.logPorts
  let want := s.logsDue
  let new := want.filter fun p => !old.contains p
  let jobs := s.pair.jobs.filter fun j => match j.2.kind with | .bring _ => false | _ => true
  let s := { s with pair := { s.pair with logPorts := want } }
  let s := s.over new fun s p =>
    let (job, s) := s.newId
    let s := { s with pair := { s.pair with jobs := s.pair.jobs.put job { kind := .bring s.bitsComing } } }
    s.over (job :: jobs.map (·.1)) fun s j => s.metaAsk j p
  s.over ((old.filter fun p => !want.contains p).zip new) fun s e => s.event Ev.metadataRehomed s.sideNo e.1 e.2 want.length

/-- A drive has left the states of R501, or has come to them where there are fewer than three log drives: each new log drive gets the bitmap
and the configuration, and a checkpoint and the labels follow (R501, R768). With no drive to take the place the labels name those that are
left (DEDUCED 47). -/
def State.assignLogs (s : State) : State :=
  let old := s.pair.logPorts
  if !s.writesMeta || s.logsDue = old then s
  else
    let new := s.logsDue.filter fun p => !old.contains p
    let s := s.bringLogs.over new fun s p => s.emit (.config p s.pair.configCopy s.configBytes)
    (if new.isEmpty then s else s.metadataCheckpoint).writeLabels id

/-! ### A member fails (R294, R313, R314) -/

/-- A member state changes (R99): EV_MEMBER_STATE, and the member cause for SUSPECT, FAILED and REMOVED (R712, R723). -/
def State.memberTo (s : State) (port : Nat) (st : MemberSt) : State :=
  match s.members.look port with
  | none => s
  | some m =>
    if m.st = st then s
    else
      let s := { s with members := s.members.put port { m with st := st } }
      let s := (s.noteChange 1 port).event Ev.memberState m.pool port st.code m.pool
      let s := if st = .suspect || st = .failed || st = .removed then s.raisePfs .member else s
      let s := if st = .failed || st = .removed then s.alert .memberFailed else s
      s.assignLogs

/-- Answer ABSENT to every request of a port and drop its quarantine (R294, R306): a request in quarantine has already
been answered. -/
def State.absentAll (s : State) (port : Nat) : State :=
  let p := s.port port
  let s := s.setPort port { p with reqs := [], aborts := [] }
  s.over p.reqs fun s e => if e.2.quarantined.isSome then s else s.later (.reqDone port e.1 e.2 .absent)

/-- DPn_PERST_N asserted: a controller reset that it cuts off is dropped without a record (DESIGN CHOICE 48). -/
def State.assertPerst (s : State) (port : Nat) : State :=
  let p := s.port port
  let s := s.setPort port { p with perst := true, linkUp := false, ctl := .off, resetWhy := none, linkDownAt := none,
                                   admin := [], preempting := false, poweringOn := false, reserved := false }
  -- the link of a held port does not return (R295, R312)
  let s := if p.linkDownAt.isSome then s.event Ev.portLinkDown port port 0xFFFFFFFF 0 else s
  if p.perst then s else s.emit (.drivePerst port true)

/-- A criterion of R292 is met: the member enters FAILED or REMOVED, its port does the steps of R294, and its regions
take their transitions (R313, R314). A member already FAILED goes to REMOVED when its presence is lost (R99). -/
def State.failMember (s : State) (port cause : Nat) (removed : Bool) : State :=
  match s.members.look port with
  | none => s
  | some m =>
    if m.st = .removed || (m.st = .failed && !removed) then s
    else
      let wasGone := m.st = .failed
      let p := s.port port
      let s := ((s.absentAll port).assertPerst port).event Ev.failCriterion port port cause 0
      let s := s.memberTo port (if removed then .removed else .failed)
      -- with PRSNT_N deasserted, the end of the link meets criterion 1 as well (R292, R301)
      let s := if p.conflict && !removed then s.later (.fail port 1 true) else s
      if wasGone then s
      else
        -- a position that was moving off the member is affected by it once its move is abandoned (R324, R343)
        let (owed, s) := s.usedRegions.foldl (fun (acc : List (Nat × Nat) × State) r =>
          let before_ := acc.2.affectedBy r port
          let t := acc.2.regionHit r port
          (acc.1 ++ (uniq (before_ ++ t.affectedBy r port)).map fun p => (r, p), t)) ([], s)
        let s := { s with members := s.members.upd port fun m =>
          { m with failedAt := s.now, rebuilt := 0, rebuildDone := false, owed := owed } }
        -- moves to a replacement drive that fails are abandoned (R343)
        (s.memberDone).spareCheck m.pool

/-! ### Completion of a region's stripes (R322, R324, R335, R342) -/

/-- Count a rebuilt region toward the gone members whose positions it restored (R324). -/
def State.countRebuilt (s : State) (r : Nat) (ps : List Nat) : State :=
  let mine (c : Nat × Nat) : Bool := c.1 = r && ps.contains c.2
  { s with members := s.members.each fun _ m => if m.owed.any mine then
      { m with rebuilt := m.rebuilt + 1, owed := m.owed.filter fun c => !mine c } else m }

/-- A freed region owes no gone member anything (R324). -/
def State.forgetOwed (s : State) (r : Nat) : State :=
  { s with members := s.members.each fun _ m => { m with owed := m.owed.filter fun c => c.1 ≠ r } }

/-- Does a move of a region still take a position from a member: its source, or, where a restart has resumed the move, the position's home
(R341 to R343)? -/
def State.movesFrom (s : State) (r port : Nat) : Bool :=
  match (s.workOf r).move with
  | some mv => mv.srcPort = port
  | none => (s.region r).st = .relocating && (s.region r).relocs.any fun x => !x.complete && (s.region r).home x.pos = port

/-- When a SUSPECT member affects no position any longer, none that is still on its way from it either, EV_EVACUATION_DONE (R341). -/
def State.evacuationCheck (s : State) (port : Nat) : State :=
  match s.members.look port with
  | none => s
  | some m =>
    if m.st = .suspect && !m.evacDone && (s.poolRegions m.pool).all fun r => (s.affectedBy r port).isEmpty && !s.movesFrom r port then
      let s := { s with members := s.members.put port { m with evacDone := true } }
      s.event Ev.evacuationDone 0 port m.moved ((s.now - m.movedSince) / 1000000)
    else s

/-- Does a copyback to a port still owe a region (R338, R342)? -/
def State.copybackOwed (s : State) (port : Nat) : Bool :=
  s.usedRegions.any fun r => (s.region r).relocs.any fun x =>
    (s.region r).home x.pos = port && (s.region r).st ≠ .lost && !(x.port = port && x.complete)

/-- When the last copyback region completes, the member becomes ONLINE and EV_COPYBACK_DONE is recorded (R342). -/
def State.copybackCheck (s : State) (port : Nat) : State :=
  match s.members.look port with
  | none => s
  | some m =>
    if m.st = .replacing && !s.copybackOwed port then
      let s := s.memberTo port .online
      s.event Ev.copybackDone 0 port m.moved ((s.now - m.movedSince) / 1000000)
    else s

/-- What a change of regions may have completed for the members of the array: rebuild of a gone one, evacuation, copyback, and the
records that nothing refers to any longer (R99, R324, R341, R342). -/
def State.memberChecks (s : State) : State :=
  if s.life.starting || s.life.inReset || s.lehrOn then s
  else
    let s := s.over s.members.keys fun s p => (s.evacuationCheck p).copybackCheck p
    s.memberDone.dropMembers

/-- Positions of a region have left a member that is evacuated, or come to one that copyback fills (R341, R342). -/
def State.countMoved (s : State) (port n : Nat) : State :=
  { s with members := s.members.upd port fun x => { x with moved := x.moved + n } }

/-- What a re-placement moves off the SUSPECT members of its pool (R341). -/
def State.countEvacuated (s : State) (r : Nat) : State :=
  s.over ((s.poolMembers (s.region r).pool).filter fun d => (s.members.look d).any fun m => m.st = .suspect) fun s d =>
    s.countMoved d (s.affectedBy r d).length

/-- The member for which a move that a restart resumed counts: the position's home, where it is evacuated or filled again; from where
else a position was moved, no record tells after a restart (R341 to R343, DESIGN CHOICE 44). -/
def State.countResumed (s : State) (r : Nat) : State :=
  let e := s.region r
  if e.st ≠ .relocating then s
  else s.over (e.relocs.filter fun x => !x.complete) fun s x =>
    let d := e.home x.pos
    match s.members.look d with
    | some m => if m.st = .suspect || (m.st = .replacing && x.port = d) then s.countMoved d 1 else s
    | none => s

/-- WATERMARK has reached the end of the region's stripes, and is 0 again (R324, R335, R342, DESIGN CHOICE 54). -/
def State.regionDone (s : State) (r : Nat) : State :=
  let w := s.workOf r
  let e := s.region r
  match w.replace, w.move with
  | some n, _ =>
    let lost := s.lostSet r
    let s := (s.countRebuilt r lost).countEvacuated r
    let s := s.updRegion r fun e => { e with bitmap := n.bitmap, row := n.row, perm := n.perm, relocs := [],
                                             replacePending := false, watermark := 0, st := .normal, crit := false }
    let s := s.setWork r w.checkOnly
    (s.over (s.poolMembers e.pool) fun s p => s.evacuationCheck p).memberDone.dropMembers.spareCheck e.pool
  | none, some m =>
    let s := s.updRegion r fun e =>
      { e with watermark := 0, st := .normal,
               relocs := if m.copyback then e.relocs.filter fun x => x.pos ≠ m.pos
                         else e.relocs.map fun x => if x.pos = m.pos then { x with complete := true } else x }
    let s := s.setWork r w.checkOnly
    let s := s.countMoved m.port 1
    ((s.evacuationCheck m.port).copybackCheck m.port).dropMembers.spareCheck e.pool
  | none, none =>
    let ps := (e.relocs.filter fun x => !x.complete).map (·.pos)
    let s := (s.countRebuilt r ps).countResumed r
    -- a copyback that a restart resumed ends with its slot cleared: the position lies on its home again (R342, R343)
    let home (x : Reloc) : Bool := basePlace e.bitmap e.row e.perm x.pos = (x.port, x.row)
    let s := s.updRegion r fun e => { e with watermark := 0, st := .normal, crit := false,
                                             relocs := (e.relocs.filter fun x => !home x).map fun x => { x with complete := true } }
    let s := s.setWork r w.checkOnly
    let s := s.over (s.poolMembers e.pool) fun s p => (s.evacuationCheck p).copybackCheck p
    (s.memberDone.dropMembers).spareCheck e.pool

/-- The watermark after the stripes of `done` complete: it passes every complete stripe from its place on, with fuel. -/
def passed (done : List Nat) : Nat → Nat → Nat
  | 0, w => w
  | n + 1, w => if done.contains w then passed done n (w + 1) else w

/-- A rebuild or copy stripe has completed: WATERMARK moves past it once every stripe below is complete, the interlocks of
the stripes passed are released, and the region completes at its last stripe (R322). -/
def State.stripeDone (s : State) (r stripe : Nat) : State :=
  let s := s.updWork r fun w => { w with done := insertBy (· ≤ ·) stripe (w.done.filter (· ≠ stripe)),
                                         halted := w.halted.filter (·.1 ≠ stripe) }
  let e := s.region r
  let w := s.workOf r
  let m := passed w.done (w.done.length + 1) e.watermark
  let passing := s.tasks.filter fun t =>
    t.2.region = r && (t.2.kind = .rebuild || t.2.kind = .copy) && t.2.stripe < m && w.done.contains t.2.stripe
  let s := (s.updRegion r fun e => { e with watermark := m }).updWork r fun w => { w with done := w.done.filter (m ≤ ·) }
  let s := s.over passing fun s t => s.endTask t.1
  if w.restartAt0 then s.furtherLoss r
  else if m ≥ s.stripes r then s.regionDone r
  else s

/-! ### Moves that a region owes (R337 to R341, R352) -/

/-- Is background work of a region's pool not paused (R352)? -/
def State.unpaused (s : State) (r : Nat) : Bool :=
  match s.pools.look (s.region r).pool with
  | some p => !p.paused && !p.foreign_
  | none => false

/-- The copyback move that a region owes: the lowest position homed on a REPLACING member that has a complete slot (R338, R339). -/
def State.copybackPos (s : State) (r : Nat) : Option (Nat × Reloc) :=
  let e := s.region r
  (s.regionTmpl r).positions.findSome? fun p =>
    match e.reloc p, s.members.look (e.home p) with
    | some x, some m => if m.st = .replacing && x.complete then some (p, x) else none
    | _, _ => none

/-- The evacuation that a region owes: the lowest position that a SUSPECT member affects, and the member (R341). -/
def State.evacuationPos (s : State) (r : Nat) : Option (Nat × Nat) :=
  (s.regionTmpl r).positions.findSome? fun p =>
    let d := ((s.region r).place p).1
    match s.members.look d with
    | some m => if m.st = .suspect && (s.region r).affected d p then some (p, d) else none
    | none => none

/-- A region that a move or re-placement may start in: NORMAL and owing one, or RELOCATING and without the set that its
re-placement needs (R337, R339). -/
def State.owesMove (s : State) (r : Nat) : Bool :=
  let e := s.region r
  s.unpaused r && s.maySeek r &&
    ((e.st = .normal && ((s.copybackPos r).isSome || (s.evacuationPos r).isSome))
      || (e.st = .relocating && e.replacePending && (s.workOf r).replace.isNone))

end Sys2Proof.Machine
end

