-- ==== Sys2Proof/Machine/Plan.lean ====
section
/-! DEFINITION. What a stripe task reads and computes: lost positions of a stripe, the places of reads and writes, recovery
plans by segment, the effect of tile operations, and how a destage writes its stripe (R123, R171, R182, R183, R206, R236,
R325, R326, R334, R340). -/

namespace Sys2Proof.Machine

open Sys2Proof

/-! ### Places (R236, R325, R334, R340) -/

/-- The move of a region's position, if it is moving (R340). -/
def State.movingPos (s : State) (r p : Nat) : Option Move :=
  match (s.workOf r).move with
  | some m => if m.pos = p then some m else none
  | none => none

/-- Positions treated as lost for I/O on a stripe: the lost set, but for an incomplete slot on a live drive below
WATERMARK (R236, R325) and for a moving position (R340). -/
def State.lostFor (s : State) (r k : Nat) : List Nat :=
  (s.lostSet r).filter fun p =>
    if (s.movingPos r p).isSome then s.memberGone ((s.movingPos r p).map (·.srcPort) |>.getD 0)
    else if s.memberGone ((s.region r).place p).1 then true
    else !(k < (s.region r).watermark)

/-- Where a position of a stripe is read (R80, R236, R340). -/
def State.readPlace (s : State) (r p : Nat) : Nat × Nat :=
  match s.movingPos r p with
  | some m => (m.srcPort, m.srcRow)
  | none => (s.region r).place p

/-- Where a destage writes a position of a stripe: the place it is read from, and below WATERMARK also the destination of
a move or the same position of a new set (R334, R340). -/
def State.writePlaces (s : State) (r k p : Nat) : List (Nat × Nat) :=
  let below := k < (s.region r).watermark
  let w := s.workOf r
  let moved := match s.movingPos r p with | some m => if below then [(m.dstPort, m.dstRow)] else [] | none => []
  let placed := match w.replace with
    | some n => if below then [basePlace n.bitmap n.row n.perm p] else []
    | none => []
  [s.readPlace r p] ++ moved ++ placed

/-! ### Recovery plans (R123) -/

/-- What to read and to compute, and the wanted cells that cannot be had. -/
structure Plan where
  cells : List (Nat × Nat) := []
  todo : List TileOp := []
  missing : List (Nat × Nat) := []
deriving DecidableEq, Repr

/-- Add cells without repeats. -/
def addCells (l m : List (Nat × Nat)) : List (Nat × Nat) := m.foldl (fun a c => if a.contains c then a else a ++ [c]) l

/-- The plan for wanted cells of a stripe, segment by segment: `lostAt` gives the positions treated as lost in a segment,
`have_` the cells in hand (R123). -/
def recoverPlan (m : Template) (lostAt : Nat → List Nat) (have_ : Nat → Nat → Bool) (want : List (Nat × Nat)) : Plan :=
  let segs := uniq (want.map (·.2))
  let pl := segs.foldl (fun (acc : Plan × List (List JobOp × List Nat)) g =>
    let pl := acc.1
    let lost := (lostAt g).filter fun p => !have_ p g
    let here := (want.filter fun c => c.2 = g && !have_ c.1 g).map (·.1)
    let direct := here.filter fun p => !lost.contains p
    let w := here.filter lost.contains
    -- where not all can be had, those that R123 recovers each by itself are recovered
    let gone := if (planRepairs m lost w).isSome then [] else w.filter fun p => (planRepairs m lost [p]).isNone
    let w := w.filter fun p => !gone.contains p
    let rs := if w.isEmpty then [] else (planRepairs m lost w).getD []
    let reads := direct ++ (planReads m lost rs).filter fun p => !have_ p g
    let ops := rs.map fun r => JobOp.decode r.tier r.line r.lost r.out
    let pl := { pl with cells := addCells pl.cells (reads.map fun p => (p, g)), missing := pl.missing ++ gone.map fun p => (p, g) }
    -- segments with the same plan share their jobs
    let groups := if ops.isEmpty then acc.2
      else if acc.2.any fun e => e.1 = ops then acc.2.map fun e => if e.1 = ops then (e.1, e.2 ++ [g]) else e
      else acc.2 ++ [(ops, [g])]
    (pl, groups)) ({}, [])
  { pl.1 with todo := pl.2.flatMap fun e => e.1.map fun o => ⟨o, e.2⟩ }

/-! ### Tile operations (R112, R121, R125, R126) -/

/-- Data count of the tier of an operation: 1 is a repetition tier, which needs no tile (R111, R122). -/
def JobOp.data (m : Template) : JobOp → Nat
  | .encode t _ => tierData (m.tiers.getD t (2, 0))
  | .decode t _ _ _ => tierData (m.tiers.getD t (2, 0))
  | .verify t _ => tierData (m.tiers.getD t (2, 0))
  | .locate t _ => tierData (m.tiers.getD t (2, 0))
  | .update _ _ => 2
  | .absorb _ _ _ _ => 2
  | .pattern _ => 2

/-- The input positions of an operation, in input-list order (R120, R125). -/
def JobOp.inputs (m : Template) : JobOp → List Nat
  | .encode t line => line.take (tierData (m.tiers.getD t (1, 0)))
  | .decode t line lost out => Repair.inputs m ⟨t, line, lost, out⟩
  | .verify _ line => line
  | .locate _ line => line
  | .update p _ => [p, p]
  | .absorb _ _ old _ => 0 :: old.toList.map fun _ => 0
  | .pattern _ => [0]

/-- The full-stripe encode, innermost tier first: every line whose outer digits are data digits (R112). -/
def encodeOps (m : Template) (segs : List Nat) : List TileOp :=
  (span 0 m.tiers.length).flatMap fun t =>
    ((m.lines t).filter fun l => allData (m.tiers.drop (t + 1)) ((digitsOf m.tiers (l.headD 0)).drop (t + 1))).map fun l => ⟨.encode t l, segs⟩

/-- UPDATE jobs for the coded positions that a change at a data position touches, 8 outputs to a job; plain copies of the position
need no tile (R111, R114, R125). -/
def updateOps (m : Template) (coded segs : List Nat) (p : Nat) : List TileOp :=
  let outs := (m.touched p).filter coded.contains
  (chunks 8 outs.length outs).map fun l => ⟨.update p l, segs⟩

/-- The effect of a finished operation on a task's content, in each of its segments (R110, R113, R121, R125, R126). -/
def Task.apply (m : Template) (x : Task) (o : TileOp) : Task :=
  o.segs.foldl (fun x g =>
    let col := x.column g
    match o.op with
    | .encode t line =>
      let d := tierData (m.tiers.getD t (1, 0))
      if (line.take d).all fun p => (x.cell p g).isSome then
        x.gain ((span 0 (line.length - d)).map fun j => (line.getD (d + j) 0, g, checkRow d j line col))
      else x
    | .decode t line lost out =>
      let r : Repair := ⟨t, line, lost, out⟩
      if (r.inputs m).all (fun p => (x.cell p g).isSome) && out.any (fun p => (x.cell p g).isNone) then
        let new := decodeLine m r col
        x.gain ((new.filter fun e => (x.cell e.1 g).isNone).map fun e => (e.1, g, e.2))
      else x
    | .update p outs =>
      match x.cell p g, (x.newData.find? fun e => e.1 = p && e.2.1 = g).map (·.2.2) with
      | some old, some new =>
        let delta := blockXor old new
        x.gain (outs.filterMap fun q =>
          match x.cell q g, m.factor p q with
          | some b, some f => some (q, g, blockXor b (blockScale f delta))
          | _, _ => none)
      | _, _ => x
    | .verify t line =>
      if line.all fun p => (x.cell p g).isSome then
        let bad := verifyLine m t line col
        { x with findings := x.findings ++ [(t, line, g, (bad.map (2 ^ ·)).sum)] }
      else x
    | .locate t line =>
      if line.all fun p => (x.cell p g).isSome then
        let q := match locateLine m t line col with | .named q => some q | _ => none
        { x with located := x.located ++ [(t, line, g, q)] }
      else x
    | .absorb _ _ _ _ => x
    | .pattern _ => x) x

end Sys2Proof.Machine

namespace Sys2Proof

/-- The non-data positions whose content is not a plain copy, ascending (R171). -/
def Template.codedPositions (m : Template) : List Nat :=
  m.positions.filter fun q =>
    !m.isData q && (match (m.positions.filter m.isData).filterMap fun p => m.factor p q with
      | [f] => f ≠ 1
      | _ => true)

/-- P of R171. -/
def Template.checkCount (m : Template) : Nat := m.codedPositions.length

end Sys2Proof

namespace Sys2Proof.Machine

open Sys2Proof

/-! ### How a destage writes its stripe (R182, R183, R326, R765) -/

/-- The visible frames of a stripe as (frame, position, segment, record). -/
def State.stripeFrames (s : State) (vol r k : Nat) : List (Nat × Nat × Nat × Frame) :=
  match s.volumes.look vol with
  | none => []
  | some v => s.frames.filterMap fun e =>
      if e.2.vol = vol && e.2.visible then
        let a := s.locate v e.2.lba
        if a.region = r && a.stripe = k then some (e.1, a.pos, a.seg, e.2) else none
      else none

/-- Data cells of a stripe in data order, with the volume block of each. -/
def State.dataCells (s : State) (vol r k : Nat) : List (Nat × Nat × Nat) :=
  match s.volumes.look vol with
  | none => []
  | some v =>
    let m := s.tmpl v.template
    (span 0 m.data).flatMap fun i => (span 0 m.strip).map fun g => (m.dataPos i, g, s.lbaAt v r k (m.dataPos i) g)

/-- The volume blocks of a task's cells. -/
def State.cellLba (s : State) (x : Task) (p g : Nat) : Nat :=
  match s.volumes.look x.vol with
  | some v => s.lbaAt v x.region x.stripe p g
  | none => 0

/-- Is a block within the volume's capacity (R63)? -/
def State.within (s : State) (vol lba : Nat) : Bool :=
  match s.volumes.look vol with | some v => lba < v.capacity | none => false

/-- Is a stripe complete (R765)? -/
def State.isComplete (s : State) (vol r k : Nat) : Bool :=
  let fs := s.stripeFrames vol r k
  let cells := s.dataCells vol r k
  cells.any (fun c => s.within vol c.2.2) &&
    cells.all fun c => !s.within vol c.2.2 || fs.any fun f => f.2.1 = c.1 && f.2.2.1 = c.2.1 && f.2.2.2.st = .dirty

/-- The parison of a stripe. -/
def State.parisonOf (s : State) (vol r k : Nat) : Option (Nat × Parison) :=
  s.parisons.find? fun e => e.2.vol = vol && e.2.region = r && e.2.stripe = k

/-- Has a parison absorbed every block of its stripe, with nothing pending (R176, DESIGN CHOICE 53)? -/
def State.parisonFull (s : State) (e : Nat × Parison) : Bool :=
  let m := s.regionTmpl e.2.region
  e.2.fill ≥ m.strip * m.data && e.2.jobs.isEmpty && e.2.current.isNone && e.2.deltas.isEmpty

/-- Member reads of RMW: the dirty cells and every cell R114 touches (R183). -/
def rmwCells (m : Template) (dirty : List (Nat × Nat)) : List (Nat × Nat) :=
  addCells [] (dirty ++ dirty.flatMap fun c => (m.touched c.1).map fun q => (q, c.2))

/-- Member reads of reconstruct-write: at each dirty segment offset, the data cells that have no dirty frame (R183);
cells beyond the capacity read as zero. -/
def State.reconCells (s : State) (vol r k : Nat) (dirty : List (Nat × Nat)) : List (Nat × Nat) :=
  let segs := uniq (dirty.map (·.2))
  ((s.dataCells vol r k).filter fun c => segs.contains c.2.1 && !dirty.contains (c.1, c.2.1) && s.within vol c.2.2).map
    fun c => (c.1, c.2.1)

/-- The method of a destage of a stripe with these dirty cells (R182, R183, R326). -/
def State.chooseHow (s : State) (vol r k : Nat) (dirty : List (Nat × Nat)) : How :=
  let e := s.region r
  let m := s.regionTmpl r
  let lost := s.lostFor r k
  if e.st = .lost then .lostRegion
  else if s.isComplete vol r k then
    match s.parisonOf vol r k with
    | some p => if s.parisonFull p then .parison else .encode
    | none => .encode
  else
    let rmw := rmwCells m dirty
    let pick := if (s.reconCells vol r k dirty).length < rmw.length then How.reconstruct else .rmw
    if e.st = .degraded || e.st = .critical then .full
    else if e.st = .rebuilding then
      if k < e.watermark then (if lost.isEmpty then pick else .full)
      else if pick = .rmw && dirty.all (fun c => !lost.contains c.1) then .rmw else .full
    else if lost.isEmpty then pick else .full

/-- The METHOD code (R197): 5 for every method in a REBUILDING region, 6 for LOST. -/
def methodCode (st : RegionSt) (h : How) : Nat :=
  if st = .rebuilding then 5
  else match h with
    | .parison => 0 | .encode => 1 | .rmw => 2 | .reconstruct => 3 | .full => 4 | .lostRegion => 6

/-- The cells a destage writes (R182). -/
def State.writeCells (s : State) (r k : Nat) (h : How) (dirty : List (Nat × Nat)) : List (Nat × Nat) :=
  let m := s.regionTmpl r
  let lost := s.lostFor r k
  let live := m.positions.filter fun p => !lost.contains p
  let segs := uniq (dirty.map (·.2))
  match h with
  | .rmw => (rmwCells m dirty).filter fun c => !lost.contains c.1
  | .reconstruct => addCells (dirty.filter fun c => !lost.contains c.1)
      ((live.filter fun p => !m.isData p).flatMap fun p => segs.map fun g => (p, g))
  | .lostRegion => dirty.filter fun c => !s.memberGone ((s.region r).place c.1).1
  | _ => live.flatMap fun p => (span 0 m.strip).map fun g => (p, g)

end Sys2Proof.Machine
end

