-- ==== Sys2Proof/Machine/Engine.lean ====
section
/-! DEFINITION. The stripe tasks: how each starts, what it reads, computes and writes, and how it ends (R182 to R185, R200,
R201, R216, R217, R227 to R239, R247 to R259, R321 to R323, R333, R340, R346, R348, R349, R766, R767). -/

namespace Sys2Proof.Machine

open Sys2Proof

/-! ### Reads and their blocks (R231 to R235) -/

/-- Lookup keys: does a READ or VERIFY still wait for a block? -/
def Cmd.waitsFor (c : Cmd) (vol lba : Nat) : Bool :=
  c.phase = .reading && c.looked && c.sqe.vol = vol && c.sqe.lba ≤ lba && lba < c.sqe.lba + c.sqe.nblocks
    && c.blocks.getD (lba - c.sqe.lba) .lost = .pending

/-- How the records of the read path name a READ, with the blocks that it takes from a task (R259, R270). -/
def State.readTag (s : State) (c : Cmd) (took : List Nat) : ReadTag :=
  { acc := c.acc, fn := c.fn, ring := (match s.sqs.look c.sq with | some q => q.ring | none => 0), cid := c.sqe.cid,
    first := c.sqe.lba, blocks := c.sqe.nblocks, took := took }

/-- Does a command take a block from a task: it is the one whose fill the task is, or has attached to it (R232)? -/
def Task.serves (x : Task) (acc lba : Nat) : Bool :=
  (match x.kind with | .fill a => a = acc | _ => false) || x.attached.contains (acc, lba)

/-- The READs that wait for blocks of these and take them from the task that delivers them (R254, R259). -/
def State.takers (s : State) (x : Task) (lbas : List Nat) : List ReadTag :=
  s.cmds.filterMap fun c =>
    let took := lbas.filter fun l => c.2.waitsFor x.vol l && x.serves c.1 l
    if c.2.sqe.opcode = 1 && !took.isEmpty then some (s.readTag c.2 took) else none

/-- Member reads for missing blocks of a READ: a FILLING frame for each where one is free, and one task for each stripe
under its shared interlock (R232, R233, R234). -/
def State.startFill (s : State) (acc vol : Nat) (lbas : List Nat) : State :=
  match s.volumes.look vol with
  | some v =>
    s.over (s.stripesOfBlocks vol lbas) fun s k =>
      let here := lbas.filter fun l => s.stripeOf vol l = some k
      let cells := here.map fun l => let a := s.locate v l; (a.pos, a.seg)
      let (fills, s) := here.foldl (fun (acc : List (Nat × Nat × Nat) × State) l =>
        let a := acc.2.locate v l
        match acc.2.takeFrame { vol := vol, lba := l, st := .filling, ref := true } with
        | some (f, s') => (acc.1 ++ [(f, a.pos, a.seg)], s')
        | none => acc) ([], s)
      (s.newTask { kind := .fill acc, vol := vol, region := k.1, stripe := k.2, segs := uniq (cells.map (·.2)),
                   want := cells, fills := fills } (some false)).2
  | none => s

/-- A task's blocks are obtained, or cannot be: the READ or VERIFY whose fill it is, and those that have attached to it, learn so. The
owner's block is lost where it cannot be had; one that had attached issues its own member reads, one for each run of its missing blocks
(R232, R233, R235). A block that a dropped frame has lost cannot be had from anywhere (R185). -/
def State.deliver (s : State) (x : Task) (cells : List (Nat × Option Block)) : State :=
  let vol := x.vol
  let dropped := match s.volumes.look vol with | some v => v.lostBlocks | none => []
  let cells := cells.map fun e => if dropped.contains e.1 then (e.1, none) else e
  let waiting := (s.cmds.filter fun c => cells.any fun e => c.2.waitsFor vol e.1 && x.serves c.1 e.1).map (·.1)
  s.over waiting fun s acc =>
    match s.cmds.look acc with
    | none => s
    | some c =>
      let mine := cells.filter fun e => c.waitsFor vol e.1 && x.serves acc e.1
      let gone := mine.filter fun e => e.2.isNone
      let alone := (gone.map (·.1)).filter fun l => x.attached.contains (acc, l) && !dropped.contains l
      let s := s.over mine fun s e =>
        let set (b : BlockSt) : State := s.updCmd acc fun c => { c with blocks := c.blocks.set (e.1 - c.sqe.lba) b }
        match e.2 with
        | some b => set (.have_ b)
        | none => if alone.contains e.1 then s else set .lost
      let s := if alone.isEmpty then s else s.startFill acc vol alone
      s.later (.readCheck acc)

/-- The blocks a command obtained, with their offsets. -/
def Cmd.obtained (c : Cmd) : List (Nat × Block) :=
  c.blocks.zipIdx.filterMap fun e => match e.1 with | .have_ b => some (e.2, b) | _ => none

/-- Parameter 1 of the records that carry an LBA range (R270): volume, LBA [39:32], block count. -/
def rangeWord (vol first n : Nat) : Nat := vol + first / 2 ^ 32 % 256 * 2 ^ 12 + min n 4095 * 2 ^ 20

/-- End a READ or VERIFY once every block is settled (R235, R612): what was obtained is written to host memory, and the
status names the first block that could not be. A READ waits while its function may not issue requests (R560). -/
def State.readCheck (s : State) (acc : Nat) : State :=
  match s.cmds.look acc with
  | none => s
  | some c =>
    let read := c.sqe.opcode = 1
    if c.phase ≠ .reading || !c.looked || c.blocks.any (· == .pending) then s
    else if read && !c.silent && !s.mayRequest c.fn then s
    else
      let s := if read && !c.silent then
          s.over c.obtained fun s e =>
            s.hostWrite c.fn (sliceBuffers (c.buffers.getD []) (e.1 * 4096) 4096) (bytesAt e.2 0 4096)
        else s
      let s := s.unpin c.frames
      match c.blocks.findIdx? (· == .lost) with
      | none => s.finish acc St.success
      | some i =>
        let lba := c.sqe.lba + i
        -- the range from the first block that could not be obtained to the last (R270)
        let n := c.blocks.length - i - ((c.blocks.reverse.findIdx? (· == .lost)).getD 0)
        let ring := match s.sqs.look c.sq with | some q => q.ring | none => 0
        let s := if read then
            { s with volumes := s.volumes.upd c.sqe.vol fun v => { v with dataLostReads := sat32 v.dataLostReads } }.volEvent
              Ev.readDataLost c.sqe.vol (rangeWord c.sqe.vol lba n) lba (c.sqe.cid + ring * 2 ^ 16)
          else s
        s.finish acc St.dataLost (w32 i)

/-! ### Parisons (R171 to R177) -/

/-- The frames that a parison's differences hold (R145, R175). -/
def Parison.held (p : Parison) : List Nat :=
  p.deltas.flatMap (fun d => [d.1, d.2]) ++ (match p.current with | some (f, some o, _) => [f, o] | _ => [])

/-- Close a parison without using it: its granules are freed and ABSORBED is cleared on its stripe's frames (R177). -/
def State.closeParison (s : State) (id : Nat) : State :=
  match s.parisons.look id with
  | none => s
  | some p =>
    let fs := (s.stripeFrames p.vol p.region p.stripe).map (·.1)
    let s := s.over fs fun s f => s.updFrame f fun x => { x with absorbed := false }
    ({ s with parisons := s.parisons.del id }).unhold p.held

/-! ### Completion of writes, FLUSH (R157, R159, R160, R185) -/

/-- A WRITE, WRITE_ZEROES, DEALLOCATE or FLUSH completes once its journal records have committed and its blocks are
destaged; a block dropped under R185 makes it DATA_LOST. -/
def State.writeCheck (s : State) (acc : Nat) : State :=
  match s.cmds.look acc with
  | none => s
  | some c =>
    if c.phase ≠ .committed || !c.journalSeqs.isEmpty || !c.cover.isEmpty
        || s.journal.waiting.any (fun w => w.acc = some acc) then s
    else match c.dropped with
      | [] => s.finish acc St.success
      | _ :: _ => s.finish acc St.dataLost
          (if c.sqe.opcode = 3 then 0 else w32 ((c.dropped.map (· - c.sqe.lba)).foldl min (2 ^ 32)))

/-- Blocks of a volume have been destaged at generations: they no longer hold commands back (R157, R160). -/
def State.coverDone (s : State) (vol : Nat) (l : List (Nat × BitVec 32)) : State :=
  let hit (e : Nat × BitVec 32) : Bool := l.any fun d => d.1 = e.1 && atLeastGen d.2 e.2
  s.over ((s.cmds.filter fun c => c.2.sqe.vol = vol && c.2.cover.any hit).map (·.1)) fun s acc =>
    (s.updCmd acc fun c => { c with cover := c.cover.filter fun e => !hit e }).writeCheck acc

/-- A covered block is dropped at a generation: no command waits any longer for it at that generation or an older one (R185). -/
def State.coverDropped (s : State) (vol lba : Nat) (g : BitVec 32) : State :=
  let hit (e : Nat × BitVec 32) : Bool := e.1 = lba && atLeastGen g e.2
  s.over ((s.cmds.filter fun c => c.2.sqe.vol = vol && c.2.cover.any hit).map (·.1)) fun s acc =>
    (s.updCmd acc fun c => { c with cover := c.cover.filter fun e => !hit e, dropped := c.dropped ++ [lba] }).writeCheck acc

/-- The journal record's copy of a frame's block (R185). -/
def State.journalCopy (s : State) (x : Frame) : Option Block :=
  match x.jref with
  | some (q, k) => if x.journaled then (s.journal.recs.look q).map fun r => r.img.payload.getD k [] else none
  | none => none

/-- A dirty frame with an uncorrectable word, whose block the journal holds, goes FREE, and a frame takes the block with its generation and
flags from the record again: the same one, in the same state (R145, R185, DESIGN CHOICE 54). -/
def State.recoverFrame (s : State) (f : Nat) (x : Frame) (b : Block) : State :=
  (s.updFrame f fun y => { y with data := b, bad := false }).volEvent Ev.cacheBlockRecovered x.vol x.vol x.lba (x.lba / 2 ^ 32)

/-- What a destage takes as a frame's content: the journal's copy where the frame holds an uncorrectable word (R185). -/
def State.frameContent (s : State) (x : Frame) : Block := if x.bad then (s.journalCopy x).getD x.data else x.data

/-- A dirty frame, or a SUPERSEDED one that a destage holds, has an uncorrectable word and no journal record holds its block: the block is
dropped at the frame's generation, the loss is recorded and the volume is CACHE_LOST (R185, R662). Reads of the block fail where the frame
was its visible one; a newer frame still gives it. -/
def State.blockLost (s : State) (f : Nat) : State :=
  match s.frames.look f with
  | none => s
  | some x =>
    let s := s.volEvent Ev.cacheBlockLost x.vol x.vol x.lba (x.lba / 2 ^ 32)
    let s := s.addLoss x.vol [⟨x.lba, 1, 0xFFFFFF, 1⟩] true
    let s := if !x.visible then s
      else { s with volumes := s.volumes.upd x.vol fun v => { v with lostBlocks := uniq (v.lostBlocks ++ [x.lba]) } }
    let key := s.stripeOf x.vol x.lba
    -- the stripe's parison may hold the block (DESIGN CHOICE 45)
    let s := match key.bind fun k => s.parisonOf x.vol k.1 k.2 with | some p => s.closeParison p.1 | none => s
    let s := (s.freeFrame f).coverDropped x.vol x.lba x.gen
    -- the stripe is complete no longer (R765)
    match (if x.visible then key else none) with
    | some k => { s with wp := { s.wp with complete := s.wp.complete.drop (· = k) } }
    | none => s

/-! ### Reading for a task -/

/-- Reads of a task may be hedged and are counted (R240, R247). -/
def TaskKind.isHost : TaskKind → Bool
  | .fill _ => true
  | .unit _ => true
  | _ => false

def TaskKind.isHedge : TaskKind → Bool
  | .hedge _ _ _ => true
  | _ => false

/-- Issue member reads for cells that are not asked for yet. -/
def State.issueCells (s : State) (id : Nat) (cells : List (Nat × Nat)) : State :=
  match s.tasks.look id with
  | none => s
  | some x =>
    let new := cells.filter fun c => !x.asked.contains c
    let s := s.updTask id fun x => { x with asked := x.asked ++ new }
    s.over (uniq (new.map (·.1))) fun s p =>
      s.askCells id false p (s.readPlace x.region p)
        ((sortBy (· ≤ ·) ((new.filter fun c => c.1 = p).map (·.2))).map fun g => (g, []))
        x.kind.isHost (x.kind.isHost || x.kind.isHedge)

/-- Lost positions of a segment for a task: those of the stripe, those lost for this task, and cells never read (R206). -/
def State.taskLost (s : State) (x : Task) (g : Nat) : List Nat :=
  uniq (s.lostFor x.region x.stripe ++ x.lost ++ (x.never.filter fun c => c.2 = g).map (·.1))

/-- Plan a task's wanted cells, and those it will write back, and issue the reads (R123, R237, R238). -/
def State.planWant (s : State) (id : Nat) : State :=
  match s.tasks.look id with
  | none => s
  | some x =>
    let m := s.regionTmpl x.region
    -- a cell that may take no part in a repair is still read for its own content (R224)
    let own := x.want.filter fun c => x.noRepair.contains c && !x.never.contains c && !(s.lostFor x.region x.stripe).contains c.1
      && !x.lost.contains c.1 && (x.cell c.1 c.2).isNone
    let plan (want : List (Nat × Nat)) : Plan :=
      recoverPlan m (fun g => uniq (s.taskLost x g ++ (x.noRepair.filter fun c => c.2 = g).map (·.1)))
        (fun p g => (x.cell p g).isSome) want
    let rest := x.want.filter fun c => !own.contains c
    -- what is written back is planned with W where it can be had, and takes no part in whether W can (R237, R238)
    let back := let gone := (plan (addCells rest x.back)).missing
      x.back.filter fun c => rest.contains c || !gone.contains c
    let pl : Plan := if (s.region x.region).st = .lost && x.kind.isHost then { missing := x.want } else plan (addCells rest back)
    -- where a read's W is unrecoverable, none of its blocks can be obtained (R237)
    let pl : Plan := if (x.kind.isHost || x.kind.isHedge) && !pl.missing.isEmpty then { missing := x.want }
      else { pl with cells := addCells own pl.cells }
    let s := s.updTask id fun x => { x with
      todo := pl.todo, missing := pl.missing, stage := .reading,
      got := x.got.filter fun e => !pl.missing.contains (e.1, e.2.1) }
    (s.issueCells id pl.cells).later (.advance id)

/-! ### Destage: entry, staging, frames (R182, R194, R197 to R201, R216) -/

/-- The staging segments a destage needs: P × n, none with a parison or in a LOST region (R199). -/
def State.stagingNeed (s : State) (r : Nat) (h : How) (segs : Nat) : Nat :=
  match h with
  | .parison => 0
  | .lostRegion => 0
  | _ => (s.regionTmpl r).checkCount * segs

/-- The table method is used when the volume is PWB and the permission is FULL or REDUCED (R194). -/
def State.useTable (s : State) (vol : Nat) : Bool :=
  match s.volumes.look vol with
  | some v => v.ackMode = .pwb && s.wp.perm ≠ .journaled
  | none => s.wp.perm ≠ .journaled

/-- The newest of some generations, 0 where there is none (R143, R197). -/
def newestOf : List (BitVec 32) → BitVec 32
  | [] => 0
  | g :: l => l.foldl (fun a b => if newerGen b a then b else a) g

/-- The in-flight destage table entry of a task (R197). -/
def State.entryOf (s : State) (x : Task) : Entry :=
  { seq := x.seq, region := x.region, template := (s.region x.region).template, regionGen := x.regionGen, vol := x.vol,
    stripe := x.stripe, method := x.method, parison := x.parison,
    newestGen := newestOf (x.frames.filterMap fun f => (s.frames.look f.1).map (·.gen)),
    writeMask := x.writeMask, doneMask := x.doneMask, segMask := maskOf 64 x.segs, staging := x.staging }

/-- Write a task's entry (R198). A restored entry stays as it was restored until its re-destage clears it (R207). -/
def State.writeEntry (s : State) (id : Nat) : State :=
  match s.tasks.look id with
  | none => s
  | some x => match x.kind, x.entry with
    | .redestage _, _ => s
    | _, some e => { s with table := s.table.put e (s.entryOf x) }
    | _, none => s

/-- Take a table entry and a staging run for a task that will write; where one is missing the task waits for it (R197,
R199). Answers whether it may go on. -/
def State.takeRoom (s : State) (id : Nat) (need : Nat) : Bool × State :=
  match s.tasks.look id with
  | none => (false, s)
  | some x =>
    let run := if need = 0 then some none
      else match x.staging with
        | some r => if r.2 = need then some (some r) else none
        | none => (freeRun need s.runsUsed 0).map fun a => some (a, need)
    let entry := if !x.tableMethod || x.entry.isSome then some x.entry
      else (freeEntry s.table (s.table.length + 1) 0).map some
    match entry, run with
    | none, _ => (false, s.updTask id fun x => { x with stage := .entryWait })
    | _, none => (false, s.updTask id fun x => { x with stage := .stagingWait })
    | some e, some r => (true, s.updTask id fun x => { x with entry := e, staging := r })

/-- The data cells within the capacity that a full-stripe rewrite has no frame for are to be read from members or recovered; the stripe's
CLEAN frames serve the others, and each tile job that reads one pins it (R140, R182). -/
def State.gatherStripe (s : State) (id : Nat) : State :=
  match s.tasks.look id with
  | none => s
  | some x =>
    let own (p g : Nat) : Bool := (x.frames ++ x.clean).any fun f => f.2.1 = p && f.2.2 = g
    let clean := (s.stripeFrames x.vol x.region x.stripe).filterMap fun f =>
      if f.2.2.2.st = .clean && !f.2.2.2.bad && !own f.2.1 f.2.2.1 then some (f.1, f.2.1, f.2.2.1) else none
    let all := x.frames ++ x.clean ++ clean
    let want := (s.dataCells x.vol x.region x.stripe).filterMap fun c =>
      if s.within x.vol c.2.2 && !all.any (fun f => f.2.1 = c.1 && f.2.2 = c.2.1) then some (c.1, c.2.1) else none
    s.updTask id fun x => { x with clean := x.clean ++ clean, want := want }

/-- Start a destage, or try again after a wait (R182, R200, R216): its method is chosen, its room taken, its frames move to
DESTAGING, and its reads are issued. Whether the table or the journal records it is decided once, when it starts (R194). A
stripe without dirty frames is left. The stripe leaves the orders of R181 here (DESIGN CHOICE 16). -/
def State.beginDestage (s : State) (id : Nat) : State :=
  match s.tasks.look id with
  | none => s
  | some x =>
    let fs : List (Nat × Nat × Nat × Frame) :=
      (s.stripeFrames x.vol x.region x.stripe).filter fun f => f.2.2.2.st = .dirty
    if fs.isEmpty then s.endTask id
    else
      let dirty : List (Nat × Nat) := fs.map fun f => (f.2.1, f.2.2.1)
      let h : How := s.chooseHow x.vol x.region x.stripe dirty
      let m := s.regionTmpl x.region
      let some_ : List Nat := sortBy (· ≤ ·) (uniq (dirty.map fun c => c.2))
      let segs : List Nat := if h = How.rmw || h = How.reconstruct || h = How.lostRegion then some_ else span 0 m.strip
      let par := (s.parisonOf x.vol x.region x.stripe).map (·.1)
      let s := match par with | some p => if h = How.parison then s else s.closeParison p | none => s
      let table := if x.stage = .lockWait then s.useTable x.vol else x.tableMethod
      let s := s.updTask id fun x => { x with tableMethod := table }
      let (ok, s) := s.takeRoom id (s.stagingNeed x.region h segs.length)
      if !ok then s
      else
        let cells := s.writeCells x.region x.stripe h dirty
        let st := (s.region x.region).st
        let seq := s.wp.nextDestageSeq
        let key := (x.region, x.stripe)
        let s := { s with wp := { s.wp with nextDestageSeq := seq + 1, demanded := s.wp.demanded.drop (· = key),
                                            aged := s.wp.aged.filter (· ≠ key), complete := s.wp.complete.drop (· = key) } }
        let s := s.updTask id fun x => { x with
          how := h, method := methodCode st h, segs := segs, seq := seq, regionGen := (s.region x.region).gen,
          writeMask := maskOf 64 (cells.map fun (c : Nat × Nat) => c.1), doneMask := 0,
          frames := fs.map fun (f : Nat × Nat × Nat × Frame) => (f.1, f.2.1, f.2.2.1),
          parison := if h = How.parison then par else none, newData := [], phase2 := false, zeroed := [], got := [] }
        let s := s.writeEntry id
        let s := s.over fs fun s f => s.updFrame f.1 fun y => { y with st := .destaging, holds := y.holds + 1 }
        match h with
        | .rmw =>
          let lost := s.lostFor x.region x.stripe
          let s := s.updTask id fun x => { x with stage := .reading, todo := [] }
          (s.issueCells id ((rmwCells m dirty).filter fun c => !lost.contains c.1)).later (.advance id)
        | .reconstruct =>
          let s := s.updTask id fun x => { x with stage := .reading, todo := [] }
          (s.issueCells id (s.reconCells x.vol x.region x.stripe dirty)).later (.advance id)
        | .full => (s.gatherStripe id).planWant id
        | _ => (s.updTask id fun x => { x with stage := .reading, todo := [] }).later (.advance id)

/-- A destage plans again from the start, after one of its blocks was dropped (R185): its frames are DIRTY again, and what it took is
given back. -/
def State.restartDestage (s : State) (id : Nat) : State :=
  match s.tasks.look id with
  | none => s
  | some x =>
    let s := s.over x.frames fun s e =>
      (s.updFrame e.1 fun y => { y with st := if y.st = .destaging then .dirty else y.st, holds := y.holds - 1 }).settleFrame e.1
    let s := ((s.dropReqs id).dropJobs id).freeStaging x.staging
    let s := match x.entry with | some e => { s with table := s.table.del e } | none => s
    let s := s.updTask id fun x => { x with
      entry := none, staging := none, frames := [], clean := [], reads := [], asked := [], job := none, firstFail := none, pinWait := false,
      got := [], todo := [], phase2 := false, newData := [], lost := [], failing := [], stage := .reading }
    s.beginDestage id

/-- A full-stripe rewrite treats one more position as lost: its entry says METHOD 4 from now on (R766). -/
def State.fullLost (s : State) (id pos : Nat) : State :=
  (s.updTask id fun x => { x with lost := uniq (x.lost ++ [pos]), method := 4 }).writeEntry id

/-- The records that a destage has written or waits to write are retired or dropped, before it plans again (R185, R217, R767). -/
def State.dropRecords (s : State) (id : Nat) : State :=
  match s.tasks.look id with
  | none => s
  | some x =>
    let s := s.queueRetire (x.journal.map fun q => (q, 0x1FF)) none
    ({ s with journal := { s.journal with waiting := s.journal.waiting.filter fun w => w.task ≠ some id } }).updTask id fun x =>
      { x with journal := [] }

/-- Has the region of a destage that writes nothing yet turned LOST, so that the LOST row of R182 applies to it (R767)? -/
def State.turnedLost (s : State) (x : Task) : Bool :=
  x.kind = .destage && (s.region x.region).st = .lost && x.how ≠ .lostRegion

/-- A destage becomes a full-stripe rewrite with a position lost for it (R766): the entry is rewritten with METHOD 4 and a
staging run for the whole stripe, and names the old run until there is room (DESIGN CHOICE 54). -/
def State.toFull (s : State) (id pos : Nat) : State :=
  match s.tasks.look id with
  | none => s
  | some x =>
    let m := s.regionTmpl x.region
    let s := s.dropReqs id
    let s := s.updTask id fun x => { x with lost := uniq (x.lost ++ [pos]), how := .full, method := 4, reads := [], asked := [],
                                            todo := [], got := [], phase2 := false, segs := span 0 m.strip, newData := [],
                                            staging := none }
    let s := s.freeStaging x.staging
    let (ok, s) := s.takeRoom id (m.checkCount * m.strip)
    if !ok then s
    else
      let lost := s.lostFor x.region x.stripe
      let s := s.updTask id fun x => { x with writeMask := maskOf 64 (m.positions.filter fun p => !lost.contains p) }
      ((s.writeEntry id).gatherStripe id).planWant id

/-! ### Journal records of a destage (R211, R213, R214, R346) -/

/-- Content in the order of R199: by position, then by segment. -/
def sortCells (l : List (Nat × Nat × Block)) : List (Nat × Nat × Block) :=
  sortBy (fun a b => a.1 < b.1 || (a.1 = b.1 && a.2.1 ≤ b.2.1)) l

/-- The DESTAGE chain or INTENT record of a task (R211, R214). -/
def State.destageRecs (s : State) (x : Task) (intent : Bool) : List JRecImage :=
  let m := s.regionTmpl x.region
  let base : JRecImage :=
    { bareRec (if intent then .intent else .destage) with
      method := x.method, vol := x.vol, stripe := x.stripe, region := x.region, template := (s.region x.region).template,
      regionGen := x.regionGen, gen := (s.entryOf x).newestGen, posMask := x.writeMask, segMask := maskOf 64 x.segs }
  if intent then [base]
  else
    let runs := chunks 496 x.newData.length (sortCells x.newData)
    (runs.zipIdx).map fun e =>
      { base with
        chainIndex := e.2, chainCount := runs.length, payload := e.1.map (·.2.2),
        descs := e.1.map fun c =>
          match x.frames.find? fun f => f.2.1 = c.1 && f.2.2 = c.2.1 with
          | some f => .seg c.1 c.2.1 false false (((s.frames.look f.1).map (·.gen)).getD 0)
          | none => .seg c.1 c.2.1 (!m.isData c.1) (m.isData c.1) 0 }

/-! ### Writes -/

/-- The content a task writes at one position. -/
def Task.newAt (x : Task) (p : Nat) : List (Nat × Block) := (x.newData.filter fun e => e.1 = p).map fun e => (e.2.1, e.2.2)

/-- Where a task writes a position: rebuild at the slot's target, a move at its destination, a re-placement in the new set,
everything else by R334 and R340. -/
def State.targetsOf (s : State) (x : Task) (p : Nat) : List (Nat × Nat) :=
  match x.kind with
  | .rebuild => [(s.region x.region).place p]
  | .copy =>
    match (s.workOf x.region).replace, (s.workOf x.region).move with
    | some n, _ => [basePlace n.bitmap n.row n.perm p]
    | none, some mv => [(mv.dstPort, mv.dstRow)]
    | none, none => [(s.region x.region).place p]
  | _ => s.writePlaces x.region x.stripe p

/-- A frame whose block a task is to write, and in which the exit point meets a marked word (R649). -/
def State.markedFrame (s : State) (x : Task) : Option (Nat × Nat × Nat) :=
  x.frames.find? fun e => (match s.frames.look e.1 with | some y => y.bad | none => false)
    && x.newData.any fun c => c.1 = e.2.1 && c.2.1 = e.2.2

/-- An exit point meets a marked word in a task's block: it sends nothing, the request ends with MARKED, and the task handles the block's
frame (R185, R649). -/
def State.exitMarked (s : State) (id island exit f : Nat) : State :=
  (s.markedExit island firmwareIsland exit).later (.marked id f)

/-- Issue the member writes of a task, position by position; a position without content counts as done. -/
def State.issueWrites (s : State) (id : Nat) : State :=
  match s.tasks.look id with
  | none => s
  | some x =>
    match s.markedFrame x with
    | some e => s.exitMarked id ((s.targetsOf x e.2.1).headD (0, 0)).1 1 e.1
    | none =>
    let s := s.updTask id fun x => { x with stage := .writing }
    let s := s.over (bitsOf x.writeMask) fun s p =>
      s.over (s.targetsOf x p) fun s pl => s.askCells id true p pl (sortBy (fun a b => a.1 ≤ b.1) (x.newAt p)) false false
    s.later (.advance id)

/-- Does a destage write every block of its stripe that lies within the capacity from a frame of its own: a complete stripe (R211,
R765)? -/
def State.writesAll (s : State) (x : Task) : Bool :=
  x.kind = .destage && x.how ≠ .full && (s.dataCells x.vol x.region x.stripe).all fun c =>
    !s.within x.vol c.2.2 || x.frames.any fun f => f.2.1 = c.1 && f.2.2 = c.2.1

/-- The vault channel that the next page of the journal stream goes to (R397). -/
def State.journalIsland (s : State) : Nat := 98 + s.vault.turns.getD 0 0 % 16

/-- A task's content is ready: its checks are staged, and its record is written first under the journal method (R200,
R216, R346). -/
def State.readyToWrite (s : State) (id : Nat) : State :=
  match s.tasks.look id with
  | none => s
  | some x =>
    let m := s.regionTmpl x.region
    let staged := match x.kind with
      | .destage => (sortCells x.newData).filter fun c => m.codedPositions.contains c.1
      | .redestage _ => []
      | _ => sortCells x.newData
    let s := match x.staging with | some (a, _) => s.stage a staged | none => s
    let needRec := match x.kind with
      | .destage => !x.tableMethod
      | .repair => !x.tableMethod
      | .resolve => !x.tableMethod
      | .scrub _ _ => !x.tableMethod
      | _ => false
    match (if x.both || (needRec && !s.writesAll x) then s.markedFrame x else none) with
    | some e => s.exitMarked id s.journalIsland 2 e.1
    | none =>
    -- a table-method task caught by R203 writes its DESTAGE record as soon as its content is ready
    let s := if x.both then s.appendRecs (s.destageRecs x false) none (some id) else s
    if needRec then
      let recs := s.destageRecs x (s.writesAll x)
      -- what the governor limits of this work takes its bytes to the vault dies too (R356, R377)
      let s := s.spend id (4096 * (recs.map segmentsOfRec).sum)
      let s := s.updTask id fun x => { x with stage := .journalWait }
      s.appendRecs recs none (some id)
    else s.issueWrites id

/-! ### Consistency-repair writes (R238, R258, R346) -/

/-- Record a repair as a destage with METHOD 4 and write it (R346). The task's `newData` is what it writes; it holds the
interlock. The repair of a read is left where its member has gone meanwhile (R238). -/
def State.beginRepair (s : State) (id : Nat) : State :=
  match s.tasks.look id with
  | none => s
  | some x =>
    let gone := x.kind = .repair && x.newData.any fun c => s.memberGone (s.readPlace x.region c.1).1
    if gone then s.endTask id
    else
    let table := if x.stage = .entryWait || x.stage = .stagingWait then x.tableMethod else s.useTable x.vol
    let s := s.updTask id fun x => { x with
      tableMethod := table, method := 4,
      segs := sortBy (· ≤ ·) (uniq (x.newData.map (·.2.1))), writeMask := maskOf 64 (x.newData.map (·.1)), doneMask := 0,
      regionGen := (s.region x.region).gen }
    let (ok, s) := s.takeRoom id x.newData.length
    if !ok then s
    else
      let seq := s.wp.nextDestageSeq
      let s := { s with wp := { s.wp with nextDestageSeq := seq + 1 } }
      ((s.updTask id fun x => { x with seq := seq }).writeEntry id).readyToWrite id

/-- Write back what a read repaired, position by position, on the foreground queues, unless its member has gone (R238, R283). -/
def State.startRepairs (s : State) (x : Task) : State :=
  s.over (uniq (x.back.map (·.1))) fun s p =>
    let cells := x.got.filter fun e => e.1 = p && x.back.contains (p, e.2.1)
    if cells.isEmpty || s.memberGone (s.readPlace x.region p).1 then s
    else (s.newTask { kind := .repair, vol := x.vol, region := x.region, stripe := x.stripe,
                      segs := uniq (cells.map (·.2.1)), newData := cells, cls := x.cls } (some true)).2

/-! ### Rebuild stripes (R321 to R323) -/

/-- The stripe cannot be recovered: the region's rebuild halts there and the region returns to the queue (R323). -/
def State.haltStripe (s : State) (id : Nat) : State :=
  match s.tasks.look id with
  | none => s
  | some x =>
    let w := bitsOf x.writeMask
    let again := (s.region x.region).st = .rebuilding
    let s := s.event Ev.rebuildStripeUnreadable 0 x.region x.stripe (w.map (2 ^ ·)).sum
    let now := s.now
    let s := s.updWork x.region fun w =>
      { w with halted := w.halted.filter (·.1 ≠ x.stripe) ++ [(x.stripe, now)], place := false, queued := again }
    let s := s.endTask id
    if (s.workOf x.region).restartAt0 then s.furtherLoss x.region else s

/-! ### Resolution and scrub findings (R256, R348, R349) -/

/-- The lines through a position whose tier has c_t ≥ 1, as (tier, line). -/
def linesThrough (m : Template) (p : Nat) : List (Nat × List Nat) :=
  ((span 0 m.tiers.length).filter fun t => 1 ≤ (m.tiers.getD t (1, 0)).2).map fun t => (t, m.line t p)

/-- Every line of every tier with c_t ≥ 1. -/
def allLines (m : Template) : List (Nat × List Nat) :=
  ((span 0 m.tiers.length).filter fun t => 1 ≤ (m.tiers.getD t (1, 0)).2).flatMap fun t => (m.lines t).map fun l => (t, l)

/-- What VERIFY found of a line in a segment: the mask of mismatching check rows, none where the line was not verified. -/
def Task.verdict (x : Task) (g : Nat) (l : Nat × List Nat) : Option Nat :=
  (x.findings.find? fun f => f.1 = l.1 && f.2.1 = l.2 && f.2.2.1 = g).map (·.2.2.2)

/-- The position that LOCATE named on a line in a segment. -/
def Task.named (x : Task) (g : Nat) (l : Nat × List Nat) : Option Nat :=
  (x.located.find? fun f => f.1 = l.1 && f.2.1 = l.2 && f.2.2.1 = g).bind (·.2.2.2)

/-- LOCATE operations for lines of tiers with c_t ≥ 2, each over its segments, but for what has been located (R256, R349). -/
def Task.locateOps (m : Template) (x : Task) (l : List ((Nat × List Nat) × List Nat)) : List TileOp :=
  (l.map fun e => (e.1, e.2.filter fun g => !x.located.any fun f => f.1 = e.1.1 && f.2.1 = e.1.2 && f.2.2.1 = g)).filterMap fun e =>
    if 2 ≤ (m.tiers.getD e.1.1 (1, 0)).2 && !e.2.isEmpty then some ⟨.locate e.1.1 e.1.2, e.2⟩ else none

/-- Is a line inconsistent with the content given (VERIFY, or comparison in a repetition tier)? -/
def lineBad (m : Template) (col : List (Nat × Block)) (l : Nat × List Nat) : Bool := !(verifyLine m l.1 l.2 col).isEmpty

/-- Replace one position of a column. -/
def withCell (col : List (Nat × Block)) (p : Nat) (b : Block) : List (Nat × Block) := (p, b) :: col.filter (·.1 ≠ p)

/-- A position's content repaired from a line without it (R121, R122). -/
def repairFromLine (m : Template) (l : Nat × List Nat) (col : List (Nat × Block)) (q : Nat) : Block :=
  contentOf (decodeLine m ⟨l.1, l.2, [q], [q]⟩ (col.filter (·.1 ≠ q))) q

/-- The row of R256 for one segment: row, judged false (R257), and what is rewritten, on the first line that names a position
(DESIGN CHOICE 54). -/
def resolveRow (m : Template) (x : Task) (p g : Nat) (delivered late : Block) : Nat × Bool × List (Nat × Nat × Block) :=
  let col := x.column g
  let lines := linesThrough m p
  let ok := lines.filter fun l => (x.verdict g l).isSome
  let all := ok.length = lines.length && (x.cell p g).isSome
  let fresh := contentOf col p
  let bad := ok.filter fun l => (x.verdict g l).getD 0 ≠ 0
  let named := ok.filterMap fun l => (x.named g l).map fun q => (q, l)
  if all && fresh = delivered && bad.isEmpty then (1, false, [])
  else
    let byP := named.find? fun e => e.1 = p
    let crossed := bad.length ≥ 2 && bad.all fun l => !lineBad m (withCell col p delivered) l
    match byP, crossed with
    | some e, _ => (2, false, [(p, g, repairFromLine m e.2 col p)])
    | none, true => (2, false, [(p, g, repairFromLine m (bad.headD (0, [])) col p)])
    | none, false =>
      match named.find? fun e => e.1 ≠ p with
      | some (q, l) => (3, fresh ≠ delivered, [(q, g, repairFromLine m l col q)])
      | none =>
        if all && fresh = late && bad.isEmpty then (4, true, []) else (5, false, [])

/-- The row of R349 for one segment with a mismatch: row, position q, tier, and what is rewritten. Row 2 names the tier of the first
line that repairs, and row 3 position 0 and tier 0 (DESIGN CHOICE 43); where
lines name different positions, row 1 takes the first line's (DESIGN CHOICE 55). -/
def scrubRow (m : Template) (x : Task) (g : Nat) (bad ok : List (Nat × List Nat)) : Nat × Nat × Nat × List (Nat × Nat × Block) :=
  let col := x.column g
  match bad.findSome? fun l => (x.named g l).map fun q => (q, l) with
  | some (q, l) => (1, q, l.1 + 1, [(q, g, repairFromLine m l col q)])
  | none =>
    let tiers := uniq (bad.map (·.1))
    let common := m.positions.filter fun q => bad.all fun l => l.2.contains q
    let crossed := if tiers.length < 2 then none else common.findSome? fun q => bad.findSome? fun l =>
      let b := repairFromLine m l col q
      if ok.all fun k => !lineBad m (withCell col q b) k then some (q, l.1, b) else none
    match crossed with
    | some (q, t, b) => (2, q, t + 1, [(q, g, b)])
    | none =>
      let data := (m.positions.filter m.isData).filter fun p => !x.unreadable.contains p && (x.cell p g).isSome
      let enc := encodeAll m (data.map fun p => (p, contentOf col p))
      let checks := m.positions.filter fun q =>
        !m.isData q && !x.unreadable.contains q && (x.cell q g).isSome
          && ((m.positions.filter m.isData).all fun p => (m.factor p q).isNone || data.contains p)
          && contentOf enc q ≠ contentOf col q
      (3, 0, 0, checks.map fun q => (q, g, contentOf enc q))

/-- Read what a resolution needs: the position again and every line through it (R256). -/
def State.startResolve (s : State) (id : Nat) : State :=
  match s.tasks.look id with
  | none => s
  | some x =>
    match x.late with
    | [] => s.endTask id
    | l :: _ =>
      let m := s.regionTmpl x.region
      let segs := sortBy (· ≤ ·) (uniq ((x.late.filter fun e => e.pos = l.pos).flatMap fun e => e.late.map (·.1)))
      let ps := uniq ([l.pos] ++ (linesThrough m l.pos).flatMap (·.2))
      let lost := s.lostFor x.region x.stripe
      let s := s.updTask id fun x => { x with stage := .reading, segs := segs, got := [], asked := [], reads := [], findings := [],
                                              located := [], phase2 := false, newData := [], todo := [] }
      (s.issueCells id ((ps.filter fun p => !lost.contains p).flatMap fun p => segs.map fun g => (p, g))).later (.advance id)

/-- Read a stripe for scrub or a check: every position; those of the region's lost set are unreadable (R348). -/
def State.startScrub (s : State) (id : Nat) : State :=
  match s.tasks.look id with
  | none => s
  | some x =>
    let m := s.regionTmpl x.region
    let lost := s.lostSet x.region
    let segs := span 0 m.strip
    let s := s.updTask id fun x => { x with stage := .reading, segs := segs, unreadable := lost }
    (s.issueCells id ((m.positions.filter fun p => !lost.contains p).flatMap fun p => segs.map fun g => (p, g))).later (.advance id)

/-- Want cells for a rebuild or copy stripe (R321, R333, R340). -/
def State.startCopy' (s : State) (id : Nat) : State :=
  match s.tasks.look id with
  | none => s
  | some x =>
    let m := s.regionTmpl x.region
    let segs := span 0 m.strip
    let ps := match x.kind with
      | .rebuild => ((s.region x.region).relocs.filter fun y => !y.complete).map (·.pos)
      | _ => match (s.workOf x.region).replace, (s.workOf x.region).move with
        | some _, _ => m.positions
        | none, some mv => [mv.pos]
        | none, none => ((s.region x.region).relocs.filter fun y => !y.complete).map (·.pos)
    let s := s.updTask id fun x => { x with segs := segs, want := ps.flatMap fun p => segs.map fun g => (p, g),
                                            writeMask := maskOf 64 ps }
    s.planWant id

/-! ### A task's interlock is granted -/

/-- Prepare a re-destage (R205, R206, R224): data content that the restart supplies is in `newData`, what serves repairs alone in `given`,
and cells that are never read are in `never`; missing data blocks come from members. -/
def State.startRedestage (s : State) (id : Nat) : State :=
  match s.tasks.look id with
  | none => s
  | some x =>
    let m := s.regionTmpl x.region
    let have_ := s.stripeFrames x.vol x.region x.stripe
    let want : List (Nat × Nat × Nat) := (s.dataCells x.vol x.region x.stripe).filter fun c =>
      s.within x.vol c.2.2 && !(have_.any fun f => f.2.1 = c.1 && f.2.2.1 = c.2.1)
        && !x.newData.any fun e => e.1 = c.1 && e.2.1 = c.2.1
    let lost := s.lostFor x.region x.stripe
    -- the blocks at the generations that the destage wrote: their frames are among the inputs of a repair (R140, R206)
    let at_ : List ((Nat × Nat × Nat) × Block) := x.gens.filterMap fun d =>
      (s.frames.find? fun f => f.2.vol = x.vol && f.2.gen = d.2.2 && f.2.lba = s.cellLba x d.1 d.2.1).map fun f =>
        ((f.1, d.1, d.2.1), s.frameContent f.2)
    let written : List (Nat × Nat × Block) := at_.map fun e => (e.1.2.1, e.1.2.2, e.2)
    let s := s.updTask id fun x => { x with frames := at_.map (·.1),
                                            got := written ++ x.given.filter fun c => !written.any fun d => d.1 = c.1 && d.2.1 = c.2.1 }
    -- the stripe is rewritten whole from other sources, so its parison is of no more use (R177)
    let s := match s.parisonOf x.vol x.region x.stripe with
      | some (p, _) => if s.tasks.any fun t => t.2.parison = some p then s else s.closeParison p
      | none => s
    (s.updTask id fun x => { x with segs := span 0 m.strip, how := if (s.region x.region).st = .lost then .lostRegion else .full,
                                    want := want.map fun c => (c.1, c.2.1),
                                    writeMask := maskOf 64 (m.positions.filter fun p => !lost.contains p) }).planWant id

/-- The interlock of a task is granted: it begins. -/
def State.startTask (s : State) (id : Nat) : State :=
  match s.tasks.look id with
  | none => s
  | some x =>
    match x.kind with
    | .fill _ => s.planWant id
    | .unit _ => s.planWant id
    | .hedge _ _ _ => s.planWant id
    | .destage => s.beginDestage id
    | .redestage _ => s.startRedestage id
    | .repair => s.beginRepair id
    | .rebuild => s.startCopy' id
    | .copy => s.startCopy' id
    | .scrub _ _ => s.startScrub id
    | .resolve => s.startResolve id
    | .zero _ => s.issueWrites id

end Sys2Proof.Machine
end

