-- ==== Sys2Proof/Machine/Settle.lean ====
section
/-! DEFINITION. How a stripe task goes on: tile jobs and their failure, member requests and their endings, late data,
completion by kind, and the loop that does a step's follow-up work. -/

namespace Sys2Proof.Machine

open Sys2Proof

/-! ### Tile operations of a task (R122, R127, R130) -/

/-- The frame whose content an input of a task's operation is, if it is one. -/
def Task.frameAt (x : Task) (p g : Nat) : Option Nat :=
  ((x.frames ++ x.clean).find? fun f => f.2.1 = p && f.2.2 = g).map (·.1)

/-- The frame that an input of an operation is in a segment: the new content of an UPDATE is one, its old content is not (R125). -/
def Task.inputFrame (m : Template) (x : Task) (op : JobOp) (input g : Nat) : Option Nat :=
  match op, input with
  | .update _ _, 0 => none
  | op, i => (op.inputs m)[i]?.bind fun p => x.frameAt p g

/-- The frames that a job of a task pins (R140). -/
def Task.jobFrames (m : Template) (x : Task) (o : TileOp) : List Nat :=
  uniq ((span 0 (o.op.inputs m).length).flatMap fun i => o.segs.filterMap fun g => x.inputFrame m o.op i g)

/-- The CLEAN frames that a rewrite counts on and that hold their blocks no longer: superseded, reclaimed or dropped since (R145, R147). -/
def State.cleanGone (s : State) (x : Task) : List Nat :=
  (x.clean.filter fun e => match s.frames.look e.1 with
    | some y => !(y.vol = x.vol && y.lba = s.cellLba x e.2.1 e.2.2 && (y.st = .clean || y.st = .superseded))
    | none => true).map (·.1)

/-- A rewrite takes its blocks again from the frames and members as they now stand. -/
def State.regather (s : State) (id : Nat) : State :=
  ((s.updTask id fun x => { x with
    job := none, firstFail := none, clean := [], got := [], asked := [], todo := [], phase2 := false }).gatherStripe id).planWant id

/-- Does an operation check a line: VERIFY or LOCATE? -/
def JobOp.checks : JobOp → Bool
  | .verify _ _ => true
  | .locate _ _ => true
  | _ => false

/-- Carry out the next operation of a task: at once in a repetition tier, else as a tile job, background for rebuild,
re-placement, moves, scrub and checks (R111, R122, R133). A tile verifies a repetition line for a hedge disagreement, where scrub compares
its copies (R125, R256, R348). The job waits where a frame it reads has no pin free (R148); a rewrite whose CLEAN frames have gone reads
their blocks. -/
def State.nextOp (s : State) (id : Nat) (x : Task) (o : TileOp) (rest : List TileOp) : State :=
  let m := s.regionTmpl x.region
  if !(s.cleanGone x).isEmpty then s.regather id
  else if o.op.data m = 1 && !(x.kind = .resolve && o.op.checks) then (s.updTask id fun x => { (x.apply m o) with todo := rest }).later (.advance id)
  else
    let pins := x.jobFrames m o
    if !s.canPin pins then s.updTask id fun x => { x with pinWait := true }
    else
      let (j, s) := s.newId
      let s := s.updTask id fun x => { x with job := some j, pinWait := false }
      let bg := match x.kind with | .rebuild => true | .copy => true | .scrub _ _ => true | _ => false
      (s.pinAll pins).sendJob
        { id := j, op := o.op, task := some id, fg := !bg, bytes := (o.op.inputs m).length * o.segs.length * 4096, segs := o.segs,
          pins := pins }
        none (x.firstFail.map (·.1))

/-- The operation at the front of a task is finished. -/
def State.opDone (s : State) (id : Nat) : State :=
  match s.tasks.look id with
  | none => s
  | some x => match x.todo with
    | [] => s
    | op :: rest =>
      let m := s.regionTmpl x.region
      let s := match x.firstFail with
        | some (t, _) =>
          -- the retry succeeded, so the first tile's failure counts toward its record, and the word as found there (R130, R648)
          (s.wordBad (114 + t) 0).setTile t { s.tile t with failTimes := (s.tile t).failTimes ++ [s.now] }
        | none => s
      (s.updTask id fun x => { (x.apply m op) with todo := rest, job := none, firstFail := none }).later (.advance id)

/-! ### Late member data (R253 to R255) -/

/-- Count late data that is not compared (R253). -/
def State.uncompared (s : State) (vol : Nat) : State :=
  { s with volumes := s.volumes.upd vol fun v => { v with lateUncompared := sat32 v.lateUncompared } }

/-- A READ that found differing late data upgrades to the exclusive interlock, or joins the upgrade in place (R255). -/
def State.requestUpgrade (s : State) (id : Nat) : State :=
  match s.tasks.look id with
  | none => s
  | some x =>
    let l := s.lock x.region x.stripe
    let other := match l.upgrade with
      | some u => some u
      | none => match l.excl with
        | some u => match s.tasks.look u with
          | some y => if y.kind = .resolve then some u else none
          | none => none
        | none => none
    match other with
    | some u => if u = id then s
      else ((s.updTask u fun y => { y with late := y.late ++ x.late }).updTask id fun x => { x with late := [] }).endTask id
    | none =>
      let s := s.updTask id fun x => { x with kind := .resolve, stage := .lockWait }
      let l := { l with upgrade := some id }
      (s.setLock x.region x.stripe l).grantLock x.region x.stripe

/-- A task whose late reads are over ends, or takes its stripe through the resolution (R253, R254). -/
def State.lateOver (s : State) (id : Nat) : State :=
  match s.tasks.look id with
  | none => s
  | some x =>
    if !x.lateReads.isEmpty || (x.stage ≠ .late && x.stage ≠ .uncompared) then s
    else if x.late.isEmpty || x.stage = .uncompared then s.endTask id
    else s.requestUpgrade id

/-- 50 ms after the delivery the shared interlock is released, and what still comes late is not compared (R253). A difference found
already is resolved under the hold as it stands (R254, R255). -/
def State.holdEnds (s : State) (id : Nat) : State :=
  match s.tasks.look id with
  | none => s
  | some x =>
    if x.late.isEmpty then (s.updTask id fun x => { x with stage := .uncompared }).releaseLock id x.region x.stripe
    else
      let (n, s) := s.newId
      let l := s.lock x.region x.stripe
      let s := s.setLock x.region x.stripe { l with shared := l.shared.map fun t => if t = id then n else t }
      let s := { s with tasks := s.tasks.put n { x with lateReads := [] } }
      (s.updTask id fun x => { x with stage := .uncompared, late := [] }).requestUpgrade n

/-- Has the location of a request's position changed since it was issued (R87)? -/
def State.locationMoved (s : State) (x : Task) (port : Nat) (r : Req) : Bool :=
  s.readPlace x.region r.pos ≠ (port, r.row) && (s.region x.region).gen ≠ r.gen

/-- A member read whose data is only compared is issued again where its position now lies (R87, R252); a position that is lost by then has
nothing to compare. -/
def State.lateAgain (s : State) (id : Nat) (x : Task) (r : Req) : State :=
  if (s.lostFor x.region x.stripe).contains r.pos then s
  else
    let place := s.readPlace x.region r.pos
    let (n, s) := s.askPort place.1 { r with
      row := place.2, gen := (s.region x.region).gen, acceptedAt := s.now, submittedAt := none, slot := none, softCounted := false, quarantined := none }
    s.updTask id fun x => { x with lateReads := x.lateReads ++ [(n, r.pos)] }

/-- A member read ends after its reconstruction was delivered (R252 to R254): its data goes into FILLING frames, which those segments
keep that differ. -/
def State.lateEnded (s : State) (id port req pos : Nat) (r : Req) (res : ReqResult) : State :=
  match s.tasks.look id with
  | none => s
  | some x =>
    let s := s.updTask id fun x => { x with lateReads := x.lateReads.filter fun e => e.1 ≠ req }
    let delivered := r.segs.map fun g => (g, (x.cell pos g).getD [])
    let writeBack (s : State) : State :=
      s.startRepairs { x with back := r.segs.map fun g => (pos, g), got := delivered.map fun e => (pos, e.1, e.2) }
    let s := if s.locationMoved x port r then s.lateAgain id x r else match res with
      | .ok data =>
        if data.any Option.isNone then writeBack (s.uncompared x.vol)
        else if x.stage = Stage.uncompared then s.uncompared x.vol
        else
          let got : List (Nat × Block) := (r.segs.zip data).map fun (e : Nat × Option Block) => (e.1, e.2.getD [])
          let diff := got.filter fun (e : Nat × Block) => (x.cell pos e.1).getD [] ≠ e.2
          if diff.isEmpty then s
          else
            -- the blocks delivered in the differing segments: the position's own, or what was computed from it
            let own := x.want.filter fun (c : Nat × Nat) => c.1 = pos && diff.any fun (d : Nat × Block) => d.1 = c.2
            let cells := if own.isEmpty then x.want.filter fun (c : Nat × Nat) => diff.any fun (d : Nat × Block) => d.1 = c.2 else own
            let lbas := cells.map fun (c : Nat × Nat) => s.cellLba x c.1 c.2
            let (fs, s) := s.takeFrames (diff.map fun (d : Nat × Block) => { vol := x.vol, lba := s.cellLba x pos d.1, st := .filling, data := d.2 })
            s.updTask id fun x => { x with late := x.late ++
              [({ reads := x.owners.filter fun t => t.took.any lbas.contains, pos := pos, late := diff, lbas := lbas, frames := fs,
                  delivered := delivered.filter fun (e : Nat × Block) => diff.any fun d => d.1 = e.1 } : LateRead)] }
      | .media => writeBack s
      | _ => s
    s.lateOver id

/-! ### Ending of the kinds -/

/-- What the task leaves: it ends, or stays for the member data that a delivered reconstruction overtook (R252, R253). -/
def State.leave (s : State) (id : Nat) : State :=
  match s.tasks.look id with
  | none => s
  | some x =>
    if x.lateReads.isEmpty && x.late.isEmpty then s.endTask id
    else
      let now := s.now
      (s.updTask id fun x => { x with stage := .late, deliveredAt := now, fills := [] }).lateOver id

/-- The READs that take blocks from a task are kept for the comparison of late data, before it delivers (R254, R259). -/
def State.noteTakers (s : State) (id : Nat) (x : Task) (cells : List (Nat × Option Block)) : State :=
  let tags := s.takers x ((cells.filter fun e => e.2.isSome).map (·.1))
  s.updTask id fun x => { x with
    owners := tags, late := x.late.map fun e => { e with reads := tags.filter fun t => t.took.any e.lbas.contains } }

/-- The missing blocks of a READ are obtained (R232, R235, R238). -/
def State.fillOver (s : State) (id : Nat) (x : Task) : State :=
  let cells := x.want.map fun c => (s.cellLba x c.1 c.2, x.cell c.1 c.2)
  let s := s.noteTakers id x cells
  let s := s.over x.fills fun s f => s.fillDone f.1 (x.cell f.2.1 f.2.2)
  let s := s.deliver x cells
  let s := s.startRepairs x
  (s.updTask id fun x => { x with fills := [] }).leave id

/-- A run-ahead unit is complete: installed whole, or discarded where a block cannot be had (R266). -/
def State.unitOver (s : State) (id : Nat) (x : Task) : State :=
  let bad := x.fills.any fun f => (x.cell f.2.1 f.2.2).isNone
  let cells := x.want.map fun c => (s.cellLba x c.1 c.2, if bad then none else x.cell c.1 c.2)
  let s := s.over x.fills fun s f => s.fillDone f.1 (if bad then none else x.cell f.2.1 f.2.2)
  let s := s.noteTakers id x cells
  let s := { s with volumes := s.volumes.upd x.vol fun v =>
    if bad then { v with runaheadDiscarded := sat64 v.runaheadDiscarded } else { v with runaheadVisible := sat64 v.runaheadVisible } }
  let s := s.deliver x cells
  let s := s.startRepairs x
  (s.updTask id fun x => { x with fills := [] }).leave id

/-- Forget a member read of a task that has ended, with the cells it was to bring. -/
def Task.without (x : Task) (req pos : Nat) (segs : List Nat) : Task :=
  { x with reads := x.reads.filter fun e => e.1 ≠ req, failing := x.failing.filter fun e => e.1 ≠ req,
           asked := x.asked.filter fun a => !(a.1 = pos && segs.contains a.2) }

/-- A member read of a task, which is no hedge, cannot be had: the position is lost for the task, which plans again (R237, R239, R256,
R323, R348, R766); `back` asks for the write-back of R238 or R348. -/
def State.memberReadLost (s : State) (id : Nat) (pos : Nat) (segs : List Nat) (back : Bool) : State :=
  match s.tasks.look id with
  | none => s
  | some x =>
    let cells := segs.map fun g => (pos, g)
    let lose (s : State) : State := s.updTask id fun x =>
      { x with lost := uniq (x.lost ++ [pos]), back := if back then addCells x.back cells else x.back }
    let alone (s : State) : State := s.updTask id fun x => { x with lost := uniq (x.lost ++ [pos]) }
    match x.kind with
    | .fill _ => (lose s).planWant id
    | .unit _ => (lose s).planWant id
    | .hedge _ _ _ => s.endTask id
    | .destage => if x.how = .full then (s.fullLost id pos).planWant id else s.toFull id pos
    | .redestage _ => (alone s).planWant id
    | .rebuild => (lose s).planWant id
    | .copy => (lose s).planWant id
    | .scrub _ _ => (s.updTask id fun x =>
        { x with unreadable := uniq (x.unreadable ++ [pos]), back := if back then addCells x.back cells else x.back }).later (.advance id)
    | .resolve => s.later (.advance id)
    | .repair => s
    | .zero _ => s

/-- A hedge is abandoned, and the member read alone decides; where that has ended without good data already, its failure takes effect
now (R252). -/
def State.abandonHedge (s : State) (id parent req : Nat) : State :=
  let s := s.endTask id
  match s.tasks.look parent with
  | none => s
  | some y => match y.failing.find? fun e => e.1 = req with
    | some (_, pos, segs, back) => (s.updTask parent fun y => y.without req pos segs).memberReadLost parent pos segs back
    | none => s

/-- The reconstruction of a hedge is ready: delivered where the member's data has not come first. A member read that ended without good
data before it has no late data; its position is written back where R238 asks for that (R252). -/
def State.hedgeOver (s : State) (id parent req pos : Nat) (x : Task) : State :=
  if !x.missing.isEmpty then s.abandonHedge id parent req
  else
  let s := s.endTask id
  match s.tasks.look parent with
  | none => s
  | some y =>
    if !y.reads.contains (req, pos) then s
    else
      let cells := x.want.filterMap fun c => (x.cell c.1 c.2).map fun b => (c.1, c.2, b)
      let s := { s with volumes := s.volumes.upd y.vol fun v => { v with hedgesWon := sat64 v.hedgesWon } }
      let done := cells.map fun c => (c.1, c.2.1)
      let ended := y.failing.find? fun e => e.1 = req
      let back : Bool := match ended with | some (_, _, _, b) => b | none => false
      (s.updTask parent fun y =>
        { ((y.gain cells).without req pos (done.map (·.2))) with
          lateReads := if ended.isSome then y.lateReads else y.lateReads ++ [(req, pos)],
          back := if back then addCells y.back done else y.back }).later (.advance parent)

/-- Retire items for a destage: its own records whole, and the blocks of WRITE records it wrote at their generation or a
newer one (R217), but of no record that still waits for ring room (DESIGN CHOICE 54). -/
def State.itemsOf (s : State) (x : Task) : List (Nat × Nat) :=
  let whole := x.journal.map fun q => (q, 0x1FF)
  let blocks := x.frames.filterMap fun f => (s.frames.look f.1).map fun y => (y.vol, y.lba, y.gen)
  let gens := blocks ++ x.gens.map fun e => (x.vol, s.cellLba x e.1 e.2.1, e.2.2)
  let items := gens.flatMap fun b =>
    (s.journal.recs.filter fun e => e.2.img.kind = .write && e.2.img.vol = b.1 && e.2.img.firstLba ≤ b.2.1
        && b.2.1 < e.2.img.firstLba + e.2.img.payload.length && atLeastGen b.2.2 e.2.img.gen).map fun e =>
      (e.1, b.2.1 - e.2.img.firstLba)
  whole ++ items

/-- A task that writes the members of its stripe ends; the parison it wrote from is closed once its entry is cleared and its staging run
freed (R177, R201). -/
def State.endWrite (s : State) (id : Nat) (x : Task) : State :=
  let s := s.endTask id
  match x.parison with
  | some p => s.closeParison p
  | none => s

/-- Queue a task's items and end it: under the journal method, and under R203, once they have committed; where R203's record still
waits for ring room, its own item follows it (R203, R216). -/
def State.retireWith (s : State) (id : Nat) (x : Task) (items : List (Nat × Nat)) : State :=
  let hold := !x.tableMethod || x.both
  let s := s.queueRetire items (if hold then some id else none)
  if hold && (s.retirePending id || s.recordWaits id) then s.updTask id fun x => { x with stage := .retiring, frames := [] }
  else s.endWrite id x

def State.retireTask (s : State) (id : Nat) (x : Task) : State := s.retireWith id x (s.itemsOf x)

/-- Zeroed blocks are listed as lost (R225, R767). -/
def State.zeroLoss (s : State) (x : Task) (cause : Nat) : State :=
  if x.zeroed.isEmpty then s
  else
    let ps := uniq (x.zeroed.map (·.1))
    let s := s.addLoss x.vol (x.zeroed.map fun c => ⟨s.cellLba x c.1 c.2, 1, 0xFFFFFF, cause⟩) true
    if cause = 2 then s.over ps fun s p => s.event Ev.intentStripeLoss 0 x.region x.stripe p
    else s.event Ev.stripeUnrecoverable 0 x.region x.stripe (ps.length + ps.foldl min 63 * 256)

/-- Every member write of a destage has completed (R184, R195, R201, R217). -/
def State.destageOver (s : State) (id : Nat) (x : Task) : State :=
  let gens := x.frames.filterMap fun f => (s.frames.look f.1).map fun y => (y.lba, y.gen)
  let items := s.itemsOf x
  let s := s.over x.frames fun s f =>
    (s.updFrame f.1 fun y =>
      { y with holds := y.holds - 1, absorbed := false, journaled := if y.st = .destaging then false else y.journaled,
               jref := if y.st = .destaging then none else y.jref, st := if y.st = .destaging then .clean else y.st }).settleFrame f.1
  let s := s.zeroLoss x 6
  -- a stripe at which the region's rebuild is halted is tried again (R323)
  let s := if (s.workOf x.region).halted.any fun h => h.1 = x.stripe then
      s.updWork x.region fun w => { w with halted := w.halted.filter (·.1 ≠ x.stripe) } else s
  (s.retireWith id x items).coverDone x.vol gens

/-- Release the SUPERSEDED frames that restored entries held, among those that `of_` takes (R202, R207, R483). -/
def State.freeRestored (s : State) (of_ : Frame → Bool) : State :=
  s.over ((s.frames.filter fun e => e.2.st = .superseded && of_ e.2).map (·.1)) fun s f =>
    (s.updFrame f fun y => { y with holds := 0 }).settleFrame f

/-- Marked regions are checked before READY, and every volume that has one is CACHE_LOST (R209, R485, R525). Answers the regions and
the volumes. -/
def State.checkMarked (s : State) (marked : List Nat) : List Nat × List Nat × State :=
  let l := marked.filter fun r => (s.region r).st ≠ .free
  let s := s.over l fun s r => s.updRegion r fun e => { e with checkPending := true }
  let vols := uniq (l.filterMap s.volumeOf)
  let s := s.over vols fun s v => match s.volumes.look v with
    | some x => s.addLoss v ((x.vmap.zipIdx.filter fun e => l.contains e.1).map fun e => s.regionLoss x e.2) true
    | none => s
  (l, vols, { s with life := { s.life with checksFirst := l } })

/-- Without a usable dump the marked regions are checked before READY (R209, R485). -/
def State.checksWithoutDump (s : State) : State :=
  let (l, _, s) := s.checkMarked s.pair.bitmap
  s.event Ev.activityCheck 0 l.length 0 0

/-- Start-up goes on (R204, R480, R486): with the last replay, EV_JOURNAL_REPLAY (its last SEQ is the last in use then, DESIGN CHOICE 54),
and the re-destages in order, or the checks that a missing dump asks for, as step 9; with the last of these,
EV_REDESTAGE where the dump was usable, the SUPERSEDED frames are freed, and the restored frames with JOURNALED = 0 are
destaged. -/
def State.startProgress (s : State) : State :=
  if !s.life.starting then s
  else
    let replays := s.tasks.any fun e => match e.2.kind with | .redestage l => !l.isEmpty | _ => false
    let s := if s.life.step = 8 && !replays then
        let s := { s with life := { s.life with step := 9 } }
        let s := s.event Ev.journalReplay 0 s.life.replayed s.life.installed (s.journal.nextSeq - 1)
        let s := if s.life.usableDump || s.life.takeover.isSome then s else s.checksWithoutDump
        s.over s.life.redestages fun s id =>
          match s.tasks.look id with
          | some x => s.requestLock id x.region x.stripe true
          | none => s
      else s
    if s.life.step = 9 && s.life.redestages.isEmpty && s.life.checksFirst.isEmpty then
      let s := { s with life := { s.life with step := 10 } }
      let s := if s.life.usableDump && !s.life.held then
          s.event Ev.redestage 0 s.life.redestaged s.life.repaired s.life.zeroedStripes else s
      let s := s.freeRestored fun _ => true
      s.demand (((s.frames.filter fun e => e.2.st = .dirty && !e.2.journaled).filterMap
        fun e => s.stripeOf e.2.vol e.2.lba).foldl (fun l x => if l.contains x then l else l ++ [x]) [])
    else s

/-- A re-destage or replay has written its stripe (R207, R224, R225): its entry is cleared, its records are retired. -/
def State.redestageOver (s : State) (id : Nat) (x : Task) (records : List Nat) : State :=
  let gens := x.frames.filterMap fun f => (s.frames.look f.1).map fun y => (y.lba, y.gen)
  let items := s.itemsOf { x with journal := records }
  let s := s.over x.frames fun s f =>
    s.updFrame f.1 fun y => if y.visible then { y with st := .clean, journaled := false, jref := none } else y
  -- the frames that the entry of the stripe held are released with it, not with a record of the same stripe (R202, R206, R207)
  let s := if !records.isEmpty then s
    else s.freeRestored fun y => y.vol = x.vol && s.stripeOf y.vol y.lba = some (x.region, x.stripe)
  let intent := records.any fun q => match s.journal.recs.look q with | some r => r.img.kind = .intent | none => false
  let s := s.zeroLoss x (if intent then 2 else 6)
  let l := s.life
  let s := if !records.isEmpty then s else { s with life := { l with
    redestages := l.redestages.filter (· ≠ id), redestaged := l.redestaged + 1,
    repaired := l.repaired + b2n x.repaired, zeroedStripes := l.zeroedStripes + b2n !x.zeroed.isEmpty } }
  let s := s.queueRetire items none
  ((s.endWrite id x).coverDone x.vol gens).startProgress

/-- A zero task of VOLUME_CREATE is over; the command completes with the last (R623). -/
def State.zeroOver (s : State) (id acc : Nat) : State :=
  let s := s.endTask id
  match s.cmds.look acc with
  | none => s
  | some c =>
    let left := c.tasksLeft - 1
    let s := s.updCmd acc fun c => { c with tasksLeft := left }
    if left = 0 && c.phase = .running then
      let v := c.sqe.pfield 0 0 12
      let s := { s with volumes := s.volumes.upd v fun x => { x with init := false } }
      let f := match s.volumes.look v with | some x => x.attached.getD ⟨0, 0⟩ | none => ⟨0, 0⟩
      let n := match s.volumes.look v with | some x => x.vmap.length | none => 0
      ((s.noteVolume v).volEvent Ev.volume v v 0 (fnKey f)).finishLogged acc St.success (w32 n)
    else s

/-- EV_VOLUME for each array volume that a take-over or an ARRAY_IMPORT attaches again (R516 step 7, R527, R644). -/
def State.volumesAttached (s : State) : State :=
  s.over (s.volumes.filter fun e => !e.2.vault) fun s e => match e.2.attached with
    | some f => s.volEvent Ev.volume e.1 e.1 2 (fnKey f)
    | none => s

/-- An ARRAY_IMPORT ends once every marked region has been checked: the volumes are attached, and the command completes with the
regions marked (R525, R527). -/
def State.importProgress (s : State) : State :=
  match s.mgmt.importing with
  | none => s
  | some (acc, former, marked) =>
    if !s.life.checksFirst.isEmpty then s
    else
      let low (x : BitVec 256) : Nat := x.toNat % 2 ^ 32
      let s := { s with mgmt := { s.mgmt with importing := none }, life := { s.life with foreign_ := false },
                        pools := s.pools.each fun _ (p : Pool) => { p with foreign_ := false } }
      let s := (s.writeLabels fun l => { l with takeover := false }).volumesAttached
      (s.event Ev.arrayImported s.sideNo (low former) (low Config.identity) marked).finish acc St.success (w32 marked)

/-- The stripe of a scrub or check is over (R347, R350): CHECK_PENDING is cleared with the last stripe of a check. -/
def State.scrubOver (s : State) (id : Nat) (x : Task) (check : Bool) : State :=
  let s := s.retireTask id x
  let left := s.tasks.any fun t => t.1 ≠ id && t.2.region = x.region &&
    (match t.2.kind with | .scrub _ c => c | _ => false)
  if check && (s.workOf x.region).checkNext ≥ s.stripes x.region && !left then
    let s := s.updRegion x.region fun e => { e with checkPending := false }
    let s := s.updWork x.region fun w => { w with checkNext := 0, reportOnly := false }
    let s := { s with life := { s.life with checksFirst := s.life.checksFirst.filter (· ≠ x.region) } }
    let t := s.mgmt.selfTest
    if t.status = 1 && t.left.contains x.region then
      { s with mgmt := { s.mgmt with selfTest := { t with
          regionsChecked := t.regionsChecked + 1, left := t.left.filter (· ≠ x.region) } } }.importProgress.startProgress
    else s.importProgress.startProgress
  else s

/-- What a resolution found for late data is kept for the READs it was delivered to: for each the rows, as (segment, row, judged false),
of the segments that hold blocks it took (R257, R259). -/
def State.noteSuspects (s : State) (vol : Nat) (e : LateRead) (rows : List (Nat × Nat × Bool)) : State :=
  s.over e.reads fun s t =>
    let y := s.suspects.read t.acc { tag := t, vol := vol }
    let mine := t.took.filter e.lbas.contains
    let segs := match s.volumes.look vol with
      | some v => mine.map fun l => (s.locate v l).seg
      | none => []
    let here := (rows.filter fun r => segs.contains r.1).map (·.2)
    { s with suspects := s.suspects.put t.acc { y with
        row := (here.map (·.1)).foldl max y.row, wrong := y.wrong || here.any (·.2), open_ := y.open_ || here.any (·.1 = 5),
        lbas := uniq (y.lbas ++ mine) } }

/-- May a READ still meet late data that differs: it runs, or a task that delivers to it may yet compare or resolve (R253, R255)? -/
def State.readOpen (s : State) (acc : Nat) : Bool :=
  s.cmds.has acc || s.tasks.any fun t =>
    t.2.late.any (fun e => e.reads.any fun r => r.acc = acc)
      || (t.2.stage ≠ .uncompared && t.2.kind ≠ .resolve && t.2.owners.any fun r => r.acc = acc)

/-- Each READ whose late data differed is recorded and counted once, when its resolutions are over (R259). -/
def State.suspectCheck (s : State) : State :=
  s.over (s.suspects.filter fun (e : Nat × Suspect) => !s.readOpen e.1) fun s e =>
    let y := e.2
    let first := y.lbas.foldl min (y.tag.first + y.tag.blocks - 1)
    let last := y.lbas.foldl max first
    let s := { s with suspects := s.suspects.del e.1, volumes := s.volumes.upd y.vol fun v =>
      { v with returnedSuspect := sat32 v.returnedSuspect, returnedFalse := if y.wrong then sat32 v.returnedFalse else v.returnedFalse,
               unresolved := if y.open_ then sat32 v.unresolved else v.unresolved } }
    s.volEvent Ev.hedgeDisagree y.vol (rangeWord y.vol first (last + 1 - first)) first
      (y.tag.cid + y.tag.ring * 2 ^ 16 + y.row * 2 ^ 28 + b2n y.wrong * 2 ^ 31)

/-- The late data of one position is resolved; the next position follows, or the interlock is released (R258). -/
def State.resolveOver (s : State) (id : Nat) (x : Task) : State :=
  match x.late with
  | [] => s.endTask id
  | l0 :: _ =>
    let here := x.late.filter fun e => e.pos = l0.pos
    let s := s.over (here.zipIdx) fun s e =>
      (s.noteSuspects x.vol e.1 ((x.rows.filter fun r => r.1 = e.2).map (·.2))).freeAll e.1.frames
    let s := s.queueRetire (s.itemsOf x) none
    let rest := x.late.filter fun e => e.pos ≠ l0.pos
    if rest.isEmpty then s.endTask id
    else
      let s := match x.entry with | some e => { s with table := s.table.del e } | none => s
      let s := s.freeStaging x.staging
      (s.updTask id fun x => { x with late := rest, rows := [], entry := none, staging := none, journal := [],
                                      both := false, newData := [] }).startResolve id

/-! ### What a task has computed -/

/-- Content a destage writes for its dirty frames. -/
def State.frameCells (s : State) (x : Task) : List (Nat × Nat × Block) :=
  x.frames.filterMap fun f => (s.frames.look f.1).map fun y => (f.2.1, f.2.2, s.frameContent y)

/-- Cells of a stripe beyond the volume's capacity, with zero content (R63, R765). -/
def State.beyondCells (s : State) (x : Task) (segs : List Nat) : List (Nat × Nat × Block) :=
  ((s.dataCells x.vol x.region x.stripe).filter fun c => segs.contains c.2.1 && !s.within x.vol c.2.2).map
    fun c => (c.1, c.2.1, [])

/-- The frames whose content a re-destage or replay takes: the visible ones of its stripe, but where the restart supplies the block
itself (R205, R224, R346). -/
def State.restoredFrames (s : State) (x : Task) : List (Nat × Nat × Nat) :=
  ((s.stripeFrames x.vol x.region x.stripe).filter fun f => !x.newData.any fun e => e.1 = f.2.1 && e.2.1 = f.2.2.1).map
    fun f => (f.1, f.2.1, f.2.2.1)

/-- The block of a cell as the frame that is visible now supplies it: one committed after the destage gathered its stripe (R767). -/
def State.lateSupply (s : State) (x : Task) (p g : Nat) : Option Block :=
  match s.visible x.vol (s.cellLba x p g) with
  | some (_, y) => if y.bad then s.journalCopy y else some y.data
  | none => none

/-- The content of every data cell of a rewrite: for a destage its own frames and the CLEAN frames it counts on, for a re-destage or
replay first what the restart supplies (R346) and then the visible frames; then what was read or recovered, then what a frame
committed since supplies; the rest is zero (R182, R205, R224, R767). -/
def State.assembled (s : State) (x : Task) : List (Nat × Nat × Block) :=
  let held := match x.kind with
    | .redestage _ => x.newData ++ s.frameCells { x with frames := s.restoredFrames x }
    | _ => s.frameCells { x with frames := x.frames ++ x.clean } ++ x.newData
  let data := (s.dataCells x.vol x.region x.stripe).filter fun c => x.segs.contains c.2.1
  data.map fun c =>
    let at_ (l : List (Nat × Nat × Block)) := (l.find? fun e => e.1 = c.1 && e.2.1 = c.2.1).map (·.2.2)
    (c.1, c.2.1, (((at_ held).or (x.cell c.1 c.2.1)).or (if x.kind = .destage then s.lateSupply x c.1 c.2.1 else none)).getD [])

/-- The cells a task writes, from the content it holds. -/
def State.writeOut (_s : State) (x : Task) (cells : List (Nat × Nat)) : List (Nat × Nat × Block) :=
  cells.map fun c => (c.1, c.2, (x.cell c.1 c.2).getD [])

/-- A destage has read what it needs, or has computed its checks (R182, R200, R766, R767). -/
def State.destageComputed (s : State) (id : Nat) (x : Task) : State :=
  let m := s.regionTmpl x.region
  let dirty : List (Nat × Nat) := x.frames.map fun f => (f.2.1, f.2.2)
  let lost := s.lostFor x.region x.stripe
  if x.phase2 then
    let out : List (Nat × Nat × Block) := match x.how with
      | .rmw =>
        let own := s.frameCells x
        let touched := (rmwCells m dirty).filter fun c => !dirty.contains c && !lost.contains c.1
        -- plain copies of a data position are written from its frames (R111)
        let coded := m.codedPositions
        own ++ touched.map fun c =>
          if coded.contains c.1 then (c.1, c.2, (x.cell c.1 c.2).getD [])
          else match own.find? fun e => e.2.1 = c.2 && (m.touched e.1).contains c.1 with
            | some e => (c.1, c.2, e.2.2)
            | none => (c.1, c.2, (x.cell c.1 c.2).getD [])
      | .reconstruct => s.writeOut x (s.writeCells x.region x.stripe .reconstruct dirty)
      | _ => s.writeOut x ((m.positions.filter fun p => !lost.contains p).flatMap fun p => x.segs.map fun g => (p, g))
    (s.updTask id fun x => { x with newData := out }).readyToWrite id
  else
    match x.how with
    | .lostRegion =>
      let own := (s.frameCells x).filter fun c => x.writeMask.getLsbD c.1
      (s.updTask id fun x => { x with newData := own }).readyToWrite id
    | .parison =>
      let data := s.assembled x
      let acc := match x.parison.bind s.parisons.look with | some p => p.acc | none => []
      let coded := m.codedPositions
      let out := (m.positions.filter fun p => !lost.contains p).flatMap fun p => x.segs.map fun g =>
        let b := if coded.contains p then ((acc.find? fun e => e.1 = p && e.2.1 = g).map (·.2.2)).getD []
          else if m.isData p then ((data.find? fun e => e.1 = p && e.2.1 = g).map (·.2.2)).getD []
          else contentOf (encodeAll m ((data.filter fun e => e.2.1 = g).map fun e => (e.1, e.2.2))) p
        (p, g, b)
      (s.updTask id fun x => { x with newData := out }).readyToWrite id
    | .rmw =>
      let own := s.frameCells x
      (s.updTask id fun x => { x with newData := own, phase2 := true,
                                      todo := (uniq (own.map (·.1))).flatMap fun p =>
                                        updateOps m m.codedPositions ((own.filter fun e => e.1 = p).map (·.2.1)) p }).later (.advance id)
    | .reconstruct =>
      let own := s.frameCells x
      let zero := s.beyondCells x x.segs
      (s.updTask id fun x => { (x.gain (zero ++ own)) with phase2 := true, todo := encodeOps m x.segs }).later (.advance id)
    | .encode =>
      let data := s.assembled x
      (s.updTask id fun x => { x with got := data, phase2 := true, todo := encodeOps m x.segs }).later (.advance id)
    | .full =>
      if !(s.cleanGone x).isEmpty then s.regather id
      else
      let data := s.assembled x
      let zeroed := x.missing.filter fun c => (s.lateSupply x c.1 c.2).isNone
      (s.updTask id fun x => { x with got := data, zeroed := zeroed, phase2 := true, todo := encodeOps m x.segs }).later (.advance id)

/-- A re-destage has read or recovered the data blocks it lacks: it encodes the whole stripe (R205), or in a LOST region
writes the data alone. -/
def State.redestageComputed (s : State) (id : Nat) (x : Task) : State :=
  let m := s.regionTmpl x.region
  let lost := s.lostFor x.region x.stripe
  if x.how = .lostRegion then
    let data := (s.assembled x).filter fun c => !s.memberGone ((s.region x.region).place c.1).1
    (s.updTask id fun x => { x with newData := data, frames := s.restoredFrames x, writeMask := maskOf 64 (data.map (·.1)) }).issueWrites id
  else if x.phase2 then
    let out := s.writeOut x ((m.positions.filter fun p => !lost.contains p).flatMap fun p => x.segs.map fun g => (p, g))
    (s.updTask id fun x => { x with newData := out }).issueWrites id
  else
    let data := s.assembled x
    let zeroed := x.missing
    let repaired := x.want.any fun c => lost.contains c.1
    (s.updTask id fun x => { x with got := data, zeroed := zeroed, phase2 := true, repaired := repaired,
                                    frames := s.restoredFrames x, todo := encodeOps m x.segs }).later (.advance id)

/-- A scrub or check has its stripe: recover what a media error hid, check the lines, and rewrite by R349 (R348 to R350). -/
def State.scrubComputed (s : State) (id : Nat) (x : Task) (report check : Bool) : State :=
  let m := s.regionTmpl x.region
  if !x.phase2 then
    let pl := recoverPlan m (fun _ => x.unreadable) (fun p g => (x.cell p g).isSome) x.back
    let verify := (allLines m).filterMap fun l =>
      if l.2.any x.unreadable.contains then none else some (⟨.verify l.1 l.2, x.segs⟩ : TileOp)
    (s.updTask id fun x => { x with phase2 := true, todo := pl.todo ++ verify }).later (.advance id)
  else
    -- LOCATE on each line with a mismatch whose tier has c_t ≥ 2 (R349)
    let lines := (allLines m).map fun l => (l, x.segs.filter fun g => (x.verdict g l).getD 0 ≠ 0)
    let locate := x.locateOps m lines
    if !locate.isEmpty then (s.updTask id fun x => { x with todo := locate }).later (.advance id)
    else
    let bad (g : Nat) : List (Nat × List Nat) :=
      (x.findings.filter fun f => f.2.2.1 = g && f.2.2.2 ≠ 0).map fun f => (f.1, f.2.1)
    let ok (g : Nat) : List (Nat × List Nat) := (x.findings.filter fun f => f.2.2.1 = g).map fun f => (f.1, f.2.1)
    let rows := (x.segs.filter fun g => !(bad g).isEmpty).map fun g => (g, scrubRow m x g (bad g) (ok g))
    let s := s.over rows fun s e =>
      let pool := (s.region x.region).pool
      let s := { s with pools := s.pools.upd pool fun p => { p with scrubMismatches := p.scrubMismatches + 1 } }
      let s := if s.mgmt.selfTest.status = 1 && check && s.mgmt.selfTest.left.contains x.region then
          { s with mgmt := { s.mgmt with selfTest := { s.mgmt.selfTest with mismatches := s.mgmt.selfTest.mismatches + 1 } } } else s
      let s := s.event Ev.scrubMismatch 0 x.region x.stripe (e.2.1 + e.2.2.1 * 2 ^ 8 + e.2.2.2.1 * 2 ^ 16)
      if e.2.1 = 3 && !report then
        -- the blocks row 3 leaves in doubt are listed with cause 5 (R626)
        let ps := (m.positions.filter m.isData).filter fun p => (x.cell p e.1).isSome
        match s.volumeOf x.region with
        | some v => s.addLoss v (ps.map fun p => ⟨s.cellLba { x with vol := v } p e.1, 1, 0xFFFFFF, 5⟩) false
        | none => s
      else s
    let back := x.back.filterMap fun c => (x.cell c.1 c.2).map fun b => (c.1, c.2, b)
    let out := if report then [] else back ++ rows.flatMap fun e => e.2.2.2.2
    if out.isEmpty then s.scrubOver id x check
    else (s.updTask id fun x => { x with newData := out, findings := [] }).beginRepair id

/-- A resolution has its fresh reads: VERIFY and LOCATE, then the rows of R256 by segment and READ, then the rewrites (R258). -/
def State.resolveComputed (s : State) (id : Nat) (x : Task) : State :=
  match x.late with
  | [] => s.endTask id
  | l0 :: _ =>
    let m := s.regionTmpl x.region
    if !x.phase2 then
      -- VERIFY on every line through p that could be read, and LOCATE where its tier has c_t ≥ 2, segment by segment
      let lines := (linesThrough m l0.pos).map fun l => (l, x.segs.filter fun g => l.2.all fun p => (x.cell p g).isSome)
      let verify := lines.filterMap fun e => if e.2.isEmpty then none else some (⟨.verify e.1.1 e.1.2, e.2⟩ : TileOp)
      (s.updTask id fun x => { x with phase2 := true, todo := verify ++ x.locateOps m lines }).later (.advance id)
    else
    let here := x.late.filter fun e => e.pos = l0.pos
    let results := here.zipIdx.flatMap fun e => e.1.late.map fun d =>
      (e.2, d.1, resolveRow m x l0.pos d.1 (((e.1.delivered.find? fun y => y.1 = d.1).map (·.2)).getD []) d.2)
    let rows := results.map fun r => (r.1, r.2.1, r.2.2.1, r.2.2.2.1)
    let out := results.foldl (fun (acc : List (Nat × Nat × Block)) r =>
      acc ++ r.2.2.2.2.filter fun c => !acc.any fun a => a.1 = c.1 && a.2.1 = c.2.1) []
    let s := if rows.any fun r => r.2.2.1 = 5 then s.updRegion x.region fun e => { e with checkPending := true } else s
    let s := s.updTask id fun x => { x with rows := rows, newData := out }
    if out.isEmpty then s.resolveOver id { x with rows := rows, newData := out } else s.beginRepair id

/-- A task has read and computed all it needs. -/
def State.computed (s : State) (id : Nat) (x : Task) : State :=
  match x.kind with
  | .fill _ => s.fillOver id x
  | .unit _ => s.unitOver id x
  | .hedge parent req pos => s.hedgeOver id parent req pos x
  | .destage => s.destageComputed id x
  | .redestage _ => s.redestageComputed id x
  | .repair => s
  | .rebuild =>
    let w := x.want.filter fun c => x.writeMask.getLsbD c.1
    if w.any fun c => (x.cell c.1 c.2).isNone then s.haltStripe id
    else (s.updTask id fun x => { x with newData := w.map fun c => (c.1, c.2, (x.cell c.1 c.2).getD []) }).issueWrites id
  | .copy =>
    let w := x.want.filter fun c => x.writeMask.getLsbD c.1
    if w.any fun c => (x.cell c.1 c.2).isNone then s.haltStripe id
    else (s.updTask id fun x => { x with newData := w.map fun c => (c.1, c.2, (x.cell c.1 c.2).getD []) }).issueWrites id
  | .scrub report check => s.scrubComputed id x report check
  | .resolve => s.resolveComputed id x
  | .zero _ => s

/-- Every member write of a task has completed. -/
def State.written (s : State) (id : Nat) (x : Task) : State :=
  match x.kind with
  | .destage => s.destageOver id x
  | .redestage records => s.redestageOver id x records
  | .repair =>
    let p := (bitsOf x.writeMask).headD 0
    -- nothing was written back where the member has gone meanwhile (R238)
    if s.memberGone (s.readPlace x.region p).1 then s.retireTask id x
    else
    let s := { s with volumes := s.volumes.upd x.vol fun v => { v with readRepairs := sat32 v.readRepairs } }
    let s := s.event Ev.readRepair 0 x.region x.stripe ((s.readPlace x.region p).1 + p * 256 + x.newData.length % 128 * 2 ^ 16)
    s.retireTask id x
  | .rebuild => (s.startRepairs x).stripeDone x.region x.stripe
  | .copy => (s.startRepairs x).stripeDone x.region x.stripe
  | .scrub _ check => s.scrubOver id x check
  | .resolve => s.resolveOver id x
  | .zero acc => s.zeroOver id acc
  | .fill _ => s
  | .unit _ => s
  | .hedge _ _ _ => s

/-- A task goes on: the next operation once its reads are in, or its end once its writes are. -/
def State.advance (s : State) (id : Nat) : State :=
  match s.tasks.look id with
  | none => s
  | some x =>
    if s.turnedLost x && (x.stage = .reading || x.stage = .journalWait) then
      if x.job.isSome then s else (s.dropRecords id).restartDestage id
    else match x.stage with
    | .reading =>
      if !x.reads.isEmpty || x.job.isSome then s
      else match x.todo with
        | op :: rest => s.nextOp id x op rest
        | [] => s.computed id x
    | .writing =>
      let done := (bitsOf x.writeMask).filter fun p => !x.writes.any fun w => w.2 = p
      let mask := maskOf 64 done
      let s := (s.updTask id fun x => { x with doneMask := mask }).writeEntry id
      if x.writes.isEmpty then s.written id { x with doneMask := mask } else s
    | _ => s

/-! ### Member requests end (R87, R227 to R229, R238, R239, R286, R323) -/

/-- End the hedges of a member read. -/
def State.endHedges (s : State) (parent req : Nat) : State :=
  s.over ((s.tasks.filter fun t => match t.2.kind with | .hedge p r _ => p = parent && r = req | _ => false).map (·.1))
    fun s t => s.endTask t

/-- Does a reconstruction of a member read run (R249)? -/
def State.hedgeRuns (s : State) (parent req : Nat) : Bool :=
  s.tasks.any fun t => match t.2.kind with | .hedge p r _ => p = parent && r = req | _ => false

/-- A member read has ended without good data. While its reconstruction runs, that alone decides; a survivor read of a hedge ends the
hedge (R252). -/
def State.readFailed (s : State) (id req : Nat) (x : Task) (r : Req) (back : Bool) : State :=
  match x.kind with
  | .hedge parent old _ => s.abandonHedge id parent old
  | _ =>
    if s.hedgeRuns id req then s.updTask id fun x => { x with failing := x.failing ++ [(req, r.pos, r.segs, back)] }
    else (s.updTask id fun x => x.without req r.pos r.segs).memberReadLost id r.pos r.segs back

/-- A member read has ended (R87, R238, R239): whatever it brings, one whose location has changed is issued again where the position now
lies, unless that is lost. -/
def State.readEnded (s : State) (id : Nat) (x : Task) (port req : Nat) (r : Req) (res : ReqResult) : State :=
  let done (s : State) : State := s.updTask id fun x => x.without req r.pos r.segs
  if s.locationMoved x port r then
    if (s.lostFor x.region x.stripe).contains r.pos then s.readFailed id req x r false
    else ((done s).endHedges id req).issueCells id (r.segs.map fun g => (r.pos, g))
  else match res with
  | .ok data =>
    if data.any Option.isNone || data.length ≠ r.segs.length then
      if r.retry then s.readFailed id req x r true else (done s).reissue id req (port, r.row) r
    else
      let got := (r.segs.zip data).map fun e => (r.pos, e.1, e.2.getD [])
      (((done s).endHedges id req).updTask id fun x => x.gain got).later (.advance id)
  | .media => s.readFailed id req x r true
  | _ => s.readFailed id req x r false

/-- A member write has ended: however it ended, one whose location has changed since goes to the current one, unless the position is lost
by then; else a failed one is reissued once, then its member is declared FAILED and the position counts as done (R227, R228, R229, R321). -/
def State.writeEnded (s : State) (id : Nat) (x : Task) (port req : Nat) (r : Req) (res : ReqResult) : State :=
  let s := s.updTask id fun x => { x with writes := x.writes.filter fun e => e.1 ≠ req }
  let declare (s : State) : State :=
    let s := match x.kind with
      | .rebuild => s
      | .copy => s
      | _ => s.event Ev.destageWriteFailed 0 x.region x.stripe (port + r.pos * 256)
    (s.later (.fail port 7 false)).later (.advance id)
  let places := s.targetsOf x r.pos
  if !places.contains (port, r.row) && (s.region x.region).gen ≠ r.gen then
    if (s.lostFor x.region x.stripe).contains r.pos then s.later (.advance id)
    else (s.over places fun s pl => s.askCells id true r.pos pl (r.segs.zip r.data) false false).later (.advance id)
  else match res with
  | .ok _ => s.later (.advance id)
  | .absent =>
    match s.members.look port with
    | some m => if m.st = .removed || m.st = .failed then s.later (.advance id) else declare s
    | none => s.later (.advance id)
  | _ => if r.retry then declare s else (s.reissue id req (port, r.row) r).later (.advance id)

/-- A metadata write to a log drive has ended: a failed one is reissued once; a second failure, or ABSENT, makes the drive FAILED, and
what the job is for waits until every log drive that then counts holds it (R768). -/
def State.metaEnded (s : State) (port req : Nat) (r : Req) (res : ReqResult) : State :=
  let drop (s : State) : State :=
    { s with pair := { s.pair with jobs := s.pair.jobs.upd r.task fun j => { j with left := j.left.filter (· ≠ req) } } }
  let give (s : State) : State := (drop (s.failMember port 7 false)).metaCheck r.task
  if !s.pair.jobs.has r.task then s
  else match res with
    | .ok _ => (drop s).metaCheck r.task
    | .absent => give s
    | _ =>
      if r.retry then give s
      else
        let (id, s) := s.askPort port { r with acceptedAt := s.now, submittedAt := none, softCounted := false, quarantined := none, retry := true }
        drop { s with pair := { s.pair with jobs := s.pair.jobs.upd r.task fun j => { j with left := j.left ++ [id] } } }

/-- A member request has ended; without its task the result is discarded. -/
def State.reqDone (s : State) (port req : Nat) (r : Req) (res : ReqResult) : State :=
  if r.meta_ then s.metaEnded port req r res else
  let s := match res with | .ok _ => s.countRebuildBytes r | _ => s
  match s.tasks.look r.task with
  | none => s
  | some x =>
    if r.write then s.writeEnded r.task x port req r res
    else if x.lateReads.any fun e => e.1 = req then s.lateEnded r.task port req r.pos r res
    -- the result of a read that the task has forgotten is discarded (R766)
    else if x.reads.any fun e => e.1 = req then s.readEnded r.task x port req r res
    else s

/-! ### A failed tile job (R130, R185) -/

/-- A destage that still reads or computes plans again, where the frame that was dropped is one of its own; one that writes already
goes on without it (R185). -/
def State.dropFrom (s : State) (f : Nat) : State :=
  s.over (s.tasks.filter fun t => t.2.frames.any fun e => e.1 = f) fun s t =>
    let s := s.updTask t.1 fun x => { x with frames := x.frames.filter fun e => e.1 ≠ f }
    match t.2.kind, t.2.stage with
    | .destage, .reading => s.restartDestage t.1
    | .destage, .entryWait => s.restartDestage t.1
    | .destage, .stagingWait => s.restartDestage t.1
    | .destage, .journalWait => (s.dropRecords t.1).restartDestage t.1
    | _, _ => s

/-- A dirty frame's block is lost, also for a destage of it (R185). -/
def State.dropBlock (s : State) (f : Nat) : State := (s.blockLost f).dropFrom f

/-- A task's content is gone for its computation, and what it wants is read and planned again from the start. -/
def State.planAgain (s : State) (id : Nat) : State :=
  (s.updTask id fun x => { x with got := [], asked := [], todo := [], phase2 := false }).planWant id

/-- A re-destage or replay begins again with what the restart supplies. -/
def State.redestageAgain (s : State) (id : Nat) : State :=
  (s.updTask id fun x => { x with got := [], asked := [], todo := [], phase2 := false }).startRedestage id

/-- An input of an operation is a dirty frame with an uncorrectable word: its block is read from the journal where it is journaled,
else it is dropped, and the destage or re-destage plans again without it (R185). -/
def State.badFrame (s : State) (id f : Nat) : State :=
  match s.frames.look f with
  | none => s.later (.advance id)
  | some y => match s.journalCopy y with
    | some b =>
      let s := s.recoverFrame f y b
      let put (l : List (Nat × Nat × Block)) (p g : Nat) : List (Nat × Nat × Block) := l.map fun c => if c.1 = p && c.2.1 = g then (p, g, b) else c
      (s.updTask id fun x =>
        let at_ := (x.frames.find? fun e => e.1 = f).map (·.2)
        { x with job := none, firstFail := none,
                 got := match at_ with | some (p, g) => put x.got p g | none => x.got,
                 newData := match at_ with | some (p, g) => put x.newData p g | none => x.newData }).later (.advance id)
    | none =>
      let s := (s.updTask id fun x => { x with job := none, firstFail := none }).dropBlock f
      match s.tasks.look id with
      | some x => match x.kind with
        | .redestage _ => s.redestageAgain id
        | _ => s
      | none => s

/-- A CLEAN frame that a rewrite reads holds an uncorrectable word: it is freed, and the block is read from its member. -/
def State.badClean (s : State) (id f : Nat) : State :=
  ((s.rebuilt (66 + f % 32) 1 f).supersede f).regather id

/-- An operation has lost an input that is no frame: what R123 plans again is planned, a destage takes its full-stripe rewrite with the
position lost, and a line whose VERIFY or LOCATE lost an input is not checked (R130, R256, R348). -/
def State.inputLost (s : State) (id : Nat) (x : Task) (o : TileOp) (rest : List TileOp) (p : Nat) : State :=
  let m := s.regionTmpl x.region
  let s := s.updTask id fun x => { x with job := none, firstFail := none }
  let alone (s : State) : State := s.updTask id fun x => { x with lost := uniq (x.lost ++ [p]) }
  match o.op with
  | .verify _ _ => (s.updTask id fun x => { x with todo := rest }).later (.advance id)
  | .locate t l => (s.updTask id fun x => { x with todo := rest, located := x.located ++ o.segs.map fun g => (t, l, g, none) }).later (.advance id)
  | _ =>
    match x.kind with
    | .destage => if x.how = .full then (s.fullLost id p).planAgain id else s.toFull id p
    | .redestage _ => (alone s).redestageAgain id
    | .hedge parent old _ => s.abandonHedge id parent old
    | .scrub _ _ =>
      let checks := rest.filter fun r => match r.op with | .decode _ _ _ _ => false | _ => true
      let pl := recoverPlan m (fun _ => uniq (x.unreadable ++ [p])) (fun q g => q ≠ p && (x.cell q g).isSome) x.back
      (s.updTask id fun x => { x with todo := pl.todo ++ checks }).later (.advance id)
    | _ => ((alone s).updTask id fun x => { x with todo := [], got := x.got.filter fun c => c.1 ≠ p }).planWant id

/-- A tile job fails on an input (R129, R130): it is tried once more on a different tile; a failure on another input counts as a first
one again (DESIGN CHOICE 42); a second failure on the same
input makes that input lost for the operation. A second failure on another input counts as a new first failure (DESIGN
CHOICE 42). -/
def State.jobFailed (s : State) (id tile input seg : Nat) : State :=
  match s.tasks.look id with
  | none => s
  | some x =>
    match x.todo with
    | [] => s
    | o :: rest =>
      if (x.firstFail.map (·.2)) ≠ some input then
        (s.updTask id fun x => { x with job := none, firstFail := some (tile, input) }).later (.advance id)
      else
        let m := s.regionTmpl x.region
        let s := s.event Ev.tileRetryLost tile (114 + tile) x.region x.stripe
        match x.inputFrame m o.op input (o.segs.getD seg 0) with
        | some f => if x.clean.any fun e => e.1 = f then s.badClean id f else s.badFrame id f
        | none => s.inputLost id x o rest ((o.op.inputs m).getD input 0)

/-! ### The follow-up loop -/

/-- A task's write goes on without a marked word: with the journal's copy of the block where the journal holds it, else the block is
dropped and the task plans again (R185, R649). -/
def State.markedWrite (s : State) (id f : Nat) : State :=
  match s.tasks.look id, s.frames.look f with
  | some x, some y =>
    match s.journalCopy y with
    | some b =>
      let s := s.recoverFrame f y b
      let at_ (c : Nat × Nat × Block) : Bool := x.frames.any fun e => e.1 = f && e.2.1 = c.1 && e.2.2 = c.2.1
      let s := s.updTask id fun x => { x with newData := x.newData.map fun c => if at_ c then (c.1, c.2.1, b) else c }
      if x.stage = .journalWait then s.issueWrites id else s.readyToWrite id
    | none => s.badFrame id f
  | _, _ => s

/-- One item of follow-up work. -/
def State.follow (s : State) : Todo → State
  | .start t => s.startTask t
  | .reqDone port id r res => s.reqDone port id r res
  | .advance t => s.advance t
  | .fail port cause removed => s.failMember port cause removed
  | .readCheck acc => s.readCheck acc
  | .marked id f => s.markedWrite id f

/-- Do follow-up work in order until none is left, with fuel. -/
def State.settleLoop : Nat → State → State
  | 0, s => s
  | n + 1, s =>
    match s.todo with
    | [] => s
    | t :: rest => State.settleLoop n (({ s with todo := rest } : State).follow t)

/-- Fuel of the loop: far more than any step's follow-up work. -/
def settleFuel : Nat := 100000000

/-- Do a step's follow-up work. -/
def State.settle (s : State) : State := State.settleLoop settleFuel s

end Sys2Proof.Machine
end

