-- ==== Sys2Proof/Machine/Write.lean ====
section
/-! DEFINITION. The write path's shared operations: parison space and absorption, the commit of frames, the PWB
permission, urgent destage, the choice of the next stripe to destage, the vault reserve, run-ahead streams, the drain of an
HBM channel and the parts of a self-test (R152, R164 to R182, R187, R203, R260 to R268, R401, R635, R636, R652, R665, R668). -/

namespace Sys2Proof.Machine

open Sys2Proof

/-! ### Parisons (R171 to R175, R177) -/

/-- May a template's stripes have parisons (R171)? -/
def parisonAllowed (m : Template) : Bool := 1 ≤ m.checkCount && m.checkCount * m.strip * 4096 ≤ 2097152

/-- Granules of 32 KiB of a parison (R172). -/
def granulesOf (m : Template) : Nat := (m.checkCount * m.strip * 4096 + 32767) / 32768

/-- Granules and parisons in SRAM or in the spill area. -/
def State.parisonUse (s : State) (sram : Bool) : Nat × Nat :=
  let l := s.parisons.filter fun e => e.2.inSram == sram
  ((l.map fun e => e.2.granules).sum, l.length)

/-- Room for n granules and one more parison (R172). -/
def State.parisonRoom (s : State) (sram : Bool) (n : Nat) : Bool :=
  let (g, k) := s.parisonUse sram
  if sram then g + n ≤ 256 && k < 64 else g + n ≤ 32768 && k < 4096

/-- The least recently absorbed parison of an area (R173). One that has absorbed nothing counts with the instant it was opened, and of
equals the lowest number goes first (DESIGN CHOICE 55). -/
def State.oldestParison (s : State) (sram : Bool) : Option (Nat × Parison) :=
  (sortBy (fun a b => a.2.lastAbsorbed < b.2.lastAbsorbed || (a.2.lastAbsorbed = b.2.lastAbsorbed && a.1 ≤ b.1))
    (s.parisons.filter fun e => e.2.inSram == sram)).head?

/-- Make room in the spill area for n granules, with fuel (R173). -/
def State.roomInSpill : Nat → State → Nat → State
  | 0, s, _ => s
  | k + 1, s, n =>
    if s.parisonRoom false n then s
    else match s.oldestParison false with
      | some (id, _) => State.roomInSpill k (s.closeParison id) n
      | none => s

/-- Make room in SRAM for n granules: the least recently absorbed parisons move to the spill area, with fuel (R173). -/
def State.roomInSram : Nat → State → Nat → State
  | 0, s, _ => s
  | k + 1, s, n =>
    if s.parisonRoom true n then s
    else match s.oldestParison true with
      | some (id, p) =>
        let s := State.roomInSpill (s.parisons.length + 1) s p.granules
        State.roomInSram k { s with parisons := s.parisons.upd id fun x => { x with inSram := false } } n
      | none => s

/-- Does a destage hold the stripe (R173)? -/
def State.destageHolds (s : State) (r k : Nat) : Bool :=
  s.tasks.any fun t => t.2.region = r && t.2.stripe = k && t.2.stage ≠ .lockWait &&
    (match t.2.kind with | .destage => true | .redestage _ => true | _ => false)

/-- Open a parison for a stripe where R171 and R173 allow it. -/
def State.openParison (s : State) (vol r k : Nat) : State :=
  let m := s.regionTmpl r
  if !parisonAllowed m || (s.parisonOf vol r k).isSome || s.destageHolds r k then s
  else match s.bestTile none false with
    | none => s
    | some home =>
      let s := State.roomInSram (s.parisons.length + 1) s (granulesOf m)
      let id := s.wp.nextParison
      { s with wp := { s.wp with nextParison := id + 1 },
               parisons := s.parisons.put id
                 { vol := vol, region := r, stripe := k, granules := granulesOf m, home := home, lastAbsorbed := s.now } }

/-- The home tile to which a parison's next UPDATE goes: where it answers ABSENT, the requester learns its epoch and the home is chosen
again by R134, with fuel (R134, R657). -/
def State.homeFor : Nat → State → Nat → Nat × State
  | 0, s, home => (home, s)
  | n + 1, s, home =>
    match s.boundary (114 + home) (s.viewOf firmwareIsland (114 + home)) with
    | none => (home, s)
    | some _ =>
      let s := s.learnEpoch firmwareIsland (114 + home)
      match s.bestTile none false with
      | some t => State.homeFor n s t
      | none => (home, s)

/-- The home tile of a parison, kept with it. -/
def State.takeHome (s : State) (id home : Nat) : Nat × State :=
  let (h, s) := State.homeFor 49 s home
  (h, { s with parisons := s.parisons.upd id fun x => { x with home := h } })

/-- The strips of a parison that a block at a data position adds to, 8 to a job (R114, R125, R174). -/
def absorbStrips (m : Template) (pos : Nat) : List (List Nat) :=
  let l := m.codedPositions.filter fun q => (m.factor pos q).isSome
  chunks 8 l.length l

/-- Does a destage write its checks from the parison? -/
def State.parisonUsed (s : State) (id : Nat) : Bool := s.tasks.any fun t => t.2.parison = some id

/-- Issue the next UPDATE job of a parison's absorption on its home tile, once its frames can be pinned (R134, R140, R148, R174). -/
def State.absorbIssue (s : State) (id : Nat) : State :=
  match s.parisons.look id with
  | none => s
  | some p => match p.current with
    | some (f, old, outs :: rest) =>
      let pins := f :: old.toList
      let set (s : State) (g : Parison → Parison) : State := { s with parisons := s.parisons.upd id g }
      if !p.jobs.isEmpty then s
      else if !s.canPin pins then set s fun x => { x with pinWait := true }
      else
        let (j, s) := s.newId
        let (home, s) := s.takeHome id p.home
        let s := set s fun x => { x with current := some (f, old, rest), jobs := [j], pinWait := false }
        (s.pinAll pins).sendJob
          { id := j, op := .absorb id f old outs, task := none, fg := true, bytes := 4096 * pins.length,
            segs := match s.frames.look f, s.volumes.look p.vol with
              | some x, some v => [(s.locate v x.lba).seg]
              | _, _ => [0],
            pins := pins } (some home) none
    | _ => s

/-- An absorption is complete: the frame has ABSORBED = 1; the fill point advances by one, or the superseded frame is released (R174,
R175). -/
def State.absorbEnd (s : State) (id f : Nat) (old : Option Nat) : State :=
  let s := { s with parisons := s.parisons.upd id fun p =>
    { p with current := none, lastAbsorbed := s.now, fill := if old.isNone then p.fill + 1 else p.fill } }
  let s := s.updFrame f fun y => { y with absorbed := y.visible }
  match old with | some o => s.unhold [f, o] | none => s

/-- Start a parison's next absorption: the differences queued first, then the block at the fill point if it is dirty; blocks beyond the
capacity are passed over (R174, R175). Nothing is absorbed while a destage writes from the parison (DESIGN CHOICE 53). With fuel. -/
def State.absorbNext : Nat → State → Nat → State
  | 0, s, _ => s
  | n + 1, s, id =>
    match s.parisons.look id with
    | none => s
    | some p => match s.volumes.look p.vol with
      | none => s
      | some v =>
        let m := s.regionTmpl p.region
        let begin_ (s : State) (f : Nat) (old : Option Nat) (pos : Nat) : State :=
          let strips := absorbStrips m pos
          let s := { s with parisons := s.parisons.upd id fun x => { x with current := some (f, old, strips) } }
          if strips.isEmpty then State.absorbNext n (s.absorbEnd id f old) id else s.absorbIssue id
        if p.current.isSome || s.parisonUsed id then s
        else match p.deltas with
          | (f, o) :: rest =>
            let s := { s with parisons := s.parisons.upd id fun x => { x with deltas := rest } }
            match s.frames.look f with
            | some x => begin_ s f (some o) (s.locate v x.lba).pos
            | none => State.absorbNext n (s.unhold [o]) id
          | [] =>
            if p.fill ≥ m.strip * m.data then s
            else
              let pos := m.dataPos (p.fill / m.strip)
              let lba := s.lbaAt v p.region p.stripe pos (p.fill % m.strip)
              if lba ≥ v.capacity then
                State.absorbNext n { s with parisons := s.parisons.upd id fun x => { x with fill := x.fill + 1 } } id
              else match s.visible p.vol lba with
                | some (f, x) => if x.st = .clean then s else begin_ s f none pos
                | none => s

/-- Absorb what a stripe's parison can absorb now. -/
def State.absorbStripe (s : State) (vol r k : Nat) : State :=
  match s.parisonOf vol r k with
  | none => s
  | some (id, p) => let m := s.regionTmpl r
    State.absorbNext (m.strip * m.data + p.deltas.length + 1) s id

/-- An UPDATE of a parison is done: the change of the block, times the factor of R114, is added to each of its strips (R174, R175). -/
def State.absorbAdd (s : State) (j id f : Nat) (old : Option Nat) (outs : List Nat) (words : List TileWord) : State :=
  match s.parisons.look id, s.frames.look f with
  | some p, some x =>
    if !p.jobs.contains j then s
    else match s.volumes.look p.vol with
      | none => s
      | some v =>
        let a := s.locate v x.lba
        let m := s.regionTmpl p.region
        let before_ : Block := match old.bind fun o => s.frames.look o with | some y => y.data | none => []
        let delta := blockXor (inputContent words 0 0 x.data) (inputContent words 1 0 before_)
        let acc := outs.foldl (fun (acc : List (Nat × Nat × Block)) q =>
          match m.factor a.pos q with
          | none => acc
          | some c =>
            let now : Block := match acc.find? fun (e : Nat × Nat × Block) => e.1 = q && e.2.1 = a.seg with | some e => e.2.2 | none => []
            (acc.filter fun (e : Nat × Nat × Block) => !(e.1 = q && e.2.1 = a.seg)) ++ [(q, a.seg, blockXor now (blockScale c delta))]) p.acc
        let s := { s with parisons := s.parisons.put id { p with acc := acc, jobs := [] } }
        match p.current with
        | some (_, _, []) => s.absorbEnd id f old
        | _ => s
  | _, _ => s

/-- After an UPDATE the next job of the absorption follows, or the next absorption. -/
def State.absorbed (s : State) (j id f : Nat) (old : Option Nat) (outs : List Nat) (words : List TileWord) : State :=
  let s := s.absorbAdd j id f old outs words
  match s.parisons.look id with
  | none => s
  | some p => if p.current.isNone then s.absorbStripe p.vol p.region p.stripe else s.absorbIssue id

/-- An UPDATE of a parison failed or was interrupted by ABSENT: the parison is closed and never used (R177). -/
def State.absorbFailed (s : State) (tile id : Nat) : State :=
  match s.parisons.look id with
  | some p => (s.event Ev.parisonAbandoned 0 p.region p.stripe (114 + tile)).closeParison id
  | none => s

/-! ### Urgent destage and waiting commits (R167, R179, R180) -/

/-- A frame that urgent destage under R167 still covers: dirty with JOURNALED = 0 when the permission became JOURNALED, and still so. -/
def Frame.unjournaled (x : Frame) : Bool := x.urgent && (x.st = .dirty || x.st = .destaging) && !x.journaled

/-- Urgent destage starts at 90 % of L_eff and ends at 80 % (R179); that of R167 ends with the last frame it covers. -/
def State.urgentCheck (s : State) : State :=
  let lim := s.wp.lEff * 2 ^ 20
  let d := s.dirtyBytes
  let s := if s.wp.urgentUnjournaled && !s.frames.any (fun e => e.2.unjournaled) then
      { s with wp := { s.wp with urgentUnjournaled := false } } else s
  if !s.wp.urgent && 10 * d ≥ 9 * lim then
    { s with wp := { s.wp with urgent := true } }.event Ev.urgentDestage 0 (s.dirtyMib) s.wp.lEff 0
  else if s.wp.urgent && 10 * d ≤ 8 * lim then { s with wp := { s.wp with urgent := false } }
  else s

/-- Do two I/O commands overlap (R187)? -/
def Sqe.overlaps (a b : Sqe) : Bool :=
  a.vol = b.vol && a.lba < b.lba + b.nblocks && b.lba < a.lba + a.nblocks

/-- The writes of R155 and R187. -/
def isWriteOp (op : Nat) : Bool := op = 2 || op = 4 || op = 5

/-- May a write commit as far as ordering goes: every earlier overlapping write has committed or ended, and every earlier
overlapping read has obtained its data (R187)? -/
def State.orderedWrite (s : State) (c : Cmd) : Bool :=
  s.cmds.all fun e =>
    let y := e.2
    e.1 ≥ c.acc || !y.sqe.overlaps c.sqe
      || (isWriteOp y.sqe.opcode && y.phase = .committed)
      || (isIoOpcode y.sqe.opcode && !isWriteOp y.sqe.opcode && y.sqe.opcode ≠ 3 && y.looked && !y.blocks.any (· == .pending))
      || !isIoOpcode y.sqe.opcode || y.sqe.opcode = 3

/-- May a read obtain its data: every earlier overlapping write has committed or ended (R187)? -/
def State.orderedRead (s : State) (c : Cmd) : Bool :=
  s.cmds.all fun e => e.1 ≥ c.acc || !isWriteOp e.2.sqe.opcode || !e.2.sqe.overlaps c.sqe || e.2.phase = .committed

/-- By how many frames a commit raises the dirty amount (R180). -/
def State.riseOf (s : State) (vol lba n : Nat) : Nat :=
  ((span lba n).filter fun l => match s.visible vol l with
    | some (_, x) => x.st = .clean
    | none => true).length

/-- Is there room under L_eff for a commit (R180)? -/
def State.roomFor (s : State) (c : Cmd) : Bool :=
  let rise := s.riseOf c.sqe.vol c.sqe.lba c.sqe.nblocks
  rise = 0 || s.dirtyBytes + rise * 4096 ≤ s.wp.lEff * 2 ^ 20

/-- Is a SUPERSEDED frame held by the destage of a valid entry of the in-flight destage table (R202, R468)? -/
def State.entryHolds (s : State) (f : Nat) : Bool := s.tasks.vals.any fun (t : Task) => t.entry.isSome && t.frames.any fun e => e.1 = f

/-- Would a commit supersede a DESTAGING frame (R468)? -/
def State.hitsDestaging (s : State) (c : Cmd) : Bool :=
  (span c.sqe.lba c.sqe.nblocks).any fun l => match s.visible c.sqe.vol l with
    | some (_, x) => x.st = .destaging
    | none => false

/-- R468: would a commit supersede a DESTAGING frame while 262,144 superseded frames are held by valid entries, or an earlier one still wait
for that? -/
def State.holdsBack (s : State) (c : Cmd) : Bool :=
  s.hitsDestaging c
    && (262144 ≤ (s.frames.filter fun e => e.2.st = .superseded && s.entryHolds e.1).length
      || s.cmds.any fun e => e.1 < c.acc && e.2.phase = .gathered && e.2.heldBack)

/-- Does a commit lack dirty room, and that alone (R180)? -/
def State.lacksRoom (s : State) (c : Cmd) : Bool :=
  c.phase = .gathered && isWriteOp c.sqe.opcode
    && (match s.volumes.look c.sqe.vol with | some v => !v.vault | none => false)
    && s.orderedWrite c && !s.roomFor c

/-- Commands whose commit has begun to wait for dirty room, in acceptance order: each waits until it commits or ends (R180). -/
def State.stalledCmds (s : State) : List Nat :=
  (s.cmds.filter fun e => e.2.phase = .gathered && e.2.stallSince.isSome).map (·.1)

/-- Which commits wait, for dirty room or under R468, and since when commits have waited without a break (R180). -/
def State.stallNote (s : State) : State :=
  let new := (s.cmds.filter fun e => e.2.stallSince.isNone && s.lacksRoom e.2).map (·.1)
  let s := s.over new fun s a => s.updCmd a fun c => { c with stallSince := some s.now }
  let held := (s.cmds.filter fun e => e.2.phase = .gathered && isWriteOp e.2.sqe.opcode && !e.2.heldBack && s.orderedWrite e.2
    && s.holdsBack e.2).map (·.1)
  let s := s.over held fun s a => s.updCmd a fun c => { c with heldBack := true }
  if s.stalledCmds.isEmpty then
    if s.wp.stallSince.isNone then s else { s with wp := { s.wp with stallSince := none, stallRecorded := false } }
  else if s.wp.stallSince.isSome then s
  else { s with wp := { s.wp with stallSince := some s.now } }

/-! ### The PWB permission (R164 to R170, R203) -/

/-- E_avail in whole joules, as events state it. -/
def State.eAvailJ (s : State) : Nat := s.eAvail / 1000

/-- EV_ACK_PERMISSION (R193). -/
def State.permEvent (s : State) : State := s.event Ev.ackPermission 0 s.wp.perm.code s.wp.lEff s.eAvailJ

/-- Every table-method destage in flight, one that waits for its entry or staging included, gets a DESTAGE record, and holds its interlock
and entry until it retires (R203). Where its content is not complete yet, the record follows when it is. -/
def State.journalInFlight (s : State) : State :=
  s.over (s.tasks.filter fun t => t.2.tableMethod && !t.2.both
      && (t.2.entry.isSome || t.2.stage = .entryWait || t.2.stage = .stagingWait)) fun s t =>
    match t.2.kind with
    | .redestage _ => s
    | _ =>
      let s := s.updTask t.1 fun x => { x with both := true }
      if t.2.stage = .writing then s.appendRecs (s.destageRecs t.2 false) none (some t.1) else s

/-- The permission becomes JOURNALED (R167, R203). -/
def State.enterJournaled (s : State) : State :=
  let was := s.wp.urgent || s.wp.urgentUnjournaled
  let s := { s with wp := { s.wp with perm := .journaled, lEff := s.settings.lCfg, urgentUnjournaled := true } }
  let s := { s with frames := s.frames.each fun _ (x : Frame) => { x with urgent := (x.st = FrameSt.dirty || x.st = FrameSt.destaging) && !x.journaled } }
  let s := s.permEvent
  -- the urgent destage of every such frame starts (R193)
  let s := if !was && s.frames.any (fun e => e.2.unjournaled) then s.event Ev.urgentDestage 0 s.dirtyMib s.wp.lEff 0 else s
  s.journalInFlight.urgentCheck

/-- The permission machine's rows for falling energy (R167). -/
def State.permissionCheck (s : State) : State :=
  let lr := s.reducedLimit
  match s.wp.perm with
  | .full =>
    if s.link.w2 || s.eAvail = 0 then
      if lr ≥ 1024 then
        (({ s with wp := { s.wp with perm := .reduced, lEff := lr } }).permEvent).urgentCheck
      else s.enterJournaled
    else s
  | .reduced =>
    if lr < 1024 then s.enterJournaled
    else if lr < s.wp.lEff then { s with wp := { s.wp with lEff := lr } }.urgentCheck
    else s
  | .journaled => s

/-- Since when W1 has stayed not asserted with E_avail nonzero (R167). -/
def State.energyNote (s : State) : State :=
  let good := !s.link.w1 && s.eAvail ≠ 0
  { s with wp := { s.wp with goodSince := if good then some (s.wp.goodSince.getD s.now) else none } }

/-- The permission returns to FULL (R167), which R401's hold forbids; the urgent destage of JOURNALED = 0 frames ends with it
(DESIGN CHOICE 53). -/
def State.permissionFull (s : State) : State :=
  match s.wp.goodSince with
  | none => s
  | some t =>
    if s.wp.perm = .full || s.vault.hold || s.now < t + 60000000 then s
    else
      let s := { s with wp := { s.wp with perm := .full, lEff := s.settings.lCfg, urgentUnjournaled := false } }
      s.permEvent.urgentCheck

/-- A changed L_cfg applies at once (R164, R167). -/
def State.limitApplied (s : State) : State :=
  if s.wp.perm = .reduced then s.permissionCheck.urgentCheck
  else { s with wp := { s.wp with lEff := s.settings.lCfg } }.urgentCheck

/-! ### The reserve (R401) -/

/-- The reserve cannot be kept in full: L_cfg falls to what it allows, the event and the cause follow, and below 4,096 blocks
the permission is held in JOURNALED (R401, R723). -/
def State.reserveCheck (s : State) (oldKept : Nat) : State :=
  let kept := reserveKept s.vault.blocks
  let new := cappedLimit s.settings.lCfg s.vault.blocks
  if kept = oldKept then s
  else
    let lowered := new ≠ s.settings.lCfg
    let holds := kept < 4096 && !s.vault.hold
    if !lowered && !holds then s
    else
      let s := { s with settings := { s.settings with lCfg := new } }
      let s := (s.event Ev.vaultReserveShort 0 kept new s.retiredBlocks).raisePfs .vaultHealth
      let s := s.limitApplied
      if holds then
        let s := { s with vault := { s.vault with hold := true } }
        if s.wp.perm = .journaled then s else s.enterJournaled
      else s

/-! ### Commit (R142, R143, R145, R152, R157 to R159, R169, R173 to R175) -/

/-- The visible entry that a commit replaces takes the superseded action; the difference to a frame that its parison has absorbed, or
is about to have, is queued there, and both frames are held for it (R145, R175). -/
def State.replaceBy (s : State) (f vol lba r k : Nat) : State :=
  match s.visible vol lba with
  | none => s
  | some (o, x) =>
    match s.parisonOf vol r k with
    | some (id, p) =>
      let under := match p.current with | some (c, _, _) => c = o | none => false
      if x.absorbed || under || p.deltas.any fun d => d.1 = o then
        let s := { s with parisons := s.parisons.upd id fun y => { y with deltas := y.deltas ++ [(f, o)] } }
        ((s.holdAll [f, o]).updFrame o fun y => { y with absorbed := false }).supersede o
      else s.supersede o
    | none => s.supersede o

/-- Install one block of a commit. -/
def State.installFrame (s : State) (vol : Nat) (v : Volume) (gen : BitVec 32) (f : Nat) : State :=
  match s.frames.look f with
  | none => s
  | some x =>
    let a := s.locate v x.lba
    let s := s.replaceBy f vol x.lba a.region a.stripe
    -- a block written again is lost no longer (R185)
    let s := { s with volumes := s.volumes.upd vol fun v => { v with lostBlocks := v.lostBlocks.filter (· ≠ x.lba) } }
    (s.updFrame f fun y => { y with st := .dirty, gen := gen, dirtyAt := s.now }).chainIn f

/-- The regions a commit writes are active from now on (R507). -/
def State.noteActive (s : State) (rs : List Nat) : State :=
  { s with pair := { s.pair with activeAt := rs.foldl (fun m r => Store.put m r s.now) s.pair.activeAt } }

/-- The array regions that a write to a volume's blocks makes active (R508). -/
def State.regionsWritten (s : State) (c : Cmd) : List Nat :=
  uniq ((s.stripesOfBlocks c.sqe.vol (span c.sqe.lba c.sqe.nblocks)).map (·.1))

/-- The bits of these regions that are neither set on the log drives nor on their way are written (R508). -/
def State.askBits (s : State) (rs : List Nat) : State :=
  let missing := rs.filter fun r => !s.bitsComing.contains r
  if missing.isEmpty then s else s.metaStart (.bits missing)

/-- Install frames as one commit of a volume: the counter's next value, the directory, parisons and completeness. -/
def State.install (s : State) (vol : Nat) (fs : List Nat) : BitVec 32 × State :=
  match s.volumes.look vol with
  | none => (0, s)
  | some v =>
    let gen := v.commitCtr + 1
    let s := { s with volumes := s.volumes.put vol { v with commitCtr := gen } }
    let lbas := fs.filterMap fun f => (s.frames.look f).map (·.lba)
    let stripes := s.stripesOfBlocks vol lbas
    let s := s.noteActive (uniq (stripes.map (·.1)))
    let s := s.over fs fun s f => s.installFrame vol v gen f
    let firsts := stripes.filter fun k => lbas.any fun l =>
      let a := s.locate v l
      a.region = k.1 && a.stripe = k.2 && a.seg = 0 && a.pos = (s.regionTmpl k.1).dataPos 0
    let s := s.over firsts fun s k => s.openParison vol k.1 k.2
    let s := s.over stripes fun s k => s.absorbStripe vol k.1 k.2
    (gen, { s with wp := { s.wp with complete := s.wp.complete.join (stripes.filter fun k => s.isComplete vol k.1 k.2) } })

/-- WRITE records of a command: its blocks in LBA order, up to 496 each (R158, R211). -/
def writeRecsOf (vol lba : Nat) (gen : BitVec 32) (data : List Block) : List JRecImage :=
  (chunks 496 data.length data).zipIdx.map fun e =>
    { bareRec .write with vol := vol, gen := gen, firstLba := lba + 496 * e.2, payload := e.1 }

/-- A write's frames enter the cache in one directory operation, and its completion waits for what its rule asks; only a WRITE
has FUA (R152, R157 to R159, R573). -/
def State.commit (s : State) (acc : Nat) : State :=
  match s.cmds.look acc with
  | none => s
  | some c => match s.volumes.look c.sqe.vol with
    | none => s
    | some _ =>
      let vol := c.sqe.vol
      let fua := c.sqe.fua && c.sqe.opcode = 2
      let (gen, s) := s.install vol c.frames
      let (rule, jwt) := s.ackRule c.rule fua
      let data := c.frames.map fun f => ((s.frames.look f).map (·.data)).getD []
      let s := s.updCmd acc fun c => { c with
        phase := .committed, gen := gen, rule := rule, jwtAck := jwt, frames := [],
        cover := if rule = .stw then (span c.sqe.lba c.sqe.nblocks).map fun l => (l, gen) else [] }
      let s := if rule = .jwt then s.appendRecs (writeRecsOf vol c.sqe.lba gen data) (some acc) none else s
      let s := if fua then s.demand (s.stripesOfBlocks vol (span c.sqe.lba c.sqe.nblocks)) else s
      s.writeCheck acc

/-- Commit a write whose conditions all hold (R151, R180, R508); where only activity bits are missing they are asked for. Waiting commits proceed in acceptance order: one that raises the
dirty amount stands behind every earlier one that has begun to wait. -/
def State.tryCommit (s : State) (acc : Nat) : State :=
  match s.cmds.look acc with
  | none => s
  | some c =>
    let first := s.stalledCmds.all fun a => a ≥ acc
    let rise := s.riseOf c.sqe.vol c.sqe.lba c.sqe.nblocks
    if c.phase = .gathered && s.orderedWrite c && s.roomFor c && (rise = 0 || first) && !s.holdsBack c && !s.lehrOn then
      let rs := s.regionsWritten c
      let s := s.askBits rs
      if rs.all s.pair.bitmap.contains then s.commit acc else s
    else s

/-! ### Which stripe is destaged next (R179, R181) -/

/-- A stripe with DIRTY frames on which no destage works yet. -/
structure DirtyStripe where
  vol : Nat
  region : Nat
  stripe : Nat
  oldest : Nat
  unjournaled : Bool
deriving DecidableEq, Repr

/-- The stripes with DIRTY frames and no destage task. -/
def State.dirtyStripes (s : State) : List DirtyStripe :=
  let l := s.frames.foldl (fun (acc : List DirtyStripe) e =>
    if e.2.st ≠ .dirty then acc
    else match s.stripeOf e.2.vol e.2.lba with
      | none => acc
      | some k =>
        let here (d : DirtyStripe) : Bool := d.region = k.1 && d.stripe = k.2
        if acc.any here then
          acc.map fun d => if here d then { d with oldest := min d.oldest e.2.dirtyAt,
                                                   unjournaled := d.unjournaled || e.2.unjournaled } else d
        else acc ++ [⟨e.2.vol, k.1, k.2, e.2.dirtyAt, e.2.unjournaled⟩]) []
  l.filter fun d => !(match s.volumes.look d.vol with | some v => v.deleting | none => true) && !s.tasks.any fun t => t.2.region = d.region && t.2.stripe = d.stripe &&
    (match t.2.kind with | .destage => true | .redestage _ => true | _ => false)

/-- The order of R181: class, place within it, which stripes that entered it at one time share, region state, region, stripe; a LOST region ranks with NORMAL and RELOCATING ones
(DESIGN CHOICE 53). -/
def State.destageKey (s : State) (d : DirtyStripe) : List Nat :=
  let k := (d.region, d.stripe)
  let e := s.region d.region
  let rank := if e.urgentRank then 0 else if e.st = .degraded || e.st = .rebuilding then 1 else 2
  let cls := if s.isComplete d.vol d.region d.stripe then [0, s.wp.complete.place k]
    else if s.wp.demanded.has k then [1, s.wp.demanded.place k] else [2, d.oldest]
  cls ++ [rank, d.region, d.stripe]

/-- Order of keys. -/
def keyLe : List Nat → List Nat → Bool
  | [], _ => true
  | _, [] => false
  | a :: t, b :: u => a < b || (a = b && keyLe t u)

/-- Is a stripe's destage foreground work (R179)? -/
def State.isFgDestage (s : State) (d : DirtyStripe) : Bool :=
  let k := (d.region, d.stripe)
  s.wp.urgent || s.isComplete d.vol d.region d.stripe || s.wp.demanded.has k || s.wp.aged.contains k
    || (s.wp.urgentUnjournaled && d.unjournaled)

/-- Bytes of the record that the journal method writes for a destage of so many cells of a stripe: an INTENT record where the stripe is
complete, else a DESTAGE chain (R211, R213). -/
def State.recordBytes (s : State) (d : DirtyStripe) (cells : Nat) : Nat :=
  if s.useTable d.vol then 0
  else if s.isComplete d.vol d.region d.stripe then 4096
  else 4096 * (cells + (cells + 495) / 496)

/-- Bytes to and from members and vault dies that a destage of a stripe takes now (R356, R377). -/
def State.destageBytes (s : State) (d : DirtyStripe) : Nat :=
  let m := s.regionTmpl d.region
  let dirty := (s.stripeFrames d.vol d.region d.stripe).filterMap fun f =>
    if f.2.2.2.st = .dirty then some (f.2.1, f.2.2.1) else none
  let h := s.chooseHow d.vol d.region d.stripe dirty
  let reads := match h with
    | .rmw => (rmwCells m dirty).length
    | .reconstruct => (s.reconCells d.vol d.region d.stripe dirty).length
    | .full => m.data * m.strip - dirty.length
    | _ => 0
  let cells := (s.writeCells d.region d.stripe h dirty).length
  4096 * (reads + cells) + s.recordBytes d cells

/-- Does the module destage in its present condition: the logic die runs, no lehr pass, not FENCED, and a start-up has
reached step 10 (R204, R465, R480, R512)? -/
def State.mayDestage (s : State) : Bool :=
  !s.life.inReset && !s.lehrOn && s.life.st ≠ .fenced && !(s.life.starting && s.life.step < 10)

/-- Start the destage of a stripe: it asks for the exclusive interlock (R182). One of the DESTAGE_AHEAD class is charged when it starts
(R377). -/
def State.startDestage (s : State) (d : DirtyStripe) (fg : Bool) : State :=
  let n := if fg then 0 else s.destageBytes d
  let s := if fg then s else s.charge 5 n
  (s.newTask { kind := .destage, vol := d.vol, region := d.region, stripe := d.stripe, segs := [], fg := fg,
               cls := if fg then none else some 5, paid := n } (some true)).2

/-- Start the first eligible stripe in R181 order: foreground work at once, else one under the DESTAGE_AHEAD allowance
(R179, R377). -/
def State.destageNext (s : State) : State :=
  if !s.mayDestage then s
  else
    let l := sortBy (fun a b => keyLe (s.destageKey a) (s.destageKey b)) s.dirtyStripes
    match l.find? s.isFgDestage with
    | some d => s.startDestage d true
    | none => match l with
      | [] => s
      | d :: _ => if s.mayStart 5 then s.startDestage d false else s

/-! ### Run-ahead (R260 to R268) -/

/-- Blocks of a run-ahead unit. -/
def State.unitBlocks (s : State) (vol : Nat) : Nat :=
  match s.volumes.look vol with | some v => (s.tmpl v.template).strip | none => 1

/-- FILLING frames held for run-ahead (R264). -/
def State.runaheadFrames (s : State) : Nat := (s.frames.filter fun e => e.2.st = .filling && e.2.runahead).length

/-- Issue one unit of a stream from its first block (R260, R264, R265): frames for its blocks, and one task under its stripe's
shared interlock. -/
def State.issueUnit (s : State) (id vol first : Nat) : State :=
  match s.volumes.look vol with
  | none => s
  | some v =>
    let lbas := (span first (s.unitBlocks vol)).filter fun l => l < v.capacity
    let a := s.locate v first
    let (fills, s) := lbas.foldl (fun (acc : List (Nat × Nat × Nat) × State) l =>
      let a := acc.2.locate v l
      match acc.2.takeFrame { vol := vol, lba := l, st := .filling, runahead := true } with
      | some (f, s') => (acc.1 ++ [(f, a.pos, a.seg)], s')
      | none => acc) ([], s)
    if fills.length < lbas.length then s.freeAll (fills.map (·.1))
    else
      let cells := lbas.map fun l => let a := s.locate v l; (a.pos, a.seg)
      (s.newTask { kind := .unit id, vol := vol, region := a.region, stripe := a.stripe, segs := cells.map (·.2),
                   want := cells, fills := fills } (some false)).2

/-- Is a unit in fill for the stream already? -/
def State.unitInFill (s : State) (id vol first : Nat) : Bool :=
  match s.volumes.look vol with
  | none => false
  | some v =>
    let a := s.locate v first
    s.tasks.any fun t => (match t.2.kind with | .unit i => i = id | _ => false) && t.2.region = a.region
      && t.2.stripe = a.stripe && t.2.want.any fun c => c = (a.pos, a.seg)

/-- The units an active stream should keep in fill: those of the next `depth` units that have a block without a visible frame
and lie within the capacity (R262). -/
def State.unitsWanted (s : State) (id : Nat) (x : Stream) : List Nat :=
  match s.volumes.look x.vol with
  | none => []
  | some v =>
    let b := s.unitBlocks x.vol
    let from_ := x.next / b + 1
    ((span from_ x.depth).map (· * b)).filter fun first =>
      first < v.capacity && !s.unitInFill id x.vol first
        && ((span first b).any fun l => l < v.capacity && (s.visible x.vol l).isNone)

/-- Issue what an active stream wants while the frames allow; the rest waits in the stream (R262, R264, R268). -/
def State.feedStream (s : State) (id : Nat) : State :=
  match s.streams.look id with
  | none => s
  | some x =>
    if !x.active || s.wp.reclaim || s.lehrOn then s
    else
      let (waits, s) := (s.unitsWanted id x).foldl (fun (acc : List Nat × State) first =>
        if acc.1.isEmpty && acc.2.runaheadFrames + acc.2.unitBlocks x.vol ≤ 262144
            && acc.2.unitBlocks x.vol ≤ acc.2.freeFrames
        then (acc.1, acc.2.issueUnit id x.vol first) else (acc.1 ++ [first], acc.2)) ([], s)
      { s with streams := s.streams.upd id fun x => { x with waiting := waits } }

/-- Cancel a stream's run-ahead: every unit not yet visible is discarded, and READs attached to it issue their own member
reads (R232, R268). -/
def State.cancelUnits (s : State) (id : Nat) : State :=
  s.over (s.tasks.filter fun t => match t.2.kind with | .unit i => i = id && t.2.stage ≠ .late && t.2.stage ≠ .uncompared | _ => false)
    fun s t =>
      let lbas := match s.volumes.look t.2.vol with
        | some v => t.2.want.map fun (c : Nat × Nat) => s.lbaAt v t.2.region t.2.stripe c.1 c.2
        | none => []
      let s := s.endTask t.1
      let s := { s with volumes := s.volumes.upd t.2.vol fun v => { v with runaheadDiscarded := sat64 v.runaheadDiscarded } }
      s.deliver t.2 (lbas.map fun l => (l, none))

/-- A host READ extends a stream of its volume, or creates one in the least recently extended entry (R261), with its own
blocks as the run and no extension (DESIGN CHOICE 53); its creation counts as an extension for its age (DESIGN CHOICE 54). -/
def State.noteStream (s : State) (vol lba n : Nat) : State :=
  let b := s.unitBlocks vol
  match s.streams.find? fun e => e.2.vol = vol && e.2.next = lba with
  | some (id, x) =>
    let x := { x with next := lba + n, run := x.run + n, extends_ := x.extends_ + 1, at_ := s.now }
    let starts := !x.active && x.run ≥ 2 * b && x.extends_ ≥ 2
    let x := if starts then { x with active := true, depth := 4 } else x
    ({ s with streams := s.streams.put id x }).feedStream id
  | none =>
    let id := match (span 0 (min 1024 (s.streams.length + 1))).find? fun i => !s.streams.has i with
      | some i => i
      | none => ((sortBy (fun a b => a.2.at_ < b.2.at_ || (a.2.at_ = b.2.at_ && a.1 ≤ b.1)) s.streams).head?.map (·.1)).getD 0
    let s := if s.streams.has id then s.cancelUnits id else s
    { s with streams := s.streams.put id { vol := vol, next := lba + n, run := n, extends_ := 0, at_ := s.now } }

/-- Cancel and drop a stream. -/
def State.dropStream (s : State) (id : Nat) : State :=
  let s := s.cancelUnits id
  { s with streams := s.streams.del id }

/-- Drop the streams of a volume (R268). -/
def State.dropStreams (s : State) (vol : Nat) : State :=
  s.over ((s.streams.filter fun e => e.2.vol = vol).map (·.1)) fun s id => s.dropStream id

/-- Units whose stream has gone are discarded (R268). -/
def State.orphanUnits (s : State) : State :=
  let ids := uniq (s.tasks.filterMap fun t => match t.2.kind with
    | .unit i => if s.streams.has i then none else some i
    | _ => none)
  s.over ids fun s id => s.cancelUnits id

/-! ### Draining (R665 to R668) -/

/-- Frames of an HBM channel (R139). -/
def State.framesOf (s : State) (c : Nat) : List (Nat × Frame) := s.frames.filter fun e => e.1 % 32 = c

/-- May a frame leave a draining channel now: DIRTY or CLEAN, with nothing that holds it (R665 step 3)? -/
def Frame.movable (x : Frame) : Bool := (x.st = .dirty || x.st = .clean) && x.pins = 0 && x.holds = 0

/-- Copy a DIRTY frame to another channel, in one directory operation (R665 step 3). -/
def State.moveFrame (s : State) (f : Nat) (x : Frame) : State :=
  match s.takeFrameBut (some (f % 32)) x with
  | none => s
  | some (n, s') => (s'.freeFrame f).chainIn n

/-- Empty a draining channel: its share of the other areas moves first, CLEAN frames are freed, DIRTY frames copied while other channels have
room. -/
def State.emptyChannel (s : State) (c : Nat) : State :=
  (s.moveShare c).over (s.framesOf c) fun s e =>
    if !e.2.movable then s else if e.2.st = .clean then s.freeFrame e.1 else s.moveFrame e.1 e.2

/-! ### The self-test (R635, R636, R668) -/

/-- A running self-test ends with a status: EV_SELF_TEST and the cause (R636, R639, R723). What it had still to do is dropped. -/
def State.selfTestEnds (s : State) (status : Nat) : State :=
  let x := s.mgmt.selfTest
  if x.status ≠ 1 then s
  else
    let x := { x with status := status, seconds := (s.now - x.startedAt) / 1000000, units := [], range := none, marches := [], asks := [],
                      ckpt := none, patrol := 0 }
    let s := { s with mgmt := { s.mgmt with selfTest := x } }
    (s.event Ev.selfTest 0 status x.kind x.failedIsland).raisePfs .selfTestDone

/-- Change the running self-test. -/
def State.updTest (s : State) (f : SelfTest → SelfTest) : State := { s with mgmt := { s.mgmt with selfTest := f s.mgmt.selfTest } }

/-- A unit's test is over, or its march: it is not tested again. -/
def State.unitTested (s : State) (i : Nat) : State :=
  s.updTest fun t => { t with units := t.units.filter (· ≠ i), marches := t.marches.filter (· ≠ i) }

/-- Is the part of a self-test over that a short test has? A unit mapped out and a member that has gone are not waited for. -/
def State.shortDone (s : State) : Bool :=
  let t := s.mgmt.selfTest
  (t.units.all fun i => (s.island i).status = 3) && t.range.isNone && (t.asks.all s.memberGone) && t.ckptGood && t.linkGood

/-- Is every march over? -/
def State.marchDone (s : State) : Bool := s.mgmt.selfTest.marches.all fun i => (s.island i).status = 3

/-- May an extended test check its regions now, after its marches and its patrol pass (R635)? -/
def State.testRegions (s : State) : Bool := s.mgmt.selfTest.status = 1 && s.shortDone && s.marchDone && s.mgmt.selfTest.patrol = 0

/-- The range of a short test: its frames leave the channel as in a drain (R665 step 3); the patterns run once it is empty, and by the next
row they have, unless SELF_TEST_COMPLETE names the channel (R668, DESIGN CHOICE 14). -/
def State.rangeStep (s : State) : State :=
  match s.mgmt.selfTest.range with
  | none => s
  | some (c, true) => (s.updTest fun t => { t with range := none }).unitTested (66 + c)
  | some (c, false) =>
    let s := s.over (s.frames.filter fun e => s.inRange e.1) fun s e =>
      if !e.2.movable then s else if e.2.st = .clean then s.freeFrame e.1 else s.moveFrame e.1 e.2
    if s.frames.any fun e => s.inRange e.1 then s else s.updTest fun t => { t with range := some (c, true) }

/-- The sectors of a checkpoint copy in the vault, in order; one that is not there is left out. -/
def Vault.checkpointSectors (v : Vault) (c : Checkpoint) : List Nat :=
  (span 0 c.parts).filterMap fun k => (v.segmentAt (.checkpoint c.copy k) c.after).map (·.1)

/-- Issue the reads of a self-test's checkpoint while the VAULT_PATROL allowance lasts (R413, R635, R636), with fuel. -/
def testReads : Nat → State → State
  | 0, s => s
  | n + 1, s => match s.mgmt.selfTest.ckpt with
    | some (q, a :: l) =>
      if !s.mayStart 4 then s
      else
        let (now, rest) := (a :: l).partition fun b => readKey b = readKey a
        testReads n (((s.updTest fun t => { t with ckpt := some (q, rest) }).charge 4 (4096 * now.length)).issueOp (.read now .test))
    | _ => s

/-- The newest checkpoint copy is read for the self-test and its CRC checked; a newer copy that comes meanwhile is read instead. One that
does not read ends the test with the vault channel of its first sector (R635, R636, DEDUCED 14). -/
def State.testCheckpoint (s : State) : State :=
  let t := s.mgmt.selfTest
  match s.vault.newest with
  | none => s
  | some c =>
    if t.ckptGood then s
    else match t.ckpt with
      | some (q, l) =>
        if q ≠ c.seq then s.updTest fun t => { t with ckpt := some (c.seq, s.vault.checkpointSectors c) }
        else if !l.isEmpty then testReads l.length s
        else if s.vault.ops.any fun (o : Nat × VReq) => match o.2.op with | .read _ .test => true | _ => false then s
        else if s.vault.copyGood c then s.updTest fun t => { t with ckptGood := true, ckpt := none }
        else
          let die := match s.vault.checkpointSectors c with | a :: _ => (VOp.read [a] .test).die | [] => 0
          (s.updTest fun t => { t with failedIsland := 98 + die }).selfTestEnds 3
      | none =>
        let l := s.vault.checkpointSectors c
        testReads l.length (s.updTest fun t => { t with ckpt := some (c.seq, l) })

/-- What a running self-test does beside the rows that name it: a valid frame of the power link, the range of a channel, the checkpoint. -/
def State.testStep (s : State) : State :=
  if s.mgmt.selfTest.status ≠ 1 || s.lehrOn || s.life.inReset then s
  else (s.updTest fun t => { t with linkGood := t.linkGood || s.link.valid }).rangeStep.testCheckpoint

/-- Does an island come up again by itself, once its late epoch has advanced: one of the host side that a PERST_N reset (R477, R652)? The
sideband comes up so in the pass and the reset after it, and by its own row when it had gone down alone. -/
def State.comesUp (s : State) (i : Nat) (x : Island) : Bool :=
  x.status = 1 && hostSide i && (i ≠ 253 || s.lehrOn || s.life.inReset)

/-- An epoch that had to wait because its island had gone down less than 1 ms before advances (R652), where no return of the island advances
it: it is mapped out, or drained for its test, or comes up with the advance. -/
def State.lateEpochs (s : State) : State :=
  if (s.lehrOn || s.life.inReset) && !s.life.hostReady then s
  else s.over (s.islands.filter fun (e : Nat × Island) => e.2.advanceDue && (e.2.status = 3 || e.2.drained || s.comesUp e.1 e.2)) fun s e =>
    let early : Bool := match e.2.advancedAt with | some t => s.now < t + 1000 | none => false
    if early then s
    else
      let up := s.comesUp e.1 e.2
      let s := s.setIsland e.1 { e.2 with
        epoch := e.2.epoch + 1, advancedAt := some s.now, advanceDue := false, status := if up then 0 else e.2.status,
        upAt := if up then some s.now else e.2.upAt }
      if up && e.1 = 253 then s.sbCleared else s

/-- A drained tile runs the self-test's patterns as background jobs of the firmware (DESIGN CHOICE 53): ENCODE, DECODE and LOCATE on fixed vectors, each
of them one segment (R133, R635, R636, DESIGN CHOICE 42). -/
def State.testTile (s : State) (t : Nat) : State :=
  s.over [0, 1, 2] fun s k =>
    let (j, s) := s.newId
    let x := s.tile t
    let job : Job := { id := j, op := .pattern k, task := none, fg := false, bytes := 4096, dest := (s.island (114 + t)).epoch,
                       src := (s.island firmwareIsland).epoch }
    s.setTile t ({ x with queue := x.queue ++ [job] } : Tile).startNext

/-- Is a unit being drained, or down or its range drained for its test? The module drains one unit at a time (R636, R668). -/
def State.unitInTest (s : State) : Bool :=
  s.mgmt.selfTest.range.isSome || s.islands.any fun (e : Nat × Island) => e.2.status = 2 || (e.2.status = 1 && e.2.drained)

/-- A unit that has met a criterion of R664 starts to drain once no other one does (R668). -/
def State.nextDrain (s : State) : State :=
  if s.unitInTest then s
  else match s.islands.find? fun (e : Nat × Island) => e.2.status = 0 && e.2.outRow ≠ 0 with
    | some (i, x) => s.setIsland i { x with status := 2 }
    | none => s

/-- A draining unit that has become empty goes down, for good where it met a criterion of R664; a tile drained for the self-test is
tested there. -/
def State.drainCheck (s : State) : State :=
  if s.lehrOn || s.life.inReset then s
  else s.nextDrain.over (s.nextDrain.islands.filter fun (e : Nat × Island) => e.2.status = 2) fun s e =>
    let i := e.1
    let row := e.2.outRow
    let ch := 66 ≤ i && i < 98
    let s := if ch then s.emptyChannel (i - 66) else s
    let empty := if ch then (s.framesOf (i - 66)).isEmpty && s.shareGone (i - 66) else (s.tile (i - 114)).running.isNone && (s.tile (i - 114)).queue.isEmpty
    if !empty then s
    else if row ≠ 0 then (s.islandDown i 2).mapOut i row
    else if ch then s.islandDown i 1
    else (s.islandDown i 1).testTile (i - 114)

/-! ### Deleting a volume (R624) -/

/-- Free what a volume holds: its frames and parisons, its WRITE records, and its regions or vault sectors. -/
def State.freeVolume (s : State) (v : Nat) (x : Volume) : State :=
  let ids := (s.tasks.filter fun t => x.vmap.contains t.2.region && !x.vault).map (·.1)
  let s := s.over ids fun s t => s.endTask t
  let s := s.dropStreams v
  let s := s.freeAll ((s.frames.filter fun f => f.2.vol = v).map (·.1))
  let s := s.over ((s.parisons.filter fun p => p.2.vol = v).map (·.1)) fun s p => s.closeParison p
  let recs := (s.journal.recs.filter fun r => r.2.img.kind = .write && r.2.img.vol = v && !r.2.allRetired).map (·.1)
  let s := (s.queueRetire (recs.map fun q => (q, 0x1FF)) none).retireNow
  let s := s.over x.vmap fun s r => ((s.setWork r {}).forgetOwed r).updRegion r fun e => { gen := e.gen, st := .free }
  -- its stripes leave the orders of R181
  let out (k : Nat × Nat) : Bool := !x.vault && x.vmap.contains k.1
  let s := { s with wp := { s.wp with demanded := s.wp.demanded.drop out, aged := s.wp.aged.filter fun k => !out k, complete := s.wp.complete.drop out } }
  let s :=
    if !x.vault then s
    else
      let l := (span 0 x.capacity).filter fun b => s.vault.map.has (vkey v b)
      let s := s.logEntries (l.map fun b => MapEntry.unmap v b) none none
      { s with vault := { s.vault with map := l.foldl (fun m b => m.del (vkey v b)) s.vault.map } }
  let f := x.attached.getD ⟨0, 0⟩
  let s := s.volEvent Ev.volume v v 1 (fnKey f)
  let s := if x.vault then s else s.noteChange 3 v
  { s with volumes := s.volumes.del v }

/-- A VOLUME_DELETE goes on when no destage of its volume is in flight, and completes when its RETIRE items have committed. -/
def State.deleteCheck (s : State) : State :=
  s.over (s.cmds.filter fun e => e.2.phase = .running && e.2.sqe.opcode = 0x8C) fun s e =>
    let v := e.2.sqe.pfield 0 0 12
    let s := match s.volumes.look v with
      | some x =>
        let busy := s.tasks.any fun t => t.2.vol = v &&
          (match t.2.kind with | .destage => true | .redestage _ => true | .zero _ => true | _ => false)
        if x.deleting && !busy then s.freeVolume v x else s
      | none => s
    if s.volumes.has v || s.journal.recs.any fun r => r.2.img.kind = .write && r.2.img.vol = v && !r.2.allRetired then s
    else s.finish e.1 St.success

/-- The pools' spare space against what a member affects, once the array serves (R354). -/
def State.spareChecks (s : State) : State :=
  if s.life.starting || s.life.inReset || s.lehrOn then s else s.over (s.pools.map (·.1)) fun s p => s.spareCheck p

/-- Tile jobs that waited for a pin of their frames are issued where that has come (R148). -/
def State.pinRetry (s : State) : State :=
  let s := s.over ((s.tasks.filter fun t => t.2.pinWait).map (·.1)) fun s t =>
    (s.updTask t fun x => { x with pinWait := false }).later (.advance t)
  s.over ((s.parisons.filter fun e => e.2.pinWait).map (·.1)) fun s p => s.absorbIssue p

/-- Has any restored frame with JOURNALED = 0 still to be destaged (R486)? -/
def State.unjournaledLeft (s : State) : Bool :=
  s.frames.any fun e => (e.2.st = .dirty || e.2.st = .destaging) && !e.2.journaled

/-- Step 10 is over once no restored frame and no re-destage depends on the dump: it is released (R208, R486). -/
def State.dumpDone (s : State) : State :=
  if !s.life.inReset && !s.lehrOn && s.life.starting && s.life.step = 10 && s.life.redestages.isEmpty && s.life.usableDump && !s.life.held && s.life.takeover.isNone
      && !s.unjournaledLeft
  then s.releaseDump else s

/-- Regions active now (R507). -/
def State.activeRegions (s : State) : List Nat :=
  let dirty := (s.frames.filter fun e => e.2.st = .dirty || e.2.st = .destaging).filterMap fun e =>
    (s.stripeOf e.2.vol e.2.lba).map (·.1)
  let entries := s.table.map fun e => e.2.region
  let journal := (s.journal.recs.filter fun e => !e.2.allRetired).flatMap fun e =>
    let r := e.2.img
    match r.kind with
    | .write => ((s.stripesOfBlocks r.vol (e.2.liveBlocks.map (r.firstLba + ·))).map (·.1))
    | .destage => [r.region]
    | .intent => [r.region]
    | _ => []
  let repairs := s.tasks.filterMap fun t => match t.2.kind with
    | .repair => some t.2.region
    | .scrub _ _ => if t.2.writeMask ≠ 0 then some t.2.region else none
    | .resolve => if t.2.writeMask ≠ 0 then some t.2.region else none
    | _ => none
  uniq (dirty ++ entries ++ journal ++ repairs)

/-- A region has been active until now, or has just become so: the instant is kept, and a bit that is clear on the drives is written (R507,
R508). -/
def State.noteActivity (s : State) : State :=
  let now := s.activeRegions
  let stamped := (uniq (s.pair.activeNow ++ now)).foldl (fun m r => Store.put m r s.now) s.pair.activeAt
  let s := { s with pair := { s.pair with activeNow := now, activeAt := stamped } }
  let missing := now.filter fun r => !s.bitsComing.contains r
  if missing.isEmpty || !s.writesMeta then s else s.metaStart (.bits missing)

/-- Regions of a pool with CRIT = 1, or CRITICAL, that are queued for rebuild or rebuilt (R95, R351). -/
def State.critWaiting (s : State) (pool : Nat) : List Nat :=
  (s.work.filter fun e => (e.2.queued || e.2.place) && (s.region e.1).pool = pool && (s.region e.1).urgentRank).map (·.1)

/-- Since when the REBUILD share of a pool with such a region has stayed zero (R351). -/
def State.starveNote (s : State) : State :=
  let zero := s.gov.shares.getD 0 0 = 0
  { s with pools := s.pools.each fun k (p : Pool) =>
      if zero && !(s.critWaiting k).isEmpty then { p with starvedSince := some (p.starvedSince.getD s.now) }
      else { p with starvedSince := none, starvedRecorded := false } }

/-- A region that waits for a slot or a drive may try again from the first instant on at which a slot is freed or a drive added, also where
the slot is taken again before it does (R84, R319). -/
def State.slotWatch (s : State) : State :=
  s.over (s.work.filter fun e => e.2.waits.isSome) fun s e =>
    if s.maySeek e.1 then s.updWork e.1 fun w => { w with waits := none }
    else s.updWork e.1 fun w => { w with waits := w.waits.map fun x => (s.slotsUsed (s.region e.1).pool, x.2) }

/-- Do a row's follow-up work, then bring up to date what no row of its own does: deletions, run-ahead, jobs that wait for pins, drains,
host reads that a pool, a fence or the group held, the dump's release, active regions, members, urgent destage, the stall clock, the demand of a full journal (R221), disagreeing READs, spare space, freed slots and the starved REBUILD share. -/
def State.run (s : State) : State :=
  let s := s.settle.deleteCheck.orphanUnits.pinRetry.noteActivity.settle.drainCheck.testStep.lateEpochs.pump.dumpDone
  s.memberChecks.journalPressure.urgentCheck.stallNote.suspectCheck.spareChecks.slotWatch.starveNote

/-- The shape of a command of the vault: the device settings stay, but for L_cfg, which blocks that retire may lower (R401). -/
def State.keepVault (s t : State) : State :=
  let t := (t.reserveCheck (reserveKept s.vault.blocks)).run
  { t with pending := s.pending, now := s.now, settings := { s.settings with lCfg := cappedLimit s.settings.lCfg t.vault.blocks } }

/-- The outcome of a command of the vault. -/
def vaultAct (s t : State) : Host.Outcome State Fault Refusal := .next (s.keepVault t)

end Sys2Proof.Machine
end

