-- ==== Sys2Proof/Machine/Start.lean ====
section
/-! DEFINITION. How an accepted host command starts: FENCE, the device-wide group, the order of volume creation and
deletion, the arrival of its host data, and how it answers (R189, R606, R613, R614). -/

namespace Sys2Proof.Machine

open Sys2Proof

/-- The accepted command `acc`, where it has this opcode and sub-form and may start now: it has passed checks 1 to 11,
nothing holds it back, and host data that it reads is complete (a WRITE fetches its data once it has started). -/
def State.startable (s : State) (acc op : Nat) (sub : Sqe → Bool) : Option Cmd :=
  match s.cmds.look acc with
  | none => none
  | some c =>
    if c.phase = .accepted && c.sqe.opcode = op && sub c.sqe && c.buffers.isSome && !s.fenceHolds c && !s.groupHolds c
        && !s.lehrOn && !s.life.inReset && (!fromHost op || op = 2 || c.dataDone)
    then some c else none

/-- Run a host command where it may start; else the state is unchanged. -/
def State.start (s : State) (acc op : Nat) (sub : Sqe → Bool) (f : Cmd → State) : State :=
  match s.startable acc op sub with
  | some c => f c
  | none => s

/-- May the command write host memory now? One whose ring is gone writes nothing (R558). -/
def State.mayReply (s : State) (c : Cmd) : Bool := c.silent || s.mayRequest c.fn

/-- Answer a command with data from a page, and SUCCESS; it waits while its function may not issue requests (R560). -/
def State.reply (s : State) (c : Cmd) (page : List Byte) (result : Word := 0) : State :=
  if !s.mayReply c then s
  else
    let s := if c.silent then s else s.hostWrite c.fn (c.buffers.getD []) (pageFrom page 0 c.total)
    s.finish c.acc St.success result

/-- SUCCESS where a check passes, with an effect first; else a status. -/
def State.check (s : State) (c : Cmd) (bad : Option Status) (effect : State) : State :=
  match bad with
  | some st => s.finish c.acc st
  | none => effect

/-- The first status of a list of checks that fails. -/
def firstFail (l : List (Bool × Status)) : Option Status := (l.find? (·.1)).map (·.2)

/-- Any sub-form. -/
def anyForm (_ : Sqe) : Bool := true

end Sys2Proof.Machine
end

