-- ==== Sys2Proof/Machine/Pages.lean ====
section
/-! DEFINITION. What the host and the sideband read: the IDENTIFY pages and the log pages, byte by byte (R302, R311, R353,
R427, R616, R620, R621, R626, R636, R638, R669). -/

namespace Sys2Proof.Machine

open Sys2Proof

/-- A count that saturates in w bits. -/
def sat (w n : Nat) : Nat := min n (2 ^ w - 1)

/-- A signed value as w bits. -/
def signedField (w : Nat) (v : Int) : Nat := (BitVec.ofInt w v).toNat

/-! ### Firmware slots (R637, R638, R764) -/

def State.slot (s : State) (k : Nat) : FwSlot := if k = 0 then s.mgmt.slotA else s.mgmt.slotB

def State.setSlot (s : State) (k : Nat) (x : FwSlot) : State :=
  { s with mgmt := if k = 0 then { s.mgmt with slotA := x } else { s.mgmt with slotB := x } }

/-- The version of the firmware that runs (R539, R764): its slot is never the one FW_STAGE writes (R637), and the code runs on where R419 marks
the slot not valid. -/
def State.runningVersion (s : State) : Nat := (Config.imageVersion (s.slot s.life.fwRunning).image).toNat

/-- The version of a slot, zero when it is not valid (R764). -/
def FwSlot.version (x : FwSlot) : Nat := if x.valid then (Config.imageVersion x.image).toNat else 0

/-! ### IDENTIFY (R58, R616) -/

/-- Free region-table entries within the offer (R505). -/
def State.regionsFree (s : State) : Nat :=
  let n := offered s.arrayDrives.length
  n - (s.usedRegions.filter (· < n)).length

/-- Capacity left for vault volumes in GiB (R402). -/
def State.vaultFreeGib (s : State) : Nat :=
  ((List.range 1025).reverse.find? fun g =>
    s.vaultAllocated + g * 2 ^ 30 ≤ 2 ^ 40 && 0 ≤ s.spareLeftFor (s.vaultAllocated + g * 2 ^ 30)).getD 0

/-- The module page (R616). -/
def State.modulePage (s : State) : List Byte :=
  pageOf 4096
    [(0, 32, Config.identity.toNat), (0x20, 4, s.runningVersion), (0x24, 4, (s.slot s.mgmt.nextSlot).version),
     (0x28, 8, (((span 0 64).filter fun p => !(s.port p).prsntN).map (2 ^ ·)).sum),
     (0x30, 8, (s.members.keys.map (2 ^ ·)).sum),
     (0x38, 4, (((span 0 32).filter fun c => s.life.hbmTrained.getLsbD c && !s.mgmt.hbmOut.getLsbD c).map (2 ^ ·)).sum),
     (0x40, 8, (((span 0 48).filter fun t => !s.mgmt.tilesOut.getLsbD t).map (2 ^ ·)).sum),
     (0x48, 2, (s.pools.keys.map (2 ^ ·)).sum), (0x4A, 2, s.volumes.length), (0x4C, 4, s.regionsFree),
     (0x50, 4, s.settings.lCfg), (0x54, 4, s.wp.lEff), (0x58, 4, s.vaultFreeGib)]

/-- The ids of the volumes attached to a function at or above a start (R616). -/
def State.volumeList (s : State) (f : FnId) (start : Nat) : List Byte :=
  let ids := ((s.volumes.filter fun e => e.2.attached = some f && start ≤ e.1).map (·.1)).take 2047
  (toLe 2 ids.length ++ ids.flatMap (toLe 2)) ++ List.replicate (4094 - 2 * ids.length) 0

/-! ### Log pages (R620, R621) -/

/-- The vault block (R427). TEMP_MAX and TEMP_MIN are the extremes that the recorder keeps of series 21; before its first sample no rule gives
them a value (DESIGN CHOICE 5). WRITE_BUFFER is 0 where B of R403 is negative (DESIGN CHOICE 55). -/
def State.vaultBlock (s : State) : List (Nat × Nat × Nat) :=
  let v := s.vault
  let temp := s.recorder.extremes.look 21
  let live := v.blocks.filter fun e => e.2.st ≠ .retired
  let n := 262144 - s.retiredBlocks
  [(0, 1, v.percentUsed), (1, 1, b2n v.life90 + 2 * b2n v.readOnly), (4, 4, s.spareLeft.toNat), (8, 4, s.retiredBlocks),
   (0xC, 4, s.freeCount), (0x10, 4, s.writeBuffer.toNat), (0x14, 4, (live.map fun e => e.2.nS).sum / (100 * max 1 n)),
   (0x18, 4, (live.map fun e => e.2.nT).sum / max 1 n), (0x1C, 4, (v.blocks.map fun e => e.2.ppm).foldl max 0),
   (0x20, 4, sat 32 v.programFails), (0x24, 4, sat 32 v.eraseFails), (0x28, 4, sat 32 v.uncorrectable),
   (0x2C, 4, sat 32 v.refreshes), (0x30, 8, sat 64 v.correctedBits), (0x38, 4, sat 32 v.patrolPasses),
   (0x3C, 2, signedField 16 (match temp with | some x => x.max | none => -32768)),
   (0x3E, 2, signedField 16 (match temp with | some x => x.min | none => 32767))]

/-- Shift the fields of a block to its place in a page. -/
def atOffset (off : Nat) (l : List (Nat × Nat × Nat)) : List (Nat × Nat × Nat) := l.map fun f => (off + f.1, f.2)

/-- Page 0x01. -/
def State.healthPage (s : State) : List Byte :=
  pageOf 4096 ([(0, 1, s.life.st.code), (1, 1, s.wp.perm.code)] ++ atOffset 0x100 s.vaultBlock)

/-- Page 0x02, with the read-path block of R269. -/
def State.volumePage (s : State) (id : Nat) (v : Volume) : List Byte :=
  pageOf 256 (s.volumeHead id v ++
    [(0x80, 8, sat 64 v.hedgesStarted), (0x88, 8, sat 64 v.hedgesWon),
     (0x90, 4, sat 32 v.hedgesRefused), (0x94, 4, sat 32 v.returnedSuspect), (0x98, 4, sat 32 v.returnedFalse),
     (0x9C, 4, sat 32 v.unresolved), (0xA0, 4, sat 32 v.lateUncompared), (0xA4, 4, sat 32 v.readRepairs),
     (0xA8, 4, sat 32 v.dataLostReads), (0xB0, 8, sat 64 v.runaheadVisible), (0xB8, 8, sat 64 v.runaheadDiscarded)])

/-- Page 0x03, with the rebuild block of R353. -/
def State.poolPage (s : State) (id : Nat) (x : Pool) : List Byte :=
  let mine (r : Nat) : Bool := (s.region r).pool = id
  pageOf 256 (s.poolHead id x ++
    [(0x40, 4, (s.rebuildQueue.filter mine).length), (0x44, 4, (s.rebuilding.filter mine).length),
     (0x48, 4, (s.work.filter fun e => !e.2.halted.isEmpty && mine e.1).length), (0x4C, 4, s.spareFree id),
     (0x50, 8, sat 64 x.rebuildBytes), (0x58, 4, sat 32 x.scrubPasses), (0x5C, 4, sat 32 x.scrubMismatches)])

/-- Page 0x04, with the port block of R311. -/
def memberPage (m : Member) : List Byte :=
  pageOf 128 (memberHead m ++
    [(0x40, 4, sat 32 m.softTimeouts),
     (0x44, 4, sat 32 m.hardTimeouts), (0x48, 4, sat 32 m.abortsSent), (0x4C, 4, sat 32 m.lateCompletions),
     (0x50, 4, sat 32 m.mediaErrors), (0x54, 4, sat 32 m.controllerResets), (0x58, 4, sat 32 m.linkDowns)])

/-- The 128 bytes of a series (R692, R693). -/
def State.seriesPage (s : State) (k : Nat) : List Byte :=
  let src := if k < 18 || k = 30 then s.recorder.rolling else s.recorder.lifetime
  (span 0 32).flatMap fun b => toLe 4 (if k < 32 then min (2 ^ 32 - 1) (src.read (k * 32 + b) 0) else 0)

/-- One entry of the extremes table (R694). -/
def State.extremeBytes (s : State) (k : Nat) : List Byte :=
  match s.recorder.extremes.look k with
  | none => toLe 1 k ++ List.replicate 31 0
  | some x =>
    toLe 1 k ++ toLe 1 (1 + 2 * b2n x.maxTime.2 + 4 * b2n x.minTime.2) ++ toLe 2 0 ++ toLe 4 (BitVec.ofInt 32 x.max).toNat
      ++ toLe 4 (BitVec.ofInt 32 x.min).toNat ++ toLe 2 x.maxInst ++ toLe 2 x.minInst ++ toLe 8 x.maxTime.1 ++ toLe 8 x.minTime.1

/-- The extremes table. -/
def State.extremesPage (s : State) : List Byte := (span 0 64).flatMap s.extremeBytes

/-- The sector of the records area that holds the lifetime series 18 to 31 and the extremes (R693, R695; DESIGN CHOICE 25). -/
def State.seriesSector (s : State) : Block := trim ((span 18 14).flatMap s.seriesPage ++ s.extremesPage)

/-- The recorder saves the lifetime series and the extremes in the records area; they count as saved once the page is verified (R390, R695). -/
def State.saveSeries (s : State) : State :=
  if !s.vault.mounted || !s.recorder.up then s
  else s.vprogram .journalStream [(.records 0, 0, s.seriesSector)] [.seriesPart s.recorder.lifetime s.recorder.extremes]

/-- An indicator's code in the Slot Control register: 1 on, 2 blink, 3 off (R298, R302). -/
def indicatorCode (v : Nat) : Nat := if v = 0 then 3 else v

/-- Page 0x05: the standard hot-plug registers of a slot (R302) and its link. -/
def State.drivePortPage (s : State) (n : Nat) : List Byte :=
  let p := s.port n
  let ctl := indicatorCode p.attn * 64 + indicatorCode p.pwrInd * 256 + b2n (!p.pwrEn) * 1024
  let sts := b2n p.buttonBit + b2n p.faultBit * 2 + b2n p.cmdCompleted * 16 + b2n (!p.prsntN) * 64
  pageOf 64
    [(0, 4, 0x7B + n * 2 ^ 19), (4, 2, ctl), (6, 2, sts), (8, 1, match p.speed with | some g => g.gts | none => 0), (9, 1, if p.linkUp then p.width else 0),
     (0xA, 1, b2n p.autoPower + b2n p.buttonPolicy * 2)]

/-- Page 0x06 from byte `off`, `len` bytes: entries from the index OBJECT on. -/
def State.regionPage (s : State) (first off len : Nat) : List Byte :=
  let a := off / 64
  let n := (off % 64 + len + 63) / 64
  let l := ((span (first + a) n).filter (· < 16777216)).flatMap fun r => regionBytes (s.region r)
  bytesAt l (off % 64) len

/-- Page 0x07 (R626). -/
def lossPage (v : Volume) : List Byte :=
  toLe 4 v.loss.length ++ toLe 4 v.lossSeq.toNat ++ toLe 4 (b2n v.lossOverflow) ++ List.replicate 52 0
    ++ v.loss.flatMap fun e => toLe 8 e.firstLba ++ toLe 4 e.blocks ++ toLe 3 e.region ++ toLe 1 e.cause

/-- Page 0x08 (R492, R495, R620): the side and the partner's presence. The table that R620 names for it is in no file, so their places,
bits 0 and 1 of byte 0, are the model's, and every other byte is an open value at each instant (DESIGN CHOICE 29). -/
def State.pairPage (s : State) : List Byte :=
  BitVec.ofNat 8 (b2n s.life.side + 2 * b2n s.pair.partnerPresent)
    :: (span 1 127).map fun i => BitVec.ofInt 8 (Config.openValue 8 (s.now * 128 + i))

/-- Page 0x09 (R638). -/
def State.firmwarePage (s : State) : List Byte :=
  pageOf 32 ([0, 1].flatMap fun k =>
    let x := s.slot k
    atOffset (16 * k) [(0, 1, b2n x.valid + 2 * b2n (s.life.fwRunning = k) + 4 * b2n (s.mgmt.nextSlot = k)),
      (4, 4, x.version), (8, 4, if x.valid then x.image.length else 0), (0xC, 4, x.staged.length)])

/-- Seconds a self-test has run. -/
def State.testSeconds (s : State) : Nat :=
  if s.mgmt.selfTest.status = 1 then (s.now - s.mgmt.selfTest.startedAt) / 1000000 else s.mgmt.selfTest.seconds

/-- Page 0x0A (R636). -/
def State.testPage (s : State) : List Byte :=
  let t := s.mgmt.selfTest
  -- no rule fixes PERCENT while a test runs, or after one that did not pass
  let percent := if t.status = 0 then 0 else if t.status = 2 then 100
    else (Config.openValue 0x0A (t.startedAt * 2 ^ 32 + s.testSeconds)).toNat % 101
  pageOf 16 [(0, 1, t.status + t.kind * 16), (1, 1, percent), (2, 2, t.failedIsland), (4, 4, s.testSeconds),
             (8, 4, t.regionsChecked), (0xC, 4, t.mismatches)]

/-- Opcode or kind of a staged item. -/
def Staged.code : Staged → Nat
  | .template _ _ => 0x88 | .templateDelete _ => 0x88 | .pool .. => 0x89 | .poolDelete _ => 0x89 | .expand .. => 0x8A
  | .governor .. => 1 | .pack _ => 2

/-- Page 0x0B. -/
def State.stagedPage (s : State) : List Byte :=
  pageOf 4096 ((0, 4, s.mgmt.staged.length) ::
    s.mgmt.staged.zipIdx.map fun e => (8 + 8 * e.2, 2, e.1.code + e.2 * 256))

/-- Page 0x0C (R669). -/
def State.unitsPage (s : State) : List Byte :=
  let all := (span 0 260).map s.island
  pageOf 4096
    ([(0, 4, s.mgmt.hbmOut.toNat), (8, 8, s.mgmt.tilesOut.toNat), (0x10, 8, sat 64 (all.map (·.corrected)).sum),
      (0x18, 4, sat 32 (all.map (·.uncorrectable)).sum), (0x1C, 4, sat 32 s.mgmt.markedExits),
      (0x20, 4, sat 32 s.mgmt.rebuilt), (0x24, 1, s.life.lastFatal)]
      ++ all.zipIdx.flatMap fun e => atOffset (0x40 + 12 * e.2)
        [(0, 1, e.1.epoch.toNat), (1, 1, e.1.status), (2, 2, sat 16 e.1.uncorrectable), (4, 4, sat 32 e.1.corrected),
         (8, 2, sat 16 e.1.stale), (0xA, 2, sat 16 e.1.downCount)])

/-- The bytes of a log page from an offset; past its end they read as zero (R620). -/
def State.logBytes (s : State) (id obj off len : Nat) : List Byte :=
  let page := match id with
    | 1 => s.healthPage
    | 2 => match s.volumes.look obj with | some v => s.volumePage obj v | none => []
    | 3 => match s.pools.look obj with | some x => s.poolPage obj x | none => []
    | 4 => match s.members.look obj with | some m => memberPage m | none => []
    | 5 => s.drivePortPage obj
    | 7 => match s.volumes.look obj with | some v => lossPage v | none => []
    | 8 => s.pairPage
    | 9 => s.firmwarePage
    | 10 => s.testPage
    | 11 => s.stagedPage
    | 12 => s.unitsPage
    | _ => []
  if id = 6 then s.regionPage obj off len else pageFrom page off len

/-! ### The rows -/

/-- IDENTIFY_MODULE (R616). -/
def execIdentifyModule (acc : Nat) (s : State) : Host.Outcome State Fault Refusal :=
  act s (s.start acc 0x80 (fun e => e.pfield 0 0 8 = 0) fun c => s.reply c s.modulePage)

/-- IDENTIFY_VOLUMES (R616). -/
def execIdentifyVolumes (acc : Nat) (s : State) : Host.Outcome State Fault Refusal :=
  act s (s.start acc 0x80 (fun e => e.pfield 0 0 8 = 1) fun c => s.reply c (s.volumeList c.fn (c.sqe.pfield 1 0 16)))

/-- IDENTIFY_TEMPLATE (R616). -/
def execIdentifyTemplate (acc : Nat) (s : State) : Host.Outcome State Fault Refusal :=
  act s (s.start acc 0x80 (fun e => e.pfield 0 0 8 = 2) fun c =>
    let id := c.sqe.pfield 1 0 8
    match s.templates.look id with
    | some m => s.reply c (templateBytes id m)
    | none => s.finish acc St.templateUnknown)

/-- GET_LOG (R620). -/
def execGetLog (acc : Nat) (s : State) : Host.Outcome State Fault Refusal :=
  act s (s.start acc 0x82 anyForm fun c =>
    s.reply c (s.logBytes (c.sqe.pfield 0 0 8) (c.sqe.param 1) (c.sqe.param 2) c.total))

end Sys2Proof.Machine
end

