-- ==== Sys2Proof/Machine/Features.lean ====
section
/-! DEFINITION. SET_FEATURE, one row for each feature, GET_FEATURE, and the creation of rings (R164, R244, R542, R569,
R570, R595, R596, R601, R618, R619, R627, R763). -/

namespace Sys2Proof.Machine

open Sys2Proof

/-- VALUE0 to VALUE3 of a SET_FEATURE (R615). -/
def Sqe.values (e : Sqe) : List Nat := [e.param 2, e.param 3, e.param 4, e.param 5]

/-- VALUEk. -/
def Sqe.value (e : Sqe) (k : Nat) : Nat := e.param (2 + k)

/-- The feature an entry names. -/
def Sqe.feature (e : Sqe) : Nat := e.pfield 0 0 8

/-- A SET_FEATURE of a feature whose value is not a device setting. A volume's or pool's value is logged with its
descriptor (R502, R763). -/
def State.setFeature (s : State) (acc id : Nat) (f : Cmd → State) : State :=
  s.start acc 0x83 (fun e => e.feature = id && featureValuesOk id e.values) f

/-- A SET_FEATURE of a device setting: its new value, and what follows from it (R618, R763). -/
def setDevice (acc id : Nat) (s : State) (put : List Nat → Settings) (after : State → State) :
    Host.Outcome State Fault Refusal :=
  match s.startable acc 0x83 (fun e => e.feature = id && featureValuesOk id e.values) with
  | none => .next s
  | some c =>
    let x := put c.sqe.values
    actSet s x (((after { s with settings := x }).finish acc St.success).run)

/-- Change the volume an entry names. -/
def State.setVolume (s : State) (c : Cmd) (f : Volume → Volume) : State :=
  ({ s with volumes := s.volumes.upd (c.sqe.param 1) f }.noteVolume (c.sqe.param 1)).finishLogged c.acc St.success

/-- Change the pool an entry names. -/
def State.setPool (s : State) (c : Cmd) (f : Pool → Pool) : State :=
  ({ s with pools := s.pools.upd (c.sqe.param 1) f }.noteChange 2 (c.sqe.param 1)).finishLogged c.acc St.success

/-- The function that a function-scope feature names: of the issuing function's endpoint (R596, R618). -/
def Cmd.target (c : Cmd) : FnId := ⟨c.fn.ep, c.sqe.param 1⟩

/-! ### The rows of SET_FEATURE -/

/-- SET_FEATURE_ACK_MODE: commands accepted from now on take the mode (R156). -/
def execSetFeatureAckMode (acc : Nat) (s : State) : Host.Outcome State Fault Refusal :=
  act s (s.setFeature acc 0x01 fun c => s.setVolume c fun v =>
    { v with ackMode := (AckMode.ofCode (c.sqe.value 0)).getD v.ackMode }).run

/-- SET_FEATURE_AGE_LIMIT (R181). -/
def execSetFeatureAgeLimit (acc : Nat) (s : State) : Host.Outcome State Fault Refusal :=
  act s (s.setFeature acc 0x02 fun c => s.setVolume c fun v => { v with ageLimit := c.sqe.value 0 }).run

/-- SET_FEATURE_LOSS_ACK (R97, R627). -/
def execSetFeatureLossAck (acc : Nat) (s : State) : Host.Outcome State Fault Refusal :=
  act s (s.setFeature acc 0x03 fun c =>
    let id := c.sqe.param 1
    match s.volumes.look id with
    | none => s.finish acc St.invalidField
    | some v =>
      if v.lossSeq.toNat ≠ c.sqe.value 0 then s.finish acc St.lossSeqStale
      else
        let s := s.volEvent Ev.lossAck id id v.lossSeq.toNat v.loss.length
        let s := { s with volumes := s.volumes.put id { v with cacheLost := false, loss := [], lossOverflow := false, lostBlocks := [] } }
        (s.noteVolume id).finishLogged acc St.success).run

/-- SET_FEATURE_DIRTY_LIMIT, capped where the reserve allows less (R164, R401). -/
def execSetFeatureDirtyLimit (acc : Nat) (s : State) : Host.Outcome State Fault Refusal :=
  setDevice acc 0x04 s (fun v => { s.settings with lCfg := cappedLimit (v.getD 0 0) s.vault.blocks }) State.limitApplied

/-- SET_FEATURE_HEDGE (R244). -/
def execSetFeatureHedge (acc : Nat) (s : State) : Host.Outcome State Fault Refusal :=
  act s (s.setFeature acc 0x05 fun c => s.setPool c fun x =>
    { x with hedgeMode := c.sqe.value 0, hedgeFixed := if c.sqe.value 0 = 1 then c.sqe.value 1 else x.hedgeFixed }).run

/-- SET_FEATURE_HARD_TIMEOUT (R286). -/
def execSetFeatureHardTimeout (acc : Nat) (s : State) : Host.Outcome State Fault Refusal :=
  act s (s.setFeature acc 0x06 fun c => s.setPool c fun x => { x with hardTimeout := c.sqe.value 0 }).run

/-- SET_FEATURE_MEDIA_THRESHOLD (R293). -/
def execSetFeatureMediaThreshold (acc : Nat) (s : State) : Host.Outcome State Fault Refusal :=
  act s (s.setFeature acc 0x07 fun c => s.setPool c fun x => { x with mediaThreshold := c.sqe.value 0 }).run

/-- SET_FEATURE_SCRUB_PERIOD (R347). -/
def execSetFeatureScrubPeriod (acc : Nat) (s : State) : Host.Outcome State Fault Refusal :=
  act s (s.setFeature acc 0x08 fun c => s.setPool c fun x => { x with scrubDays := c.sqe.value 0 }).run

/-- SET_FEATURE_PATROL_PERIOD (R417). -/
def execSetFeaturePatrolPeriod (acc : Nat) (s : State) : Host.Outcome State Fault Refusal :=
  setDevice acc 0x09 s (fun v => { s.settings with patrolHours := v.getD 0 0 }) id

/-- SET_FEATURE_REFRESH_THRESHOLD (R418). -/
def execSetFeatureRefreshThreshold (acc : Nat) (s : State) : Host.Outcome State Fault Refusal :=
  setDevice acc 0x0A s (fun v => { s.settings with refreshBits := v.getD 0 0 }) id

/-- SET_FEATURE_TAG_BUDGET: applies to new reads at once (R542). -/
def execSetFeatureTagBudget (acc : Nat) (s : State) : Host.Outcome State Fault Refusal :=
  act s (s.setFeature acc 0x0B fun c =>
    let e := c.sqe.param 1
    (s.setEp e { s.ep e with tagBudget := c.sqe.value 0, entryTags := c.sqe.value 1 }).pump.finish acc St.success).run

/-- SET_FEATURE_CLASS_WEIGHTS (R595). -/
def execSetFeatureClassWeights (acc : Nat) (s : State) : Host.Outcome State Fault Refusal :=
  setDevice acc 0x0C s (fun v => { s.settings with
    high := field (v.getD 0 0) 0 8, medium := field (v.getD 0 0) 8 8, low := field (v.getD 0 0) 16 8 }) id

/-- SET_FEATURE_MAX_CLASS (R570). -/
def execSetFeatureMaxClass (acc : Nat) (s : State) : Host.Outcome State Fault Refusal :=
  act s (s.setFeature acc 0x0D fun c =>
    (s.setFn c.target { s.fn c.target with maxClass := some (c.sqe.value 0) }).finish acc St.success).run

/-- SET_FEATURE_RATE_LIMIT: both buckets start full (R596). -/
def execSetFeatureRateLimit (acc : Nat) (s : State) : Host.Outcome State Fault Refusal :=
  act s (s.setFeature acc 0x0E fun c =>
    (s.setFn c.target { s.fn c.target with
      iopsLimit := c.sqe.value 0, iopsBurst := c.sqe.value 1, bwLimit := c.sqe.value 2, bwBurst := c.sqe.value 3,
      cmdTokens := c.sqe.value 1 * 1000000, byteTokens := c.sqe.value 3 * 1024, tokensAt := s.now }).finish acc St.success).run

/-- SET_FEATURE_STALL_TIMEOUT (R601). -/
def execSetFeatureStallTimeout (acc : Nat) (s : State) : Host.Outcome State Fault Refusal :=
  setDevice acc 0x0F s (fun v => { s.settings with stallTimeout := v.getD 0 0 }) id

/-- SET_FEATURE_EXPORT_WAIT (R518). -/
def execSetFeatureExportWait (acc : Nat) (s : State) : Host.Outcome State Fault Refusal :=
  setDevice acc 0x10 s (fun v => { s.settings with exportWait := v.getD 0 0 }) id

/-- SET_FEATURE_TIME_BASE: the form of records whose events happen afterwards (R679). -/
def execSetFeatureTimeBase (acc : Nat) (s : State) : Host.Outcome State Fault Refusal :=
  setDevice acc 0x11 s (fun v => { s.settings with calendarBase := v.getD 0 0 = 1 }) fun t =>
    if t.settings.calendarBase = s.settings.calendarBase then t
    else
      -- the change itself happens before the command completes, so its record still has the old form
      { ({ t with settings := s.settings } : State).event Ev.timeBase 0 (b2n t.settings.calendarBase) 0 0 with settings := t.settings }

/-! ### GET_FEATURE (R619) -/

/-- The highest class a function may create: its default where it was never set (R570). -/
def State.maxClassOf (s : State) (f : FnId) : Nat := (s.fn f).maxClass.getD (if f.num = 0 then 0 else 1)

/-- VALUE0 to VALUE3 of a feature (R619). -/
def State.featureValues (s : State) (ep id obj : Nat) : List Nat :=
  let v : Volume := s.volumes.read obj { vault := false, capacity := 0 }
  let x : Pool := s.pools.read obj { chunkCode := 0, spare := 0, seed := 0, rows := 0 }
  let f := s.fn ⟨ep, obj⟩
  match id with
  | 0x01 => [v.ackMode.code]
  | 0x02 => [v.ageLimit]
  | 0x03 => [v.lossSeq.toNat]
  | 0x04 => [s.settings.lCfg]
  | 0x05 => [x.hedgeMode, if x.hedgeMode = 1 then x.hedgeFixed else 0]
  | 0x06 => [x.hardTimeout]
  | 0x07 => [x.mediaThreshold]
  | 0x08 => [x.scrubDays]
  | 0x09 => [s.settings.patrolHours]
  | 0x0A => [s.settings.refreshBits]
  | 0x0B => [(s.ep obj).tagBudget, (s.ep obj).entryTags]
  | 0x0C => [s.settings.high + s.settings.medium * 2 ^ 8 + s.settings.low * 2 ^ 16]
  | 0x0D => [s.maxClassOf ⟨ep, obj⟩]
  | 0x0E => [f.iopsLimit, f.iopsBurst, f.bwLimit, f.bwBurst]
  | 0x0F => [s.settings.stallTimeout]
  | 0x10 => [s.settings.exportWait]
  | 0x11 => [b2n s.settings.calendarBase]
  | _ => []

/-- GET_FEATURE: the values in 16 bytes, and VALUE0 in RESULT (R613, R619). -/
def execGetFeature (acc : Nat) (s : State) : Host.Outcome State Fault Refusal :=
  act s (s.start acc 0x84 anyForm fun c =>
    let l := s.featureValues c.fn.ep c.sqe.feature (c.sqe.param 1)
    s.reply c (bytesAt (l.flatMap (toLe 4)) 0 16) (w32 (l.getD 0 0))).run

/-! ### RING_CREATE (R566 to R570) -/

/-- Base address of a RING_CREATE. -/
def Sqe.base (e : Sqe) : Nat := e.param 1 + e.param 2 * 2 ^ 32

/-- A value where the field is not zero, else the default the field's zero stands for. -/
def orDefault (v d : Nat) : Nat := if v = 0 then d else v

/-- RING_CREATE_SUBMISSION (R569, R570). -/
def execRingCreateSubmission (acc : Nat) (s : State) : Host.Outcome State Fault Refusal :=
  act s (s.start acc 0x81 (fun e => !e.pbit 0 12) fun c =>
    let e := c.sqe
    let k := ringKey c.fn (e.pfield 0 0 12)
    let bad := firstFail [(s.sqs.has k, St.ringExists), (!s.hasContext k && s.contexts ≥ 4096, St.noRingContext),
                          (e.pfield 0 13 2 < s.maxClassOf c.fn, St.classNotPermitted)]
    let q : Sq :=
      { fn := c.fn, ring := e.pfield 0 0 12, base := e.base, depth := e.pfield 3 0 17, cq := e.pfield 4 0 12,
        cls := e.pfield 0 13 2, burst := orDefault (e.pfield 4 16 8) 8,
        shadow := if e.pfield 5 0 16 = 0 then none else some (e.w08, e.pfield 5 0 16), polledAt := s.now }
    s.check c bad (({ s with sqs := s.sqs.put k q } : State).finish acc St.success)).run

/-- RING_CREATE_COMPLETION (R569, R570). -/
def execRingCreateCompletion (acc : Nat) (s : State) : Host.Outcome State Fault Refusal :=
  act s (s.start acc 0x81 (fun e => e.pbit 0 12) fun c =>
    let e := c.sqe
    let k := ringKey c.fn (e.pfield 0 0 12)
    let bad := firstFail [(s.cqs.has k, St.ringExists), (!s.hasContext k && s.contexts ≥ 4096, St.noRingContext)]
    let q : Cq :=
      { fn := c.fn, ring := e.pfield 0 0 12, base := e.base, depth := e.pfield 3 0 17, vector := e.pfield 4 0 11,
        ien := e.pbit 0 15, coalCount := orDefault (e.pfield 4 16 8) 1, coalTime := e.pfield 5 0 10 }
    s.check c bad (({ s with cqs := s.cqs.put k q } : State).finish acc St.success)).run

end Sys2Proof.Machine
end

