-- ==== Sys2Proof/Machine/Gauge.lean ====
section
/-! DEFINITION. The power die's own operations: charge counting and anchors, available energy, the warning levels, the
learning run, the gauge store, ship mode, and the lifetime samples (R429 to R460). -/

namespace Sys2Proof.Machine

open Sys2Proof

/-! ### Units and the declaration (R435, R438) -/

/-- Units of Q in a mC: one 250 µs sample of 1 mA is one unit (R439). -/
def qUnit : Nat := 4000

/-- The default OCV_TABLE (R438). -/
def defaultOcv : List Nat :=
  [3000, 3300, 3450, 3530, 3580, 3620, 3650, 3670, 3690, 3710, 3740, 3770, 3810, 3850, 3890, 3940, 3990, 4040, 4090, 4140,
   4200]

/-- n, V_0 and V_cv of the declaration; 3 cells and 3,000 mV where none has been applied (R431, R435). -/
def Pack.cells (p : Pack) : Nat := match p.decl with | some d => d.cells | none => 3

def Pack.v0 (p : Pack) : Nat := match p.decl with | some d => d.ocv.getD 0 3000 | none => 3000

def Pack.vcv (p : Pack) : Nat := match p.decl with | some d => d.ocv.getD 20 4200 | none => 4200

/-- C_nominal in mC: 3,600 mC to the mAh; 0 where none is declared (R455, R460). -/
def Pack.nominal (p : Pack) : Nat := match p.decl with | some d => d.nominalMah * 3600 | none => 0

/-- Linear interpolation between table entries from entry `i` on, as a fraction of the full charge: (numerator,
denominator), for a pack of n cells at `mv`. -/
def socIn (n mv : Nat) : Nat → List Nat → Nat × Nat
  | i, a :: b :: t =>
    if mv < n * b then (5 * (i * (n * (b - a)) + (mv - n * a)), 100 * (n * (b - a))) else socIn n mv (i + 1) (b :: t)
  | _, _ => (1, 1)

/-- SOC_ocv of a pack voltage as a fraction, clamped to 0 to 100 % (R438). -/
def Pack.socOcv (p : Pack) (mv : Nat) : Nat × Nat :=
  let t := match p.decl with | some d => d.ocv | none => defaultOcv
  if mv < p.cells * t.getD 0 0 then (0, 1) else socIn p.cells mv 0 t

/-- VIN_MAIN counts as absent while it was last seen below the power-fail level of R462 (DESIGN CHOICE). -/
def Pack.vinAbsent (p : Pack) : Bool := p.vinMv < 10500

/-- Power-die seconds (R434). -/
def State.dieNow (s : State) : Nat := s.pack.dieSeconds + (if s.pack.running then (s.now - s.pack.dieAt) / 1000000 else 0)

/-- Q in whole mC. -/
def Pack.qMc (p : Pack) : Int := match p.q with | some q => q / qUnit | none => 0

/-- A condition that must hold without a break: since when it has, at a reading taken `now`. -/
def runFrom (since : Option Nat) (now : Nat) (holds : Bool) : Option Nat := if holds then some (since.getD now) else none

/-- VIN_MAIN takes a value: the 10.7 V and 10.8 V levels of the hold-up converter, how long it has been at or above 10.8 V and in its
operating range, and whether it has fallen below 10.5 V (R430, R431, R436, R452, R469). -/
def Pack.setVin (p : Pack) (mv now : Nat) : Pack :=
  { p with vinMv := mv, lowVin := if mv < 10700 then true else if mv ≥ 10800 then false else p.lowVin,
           vinGoodSince := runFrom p.vinGoodSince now (10800 ≤ mv),
           vinRangeSince := runFrom p.vinRangeSince now (10800 ≤ mv && mv ≤ 13200), vinFell := p.vinFell || mv < 10500 }

/-- VBUS_HOLD in mV: VIN_MAIN or the converter, whichever holds it higher, or VIN_MAIN's level while the converter of a learning discharge
holds its 110 W (R429, R432). -/
def Pack.vbus (p : Pack) : Nat :=
  let vin := if p.inputSwitch then p.vinMv else 0
  if p.limited && p.st = .learnDischarge && !p.overVolt then vin else max vin p.converter

/-- I_term in mA (R436). -/
def Pack.iTerm (p : Pack) : Nat := max 50 ((match p.decl with | some d => d.nominalMah | none => 0) / 20)

/-- What a reading of the current tells: 10 mA or more breaks the rest, so that no rest point is taken until 45 minutes after it, and in CV
the 60 s below I_term run (R436, R441). -/
def Pack.flows (p : Pack) (ma : Int) (now : Nat) : Pack :=
  let p := { p with termSince := runFrom p.termSince now (p.st = .cv && ma < p.iTerm) }
  if ma.natAbs ≥ 10 then { p with restTaken := false, movedAt := now } else p

/-- 10 minutes in µs. -/
def restWindow : Nat := 600000000

/-- Readings with one more, from which those go that an earlier one shows to be older than 10 minutes (R441). -/
def withVolt (l : List (Nat × Nat)) (now mv : Nat) : List (Nat × Nat) :=
  let l := if (l.head?.map (·.2)) = some mv then l else (now, mv) :: l
  let (young, old) := l.partition fun e => now < e.1 + restWindow
  young ++ old.take 1

/-- What a reading of PACK_P tells (R431, R441). -/
def Pack.volt (p : Pack) (mv now : Nat) : Pack :=
  { p with reading := { p.reading with mv := mv }, lowSince := runFrom p.lowSince now (mv < p.cells * 2700),
           highSince := runFrom p.highSince now (p.cells * p.v0 ≤ mv), volts := withVolt p.volts now mv }

/-- What a reading of the pack pins tells (R431, R436, R441); the thermistor is read only while the FETs are closed (R748). -/
def Pack.reads (p : Pack) (r : PackReading) (now : Nat) : Pack :=
  { ((p.volt r.mv now).flows r.ma now) with
    reading := { r with temp := if p.fetClosed then r.temp else p.reading.temp },
    coolSince := runFrom p.coolSince now (p.fetClosed && 24 ≤ r.temp && r.temp ≤ 336) }

/-- Has a condition held for a time? -/
def heldFor (since : Option Nat) (now time : Nat) : Bool := match since with | some t => t + time ≤ now | none => false

/-- The cell voltage of all readings of the last 10 minutes lies less than 1 mV from the present one, and there are readings so old
(R441, DEDUCED 52). -/
def Pack.steady (p : Pack) (now : Nat) : Bool :=
  p.volts.any (fun e => e.1 + restWindow ≤ now)
    && p.volts.all fun e => e.2 < p.reading.mv + p.cells && p.reading.mv < e.2 + p.cells

def State.updPack (s : State) (f : Pack → Pack) : State := { s with pack := f s.pack }

/-! ### Events and causes (R443, R460, R461) -/

/-- An event of the power die: kept by it, with its time, while the logic die cannot record, and handed over at the next start-up (R461,
R676). -/
def State.dieEvent (s : State) (code p1 p2 p3 : Nat) : State :=
  if s.life.inReset || s.lehrOn then
    let t := s.stamp
    s.updPack fun p => { p with heldEvents := p.heldEvents ++ [⟨code, ⟨none, 0⟩, w32 p1, w32 p2, w32 p3, t.1, t.2.1, t.2.2⟩] }
  else s.event code 0 p1 p2 p3

/-- A bit of the crossing register becomes set, with the pack cause where it is new (R460, R723). -/
def State.cross (s : State) (bit : Nat) : State :=
  if s.life.inReset || s.pack.crossing.getLsbD bit then s
  else (s.updPack fun p => { p with crossing := p.crossing ||| (1#9 <<< bit) }).raisePfs .pack

/-- PACK_CROSSED of each PF is set at each crossing of W1 to W3 (R718). -/
def State.packCrossed (s : State) : State :=
  s.over s.pfs fun s f => if s.hostOn then s.setFn f { s.fn f with packCrossed := true } else s

/-- E_avail in whole joules as events state it. -/
def State.dieJ (s : State) : Nat := s.pack.eAvailMj / 1000

/-- EV_PACK_WARNING of a level, with its crossing bit, PACK_CROSSED, the pack cause and the alert (R443, R712). -/
def State.warn (s : State) (level : Nat) (asserted : Bool) : State :=
  let s := (s.dieEvent Ev.packWarning level (b2n asserted) s.dieJ).cross (level - 1)
  let s := if level ≤ 3 then s.packCrossed else s
  if s.life.inReset || s.lehrOn then s else s.alert .packWarning

/-! ### The gauge store (R455, R456) -/

/-- The vault's gauge mirror takes a copy of each store write, in the journal stream; writes made while the vault cannot be reached
follow at the next mount (R397, R458). -/
def State.mirrorGauge (s : State) : State :=
  if s.life.inReset || s.lehrOn || !s.vault.mounted then s
  else
    let due := s.pack.mirrorDue
    let s := s.updPack fun p => { p with mirrorDue := [] }
    s.over due fun s e => s.vprogram .journalStream [(.gauge e.1, 0, e.2)] []

/-- Write the store to the bank not written last. -/
def State.storeGauge (s : State) : State :=
  let p := s.pack
  let newer := if newerGen p.bankA.seq p.bankB.seq then p.bankA.seq else p.bankB.seq
  let b : GaugeBank :=
    { valid := true, seq := newer + 1, cLearned := p.cLearned, cNominal := p.nominal, q := p.qMc, fullTime := p.fullTime,
      emptyTime := p.emptyTime, learnTime := p.learnTime, dieSeconds := s.dieNow, cells4 := p.cells = 4,
      capUnverified := p.capUnverified, learnPending := p.learnPending, learnOverdue := p.learnOverdue,
      learnCount := p.learnCount, rejectCount := p.rejectCount, throughput := p.throughput / (1000 * qUnit) }
  let die := s.dieNow
  let bank := b2n (!p.lastBankB)
  (s.updPack fun p =>
    let p := { p with mirrorDue := p.mirrorDue ++ [(bank, trim b.bytes)] }
    if p.lastBankB then { p with bankA := b, lastBankB := false, storeAt := die, storing := some s.now }
    else { p with bankB := b, lastBankB := true, storeAt := die, storing := some s.now }).mirrorGauge

/-- Change the flags that R456 stores at each change. -/
def State.setFlags (s : State) (f : Pack → Pack) : State :=
  let old := s.pack
  let s := s.updPack f
  if s.pack.capUnverified = old.capUnverified && s.pack.learnPending = old.learnPending
      && s.pack.learnOverdue = old.learnOverdue then s else s.storeGauge

/-! ### Converter and states (R431, R432, R435, R436) -/

/-- The set-point at which the converter is wanted, 0 for off: 10.7 V with VIN_MAIN below 10.7 V or counting as absent, 13.5 V in a
learning discharge (R430 to R432). In NOT_DECLARED it works only in an unsealed pass (R435). -/
def Pack.wantsConverter (p : Pack) (pass : Bool) : Nat :=
  if !(p.running && (p.st ≠ .notDeclared || pass) && p.fetClosed && !p.uvlo) then 0
  else if p.overVolt then 10700 else if p.st = .learnDischarge then 13500 else if p.lowVin then 10700 else 0

/-- The charger's limits in mA and mV: a tenth of I_chg in PRECHARGE, I_chg in CC and CV, up to n × V_cv; off otherwise, and off while
VIN_MAIN is too low or too high (R430, R435, R436). -/
def Pack.wantsCharger (p : Pack) : Nat × Nat :=
  match p.decl with
  | some d =>
    if !p.running || p.overVolt || p.lowVin then (0, 0)
    else match p.st with
      | .precharge => (d.chargeMa / 10, p.cells * p.vcv)
      | .cc | .cv => (d.chargeMa, p.cells * p.vcv)
      | _ => (0, 0)
  | none => (0, 0)

/-- The converter's output never exceeds 110 W (R431). -/
def converterMw : Nat := 110000

/-- Bring the converter to a set-point, with its limit of 110 W; a lehr pass that it carries draws on the pack (R431, R475). -/
def State.setConverter (s : State) (mv : Nat) : State :=
  if s.pack.converter = mv then s
  else
    let s := (s.updPack fun p => { p with converter := mv }).emit (.converter mv (if mv = 0 then 0 else converterMw))
    match s.life.lehr with
    | some l => if mv = 0 then s else { s with life := { s.life with lehr := some { l with onPack := true } } }
    | none => s

def State.setCharger (s : State) (x : Nat × Nat) : State :=
  if s.pack.charger = x then s else (s.updPack fun p => { p with charger := x }).emit (.charger x.1 x.2)

/-- A pass runs that has not sealed (R435). -/
def State.passOpen (s : State) : Bool := match s.life.lehr with | some l => !l.sealed_ | none => false

/-- Converter and charger follow what is wanted; once the rails have fallen the converter waits for them to rise (R469). -/
def State.converterCheck (s : State) : State :=
  (s.setConverter (if s.life.railsUp then s.pack.wantsConverter s.passOpen else 0)).setCharger s.pack.wantsCharger

/-- The pack takes a state. -/
def State.packTo (s : State) (st : PackSt) : State :=
  (s.updPack fun p => { p with st := st, stateAt := s.now, termSince := none }).converterCheck

/-- Ship mode ends in IDENTIFY; where PACK_PRES_N has been deasserted meanwhile, which leaves SHIP_ARMED and SHIP as they are, the row for a pack that
is gone takes it on to ABSENT (R436; DEDUCED 26). -/
def State.toIdentify (s : State) : State := s.packTo (if s.pack.present then .identify else .absent)

/-- Does a presence return take the state to IDENTIFY: from ABSENT, from MISMATCH, and from a hold for over-voltage or the timer (R436)? -/
def Pack.returns (p : Pack) : Bool :=
  p.st = .absent || p.st = .mismatch || (p.st = .chargeHold && (p.holdCause = some .overVolt || p.holdCause = some .timer))

/-- Enter CC from outside a charge: the 10 h count starts (R436). -/
def State.toCharge (s : State) (st : PackSt) : State :=
  (s.updPack fun p => { p with chargeStart := s.now, holdCause := none }).packTo st

/-- W3's row of R443: what asserts and what deasserts it. -/
def Pack.w3Bad (p : Pack) : Bool :=
  p.uvlo || !p.fetClosed || !p.present || (match p.q with | some q => q ≤ 0 | none => false)

def Pack.w3Good (p : Pack) : Bool :=
  !p.uvlo && p.fetClosed && p.present && (match p.q with | some q => 20 * q ≥ p.cLearned * qUnit | none => false)

/-- Evaluate W3 (R443). -/
def State.checkW3 (s : State) : State :=
  if !s.pack.w3 && s.pack.w3Bad then (s.updPack fun p => { p with w3 := true }).warn 3 true
  else if s.pack.w3 && s.pack.w3Good then (s.updPack fun p => { p with w3 := false }).warn 3 false
  else s

/-! ### The learning run (R444 to R447) -/

/-- A learning run ends with a result: LEARN_PENDING is cleared, LEARN_DONE set, EV_PACK_LEARN recorded (R445). -/
def State.learnEnds (s : State) (result cMeas : Nat) : State :=
  let s := s.updPack fun p => { p with rejectCount := if result ≥ 2 then min 65535 (p.rejectCount + 1) else p.rejectCount }
  ((s.setFlags fun p => { p with learnPending := false }).dieEvent Ev.packLearn result cMeas s.pack.cLearned).cross 7

/-- A run is pending or running. -/
def Pack.learning (p : Pack) : Bool := p.learnPending || p.st = .learnDischarge || p.st = .learnRest

/-- Abort a running run: result 3 (R446). The caller gives the next state. -/
def State.learnAbort (s : State) : State :=
  if s.pack.st = .learnDischarge || s.pack.st = .learnRest then s.learnEnds 3 0 else s

/-- A reading of VIN_MAIN: the converter follows it, and below 10.7 V a pack in states 2 to 9 goes to HOLDUP with its learning run aborted
(R431, R436). -/
def State.vinReads (s : State) (mv : Nat) : State :=
  let s := s.updPack fun p => p.setVin mv s.now
  if mv < 10700 && 2 ≤ s.pack.st.code && s.pack.st.code ≤ 9 then s.learnAbort.packTo .holdup else s.converterCheck

/-- A run starts at its rest point a (R445). -/
def State.learnStart (s : State) : State := s.packTo .learnDischarge

/-- The charge counted since the kept rest point, in units of Q (R444). -/
def Pack.sinceRest (p : Pack) : Int := match p.rest with | some a => p.counted - a.count | none => 0

/-- A rest point has been taken in the present FULL state, and is kept (R445). -/
def Pack.restInFull (p : Pack) (sinceDie : Nat) : Bool :=
  p.st = .full && (match p.rest with | some r => r.at_ ≥ sinceDie | none => false)

/-- Power-die seconds at which the present state began. -/
def State.stateDie (s : State) : Nat := s.dieNow - (s.now - s.pack.stateAt) / 1000000

/-! ### Available energy and W1, W2 (R442, R443) -/

/-- k_T in percent: temperature in 0.125 °C. -/
def kT (temp : Int) : Nat := if temp < 0 || temp > 800 then 60 else if temp < 120 then 85 else 100

/-- The states, and the invalid Q, in which E_avail is sent as zero (R165, R442). -/
def Pack.unusable (p : Pack) : Bool :=
  p.q.isNone || [PackSt.notDeclared, .absent, .shipArmed, .ship, .mismatch].contains p.st

/-- E_avail in mJ (R442). -/
def Pack.energy (p : Pack) : Nat :=
  match p.q with
  | none => 0
  | some q =>
    if !p.valid || p.unusable then 0
    else
      let left := (100 * q - 3 * (p.cLearned * qUnit : Nat)).toNat
      kT p.reading.temp * p.cells * p.v0 * left / (100 * 100 * 1000 * qUnit)

/-- Evaluate E_avail and the warning levels (R442, R443). -/
def State.evaluate (s : State) : State :=
  let s := s.updPack fun p => { p with eAvailMj := p.energy }
  let e := s.pack.eAvailMj
  let d := dumpEnergy (s.settings.lCfg * 2 ^ 20)
  -- e mJ against k × E_dump, with E_dump in units of 1/360,000 mJ
  let below (k100 : Nat) : Bool := e * 360000 * 10000 < k100 * d
  let s := if !s.pack.w1 && below 30000 then (s.updPack fun p => { p with w1 := true }).warn 1 true
    else if s.pack.w1 && !below 31500 then (s.updPack fun p => { p with w1 := false }).warn 1 false else s
  let s := if !s.pack.w2 && below 12500 then (s.updPack fun p => { p with w2 := true }).warn 2 true
    else if s.pack.w2 && !below 13125 then (s.updPack fun p => { p with w2 := false }).warn 2 false else s
  s.checkW3

/-! ### Breaks, anchors, episodes (R439, R440, R459) -/

/-- Counting breaks: Q is invalid and the kept rest point is dropped (R439, R441). -/
def State.countBreak (s : State) : State :=
  s.updPack fun p => { p with q := none, counting := false, rest := none }

/-- A value counted in a lifetime series: in the recorder, or held in the power die (R459, R693). -/
def State.countLife (s : State) (series : Nat) (v : Int) (bin inst : Nat) : State :=
  let k := series * 32 + bin
  if s.life.inReset || s.lehrOn || !s.recorder.up then
    s.updPack fun p =>
      { p with heldSamples := p.heldSamples.put k (min (2 ^ 32) (p.heldSamples.read k 0 + 1)),
               heldExtremes := p.heldExtremes.put series
                 ((Extreme.sample v inst (s.stamp.1, s.stamp.2.1)).over (p.heldExtremes.look series)) }
  else
    let r := s.recorder
    ({ s with recorder := { r with lifetime := r.lifetime.put k (r.lifetime.read k 0 + 1) } }).extreme series v inst

/-- The bin of a value: from `low` in steps of `width`, out-of-range values in the end bins. -/
def binOf (v low width : Int) : Nat := (min 31 (max 0 ((v - low) / width))).toNat

/-- The bits corrected in reads of sectors of a die are counted, in the health log and in series 31 (R427, R693). -/
def State.countBits (s : State) (d : Nat) (l : List (Option Nat)) : State :=
  s.over l fun s e => match e with
    | some n => { s with vault := { s.vault with correctedBits := s.vault.correctedBits + n } }.countLife 31 n (binOf n 0 3) d
    | none => s

/-- Sectors have been read at start-up: the bits corrected in them count as those of any read (R389, R427). -/
def State.countSegments (s : State) (l : List VLogical) (after : Nat) : State :=
  s.over (l.filterMap fun w => s.vault.segmentAt w after) fun s e => s.countBits (vdie (vblockOf e.1)) [e.2.corrected]

/-- The sectors at some addresses have been read: the bits corrected in them count as those of any read (R389, R427). -/
def State.countAt (s : State) (l : List Nat) : State :=
  s.over (l.filterMap fun a => (s.vault.sectors.look a).map fun x => (a, x)) fun s e =>
    s.countBits (vdie (vblockOf e.1)) [e.2.corrected]

/-- An episode of discharge ends (R459): its depth is counted, in parts per thousand. -/
def State.episodeEnds (s : State) : State :=
  match s.pack.episode with
  | none => s
  | some d =>
    let c : Int := s.pack.cLearned * qUnit
    let depth := if c = 0 then 1000 else 1000 * d / c
    let s := s.updPack fun p => { p with episode := none }
    s.countLife 29 depth (if c = 0 then 31 else binOf (32 * d) 0 c) 0

/-- An anchor sets Q (R440). -/
def State.anchor (s : State) (empty : Bool) (mc : Nat) : State :=
  let before_ := s.pack.qMc
  let die := s.dieNow
  let s := s.episodeEnds.updPack fun p =>
    { p with q := some (mc * qUnit), provisional := false,
             fullTime := if empty then p.fullTime else some die, emptyTime := if empty then some die else p.emptyTime }
  ((s.dieEvent Ev.packAnchor (b2n empty) (signedField 32 before_) mc)).storeGauge

/-! ### The declaration and PACK_REPLACED (R435, R454) -/

/-- The learned values start again (R435, R454): C_learned is C_nominal and a learning run is asked for. -/
def State.resetLearned (s : State) : State :=
  let s := if s.pack.st = .learnDischarge || s.pack.st = .learnRest then s.learnAbort.toCharge .cc else s
  let die := s.dieNow
  (s.updPack fun p => { p with
    cLearned := p.nominal, rest := none, capUnverified := false, learnOverdue := false, learnPending := true,
    learnTime := die, overdueAt := die, valid := true }).storeGauge

/-- DEVICE_START applies a pack declaration: a change resets the learned values as PACK_REPLACED does, the first one too (R435, R436,
R454). The same declaration again changes nothing. -/
def State.declare (s : State) (d : PackDecl) : State :=
  if s.pack.decl = some d then s
  else
    let s := (s.updPack fun p => { p with decl := some d }).resetLearned
    match s.pack.st with
    | .notDeclared =>
      if s.pack.present then (s.updPack fun p => { p with counting := true }).packTo .identify else s.packTo .absent
    | .mismatch => s.packTo .identify
    | _ => s.converterCheck

/-! ### Ship mode (R451) -/

/-- The FETs open in SHIP_ARMED (R451). -/
def State.shipOpen (s : State) : State :=
  let s := (s.storeGauge.countBreak.updPack fun p => { p with storing := none, fetClosed := false, vinFell := false, shipCancelled := false }).emit (.fets false)
  ((s.packTo .ship).dieEvent Ev.packShip 1 0 0).checkW3

/-- A brown-out may interrupt a store write of this instant: whether it does, no rule says, and then the bank written last is damaged and
the other stays (R456, DESIGN CHOICE 52). -/
def Pack.brownOut (p : Pack) (now : Nat) : Pack :=
  if p.storing ≠ some now || Config.openValue 0x456 now % 2 = 0 then p
  else if p.lastBankB then { p with bankB := { p.bankB with valid := false } }
  else { p with bankA := { p.bankA with valid := false } }

/-- The power die loses its power where neither VIN_MAIN nor the pack can feed it (R740). Its seconds resume from the store (R455,
DEDUCED 52). -/
def State.dieCheck (s : State) : State :=
  if s.pack.running && !s.life.railsUp && s.pack.vinAbsent && !(s.pack.present && s.pack.fetClosed) then
    s.countBreak.updPack fun p =>
      { p.brownOut s.now with
        running := false, converter := 0, charger := (0, 0), heldSamples := [], heldExtremes := [], heldEvents := [], episode := none,
        volts := [], lowSince := none, highSince := none, coolSince := none }
  else s

end Sys2Proof.Machine
end

