-- ==== Sys2Proof/Machine/Lehr.lean ====
section
/-! DEFINITION. The lehr pass: what starts it, what it stops and keeps, its dump, how it ends, and the ways into FAILED and
FENCED (R462 to R479, R511, R512). -/

namespace Sys2Proof.Machine

open Sys2Proof

/-- The whole logic die works: out of reset, and no lehr pass. -/
def State.live (s : State) : Bool := !s.life.inReset && !s.lehrOn

/-- The module serves an array: STATE is READY, STOPPING or STOPPED. -/
def State.serving (s : State) : Bool := s.live && (s.life.st = .ready || s.life.st = .stopping || s.life.st = .stopped)

/-! ### The host side in reset (R477, R720, R763) -/

/-- A function after a reset: features set by SET_FEATURE and the event floor stay (R688, R763). -/
def Fn.cleared (x : Fn) : Fn :=
  { maxClass := x.maxClass, iopsLimit := x.iopsLimit, iopsBurst := x.iopsBurst, bwLimit := x.bwLimit, bwBurst := x.bwBurst,
    cmdTokens := x.cmdTokens, byteTokens := x.byteTokens, tokensAt := x.tokensAt, floor := x.floor }

/-- An endpoint after a reset: its tag budget stays (R763). -/
def Endpoint.cleared (x : Endpoint) : Endpoint := { tagBudget := x.tagBudget, entryTags := x.entryTags }

/-- Every host-side register at its reset value, with no ring and no command left. -/
def State.hostCleared (s : State) : State :=
  { s with eps := s.eps.each fun _ x => x.cleared, fns := s.fns.each fun _ x => x.cleared, sqs := [], cqs := [], cmds := [] }

/-- EVENT_CLEAR from a PF, or of the sideband: the records go, EV_RECORDER_CLEARED is the first, and every VF's floor is its SEQUENCE
(R674, R687, R696). -/
def State.clearRecords (s : State) (pf : Option FnId) : State :=
  let n := s.recorder.fullDiscards
  let q := s.recorder.next
  let t := s.stamp
  let s := { s with recorder := { s.recorder with records := [], pending := 0, parts := [], full := false, fullDiscards := 0 } }
  let s := s.storeRecord ⟨Ev.recorderCleared, ⟨pf, 0⟩, w32 n, w32 (b2n pf.isNone), ((pf.map fnWord).getD 0), t.1, t.2.1, t.2.2⟩
  let vfs := ((span 0 2).flatMap fun e => (span 1 255).map fun n => (⟨e, n⟩ : FnId)).filter fun f => s.fns.has (fnKey f) || s.fnExists f
  s.over vfs fun s f => s.setFn f { s.fn f with floor := some q }

/-- A CLEAR_EVENTS in progress completes where the sideband goes down alone or is reset with the host side: the recorder had begun it, which
no rule dates, once CMD was written (R709, DESIGN CHOICE 55). -/
def State.clearBegun (s : State) : State :=
  if s.sb.busy && s.sb.cmd = 5 && s.sb.cmdArgs.getD 0 0 = 0x52414C43 && s.vault.mounted && s.recorder.up then s.clearRecords none else s

/-! ### A write that never commits (R154) -/

/-- The gather frames of a write that never commits return to FREE, and the frames that a READ has pinned are released; a WRITE records EV_GATHER_DISCARD with the reason (R154):
0 transfer error, 1 Bus Master Enable, 2 reset or link loss, 3 lehr pass. -/
def State.discardGather (s : State) (c : Cmd) (reason : Nat) : State :=
  let (mine, pinned) := c.frames.partition fun f => match s.frames.look f with | some x => x.st = .gather | none => true
  let s := { s with frames := s.frames.keep fun i _ => !mine.contains i }.unpin pinned
  if c.sqe.opcode = 2 && (c.phase = .gathering || c.phase = .gathered || c.phase = .running) then s.fnEvent Ev.gatherDiscard c.fn c.sqe.cid reason else s

/-! ### The arbiter output (R510, R511) -/

/-- ARB_HB is held low. -/
def State.hbLow (s : State) : State :=
  if s.life.hb then ({ s with life := { s.life with hb := false } }).emit (.arbHb false) else s

/-! ### Start of a pass (R462, R464 to R466) -/

/-- May a trigger start a pass (R464)? -/
def State.mayLehr (s : State) : Bool :=
  s.live && !s.life.starting && s.vault.mounted
    && [DevState.ready, .stopping, .stopped, .failed, .fenced].contains s.life.st

/-- Tile jobs that have started complete, and a parison with an UPDATE that had not started is closed, but for one that a destage writes
from, whose entry the dump keeps: what waits there is dropped (R202, R465 steps 1 and 2, R466). -/
def State.jobsOver (s : State) : State :=
  let s := s.over (s.tiles.vals.filterMap (·.running)) fun s j => match j.op with
    | .absorb id f old outs => s.absorbAdd j.id id f old outs []
    | _ => s
  s.over (s.parisons.filter fun e => !e.2.jobs.isEmpty || e.2.current.isSome || !e.2.deltas.isEmpty) fun s e =>
    if s.parisonUsed e.1 then
      ({ s with parisons := s.parisons.upd e.1 fun p => { p with jobs := [], current := none, deltas := [] } }).unhold e.2.held
    else s.closeParison e.1

/-- A pass cancels run-ahead: the units not visible yet are discarded (R268, R269). -/
def State.unitsOver (s : State) : State :=
  s.over (s.tasks.filter fun t => match t.2.kind with | .unit _ => t.2.stage ≠ .late && t.2.stage ≠ .uncompared | _ => false)
    fun s t =>
      let s := s.endTask t.1
      { s with volumes := s.volumes.upd t.2.vol fun v => { v with runaheadDiscarded := sat64 v.runaheadDiscarded } }

/-- The image of an open parison for section 3 (R472). -/
def Parison.image (p : Parison) : ParisonImage :=
  { region := p.region, stripe := p.stripe, vol := p.vol, fill := p.fill, home := p.home, strips := p.acc }

/-! #### Gating (R35 to R37, R477, R651) -/

/-- The survival domain (R35). -/
def survives (i : Nat) : Bool := (66 ≤ i && i < 114) || i = 162 || (234 ≤ i && i < 238) || i = 255 || i = 256

/-- An island is gated, or reset with the host side, and so goes down: its epoch advances, or will once 1 ms has passed since the last
advance, and an island that is only reset stays down as long (R651, R652); nothing is recorded (R659). A gated island's boundary answers
ABSENT (R654). -/
def State.gateIsland (s : State) (i status : Nat) : State :=
  let x := s.island i
  let late := match x.advancedAt with | some t => s.now < t + 1000 | none => false
  if x.status = 3 || x.status = 4 then s
  else if x.status = 1 then s.setIsland i { x with status := if status = 0 && x.advanceDue then 1 else status }
  else s.setIsland i { x with
    epoch := if late then x.epoch else x.epoch + 1, advancedAt := if late then x.advancedAt else some s.now, advanceDue := late,
    status := if status = 0 && late then 1 else status, downAt := s.now }

/-- Step 4: the islands outside the survival domain are gated, but for the host side of a PERST_N pass, which is reset, and for the
drive ports of a fence pass while VIN_MAIN is present (R37, R477, R514). -/
def State.gateAll (s : State) (cause : LehrCause) : State :=
  let ports := cause = .fence && !s.pack.vinAbsent && !s.pack.overVolt
  s.over ((span 0 260).filter fun i => !survives i && !(ports && i < 64)) fun s i =>
    s.gateIsland i (if cause = .perst && hostSide i then 0 else 4)

/-- Steps 1 to 4: uncommitted writes are discarded, run-ahead is cancelled, ports abandon their commands, started tile jobs complete, SRAM
banks 0 to 31 are copied, and the islands outside the survival domain are gated (R36, R37, R154, R268, R275, R465, R466, R477). -/
def State.startLehr (s : State) (cause : LehrCause) : State :=
  if !s.mayLehr then s
  else
    let s := s.selfTestEnds 5
    let t := s.stamp
    let s := s.over s.cmds.vals fun s c => if c.phase = .committed then s else s.discardGather c 3
    let s := ({ s with cmds := [] }).unitsOver.jobsOver
    let keepHost := cause = .perst
    let s := if keepHost then s else s.hostCleared
    let sram : Store ParisonImage := (s.parisons.filter fun e => e.2.inSram).map fun e => (e.1, e.2.image)
    let s := { s with
      cmds := [], tiles := [], tileWait := [], todo := [],
      parisons := s.parisons.keep fun _ p => !p.inSram,
      frames := s.frames.keep fun _ (x : Frame) => x.st ≠ FrameSt.gather && x.st ≠ FrameSt.filling,
      ports := s.ports.each fun _ p =>
        { p with reqs := if cause = LehrCause.fence then p.reqs.keep fun _ r => r.submittedAt.isSome else [], aborts := [] },
      life := { s.life with lehr := some { cause := cause, at_ := s.now, time := (t.1, t.2.1), sramImage := sram, onPack := s.pack.converter ≠ 0 }, hostReady := keepHost } }
    ((if keepHost then s else s.endAlert).hbLow.gateAll cause).converterCheck

/-! ### The dump (R465 to R467, R471 to R475) -/

/-- The image of a frame for section 5: the data of a bad frame is written as zero (R473). -/
def Frame.image (x : Frame) : FrameImage :=
  { vol := x.vol, lba := x.lba, st := x.st, journaled := x.journaled, absorbed := x.absorbed, gen := x.gen, data := if x.bad then [] else x.data, bad := x.bad }

/-- The image of a table entry with its staging run and the generations its frames carry. -/
def State.entryImage (s : State) (e : Nat × Entry) : EntryImage :=
  let x := e.2
  let run := match x.staging with
    | some (a, n) => (s.staging.filter fun c => a ≤ c.1 && c.1 < a + n).map (·.2)
    | none => []
  let gens := match s.tasks.find? fun t => t.2.entry = some e.1 with
    | some (_, t) => t.frames.filterMap (fun f => (s.frames.look f.1).map fun y => (f.2.1, f.2.2, y.gen)) ++ t.gens
    | none => []
  { seq := x.seq, region := x.region, template := x.template, regionGen := x.regionGen, vol := x.vol, stripe := x.stripe,
    method := x.method, parison := x.parison, newestGen := x.newestGen, writeMask := x.writeMask, doneMask := x.doneMask,
    segMask := x.segMask, staging := run, stagingAt := (match x.staging with | some (a, _) => a | none => 0), dataGens := gens }

/-- The frames of section 5: JOURNALED = 0 first, then JOURNALED = 1; of the SUPERSEDED those that the destage of an entry holds (R202, R471,
R473). -/
def State.dumpFrames (s : State) (journaled : Bool) : List FrameImage :=
  (s.frames.filter fun e => e.2.journaled == journaled &&
    (e.2.st = .dirty || e.2.st = .destaging || (e.2.st = .superseded && s.entryHolds e.1))).map fun e => e.2.image

/-- 4 KiB pages of the region table, 64 entries each, that differ from the newest checkpoint's (R471). -/
def State.regionPages (s : State) (c : Store Region) : List Nat :=
  let keys := uniq ((s.regions.keys ++ c.keys).filter fun r => s.region r ≠ c.read r {})
  sortBy (· ≤ ·) (uniq (keys.map (· / 64)))

/-- Segments of n frames with their directory segments (R473). -/
def frameSegments (n : Nat) : Nat := n + (n + 255) / 256

/-- The open parisons of section 3: those of SRAM from the image of step 3, and those of the spill area (R36, R471). -/
def State.dumpParisons (s : State) (l : Lehr) : List ParisonImage :=
  ((s.parisons.map fun e => (e.1, e.2.image)).foldl (fun (m : Store ParisonImage) e => m.put e.1 e.2) l.sramImage).map (·.2)

/-- Sections 0 to 4 as segments, each with its item count. Section 0 is taken at its largest size, and no rule lays its bytes out
(DESIGN CHOICE 28). -/
def State.headSections (s : State) (c : Store Region) (entries : List EntryImage) (parisons : List ParisonImage) : List (List Block × Nat) :=
  let pages := s.regionPages c
  let staging := entries.flatMap fun e => e.staging.map (·.2.2)
  [(List.replicate 256 [], 1),
   (toSegments (s.table.vals.flatMap Entry.bytes), s.table.length),
   (staging, staging.length),
   (parisons.flatMap fun p => p.segments (s.regionTmpl p.region).codedPositions (s.regionTmpl p.region).strip, parisons.length),
   (toSegments (bytesAt (toLe 4 pages.length ++ pages.flatMap fun p => toLe 4 p) 0 ((4 + 4 * pages.length + 4095) / 4096 * 4096))
      ++ pages.map (fun p => trim ((span (64 * p) 64).flatMap fun r => regionBytes (s.region r))), pages.length)]

/-- Segments of sections 0 to 4. -/
def segmentCount (l : List (List Block × Nat)) : Nat := (l.map fun x => x.1.length).sum

/-- The blocks of the reserve in the order in which a pass uses them, `n` at most: die after die, from the least worn, 1,152 of a die (R395,
R398, R467). -/
def reserveOrder : Nat → State → Nat → List Nat
  | 0, _, _ => []
  | n + 1, s, i =>
    let used (d : Nat) : Nat := (s.vault.blocks.filter fun (e : Nat × VBlock) => vdie e.1 = d && e.2.st = .open_ && e.2.use = .dump).length
    match (span 0 16).findSome? fun k => let d := (i + k) % 16; if used d ≥ 1152 then none else (s.leastWorn d).map fun b => (d, b) with
    | some (d, b) => b :: reserveOrder n (s.setVblk b { s.vblk b with st := .open_, use := .dump }) (d + 1)
    | none => []

/-- What the map log has not committed when a pass begins is void with its writes: the pass goes on from the first such record's sequence
number and place (R154, R407, R465; DEDUCED 28). -/
def State.cutMapLog (s : State) : State :=
  let v := s.vault
  match v.mapRecs.find? fun (e : Nat × MapRec) => !e.2.committed with
  | none => { s with vault := { v with openEntries := [], map := v.committedMap } }
  | some (q, r) => { s with vault := { v with
      mapRecs := v.mapRecs.keep fun k _ => k < q, nextMapSeq := q, mapPos := r.pos, map := v.committedMap, openEntries := [],
      sectors := v.sectors.keep fun _ x => match x.what with | .mapLog k _ => k < q | _ => true } }

/-- A page of a block is programmed and verified within the pass: the bits that the read-back corrects are open within the refresh
threshold (R390, R465, R467). -/
def State.storeNow (s : State) (b page : Nat) (content : VContent) : State :=
  s.storeSectors b page content (content.zipIdx.map fun e =>
    some ((Config.openValue 0x390 (s.vault.programSeq + e.2)).toNat % (s.settings.refreshBits + 1)))

/-- A page of the journal stream is programmed and read back within the pass: where that fails, its block is used no more, waits to be
retired, and the page goes to another; `n` is its place in the order of programming. Answers the next place, and whether the page stands (R390,
R415, R465), with fuel. -/
def passPage (fails : List Nat) (p : VContent) : Nat → Nat → State → Nat × Bool × State
  | 0, n, s => (n, false, s)
  | fuel + 1, n, s => match s.pageFor .journalStream with
    | none => (n, false, s)
    | some (b, page, s) =>
      if fails.contains n then
        let s := s.setVblk b { s.vblk b with st := .full }
        passPage fails p fuel (n + 1) { s with vault := { s.vault with
          programFails := s.vault.programFails + 1, retireDue := s.vault.retireDue ++ [b] } }
      else (n + 1, true, s.storeNow b page p)

/-- Content is programmed in the journal stream within the pass, page by page. Answers the next place of a page, and how many pages do not
stand. -/
def State.pagesNow (x : Nat × State) (fails : List Nat) (content : VContent) : Nat × Nat × State :=
  (pagesOf content.length content).foldl (fun (a : Nat × Nat × State) p =>
    let (n, ok, s) := passPage fails p (fails.length + 1) a.1 a.2.2
    (n, if ok then a.2.1 else a.2.1 + 1, s)) (x.1, 0, x.2)

/-- A map-log record is written within the pass, in the journal stream, and commits where every page of it stands and every record before it
has committed (R390, R407, R465 step 5). Answers the next place of a page. -/
def State.recordNow (x : Nat × State) (fails : List Nat) (l : List MapEntry) : Nat × State :=
  let v := x.2.vault
  let content := mapContent v.nextMapSeq l
  let s := { x.2 with vault := { v with
    nextMapSeq := v.nextMapSeq + 1, mapPos := (v.mapPos + content.length) % mapRing,
    openEntries := v.openEntries.filter fun e => !l.contains e } }
  let (n, left, s) := State.pagesNow (x.1, s) fails content
  (n, { s with vault := { s.vault with
    mapRecs := s.vault.mapRecs.put v.nextMapSeq
      { entries := l, pages := left, pos := v.mapPos, committed := left = 0 && v.mapRecs.vals.all (·.committed) } } })

/-- Entries are committed within the pass, with the BLOCK_OPEN entries of blocks that the journal stream has opened meanwhile (R393, R465). -/
def State.commitNow (x : Nat × State) (fails : List Nat) (l : List MapEntry) : Nat × State :=
  let opens := x.2.vault.openEntries
  if opens.length + l.length ≤ 2046 then State.recordNow x fails (opens ++ l) else State.recordNow (State.recordNow x fails opens) fails l

/-- BLOCK_OPEN entries that no record of the pass has taken yet get one of their own (R393), with fuel: its pages may open blocks too. -/
def opensNow (fails : List Nat) : Nat → Nat × State → Nat × State
  | 0, x => x
  | k + 1, x => if x.2.vault.openEntries.isEmpty then x else opensNow fails k (State.commitNow x fails [])

/-- A block is retired within the pass: its BLOCK_RETIRED entry stands (R393, R415, R416). -/
def State.retiredNow (s : State) (b : Nat) : State :=
  let x := s.vblk b
  ((s.setVblk b { x with st := .retired }).event Ev.vaultBlockRetired (vdie b) (b * 2048) 1 x.ppm).percentUpdate

/-- A block of the journal stream whose program failed within the pass: its valid sectors go to other pages of the stream, with MAP_PAGE
entries for the map pages among them, and it is retired (R415, R467); where a page of them finds no place, it stays as it is. -/
def State.emptyNow (fails : List Nat) (x : Nat × State) (b : Nat) : Nat × State :=
  let src := x.2.keepOf b
  let (n, left, s) := State.pagesNow x fails
    (src.filterMap fun a => (x.2.vault.sectors.look a).map fun y => (y.what, y.contentSeq, y.data))
  if left ≠ 0 then (n, s)
  else
    let pages := src.filterMap fun a => (s.vault.sectors.look a).bind fun y => match y.what with
      | .mapPage i 0 =>
        if s.vault.mapTable.look i = some a then (s.vault.segmentAt y.what 0).map fun e => MapEntry.mapPage i e.1 else none
      | _ => none
    let (n, s) := State.commitNow (n, s) fails (pages ++ [.blockRetired b])
    (n, (s.retiredNow b).dropSectors b)

/-- Every block of the journal stream that has failed within the pass is retired, with fuel. -/
def retireAllNow (fails : List Nat) : Nat → Nat × State → Nat × State
  | 0, x => x
  | k + 1, (n, s) => match s.vault.retireDue with
    | [] => (n, s)
    | b :: l => retireAllNow fails k (State.emptyNow fails (n, { s with vault := { s.vault with retireDue := l } }) b)

/-- The blocks that the dump uses are opened, in the order of use, with committed BLOCK_OPEN entries; those whose programs fail are retired
(R393, R415, R465 step 5, R467). -/
def State.openDump (s : State) (opened failed logFails : List Nat) : State :=
  let s := { s with vault := { s.vault with retireDue := [] } }
  let (n, s) := (chunks 2046 opened.length opened).foldl (fun x l => State.commitNow x logFails (l.map fun b => .blockOpen b false)) (0, s)
  let s := s.over opened fun s b => s.setVblk b { s.vblk b with st := .full, triLevel := false, use := .dump, nextPage := 128 }
  let (n, s) := if failed.isEmpty then (n, s) else State.commitNow (n, s) logFails (failed.map MapEntry.blockRetired)
  let s := s.over failed fun s b =>
    { s with vault := { s.vault with programFails := s.vault.programFails + 1 } }.retiredNow b
  let (_, s) := opensNow logFails 3 (retireAllNow logFails logFails.length (n, s))
  { s with vault := { s.vault with dumpBlocks := s.vault.dumpBlocks ++ opened.filter fun b => !failed.contains b } }

/-- The dump's segments run through its blocks in order, through each block in page order, and through each page in sector order (R471). -/
def State.storeDump (s : State) (seq : Nat) (blocks : List Nat) (segments : List Block) : State :=
  let content : VContent := segments.zipIdx.map fun e => (VLogical.dump seq e.2, 0, e.1)
  s.over (pagesOf content.length content).zipIdx fun s e =>
    match blocks[e.2 / 128]? with
    | some b => s.storeNow b (e.2 % 128) e.1
    | none => s

/-- How many of the frames with JOURNALED = 0, `j0`, and of all, `n`, a dump holds that has `room` segments for section 5: all of them, or up
to a group boundary; frames with JOURNALED = 0 as far as a segment remains (R401, R474). -/
def framesKept (j0 n room : Nat) : Nat :=
  if frameSegments n ≤ room then n else max (256 * (room / 257)) (min j0 (room - (room + 256) / 257))

/-- The dump as the pass writes it: its blocks come from those of the reserve that are FREE, and `failed` names, by their place in the order of
use, those whose programs fail, with the pages of the map log; frames are left out where the reserve ends (R465 to R467, R471 to R475). How
many segments a pass without a seal has written no rule says. A frame that is uncorrectable as the dump reads it is dumped as such (R473, R479).
A dump that is held stays beside the new one (R484). -/
def State.writeDump (s : State) (l : Lehr) (durationUs packMj : Nat) (sealed_ : Bool) (failed : PassPlaces) : State :=
  let s := s.cutMapLog
  let s := { s with frames := s.frames.each fun f (x : Frame) => if failed.frames.contains f then { x with bad := true } else x }
  let c := s.vault.newest
  let regions : Store Region := match c with | some x => x.regions | none => []
  let j0 := s.dumpFrames false
  let j1 := s.dumpFrames true
  let total := ((span 0 16).map fun d => min 1152 (s.freeOnDie d)).sum
  let bad := uniq (failed.blocks.filter (· < total))
  let room := 512 * (total - bad.length)
  let entries := s.table.map s.entryImage
  let parisons := s.dumpParisons l
  let table := s.committed
  let sections := ({ s with regions := table } : State).headSections regions entries parisons
  let head := segmentCount sections + 1
  let n := j0.length + j1.length
  let kept := min n (framesKept j0.length n (room - head))
  let need := (head + frameSegments kept + 511) / 512
  -- the blocks in the order of use, up to the last that is needed
  let order := (reserveOrder (need + bad.length) s 0).zipIdx
  let good := (order.filter fun e => !bad.contains e.2).take need
  let opened := order.filter fun e => match good.getLast? with | some x => e.2 ≤ x.2 | none => false
  let after := s.vault.programSeq
  let nextSeq := match s.journal.recs.find? fun (e : Nat × JRec) => !e.2.committed with | some (q, _) => q | none => s.journal.nextSeq
  let s := s.openDump (opened.map (·.1)) ((opened.filter fun e => bad.contains e.2).map (·.1)) failed.logPages
  let seq := s.life.dumpSeq + 1
  let d : Dump :=
    { cause := l.cause, permission := s.wp.perm, seq := seq, identity := Config.identity,
      checkpointSeq := (match c with | some x => x.seq | none => 0), lEff := s.wp.lEff,
      nextDestageSeq := s.wp.nextDestageSeq, nextJournalSeq := nextSeq, startTime := l.time, durationUs := durationUs,
      packMj := packMj, framesJ0 := min kept j0.length, framesJ1 := kept - j0.length, omitted := n - kept,
      entries := entries, parisons := parisons, counters := s.counters,
      regions := table, frames := (j0 ++ j1).take kept, sealed_ := sealed_, lCfg := s.settings.lCfg,
      blocks := good.map (·.1), after := after }
  let all := sections ++ [(frameGroups (kept / 256 + 1) d.frames, kept)]
  let body := all.flatMap (·.1)
  let segments := if sealed_ then body ++ [sealSegment d all] else body.take ((Config.openValue 0x9002 seq).toNat % (body.length + 1))
  let d := { d with parts := segments.length }
  { s.storeDump seq (good.map (·.1)) segments with
    life := if s.life.held && s.life.dump.isSome then { s.life with passDump := some d, dumpSeq := seq }
      else { s.life with dump := some d, dumpSeq := seq } }

/-- Is a dump usable: sealed, with the seal and every section good as the vault reads them (R482)? -/
def State.dumpUsable (s : State) (d : Dump) : Bool :=
  d.sealed_ && sealGood ((span 0 d.parts).map fun k => ((s.vault.segmentRead (.dump d.seq k) d.after).data).getD [])

/-! ### The logic die goes into reset (R469, R470, R739) -/

/-- The logic die is held in reset; a self-test that no pass has ended ends with it (R636). A thermal hold that was waiting for this instant runs
for 60 s from here (R756). -/
def State.dieReset (s : State) (until_ : Option Nat) : State :=
  if s.life.inReset then s
  else
    let s := s.selfTestEnds 5
    let keep : Bool := match s.life.lehr with | some l => l.cause = LehrCause.perst | none => false
    let s := if keep then s.over ((span 0 260).filter fun i => !hostSide i) fun s i => s.gateIsland i 4
      else { s.hostCleared.endAlert with life := { s.life with hostReady := false } }
    { s with life := { s.life with inReset := true, lehr := none, resetUntil := until_, starting := false, hb := false, opSecondsBase := s.opSeconds,
                                             thermalHold := s.life.thermalHold.map fun t => if t = 0 then s.now + 60000000 else t },
             link := {}, todo := [] }.converterCheck.emit (.logicReset true)

/-- The rails fall: nothing feeds VBUS_HOLD (R469, R740). -/
def State.railsFall (s : State) : State :=
  let s := ((s.dieReset none).hostCleared).setConverter 0
  let s := { s with sb := { s.sb with staticAddr := none, i3c := false, dynAddr := 0, ibiEnabled := false } }
  { s with life := { s.life with railsUp := false, hostReady := false }, pack := { s.pack with inputSwitch := false } }.dieCheck

/-- VIN_MAIN has been at or above 10.8 V for 100 ms (R469). -/
def State.vinSteady (s : State) : Bool :=
  match s.pack.vinGoodSince with | some t => !s.pack.overVolt && s.now ≥ t + 100000 | none => false

/-- What Punty does after the seal, or at the end of a pass without one; only after a seal do the FETs of SHIP_ARMED open (R451, R469,
R470, R512, R756). -/
def State.puntyActs (s : State) (l : Lehr) (isSealed : Bool) : State :=
  let s := if isSealed && s.pack.st = .shipArmed then s.shipOpen else s
  let gone := s.pack.vinAbsent || s.pack.overVolt
  if gone then s.railsFall
  else if s.life.thermalHold.isSome then s.dieReset none
  else if l.cause = .fence then
    -- the pin has been released, or PERST_N asserted, while the pass still ran (R512)
    let leave : Bool := match s.life.fencedBy with
      | some FenceBy.pin => !s.life.fencePin
      | some FenceBy.conflict => s.life.perst
      | none => false
    if leave then (s.setState .booting).dieReset (some (s.now + 10000))
    else
      -- Punty powers the pairing island for the export (R515)
      let s := s.updIsland 252 fun x => { x with status := if x.status = 4 then 0 else x.status }
      ({ s with life := { s.life with lehr := some { l with sealed_ := true, noSeal := !isSealed } } }).converterCheck
  else if s.vinSteady then s.dieReset (some (s.now + 10000))
  else ({ s with life := { s.life with lehr := some { l with sealed_ := true, noSeal := !isSealed } } }).converterCheck

/-- A pass ends without a seal (R470, R479); one that was over already goes on as its seal has it. -/
def State.passUnsealed (s : State) (l : Lehr) : State :=
  if l.sealed_ then s.puntyActs l !l.noSeal else (s.writeDump l 0 0 false {}).puntyActs l false

/-- The converter stops with VIN_MAIN absent: a pass ends without a seal, and the rails fall (R431, R479). -/
def State.converterLost (s : State) : State :=
  if !s.pack.vinAbsent && !s.pack.overVolt then s
  else match s.life.lehr with
    | some l => s.passUnsealed l
    | none => s.railsFall

/-- The module's own reservation key (R308, R497). -/
def ownKey : BitVec 64 := Config.identity.setWidth 64

/-! ### FAILED and FENCED (R511, R512, R514) -/

/-- The module enters FAILED: a fatal condition (R511), with a pass where R464 and R511 allow one. LAST_FATAL is the cause of R660, 0 where it is none
of R660's (R669). -/
def State.failWith (s : State) (cause : Nat) : State :=
  if s.life.inReset || s.life.st = .failed then s
  else
    let before_ := s.life.st
    let s := { s with life := { s.life with lastFatal := cause } }
    let s := ((s.setState .failed).alert .fatal).hbLow
    if [DevState.ready, .stopping, .stopped].contains before_ then s.startLehr .failed
    else { s with life := { s.life with starting := false } }

/-- The module enters FAILED for a cause that is none of R660's (R481, R745, R756). -/
def State.failDevice (s : State) : State := s.failWith 0

/-- A fatal internal error: EV_FATAL_INTERNAL on each, and, where the module is not in FAILED already, LAST_FATAL and FAILED (R660, R669). -/
def State.fatalInternal (s : State) (cause island : Nat) : State :=
  if s.life.st = .failed then s.event Ev.fatalInternal (island % 256) cause island 0
  else (s.event Ev.fatalInternal (island % 256) cause island 0).failWith cause

/-! ### Mapping out (R660, R664 to R667) -/

/-- An HBM channel or tile meets a criterion: the module fails where too few would be left, else the unit drains and is mapped
out, after another that is draining (R668). A unit that is down already is mapped out as it stands. -/
def State.beginMapOut (s : State) (i : Nat) : State :=
  let x := s.island i
  let ch := i < 98
  if x.status = 3 || x.outRow ≠ 0 then s
  else if ch && s.channelsIn ≤ 28 then s.fatalInternal 4 i
  else if !ch && s.tilesIn ≤ 1 then s.fatalInternal 5 i
  else
    let row := if ch then 1 else 2
    if x.status = 1 then s.mapOut i row
    else (s.setIsland i { x with outRow := row }).drainCheck

/-- 24 h in µs. -/
def dayUs : Nat := 86400000000

/-- Instants of the last 24 h with the present one added (R664). -/
def dayWindow (now : Nat) (l : List Nat) : List Nat := (l.filter fun t => now < t + dayUs) ++ [now]

/-- An HBM channel's fresh uncorrectable word counts towards its map-out, the fourth in 24 h a criterion (R664). -/
def State.channelWindow (s : State) (i : Nat) : State :=
  let l := dayWindow s.now (s.island i).uncorrTimes
  let s := s.updIsland i fun x => { x with uncorrTimes := l }
  if l.length ≥ 4 then s.beginMapOut i else s

/-- A fresh uncorrectable word of an HBM channel in an area of R662 (R648, R664). -/
def State.channelWord (s : State) (c area : Nat) : State := (s.wordBad (66 + c) area).channelWindow (66 + c)

/-! ### Fencing (R512, R514) -/

/-- A port whose commands have all completed in a fence pass releases its reservation (R514). -/
def State.fencePort (s : State) (p : Nat) : State :=
  let x := s.port p
  if s.life.fenceDrain.isNone || x.ctl ≠ .ready || !x.reserved || !x.reqs.isEmpty then s
  else (s.setPort p { x with reserved := false, admin := x.admin ++ [(.release, s.now)] }).emit (.driveRelease p ownKey)

/-- The release of a port in a fence pass has ended: with success it sets the port's bit of DRAINED; the port is gated (R514). -/
def State.fenceReleased (s : State) (p : Nat) (ok : Bool) : State :=
  if !(s.port p).admin.any (fun a => a.1 = .release) then s
  else (s.setPort p { s.port p with drained := ok, admin := [] }).gateIsland p 4

/-- The pass that runs is sealed, and Punty holds the back end (R512). -/
def State.lehrSealed (s : State) : Bool := match s.life.lehr with | some l => l.sealed_ | none => false

/-- Is a sealed dump held that is served to the partner: after the seal of a fence pass, or in FENCED or STANDBY (R515)? -/
def State.heldForExport (s : State) : Option Dump :=
  if s.life.inReset || (s.lehrOn && !s.lehrSealed) || !(s.life.st = .fenced || s.life.st = .standby) then none
  else match s.life.dump with
    | some d => if s.dumpUsable d then some d else none
    | none => none

/-- The module enters FENCED (R512): by the pin (cause 0) or by a reservation conflict (cause 1). -/
def State.fence (s : State) (by_ : FenceBy) : State :=
  let st := s.life.st
  if !s.live || st = .fenced || st = .failed then s
  else
    let pass := s.serving
    -- the rows of STANDBY, BOOTING and RESTORING record nothing
    let s := if pass then (s.event Ev.fenced s.sideNo (match by_ with | .pin => 0 | .conflict => 1) st.code 0).raisePfs .pair else s
    let s := { s with life := { s.life with fencedBy := some by_, starting := false, takeover := none } }
    let s := (s.setState .fenced).hbLow
    if pass then
      let s := s.startLehr .fence
      let s := { s with life := { s.life with fenceDrain := some s.now, exportOff := false },
                        ports := s.ports.each fun _ (x : Port) => { x with drained := false } }
      s.over (span 0 64) fun s p => s.fencePort p
    else s

end Sys2Proof.Machine
end

