-- ==== Sys2Proof/Machine/Power.lean ====
section
/-! DEFINITION. The rows of the power die and the power link (R26 to R28, R429 to R460, R462) and the pack commands of the
host (R445, R446, R449, R454, R640). -/

namespace Sys2Proof.Machine

open Sys2Proof

/-! ### The power link (R26, R28) -/

/-- What pack energy is now decides the permission (R165, R167). -/
def State.energyChanged (s : State) : State := if s.lehrOn then s else s.energyNote.permissionCheck

/-- STATUS_FRAME: the power die's readings of VIN_MAIN and PACK_P (R431), and where the logic die is out of reset it takes E_avail, pack
voltage, current and temperature, the warning state and the input power (R26, R433, R442); a run of valid frames that a gap of 100 µs
broke starts again (R28). -/
def execStatusFrame (frame : StatusFrame) (s : State) : Host.Outcome State Fault Refusal :=
  act s (if !s.pack.running then s
    else
      let s := (s.vinReads frame.vinMv).updPack fun p => { p.volt frame.packMv s.now with
        eAvailMj := if p.unusable then 0 else p.eAvailMj, limited := frame.limited,
        inputMw := frame.vinMw + (if p.converter = 0 then 0 else frame.converterMw) - (if p.charger = (0, 0) then 0 else frame.chargerMw) }
      if s.life.inReset then s else
      let l := s.link
      let since := if s.now < l.lastFrame + 100 then l.runSince.getD s.now else s.now
      ({ s with link := { l with
          lastFrame := s.now, runSince := some since, eAvailMj := s.pack.eAvailMj, w1 := s.pack.w1, w2 := s.pack.w2,
          w3 := s.pack.w3, reading := s.pack.reading, inputMw := s.pack.inputMw, learning := s.pack.st = PackSt.learnDischarge }, gov := { s.gov with
          -- the cap holds at the next instant even where the end is reported before it (R367)
          learnSeen := s.gov.learnSeen || s.pack.st = PackSt.learnDischarge } }).energyChanged.run)

/-- STATUS_FRAME_TIMEOUT (R28). -/
def execStatusFrameTimeout (s : State) : Host.Outcome State Fault Refusal :=
  act s (if s.life.inReset || s.now < s.link.lastFrame + 100 then s
    else ({ s with link := { s.link with valid := false, runSince := none } }).energyChanged.run)

/-- PACK_ENERGY_AVAILABLE: valid frames for 1 s without a break (R28). -/
def execPackEnergyAvailable (s : State) : Host.Outcome State Fault Refusal :=
  act s (match s.link.runSince with
    | none => s
    | some t =>
      if s.life.inReset || s.link.valid || s.now < t + 1000000 || s.now ≥ s.link.lastFrame + 100 then s
      else ({ s with link := { s.link with valid := true } }).energyChanged.run)

/-! ### VIN_MAIN (R430, R431, R462, R463) -/

/-- POWER_FAIL_DETECT: the strobe is driven (R462). Where the converter works neither now nor in the pass that it starts, nothing feeds VBUS_HOLD
any more: an open pass ends without a seal, and the rails fall (R431, R469, R479, R740). -/
def execPowerFailDetect (vinMv : Nat) (s : State) : Host.Outcome State Fault Refusal :=
  act s (if !s.pack.running || vinMv ≥ 10500 then s
    else
      let s := ((s.vinReads vinMv).updPack fun p => { p with strobe := true }).emit .strobe
      if s.life.railsUp && s.pack.wantsConverter (s.mayLehr || s.passOpen) = 0 then s.converterLost else s)

/-- VIN_OVERVOLTAGE: the switch opens, the converter carries VBUS_HOLD, and power-fail is signalled (R430). -/
def execVinOvervoltage (vinMv : Nat) (s : State) : Host.Outcome State Fault Refusal :=
  act s (if !s.pack.running || vinMv ≤ 14000 || s.pack.overVolt then s
    else
      let s := (s.updPack fun p => { p.setVin vinMv s.now with overVolt := true, inputSwitch := false, strobe := true }).emit (.inputSwitch false)
      (s.converterCheck.dieEvent Ev.vinOvervoltage vinMv 0 0).emit .strobe)

/-- VIN_RETURN_IN_RANGE: with VIN_MAIN between 10.8 V and 13.2 V at every reading of 1 s, the switch closes again, and rails that had
fallen rise (R430, R740). -/
def execVinReturnInRange (s : State) : Host.Outcome State Fault Refusal :=
  act s (if !s.pack.running || !s.pack.overVolt || !heldFor s.pack.vinRangeSince s.now 1000000 then s
    else
      let s := (s.updPack fun p => { p with overVolt := false, inputSwitch := true }).emit (.inputSwitch true)
      let s := if s.life.railsUp then s else { s with life := { s.life with railsUp := true, railsSince := s.now } }
      s.converterCheck)

/-- VIN_BELOW_HOLDUP: below 10.7 V the converter is enabled, and a pack in states 2 to 9 goes to HOLDUP (R431, R436); a reading from there
up to 10.8 V only breaks the times at or above 10.8 V. -/
def execVinBelowHoldup (vinMv : Nat) (s : State) : Host.Outcome State Fault Refusal :=
  act s (if !s.pack.running || vinMv ≥ 10800 then s else s.vinReads vinMv)

/-- VIN_ABOVE_HOLDUP: the converter is disabled; a pack in HOLDUP goes to IDENTIFY once VIN_MAIN has held for 100 ms (R431,
R436). -/
def execVinAboveHoldup (s : State) : Host.Outcome State Fault Refusal :=
  act s (if !s.pack.running then s
    else
      let s := s.updPack fun p => p.setVin (max p.vinMv 10800) s.now
      if s.pack.st = .holdup && heldFor s.pack.vinGoodSince s.now 100000 then s.packTo .identify else s.converterCheck)

/-- HOLDUP_UVLO: with PACK_P below n × 2.70 V at every reading of 1 ms the converter stops and W3 is asserted (R431). -/
def execHoldupUvlo (s : State) : Host.Outcome State Fault Refusal :=
  act s (if s.pack.converter = 0 || s.pack.uvlo || !heldFor s.pack.lowSince s.now 1000 then s
    else ((s.updPack fun p => { p with uvlo := true }).converterCheck.dieEvent Ev.holdupUvlo s.pack.reading.mv
      (signedField 32 s.pack.qMc) 0).checkW3.converterLost)

/-- HOLDUP_UVLO_RECOVER: PACK_P at or above n × V_0 at every reading of 1 s ends the stop (R431). -/
def execHoldupUvloRecover (s : State) : Host.Outcome State Fault Refusal :=
  act s (if !s.pack.running || !s.pack.uvlo || !heldFor s.pack.highSince s.now 1000000 then s
    else (s.updPack fun p => { p with uvlo := false }).converterCheck.checkW3)

/-! ### Pack states (R436) -/

/-- PACK_PRESENCE_CHANGE (R436, R439, R453). -/
def execPackPresenceChange (present : Bool) (s : State) : Host.Outcome State Fault Refusal :=
  act s (if !s.pack.running || s.pack.present == present then s
    else if present then
      let s := s.updPack fun p => { p with present := true, counting := true }
      let closed := s.pack.st = .absent
      let s := if s.pack.returns then s.packTo .identify else s
      if closed then s.dieEvent Ev.packPresence 1 2 0 else s
    else
      let s := s.learnAbort.countBreak.updPack fun p => { p with present := false, eAvailMj := 0 }
      let s := if [PackSt.notDeclared, .shipArmed, .ship].contains s.pack.st then s else s.packTo .absent
      let s := s.setFlags fun p => { p with capUnverified := true }
      ((s.dieEvent Ev.packPresence 0 s.pack.st.code 0).cross 6).checkW3.dieCheck)

/-- Is a reading outside the charging window (R436): 0 to 45 °C? -/
def outsideWindow (r : PackReading) : Bool := r.temp < 0 || r.temp > 360

/-- IDENTIFY_COMPLETE (R436, R439). -/
def execIdentifyComplete (reading : PackReading) (s : State) : Host.Outcome State Fault Refusal :=
  act s (if !s.pack.running || s.pack.st ≠ .identify || s.now < s.pack.stateAt + 2000000 then s
    else
      let s := s.updPack fun p => p.reads reading s.now
      let p := s.pack
      if reading.mv > p.cells * 4350 || reading.mv < p.cells * 2500 then
        ((s.packTo .mismatch).dieEvent Ev.packMismatch p.cells reading.mv 0).cross 8
      else
        let kept := p.counting && p.q.isSome
        if !kept && reading.ma.natAbs ≥ 10 then s
        else
          let soc := p.socOcv reading.mv
          let s := if kept then s else s.updPack fun p =>
            { p with q := some (8 * soc.1 * (p.cLearned * qUnit) / (10 * soc.2) : Nat), counting := true, provisional := true }
          if outsideWindow reading then (s.updPack fun p => { p with holdCause := some .overTemp }).packTo .chargeHold
          else if reading.mv < p.cells * p.v0 then s.toCharge .precharge else s.toCharge .cc)

/-- CHARGE_PHASE_CHANGE (R436). -/
def execChargePhaseChange (reading : PackReading) (s : State) : Host.Outcome State Fault Refusal :=
  act s (if !s.pack.running then s
    else
      let p := s.pack
      let s := s.updPack fun p => p.reads reading s.now
      if p.st = .precharge && reading.mv ≥ p.cells * p.v0 then s.packTo .cc
      else if p.st = .cc && reading.mv ≥ p.cells * p.vcv then s.packTo .cv else s)

/-- CHARGE_TERMINATION: the current has been below I_term for 60 s in CV, and the full anchor follows (R436, R440). -/
def execChargeTermination (s : State) : Host.Outcome State Fault Refusal :=
  act s (if !s.pack.running || s.pack.st ≠ .cv || !heldFor s.pack.termSince s.now 60000000 then s
    else ((s.packTo .full).anchor false s.pack.cLearned).checkW3)

/-- RECHARGE_NEEDED (R436). -/
def execRechargeNeeded (reading : PackReading) (s : State) : Host.Outcome State Fault Refusal :=
  act s (if !s.pack.running || s.pack.st ≠ .full then s
    else
      let p := s.pack
      let low := match p.q with | some q => 100 * q < 97 * (p.cLearned * qUnit : Nat) | none => false
      let rested := reading.ma.natAbs < 10 && reading.mv + p.cells * 100 < p.cells * p.vcv
      let s := s.updPack fun p => p.reads reading s.now
      if low || rested then s.toCharge .cc else s)

/-- The level number of a charge-end warning (R461). -/
def ChargeEnd.level : ChargeEnd → Nat
  | .overTemp => 4 | .overVolt => 5 | .timer => 6

/-- Does the cause of a charge end hold: the last reading outside the charging window or above n × (V_cv + 50 mV), or the time over
(R436)? -/
def Pack.endsCharge (p : Pack) (now : Nat) : ChargeEnd → Bool
  | .overTemp => outsideWindow p.reading
  | .overVolt => p.cells * (p.vcv + 50) < p.reading.mv
  | .timer => (p.st = .precharge && now ≥ p.stateAt + 3600000000) || now ≥ p.chargeStart + 36000000000

/-- CHARGE_END: the charge stops with its cause (R436, R443). -/
def execChargeEnd (cause : ChargeEnd) (s : State) : Host.Outcome State Fault Refusal :=
  act s (
    let p := s.pack
    let charging := p.st = .precharge || p.st = .cc || p.st = .cv
    if !p.running || !charging || !p.endsCharge s.now cause then s
    else ((s.updPack fun p => { p with holdCause := some cause }).packTo .chargeHold).warn (ChargeEnd.level cause) true)

/-- CHARGE_HOLD_RELEASE: an over-temperature hold ends once the temperature has stayed within 3 to 42 °C for 60 s (R436). -/
def execChargeHoldRelease (s : State) : Host.Outcome State Fault Refusal :=
  act s (if s.pack.running && s.pack.st = .chargeHold && s.pack.holdCause = some .overTemp
      && heldFor s.pack.coolSince s.now 60000000 then s.packTo .identify else s)

/-- LEARN_DISCHARGE_DONE (R436). -/
def execLearnDischargeDone (s : State) : Host.Outcome State Fault Refusal :=
  act s (
    let p := s.pack
    if p.running && p.st = .learnDischarge && -100 * p.sinceRest ≥ 40 * (p.cLearned * qUnit : Nat) then s.packTo .learnRest else s)

/-- LEARN_REST_TIMEOUT: 4 h without a rest point (R436, R447). -/
def execLearnRestTimeout (s : State) : Host.Outcome State Fault Refusal :=
  act s (if s.pack.running && s.pack.st = .learnRest && s.now ≥ s.pack.stateAt + 14400000000
    then (s.learnEnds 4 0).toCharge .cc else s)

/-! ### The gauge (R439 to R448, R456 to R459) -/

/-- EAVAIL_COMPUTE: E_avail and W1 to W3, and the conditions that abort a learning run (R442, R443, R446). -/
def execEavailCompute (reading : PackReading) (s : State) : Host.Outcome State Fault Refusal :=
  act s (if !s.pack.running then s
    else
      let s := (s.updPack fun p => p.reads reading s.now).evaluate
      if (s.pack.st = .learnDischarge || s.pack.st = .learnRest) && (s.pack.w1 || reading.temp > 400)
      then s.learnAbort.toCharge .cc else s)

/-- A sample of discharge in a lehr pass that has not sealed counts in the energy drawn from the pack (R475). -/
def State.draws (s : State) (out : Nat) : State :=
  match s.life.lehr with
  | some l => if l.sealed_ then s else { s with life := { s.life with lehr := some { l with drawn := l.drawn + out * s.pack.reading.mv } } }
  | none => s

/-- CHARGE_COUNT_SAMPLE: one 250 µs sample of the current is added to Q (R439), to the throughput (R455), to the episode of discharge
(R459) and to what a lehr pass draws (R475). -/
def execChargeCountSample (currentMa : Int) (s : State) : Host.Outcome State Fault Refusal :=
  act s (if !s.pack.running || !s.pack.present || !s.pack.fetClosed then s
    else
      let out := (-currentMa).toNat
      let s := s.draws out
      s.updPack fun p => { (p.flows currentMa s.now) with
        q := p.q.map (· + currentMa), counted := p.counted + currentMa, counting := true, reading := { p.reading with ma := currentMa },
        throughput := p.throughput + out,
        episode := if currentMa < -10 then some (p.episode.getD 0 + out) else p.episode.map (· + (out : Int)) })

/-- |a − b| of two fractions, as a fraction. -/
def fracDiff (a b : Nat × Nat) : Nat × Nat := (((a.1 * b.2 : Nat) : Int) - ((b.1 * a.2 : Nat) : Int)).natAbs |> fun n => (n, a.2 * b.2)

/-- Learning at a rest point (R444): the result and C_meas in mC, and the state; no result where the charge counted is too
small. -/
def State.learnAt (s : State) (a : RestPoint) (mv : Nat) : Option (Nat × Nat) × State :=
  let p := s.pack
  let dq := (p.counted - a.count).natAbs
  if 100 * dq < 35 * (p.cLearned * qUnit) then (none, s)
  else
    let d := fracDiff (p.socOcv a.packMv) (p.socOcv mv)
    let cMeas := if d.1 = 0 then 0 else dq * d.2 / (d.1 * qUnit)
    -- the exact quotient against 0.5 and 1.2 × C_nominal
    let low := 2 * (dq * d.2) < p.nominal * qUnit * d.1
    let high := 10 * (dq * d.2) > 12 * (p.nominal * qUnit * d.1)
    if d.1 = 0 || low || high then (some (2, cMeas), s)
    else
      let under := 100 * (dq * d.2) < 85 * (p.cLearned * qUnit * d.1)
      let above := 100 * (dq * d.2) > 115 * (p.cLearned * qUnit * d.1)
      let c := if under then 85 * p.cLearned / 100 else if above then 115 * p.cLearned / 100 else cMeas
      let soc := p.socOcv mv
      let die := s.dieNow
      let s := (s.updPack fun p => { p with
        cLearned := c, q := some (soc.1 * (c * qUnit) / soc.2 : Nat), capUnverified := false, provisional := false,
        learnOverdue := false, learnCount := min 65535 (p.learnCount + 1), learnTime := die, overdueAt := die }).storeGauge
      (some (b2n (under || above), cMeas), s)

/-- REST_POINT: where counting runs, no rest point has been taken since |I| was last 10 mA or more, the cell voltage has been steady and the
temperature lies in range (R441); before that it is a reading of the pack. Episode, learning, the empty anchor, and the start or the end of a learning run (R440, R441, R444, R445,
R447). -/
def execRestPoint (reading : PackReading) (s : State) : Host.Outcome State Fault Refusal :=
  act s (
    let p := s.pack
    let resting := reading.ma.natAbs < 10 && 80 ≤ reading.temp && reading.temp ≤ 320 && s.now ≥ p.movedAt + 2700000000
    let seen := p.reads reading s.now
    if !p.running || !p.counting || !resting || p.restTaken then s
    else if !seen.steady s.now then s.updPack fun _ => seen
    else
      let s := s.episodeEnds.updPack fun p => { p.reads reading s.now with restTaken := true }
      let (r, s) := match p.rest, p.decl with | some a, some _ => s.learnAt a reading.mv | _, _ => (none, s)
      let s := match r with
        | some (k, c) =>
          if p.st = PackSt.learnRest then (s.learnEnds k c).toCharge .cc
          else
            let s := if k = 2 then (s.updPack fun p => { p with rejectCount := min 65535 (p.rejectCount + 1) }).storeGauge else s
            s.dieEvent Ev.packLearn k c s.pack.cLearned
        | none => if p.st = PackSt.learnRest then (s.learnEnds 5 0).toCharge .cc else s
      let s := if p.decl.isSome && reading.mv ≤ p.cells * p.v0 then s.anchor true 0 else s
      let die := s.dieNow
      let s := s.updPack fun p => { p with rest := some ⟨p.q, reading.mv, die, p.counted⟩ }
      if p.st = PackSt.full && s.pack.learnPending then s.learnStart else s)

/-- LEARN_OVERDUE: 180 days after the last capacity update, and every further 30 days (R448). -/
def execLearnOverdue (s : State) : Host.Outcome State Fault Refusal :=
  act s (
    let p := s.pack
    let die := s.dieNow
    let due := if p.learnOverdue then die ≥ p.overdueAt + 2592000 else die ≥ p.learnTime + 15552000
    if !p.running || p.st = .notDeclared || !due then s
    else
      let s := s.setFlags fun p => { p with learnOverdue := true, overdueAt := die }
      s.dieEvent Ev.packLearnOverdue ((die - p.learnTime) / 86400) p.cLearned 0)

/-- GAUGE_STORE_PERIODIC (R456). -/
def execGaugeStorePeriodic (s : State) : Host.Outcome State Fault Refusal :=
  act s (if s.pack.running && s.dieNow ≥ s.pack.storeAt + 21600 then s.storeGauge else s)

/-- PACK_SAMPLE: series 26 to 28, once a second while the pack is present, the temperature while the FETs are closed (R459, R693, R748). -/
def execPackSample (reading : PackReading) (s : State) : Host.Outcome State Fault Refusal :=
  act s (if !s.pack.running || !s.pack.present then s
    else
      let mv := reading.mv / s.pack.cells
      let s := s.countLife 26 mv (binOf mv 2800 50) 0
      let s := s.countLife 27 reading.ma (binOf reading.ma (-16000) 1000) 0
      if s.pack.fetClosed then s.countLife 28 reading.temp (binOf reading.temp (-160) 24) 0 else s)

/-- What the power die takes from a bank of its store as it starts (R455, R457). -/
def Pack.load (p : Pack) (g : GaugeBank) : Pack :=
  { p with
    cLearned := g.cLearned, fullTime := g.fullTime, emptyTime := g.emptyTime, learnTime := g.learnTime,
    capUnverified := g.capUnverified, learnPending := g.learnPending, learnOverdue := g.learnOverdue,
    learnCount := g.learnCount, rejectCount := g.rejectCount, throughput := g.throughput * (1000 * qUnit),
    dieSeconds := g.dieSeconds, storeAt := g.dieSeconds }

/-- POWER_DIE_START: the newer valid bank, with a break in counting (R439, R457); the pack is identified again (R436). SHIP
stands, since only R452 leaves it. Without a valid bank the store is written once C_learned has come from the declaration (DEDUCED 52). -/
def execPowerDieStart (s : State) : Host.Outcome State Fault Refusal :=
  act s (if s.pack.running then s
    else
      let a := s.pack.bankA
      let b := s.pack.bankB
      let useB := b.valid && (!a.valid || newerGen b.seq a.seq)
      let s := s.countBreak.updPack fun p => { p with
        running := true, dieAt := s.now, uvlo := false, overVolt := false, lowVin := p.vinMv < 10700, movedAt := s.now, restTaken := false,
        holdCause := none, provisional := false, vinFell := p.vinFell || p.st = .ship, eAvailMj := 0, valid := a.valid || b.valid, lastBankB := useB,
        counting := p.present && p.fetClosed }
      let s := if useB then (s.updPack (·.load b)).dieEvent Ev.gaugeStore 1 b.seq.toNat 0
        else if a.valid then (s.updPack (·.load a)).dieEvent Ev.gaugeStore 0 a.seq.toNat 0
        else (s.updPack fun p => { p.load {} with capUnverified := true, learnPending := true }).dieEvent Ev.gaugeStore 2 0 0
      if s.pack.st = .ship then s
      else if s.pack.decl.isNone then s.packTo .notDeclared
      else if s.pack.present then s.packTo .identify else s.packTo .absent)

/-! ### Ship mode (R449 to R452) -/

/-- Nothing in the module depends on the pack: no unjournaled dirty frame and no destage entry (R451). -/
def State.shipClean (s : State) : Bool :=
  s.table.isEmpty && !s.frames.any fun e => (e.2.st = .dirty || e.2.st = .destaging) && !e.2.journaled

/-- SHIP_CLEAN_REPORT (R451). -/
def execShipCleanReport (s : State) : Host.Outcome State Fault Refusal :=
  act s (if s.pack.running && s.pack.st = .shipArmed && !s.life.inReset && !s.lehrOn && s.shipClean then s.shipOpen.dieCheck else s)

/-- SHIP_RECONNECT (R452). -/
def execShipReconnect (s : State) : Host.Outcome State Fault Refusal :=
  act s (match s.pack.vinGoodSince with
    | none => s
    | some t =>
      if !s.pack.running || s.pack.st ≠ .ship || s.now < t + 1000000 || !(s.pack.shipCancelled || s.pack.vinFell) then s
      else
        let s := (s.updPack fun p => { p with fetClosed := true, shipCancelled := false, counting := false }).emit (.fets true)
        s.toIdentify.dieEvent Ev.packShip 2 0 0)

/-! ### The host's pack commands (R445, R446, R449, R454, R640) -/

/-- PACK_REPLACED (R454, R640). -/
def execPackReplaced (acc : Nat) (s : State) : Host.Outcome State Fault Refusal :=
  act s (s.start acc 0xB0 anyForm fun c =>
    if s.pack.st = .notDeclared then s.finish c.acc St.packRefused 1
    else
      let old := s.pack.cLearned
      let st := s.pack.st
      let hold := s.pack.holdCause = some .overVolt || s.pack.holdCause = some .timer
      let s := (s.resetLearned).dieEvent Ev.packReplaced old s.pack.nominal 0
      let s := if st = .mismatch || (st = .chargeHold && hold) then s.packTo .identify else s
      s.finish c.acc St.success).run

/-- The reason PACK_LEARN is refused, 0 where it is not (R445, R640). -/
def State.learnRefusal (s : State) : Nat :=
  let p := s.pack
  if [PackSt.notDeclared, .absent, .shipArmed, .ship, .mismatch].contains p.st then 1
  else if p.learning then 2 else if p.w1 then 3 else if p.reading.temp > 400 then 4 else 0

/-- PACK_LEARN: a run is asked for, and starts at once where its rest point is held already (R445). -/
def execPackLearn (acc : Nat) (s : State) : Host.Outcome State Fault Refusal :=
  act s (s.start acc 0xB1 (fun e => !e.pbit 0 0) fun c =>
    if s.learnRefusal ≠ 0 then s.finish c.acc St.packRefused (w32 s.learnRefusal)
    else
      let s := s.setFlags fun p => { p with learnPending := true }
      let s := if s.pack.restInFull s.stateDie then s.learnStart else s
      s.finish c.acc St.success).run

/-- PACK_LEARN_ABORT: a pending or running run ends with result 3 (R446, R640). -/
def execPackLearnAbort (acc : Nat) (s : State) : Host.Outcome State Fault Refusal :=
  act s (s.start acc 0xB1 (fun e => e.pbit 0 0) fun c =>
    if !s.pack.learning then s.finish c.acc St.success 5
    else
      let running := s.pack.st = .learnDischarge || s.pack.st = .learnRest
      let s := s.learnEnds 3 0
      (if running then s.toCharge .cc else s).finish c.acc St.success).run

/-- SHIP_MODE_ARM: E_avail is zero at once (R449, R450). States from which R436 gives no way to SHIP_ARMED are refused; an armed
pack stays armed. -/
def execShipModeArm (acc : Nat) (s : State) : Host.Outcome State Fault Refusal :=
  act s (s.start acc 0xB2 (fun e => !e.pbit 0 0) fun c =>
    if s.pack.st = .shipArmed then s.finish c.acc St.success
    else if s.pack.st.code < 2 || s.pack.st.code > 10 then s.finish c.acc St.packRefused 1
    else
      let s := (s.learnAbort.packTo .shipArmed).dieEvent Ev.packShip 0 0 0
      let s := s.updPack fun p => { p with eAvailMj := 0 }
      let s := ({ s with link := { s.link with eAvailMj := 0 } }).energyChanged
      s.finish c.acc St.success).run

/-- SHIP_MODE_CANCEL (R449, R450, R452, R640). -/
def execShipModeCancel (acc : Nat) (s : State) : Host.Outcome State Fault Refusal :=
  act s (s.start acc 0xB2 (fun e => e.pbit 0 0) fun c =>
    match s.pack.st with
    | .shipArmed => (s.toIdentify.dieEvent Ev.packShip 3 0 0).finish c.acc St.success
    | .ship => ((s.updPack fun p => { p with shipCancelled := true }).dieEvent Ev.packShip 3 0 0).finish c.acc St.success
    | _ => s.finish c.acc St.success 1).run

end Sys2Proof.Machine
end

