-- ==== Sys2Proof/Machine/Governor.lean ====
section
/-! DEFINITION. The governor: block floating point, the loops, the profile generator, the budget split, its rows, and what
DEVICE_START does to it (R356 to R385). -/

namespace Sys2Proof.Machine

open Sys2Proof

/-! ### Exact numbers n × 2^e (R362) -/

/-- n × 2^e as the pair (n, e). -/
abbrev Dyadic := Int × Int

/-- Both with the lower exponent. -/
def Dyadic.pair (a b : Dyadic) : Int × Int × Int :=
  let e := min a.2 b.2
  (a.1 * 2 ^ (a.2 - e).toNat, b.1 * 2 ^ (b.2 - e).toNat, e)

def Dyadic.add (a b : Dyadic) : Dyadic := let (x, y, e) := a.pair b; (x + y, e)

def Dyadic.neg (a : Dyadic) : Dyadic := (-a.1, a.2)

def Dyadic.sub (a b : Dyadic) : Dyadic := Dyadic.add a (Dyadic.neg b)

def Dyadic.mul (a b : Dyadic) : Dyadic := (a.1 * b.1, a.2 + b.2)

def Dyadic.lt (a b : Dyadic) : Bool := let (x, y, _) := a.pair b; x < y

/-- The floor of a number. -/
def Dyadic.floor (a : Dyadic) : Int := if 0 ≤ a.2 then a.1 * 2 ^ a.2.toNat else a.1 / 2 ^ (-a.2).toNat

/-- rnd(z ÷ 2^E): to the nearest integer, halves away from zero (R362). -/
def Dyadic.round (a : Dyadic) (ex : Int) : Int :=
  let k := a.2 - ex
  if 0 ≤ k then a.1 * 2 ^ k.toNat
  else
    let d : Nat := 2 ^ (-k).toNat
    let q : Nat := (2 * a.1.natAbs + d) / (2 * d)
    if a.1 < 0 then -(q : Int) else q

/-- Does a mantissa fit 16 bits (R361)? -/
def fits16 (m : Int) : Bool := -32768 ≤ m && m ≤ 32767

/-- The nearer limit (R362). -/
def clip16 (m : Int) : Int := max (-32768) (min 32767 m)

/-! ### A loop's stages (R361 to R363) -/

/-- A loop in the course of a period's computation, with the events it raises: (code, stage, exponent). -/
structure LoopCalc where
  x : LoopSt
  evs : List (Nat × Nat × Int) := []
deriving DecidableEq, Repr

/-- E_F, E_P, E_O by stage number (R361). -/
def LoopSt.expOf (x : LoopSt) : Nat → Int
  | 0 => x.eF | 1 => x.eP | _ => x.eO

def LoopSt.setExp (x : LoopSt) (stage : Nat) (e : Int) : LoopSt :=
  match stage with
  | 0 => { x with eF := e } | 1 => { x with eP := e } | _ => { x with eO := e }

/-- The mantissas of a stage. -/
def LoopSt.mantissas (x : LoopSt) : Nat → List Int
  | 0 => [x.y, x.sp, x.err] | 1 => [x.pt, x.i, x.it, x.v] | _ => [x.u]

/-- Change the mantissas of a stage. -/
def LoopSt.mapStage (x : LoopSt) (stage : Nat) (f : Int → Int) : LoopSt :=
  match stage with
  | 0 => { x with y := f x.y, sp := f x.sp, err := f x.err }
  | 1 => { x with pt := f x.pt, i := f x.i, it := f x.it, v := f x.v }
  | _ => { x with u := f x.u }

/-- SAT_F, SAT_P, SAT_O (R362). -/
def LoopSt.saturate (x : LoopSt) : Nat → LoopSt
  | 0 => { x with satF := true } | 1 => { x with satP := true } | _ => { x with satO := true }

/-- The value of a stage's mantissa. -/
def LoopSt.value (x : LoopSt) (stage : Nat) (m : Int) : Dyadic := (m, x.expOf stage)

/-- store(S, z): the mantissa, with saturation (R362). -/
def LoopCalc.store (c : LoopCalc) (stage : Nat) (z : Dyadic) : Int × LoopCalc :=
  let e := c.x.expOf stage
  let m := Dyadic.round z e
  let x := { c.x with wide := c.x.wide ++ [(stage, z.1, z.2)] }
  if fits16 m then (m, { c with x := x })
  else (clip16 m, { x := x.saturate stage, evs := c.evs ++ [(Ev.govSaturation, stage, e)] })

/-- The smallest k ≥ 1 at which results fit exponent e + k, with fuel (R363). -/
def riseFor (zs : List Dyadic) (e : Int) : Nat → Nat → Nat
  | 0, k => k
  | n + 1, k => if zs.all fun z => fits16 (Dyadic.round z (e + k)) then k else riseFor zs e n (k + 1)

/-- Adjust the exponent of a stage at the start of a period (R363). -/
def LoopCalc.adjust (c : LoopCalc) (stage : Nat) : LoopCalc :=
  let e := c.x.expOf stage
  let zs : List Dyadic := (c.x.wide.filter fun w => w.1 = stage).map fun w => (w.2.1, w.2.2)
  if zs.any fun z => !fits16 (Dyadic.round z e) then
    let k := riseFor zs e 256 1
    let top := e + k > 31
    let k' : Nat := if top then (31 - e).toNat else k
    let x := (c.x.mapStage stage fun m => Dyadic.round (m, 0) k').setExp stage (e + k')
    if top then { x := { x with expLimit := true }, evs := c.evs ++ [(Ev.govExpLimit, stage, 0)] }
    else { c with x := x }
  else if (c.x.mantissas stage).all (fun m => -8192 ≤ m && m ≤ 8191) && -32 < e then
    { c with x := (c.x.mapStage stage (2 * ·)).setExp stage (e - 1) }
  else c

/-! ### Measurements and set-points (R364 to R367) -/

/-- The p99 estimate of R242 over histograms whose counts add up to at least `least`. -/
def p99 (hs : List Hist) (least : Nat) : Option Nat :=
  let count (k : Nat) : Nat := (hs.map fun h => Store.read h k 0).sum
  let sum := ((span 0 32).map count).sum
  if sum < least then none
  else (((span 0 32).find? fun k => 100 * ((span 0 (k + 1)).map count).sum ≥ 99 * sum).map fun k => latencyEdges.getD k 524288)

/-- ENABLE, MEAS_SEL, SP_SEL, POLARITY and FILTER_SHIFT of a slot (R384). -/
def LoopCfg.enabled (c : LoopCfg) : Bool := c.cfg.getLsbD 0

def LoopCfg.meas (c : LoopCfg) : Nat := field c.cfg.toNat 1 3

def LoopCfg.spSel (c : LoopCfg) : Nat := field c.cfg.toNat 4 2

def LoopCfg.polarity (c : LoopCfg) : Bool := c.cfg.getLsbD 6

def LoopCfg.shift (c : LoopCfg) : Nat := field c.cfg.toNat 8 3

/-- The set-point of a slot (R366, R367). -/
def Gov.setPoint (g : Gov) (c : LoopCfg) : Int :=
  let l := g.latched
  let sp : Int := match c.spSel with
    | 0 => c.spValue
    | 1 => if g.pulse.1 then l.wattsFail else l.wattsMin + ((l.wattsMax : Int) - l.wattsMin) * g.pulse.2 / 1024
    | _ => g.rate / 256
  if c.meas = 1 && g.learnCap then min sp 110000 else sp

/-- The sample of a slot: a measurement that cannot be sampled holds its own previous sample, with STALE (R365). -/
def Gov.sampleOf (g : Gov) (c : LoopCfg) : Int × Bool :=
  match g.samples.getD c.meas none with
  | some v => (v, false)
  | none => (g.held.getD c.meas 0, true)

/-! ### One period of a loop (R370, R371, R380) -/

/-- min(max(v, out_min), out_max) (R370, R371). -/
def LoopCfg.clamp (c : LoopCfg) (v : Dyadic) : Dyadic :=
  let lo : Dyadic := (c.outMin, 0)
  let hi : Dyadic := (c.outMax, 0)
  let v := if Dyadic.lt v lo then lo else v
  if Dyadic.lt hi v then hi else v

/-- The smallest exponent at which the mantissas of a stage all fit: −32 where its values are all zero (R380). -/
def smallestExp (at_ : Int → List Int) : Int :=
  (((span 0 64).map fun (k : Nat) => (k : Int) - 32).find? fun e => (at_ e).all fits16).getD 31

/-- The mantissas of Y, SP and ERR of a loop's first period at an exponent: ERR is taken from Y and SP as stored (R362, R380). -/
def LoopCfg.firstF (c : LoopCfg) (smp sp e : Int) : List Int :=
  let y := Dyadic.round (smp, 0) e
  let p := Dyadic.round (sp, 0) e
  [y, p, if c.polarity then y - p else p - y]

/-- The mantissas of PT, I and V of a loop's first period at an exponent: I is taken from PT as stored (R362, R380). -/
def LoopCfg.firstP (c : LoopCfg) (err : Dyadic) (budget : Nat) (e : Int) : List Int :=
  let pt := Dyadic.round (Dyadic.mul (c.kpM, c.kpE) err) e
  [pt, Dyadic.round (Dyadic.sub (budget, 0) (pt, e)) e, Dyadic.round (budget, 0) e]

/-- The first period of a loop, from the budget in force: every value is computed from those stored before it, and stored like those of
any period, so that one that fits no exponent saturates (R362, R380). -/
def Gov.initLoop (g : Gov) (c : LoopCfg) (x : LoopSt) : LoopCalc :=
  let (smp, stale) := g.sampleOf c
  let sp := g.setPoint c
  let k : LoopCalc := ⟨{ x with init := true, x := smp, stale := stale, eF := smallestExp (c.firstF smp sp), wide := [] }, []⟩
  let (y, k) := k.store 0 (smp, 0)
  let (p, k) := k.store 0 (sp, 0)
  let (e, k) := k.store 0 (k.x.value 0 (if c.polarity then y - p else p - y))
  let err := k.x.value 0 e
  let k := { k with x := { k.x with y := y, sp := p, err := e, eP := smallestExp (c.firstP err g.budget) } }
  let (pt, k) := k.store 1 (Dyadic.mul (c.kpM, c.kpE) err)
  let (i, k) := k.store 1 (Dyadic.sub (g.budget, 0) (k.x.value 1 pt))
  let (v, k) := k.store 1 (g.budget, 0)
  let u := c.clamp (k.x.value 1 v)
  let k := { k with x := { k.x with pt := pt, i := i, it := i, v := v, eO := smallestExp fun e => [Dyadic.round u e] } }
  let (m, k) := k.store 2 u
  { k with x := { k.x with u := m } }

/-- The steps of R370 after the adjustment of R363. -/
def Gov.stepLoop (g : Gov) (c : LoopCfg) (x : LoopSt) : LoopCalc :=
  let (smp, stale) := g.sampleOf c
  let k := ((LoopCalc.mk x []).adjust 0).adjust 1 |>.adjust 2
  let k := { k with x := { k.x with wide := [], x := smp, stale := stale } }
  let y : Dyadic := k.x.value 0 k.x.y
  let d := Dyadic.sub (smp, 0) y
  let (m, k) := k.store 0 (Dyadic.add y (d.1, d.2 - (c.shift : Int)))
  let k := { k with x := { k.x with y := m } }
  let (m, k) := k.store 0 (g.setPoint c, 0)
  let k := { k with x := { k.x with sp := m } }
  let e : Int := if c.polarity then k.x.y - k.x.sp else k.x.sp - k.x.y
  let (m, k) := k.store 0 (k.x.value 0 e)
  let k := { k with x := { k.x with err := m } }
  let err := k.x.value 0 k.x.err
  let (m, k) := k.store 1 (Dyadic.mul (c.kpM, c.kpE) err)
  let k := { k with x := { k.x with pt := m } }
  let (m, k) := k.store 1 (Dyadic.add (k.x.value 1 k.x.i) (Dyadic.mul (c.kiM, c.kiE) err))
  let k := { k with x := { k.x with it := m } }
  let (m, k) := k.store 1 (k.x.value 1 (k.x.pt + k.x.it))
  let k := { k with x := { k.x with v := m } }
  let (m, k) := k.store 2 (c.clamp (k.x.value 1 k.x.v))
  { k with x := { k.x with u := m } }

/-- A loop that is initialised, or goes on (R370, R380). -/
def Gov.runLoop (g : Gov) (c : LoopCfg) (x : LoopSt) : LoopCalc :=
  if !c.enabled then ⟨x, []⟩ else if x.init then g.stepLoop c x else g.initLoop c x

/-! ### The winner, the profile generator, the split (R372 to R377) -/

/-- The winner and its value: the profile generator is 8 (R372). -/
def winnerOf (l : GovLive) (rate : Int) (xs : List LoopSt) : Nat × Dyadic :=
  let cands := (xs.zipIdx.filter fun e => (l.loops.getD e.2 {}).enabled).map fun e => (e.2, e.1.value 2 e.1.u)
  let all : List (Nat × Dyadic) := (if l.profInMin || cands.isEmpty then [(8, (rate, -8))] else []) ++ cands
  all.tail.foldl (fun w c => if Dyadic.lt c.2 w.2 then c else w) (all.headD (8, (rate, -8)))

/-- Does the winner commit its integrator (R373)? -/
def LoopSt.commits (x : LoopSt) (c : LoopCfg) : Bool :=
  let v := x.value 1 x.v
  !((Dyadic.lt v (c.outMin, 0) && x.it < x.i) || (Dyadic.lt (c.outMax, 0) v && x.it > x.i))

/-- A rate or slope as the signed 32-bit integer that R374 holds: what one outside that range becomes, no rule says (DESIGN CHOICE 24). -/
def rate32 (z : Int) : Int :=
  if -2147483648 ≤ z && z ≤ 2147483647 then z else (BitVec.ofInt 32 (Config.openValue 0x374 z.natAbs)).toInt

/-- One step of the profile generator: the new rate and slope; no slope of a step is steeper than PROF_ACCEL (R374, R375). -/
def profileStep (l : GovLive) (q s : Int) : Int × Int :=
  let v : Int := 256 * l.profVmax
  let a : Int := l.profAccel
  let j : Int := max l.profJerk 1
  let goal := min (256 * (l.profTarget : Int)) v
  let d := goal - q
  let (q, s) :=
    if d = 0 then (q, 0)
    else
      let dir : Int := if d > 0 then 1 else -1
      let n : Int := s.natAbs
      let brake := n * (n + j) / (2 * j)
      let s := if s * dir > 0 && brake ≥ d.natAbs then max (-a) (min a (s - (if s > 0 then 1 else -1) * min j n))
               else max (-a) (min a (s + dir * j))
      let q := q + s
      if (dir > 0 && q > goal) || (dir < 0 && q < goal) then (goal, 0) else (q, s)
  let (q, s) := if q > v then (v, min s 0) else (q, s)
  let (q, s) := if q < 0 then (0, max s 0) else (q, s)
  (rate32 q, rate32 s)

/-- Does a class have work waiting for allowance or in progress (R376)? What a pause holds back, or waits for a slot, a new set or the
next try of a halted stripe, or runs outside the governor, waits for no allowance (R319, R323, R336, R352, R413), nor does a foreign
pool's work, but stripes in flight go on. The classes are 0 REBUILD, 1 COPYBACK, 2 SCRUB,
3 VAULT_GC, 4 VAULT_PATROL, 5 DESTAGE_AHEAD. -/
def State.classActive (s : State) (cls : Nat) : Bool :=
  let own (r : Nat) : Bool := match s.pools.look (s.region r).pool with | some x => !x.foreign_ | none => false
  let runs (r : Nat) : Bool := own r && (match s.pools.look (s.region r).pool with | some x => !x.paused | none => false)
  s.tasks.any (fun t => t.2.cls = some cls) || match cls with
  | 0 => s.work.any fun e => (e.2.place || (e.2.queued && !(s.haltedNow e.1) && s.maySeek e.1)) && runs e.1
  | 1 => s.usedRegions.any fun r => ((s.region r).st = .relocating && runs r && !s.haltedNow r
      && !((s.region r).replacePending && (s.workOf r).replace.isNone)) || (own r && s.owesMove r)
  | 2 => s.pools.any (fun p => p.2.scrubAt.isSome && !p.2.foreign_) || s.regions.any (fun e => e.2.checkPending && own e.1)
      || (s.testRegions && !s.mgmt.selfTest.left.isEmpty)
  | 3 => s.vault.copies.any (fun c => !c.2.patrol && !c.2.outside) || !s.vault.retireDue.isEmpty
      || (s.vault.mounted && ((s.wearDue && s.wearPick.isSome) || s.gcWaits))
  | 4 => (match s.mgmt.selfTest.ckpt with | some (_, l) => !l.isEmpty | none => false) || s.vault.patrol.isSome || !s.vault.refreshDue.isEmpty || s.vault.copies.any fun c => c.2.patrol
  | _ => s.dirtyStripes.any fun d => !s.isFgDestage d

/-- Split the budget among the active classes and renew their allowances (R376, R377). -/
def State.splitBudget (s : State) : State :=
  let g := s.gov
  let active := (span 0 6).map s.classActive
  let ws := g.latched.weights
  let w := ((span 0 6).map fun c => if active.getD c false then ws.getD c 0 else 0).sum
  let shares := (span 0 6).map fun c =>
    if active.getD c false && w ≠ 0 then g.budget * ws.getD c 0 / w else 0
  let allowance := (span 0 6).map fun c => min (g.allowance.getD c 0) 0 + ((shares.getD c 0 * g.period : Nat) : Int)
  { s with gov := { g with active := active, shares := shares, allowance := allowance } }

/-! ### The rows -/

/-- Does the governor's island work? -/
def State.govUp (s : State) : Bool := s.gov.running && !s.life.inReset && !s.lehrOn && (s.island 250).status = 0

/-- Does a member count in the mean queue depth (R364)? -/
def Member.counted (m : Member) : Bool := m.st = .online || m.st = .slow || m.st = .suspect || m.st = .replacing

/-- Commands outstanding on the members that count in the mean queue depth (R364). -/
def State.queued (s : State) : Nat :=
  ((s.members.filter fun m => m.2.counted).map fun m => (s.port m.1).reqs.countP fun r => r.2.submittedAt.isSome).sum

/-- 1 µs of the block's time passes; the commands outstanding on members add up for the mean queue depth (R364, DESIGN CHOICE 2). -/
def State.tick (s : State) : State :=
  { s with now := s.now + 1, gov := { s.gov with depth := (s.gov.depth.1 + s.queued, s.gov.depth.2 + 1) } }

/-- The mean queue depth since the last sample in 1/16 command: the time average over the members that count, zero without one; over no
time at all it is zero too (R364, DESIGN CHOICE 24). -/
def State.meanDepth (s : State) : Nat :=
  16 * s.gov.depth.1 / (s.gov.depth.2 * s.members.countP fun m => m.2.counted)

/-- The latest sample instant at or before a time: instants lie whole periods after the first (R357). -/
def Gov.instant (g : Gov) (now : Nat) : Nat :=
  match g.sampledAt with
  | some t => t + (now - t) / g.period * g.period
  | none => now

/-- Take the samples of a period (R364, R368); what cannot be sampled is none, and the measurement's own previous sample is held (R365). -/
def State.govSample (s : State) (i : GovInputs) : State :=
  let g := s.gov
  let good := i.pulses.filter fun p => 900 ≤ p.2
  let t := (good.map (·.2)).sum
  let duty := if t = 0 then g.duty else (2 * 1024 * (good.map (·.1)).sum + t) / (2 * t)
  let samples : List (Option Int) :=
    [(p99 g.latency 100).map fun v => (v : Int),
     if s.link.valid then some s.link.inputMw else none,
     some i.temp,
     some ((min 1024 (i.hbmBytes * 1024 / (1638400 * g.period)) : Nat) : Int),
     some (s.meanDepth : Int),
     some s.freeCount,
     if g.lost then none else some duty]
  let learn := s.link.learning
  { s with gov := { g with
      samples := samples, held := (samples.zip g.held).map fun e => e.1.getD e.2, depth := (0, 0), duty := duty, pulse := (g.lost, duty), fastBit := g.fastBit || good.length < i.pulses.length,
      latency := [] :: g.latency.take 15, learnCap := learn || g.learnSeen, learnSeen := learn,
      sampledAt := some (g.instant s.now), computing := true, computed := false } }

/-- GOV_SAMPLE_INSTANT, for the latest instant that lies in the past: the budget computed in the previous period is applied and split, the fields are latched, the samples
taken; a computation that is not complete is discarded (R358 to R360). -/
def execGovSampleInstant (inputs : GovInputs) (s : State) : Host.Outcome State Fault Refusal :=
  act s (
    let due := match s.gov.sampledAt with | some t => s.now ≥ t + s.gov.period | none => true
    if !s.govUp || !due then s
    else
      let s :=
        if s.gov.computing then
          let g := s.gov
          ({ s with gov := { g with overruns := min 65535 (g.overruns + 1) } }).event Ev.govOverrun 0 g.periodCount.toNat g.period 0
        else if s.gov.computed then
          { s with gov := { s.gov with budget := s.gov.budgetNext, winner := s.gov.winnerNext } }
        else s
      let s := s.splitBudget.starveNote
      let s := { s with gov := { s.gov with latched := s.gov.live } }
      (s.govSample inputs).run)

/-- GOV_COMPUTATION_DONE: the period's computation is committed, or discarded whole where the next sample instant has passed (R360, R363,
R370 to R374, R380). -/
def execGovComputationDone (s : State) : Host.Outcome State Fault Refusal :=
  act s (if !s.govUp || !s.gov.computing then s
    else if s.gov.sampledAt.any fun t => t + s.gov.period ≤ s.now then
      ({ s with gov := { s.gov with overruns := min 65535 (s.gov.overruns + 1), computing := false } }).event Ev.govOverrun 0
        s.gov.periodCount.toNat s.gov.period 0
    else
      let g := s.gov
      let calcs := (g.loops.zipIdx).map fun e => (e.2, g.runLoop (g.latched.loops.getD e.2 {}) e.1)
      let s := s.over calcs fun s c => s.over c.2.evs fun s ev => s.event ev.1 c.1 c.1 ev.2.1 (signedField 32 ev.2.2)
      let xs := calcs.map fun c => c.2.x
      let (w, v) := winnerOf g.latched g.rate xs
      let xs := (xs.zipIdx).map fun e =>
        let c := g.latched.loops.getD e.2 {}
        let first := !(g.loops.getD e.2 {}).init
        let x := if e.2 = w && !first && e.1.commits c then { e.1 with i := e.1.it } else e.1
        -- a loop whose LOOP_CFG has changed since is initialised under its new one (R379)
        if (g.live.loops.getD e.2 {}).cfg = c.cfg then x else { x with init := false }
      let (q, sl) := profileStep g.latched g.rate g.slope
      { s with gov := { s.gov with
          loops := xs, rate := q, slope := sl, computing := false, computed := true, winnerNext := w,
          budgetNext := (max 0 (Dyadic.floor v)).toNat, periodCount := g.periodCount + 1 } })

/-- PWM_INPUT_LOST: PWR_CAP_PWM low for 2 ms (R368). -/
def execPwmInputLost (s : State) : Host.Outcome State Fault Refusal :=
  act s (if s.life.inReset || s.gov.lost then s
    else ({ s with gov := { s.gov with lost := true, lostBit := true } }).event Ev.govPwm 0 0 s.gov.duty 0)

/-- A lost input is restored (R368). -/
def State.pwmRestored (s : State) : State :=
  if s.gov.lost then ({ s with gov := { s.gov with lost := false } }).event Ev.govPwm 0 1 s.gov.duty 0 else s

/-- PWM_STEADY_HIGH: k = 1,024, and a lost input is restored (R368). -/
def execPwmSteadyHigh (s : State) : Host.Outcome State Fault Refusal :=
  act s (if s.life.inReset then s else ({ s with gov := { s.gov with duty := 1024 } }).pwmRestored)

/-- PWM_INPUT_RESTORED: a complete period of 9 µs or more (R368). -/
def execPwmInputRestored (high period : Nat) (s : State) : Host.Outcome State Fault Refusal :=
  act s (if s.life.inReset || period < 900 || period < high then s else s.pwmRestored)

/-- OVERRUNS_READ: a read of the word that holds the RC field OVERRUNS; one of 8 bytes takes the count of periods above it in the same
step (R383, R717). -/
def execOverrunsRead (read : RcRead) (s : State) : Host.Outcome State Fault Refusal :=
  let above := if read.wide then s.gov.periodCount.toNat * 2 ^ 32 else 0
  act s (s.mmio read.fn true (if read.fn.num ≠ 0 then s else ({ s with gov := { s.gov with overruns := 0 } }).emit
      (.registerRead read.fn (BitVec.ofNat 64 (s.gov.winner + s.gov.overruns * 2 ^ 16 + above)))))

/-! ### Start and structure (R379, R381, R382) -/

/-- The governor starts: the next sample instant is due at once, with budget, rate and slope 0 and every loop to initialise
(R381). -/
def State.govStart (s : State) : State :=
  let g := s.gov
  { s with gov := { g with
      running := true, depth := (0, 0), budget := 0, winner := 15, budgetNext := 0, winnerNext := 15, rate := 0, slope := 0, computed := false,
      computing := false, sampledAt := none, periodCount := 0, shares := [0, 0, 0, 0, 0, 0],
      allowance := g.allowance.map (min 0), loops := g.loops.map fun x => { x with init := false } } }

/-- DEVICE_START applies a staged structure (R379). -/
def State.govStructure (s : State) (period : Nat) (cfgs : List Word) : State :=
  let g := s.gov
  let all := period ≠ g.period
  let changed := (span 0 8).filter fun j => all || (g.live.loops.getD j {}).cfg ≠ cfgs.getD j 0
  if changed.isEmpty then s
  else
    let live := { g.live with loops := (g.live.loops.zipIdx).map fun e => { e.1 with cfg := cfgs.getD e.2 0 } }
    let loops := (g.loops.zipIdx).map fun e => if changed.contains e.2 then { e.1 with init := false } else e.1
    let s := { s with gov := { g with
      period := period, live := live, loops := loops, sampledAt := if all then none else g.sampledAt,
      computing := g.computing && !all } }
    s.event Ev.govConfig 0 ((changed.map (2 ^ ·)).sum) period 0

/-- DEVICE_START saves every field (R382). -/
def State.govSave (s : State) : State := { s with gov := { s.gov with saved := some (s.gov.period, s.gov.live) } }

/-- Start-up restores what the most recent DEVICE_START saved; without it the fields take their reset values (R382). -/
def State.govRestore (s : State) : State :=
  let g := s.gov
  let (p, l) := g.saved.getD (100, {})
  { s with gov := { saved := g.saved, period := p, live := l, latched := l } }

end Sys2Proof.Machine
end

