-- ==== Sys2Proof/Machine/Drives.lean ====
section
/-! DEFINITION. The drive ports: completions, timeouts, controller resets, links, counters and hedging (R240 to R256, R271 to
R295, R308 to R312). -/

namespace Sys2Proof.Machine

open Sys2Proof

def State.updPort (s : State) (p : Nat) (f : Port → Port) : State := s.setPort p (f (s.port p))

/-- Is the drive of a port a member in service (R311)? -/
def State.memberLive (s : State) (p : Nat) : Bool := !s.memberGone p

/-- Count on the membership of a port (R311). -/
def State.countMember (s : State) (p : Nat) (f : Member → Member) : State :=
  if s.memberLive p then { s with members := s.members.upd p f } else s

/-- A member enters SUSPECT, and its evacuation begins, or is over at once (R99, R341). -/
def State.suspect (s : State) (p : Nat) : State :=
  match s.members.look p with
  | none => s
  | some m =>
    if m.st ≠ .online && m.st ≠ .slow then s
    else
      let s := { s with members := s.members.upd p fun m => { m with moved := 0, movedSince := s.now, evacDone := false } }
      let s := s.memberTo p .suspect
      -- a re-placement whose new set holds the drive starts again (R336)
      let s := s.over (s.work.filter fun e => match e.2.replace with | some n => (bitsOf n.bitmap).contains p | none => false)
        fun s e => s.replaceAgain e.1
      s.evacuationCheck p

/-- A critical warning of a drive (R293). -/
def State.criticalWarning (s : State) (p : Nat) : State := s.suspect p

/-! ### Bring-up and controller resets (R276, R277, R289 to R291, R295) -/

/-- An admin command goes to the drive, and its 30 s begin (R289). -/
def State.adminSend (s : State) (p : Nat) (op : AdminOp) : State := s.updPort p fun x => { x with admin := x.admin ++ [(op, s.now)] }

/-- The entries of a drive's admin queue pair (R276): one slot stays free, so one command less may be outstanding. -/
def adminEntries : Nat := 32

/-- Is a drive's admin queue full? -/
def Port.adminFull (x : Port) : Bool := x.admin.length ≥ adminEntries - 1

/-- An admin command has completed. -/
def State.adminDone (s : State) (p : Nat) (op : AdminOp) : State := s.updPort p fun x => { x with admin := x.admin.filter fun a => a.1 ≠ op }

/-- The I/O queue pairs as they are created: queue, depth and MSI-X vector, and where the drive offers weighted round robin the class's
priority with the weights 32 and 1 (R282, R283). -/
def State.queueSetup (s : State) (p : Nat) : State :=
  let x := s.port p
  let wrr := match x.info with | some i => i.wrr | none => false
  let (q, e) := x.queues
  let s := if wrr then s.emit (.driveWeights p 32 1) else s
  s.over (span 1 q) fun s k => s.emit (.driveQueue p k e (x.vectorOf k) (if wrr then some ((x.queuesOf true).contains k) else none))

/-- The next step of a bring-up (R276): CC.EN = 1 waits for CSTS.RDY, the others are admin commands. Step 7 registers the reservation
key and sets the extended host identifier (R308). -/
def State.adminStep (s : State) (p step : Nat) : State :=
  let s := s.updPort p fun x => { x with ctl := .bringUp step, rdySince := if step = 1 then s.now else x.rdySince,
                                         admin := x.admin.filter fun a => a.1 ≠ .bringUp }
  let s := if step = 1 then s else s.adminSend p .bringUp
  let s := if step = 1 then s.emit (.driveAdminQueue p adminEntries) else s
  let s := s.emit (.driveAdmin p step)
  if step = 5 then s.queueSetup p
  else if step = 7 then s.emit (.driveRegister p (Config.identity.setWidth 128) ownKey)
  else s

/-- The end of a reset: counted and recorded whether or not it succeeds (R291, R312). The event's table has no reason for a reset under R658:
the reason is then a free value (DESIGN CHOICE 48). -/
def State.resetEnds (s : State) (p : Nat) (ok : Bool) : State :=
  match (s.port p).resetWhy with
  | none => s
  | some w =>
    let code := match w with
      | .quarantine => 0
      | .adminTimeout => 1
      | .linkReturn => 2
      | .queueState => (Config.openValue 0x5007 p).toNat % 2 ^ 32
    let s := s.updPort p fun x => { x with resetWhy := none }
    (s.countMember p fun m => { m with controllerResets := sat32 m.controllerResets }).event Ev.controllerReset p p code (b2n ok)

/-- A controller fatal status: the member enters FAILED (R291, R292). -/
def State.controllerFatal (s : State) (p : Nat) : State :=
  let s := s.resetEnds p false
  let s := s.updPort p fun x => { x with ctl := .failed, admin := [], poweringOn := false }
  if s.memberLive p then s.failMember p 5 false else s

/-- Start a controller reset: CC.EN = 0 (R289, R290). -/
def State.resetController (s : State) (p : Nat) (why : ResetWhy) : State :=
  if (s.port p).resetWhy.isSome then s.controllerFatal p
  else
    (s.updPort p fun x => { x with ctl := .disabling, resetWhy := some why, rdySince := s.now, admin := [] }).emit (.driveAdmin p 0)

/-- Release every quarantined command with its identifier and buffer, which the request itself stands for (R287, R290, R295). -/
def State.dropQuarantine (s : State) (p : Nat) : State :=
  s.updPort p fun x => { x with reqs := x.reqs.keep fun _ r => r.quarantined.isNone, aborts := [] }

/-- Reissue, in their original order, the commands that were outstanding, then issue what waits (R290); the order is that of arrival
(DESIGN CHOICE 54). -/
def State.reissueAll (s : State) (p : Nat) : State :=
  let ids := ((s.port p).reqs.filter fun e => e.2.submittedAt.isSome).map (·.1)
  let s := s.updPort p fun x => { x with reqs := x.reqs.each fun _ r => { r with submittedAt := none, slot := none, softCounted := false } }
  (State.pumpClass p ids s).pumpPort p

/-- The drive cannot be used (R273, R277). Within a reset that is the reset's failure (R291, DEDUCED 48). -/
def State.driveUnusable (s : State) (p why : Nat) : State :=
  let within := (s.port p).resetWhy.isSome
  let s := if within then s.resetEnds p false else s
  let s := (s.updPort p fun x => { x with ctl := .unused, unusable := true, poweringOn := false, admin := [] }).event Ev.driveUnusable p p why 0
  if within && s.memberLive p then s.failMember p 5 false else s

/-- Ask for the reservation's holder, where a Preempt is owed, the controller is ready and the admin queue has room (R276, R309). -/
def State.askHolder (s : State) (p : Nat) : State :=
  let x := s.port p
  if x.preempting && x.linkUp && x.ctl = .ready && !x.adminFull && !x.admin.any (fun a => a.1 = .report) then
    (s.adminSend p .report).emit (.driveReport p)
  else s

/-- Identify Controller for a self-test that still waits for the member's answer, where the controller is ready and the admin queue has
room (R276, R635). -/
def State.askIdentify (s : State) (p : Nat) : State :=
  let x := s.port p
  if s.mgmt.selfTest.status = 1 && s.mgmt.selfTest.asks.contains p && x.linkUp && x.ctl = .ready && !x.adminFull
      && !x.admin.any (fun a => a.1 = .identify) then
    (s.adminSend p .identify).emit (.driveAdmin p 2)
  else s

/-- Take the reservation of a drive by Preempt: the holder's key is read first, once the drive is up (R309). -/
def State.preempt (s : State) (p : Nat) : State :=
  (s.updPort p fun x => { x with preempting := true }).askHolder p

/-- The Reservation Report has come: the Preempt names the holder's key, and the drive settles (R309, R519). A drive that nobody
holds is acquired; one whose DRAINED bit has come does not settle. -/
def State.holderRead (s : State) (p : Nat) (key : Option (BitVec 64)) : State :=
  if !(s.port p).preempting then s
  else
    let s := (s.adminDone p .report).updPort p fun x => { x with preempting := false, reserved := true, settle := if x.drained then none else some s.now }
    s.emit (.driveAcquire p 1 ownKey key)

/-- The controller is up: a reservation of type 1 is held on a member of an active module (R308); during a take-over, and where a Preempt
was owed before a reset or a link loss, it is preempted, and the drive settles (R309, R516, R519). -/
def State.controllerUp (s : State) (p : Nat) : State :=
  let res := match (s.port p).info with | some i => i.reservations | none => false
  -- the first step of a take-over takes every drive that is present (R516)
  let holds := res && (s.memberLive p || s.life.takeover.isSome) && s.life.st ≠ .standby && s.life.st ≠ .fenced
  let take := holds && (s.life.takeover.isSome || (s.port p).preempting)
  let s := s.updPort p fun x => { x with ctl := .ready, poweringOn := false, preempting := false, reserved := holds && !take, pollAt := s.now,
                                         admin := x.admin.filter fun a => a.1 ≠ .bringUp }
  let s := if take then s.preempt p else if holds then s.emit (.driveAcquire p 1 ownKey none) else s
  ((s.resetEnds p true).reissueAll p).askIdentify p

/-- A member has answered Identify Controller for a self-test; one that refuses it fails the test, which names its port (R635, R636). -/
def State.identified (s : State) (p : Nat) (ok : Bool) : State :=
  let s := s.adminDone p .identify
  if ok then (s.updTest fun t => { t with asks := t.asks.filter (· ≠ p) }).askHolder p
  else (s.updTest fun t => { t with failedIsland := p }).selfTestEnds 3

/-- A bring-up step has completed (R276, R277, R291): the reservation is registered only on a drive that supports reservations (R308). -/
def State.adminReply (s : State) (p : Nat) (ok : Bool) (info : DriveInfo) : State :=
  match (s.port p).ctl with
  | .bringUp step =>
    if !ok then s.controllerFatal p
    else
      let s := s.updPort p fun x => { x with info := some info }
      if step = 3 && !info.hasNs1 then s.driveUnusable p 1
      else if step = 3 && (info.metadata || (info.lbaSize ≠ 512 && info.lbaSize ≠ 4096)) then s.driveUnusable p 2
      else if step ≥ 7 || (step = 6 && !info.reservations) then s.controllerUp p
      else s.adminStep p (step + 1)
  | _ => s

/-- Send an Abort while the drive's limit and the admin queue allow; the rest wait (R276, R286, R287). -/
def State.sendAborts (s : State) (p : Nat) : State :=
  let x := s.port p
  let limit := match x.info with | some i => i.abortLimit + 1 | none => 1
  let out := (x.admin.filter fun a => match a.1 with | .abort _ => true | _ => false).length
  s.over (x.aborts.take (min (limit - out) (adminEntries - 1 - x.admin.length))) fun s id =>
    match (s.port p).reqs.look id with
    | none => s.updPort p fun x => { x with aborts := x.aborts.filter (· ≠ id) }
    | some r =>
      let s := (s.updPort p fun x => { x with aborts := x.aborts.filter (· ≠ id) }).adminSend p (.abort id)
      (s.emit (.driveAbort p r.slotNo.1 r.slotNo.2)).countMember p fun m => { m with abortsSent := sat32 m.abortsSent }

/-- The admin queue has room again: what waits for it goes out. -/
def State.adminFreed (s : State) (p : Nat) : State := ((s.askHolder p).sendAborts p).askIdentify p

/-- An Abort has completed; its result changes nothing in the quarantine, and one that waited goes out (R287). -/
def State.abortDone (s : State) (p id : Nat) : State := (s.adminDone p (.abort id)).adminFreed p

/-! ### Completions (R279, R288, R292, R293, R310) -/

/-- Count a media error: half the threshold makes the member SUSPECT, the threshold FAILED (R99, R292, R293). -/
def State.mediaError (s : State) (p : Nat) : State :=
  match s.members.look p with
  | none => s
  | some m =>
    if s.memberGone p then s
    else
      let times := (m.mediaTimes.filter fun t => s.now < t + dayUs) ++ [s.now]
      let s := { s with members := s.members.put p { m with mediaErrors := sat32 m.mediaErrors, mediaTimes := times } }
      let limit := match s.pools.look m.pool with | some x => x.mediaThreshold | none => 32
      if times.length ≥ limit then s.later (.fail p 4 false)
      else if times.length ≥ (limit + 1) / 2 then s.suspect p
      else s

/-- Count the latency of a foreground member read in the histograms of its pool and member and in the rolling series (R240 to
R242, R693). -/
def State.countRead (s : State) (p us : Nat) : State :=
  match s.members.look p with
  | none => s
  | some m =>
    let bin := latencyBin us
    let bump (h : List Hist) : List Hist := match h with | x :: t => x.bump bin :: t | [] => [Hist.bump [] bin]
    let s := { s with
      members := s.members.put p { m with hist := bump m.hist },
      pools := s.pools.upd m.pool fun x => { x with hist := bump x.hist, readsNow := x.readsNow + 1 } }
    let k := (2 + m.pool) * 32 + bin
    let r := s.recorder
    ({ s with recorder := { r with minute := r.minute.put k (r.minute.read k 0 + 1) } }).extreme (2 + m.pool) us m.pool

/-- The words that a port finds in error in what a member read brings, each counted and recorded by its island (R646 to R648). -/
def State.portWords (s : State) (p : Nat) (data : List SegData) : State :=
  s.over (data.flatMap fun d => d.words) fun s w => match checkWord w.2 with
    | .good => s
    | .corrected => s.wordFixed p 0
    | .uncorrectable => s.wordBad p 0

/-- A completion for an I/O command (R279, R288, R310). -/
def State.ioReply (s : State) (p id : Nat) (status : DriveStatus) (data : List SegData) : State :=
  let x := s.port p
  match x.reqs.look id with
  | none => s
  | some r =>
    match r.submittedAt, r.quarantined with
    | none, _ => s
    | some _, some since =>
      let (q, c) := r.slotNo
      let s := s.updPort p fun x => { x with reqs := x.reqs.del id, aborts := x.aborts.filter (· ≠ id) }
      let s := s.countMember p fun m => { m with lateCompletions := sat32 m.lateCompletions }
      (s.event Ev.lateCompletion p p (c + q * 2 ^ 16) ((s.now - since) / 1000)).pumpPort p
    | some t, none =>
      match status with
      | .reservationConflict holder =>
        let s := s.updPort p fun x => { x with reqs := x.reqs.put id { r with submittedAt := none, slot := none } }
        (s.event Ev.reservationLost p p (holder.toNat % 2 ^ 32) (holder.toNat / 2 ^ 32)).fence .conflict
      | _ =>
        let s := s.updPort p fun x => { x with reqs := x.reqs.del id }
        let (res, s) : ReqResult × State := match status with
          | .success =>
            let s := if r.write then s else s.portWords p data
            (.ok (data.map segContent), if r.counted && !r.write then s.countRead p (s.now - t) else s)
          | .mediaError => (.media, s.mediaError p)
          | _ => (.other, s)
        (s.later (.reqDone p id r res)).pumpPort p

/-- The health log that was asked for has arrived: a critical warning is handled as one (R276, R293). -/
def State.healthRead (s : State) (port : Nat) (critical : Bool) : State :=
  let s := (s.adminDone port .health).adminFreed port
  (if critical then s.criticalWarning port else s).run

/-- DRIVE_COMPLETION: in a fence pass completions are reaped and discarded (R514). -/
def execDriveCompletion (port : Nat) (reply : DriveReply) (s : State) : Host.Outcome State Fault Refusal :=
  act s (
    let x := s.port port
    match reply with
    | .io id status data =>
      if s.life.inReset || !x.linkUp then s
      else if s.lehrOn then
        if s.life.fenceDrain.isSome then (s.updPort port fun x => { x with reqs := x.reqs.del id }).fencePort port else s
      else if x.ctl = .ready || x.ctl = .disabling then (s.ioReply port id status data).run else s
    | .admin ok info =>
      if s.live && x.linkUp && x.ctl = .ready && x.admin.any (fun a => a.1 = .identify) then ((s.identified port ok).adminFreed port).run
      else if s.live && x.linkUp then (s.adminReply port ok info).run
      else if !s.life.inReset && x.linkUp && s.life.fenceDrain.isSome then s.fenceReleased port ok else s
    | .health critical =>
      if s.live && x.linkUp && x.admin.any (fun a => a.1 = .health) then s.healthRead port critical else s
    | .aborted req =>
      if s.live && x.linkUp && x.admin.any (fun a => a.1 = .abort req) then s.abortDone port req else s
    | .holder key =>
      if s.live && x.linkUp && x.admin.any (fun a => a.1 = .report) then (s.holderRead port key).run else s)

/-! ### Timeouts (R284 to R289) -/

/-- SOFT_TIMEOUT: a command other than a read passes 1 s (R312). -/
def execSoftTimeout (port : Nat) (req : Nat) (s : State) : Host.Outcome State Fault Refusal :=
  act s (match (s.port port).reqs.look req with
    | none => s
    | some r => match r.submittedAt with
      | none => s
      | some t =>
        if !s.live || !r.write || r.softCounted || r.quarantined.isSome || !(s.port port).canIssue || s.now < t + 1000000 then s
        else
          let s := s.updPort port fun x => { x with reqs := x.reqs.put req { r with softCounted := true } }
          let s := s.countMember port fun m => { m with softTimeouts := sat32 m.softTimeouts }
          -- the opcode of a member write is the NVMe Write command, 01h
          s.event Ev.memberSoftTimeout port port 1 r.slotNo.1)

/-- The hard timeout of a port's pool in µs (R286). -/
def State.hardUs (s : State) (p : Nat) : Nat :=
  match s.members.look p with
  | some m => (match s.pools.look m.pool with | some x => x.hardTimeout | none => 8) * 1000000
  | none => 8000000

/-- HARD_TIMEOUT: the requester is answered TIMEOUT, an Abort is sent and the command is quarantined (R286, R292). -/
def execHardTimeout (port : Nat) (req : Nat) (s : State) : Host.Outcome State Fault Refusal :=
  act s (match (s.port port).reqs.look req with
    | none => s
    | some r => match r.submittedAt with
      | none => s
      | some t =>
        if !s.live || r.quarantined.isSome || !(s.port port).canIssue || s.now < t + s.hardUs port then s
        else
          let s := s.updPort port fun x =>
            { x with reqs := x.reqs.put req { r with quarantined := some s.now }, aborts := x.aborts ++ [req] }
          let times := match s.members.look port with
            | some m => (m.hardTimes.filter fun u => s.now < u + 600000000) ++ [s.now]
            | none => [s.now]
          let s := s.countMember port fun m => { m with hardTimeouts := sat32 m.hardTimeouts, hardTimes := times }
          let (q, c) := r.slotNo
          let s := s.event Ev.memberHardTimeout port port (c + q * 2 ^ 16) times.length
          let s := (s.sendAborts port).later (.reqDone port req r .timeout)
          (if times.length ≥ 3 && s.memberLive port then s.later (.fail port 3 false) else s).run)

/-- QUARANTINE_TIMEOUT: 30 s in quarantine reset the controller (R289). -/
def execQuarantineTimeout (port : Nat) (req : Nat) (s : State) : Host.Outcome State Fault Refusal :=
  act s (match (s.port port).reqs.look req with
    | some r => match r.quarantined with
      | some t => if s.live && (s.port port).canIssue && s.now ≥ t + 30000000 then (s.resetController port .quarantine).run else s
      | none => s
    | none => s)

/-- ADMIN_COMMAND_TIMEOUT: 30 s of an admin command reset the controller; within a reset they are its failure (R289, R291). -/
def execAdminCommandTimeout (port : Nat) (s : State) : Host.Outcome State Fault Refusal :=
  act s (
    if s.live && (s.port port).linkUp && (s.port port).admin.any fun a => s.now ≥ a.2 + 30000000 then
      (s.resetController port .adminTimeout).run
    else s)

/-- CONTROLLER_DISABLED: CSTS.RDY reads 0; the quarantine is released and the bring-up runs (R290). -/
def execControllerDisabled (port : Nat) (s : State) : Host.Outcome State Fault Refusal :=
  act s (if s.live && (s.port port).linkUp && (s.port port).ctl = .disabling then ((s.dropQuarantine port).adminStep port 1).run else s)

/-- CONTROLLER_RESET_TIMEOUT: CSTS.RDY has not reached its level within CAP.TO, in units of 500 ms (R291). -/
def execControllerResetTimeout (port : Nat) (s : State) : Host.Outcome State Fault Refusal :=
  act s (
    let x := s.port port
    if s.live && x.linkUp && x.resetWhy.isSome && (x.ctl = .disabling || x.ctl = .bringUp 1) && s.now ≥ x.rdySince + x.capTo * 500000 then
      (s.controllerFatal port).run
    else s)

/-- CONTROLLER_FATAL_STATUS: CSTS.CFS reads 1 (R292). -/
def execControllerFatalStatus (port : Nat) (s : State) : Host.Outcome State Fault Refusal :=
  act s (
    let x := s.port port
    if s.live && x.linkUp && x.ctl ≠ .off && x.ctl ≠ .unused && x.ctl ≠ .failed then (s.controllerFatal port).run else s)

/-- SMART_POLL: the health log is read every 60 s, and not again while a read of it runs (R276); a log that arrives within the row is
examined at once (R293). -/
def execSmartPoll (port : Nat) (critical : Option Bool) (s : State) : Host.Outcome State Fault Refusal :=
  act s (
    let x := s.port port
    if !s.live || !x.linkUp || x.ctl ≠ .ready || s.now < x.pollAt + 60000000 || x.adminFull || x.admin.any (fun a => a.1 = .health) then s
    else
      let s := ((s.updPort port fun x => { x with pollAt := s.now }).adminSend port .health).emit (.driveAdmin port 8)
      match critical with
      | none => s
      | some c => s.healthRead port c)

/-- ASYNCHRONOUS_EVENT (R293). -/
def execAsynchronousEvent (port : Nat) (critical : Bool) (s : State) : Host.Outcome State Fault Refusal :=
  act s (
    let x := s.port port
    if s.live && x.linkUp && x.ctl = .ready && critical then (s.criticalWarning port).run else s)

/-! ### Links (R271 to R274, R292, R295, R301) -/

/-- What a root port offers besides its two lanes at up to 32 GT/s (R273): nothing else is supported. -/
structure RootPort where
  hotPlugSlot : Bool
  aer : Bool
  maxPayload : Nat
  extendedTags : Bool
  tenBitTags : Bool
  msix : Bool
  msi : Bool
  intx : Bool
  aspm : Bool
  ari : Bool
  sriov : Bool
  ats : Bool
  pasid : Bool
  peerToPeer : Bool
  switches : Bool
deriving DecidableEq, Repr

/-- The features of every root port (R273). -/
def rootPort : RootPort :=
  { hotPlugSlot := true, aer := true, maxPayload := 512, extendedTags := true, tenBitTags := true, msix := true, msi := false,
    intx := false, aspm := false, ari := false, sriov := false, ats := false, pasid := false, peerToPeer := false, switches := false }

/-- The rate at which a link trains: the highest that both ends support (R271). -/
def bestSpeed (l : List LinkSpeed) : Option LinkSpeed := [LinkSpeed.g32, .g16, .g8, .g5, .g2_5].find? l.contains

/-- The width at which it trains: the widest of x2 and x1 that both ends support (R271). -/
def bestWidth (l : List Nat) : Option Nat := [2, 1].find? l.contains

/-- The hold of a link has run out: the member enters FAILED (R292, R295). A port whose drive is no member answers ABSENT
and keeps its drive in reset, and a controller reset under way counts as a failed one, as the next read of its status would find it (R291,
R312, DESIGN CHOICE 55). -/
def State.holdOver (s : State) (port : Nat) : State :=
  let s := s.event Ev.portLinkDown port port 0xFFFFFFFF 0
  let s := (s.updPort port fun x => { x with linkDownAt := none }).resetEnds port false
  if s.memberLive port then s.failMember port 2 false else (s.absentAll port).assertPerst port

/-- A link has trained: its rate, width and the drive's registers, EV_PORT_LINK_DEGRADED below 32 GT/s or x2, and after a hold the steps
of R295. A drive that the port has found unusable stays so: its link's return is counted and recorded (R276, R312). -/
def State.linkTrained (s : State) (port : Nat) (speed : LinkSpeed) (width : Nat) (far : DriveLink) : State :=
  let down := (s.port port).linkDownAt
  let unused : Bool := (s.port port).ctl = .unused
  let s := s.updPort port fun x => { x with
    linkUp := true, speed := some speed, width := width, linkDownAt := none, capTo := far.capTo,
    maxPayload := min rootPort.maxPayload far.maxPayload }
  let s := if speed ≠ .g32 || width < 2 then s.event Ev.portLinkDegraded port port speed.gts width else s
  let s := match down with
    | some t =>
      let s := s.event Ev.portLinkDown port port ((s.now - t) / 1000) 0
      let s := s.countMember port fun m => { m with linkDowns := sat32 m.linkDowns }
      if unused then s
      else (s.dropQuarantine port).updPort port fun x => { x with resetWhy := some (x.resetWhy.getD .linkReturn) }
    | none => s
  if unused then s
  else if !far.endpoint then s.driveUnusable port 0 else s.adminStep port 1

/-- DRIVE_LINK_UP: first bring-up, or the return of a link within its hold (R271 to R273, R276, R295). A link that returns later finds
the hold over, and the drive of an unusable port comes back from a hold only. -/
def execDriveLinkUp (port : Nat) (speeds : List LinkSpeed) (widths : List Nat) (far : DriveLink) (s : State) : Host.Outcome State Fault Refusal :=
  act s (
    let x := s.port port
    if !s.live || x.perst || x.linkUp || (x.ctl = .unused && x.linkDownAt.isNone) || (s.island port).status ≠ 0 then s
    else match bestSpeed speeds, bestWidth widths with
      | some g, some w =>
        let late : Bool := match x.linkDownAt with | some t => decide (s.now > t + 100000) | none => false
        (if late then s.holdOver port else s.linkTrained port g w far).run
      | _, _ => s)

/-- The drive of a slot has gone: a member is REMOVED, also one that is FAILED; else the port is left as for an empty slot (R99, R292). -/
def State.driveGone (s : State) (n : Nat) : State :=
  let s := if s.members.has n then s.failMember n 1 true else (s.absentAll n).assertPerst n
  s.updPort n fun x => { x with info := none, unusable := false }

/-- DRIVE_LINK_DOWN: requests are held; with presence deasserted the drive has gone (R292, R295, R301). -/
def execDriveLinkDown (port : Nat) (s : State) : Host.Outcome State Fault Refusal :=
  act s (
    let x := s.port port
    if !s.live || !x.linkUp then s
    else
      let s := s.updPort port fun x => { x with linkUp := false, linkDownAt := some s.now, admin := [],
                                                ctl := if x.ctl = .unused || x.ctl = .failed then x.ctl else .training }
      (if x.prsntN then s.driveGone port else s).run)

/-- LINK_DOWN_HOLD_EXPIRY: 100 ms out of L0 (R292, R295). -/
def execLinkDownHoldExpiry (port : Nat) (s : State) : Host.Outcome State Fault Refusal :=
  act s (match (s.port port).linkDownAt with
    | none => s
    | some t => if !s.live || s.now < t + 100000 then s else (s.holdOver port).run)

/-- PORT_NO_LINK: no L0 within 1 s of the deassertion of DPn_PERST_N (R274); the drive then counts as unusable for ATTN (R307,
DESIGN CHOICE 48). -/
def execPortNoLink (port : Nat) (s : State) : Host.Outcome State Fault Refusal :=
  act s (
    let x := s.port port
    if !s.live || x.perst || x.linkUp || x.ctl ≠ .training || x.linkDownAt.isSome || s.now < x.perstAt + 1000000 then s
    else
      let s := (s.updPort port fun x => { x with ctl := .unused, unusable := true, poweringOn := false }).event Ev.portNoLink port port 0 0
      (if s.memberLive port then s.failMember port 2 false else s).run)

/-- DRIVE_PERST_DEASSERT: 100 ms after PWR_GOOD is first read high (R274). -/
def execDrivePerstDeassert (port : Nat) (s : State) : Host.Outcome State Fault Refusal :=
  act s (
    let x := s.port port
    match x.goodAt with
    | none => s
    | some t =>
      if !s.live || !x.perst || !x.pwrEn || !x.pwrGood || s.now < t + 100000 then s
      else
        (s.updPort port fun x => { x with
          perst := false, perstAt := s.now, goodAt := none, ctl := .training, unusable := false, linkUp := false, info := none }).emit
          (.drivePerst port false))

/-- DRIVE_SETTLE: the hard timeout has passed since the drive's preempt (R519). -/
def execDriveSettle (port : Nat) (s : State) : Host.Outcome State Fault Refusal :=
  act s (match (s.port port).settle with
    | none => s
    | some t =>
      if !s.live || s.now < t + s.hardUs port then s
      else ((s.updPort port fun x => { x with settle := none }).pumpPort port).run)

/-! ### Hedging (R242, R245 to R253) -/

/-- The hedge threshold of a pool; none in mode 2 (R244). -/
def Pool.threshold? (x : Pool) : Option Nat :=
  match x.hedgeMode with | 0 => some x.hedgeAuto | 1 => some x.hedgeFixed | _ => none

/-- The instant from which a member read counts as outstanding, where it may be hedged (R247, R248, R285). -/
def Task.hedgeFrom (x : Task) (r : Req) : Option Nat :=
  match x.kind with
  | .fill _ => some r.acceptedAt
  | .unit _ => if x.readAttached then r.submittedAt else none
  | _ => none

/-- Start the reconstruction of a member read, where the position can be recovered (R249, R251). -/
def State.startHedge (s : State) (port req : Nat) (r : Req) (x : Task) (pool : Nat) : State :=
  let want := r.segs.map fun g => (r.pos, g)
  let lost := uniq (s.lostFor x.region x.stripe ++ [r.pos])
  let m := s.regionTmpl x.region
  let pl := recoverPlan m (fun _ => lost) (fun _ _ => false) want
  if !pl.missing.isEmpty then s
  else
    let _ := port
    let s := { s with
      pools := s.pools.upd pool fun p => { p with hedgesNow := p.hedgesNow + 1 },
      volumes := s.volumes.upd x.vol fun v => { v with hedgesStarted := sat64 v.hedgesStarted } }
    (s.newTask { kind := .hedge r.task req r.pos, vol := x.vol, region := x.region, stripe := x.stripe, segs := r.segs,
                 want := want, lost := [r.pos], fg := true } none).2

/-- HEDGE_DELAY: a member read has been outstanding for the hedge delay (R247 to R250). -/
def execHedgeDelay (port : Nat) (req : Nat) (s : State) : Host.Outcome State Fault Refusal :=
  act s (match (s.port port).reqs.look req, s.members.look port with
    | some r, some m => match s.tasks.look r.task, s.pools.look m.pool with
      | some x, some p =>
        match x.hedgeFrom r, p.threshold? with
        | some t, some thr =>
          let half := m.st = .slow || m.st = .suspect
          let due := if half then 2 * (s.now - t) ≥ thr else s.now - t ≥ thr
          if !s.live || r.write || !r.hedgeable || r.quarantined.isSome || x.hedged.contains req || !x.reads.contains (req, r.pos) || !due
          then s
          else
            let s := s.updTask r.task fun x => { x with hedged := x.hedged ++ [req] }
            if p.hedgesNow ≥ max 1000 (p.readsPrev * 5 / 100) then
              { s with
                pools := s.pools.upd m.pool fun p => { p with refusedNow := p.refusedNow + 1 },
                volumes := s.volumes.upd x.vol fun v => { v with hedgesRefused := sat32 v.hedgesRefused } }
            else (s.startHedge port req r x m.pool).run
        | _, _ => s
      | _, _ => s
    | _, _ => s)

/-- HEDGE_HOLD_TIMEOUT: 50 ms after the delivery the shared interlock is released, and late data goes uncompared (R253). -/
def execHedgeHoldTimeout (task : Nat) (s : State) : Host.Outcome State Fault Refusal :=
  act s (match s.tasks.look task with
    | none => s
    | some x =>
      if !s.live || x.stage ≠ .late || s.now < x.deliveredAt + 50000 then s
      else (s.holdEnds task).run)

/-- HEDGE_INTERVAL_END: the limit starts again; refusals of the interval are recorded once (R250). -/
def execHedgeIntervalEnd (s : State) : Host.Outcome State Fault Refusal :=
  act s (if !s.live || s.now < s.mgmt.hedgeAt + 1000000 then s
    else
      let s := s.over s.pools fun s e =>
        let (id, p) := e
        let s := if p.refusedNow > 0 then s.event Ev.hedgeLimit 0 id (max 1000 (p.readsPrev * 5 / 100)) p.refusedNow else s
        { s with pools := s.pools.put id { p with hedgesNow := 0, refusedNow := 0, readsPrev := p.readsNow, readsNow := 0 } }
      { s with mgmt := { s.mgmt with hedgeAt := s.now } })

/-- Reads counted in a window. -/
def readsIn (hs : List Hist) : Nat := (hs.map fun h => (h.map (·.2)).sum).sum

/-- The threshold of a pool after an estimate, with EV_HEDGE_THRESHOLD at a change of a quarter (R242, R246). -/
def State.poolEstimate (s : State) (id : Nat) : State :=
  match s.pools.look id with
  | none => s
  | some p =>
    let auto : Nat := match p99 p.hist 1000 with | some v => max 500 (min 50000 (3 * v)) | none => p.hedgeAuto
    let far := 4 * ((auto : Int) - p.hedgeRecorded).natAbs ≥ p.hedgeRecorded
    let n := readsIn p.hist
    let s := { s with pools := s.pools.put id { p with
      hedgeAuto := auto, hedgeRecorded := if far then auto else p.hedgeRecorded, hist := [] :: p.hist.take 9 } }
    if far then s.event Ev.hedgeThreshold 0 id auto n else s

/-- SLOW and back, by a member's own estimate against its pool's threshold (R99, R245). In mode 2 the automatic value stands
for the threshold. -/
def State.memberEstimate (s : State) (port : Nat) : State :=
  match s.members.look port with
  | none => s
  | some m => match s.pools.look m.pool with
    | none => s
    | some p =>
      let thr := match p.threshold? with | some t => t | none => p.hedgeAuto
      let est := p99 m.hist 1000
      let s := { s with members := s.members.put port { m with hist := [] :: m.hist.take 9 } }
      match est with
      | none => s
      | some v =>
        if m.st = .online && v > thr then (({ s with members := s.members.upd port fun m => { m with slowSecs := 0 } }).memberTo port .slow)
        else if m.st = .slow then
          let n := if 2 * v ≤ thr then m.slowSecs + 1 else 0
          let s := { s with members := s.members.upd port fun m => { m with slowSecs := n } }
          if n ≥ 60 then s.memberTo port .online else s
        else s

/-- HEDGE_THRESHOLD_UPDATE: once a second (R242, R245, R246). -/
def execHedgeThresholdUpdate (s : State) : Host.Outcome State Fault Refusal :=
  act s (if !s.live || s.now < s.mgmt.estimateAt + 1000000 then s
    else
      let s := s.over s.pools.keys fun s id => s.poolEstimate id
      let s := s.over s.members.keys fun s p => s.memberEstimate p
      ({ s with mgmt := { s.mgmt with estimateAt := s.now } }).run)

end Sys2Proof.Machine
end

