-- ==== Sys2Proof/Machine/Slots.lean ====
section
/-! DEFINITION. The slot chain, slot power, the attention button, the indicators, and SLOT_CONTROL (R296 to R307, R642). -/

namespace Sys2Proof.Machine

open Sys2Proof

/-! ### Indicators and outbound bits (R298, R307) -/

/-- ATTN (R307). -/
def State.attnOf (s : State) (n : Nat) : Nat :=
  let x := s.port n
  let gone := match s.members.look n with | some m => m.st = .failed || m.st = .removed | none => false
  if x.locate || x.refusalSince.isSome then 2
  else if (gone && !x.prsntN) || x.powerFault || x.unusable then 1 else 0

/-- PWR_IND (R306, R307): where no row of the table holds it keeps its value. -/
def Port.indOf (x : Port) : Nat :=
  if x.window.isSome || x.offAt.isSome then 2
  else if x.pwrEn && x.sawGood && x.linkUp && x.ctl = .ready then 1
  else if !x.pwrEn && !x.pwrGood then 0
  else if x.pwrEn && x.poweringOn then 2
  else x.pwrInd

/-- The outbound byte (R298). -/
def Port.outbound (x : Port) : Byte := BitVec.ofNat 8 (b2n x.pwrEn + x.attn * 2 + x.pwrInd * 8)

/-- Bring a slot's indicators up to date. -/
def State.indicate (s : State) (n : Nat) : State :=
  let a := s.attnOf n
  s.updPort n fun x => { x with attn := a, pwrInd := x.indOf }

/-! ### Power (R303 to R306) -/

/-- The operation of a SLOT_CONTROL command that waits (R615); 7, which no operation has, once it is gone. -/
def State.slotOp (s : State) (acc : Nat) : Nat := match s.cmds.look acc with | some c => c.sqe.pfield 0 8 3 | none => 7

/-- Complete the SLOT_CONTROL commands with some operations that wait for a slot, or of them only those whose outbound bits have been
shifted (R642). -/
def State.slotEnd (s : State) (n : Nat) (ops : List Nat) (shifted : Bool) (result : Word) : State :=
  let ends (e : Nat × Bool) : Bool := ops.contains (s.slotOp e.1) && (e.2 || !shifted)
  let all := (s.port n).slotCmds
  (s.updPort n fun x => { x with slotCmds := all.filter fun e => !ends e }).over (all.filter ends) fun s e =>
    s.finish e.1 St.success result

/-- Power a slot on (R303). -/
def State.slotOn (s : State) (n : Nat) : State :=
  s.updPort n fun x => { x with pwrEn := true, poweringOn := true, powerFault := false, sawGood := false, pwrOnAt := none, goodAt := none, offAt := none }

/-- Power a slot off: ABSENT to every request, DPn_PERST_N, and PWR_EN 1 ms later (R306). A power-on that still waits ends as one whose
power has not come (DESIGN CHOICE 20). -/
def State.slotOff (s : State) (n : Nat) : State :=
  (((s.slotEnd n [0] false 1).absentAll n).assertPerst n).updPort n fun x => { x with offAt := some s.now, goodAt := none }

/-- Does the slot hold a member that R305 protects? -/
def State.slotProtected (s : State) (n : Nat) : Bool := s.memberLive n

/-- Enter a member in FAILED as MEMBER_FAIL would, then power off (R305, R642). -/
def State.failAndOff (s : State) (n : Nat) : State :=
  (if s.memberLive n then s.failMember n 7 false else s).slotOff n

/-- The button window is over: PWR_IND returns to its former value until the table of R307 says otherwise (R305). -/
def Port.windowOver (x : Port) : Port :=
  { x with window := none, pwrInd := match x.window with | some (_, v) => v | none => x.pwrInd }

/-- Cancel a button window (R305). -/
def State.cancelWindow (s : State) (n : Nat) : State :=
  let x := s.port n
  if x.window.isNone then s
  else (s.updPort n Port.windowOver).event Ev.slotButton n n 0 (b2n x.buttonPolicy)

/-! ### The chain (R296, R300) -/

/-- One more reading of an inbound bit: the level and for how many scans it has stood. -/
def debounce (raw : Bool × Nat) (level : Bool) : Bool × Nat :=
  if raw.1 == level then (level, min 39 (raw.2 + 1)) else (level, 1)

/-- A slot's inbound byte in a scan: bit i of SLOT_SI is bit 7 − (i mod 8) of slot i div 8 (R297). -/
def inboundByte (si : BitVec 512) (slot : Nat) : Byte :=
  (span 0 8).foldl (fun (a : Byte) b => if si.getLsbD (8 * slot + 7 - b) then a ||| (1#8 <<< b) else a) 0

/-- SLOT_SO of a scan: bit i is bit 7 − (i mod 8) of slot 63 − (i div 8) (R297). -/
def outboundBits (byteOf : Nat → Byte) : BitVec 512 :=
  (span 0 512).foldl (fun (a : BitVec 512) i => if (byteOf (63 - i / 8)).getLsbD (7 - i % 8) then a ||| (1#512 <<< i) else a) 0

/-- One slot's part of a scan. -/
def State.scanSlot (s : State) (n : Nat) (b : Byte) : State :=
  let s := s.indicate n
  let x := s.port n
  let eff := x.shifted
  let changed := eff ≠ x.inEffect
  let btn := debounce x.btnRaw (b.getLsbD 1)
  let pwr := debounce x.pwrRaw (b.getLsbD 2)
  let s := s.updPort n fun x => { x with
    inEffect := eff, shifted := x.outbound, prsntRaw := debounce x.prsntRaw (b.getLsbD 0), btnRaw := btn,
    btnN := x.btnN || (btn.1 && btn.2 ≥ 39), pwrRaw := pwr, pwrGood := if pwr.2 ≥ 39 then pwr.1 else x.pwrGood, cmdCompleted := x.cmdCompleted || changed,
    pwrOnAt := if eff.getLsbD 0 then some (x.pwrOnAt.getD s.now) else none }
  -- locate on and off complete when the change, shifted in the scan before, is applied (R300, R642)
  (s.slotEnd n [2, 3] true 0).updPort n fun x => { x with slotCmds := x.slotCmds.map fun e => (e.1, true) }

/-- SLOT_SCAN: a scan starts every 520 µs; outbound bits of the previous scan are applied, new ones shifted, inbound bits read (R296 to
R300). -/
def execSlotScan (inbound : BitVec 512) (s : State) : Host.Outcome State Fault Refusal :=
  act s (
    let early : Bool := match s.mgmt.scanAt with | some t => decide (s.now < t + 520) | none => false
    if !s.live || early then s
    else
      let s := s.over (span 0 64) fun s n => s.scanSlot n (inboundByte inbound n)
      let s := { s with mgmt := { s.mgmt with scanAt := some s.now } }
      s.emit (.slotBits (outboundBits fun n => (s.port n).shifted)))

/-- SLOT_PRESENCE_CHANGE: an accepted change of PRSNT_N (R99, R292, R301, R303). -/
def execSlotPresenceChange (slot : Nat) (present : Bool) (s : State) : Host.Outcome State Fault Refusal :=
  act s (
    let x := s.port slot
    if !s.live || x.prsntN ≠ present || x.prsntRaw ≠ (!present, 39) then s
    else
      let s := s.updPort slot fun x => { x with prsntN := !present, conflict := false }
      (if present then
        if x.conflict && x.linkUp then s
        else if x.pwrEn then s.updPort slot fun x => { x with goodAt := if x.pwrGood && x.perst then some s.now else none, unusable := false }
        else if x.autoPower && !x.powerFault then (s.updPort slot fun x => { x with unusable := false }).slotOn slot else s
      else if x.linkUp then
        (s.updPort slot fun x => { x with conflict := true }).event Ev.slotPresenceConflict slot slot 0 0
      else s.driveGone slot).run)

/-- SLOT_POWER_GOOD: PWR_GOOD read high after PWR_EN has taken effect (R303, R642). -/
def execSlotPowerGood (slot : Nat) (s : State) : Host.Outcome State Fault Refusal :=
  act s (
    let x := s.port slot
    if !s.live || !x.pwrEn || x.pwrOnAt.isNone || !x.pwrGood || x.sawGood then s
    else
      let s := s.updPort slot fun x => { x with sawGood := true, goodAt := if x.perst then some s.now else none }
      if x.offAt.isSome then s else s.slotEnd slot [0] false 0)

/-- SLOT_POWER_FAULT: PWR_GOOD has not been read high within 100 ms, or reads low after them; that reading is not debounced (R303, R304,
R642). -/
def execSlotPowerFault (slot : Nat) (s : State) : Host.Outcome State Fault Refusal :=
  act s (
    let x := s.port slot
    let due := match x.pwrOnAt with | some t => s.now ≥ t + 100000 | none => false
    let bad := if x.sawGood then !x.pwrRaw.1 else !x.pwrGood
    if !s.live || !x.pwrEn || !bad || !due then s
    else
      let s := ((s.absentAll slot).assertPerst slot).updPort slot fun x =>
        { x with pwrEn := false, powerFault := true, faultBit := true, goodAt := none, offAt := none }
      let s := s.event Ev.slotPowerFault slot slot (b2n x.sawGood) 0
      let s := if s.memberLive slot then s.failMember slot 6 false else s
      ((s.slotEnd slot [0] false 1).slotEnd slot [1] false 0).run)

/-- SLOT_POWER_OFF_DELAY: PWR_EN is cleared 1 ms after DPn_PERST_N (R306, R642); a power-on that has come meanwhile then begins. -/
def execSlotPowerOffDelay (slot : Nat) (s : State) : Host.Outcome State Fault Refusal :=
  act s (match (s.port slot).offAt with
    | none => s
    | some t =>
      if !s.live || s.now < t + 1000 then s
      else
        let s := (s.updPort slot fun x => { x with pwrEn := false, offAt := none, sawGood := false, info := none }).slotEnd slot [1] false 0
        s.when ((s.port slot).slotCmds.any fun e => s.slotOp e.1 = 0) (s.slotOn slot))

/-! ### The button (R305) -/

/-- Is a press ignored: power-on, power-off or a power fault in progress (R305)? A power-on ends with the controller ready, unusable or
without link, and a power fault once the clearing of PWR_EN takes effect (DESIGN CHOICE 53). -/
def Port.buttonIgnored (x : Port) : Bool := (x.pwrEn && x.poweringOn) || x.offAt.isSome || (!x.pwrEn && x.inEffect.getLsbD 0)

/-- SLOT_BUTTON_PRESS: an accepted assertion of BTN_N (R302, R305). -/
def execSlotButtonPress (slot : Nat) (s : State) : Host.Outcome State Fault Refusal :=
  act s (
    let x := s.port slot
    if !s.live || !x.btnN || x.btnRaw ≠ (false, 39) then s
    else
      let s := s.updPort slot fun x => { x with btnN := false, buttonBit := true }
      if x.buttonIgnored then s
      else if x.window.isSome then s.cancelWindow slot
      else s.updPort slot fun x => { x with window := some (s.now, x.pwrInd) })

/-- BUTTON_WINDOW_END: power off, on, or a refusal by the slot's policy (R305). -/
def execButtonWindowEnd (slot : Nat) (s : State) : Host.Outcome State Fault Refusal :=
  act s (
    let x := s.port slot
    match x.window with
    | none => s
    | some (t, _) =>
      if !s.live || s.now < t + 5000000 then s
      else
        let s := s.updPort slot Port.windowOver
        let ev (s : State) (what : Nat) : State := s.event Ev.slotButton slot slot what (b2n x.buttonPolicy)
        (if !x.pwrEn then ev (s.slotOn slot) 1
        else if s.slotProtected slot && !x.buttonPolicy then ev (s.updPort slot fun x => { x with refusalSince := some s.now }) 3
        else ev (s.failAndOff slot) 2).run)

/-- BUTTON_REFUSAL_END (R305). -/
def execButtonRefusalEnd (slot : Nat) (s : State) : Host.Outcome State Fault Refusal :=
  act s (match (s.port slot).refusalSince with
    | some t => if s.live && s.now ≥ t + 5000000 then s.updPort slot fun x => { x with refusalSince := none } else s
    | none => s)

/-! ### SLOT_CONTROL (R642) -/

/-- The slot of a SLOT_CONTROL entry (R615). -/
def Sqe.slotNo (e : Sqe) : Nat := e.pfield 0 0 6

/-- Start a SLOT_CONTROL with its operation on its slot. -/
def State.slotControl (s : State) (acc op : Nat) (f : Cmd → Nat → State) : State :=
  s.start acc 0xC1 (fun e => e.pfield 0 8 3 = op) fun c => f c c.sqe.slotNo

/-- The command waits for its slot. -/
def State.slotWait (s : State) (acc n : Nat) : State :=
  (s.updCmd acc fun c => { c with phase := .running }).updPort n fun x => { x with slotCmds := x.slotCmds ++ [(acc, false)] }

/-- SLOT_POWER_ON; while the slot is going off it waits for that (DESIGN CHOICE 20). -/
def execSlotPowerOn (acc : Nat) (s : State) : Host.Outcome State Fault Refusal :=
  act s (s.slotControl acc 0 fun _ n =>
    let s := s.cancelWindow n
    let x := s.port n
    if x.pwrEn && x.sawGood && x.offAt.isNone then s.finish acc St.success
    else (if x.pwrEn then s else s.slotOn n).slotWait acc n).run

/-- SLOT_POWER_OFF: by the button policy, unless FORCE is set (R306). -/
def execSlotPowerOff (acc : Nat) (s : State) : Host.Outcome State Fault Refusal :=
  act s (s.slotControl acc 1 fun c n =>
    let s := s.cancelWindow n
    let x := s.port n
    if s.slotProtected n && !x.buttonPolicy && !c.sqe.pbit 0 16 then s.finish acc St.slotRefused
    else if !x.pwrEn then (if s.memberLive n then s.failMember n 7 false else s).finish acc St.success
    else if x.offAt.isSome then (s.slotEnd n [0] false 1).slotWait acc n
    else (s.failAndOff n).slotWait acc n).run

/-- SLOT_LOCATE_ON (R307). -/
def execSlotLocateOn (acc : Nat) (s : State) : Host.Outcome State Fault Refusal :=
  act s (s.slotControl acc 2 fun _ n => ((s.updPort n fun x => { x with locate := true }).indicate n).slotWait acc n).run

/-- SLOT_LOCATE_OFF (R307). -/
def execSlotLocateOff (acc : Nat) (s : State) : Host.Outcome State Fault Refusal :=
  act s (s.slotControl acc 3 fun _ n => ((s.updPort n fun x => { x with locate := false }).indicate n).slotWait acc n).run

/-- SLOT_AUTOMATIC_POWER (R303). -/
def execSlotAutomaticPower (acc : Nat) (s : State) : Host.Outcome State Fault Refusal :=
  act s (s.slotControl acc 4 fun c n => (s.updPort n fun x => { x with autoPower := c.sqe.pbit 0 17 }).finish acc St.success).run

/-- SLOT_BUTTON_POLICY (R305). -/
def execSlotButtonPolicy (acc : Nat) (s : State) : Host.Outcome State Fault Refusal :=
  act s (s.slotControl acc 5 fun c n => (s.updPort n fun x => { x with buttonPolicy := c.sqe.pbit 0 17 }).finish acc St.success).run

end Sys2Proof.Machine
end

