-- ==== Sys2Proof/Machine/HostLink.lean ====
section
/-! DEFINITION. The host link: doorbells and shadow areas, grants, completions of host reads, timeouts, LTR, bus mastering
and power states, function resets and link events (R541 to R564, R583 to R603). -/

namespace Sys2Proof.Machine

open Sys2Proof

/-! ### Latency tolerance (R555) -/

/-- The LTR message of an endpoint for a target in ns, while its enable is set (R555). -/
def State.sendLtr (s : State) (e target : Nat) : State :=
  let x := s.ep e
  if x.ltrEnable && x.up then s.emit (.ltr e (min target (min x.maxSnoop x.maxNoSnoop))) else s

/-- The endpoint is active: a message on the change (R555). -/
def State.ltrTouch (s : State) (e : Nat) : State :=
  let x := s.ep e
  let s := s.setEp e { x with lastActivity := s.now, ltrActive := true }
  if x.ltrActive then s else s.sendLtr e 20000

/-- Is a command of the endpoint outstanding? -/
def State.epBusy (s : State) (e : Nat) : Bool := s.cmds.any fun c => c.2.fn.ep = e && !c.2.silent

/-- LTR_IDLE: ten milliseconds without activity (R555). -/
def execLtrIdle (ep : Nat) (s : State) : Host.Outcome State Fault Refusal :=
  let x := s.ep ep
  act s (s.when (s.hostOn && x.ltrActive && !s.epBusy ep && s.now ≥ x.lastActivity + 10000)
    ((s.setEp ep { x with ltrActive := false }).sendLtr ep 1000000))

/-! ### Doorbells and shadow areas (R583 to R588) -/

/-- EV_RING_PROTOCOL for a ring, kind 0 submission or 1 completion, with its reason (R604). -/
def State.ringProtocol (s : State) (f : FnId) (ring kind reason : Nat) : State :=
  s.fnEvent Ev.ringProtocol f (ring + kind * 4096) reason

/-- A submission ring enters ERROR (R567). -/
def State.sqError (s : State) (k : Nat) (q : Sq) (reason : Nat) : State :=
  (({ s with sqs := s.sqs.put k { q with st := .error } }).ringProtocol q.fn q.ring 0 reason).raise q.fn .ringError

/-- A completion ring enters ERROR (R567). -/
def State.cqError (s : State) (k : Nat) (c : Cq) (reason : Nat) : State :=
  (({ s with cqs := s.cqs.put k { c with st := .error } }).ringProtocol c.fn c.ring 1 reason).raise c.fn .ringError

/-- A tail value arrives by MMIO or from the shadow area (R584, R586, R588). A value that the fetch pointer has already reached or passed
does not count. -/
def State.tailValue (s : State) (f : FnId) (ring value : Nat) (shadow : Bool) : State :=
  let k := ringKey f ring
  match s.sqs.look k with
  | none => s.ringProtocol f ring 0 4
  | some q =>
    if q.st = .error then s.ringProtocol f ring 0 4
    else if value ≥ q.depth then s.sqError k q (if shadow then 5 else 1)
    else
      let live (old : Option Nat) (past : Nat) : Option Nat := if old.isNone && reached q.depth q.fetch past value then none else some value
      -- a value that the pointer has reached leaves it as many entries further ahead of the path's last value
      let past (old : Option Nat) (n : Nat) : Nat := if old.isNone && reached q.depth q.fetch n value then ahead q.depth q.fetch value else 0
      { s with sqs := s.sqs.put k (if shadow then
          { q with tailShadow := live q.tailShadow q.pastShadow, pastShadow := past q.tailShadow q.pastShadow }
        else { q with tailMmio := live q.tailMmio q.pastMmio, pastMmio := past q.tailMmio q.pastMmio }) }

/-- A head value arrives: it must lie from the head to the tail, and posting may resume (R585, R586, R600). -/
def State.headValue (s : State) (f : FnId) (ring value : Nat) (shadow : Bool) : State :=
  let k := ringKey f ring
  match s.cqs.look k with
  | none => s.ringProtocol f ring 1 4
  | some c =>
    if c.st = .error then s.ringProtocol f ring 1 4
    else if value ≥ c.depth then s.cqError k c (if shadow then 5 else 2)
    else if ahead c.depth value c.head > ahead c.depth c.tail c.head then s.cqError k c 3
    else ({ s with cqs := s.cqs.put k { c with head := value } }).drainCq k

/-- SQ_TAIL (R584). -/
def execSqTail (fn : FnId) (ring : Nat) (value : Word) (s : State) : Host.Outcome State Fault Refusal :=
  act s (s.mmio fn false (s.when (ring < maxRings fn) ((s.tailValue fn ring value.toNat false).ltrTouch fn.ep)))

/-- CQ_HEAD (R585, R600). -/
def execCqHead (fn : FnId) (ring : Nat) (value : Word) (s : State) : Host.Outcome State Fault Refusal :=
  act s (s.mmio fn false (s.when (ring < maxRings fn) ((s.headValue fn ring value.toNat false).ltrTouch fn.ep)))

/-- SHADOW_POLL: the poll read of a ring's shadow area, once in an interval (R587). A poll that the pool has no room for
waits. -/
def execShadowPoll (fn : FnId) (ring : Nat) (s : State) : Host.Outcome State Fault Refusal :=
  let k := ringKey fn ring
  act s (match s.sqs.look k with
    | some q =>
      match q.shadow with
      | some (addr, us) =>
        if s.now ≥ q.polledAt + us then
          match s.issueRead fn (.shadow k) addr 8 with
          | some s => { s with sqs := s.sqs.put k { q with polledAt := s.now } }
          | none => s
        else s
      | none => s
    | none => s)

/-- The 8 bytes of a shadow area have arrived: each half that changed counts as a doorbell write (R587). -/
def State.shadowValue (s : State) (k : Nat) (b : List Byte) : State :=
  match s.sqs.look k with
  | none => s
  | some q =>
    let t := numAt b 0 4
    let h := numAt b 4 4
    let s := { s with sqs := s.sqs.put k { q with keptTail := t, keptHead := h } }
    let s := if t ≠ q.keptTail then s.tailValue q.fn q.ring t true else s
    if h ≠ q.keptHead && s.cqs.has k then s.headValue q.fn q.ring h true else s

/-! ### The admin ring pair (R730) -/

/-- A write of 1 to ADMIN_EN (R730, R731). -/
def State.adminEnable (s : State) (f : FnId) : State :=
  let x := s.fn f
  if x.adminActive then s
  else if 2 ≤ x.adminDepth && x.adminDepth ≤ 4096 && x.adminVector < vectorsOf f && x.asqBase ≠ 0 && x.acqBase ≠ 0
      && s.contexts < 4096 then
    let k := ringKey f 0
    let q : Sq := { fn := f, ring := 0, base := x.asqBase.toNat, depth := x.adminDepth, cq := 0, cls := 4, burst := 1, shadow := none }
    let c : Cq := { fn := f, ring := 0, base := x.acqBase.toNat, depth := x.adminDepth, vector := x.adminVector, ien := true,
                    coalCount := 1, coalTime := 0 }
    { s.setFn f { x with adminActive := true } with sqs := s.sqs.put k q, cqs := s.cqs.put k c }
  else s.setFn f { x with adminFault := true }

/-- ADMIN_EN (R730). -/
def execAdminEn (fn : FnId) (s : State) : Host.Outcome State Fault Refusal := act s (s.mmio fn false (s.adminEnable fn))

/-! ### Causes (R719, R722, R724 to R726) -/

/-- A message on vector 0 is due where INT_EN is set (R724). -/
def State.causeDue (s : State) (f : FnId) (due : Bool) : State :=
  if due && (s.fn f).intEn then s.sendVector f 0 else s

/-- A write to CAUSE clears the bits written as 1 (R718, R725). -/
def State.writeCause (s : State) (f : FnId) (v : BitVec 12) : State := s.setFn f { s.fn f with cause := (s.fn f).cause &&& ~~~v }

/-- A write to CAUSE_MASK: a set cause whose mask bit clears makes a message due (R724). -/
def State.writeMask (s : State) (f : FnId) (v : BitVec 12) : State :=
  let x := s.fn f
  let v := v &&& causeBits f
  (s.setFn f { x with causeMask := v }).causeDue f ((x.cause &&& x.causeMask &&& ~~~v) ≠ 0)

/-- A write to INT_EN: from 0 to 1 with a set unmasked cause makes a message due (R724). -/
def State.writeIntEn (s : State) (f : FnId) (v : Bool) : State :=
  let x := s.fn f
  (s.setFn f { x with intEn := v }).causeDue f (v && !x.intEn && (x.cause &&& ~~~x.causeMask) ≠ 0)

/-- A write to FORCE sets cause bits as the causes would (R726): one message at most, for one write sets them at one
instant. -/
def State.writeForce (s : State) (f : FnId) (v : BitVec 12) : State :=
  let x := s.fn f
  let v := v &&& causeBits f
  (s.setFn f { x with cause := x.cause ||| v }).causeDue f ((v &&& ~~~x.cause &&& ~~~x.causeMask) ≠ 0)

/-- CAUSE_WRITE (R725). -/
def execCauseWrite (fn : FnId) (value : BitVec 12) (s : State) : Host.Outcome State Fault Refusal :=
  act s (s.mmio fn false (s.writeCause fn value))

/-- CAUSE_MASK_WRITE (R724). -/
def execCauseMaskWrite (fn : FnId) (value : BitVec 12) (s : State) : Host.Outcome State Fault Refusal :=
  act s (s.mmio fn false (s.writeMask fn value))

/-- INT_EN_WRITE (R724). -/
def execIntEnWrite (fn : FnId) (value : Bool) (s : State) : Host.Outcome State Fault Refusal :=
  act s (s.mmio fn false (s.writeIntEn fn value))

/-- FORCE (R726). -/
def execForce (fn : FnId) (value : BitVec 12) (s : State) : Host.Outcome State Fault Refusal :=
  act s (s.mmio fn false (s.writeForce fn value))

/-- SUPPRESSED_TOTAL_READ: a PF reads and clears its own copy; a VF reads zero (R719, R722). A read of 8 bytes takes EVENT_SEQ_NEXT above it
in the same step (R717, R718). -/
def execSuppressedTotalRead (read : RcRead) (s : State) : Host.Outcome State Fault Refusal :=
  let x := s.fn read.fn
  let above := if read.wide then s.recorder.next.toNat * 2 ^ 32 else 0
  act s (s.mmio read.fn true
    (if read.fn.num = 0 then (s.setFn read.fn { x with suppressedTotal := 0 }).emit (.registerRead read.fn (BitVec.ofNat 64 (x.suppressedTotal + above)))
     else s.emit (.registerRead read.fn (BitVec.ofNat 64 above))))

/-- Write one dword of an MSI-X table entry; unmasking sends a held message (R550, R551, R734). -/
def State.writeMsix (s : State) (f : FnId) (vector dword : Nat) (v : Word) : State :=
  let x := s.fn f
  let (a, h, d, m) := x.entry vector
  let e : Word × Word × Word × Bool := match dword with
    | 0 => (v &&& 0xFFFFFFFC, h, d, m)
    | 1 => (a, v, d, m)
    | 2 => (a, h, v, m)
    | _ => (a, h, d, v.getLsbD 0)
  (s.setFn f { x with msix := Store.putD (0, 0, 0, true) x.msix vector e }).flushPba f

/-- MSIX_ENTRY_WRITE (R550, R734). -/
def execMsixEntryWrite (fn : FnId) (vector dword : Nat) (value : Word) (s : State) : Host.Outcome State Fault Refusal :=
  act s (s.mmio fn false (s.when (vector < vectorsOf fn && dword < 4) (s.writeMsix fn vector dword value)))

/-! ### Grants (R589, R594) -/

/-- RING_GRANT: the ring that R594 serves fetches its burst. -/
def execRingGrant (s : State) : Host.Outcome State Fault Refusal :=
  act s (match s.choose with
    | none => s
    | some (cls, k, credits) =>
      match s.sqs.look k with
      | none => s
      | some q =>
        let s := { s with mgmt := { s.mgmt with credits := credits, lastGrant := s.mgmt.lastGrant.put cls k } }
        s.fetchBurst k q)

/-! ### Ending commands of a function (R154, R558, R560) -/

/-- A command's transfer has failed: it ends with HOST_TRANSFER_ERROR, and a WRITE never commits (R154, R562). -/
def State.transferFailed (s : State) (acc : Nat) : State :=
  match s.cmds.look acc with
  | none => s
  | some c => (s.discardGather c 0).finish acc St.hostTransferError

/-- Has a vault command logged its map entries, so that its effect goes on without it? -/
def State.vaultLogged (s : State) (acc : Nat) : Bool := s.vault.mapRecs.any fun e => e.2.acc = some acc

/-- A command of a function that is reset: it ends, or runs to its effect without a completion (R558). -/
def State.endOnReset (s : State) (c : Cmd) : State :=
  let silent := s.updCmd c.acc fun c => { c with silent := true }
  let gone (s : State) : State := { s with cmds := s.cmds.del c.acc }
  if isWriteOp c.sqe.opcode then
    if c.phase = .committed || (c.phase = .running && s.vaultLogged c.acc) then silent
    else gone (s.discardGather c 2)
  else if isIoOpcode c.sqe.opcode then gone (s.unpin c.frames)
  else if c.phase = .accepted then gone s
  else silent

/-- The completion entries of a function that have been generated and not written. -/
def State.heldEntries (s : State) (f : FnId) : Nat :=
  ((s.cqs.vals.filter fun c => c.fn = f).map fun c => c.stash.length + c.waiting.length).sum

/-- A function after an FLR: its registers return to their reset values, but for SUPPRESSED_TOTAL, the error-reporting
registers and Max_Payload_Size (R720, R731; the last two PRESUMED from the PCIe standard). -/
def Fn.afterFlr (x : Fn) : Fn :=
  { x.cleared with suppressedTotal := x.suppressedTotal, aerUncorr := x.aerUncorr, aerUncorrMask := x.aerUncorrMask,
                   aerUncorrSev := x.aerUncorrSev, aerCorr := x.aerCorr, aerCorrMask := x.aerCorrMask,
                   firstError := x.firstError, headerLog := x.headerLog, maxPayload := x.maxPayload }

/-- FLR of one function in one step (R558, R559); `note` records EV_HOST_FLR. -/
def State.resetFn (s : State) (note : Bool) (f : FnId) : State :=
  let mine := (s.cmds.filter fun e => e.2.fn = f && !e.2.silent).map (·.2)
  let x := s.ep f.ep
  let outstanding := (x.reads.vals.filter fun r => r.fn = f && !r.orphan).length
  let count := mine.length + s.heldEntries f
  let s := s.over mine State.endOnReset
  let s := s.setEp f.ep { x with reads := x.reads.each fun _ r => if r.fn = f then { r with orphan := true } else r }
  let s := { s with sqs := s.sqs.keep fun _ q => q.fn ≠ f, cqs := s.cqs.keep fun _ c => c.fn ≠ f }
  let s := s.setFn f (s.fn f).afterFlr
  let s := if f.num = 0 && s.mgmt.selfTest.issuer = f then s.selfTestEnds 5 else s
  let s := if note then s.fnEvent Ev.hostFlr f count outstanding else s
  -- the pool places of the destroyed rings serve entries of others (R598)
  (s.over s.cqs.keys fun s k => s.refillStash k).settleWaits.noteBacked

/-- The VFs of an endpoint that are enabled. -/
def State.vfsOf (s : State) (e : Nat) : List FnId := (s.functionsOf e).filter fun f => f.num ≠ 0

/-- The PF's SR-IOV and LTR settings return to their reset values; the condition that LTR last announced, which goes with the doorbells of
the last 10 ms, stays (R555). -/
def Endpoint.pfReset (x : Endpoint) : Endpoint :=
  { x with ari := false, numVfs := 0, vfEnable := false, ltrEnable := false, maxSnoop := 0, maxNoSnoop := 0,
           vfBar0 := 0, vfBar2 := 0 }

/-- Every function of an endpoint is reset as by an FLR (R557). -/
def State.resetEp (s : State) (e : Nat) (note : Bool) : State :=
  let s := s.over ((s.vfsOf e) ++ [⟨e, 0⟩]) fun s f => s.resetFn note f
  s.setEp e (s.ep e).pfReset

/-- FLR (R557, R558): of a PF, its VFs too. -/
def execFlr (fn : FnId) (s : State) : Host.Outcome State Fault Refusal :=
  act s (s.when (s.hostOn && s.fnExists fn && (s.ep fn.ep).up)
    (if fn.num = 0 then s.resetEp fn.ep true else s.resetFn true fn)).run

/-- VF_ENABLE_CLEARED (R557). -/
def execVfEnableCleared (ep : Nat) (s : State) : Host.Outcome State Fault Refusal :=
  act s (s.when (s.hostOn && s.endpoints.contains ep && (s.ep ep).vfEnable)
    (let s := s.over (s.vfsOf ep) fun s f => s.resetFn true f
     s.setEp ep { s.ep ep with vfEnable := false })).run

/-- The link of an endpoint goes down: every function is reset, and EV_HOST_LINK_DOWN with the time it was up (R557, R565). -/
def State.linkLost (s : State) (e : Nat) : State :=
  let x := s.ep e
  let s := (s.resetEp e false).fnEvent Ev.hostLinkDown ⟨e, 0⟩ ((s.now - x.upAt) / 1000) 0
  s.setEp e { s.ep e with up := false, speed := 0, width := 0, flit := false }

/-- HOST_LINK_DOWN (R557). -/
def execHostLinkDown (ep : Nat) (s : State) : Host.Outcome State Fault Refusal :=
  act s (s.when (s.hostOn && (s.ep ep).up) (s.linkLost ep)).run

/-- HOT_RESET: EV_HOST_HOT_RESET before the link's own event (R557, R565). -/
def execHotReset (ep : Nat) (s : State) : Host.Outcome State Fault Refusal :=
  act s (s.when (s.hostOn && (s.ep ep).up)
    ((s.fnEvent Ev.hostHotReset ⟨ep, 0⟩ (s.functionsOf ep).length 0).linkLost ep)).run

/-- HOST_LINK_UP (R530). -/
def execHostLinkUp (ep speed width : Nat) (flit : Bool) (s : State) : Host.Outcome State Fault Refusal :=
  let ok := s.hostOn && s.endpoints.contains ep && !(s.ep ep).up && [2, 5, 8, 16, 32, 64].contains speed
    && [1, 2, 4, 8, 16].contains width && (width ≤ 8 || !s.life.bifurcated) && (flit || speed ≠ 64)
  act s (s.when ok
    ((s.setEp ep { s.ep ep with up := true, speed := speed, width := width, flit := flit, upAt := s.now }).fnEvent
      Ev.hostLinkUp ⟨ep, 0⟩ (speed + width * 256 + b2n flit * 65536) 0))

/-! ### Bus mastering and power states (R556, R560, R561) -/

/-- A function stops issuing requests: a write not fully gathered and a READ end with ABORTED_BME, and what is due is held
(R560). R154 and R191 end every WRITE that has not committed, R560 lets a fully gathered one go on; the model follows R560 (DESIGN
CHOICE 51). -/
def State.stopRequests (s : State) (f : FnId) : State :=
  let hit := (s.cmds.filter fun e => e.2.fn = f && !e.2.silent &&
    ((e.2.sqe.opcode = 2 && (e.2.phase = .accepted || e.2.phase = .gatherWait || e.2.phase = .gathering))
      || e.2.sqe.opcode = 1)).map (·.2)
  let s := s.over hit fun s c =>
    let s := if c.sqe.opcode = 2 then s.discardGather c 1 else s.unpin c.frames
    s.finish c.acc St.abortedBme
  s.fnEvent Ev.hostBmeCleared f hit.length (s.heldEntries f)

/-- Requests resume: held completions in their order, then messages, then fetching and the data of READs that wait (R560). -/
def State.resumeRequests (s : State) (f : FnId) : State :=
  let s := s.over ((s.cqs.filter fun (e : Nat × Cq) => e.2.fn = f).map (·.1)) fun s k => s.drainCq k
  let s := (s.flushPba f).pump
  s.over ((s.cmds.filter fun (e : Nat × Cmd) => e.2.fn = f && e.2.phase == .reading).map (·.1)) fun s acc => s.readCheck acc

/-- BUS_MASTER_ENABLE_CLEARED (R560). -/
def execBusMasterEnableCleared (fn : FnId) (s : State) : Host.Outcome State Fault Refusal :=
  let x := s.fn fn
  let t := s.setFn fn { x with bme := false }
  act s (s.when (s.hostOn && s.fnExists fn && x.bme) (if x.d3 then t else t.stopRequests fn)).run

/-- BUS_MASTER_ENABLE_SET (R560). -/
def execBusMasterEnableSet (fn : FnId) (s : State) : Host.Outcome State Fault Refusal :=
  let x := s.fn fn
  act s (s.when (s.hostOn && s.fnExists fn && !x.bme) ((s.setFn fn { x with bme := true }).resumeRequests fn)).run

/-- D3HOT_ENTRY (R556). -/
def execD3hotEntry (fn : FnId) (s : State) : Host.Outcome State Fault Refusal :=
  let x := s.fn fn
  let t := s.setFn fn { x with d3 := true }
  act s (s.when (s.hostOn && s.fnExists fn && !x.d3) (if x.bme then t.stopRequests fn else t)).run

/-- D0_RETURN: the function resumes once its Bus Master Enable is set (R556). -/
def execD0Return (fn : FnId) (s : State) : Host.Outcome State Fault Refusal :=
  let x := s.fn fn
  act s (s.when (s.hostOn && s.fnExists fn && x.d3) ((s.setFn fn { x with d3 := false }).resumeRequests fn)).run

/-! ### Completions of host reads (R541, R553, R559, R562 to R564, R577, R587 to R590) -/

/-- An entry-fetch read failed: the third failure in a row puts the ring into ERROR (R564, R590). -/
def State.entryFailed (s : State) (k : Nat) : State :=
  match s.sqs.look k with
  | none => s
  | some q =>
    let q := { q with fails := q.fails + 1 }
    if q.st = .active && q.fails ≥ 3 then s.sqError k q 6 else { s with sqs := s.sqs.put k q }

/-- Submission entries have arrived: those whose earlier entries have arrived are accepted in ring order (R589). -/
def State.entriesArrived (s : State) (k first count : Nat) (b : List Byte) : State :=
  match s.sqs.look k with
  | none => s
  | some q =>
    -- entries that come when STATE lets none of the ring be fetched are not accepted: the read is made again at a later grant (R591)
    let a := if !s.fetches (q.cls = 4) then q.arrived else (span 0 count).foldl (fun (m : Store (List Byte)) i =>
      m.put ((first + i) % q.depth) (bytesAt b (64 * i) 64)) q.arrived
    let s := { s with sqs := s.sqs.put k { q with arrived := a, fails := 0 } }
    if !s.fetches (q.cls = 4) then s else ((State.acceptLoop q.depth s k).ltrTouch q.fn.ep).pump

/-- Where unit k of a command's data is stored, as an HBM channel, an area of R662 and the index in it: its gather frame, or the working
area, whose 4 KiB units are interleaved over the channels (R661, DESIGN CHOICE 49). -/
def State.unitPlace (s : State) (c : Cmd) (k : Nat) : Nat × Nat × Nat :=
  if c.sqe.opcode = 2 then (c.frames.getD k 0 % 32, 1, c.frames.getD k 0) else (s.unitChannel .working k, 6, k)

/-- The parts of data at an offset that fall into each 4 KiB unit: (unit, offset, bytes). -/
def unitParts (off : Nat) (b : List Byte) : List (Nat × Nat × List Byte) :=
  (span (off / 4096) ((off + b.length + 4095) / 4096 - off / 4096)).map fun k =>
    let lo := max off (4096 * k)
    (k, lo, bytesAt b (lo - off) (min (off + b.length) (4096 * k + 4096) - lo))

/-- Take in one unit's part. Where the channel finds it uncorrectable, what is stored of the unit is dropped and its data fetched
again; of a unit fetched again only the second data counts (R150, R662). -/
def Cmd.takePart (c : Cmd) (bad second : Bool) (k off : Nat) (b : List Byte) : Cmd :=
  if !second && c.refetched.contains k then c
  else if bad then
    let mine := (c.data.filter fun e => e.1 / 4096 = k).map (·.2.length)
    { c with data := c.data.keep fun o _ => o / 4096 ≠ k, good := c.good - mine.sum, refetched := c.refetched ++ [k],
             again := c.again ++ [(4096 * k, min 4096 (c.total - 4096 * k))] }
  else { c with data := c.data.put off b, good := c.good + b.length }

/-- Data of a command has arrived and is stored: words that the HBM channel finds in error are counted, a unit with an
uncorrectable one is fetched again once, and a second failure ends the command; the last byte of a WRITE makes its gather complete
(R149, R150, R154, R662). -/
def State.dataArrived (s : State) (acc off : Nat) (b : List Byte) (stored : BadWords) (second : Bool) : State :=
  match s.cmds.look acc with
  | none => s
  | some c =>
    let unit (w : Nat × WordError) : Nat := (off + 16 * w.1) / 4096
    let seen := stored.filter fun w => 16 * w.1 < b.length && (second || !c.refetched.contains (unit w))
    let s := s.over seen fun s w => match checkWord w.2 with
      | .good => s
      | .corrected => s.wordFixed (66 + (s.unitPlace c (unit w)).1) (s.unitPlace c (unit w)).2.1
      | .uncorrectable => s.channelWord (s.unitPlace c (unit w)).1 (s.unitPlace c (unit w)).2.1
    let bad := (seen.filter fun w => checkWord w.2 = .uncorrectable).map unit
    let b := seen.foldl (fun (b : List Byte) w => damageBytes b w.1 (wordLeft w.2)) b
    if second && !bad.isEmpty then s.transferFailed acc
    else
    -- each unit with such a word is fetched again, which rebuilds it (R662)
    let s := s.over (uniq bad) fun s k => let p := s.unitPlace c k; s.rebuilt (66 + p.1) p.2.1 p.2.2
    let c := (unitParts off b).foldl (fun (c : Cmd) p => c.takePart (bad.contains p.1) second p.1 p.2.1 p.2.2) c
    if c.sqe.opcode = 2 && c.good ≥ c.total then
      let bytes := c.data.flatMap (·.2)
      let s := s.over c.frames.zipIdx fun s e => s.updFrame e.1 fun x => { x with data := trim (bytesAt bytes (4096 * e.2) 4096) }
      s.updCmd acc fun _ => { c with data := [], phase := .gathered }
    else s.updCmd acc fun _ => c

/-- A piece of a segment list has arrived; the whole list is then checked (R577, R605). -/
def State.listArrived (s : State) (acc off : Nat) (b : List Byte) : State :=
  match s.cmds.look acc with
  | none => s
  | some c =>
    let l := c.listBytes.put off b
    let s := s.updCmd acc fun c => { c with listBytes := l }
    if (l.map (·.2.length)).sum ≥ 16 * c.sqe.dptrLen then (s.afterList acc).pump else s

/-- Bytes a read asked for. -/
def ReadKind.length : ReadKind → Nat
  | .entries _ _ n => 64 * n
  | .shadow _ => 8
  | .list _ _ n => n
  | .data _ _ n => n
  | .again _ _ n => n

/-- A read of a function that has not been reset fails (R553, R562, R564, R587, R590). -/
def State.readLost (s : State) (k : ReadKind) : State :=
  match k with
  | .entries q _ _ => s.entryFailed q
  | .shadow _ => s
  | .list acc _ _ => s.transferFailed acc
  | .data acc _ _ => s.transferFailed acc
  | .again acc _ _ => s.transferFailed acc

/-- A completion for an outstanding read. -/
def State.readAnswered (s : State) (ep tag : Nat) (r : HostRead) (cpl : HostCpl) : State :=
  let x := s.ep ep
  let t := s.setEp ep { x with reads := x.reads.del tag }
  match cpl with
  | .ok b stored =>
    if r.orphan then t.pump
    else if b.length ≠ r.kind.length then s
    else
      match r.kind with
      | .entries k first n => t.entriesArrived k first n b
      | .shadow k => (t.shadowValue k b).pump
      | .list acc off _ => t.listArrived acc off b
      | .data acc off _ => (t.dataArrived acc off b stored false).pump
      | .again acc off _ => (t.dataArrived acc off b stored true).pump
  | .poisoned =>
    if r.orphan then t.pump
    else
      match r.kind.dataOf with
      | some acc =>
        let t := if r.write then (t.aer r.fn 12 true).fnEvent Ev.hostPoisoned r.fn 0 tag else t
        (t.transferFailed acc).pump
      | none => (t.readLost r.kind).pump
  | .unsuccessful => if r.orphan then t.pump else (t.readLost r.kind).pump

/-- HOST_COMPLETION: for an outstanding read; for a tag held after a timeout, a late completion (R559, R563); else a completion
that matches no read, which the endpoint's PF logs (R552). -/
def execHostCompletion (ep tag : Nat) (cpl : HostCpl) (s : State) : Host.Outcome State Fault Refusal :=
  let x := s.ep ep
  act s (if !(s.hostOn && x.up) then s
    else match x.reads.look tag with
      | some r => (s.readAnswered ep tag r cpl).run
      | none => match x.held.look tag with
        | some h => if h.silent then s else (s.aer h.fn 16 true).fnEvent Ev.hostLateCpl h.fn tag (s.now - h.since)
        | none => s.aer ⟨ep, 0⟩ 16 true)

/-- The completion timeout of a function in µs (R562): the value that each encoding of Device Control 2 gives, the lower end of
the standard's range where that is a range (DEDUCED). -/
def Fn.timeoutUs (x : Fn) : Nat :=
  match x.cplTimeout with
  | 1 => 50
  | 2 => 1000
  | 5 => 16000
  | 6 => 65000
  | _ => 10000

/-- COMPLETION_TIMEOUT (R559, R562, R564). -/
def execCompletionTimeout (ep tag : Nat) (s : State) : Host.Outcome State Fault Refusal :=
  let x := s.ep ep
  act s (match x.reads.look tag with
    | none => s
    | some r =>
      let t := (s.fn r.fn).timeoutUs
      if s.now < r.at_ + t then s
      else
        let s := s.setEp ep { x with
          reads := x.reads.del tag, held := x.held.put tag { fn := r.fn, since := s.now, timeout := t, silent := r.orphan } }
        if r.orphan then s.pump.run
        else
          let s := (s.aer r.fn 14 false).fnEvent Ev.hostCplTimeout r.fn tag (b2n !r.kind.isEntry)
          ((s.readLost r.kind).pump).run)

/-- TAG_HOLD_EXPIRY: the tag value is free again (R563). -/
def execTagHoldExpiry (ep tag : Nat) (s : State) : Host.Outcome State Fault Refusal :=
  let x := s.ep ep
  act s (match x.held.look tag with
    | none => s
    | some h => if s.now ≥ h.since + 2 * h.timeout then (s.setEp ep { x with held := x.held.del tag }).pump else s)

/-! ### Completion rings over time (R601, R602) -/

/-- COALESCING_TIME: the message is due once the time has passed since the first entry it announces (R602). -/
def execCoalescingTime (fn : FnId) (ring : Nat) (s : State) : Host.Outcome State Fault Refusal :=
  let k := ringKey fn ring
  act s (match s.cqs.look k with
    | none => s
    | some c =>
      if s.hostOn && c.sinceMsg > 0 && s.now ≥ c.firstAt + c.coalTime then
        let s := { s with cqs := s.cqs.put k { c with sinceMsg := 0 } }
        if c.ien then s.sendVector fn c.vector else s
      else s)

/-- CQ_STALL (R601). -/
def execCqStall (fn : FnId) (ring : Nat) (s : State) : Host.Outcome State Fault Refusal :=
  act s (s.when s.hostOn (s.stallCheck (ringKey fn ring)))

/-- STASH_POOL_EMPTY: at most once a second, device-wide (R601, R604). -/
def execStashPoolEmpty (s : State) : Host.Outcome State Fault Refusal :=
  let due : Bool := match s.mgmt.stashEmptyAt with | some t => s.now ≥ t + 1000000 | none => true
  act s (s.when (s.hostOn && s.stashed ≥ 16384 && due)
    (({ s with mgmt := { s.mgmt with stashEmptyAt := some s.now } }).event Ev.stashPoolEmpty 0 0
      (s.cqs.filter fun (e : Nat × Cq) => !e.2.stash.isEmpty).length 0))

/-! ### Blocks (R715) -/

/-- The blocks of a function's BARs. -/
inductive RegBlock where
  | ddt | global | function | doorbell | governor | loops | packStatus | msixTable | pba | empty
deriving DecidableEq, Repr

/-- The block at an offset (R715). -/
def blockAt (f : FnId) (bar offset : Nat) : RegBlock :=
  let pf := f.num = 0
  if bar = 0 then
    if offset < 0x1000 then .ddt
    else if offset < 0x1020 then .global
    else if 0x2000 ≤ offset && offset < 0x2700 then .function
    else if !pf && 0x10000 ≤ offset && offset < 0x11000 then .doorbell
    else if pf && 0x100000 ≤ offset && offset < 0x110000 then .doorbell
    else if pf && 0x20000 ≤ offset && offset < 0x20060 then .governor
    else if pf && 0x20100 ≤ offset && offset < 0x20300 then .loops
    else if pf && 0x30000 ≤ offset && offset < 0x30038 then .packStatus
    else .empty
  else if bar = 2 then
    if offset < 16 * vectorsOf f then .msixTable
    else if 0x8000 ≤ offset && offset < 0x8000 + vectorsOf f / 8 then .pba
    else .empty
  else .empty

/-! ### Link errors and refused reads (R537, R552) -/

/-- HOST_LINK_ERROR: logged in the endpoint's PF at the standard's bit (R552). -/
def execHostLinkError (ep : Nat) (err : LinkError) (s : State) : Host.Outcome State Fault Refusal :=
  let f : FnId := ⟨ep, 0⟩
  act s (s.when (s.hostOn && s.endpoints.contains ep)
    (match err with
      | .receiverError => s.aerCorrectable f 0
      | .badTlp => s.when (!(s.ep ep).flit) (s.aerCorrectable f 6)
      | .badDllp => s.when (!(s.ep ep).flit) (s.aerCorrectable f 7)
      | .replayRollover => s.aerCorrectable f 8
      | .replayTimeout => s.aerCorrectable f 12
      | .dllProtocol => s.aer f 4 false
      | .flowControl => s.aer f 13 false
      | .overflow => s.aer f 17 false
      | .malformedTlp => s.aer f 18 false
      | .ecrc => s.when (s.fn f).ecrc.1 (s.aer f 19 false)))

/-- A BAR access that is not accepted: Unsupported Request and EV_HOST_BAD_ACCESS (R537, R552); advisory for a write, which is
posted. -/
def State.badAccess (s : State) (f : FnId) (bar len : Nat) (read : Bool) (offset : Nat) : State :=
  let s := (s.aer f 20 (!read)).emit (.unsupported f)
  s.fnEvent Ev.hostBadAccess f (bar % 256 + len % 256 * 256 + b2n read * 65536) offset

/-- Bytes of a function's BAR (R535). -/
def barSize (f : FnId) (bar : Nat) : Nat :=
  if bar = 0 then (if f.num = 0 then 16777216 else 262144) else if bar = 2 then 65536 else 0

/-- Does no block occupy any byte of an access? It then completes successfully whatever its size (R537, R716). -/
def unoccupied (f : FnId) (bar offset len : Nat) : Bool := (span offset len).all fun o => blockAt f bar o = .empty

/-- BAD_REGISTER_READ: a read of an occupied place whose size or alignment R537 does not accept; where no block is, the read returns
zero. -/
def execBadRegisterRead (fn : FnId) (bar offset len : Nat) (s : State) : Host.Outcome State Fault Refusal :=
  let ddt := bar = 0 && offset < 4096 && 1 ≤ len && offset + len ≤ 4096
  let fine := ((len = 4 || len = 8) && offset % len = 0) || unoccupied fn bar offset len
  act s (s.mmio fn true (s.when (offset + len ≤ barSize fn bar && !ddt && !fine) (s.badAccess fn bar len true offset)))

end Sys2Proof.Machine
end

