-- ==== Sys2Proof/Machine/PowerLoss.lean ====
section
/-! DEFINITION. Triggers and ends of a lehr pass, PERST_N, the board rails, and Punty's release of the logic die (R462 to R479,
R512, R739, R740, R750). -/

namespace Sys2Proof.Machine

open Sys2Proof

/-- A staged set that PERST_N discards: its record follows at restart where a pass runs, else at once (R478). -/
def State.discardStaged (s : State) (pass : Bool) : State :=
  let n := s.mgmt.staged.length
  if n = 0 then s
  else
    let s := { s with mgmt := { s.mgmt with staged := [] } }
    if pass then { s with life := { s.life with stagedLost := s.life.stagedLost + n } }
    else s.event Ev.configDiscarded 0 n 1 0

/-- PERST_N's effect on the governor block: the sticky bits and OVERRUNS read their reset values, and the fields return as the last
DEVICE_START saved them (R19, R382 to R384, R478). -/
def Gov.hostReset (g : Gov) : Gov :=
  { g with
    period := (g.saved.getD (100, {})).1, live := (g.saved.getD (100, {})).2, lostBit := false, fastBit := false, overruns := 0,
    loops := g.loops.map fun x => { x with satF := false, satP := false, satO := false, expLimit := false } }

/-- PERST_N resets the host link of every endpoint, and the crossing register of the pack block and the governor block read their reset
values (R19, R460, R477, R478, R557). -/
def State.hostReset (s : State) : State :=
  let s := s.over s.endpoints fun s e => if (s.ep e).up then s.linkLost e else s.resetEp e false
  let silent := s.cmds
  let s : State := { (s.hostCleared) with cmds := silent, life := { s.life with perst := true } }
  { s.updPack (fun p => { p with crossing := 0 }) with gov := s.gov.hostReset }

/-- PERST_N ends an export (R515). -/
def State.endExport (s : State) : State :=
  if s.heldForExport.isSome then { s with life := { s.life with exportOff := true } } else s

/-- PERST_N_ASSERT: the host link is reset at once; the back end through a lehr pass where the module serves, at once where it
was FENCED by a conflict, else not at all (R477 to R479, R513). -/
def execPerstNAssert (s : State) : Host.Outcome State Fault Refusal :=
  act s (if s.life.perst then s
    else if s.life.inReset then
      if s.life.hostReady then s.hostReset else { s with life := { s.life with perst := true } }
    else if s.life.st = .fenced && s.life.fencedBy = some .conflict && s.lehrSealed then
      ({ s with life := { s.life with perst := true } }.setState .booting).dieReset (some (s.now + 10000))
    else if s.lehrOn then
      let s := s.endExport
      if s.life.hostReady then s.hostReset else { s with life := { s.life with perst := true } }
    else
      let pass := s.serving && s.vault.mounted
      let s := (s.discardStaged pass).endExport.hostReset.selfTestEnds 5
      if pass then ((s.clearBegun.startLehr .perst).setState .booting).sbCleared
      else if s.life.st = .fenced && s.life.fencedBy = some .conflict then
        (s.setState .booting).dieReset (some (s.now + 10000))
      else s)

/-- PERST_N_DEASSERT: the straps are sampled and the host port may train; while the logic die is in reset the level counts when
reset ends (R479, R529, R750). -/
def execPerstNDeassert (hostBif pairSide : Bool) (s : State) : Host.Outcome State Fault Refusal :=
  act s (if !s.life.perst || !s.life.hostReady then s
    else { s with life := { s.life with perst := false, bifurcated := hostBif, side := pairSide } })

/-- The ports of a fence pass are gated (R514). -/
def State.gatePorts (s : State) : State :=
  let s := s.over (span 0 64) fun s p => s.gateIsland p 4
  { s with ports := s.ports.each (fun _ (p : Port) => { p with reqs := [] }), life := { s.life with fenceDrain := none } }

/-- POWER_FAIL_STROBE: a strobe that the power die has driven, whatever VIN_MAIN has done since, arrives: a pass starts where none runs; a fence pass gates its ports at once, and once sealed it goes on as R469
says for an absent VIN_MAIN (R27, R462, R464, R512, R514). -/
def execPowerFailStrobe (s : State) : Host.Outcome State Fault Refusal :=
  act s (if !(s.pack.strobe || s.pack.vinAbsent || s.pack.overVolt) then s
    else
      let s := s.updPack fun p => { p with strobe := false }
      match s.life.lehr with
      | some l =>
        let s := if l.cause = .fence then s.gatePorts else s
        if l.sealed_ then s.puntyActs l !l.noSeal else s
      | none => if s.serving then s.startLehr (if s.pack.overVolt then .overVolt else .powerFail) else s)

/-- DUMP_COMMAND_FRAME: Punty's frame starts a pass as the strobe does; a second signal changes nothing (R27, R462). Where neither
over-voltage nor PERST_N stands behind the frame, no rule names the cause, and the model records 0, power-fail (DESIGN CHOICE 28). -/
def execDumpCommandFrame (s : State) : Host.Outcome State Fault Refusal :=
  act s (if s.lehrOn || !s.serving then s
    else s.startLehr (if s.pack.overVolt then .overVolt else if s.life.perst then .perst else .powerFail))

/-- The energy drawn from the pack in a pass, in mJ; zero where VIN_MAIN carried all of it (R475). -/
def Lehr.packMj (l : Lehr) : Nat := if l.onPack then l.drawn / 4000000 else 0

/-- LEHR_SEALED: the dump stands, sealed and verified, and Punty acts on the report; the operands name the blocks and map-log pages whose programs
failed and those that did not verify, by their place in the order of use, and the frames that the dump's read found uncorrectable (R390, R415, R465 steps 5 to 8, R467, R469, R475, R479). -/
def execLehrSealed (failed unverified : PassPlaces) (s : State) : Host.Outcome State Fault Refusal :=
  act s (match s.life.lehr with
    | some l => if l.sealed_ then s else (s.writeDump l (s.now - l.at_) l.packMj true ⟨failed.blocks ++ unverified.blocks, failed.logPages ++ unverified.logPages,
        failed.frames ++ unverified.frames⟩).puntyActs l true
    | none => s)

/-- LEHR_TIMEOUT: 3.0 s without a seal (R470). -/
def execLehrTimeout (s : State) : Host.Outcome State Fault Refusal :=
  act s (match s.life.lehr with
    | some l =>
      if l.sealed_ || s.now < l.at_ + 3000000 then s
      else ((s.writeDump l 0 0 false {}).setConverter 0).puntyActs { l with cause := if l.cause = .fence then .powerFail else l.cause } false
    | none => s)

/-- PUNTY_RELEASE: VIN_MAIN has held for 100 ms after a seal, or a thermal hold is over (R469, R756). -/
def execPuntyRelease (s : State) : Host.Outcome State Fault Refusal :=
  act s (match s.life.lehr, s.life.thermalHold with
    | some l, _ => if l.sealed_ && l.cause ≠ .fence && s.vinSteady then s.dieReset (some (s.now + 10000)) else s
    | none, some t =>
      if s.life.inReset && s.now ≥ t && s.vinSteady then
        { s with life := { s.life with thermalHold := none, resetUntil := some (s.now + 10000) } }
      else s
    | none, none => s)

/-- VIN_MAIN has not been at or above 10.8 V for 10 ms yet, as far as it has been read (R740). -/
def Pack.vinYoung (p : Pack) (now : Nat) : Bool := match p.vinGoodSince with | some t => now < t + 10000 | none => false

/-- VIN_MAIN_POWER_UP: VIN_MAIN at or above 10.8 V for 10 ms, the input switch closes and the rails rise (R740). -/
def execVinMainPowerUp (vinMv : Nat) (s : State) : Host.Outcome State Fault Refusal :=
  act s (if !s.pack.running || s.life.railsUp || s.pack.overVolt || vinMv < 10800 || vinMv > 14000 || s.pack.vinYoung s.now then s
    else
      let s := (s.updPack fun p => { p.setVin vinMv s.now with
        inputSwitch := true, vinGoodSince := some (p.vinGoodSince.getD (s.now - 10000)) }).emit (.inputSwitch true)
      { s with life := { s.life with railsUp := true, railsSince := s.now } }.converterCheck)

/-- SUPPLY_FAULT: a rail out of range resets the logic die at once, with no pass; once a pass has sealed, the rails may fall (R739, R743). -/
def execSupplyFault (rail : Nat) (high : Bool) (s : State) : Host.Outcome State Fault Refusal :=
  let mayFall : Bool := match s.life.lehr with | some l => l.sealed_ && !l.noSeal && !high | none => false
  act s (if s.life.inReset || mayFall then s
    else
      let s := match s.life.lehr with
        | some l => if l.sealed_ then s else s.writeDump l 0 0 false {}
        | none => s
      let s := s.updPack fun p => { p with supplyFault := if p.running then some (rail, high) else p.supplyFault }
      let s := { s with life := { s.life with lehr := none } }
      let s := s.dieReset none
      { s with life := { s.life with railsSince := s.now } })

end Sys2Proof.Machine
end

