-- ==== Sys2Proof/Machine/VaultRows.lean ====
section
/-! DEFINITION. The rows of the vault: ends of die operations, checkpoints, wear moves, garbage collection, patrol, and
requests that a channel in reset holds back (R388 to R426, R658). -/

namespace Sys2Proof.Machine

open Sys2Proof

/-- The vault works: mounted, the logic die runs and no lehr pass has taken it over. -/
def State.vaultOn (s : State) : Bool := s.live && s.vault.mounted

/-! ### Programs (R390, R391, R407, R415) -/

/-- Journal records whose pages are verified commit in order, and what waited for them goes on (R157, R203, R215 to R219). -/
def State.commitJournal (s : State) : State :=
  let l := readyRecs s.journal.recs
  let s := s.over l fun s q => s.recCommitted q
  let s := { s with journal := { s.journal with retireTasks := s.journal.retireTasks.keep fun q _ => !l.contains q } }
  let s := s.over ((s.cmds.filter fun c => c.2.journalSeqs.any fun q => l.contains q).map (·.1)) fun s a =>
    (s.updCmd a fun c => { c with journalSeqs := c.journalSeqs.filter fun q => !l.contains q }).writeCheck a
  let open_ (s : State) (q : Nat) : Bool := match s.journal.recs.look q with | some r => !r.committed | none => false
  let s := s.over ((s.tasks.filter fun t => t.2.stage = .journalWait).map (·.1)) fun s t =>
    match s.tasks.look t with
    | some x => if x.journal.any (open_ s) || s.journal.waiting.any (fun w => w.task = some t) then s else s.issueWrites t
    | none => s
  let s := s.over ((s.tasks.filter fun t => t.2.stage = .retiring).map (·.1)) fun s t =>
    if s.retirePending t || s.recordWaits t then s
    else match s.tasks.look t with
      | some x => s.endWrite t x
      | none => s
  s.reclaimJournal

/-- A block whose last page is programmed is FULL (R393). -/
def State.closeIfFull (s : State) (b : Nat) : State :=
  let x := s.vblk b
  let busy := s.vault.ops.vals.any fun o => match o.op with | .program _ y _ _ _ => y = b | _ => false
  if x.st = .open_ && x.nextPage ≥ x.use.pages && !busy then s.closeBlock b else s

/-- One sector of a vault WRITE is verified; with the last, the map-log records that map them all follow (R421). -/
def State.writeProgrammed (s : State) (acc : Nat) (l : List (Nat × Nat × Nat)) : State :=
  match s.cmds.look acc with
  | none => s
  | some c =>
    let done := c.vdone ++ l
    let left := c.vaultLeft - l.length
    let s := s.updCmd acc fun c => { c with vdone := done, vaultLeft := left }
    if left ≠ 0 then s
    else
      let sorted := sortBy (fun (a b : Nat × Nat × Nat) => a.1 ≤ b.1) done
      s.logEntries (sorted.map fun d => MapEntry.map c.sqe.vol d.1 d.2.1 d.2.2) (some acc) none

/-- Copies of a page are verified: each source that has the same content is done; with the last, the copy is (R412). -/
def State.copyProgrammed (s : State) (id : Nat) (l : List (Nat × VSector)) : State :=
  match s.vault.copies.look id with
  | none => s
  | some c =>
    let pairs := l.filterMap fun e =>
      (c.left.find? fun a => match s.vault.sectors.look a with
        | some x => x.what = e.2.what && x.contentSeq = e.2.contentSeq
        | none => false).map fun a => (a, e.1)
    let c := { c with left := c.left.filter (fun a => !pairs.any fun p => p.1 = a), done := c.done ++ pairs }
    let s := { s with vault := { s.vault with copies := s.vault.copies.put id c } }
    if c.left.isEmpty then s.copyCopied id c else s

/-- A FW_STAGE whose data stands verified in its slot goes on: with LAST the whole image is checked, and the slot is valid or not (R637). -/
def State.stageDone (s : State) (c : Cmd) : State :=
  let k := 1 - s.life.fwRunning
  let x := s.slot k
  let image := x.staged ++ c.bytes
  if !c.sqe.pbit 1 0 then (s.setSlot k { x with staged := image }).finish c.acc St.success
  else
    let ok := Config.imageValid image
    let s := s.setSlot k { x with valid := ok, image := if ok then image else [], staged := [], partialValid := false }
    let s := (s.closeUse (.firmware k)).event Ev.fwStaged 0 k (b2n !ok) (Config.imageVersion image).toNat
    s.finish c.acc (if ok then St.success else St.fwImageInvalid)

/-- Sectors of a FW_STAGE are verified (R390, R637). -/
def State.firmwareProgrammed (s : State) (acc n : Nat) : State :=
  match s.cmds.look acc with
  | none => s
  | some c =>
    let left := c.vaultLeft - n
    let s := s.updCmd acc fun c => { c with vaultLeft := left }
    if left ≠ 0 then s else s.stageDone c

/-- What follows a verified page for one reason it was programmed. -/
def State.pageVerified (s : State) (sectors : List (Nat × VSector)) : VFor → State
  | .journalRec q => (s.journalPageDone q).commitJournal
  | .mapRec q => (s.mapPageDone q).commitMaps
  | .userWrite acc => s.writeProgrammed acc (sectors.filterMap fun e => match e.2.what with
      | .user _ l => some (l, e.1, e.2.contentSeq)
      | _ => none)
  | .copyOf id => s.copyProgrammed id sectors
  | .mapFlush i => s.mapFlushed i (match sectors with | e :: _ => e.1 | [] => noSector)
  | .checkpointPart => match s.vault.writing with
    | some (c, n) =>
      if n ≤ 1 then s.checkpointDone else { s with vault := { s.vault with writing := some (c, n - 1) } }
    | none => s
  | .firmwarePart acc => s.firmwareProgrammed acc sectors.length
  | .recordsPart l =>
    let r := s.recorder
    let last := ((l.getLast?.map (·.2)).bind List.getLast?).getD 0
    let h := if r.highest = 0 || newerGen last r.highest then last else r.highest
    -- a clear may have taken the records meanwhile
    let parts := l.foldl (fun (m : Store (List (BitVec 32))) e =>
      if r.records.any fun y => e.2.contains y.seq then m.put e.1 e.2 else m) r.parts
    { s with recorder := { r with highest := h, parts := parts, pending := (r.records.filter fun y => newerGen y.seq h).length } }
  | .seriesPart l e => { s with recorder := { s.recorder with savedLifetime := l, savedExtremes := e } }
  | .secondsPart n => { s with life := { s.life with opSaved := n } }

/-- The stream that takes the content of a failed page: its own, and for a wear move the stream of the content (R415). -/
def VUse.again : VUse → VContent → VUse
  | .wear true, _ => .cold
  | .wear false, c => if c.any (fun e => match e.1 with | .user _ _ => true | _ => false) then .hot else .journalStream
  | u, _ => u

/-- Blocks whose program failed are emptied into the stream they were open for, charged to VAULT_GC as its allowance lets it start, and
then retired; only migration and garbage collection ever leave the governor (R377, R413, R415). -/
def State.retireGo (s : State) : State :=
  s.over s.vault.retireDue fun s b =>
    let left := s.keepOf b
    if !left.isEmpty && !s.mayStart 3 then s
    else
      let content : VContent := left.filterMap fun a => (s.vault.sectors.look a).map fun x => (x.what, x.contentSeq, x.data)
      let c : VCopy := { left := left, use := (s.vblk b).use.again content, block := some b, retire := true }
      let s := { s with vault := { s.vault with retireDue := s.vault.retireDue.filter (· ≠ b) } }
      if left.isEmpty then s.freeSource c
      else (s.charge 3 (8192 * left.length)).startCopy c

/-- A program failed or was interrupted: its block is used no more, what was on its way to it is written elsewhere, its valid
sectors are moved, and then it is retired (R415, R658). -/
def State.programFailed (s : State) (b : Nat) : State :=
  let mine := s.vault.ops.filter fun (o : Nat × VReq) => match o.2.op with | .program _ y _ _ _ => y = b | _ => false
  let s := { s with vault := { s.vault with
    ops := s.vault.ops.keep fun id _ => !mine.any fun o => o.1 = id, programFails := s.vault.programFails + 1,
    retireDue := s.vault.retireDue ++ [b] } }
  -- a copy whose destination this was goes to a new one, in the stream of its content (R415)
  let use := (s.vblk b).use
  let s := if use ≠ .wear use.tri then s else { s with vault := { s.vault with copies := s.vault.copies.each fun _ (c : VCopy) =>
    if c.use ≠ use then c else { c with use := use.again (c.left.filterMap fun a => (s.vault.sectors.look a).map fun x => (x.what, x.contentSeq, x.data)) } } }
  let s := s.over mine fun (s : State) o => match o.2.op with
    | .program u _ _ sectors why => (s.setVblk b { s.vblk b with st := .full }).vprogram (u.again sectors) sectors why
    | _ => s
  s.retireGo

/-- The reply to a die operation comes back under the epoch it was asked with (R653, R656). -/
def State.opReply (s : State) (o : VReq) (f : State → State) : State := s.replyTo firmwareIsland (98 + o.op.die) o.src f

/-- A die operation is over. -/
def State.opOver (s : State) (op : Nat) : State := { s with vault := { s.vault with ops := s.vault.ops.del op } }

/-- May a die operation that runs end now: the vault works, its channel is up, and it is not held (R424)? -/
def State.opRuns (s : State) (o : VReq) : Bool := s.vaultOn && s.vaultUp o.op.die && !o.held

/-- A programmed page has been read back: it counts as done where each sector decodes within the refresh threshold, else its block has
failed (R390, R415). -/
def State.programmed (s : State) (op b page : Nat) (sectors : VContent) (why : List VFor) (back : List (Option Nat)) : State :=
  let s := s.countBits (vdie b) back
  if back.all (fun c => match c with | some n => n ≤ s.settings.refreshBits | none => false) then
    let s := ((s.opOver op).storeSectors b page sectors back).closeIfFull b
    let stored := (span 0 sectors.length).filterMap fun i => (s.vault.sectors.look (vaddr b page i)).map fun x => (vaddr b page i, x)
    (s.over why fun s w => s.pageVerified stored w).retireGo
  else s.programFailed b

/-- VAULT_PROGRAM_COMPLETE: the program has failed (`none`), or the page is read back, with the bit errors of each attempt on each sector (R389,
R390, R415). -/
def execVaultProgramComplete (op : Nat) (back : Option (List (List Nat))) (s : State) : Host.Outcome State Fault Refusal :=
  vaultAct s (match s.vault.ops.look op with
    | some o => match o.op with
      | .program _ b page sectors why =>
        if !s.opRuns o then s
        else match back with
          | none => s.opReply o fun s => s.programFailed b
          | some reads =>
            if reads.length ≠ sectors.length || !reads.all readOver then s
            else s.opReply o fun s => s.programmed op b page sectors why (reads.map decoded)
      | .read _ _ => s
      | .erase _ => s
    | none => s)

/-! ### Reads and patrol (R389, R417 to R419) -/

/-- A sector is due for refresh (R418). -/
def State.refresh (s : State) (addr : Nat) : State :=
  let mine := s.vault.refreshDue.contains addr || s.vault.copies.vals.any fun c => c.left.contains addr
  if mine || !s.sectorLive addr then s else { s with vault := { s.vault with refreshDue := s.vault.refreshDue ++ [addr] } }

/-- Refresh the sectors that are due into a stream of their own mode, while the VAULT_PATROL allowance lasts (R377, R413, R418),
with fuel. -/
def refreshIssue : Nat → State → State
  | 0, s => s
  | n + 1, s => match s.vault.refreshDue with
    | [] => s
    | a :: l =>
      if !s.mayStart 4 then s
      else
        let t := { s with vault := { s.vault with refreshDue := l } }
        refreshIssue n (if !t.sectorLive a then t
          else (t.charge 4 8192).startCopy
            { left := [a], use := copyUse (t.vblk (vblockOf a)), patrol := true })

def State.refreshGo (s : State) : State := refreshIssue s.vault.refreshDue.length s

/-- Issue patrol reads, one block and page of a die's planes at a time, while the VAULT_PATROL allowance lasts (R388, R413, R417), with
fuel. -/
def patrolIssue : Nat → State → State
  | 0, s => s
  | n + 1, s => match s.vault.patrol with
    | some (a :: l) =>
      if !s.mayStart 4 then s
      else
        let (now, rest) := (a :: l).partition fun b => readKey b = readKey a
        patrolIssue n ((({ s with vault := { s.vault with patrol := some rest } } : State).charge 4 (4096 * now.length)).issueOp (.read now .patrol))
    | _ => s

/-- Refreshes that are due go first, then the pass goes on. -/
def State.patrolGo (s : State) : State :=
  let s := s.refreshGo
  patrolIssue (match s.vault.patrol with | some l => l.length | none => 0) s

/-- Patrol reads under way. -/
def State.patrolReads (s : State) : Nat :=
  (s.vault.ops.vals.map fun o => match o.op with | .read l .patrol => l.length | _ => 0).sum

/-- A pass ends with its last sector (R417), and with it that part of a self-test that ran it (R635). -/
def State.patrolEnd (s : State) : State :=
  match s.vault.patrol with
  | some [] =>
    if s.patrolReads ≠ 0 then s
    else ({ s with vault := { s.vault with patrol := none, patrolBehind := false, patrolPasses := s.vault.patrolPasses + 1 } } : State).updTest
      fun t => if t.patrol = 2 then { t with patrol := 0 } else t
  | _ => s

/-- Sectors of a command's read have come: a decoded sector gives its block, an uncorrectable one is lost (R419, R422). -/
def State.commandRead (s : State) (acc : Nat) (l : List (Nat × Option Nat)) : State :=
  match s.cmds.look acc with
  | none => s
  | some c =>
    let blocks := l.foldl (fun (bs : List BlockSt) e => match s.vault.sectors.look e.1 with
      | some x => match x.what with
        | .user _ lba => bs.set (lba - c.sqe.lba) (if e.2.isSome then .have_ x.data else .lost)
        | _ => bs
      | none => bs) c.blocks
    (s.updCmd acc fun c => { c with blocks := blocks, vaultLeft := c.vaultLeft - l.length }).later (.readCheck acc)

/-- Sources of a copy have been read: each decoded one is programmed in the copy's stream, a lost one is left out (R412). -/
def State.copyRead (s : State) (id : Nat) (l : List (Nat × Option Nat)) : State :=
  match s.vault.copies.look id with
  | none => s
  | some c =>
    let good := l.filterMap fun e => if e.2.isNone then none else
      (s.vault.sectors.look e.1).map fun x => (x.what, x.contentSeq, x.data)
    let c := { c with left := c.left.filter fun a => !l.any fun e => e.1 = a && e.2.isNone }
    let s := { s with vault := { s.vault with copies := s.vault.copies.put id c } }
    if c.left.isEmpty then s.copyCopied id c
    else if good.isEmpty then s else s.vprogram c.use good [.copyOf id]

/-- The sectors that the rebuild of a map page scans, where the sector that is lost is one of it in use: the bits corrected in them count as
those of any read (R410, R419, R427). -/
def State.scanBits (s : State) (addr : Nat) : State :=
  match s.vault.sectors.look addr with
  | some x => match x.what with
    | .mapPage i _ =>
      if !s.sectorLive addr then s
      else s.countAt ((s.vault.map.filter fun (e : Nat × VMap) =>
        mapPageOf (e.1 / 2 ^ 40) (e.1 % 2 ^ 40) = i && !e.2.lost).map fun e => e.2.phys)
    | _ => s
  | none => s

/-- Sectors have been read, each decoded with its corrected bits or uncorrectable: who asked gets them; one over the refresh threshold is
refreshed, and one that stays uncorrectable is handled by its space (R418, R419). -/
def State.sectorsRead (s : State) (die : Nat) (why : VRead) (l : List (Nat × Option Nat)) : State :=
  let s := s.countBits die (l.map (·.2))
  let s := s.over l fun s e => match e.2 with
    | some n => { s with vault := { s.vault with sectors := s.vault.sectors.upd e.1 fun x => { x with corrected := some n } } }
    | none => s
  let s := match why with
    | .command acc => s.commandRead acc l
    | .copy id => s.copyRead id l
    | .patrol => s
    | .test => s
  let s := s.over l fun s e => match e.2 with
    | some n => (if n > s.settings.refreshBits then (match why with | .copy _ => s | _ => s.refresh e.1) else s).recordsCheck e.1
    | none => (s.scanBits e.1).vaultLost e.1
  (if why = .patrol then s.patrolGo.patrolEnd else s.refreshGo).retireGo.cullBlocks

/-- VAULT_READ_COMPLETE: the bit errors of each attempt on each sector; a sector that the code cannot correct is tried at up to 8 read-level
offsets (R389, R418, R419). -/
def execVaultReadComplete (op : Nat) (reads : List (List Nat)) (s : State) : Host.Outcome State Fault Refusal :=
  vaultAct s (match s.vault.ops.look op with
    | some o => match o.op with
      | .read addr why =>
        if !s.opRuns o || reads.length ≠ addr.length || !reads.all readOver then s
        else s.opReply o fun s => (s.opOver op).sectorsRead o.op.die why (addr.zip (reads.map decoded))
      | .program _ _ _ _ _ => s
      | .erase _ => s
    | none => s)

/-- What a patrol pass reads: every verified sector that the map or an area references, or that lies in an open block (R417). -/
def State.patrolList (s : State) : List Nat :=
  (s.vault.sectors.filter fun e => s.sectorLive e.1 || (s.vblk (vblockOf e.1)).st = .open_).map (·.1)

/-- Is the patrol pass of an extended self-test due, after the short test and the marches (R635)? -/
def State.testPatrol (s : State) : Bool := s.mgmt.selfTest.status = 1 && s.shortDone && s.marchDone && s.mgmt.selfTest.patrol = 1

/-- PATROL_PASS_START: a pass over every verified sector in use begins once in each period, and goes on while its allowance
lasts (R417); an extended self-test runs one outside the schedule (R635). -/
def execPatrolPassStart (s : State) : Host.Outcome State Fault Refusal :=
  let period := s.settings.patrolHours * 3600000000
  let due := s.vault.patrolStarted = 0 || s.now ≥ s.vault.patrolStarted + period
  vaultAct s (if !s.vaultOn then s
    else if s.vault.patrol.isSome then s.patrolGo.patrolEnd
    else if !due && !s.testPatrol then s
    else
      (({ s with vault := { s.vault with
        patrol := some s.patrolList, patrolStarted := if due then max 1 s.now else s.vault.patrolStarted } } : State).updTest fun t =>
          if s.testPatrol then { t with patrol := 2 } else t).patrolGo.patrolEnd)

/-- PATROL_PERIOD_END: the period ends before its pass (R417). -/
def execPatrolPeriodEnd (s : State) : Host.Outcome State Fault Refusal :=
  act s (match s.vault.patrol with
    | some l =>
      if !s.vaultOn || s.vault.patrolBehind || s.now < s.vault.patrolStarted + s.settings.patrolHours * 3600000000 then s
      else { s with vault := { s.vault with patrolBehind := true } }.event Ev.vaultPatrolBehind 0 (l.length + s.patrolReads)
        s.settings.patrolHours 0
    | none => s)

/-! ### Erases, checkpoints, wear, garbage collection -/

/-- The blocks of an erase are verified or have failed: the verified ones are logged, and are FREE with that record's commit; a failed one is
retired at once (R393, R412, R415). -/
def State.erased (s : State) (l : List (Nat × Bool)) : State :=
  let good := (l.filter (·.2)).map (·.1)
  let s := s.over good fun s b => s.dropSectors b
  let s := if good.isEmpty then s else s.appendMap (good.map MapEntry.blockErased) none none
  s.over (l.filter fun e => !e.2) fun s e => s.retireBlock e.1 false

/-- VAULT_ERASE_COMPLETE: the outcome on each plane's block (R388, R393, R412, R415). -/
def execVaultEraseComplete (op : Nat) (ok : List Bool) (s : State) : Host.Outcome State Fault Refusal :=
  vaultAct s (match s.vault.ops.look op with
    | some o => match o.op with
      | .erase blocks => if !s.opRuns o || ok.length ≠ blocks.length then s else s.opReply o fun s => (s.opOver op).erased (blocks.zip ok)
      | .program _ _ _ _ _ => s
      | .read _ _ => s
    | none => s)

/-- VAULT_CHECKPOINT: every 60 s, or when the map log is half full, where none is under way (R408). -/
def execVaultCheckpoint (s : State) : Host.Outcome State Fault Refusal :=
  let busy := s.vault.writing.isSome || !s.vault.flushing.isEmpty
  vaultAct s (s.when (s.vaultOn && !busy && (s.now ≥ s.vault.checkpointAt + 60000000 || 2 * s.mapLogSegments ≥ mapRing)) s.startCheckpoint)

/-- WEAR_MOVE_CHECK: every 4 h the FULL block of least life used, where it lies more than 0.05 below the mean, is copied into
the FREE block of most life used that R399 lets be opened (R396); the move waits for the VAULT_GC allowance (R377, R413). -/
def execWearMoveCheck (s : State) : Host.Outcome State Fault Refusal :=
  vaultAct s (if !s.vaultOn || !s.wearDue then s
    else
      let t := { s with vault := { s.vault with wearAt := s.now } }
      match t.wearPick with
      | none => t
      | some (b, d) =>
        if !s.mayStart 3 then s
        else
          let u := VUse.wear (t.vblk b).triLevel
          let left := t.keepOf b
          let c : VCopy := { left := left, use := u, block := some b }
          if left.isEmpty then t.freeSource c
          else ((t.openBlock d u).charge 3 (8192 * left.length)).startCopy c)

/-- Copy a block's valid sectors away, charged to VAULT_GC unless it runs as foreground work (R412, R413). -/
def State.emptyBlock (s : State) (b : Nat) (u : VUse) : State :=
  if !s.vault.gcForeground && !s.mayStart 3 then s
  else
    let left := s.keepOf b
    let c : VCopy := { left := left, use := u, block := some b, outside := s.vault.gcForeground }
    let s := if s.vault.gcForeground then s else s.charge 3 (8192 * left.length)
    if left.isEmpty then s.freeSource c else s.startCopy c

/-- GARBAGE_COLLECTION_START: migration takes the FULL hot-user block that closed first, tri-level collection the FULL cold
block with the fewest valid sectors, each under its condition (R411, R413). -/
def execGarbageCollectionStart (s : State) : Host.Outcome State Fault Refusal :=
  vaultAct s (if !s.vaultOn then s
    else
      let f := s.freeCount
      let s := ({ s with vault := { s.vault with gcForeground := s.gcOutside } }).retireGo
      let s := if s.migrationDue f then (match s.migrationSource with | some b => s.emptyBlock b .cold | none => s) else s
      if f < 4096 then (match s.collectionSource with | some b => s.emptyBlock b .cold | none => s) else s)

/-- VAULT_BLOCK_OPENABLE: writes that waited for a block to open proceed in acceptance order (R413). -/
def execVaultBlockOpenable (s : State) : Host.Outcome State Fault Refusal :=
  let l := s.vault.waiting
  vaultAct s (if !s.vaultOn || l.isEmpty then s
    else (({ s with vault := { s.vault with waiting := [] } }).over l fun s w => s.programPage w.use w.sectors w.why).flushOpens)

/-- PERCENT_USED_RECOMPUTE (R425). -/
def execPercentUsedRecompute (s : State) : Host.Outcome State Fault Refusal :=
  vaultAct s (s.when (s.vaultOn && s.now ≥ s.vault.percentAt + 60000000) s.percentUpdate)

/-! ### A channel that does not answer (R424, R658) -/

/-- Does a die operation work for a command: a program of its data or of a map-log record of its entries, or a read of its sectors? -/
def State.opServes (s : State) (op : VOp) (acc : Nat) : Bool :=
  match op with
  | .program _ _ _ _ why => why.any fun w => match w with
    | .userWrite a => a = acc
    | .mapRec q => (s.vault.mapRecs.look q).any fun r => r.acc = some acc
    | _ => false
  | .read _ (.command a) => a = acc
  | .read _ _ => false
  | .erase _ => false

/-- Has a request of a command been held for 1 s (R424)? -/
def State.requestLate (s : State) (acc : Nat) : Bool :=
  s.vault.ops.vals.any fun o => s.opServes o.op acc && o.held && s.now ≥ o.since + 1000000

/-- A FLUSH of a vault volume has no request of its own: it stands for those of the writes that it waits for (R162, R424). -/
def State.flushLate (s : State) (acc : Nat) : Bool :=
  match s.cmds.look acc with
  | some c => c.sqe.opcode = 3 && (s.volumes.look c.sqe.vol).any (fun v => v.vault)
      && s.cmds.any fun e => e.1 < acc && e.2.sqe.vol = c.sqe.vol && [2, 4, 5].contains e.2.sqe.opcode && s.requestLate e.1
  | none => false

/-- VAULT_REQUEST_TIMEOUT: a request of the command has been held for 1 s (R424). -/
def execVaultRequestTimeout (acc : Nat) (s : State) : Host.Outcome State Fault Refusal :=
  vaultAct s (s.when (s.vaultOn && (s.requestLate acc || s.flushLate acc)) (s.endVaultWrite acc St.vaultUnavailable))

end Sys2Proof.Machine
end

