-- ==== Sys2Proof/Machine/Islands.lean ====
section
/-! DEFINITION. Clock islands and internal units: units that go down alone and come up, mapping out, fatal conditions, droop
stretching, the reference clock, temperature (R38 to R42, R651 to R668, R745, R755, R756). -/

namespace Sys2Proof.Machine

open Sys2Proof

/-! ### Fatal conditions (R511, R660) -/

/-- FATAL_CONDITION: one of the conditions of R660. -/
def execFatalCondition (cause island : Nat) (s : State) : Host.Outcome State Fault Refusal :=
  act s (if !s.live || cause = 0 || cause > 6 then s else (s.fatalInternal cause island).run)

/-- ROUTER_TIMEOUT: a router's boundary has not answered for 1 ms (R660 cause 3). -/
def execRouterTimeout (island : Nat) (s : State) : Host.Outcome State Fault Refusal :=
  act s (if !s.live || island < 234 || island > 249 then s else (s.fatalInternal 3 island).run)

/-- WATCHDOG_EXPIRY: ARB_HB stops and the sideband reports a fatal condition; STATE does not change (R511). -/
def execWatchdogExpiry (s : State) : Host.Outcome State Fault Refusal :=
  act s (if !s.live then s else ({ s.hbLow with life := { s.hbLow.life with hbStopped := true } }).alert .fatal)

/-- HBM_PARITY_ERROR: a command or address parity error, the second in 24 h a criterion (R664). -/
def execHbmParityError (channel : Nat) (s : State) : Host.Outcome State Fault Refusal :=
  act s (
    let i := 66 + channel
    if !s.live || channel ≥ 32 || (s.island i).status = 3 || (s.island i).status = 1 then s
    else
      let l := dayWindow s.now (s.island i).parityTimes
      let s := s.updIsland i fun x => { x with parityTimes := l }
      (if l.length ≥ 2 then s.beginMapOut i else s).run)

/-! ### A unit goes down alone (R655, R658) -/

/-- A job's ABSENT answer: a parison's UPDATE closes its parison, any other job goes to another tile, a retry not to the tile that failed
first; neither counts as a failure (R130, R132, R134, R177). -/
def State.jobAbsent (s : State) (t : Nat) (j : Job) : State :=
  match j.op, j.task with
  | .absorb id _ _ _, _ => (s.unpin j.pins).absorbFailed t id
  | _, some k =>
    match s.tasks.look k with
    | some x => if x.job = some j.id then s.sendJob j none (x.firstFail.map (·.1)) else s.unpin j.pins
    | none => s.unpin j.pins
  | _, none => s

/-- A tile's jobs are answered ABSENT, and the replies carry its current epoch to their requester (R654, R655, R657). -/
def State.tileAbsent (s : State) (t : Nat) : State :=
  let x := s.tile t
  let l := x.running.toList ++ x.queue
  let s := if l.isEmpty then s else s.learnEpoch firmwareIsland (114 + t)
  (s.setTile t { x with running := none, queue := [], fgRun := 0 }).over l fun s j => s.jobAbsent t j

/-- The replies to the HBM reads that a tile had outstanding when it was reset come back under its old epoch: how many they are and from
which channel no rule says (R656, DESIGN CHOICE 41). -/
def State.tileStale (s : State) (t : Nat) : State :=
  match (s.tile t).running with
  | none => s
  | some j => s.dropStale (114 + t) (66 + (Config.openValue (0x6560 + t) s.now).toNat % 32)
      ((Config.openValue (0x6500 + t) s.now).toNat % (j.bytes / 4096 + 1))

/-- A reset of a tile: its work is answered ABSENT, and the third reset in 24 h maps it out (R656, R658, R664); one that was to be mapped out
already is so now, since its queue is empty (R667). -/
def State.tileReset (s : State) (t : Nat) : State :=
  let s := ((s.islandDown (114 + t) 0).tileStale t).tileAbsent t
  let l := dayWindow s.now (s.tile t).resetTimes
  let s := s.setTile t { s.tile t with resetTimes := l }
  let row := (s.island (114 + t)).outRow
  if row ≠ 0 then s.mapOut (114 + t) row
  else if l.length ≥ 3 then s.beginMapOut (114 + t)
  else s

/-- The operation that a die works on: the oldest that is not held. -/
def State.dieWorks (s : State) (c : Nat) : Option (Nat × VReq) :=
  s.vault.ops.find? fun (o : Nat × VReq) => o.2.op.die = c && !o.2.held

/-- A vault channel is reset: the operation its die was working on is interrupted. A program counts as failed, an
erase or read is issued again; every request of the die is answered ABSENT with the new epoch, and held (R424, R655, R657, R658). -/
def State.channelReset (s : State) (c : Nat) : State :=
  let x := s.dieWorks c
  let s := s.islandDown (98 + c) 0
  let s := if x.isSome then s.learnEpoch firmwareIsland (98 + c) else s
  let s := { s with vault := { s.vault with ops := s.vault.ops.each fun _ (o : VReq) =>
    if o.op.die = c && !o.held then { o with held := true, since := s.now } else o } }
  match x with
  | some (_, o) => match o.op with
    | .program _ b _ _ _ => s.programFailed b
    | .read _ _ => s
    | .erase _ => s
  | none => s

/-- The sideband goes down: its command in progress ends with the reset, and the target holds the bus clock low until it is back (R658, R701,
R709). -/
def State.sidebandDown (s : State) : State :=
  let s := s.clearBegun.islandDown 253 0
  (if s.sb.busy then s.dropStale 253 firmwareIsland 1 else s).emit (.sidebandClock true)

/-- The recorder is reset: the reply to a page of records that is being programmed comes back under its old epoch and is dropped, so that
the page counts as not programmed (R656, R658). -/
def State.recorderDown (s : State) : State :=
  let s := s.islandDown 251 0
  let mine (w : VFor) : Bool := match w with | .recordsPart _ => true | .seriesPart _ _ => true | _ => false
  let busy := s.vault.ops.filter fun (o : Nat × VReq) => match o.2.op with | .program _ _ _ _ why => why.any mine | _ => false
  let s := s.over busy fun s o => s.dropStale 251 (98 + o.2.op.die) 1
  { s with
    recorder := { s.recorder with up := false },
    vault := { s.vault with
      ops := s.vault.ops.each fun _ (o : VReq) => match o.op with
        | .program u b p c why => { o with op := .program u b p c (why.filter fun w => !mine w) }
        | _ => o,
      waiting := s.vault.waiting.map fun w => { w with why := w.why.filter fun y => !mine y } } }

/-- May the island go down alone by a reset (R658)? -/
def canReset (i : Nat) : Bool := (98 ≤ i && i < 162) || i = 250 || i = 251 || i = 253 || i = 258 || i = 259

/-- A reset of one island alone (R658). -/
def State.resetIsland (s : State) (i : Nat) : State :=
  if i < 114 then s.channelReset (i - 98)
  else if i < 162 then s.tileReset (i - 114)
  else if i = 250 then
    let s := s.islandDown i 0
    { s with gov := { s.gov with computing := false, computed := false } }
  else if i = 251 then s.recorderDown
  else if i = 253 then s.sidebandDown
  else
    let s := s.islandDown i 0
    { s with recorder := { s.recorder with droop50 := 0, droop25 := 0 } }

/-- An uncorrectable word in a drive port's queue state: the port never goes down alone, its controller is reset under R290 (R658). -/
def State.queueStateBad (s : State) (p : Nat) : State :=
  let x := s.port p
  if x.linkUp && x.resetWhy.isNone && x.ctl ≠ .off && x.ctl ≠ .unused && x.ctl ≠ .failed then s.resetController p .queueState else s

/-- UNIT_DOWN: an uncorrectable word in an island's own state, which resets it, or in a drive port's the controller; a drain for the self-test, of a tile, of a range of an HBM channel, which does
not go down, or of a whole channel for the march; or the end of a drain to a map-out (R658, R665, R667, R668). -/
def execUnitDown (island : Nat) (why : DownCause) (s : State) : Host.Outcome State Fault Refusal :=
  vaultAct s (
    let x := s.island island
    let unit := (66 ≤ island && island < 98) || (114 ≤ island && island < 162)
    if !s.live || island ≥ 260 then s
    else match why with
      | .reset =>
        if island < 64 then s.queueStateBad island
        else if canReset island && (x.status = 0 || x.status = 2) then s.resetIsland island else s
      | .drained =>
        let t := s.mgmt.selfTest
        if !unit || t.status ≠ 1 || x.status ≠ 0 || s.unitInTest then s
        else if t.units.contains island then
          if island < 98 then s.updTest fun t => { t with range := some (island - 66, false) } else s.setIsland island { x with status := 2 }
        else if t.marches.contains island && s.shortDone then s.setIsland island { x with status := 2 }
        else s
      | .mappedOut => s)

/-! ### A unit comes up (R652, R657) -/

/-- What an island's return starts again: held vault requests, jobs that wait for a tile, the governor's first sample, records
held at their sources, the sideband's registers (R381, R424, R658, R709). -/
def State.unitBack (s : State) (i : Nat) : State :=
  if 98 ≤ i && i < 114 then s.reissueOps (i - 98)
  else if i = 250 then (if s.gov.running then s.govStart else s)
  else if i = 251 then
    let held := s.recorder.held
    ({ s with recorder := { s.recorder with up := true, held := [] } }).over held fun s r => s.accept r
  else if i = 253 then (s.sbCleared).emit (.sidebandClock false)
  else s

/-- UNIT_UP: an island that went down comes up with its new epoch; a drained one takes a further increment, a tile once its test is over
(R652, R657, R667). A drain's own increment that had to wait comes first; an HBM channel's share moves back, and the frames that held it are
free (R668). -/
def execUnitUp (island : Nat) (s : State) : Host.Outcome State Fault Refusal :=
  vaultAct s (
    let s := s.lateEpochs
    let x := s.island island
    let ready := match x.advancedAt with | some t => s.now ≥ t + 1000 | none => true
    let testing := 114 ≤ island && island < 162 && (s.tile (island - 114)).running.isSome
    if !s.live || x.status ≠ 1 || testing || ((x.advanceDue || x.drained) && !ready) then s
    else
      let more := x.advanceDue || x.drained
      let e := if more then x.epoch + 1 else x.epoch
      let s := s.setIsland island { x with
        epoch := e, advancedAt := if more then some s.now else x.advancedAt, advanceDue := false, drained := false, status := 0,
        upAt := some s.now }
      let s := s.when x.drained (s.unitTested island)
      let s := if 66 ≤ island && island < 98 then { s with mgmt := { s.mgmt with shares := s.mgmt.shares.del (island - 66) } } else s
      (s.event Ev.unitUp (island % 256) island e.toNat 0).unitBack island)

/-- VAULT_OPERATION_TIMEOUT: a die operation has run 50 ms, and its channel is reset (R658). -/
def execVaultOperationTimeout (channel : Nat) (s : State) : Host.Outcome State Fault Refusal :=
  vaultAct s (
    let late := match s.dieWorks channel with
      | some o => s.now ≥ o.2.since + 50000
      | none => false
    if s.vaultOn && channel < 16 && s.vaultUp channel && late then s.channelReset channel else s)

/-! ### Droop stretching (R38 to R42) -/

/-- Entries into 50 % and 25 % are counted, and collected by island 259 while it works. -/
def State.countDroop (s : State) (i : Nat) (deep : Bool) : State :=
  let x := s.island i
  let s := s.setIsland i (if deep then { x with clock := 2, clockAt := s.now, enter25 := x.enter25 + 1 }
                          else { x with clock := 1, clockAt := s.now, enter50 := x.enter50 + 1 })
  if (s.island 259).status ≠ 0 then s
  else
    let r := s.recorder
    { s with recorder := if deep then { r with droop25 := r.droop25 + 1 } else { r with droop50 := r.droop50 + 1 } }

/-- DROOP_STRETCH_50: a supply below 94 %; at 50 % or 25 % already the 1 µs wait begins again (R38, R40). -/
def execDroopStretch50 (island : Nat) (s : State) : Host.Outcome State Fault Refusal :=
  act s (
    let x := s.island island
    if s.life.inReset || island ≥ 260 then s
    else if x.clock = 0 then s.countDroop island false
    else s.setIsland island { x with clockAt := s.now })

/-- DROOP_STRETCH_25: a supply below 90 %, from either clock (R39, R40). -/
def execDroopStretch25 (island : Nat) (s : State) : Host.Outcome State Fault Refusal :=
  act s (
    let x := s.island island
    if s.life.inReset || island ≥ 260 then s
    else if x.clock = 2 then s.setIsland island { x with clockAt := s.now }
    else s.countDroop island true)

/-- DROOP_RECOVER: the supply has held for 1 µs, and the clock rises one step; a rise to 50 % is an entry into 50 % (R40, R42).
The second wait of 1 µs begins at that rise: time the supply held before it does not count (DESIGN CHOICE 55). -/
def execDroopRecover (island : Nat) (s : State) : Host.Outcome State Fault Refusal :=
  act s (
    let x := s.island island
    if s.life.inReset || x.clock = 0 || s.now < x.clockAt + 1 then s
    else if x.clock = 2 then s.countDroop island false
    else s.setIsland island { x with clock := 0, clockAt := s.now })

/-! ### Reference clock and temperature (R745, R755, R756) -/

/-- REFCLK_LOST: the internal oscillator takes over and the module enters FAILED (R745). -/
def execRefclkLost (s : State) : Host.Outcome State Fault Refusal :=
  act s (if s.life.inReset || s.life.refclkLost then s
    else
      let before_ := s.life.st
      let s := { s with life := { s.life with refclkLost := true } }
      ((s.event Ev.refclkLost 0 before_.code 0 0).failDevice).run)

/-- THERMAL_WARN: the hottest island reaches 100 °C; the event comes once until the warning has ended (R755). Temperatures are in
0.125 °C. -/
def execThermalWarn (island : Nat) (temp : Int) (s : State) : Host.Outcome State Fault Refusal :=
  act s (if !s.live || s.recorder.thermalWarn || temp < 800 then s
    else { s with recorder := { s.recorder with thermalWarn := true } }.record Ev.thermalWarn ⟨none, 0⟩ (w32 island)
      (BitVec.ofInt 32 temp) 0)

/-- THERMAL_WARN_END: it has fallen to 95 °C (R755). -/
def execThermalWarnEnd (s : State) : Host.Outcome State Fault Refusal :=
  act s (if !s.live then s else { s with recorder := { s.recorder with thermalWarn := false } })

/-- THERMAL_TRIP: 115 °C for 1 ms. The power die keeps the trip, the module enters FAILED from any state, with a pass where R464
and R511 allow one, and then, or at once where no pass is open, the logic die is held in reset for 60 s (R756). -/
def execThermalTrip (island : Nat) (temp : Int) (s : State) : Host.Outcome State Fault Refusal :=
  act s (if s.life.inReset || s.life.thermalHold.isSome || temp < 920 then s
    else
      let s := s.updPack fun p => { p with thermalTrip := some (island, temp, s.life.st) }
      let s := s.failDevice
      let s := { s with life := { s.life with thermalHold := some 0 } }
      if s.passOpen then s else s.dieReset none)

end Sys2Proof.Machine
end

