-- ==== Sys2Proof/Machine/Metadata.lean ====
section
/-! DEFINITION. The array as a module reads it from the drives: the label, the newest configuration copy, the region table from its
slices and the change log, and the activity bitmap (R498, R500, R503 to R509). -/

namespace Sys2Proof.Machine

open Sys2Proof

/-- The element of a list with the highest key, the first of several. -/
def highest {α : Type} (key : α → Nat) (l : List α) : Option α :=
  l.foldl (fun best x => match best with
    | some b => if key b < key x then some x else some b
    | none => some x) none

/-- The label copy that a reader takes: the highest LABEL_SEQ with a good LABEL_CRC over every drive that reads (R498). -/
def readLabel (l : List DriveMeta) : Option LabelCopy :=
  highest (fun c => c.label.labelSeq) ((l.flatMap (·.labels)).filter (·.good))

/-- The configuration copy with the highest valid CONFIG_SEQ (R500, R516). -/
def readConfig (logs : List DriveMeta) : Option ConfigCopy :=
  highest (fun (c : ConfigCopy) => c.seq) ((logs.flatMap (·.configs)).filter (·.good))

/-- For each slice the valid copy with the highest CHECKPOINT_SEQ over every drive that reads (R506 steps 1 and 2). -/
def readSlices (l : List DriveMeta) : List SliceCopy :=
  (span 0 64).filterMap fun k => highest (fun (c : SliceCopy) => c.checkpointSeq) ((l.flatMap (·.slices)).filter fun c => c.good && c.slice = k)

/-- The items of the change log from a SEQ on, each segment from any log drive that holds it with a good SEG_CRC, up to the first SEQ that
is missing; and that SEQ (R506 step 3), with fuel. -/
def replayLog (segs : List LogSegment) : Nat → Nat → List MetaItem × Nat
  | 0, q => ([], q)
  | n + 1, q => match segs.find? fun x => x.good && x.seq = q with
    | none => ([], q)
    | some x => let (l, e) := replayLog segs n (q + 1); (x.items ++ l, e)

/-- An item sets its whole value (R506). A volume's descriptor has no region list, so the one of the configuration copy stands (DESIGN CHOICE 47). -/
def ArrayImage.set (a : ArrayImage) : MetaItem → ArrayImage
  | .region i e => { a with regions := Store.putD {} a.regions i e }
  | .member p x => { a with members := a.members.filter (fun y => y.port ≠ p) ++ x.toList }
  | .pool i x => { a with pools := a.pools.filter (fun y => y.id ≠ i) ++ x.toList }
  | .volume i x =>
    let old := match a.volumes.find? fun y => y.id = i with | some y => y.vmap | none => []
    { a with volumes := a.volumes.filter (fun y => y.id ≠ i) ++ x.toList.map fun v => { v with vmap := old } }

/-- The bits that a reader takes as set, of those that stand for a region in use: the OR of both slots over every log drive that reads, with
every bit of a sector that does not read; with no log drive, all (R509). -/
def readBitmap (logs : List DriveMeta) (used : List Nat) : List Nat :=
  if logs.isEmpty then used
  else uniq (logs.flatMap (fun d => d.slotA ++ d.slotB)
    ++ used.filter fun i => logs.any fun d => d.unread.any fun u => u.1 ≤ i && i < u.1 + u.2)

/-- The array on the drives (R498, R506, R509, R516 step 3); without a valid label there is none (R499). -/
def readArray (l : List DriveMeta) : ArrayImage :=
  match readLabel l with
  | none => {}
  | some c =>
    let logs := l.filter fun d => c.logs.contains d.port
    let slices := readSlices l
    let first := match slices.map (·.beginSeq) with | [] => 1 | x :: t => t.foldl min x
    let segs := logs.flatMap (·.changeLog)
    let (items, next) := replayLog segs segs.length first
    let a : ArrayImage := match readConfig logs with
      | some x => { templates := x.templates, pools := x.pools, members := x.members, volumes := x.volumes }
      | none => {}
    let regions := (slices.flatMap fun x => x.entries.map fun e => (x.slice * 262144 + e.1, e.2)).foldl
      (fun (m : Store Region) e => m.putD {} e.1 e.2) []
    let a := items.foldl ArrayImage.set { a with regions := regions }
    { a with
      label := some c.label, labelCopy := c.copy, logPorts := c.logs, changeSeq := next,
      sliceSeq := (slices.map (·.checkpointSeq)).foldl max 0, sliceBegin := slices.map fun x => (x.slice, x.beginSeq),
      bitmap := readBitmap logs (a.regions.map (·.1)) }

end Sys2Proof.Machine
end

