-- ==== Sys2Proof/Machine/Restart.lean ====
section
/-! DEFINITION. Start-up: what a reset keeps, the vault mount, dump restore, the journal scan and replay, the array's label, the
start of a take-over, and READY (R204 to R209, R222 to R226, R409, R410, R480 to R489, R499, R506, R516 to R525). -/

namespace Sys2Proof.Machine

open Sys2Proof

/-! ### What a reset leaves (R651, R677, R680, R681, R695, R763) -/

/-- The SEQUENCE with which a start-up resumes: 513 above the highest committed, with the wrap (R677). -/
def resumeSequence (h : BitVec 32) : BitVec 32 :=
  if h = 0 then 513 else BitVec.ofNat 32 ((h.toNat - 1 + 513) % (2 ^ 32 - 1) + 1)

/-- The recorder after a reset: committed records and saved series stay (R677, R681, R695). -/
def Recorder.afterReset (r : Recorder) (now : Nat) : Recorder :=
  let kept := r.records.take (r.records.length - r.pending)
  { records := kept, next := resumeSequence r.highest, highest := r.highest, parts := r.parts, full := kept.length ≥ 65536,
    commitAt := now, lifetime := r.savedLifetime, extremes := r.savedExtremes, savedLifetime := r.savedLifetime,
    savedExtremes := r.savedExtremes, intervalAt := now, droop50At := now }

/-- The life of the module as start-up begins; `keep` says that the host side has stayed up through a PERST_N pass (R469). -/
def Life.afterReset (l : Life) (keep : Bool) (f : StartFindings) (now : Nat) : Life :=
  let straps := !keep && f.perstHigh
  { st := .booting, inReset := false, railsUp := l.railsUp, railsSince := l.railsSince,
    perst := if keep then l.perst else !f.perstHigh,
    bifurcated := if straps then f.hostBif else l.bifurcated, side := if straps then f.pairSide else l.side,
    hostReady := true, released := l.released, takesIgnored := l.takesIgnored, dump := l.dump, passDump := l.passDump, dumpSeq := l.dumpSeq, starting := true, fencePin := l.fencePin, hbAt := now, lastFatal := l.lastFatal, fwRunning := l.fwRunning, hbmTrained := f.hbmTrained,
    startCount := l.startCount + 1, opSecondsBase := (l.opSaved + 60) % 2 ^ 40, opSince := now, opSaved := l.opSaved, opSavedAt := now }

/-- The islands as the logic die leaves reset: all at epoch 0, but after a PERST_N pass the host side as it stayed up and every other one
with the epoch it went down to (R469, R651, DESIGN CHOICE 43); channels and tiles that are mapped out stay so, and the windows of 24 h go on
(R664). -/
def State.islandsUp (s : State) (keep : Bool) : Store Island :=
  let days (x : Island) : Island := { uncorrTimes := x.uncorrTimes, parityTimes := x.parityTimes }
  let old : Store Island := (s.islands.each fun i (x : Island) =>
    if !keep then days x
    else if hostSide i then x
    else { days x with epoch := if x.advanceDue then x.epoch + 1 else x.epoch, advancedAt := if x.advanceDue then some s.now else x.advancedAt }).keep
      fun _ x => x ≠ {}
  let out := ((span 0 32).filter fun c => s.mgmt.hbmOut.getLsbD c).map (66 + ·)
    ++ ((span 0 48).filter fun t => s.mgmt.tilesOut.getLsbD t).map (114 + ·)
  out.foldl (fun (a : Store Island) i => a.put i { (a.read i {}) with status := 3 }) old

/-- The state of the logic die as it leaves reset: everything volatile at its reset value, among it what no rule keeps over a restart: the
adaptive hedge threshold, the windows of media errors and hard timeouts, the latch of EV_SPARE_LOW (DESIGN CHOICE 43). -/
def State.outOfReset (s : State) (f : StartFindings) : State :=
  let keep := s.life.hostReady
  let m := s.mgmt
  { s with
    todo := [], cmds := if keep then s.cmds else [], frames := [], heads := [], locks := [], tasks := [], table := [], staging := [],
    parisons := [], streams := [], tileWait := [], ports := [],
    -- a queued check keeps its option and starts over with its region (R350, DESIGN CHOICE 43)
    work := (s.work.keep fun r (w : RegionWork) => w.reportOnly && (s.region r).checkPending).each fun _ (_ : RegionWork) => { reportOnly := true },
    tiles := s.tiles.each fun _ (t : Tile) => { failTimes := t.failTimes, resetTimes := t.resetTimes },
    link := { lastFrame := s.now }, pack := { s.pack with crossing := 0, strobe := false }, gov := { saved := s.gov.saved }, wp := { lEff := s.settings.lCfg, lrAt := s.now },
    islands := s.islandsUp keep,
    recorder := s.recorder.afterReset s.now,
    life := s.life.afterReset keep f s.now,
    sb := { s.sb with staticAddr := some (s.sb.staticAddr.getD (0x58 + f.sbAddr.toNat)) },
    -- what was being programmed when the reset came is not whole (R222)
    vault := { s.vault with mounted := false, ops := [], flushing := [],
                            torn := s.vault.torn ++ s.vault.ops.vals.flatMap fun (o : VReq) => match o.op with
                              | .program _ _ _ l _ => if o.held then [] else l.map (·.1)
                              | _ => [] },
    journal := { s.journal with waiting := [], retireQ := [], retireTasks := [], fullRecorded := false },
    mgmt := { selfTest := m.selfTest, slotA := m.slotA, slotB := m.slotB, nextSlot := m.nextSlot, hbmOut := m.hbmOut,
              tilesOut := m.tilesOut, shares := m.shares.keep fun c _ => m.hbmOut.getLsbD c, arrayId := m.arrayId, credits := if keep then m.credits else [0, 0, 0],
              lastGrant := if keep then m.lastGrant else [], hedgeAt := s.now, estimateAt := s.now },
    pools := s.pools.each fun _ (p : Pool) => { p with
      hedgeAuto := 2000, hedgeRecorded := 2000, hist := [[]], hedgesNow := 0, refusedNow := 0, readsPrev := 0, readsNow := 0, paused := false, scrubAt := none, scrubBehind := false, scrubStarted := 0,
      starvedSince := none, starvedRecorded := false, spareLow := false },
    members := s.members.each fun _ (x : Member) => { x with mediaTimes := [], hardTimes := [], hist := [[]], slowSecs := 0 },
    volumes := s.volumes.each fun _ (v : Volume) => { v with detaching := none, deleting := false, commitCtr := 0, genFound := false },
    learned := [],
    -- what of the changes under way has reached the drives, their reading shows (R502, R506)
    pair := { s.pair with partnerPresent := false, partnerLost := false, lastBeat := s.now, sentAt := s.now, changes := [], changesAt := s.now,
                          jobs := [], answers := [], activeAt := [], activeNow := [], bitmapAt := s.now, sliceAt := s.now } }

/-! ### Steps 2 and 3 (R480, R481, R664) -/

/-- The slot that start-up runs: the one made active, else the other (R480 step 2). -/
def State.firmwareSlot (s : State) (f : StartFindings) : Option Nat :=
  let ok (k : Nat) : Bool := (s.slot k).valid && (if k = 0 then f.slotAOk else f.slotBOk)
  let k := s.mgmt.nextSlot
  if ok k then some k else if ok (1 - k) then some (1 - k) else none

/-- Start-up fails: EV_START_FAILED and FAILED (R481). -/
def State.startFails (s : State) (step trained : Nat) : State := (s.event Ev.startFailed 0 step trained 0).failDevice

/-- HBM channels that trained and are not mapped out. -/
def State.trained (s : State) : List Nat := (span 0 32).filter fun c => s.life.hbmTrained.getLsbD c && !s.mgmt.hbmOut.getLsbD c

/-- Channels that have just failed training are mapped out, and so go down (R651, R664). -/
def State.mapOutUntrained (s : State) : State :=
  s.over ((span 0 32).filter fun c => !s.life.hbmTrained.getLsbD c && !s.mgmt.hbmOut.getLsbD c) fun s c =>
    ((s.moveShare c).islandDown (66 + c) 2).mapOut (66 + c) 1

/-! ### Step 4: the vault mount (R409, R410) -/

/-- The first check that a map-log record's segments fail where SEQ `expect` is due: 0 MAGIC, 1 RECORD_CRC, 2 SEQ (R405, R409, R428). -/
def mapRecordCheck (l : List Block) (expect : Nat) : Option Nat :=
  let b := l.flatMap fullSeg
  if numAt b 0 4 ≠ 0x4C4D4C49 then some 0
  else if crc32c (overlay b 0x10 (toLe 4 0)) ≠ BitVec.ofNat 32 (numAt b 0x10 4) then some 1
  else if numAt b 8 8 ≠ expect then some 2
  else none

/-- How the replay finds a record: none where it reads whole and passes every check, else the check that fails. Of a first segment that does
not read whole no rule says whether MAGIC or RECORD_CRC fails (R409, DESIGN CHOICE 25). -/
def Vault.recordFound (v : Vault) (q : Nat) (r : MapRec) : Option Nat :=
  match v.segmentRead (.mapLog q 0) 0 with
  | .erased => some 0
  | .broken => some ((Config.openValue 0x7005 q).toNat % 2)
  | .good d =>
    let rest := (span 1 (mapSegments r.entries.length - 1)).map fun k => (v.segmentRead (.mapLog q k) 0).data
    if rest.any Option.isNone then some 1 else mapRecordCheck (d :: rest.filterMap id) q

/-- The records of the replay in SEQ order, the place of the ring after them, and the SEQ and the check at which it stops (R409). -/
def Vault.replayFrom (v : Vault) : Store MapRec → Nat → Nat → Store MapRec × Nat × Nat × Nat
  | [], next, pos => ([], pos, next, 0)
  | (q, r) :: t, _, pos => match v.recordFound q r with
    | some why => ([], pos, q, why)
    | none =>
      let (l, rest) := Vault.replayFrom v t (q + 1) ((pos + mapSegments r.entries.length) % mapRing)
      ((q, { r with pages := 0, written := true, committed := true, acc := none, copies := [] }) :: l, rest)

/-- A replayed entry's effect on the blocks (R393, R409); what an open block is used for its sectors' back-pointers say, as `old` has it. -/
def replayBlock (old m : Store VBlock) : MapEntry → Store VBlock
  | .blockOpen b tri =>
    let x := m.read b {}
    let y := old.read b {}
    m.putD {} b { x with st := .open_, triLevel := tri, use := y.use, nextPage := y.nextPage }
  | .blockErased b =>
    let x := m.read b {}
    m.putD {} b { nS := x.nS + b2n !x.triLevel, nT := x.nT + b2n x.triLevel }
  | .blockRetired b => m.putD {} b { m.read b {} with st := .retired }
  | .map _ _ _ _ => m
  | .unmap _ _ => m
  | .sectorLost _ _ => m
  | .mapPage _ _ => m
  | .checkpoint _ => m

/-- The blocks as the mount finds them: those of the checkpoint as the replayed entries leave them; what was OPEN is FULL, and so is a
block that holds sectors though no committed entry opens it (R393, R409, R411). -/
def mountBlocks (v : Vault) (c : Checkpoint) (entries : List MapEntry) : Store VBlock × Nat :=
  let m := c.stone.foldl (fun (m : Store VBlock) b => m.putD {} b { m.read b {} with st := .retired }) c.blocks
  let m := entries.foldl (fun m e => replayBlock v.blocks m e) m
  let m := (uniq (v.sectors.keys.map vblockOf)).foldl (fun (m : Store VBlock) b =>
    let x := m.read b {}
    if x.st = .free then m.put b { v.blocks.read b {} with st := .open_, nS := x.nS, nT := x.nT } else m) m
  m.foldl (fun (a : Store VBlock × Nat) e =>
    let x : VBlock := { e.2 with erasing := false }
    if x.st = .open_ then (a.1.put e.1 { x with st := .full, closedAt := a.2 + 1 }, a.2 + 1) else (a.1.put e.1 x, a.2)) ([], v.closeCtr)

/-- The scan of the blocks opened since the checkpoint: a duplicate with a good back-pointer and a higher PROGRAM_SEQ takes over (R410). -/
def Vault.scan (v : Vault) (opened : List Nat) (m : Store VMap) : Store VMap :=
  v.sectors.foldl (fun m e =>
    match e.2.what with
    | .user vol lba =>
      let k := vkey vol lba
      match m.look k with
      | none => m
      | some x => match v.sectors.look x.phys with
        | none => m
        | some y =>
          if opened.contains (vblockOf e.1) && e.2.corrected.isSome && backPointerGood e.2.spare && e.2.contentSeq = y.contentSeq
              && e.2.programSeq > y.programSeq
          then m.put k { x with phys := e.1 } else m
    | _ => m) m

/-- The bits corrected in what start-up reads up to the mount's first step: page 0 of every block, the firmware slots that it tries, and both
copies of the checkpoint (R409, R427, R480 steps 1, 2 and 4). -/
def State.countStart (s : State) (copies : List Checkpoint) : State :=
  let tried := if s.life.fwRunning = s.mgmt.nextSlot then [s.life.fwRunning] else [s.mgmt.nextSlot, s.life.fwRunning]
  let ofSlot (x : VSector) (k : Nat) : Bool :=
    (match x.what with | .firmware j _ => j = k | _ => false) && x.programSeq > (s.slot k).after
  let s := s.countAt ((s.vault.sectors.filter fun (e : Nat × VSector) =>
    e.1 % 2048 / 4 = 0 || tried.any (ofSlot e.2)).map (·.1))
  s.over copies fun s c => s.countSegments ((span 0 c.parts).map (VLogical.checkpoint c.copy)) c.after

/-- The vault is mounted from its newer valid checkpoint; false where no copy is valid (R409). A duplicate that takes over gets a MAP
entry, so that the committed map follows (DEDUCED 25: R412). A patrol pass that the restart has cut off is dropped: the next one begins when
the period is over (R417, DESIGN CHOICE 55). -/
def State.mount (s : State) : Bool × State :=
  let v := s.vault
  let copies := v.copy0.toList ++ v.copy1.toList
  let v := { v with copy0 := v.copy0.filter v.copyGood, copy1 := v.copy1.filter v.copyGood }
  match v.newest with
  | none => (false, (s.countStart copies).event Ev.vaultMount 0 1 0 0)
  | some c =>
    let (recs, pos, next, why) := v.replayFrom (v.mapRecs.keep fun q _ => q ≥ c.mapSeq) c.mapSeq c.mapPos
    let s := if why = 1 then s.event Ev.vaultMaplogEnd 0 next (4 * pos) 1 else s
    let entries := recs.flatMap (·.2.entries)
    let opened := entries.filterMap fun e => match e with | .blockOpen b _ => some b | _ => none
    let loose := (uniq (v.sectors.keys.map vblockOf)).filter fun b =>
      ((entries.foldl (fun m e => replayBlock v.blocks m e) c.blocks).read b {}).st = .free
    let (blocks, ctr) := mountBlocks v c entries
    let map := entries.foldl applyEntry c.map
    let found := v.scan (opened ++ loose) map
    let taken := found.filterMap fun (e : Nat × VMap) =>
      if map.look e.1 = some e.2 then none else some (MapEntry.map (e.1 / 2 ^ 40) (e.1 % 2 ^ 40) e.2.phys e.2.contentSeq)
    let n := c.counts
    let percent := max v.percentUsed (n.getD 0 0)
    let v := { v with
      mounted := true, blocks := blocks, closeCtr := ctr, map := map, committedMap := map,
      mapTable := entries.foldl (fun m e => match e with | MapEntry.mapPage i p => m.put i p | _ => m) c.mapTable, mapCache := [],
      dirtyPages := uniq (entries.filterMap MapEntry.page),
      sectors := v.sectors.keep fun _ x => match x.what with | .mapLog k _ => k < next | _ => true,
      mapRecs := recs, nextMapSeq := next, mapPos := pos, openEntries := [],
      turns := List.replicate 7 0, waiting := [], writing := none, checkpointDue := false, checkpointSeq := max v.checkpointSeq c.seq,
      checkpointAt := s.now, patrol := none, refreshDue := [], retireDue := [], patrolBehind := false, copies := [], gcForeground := false,
      programFails := n.getD 1 0, eraseFails := n.getD 2 0, uncorrectable := n.getD 3 0, refreshes := n.getD 4 0,
      correctedBits := n.getD 5 0, patrolPasses := n.getD 6 0,
      percentUsed := percent, life90 := v.life90 || percent ≥ 90, readOnly := v.readOnly || percent ≥ 100, percentAt := s.now }
    let s := ({ s with vault := v }).event Ev.vaultMount 0 0 c.seq recs.length
    -- the mount has read the map log and the blocks of the scan as well (R409, R427)
    let s := (s.countStart copies).countAt (s.vault.sectors.keys.filter fun a => (opened ++ loose).contains (vblockOf a))
    let s := s.countSegments (recs.flatMap fun (e : Nat × MapRec) => (span 0 (mapSegments e.2.entries.length)).map (VLogical.mapLog e.1)) 0
    (true, ((if taken.isEmpty then s else s.logEntries taken none none)).cullBlocks)

/-! ### Step 5 and what the power die has held (R457, R459, R739, R756) -/

/-- A record of an event with a time of its own. -/
def State.recordAt (s : State) (code inst : Nat) (p1 p2 p3 : Word) (time : Nat × Bool) : State :=
  s.accept ⟨code, ⟨none, inst⟩, p1, p2, p3, time.1, time.2, false⟩

/-- The power die delivers what it has kept: events, samples, the supply fault, the thermal trip; and it takes C_learned from the
declaration where its own store was empty. -/
def State.powerDieReports (s : State) : State :=
  let p := s.pack
  if !p.running then s
  else
    -- each with the time that its source took (R676)
    let s := s.over p.heldEvents fun s e => if s.recorder.up then s.accept e else s.holdRecord e
    -- ALERT_STATUS follows the warnings recorded (R712)
    let s := if p.heldEvents.any (fun e => e.code = Ev.packWarning) then s.alert .packWarning else s
    let s := s.over p.heldSamples fun s e =>
      { s with recorder := { s.recorder with lifetime := s.recorder.lifetime.put e.1 (s.recorder.lifetime.read e.1 0 + e.2) } }
    let s := s.over p.heldExtremes fun s e => s.extremeOf e.1 e.2
    let s := match p.supplyFault with
      | some (rail, high) => s.event Ev.supplyFault 0 rail (b2n high) 0
      | none => s
    let s := match p.thermalTrip with
      | some (i, t, st) => s.record Ev.thermalTrip ⟨none, 0⟩ (w32 i) (BitVec.ofInt 32 t) (w32 st.code)
      | none => s
    let s := s.mirrorGauge
    let s := s.updPack fun p => { p with heldEvents := [], heldSamples := [], heldExtremes := [], supplyFault := none, thermalTrip := none }
    if p.valid || p.decl.isNone then s else (s.updPack fun p => { p with cLearned := p.nominal, valid := true }).storeGauge

/-! ### The array as the drives hold it (R499, R500, R506) -/

/-- An array read from the drives: its templates, pools, members, volumes and regions, with what the module itself knows of an array that it
has been serving, `known`; vault volumes stay. `foreign_` marks pools that are not this module's (R96, R484). -/
def State.loadImage (s : State) (a : ArrayImage) (foreign_ known : Bool) : State :=
  { s with
    templates := a.templates.foldl (fun m e => m.put e.1 e.2) [],
    pools := a.pools.foldl (fun m p => m.put p.id { (if known then s.pools.look p.id else none).getD { chunkCode := p.chunkCode, spare := p.spare, seed := p.seed, rows := p.rows } with
      chunkCode := p.chunkCode, spare := p.spare, seed := p.seed, rows := p.rows, hedgeMode := p.hedgeMode, hedgeFixed := p.hedgeFixed, hardTimeout := p.hardTimeout, mediaThreshold := p.mediaThreshold,
      scrubDays := p.scrubDays, foreign_ := foreign_ }) [],
    members := a.members.foldl (fun m x => m.put x.port
      { (if known then s.members.look x.port else none).getD
          { pool := x.pool, lbaSize := x.lbaSize, capacity := x.capacity, movedSince := s.now } with
        pool := x.pool, st := x.st, lbaSize := x.lbaSize, capacity := x.capacity }) [],
    volumes := a.volumes.foldl (fun m v => m.put v.id { (if known then s.volumes.look v.id else none).getD { vault := false, capacity := v.capacity } with
      vault := false, capacity := v.capacity, template := v.template, pool := v.pool, vmap := v.vmap, init := v.init, ackMode := v.ackMode, ageLimit := v.ageLimit, attached := v.attached,
      cacheLost := v.cacheLost }) (s.volumes.keep fun _ v => v.vault),
    regions := a.regions.foldl (fun m e => m.putD {} e.1 e.2) [],
    pair := { s.pair with label := a.label, onDrives := a.regions.foldl (fun m e => m.putD {} e.1 e.2) [], bitmap := a.bitmap, slotBits := a.bitmap,
                          configSeq := (match a.label with | some l => l.configSeq | none => 0), labelCopy := a.labelCopy, logPorts := a.logPorts,
                          changeSeq := a.changeSeq, sliceSeq := a.sliceSeq, sliceBegin := a.sliceBegin.foldl (fun m e => m.put e.1 e.2) [] },
    mgmt := { s.mgmt with arrayId := match a.label with | some l => l.arrayId | none => 0 } }

/-- What the members of an array read from the drives still owe: a gone one the positions without a complete target that home on it or had
their slot there. A gone or SUSPECT one that owes nothing has been reported by the module that held the array (R324, R341, R355, DESIGN
CHOICE 44). -/
def State.owedFound (s : State) : State :=
  { s with members := s.members.each fun port (m : Member) =>
      if m.st = .suspect then
        { m with evacDone := (s.poolRegions m.pool).all fun r => (s.affectedBy r port).isEmpty && !s.movesFrom r port }
      else if m.st ≠ .failed && m.st ≠ .removed then m
      else
        let owed := (s.poolRegions m.pool).flatMap fun r => ((s.lostSet r).filter fun p =>
          (s.region r).home p = port || (match (s.region r).reloc p with | some x => x.port = port | none => false)).map fun p => (r, p)
        { m with owed := owed, rebuildDone := owed.isEmpty, failedAt := s.now } }

/-- Every region takes the state its lost set gives it, and rebuilds, moves and re-placements resume: a region with REPLACE_PENDING
from stripe 0 with a new set, the others from WATERMARK (R337, R343, R506 step 4). -/
def State.regionsResume (s : State) : State :=
  s.over s.usedRegions fun s r =>
    let e := s.region r
    match e.st with
    | .free => s
    | .lost => s
    | .normal => s.recompute r
    | .degraded => s.recompute r
    | .critical => s.recompute r
    | .relocating =>
      -- a member that holds one of its positions has gone: the move is abandoned (R92)
      if (s.regionTmpl r).positions.any fun p => s.memberGone (e.place p).1 then (s.abandonMove r).recompute r
      else if e.replacePending then s.replaceAgain r
      else s
    | .rebuilding =>
      if !recoverable (s.regionTmpl r) (s.lostSet r) then s.regionLost r
      else
        let s := (s.setCrit r).updWork r fun w => { w with queued := true }
        if e.replacePending then s.replaceAgain r else s.furtherLoss r

/-- Volumes whose initialisation a reset has cut off are deleted (R623). -/
def State.undoInits (s : State) : State :=
  s.over (s.volumes.filter fun (e : Nat × Volume) => e.2.init && !e.2.vault) fun s e =>
    let s := s.over e.2.vmap fun s r => s.updRegion r fun x => { gen := x.gen, st := .free }
    let s := s.volEvent Ev.volumeCreateUndone e.1 e.1 e.2.vmap.length 0
    ({ s with volumes := s.volumes.del e.1 }).noteChange 3 e.1

/-! ### Step 7: restore (R483, R185) -/

/-- The journal's copy of a block at a generation (R185). -/
def State.journalBlock (s : State) (vol lba : Nat) (gen : BitVec 32) : Option Block :=
  s.journal.recs.findSome? fun e =>
    let r := e.2.img
    if e.2.committed && r.kind = .write && r.vol = vol && r.gen = gen && r.firstLba ≤ lba && lba < r.firstLba + r.payload.length
    then r.payload[lba - r.firstLba]? else none

/-- Install one dumped frame: DESTAGING as DIRTY, SUPERSEDED unlinked and held; one with an uncorrectable word as R185 says. -/
def State.restoreFrame (s : State) (x : FrameImage) : State :=
  let old := x.st = .superseded
  let copy := s.journalBlock x.vol x.lba x.gen
  let data := if x.bad then (if x.journaled then copy else none) else some x.data
  let f : Frame :=
    { vol := x.vol, lba := x.lba, st := if old then .superseded else .dirty, journaled := x.journaled, absorbed := x.absorbed && !old,
      gen := x.gen, data := data.getD [], dirtyAt := s.now, holds := b2n old }
  match s.takeFrame f with
  | none => s
  | some (n, s) =>
    let s := if old then s else s.chainIn n
    let s := s.noteGen x.vol x.gen
    if data.isSome then (if x.bad then s.volEvent Ev.cacheBlockRecovered x.vol x.vol x.lba (x.lba / 2 ^ 32) else s)
    else if old then s.freeFrame n
    else s.blockLost n

/-- Reopen a parison: in the spill area, or in SRAM once that is full, with a home tile by R134 (R483). -/
def State.restoreParison (s : State) (p : ParisonImage) : State :=
  let id := s.wp.nextParison
  let g := granulesOf (s.regionTmpl p.region)
  let spill := s.parisonRoom false g
  { s with
    wp := { s.wp with nextParison := id + 1 },
    parisons := s.parisons.put id { vol := p.vol, region := p.region, stripe := p.stripe, inSram := !spill, granules := g, fill := p.fill,
                                    home := (s.bestTile none false).getD 0, lastAbsorbed := s.now, acc := p.strips } }

/-- The task of a restored entry (R205, R206): it holds the staged checks and those of the parison, and never reads what the destage may
have left half written; the blocks at the generations it wrote are taken from their frames when its turn comes. Data that is staged, as
a repair's is, stands in place of frames and member reads (R346). Check cells that are not staged count as lost (DESIGN CHOICE 54). -/
def State.entryTask (s : State) (x : EntryImage) (slot : Option Nat) (run : Option (Nat × Nat)) : Task :=
  let m := s.tmpl x.template
  let segs := (span 0 m.strip).filter x.segMask.getLsbD
  let half := (bitsOf x.writeMask).filter fun p => !x.doneMask.getLsbD p
  let par : List (Nat × Nat × Block) := match x.parison, s.parisonOf x.vol x.region x.stripe with
    | some _, some (_, p) => m.codedPositions.flatMap fun q => segs.map fun g =>
        (q, g, match p.acc.find? fun (c : Nat × Nat × Block) => c.1 = q && c.2.1 = g with | some c => c.2.2 | none => [])
    | _, _ => []
  let never := (half.flatMap fun p => segs.map fun g => (p, g)).filter fun c =>
    !m.isData c.1 || x.dataGens.any fun d => d.1 = c.1 && d.2.1 = c.2
  { kind := .redestage [], vol := x.vol, region := x.region, stripe := x.stripe, segs := segs, method := x.method,
    given := x.staging ++ par, newData := x.staging.filter fun c => m.isData c.1, never := never, gens := x.dataGens, entry := slot,
    staging := run, parison := x.parison.bind fun _ => (s.parisonOf x.vol x.region x.stripe).map (·.1), regionGen := x.regionGen, seq := x.seq, writeMask := x.writeMask,
    doneMask := x.doneMask }

/-- Reload the entries, and their staging to the run it had, each with the task that will re-destage it, in DESTAGE_SEQ order; their interlocks are asked
for once replay is over (R204, R483). -/
def State.restoreEntries (s : State) (l : List EntryImage) : State :=
  s.over (sortBy (fun (a b : EntryImage) => a.seq ≤ b.seq) l) fun s x =>
    if (s.region x.region).st = .free || !s.volumes.has x.vol then s
    else
      let n := x.staging.length
      let run := if n = 0 then none else some (x.stagingAt, n)
      let slot := freeEntry s.table (s.table.length + 1) 0
      let t := s.entryTask x slot run
      let (id, s) := s.newId
      let s := match run with | some (a, _) => s.stage a x.staging | none => s
      let s := { s with tasks := s.tasks.put id t, life := { s.life with redestages := s.life.redestages ++ [id] } }
      match slot with
      | some e =>
        let y : Entry :=
          { seq := x.seq, region := x.region, template := x.template, regionGen := x.regionGen, vol := x.vol, stripe := x.stripe,
            method := x.method, parison := t.parison, newestGen := x.newestGen, writeMask := x.writeMask, doneMask := x.doneMask,
            segMask := x.segMask, staging := run }
        { s with table := s.table.put e y }
      | none => s

/-- Restore the content of a dump (R483). -/
def State.restore (s : State) (frames : List FrameImage) (parisons : List ParisonImage) (entries : List EntryImage) : State :=
  let s := s.over frames fun s x => s.restoreFrame x
  let s := s.over parisons fun s p => s.restoreParison p
  let s := s.restoreEntries entries
  -- a restored parison takes up its absorption where it stood (R174)
  s.over s.parisons.vals fun s p => s.absorbStripe p.vol p.region p.stripe

/-! ### Step 8: the journal (R222 to R226) -/

/-- Read segment k of journal record q. -/
def State.journalSegment (s : State) (q k : Nat) : SegRead := s.vault.segmentRead (.journal q k) 0

/-- How the scan finds a record where SEQ `expect` is due: none where it passes every check, else whether the end is a normal one and, if
not, which check failed. Of a descriptor segment that does not read whole no rule says whether MAGIC or KIND, or DESC_CRC, fails: the
choice is free (R222, R230, DESIGN CHOICE 46). -/
def State.recordFound (s : State) (r : JRec) (expect : Nat) : Option (Option Nat) :=
  match s.journalSegment r.img.seq 0 with
  | .erased => some none
  | .broken => some (some ((Config.openValue 0x7006 r.img.seq).toNat % 2))
  | .good d =>
    let parts := (span 1 r.img.payload.length).map (s.journalSegment r.img.seq)
    let data := parts.filterMap fun x => match x with | .good b => some b | _ => none
    match recordCheck d data expect with
    | some 2 => some (some 2)
    | some k => some (some k)
    | none => if data.length = parts.length then none else some (some 2)

/-- The records of the scan, how many segments they take, and where and why it ends: none for a normal end, else the check that
failed (R222). -/
def State.scanFrom (s : State) : Store JRec → Nat → Nat → Store JRec × Nat × Option (Nat × Nat)
  | [], _, n => ([], n, none)
  | (q, r) :: t, expect, n =>
    match s.recordFound r expect with
    | some none => ([], n, none)
    | some (some why) => ([], n, some (expect, why))
    | none =>
      let (l, m, e) := State.scanFrom s t (expect + 1) (n + segmentsOfRec r.img)
      ((q, { r with committed := true, pages := 0 }) :: l, m, e)

/-- Scan the ring from the oldest end that the checkpoint holds (R222): what lies beyond the end was never committed. The records between
that end and the oldest one not reclaimed are all retired, and the scan passes over them (DEDUCED 46). -/
def State.scanJournal (s : State) : State :=
  let oldest := match s.vault.newest with | some c => c.journalOldest | none => 1
  let j := { s.journal with recs := s.journal.recs.keep fun q _ => q ≥ oldest }
  let first := match j.recs with | (q, _) :: _ => q | [] => j.nextSeq
  let (recs, n, stop) := s.scanFrom j.recs first 0
  -- the sequence resumes from the dump, which was taken after the last commit (R483)
  let resumed := if s.life.usableDump then j.nextSeq else 0
  let next := max resumed (match recs.getLast? with | some e => e.1 + 1 | none => first)
  let s := match stop with
    | some (q, why) => s.event Ev.journalScanEnd 0 q ((j.oldestPos + n) % ringSegments / 256) why
    | none => s
  let s := s.countSegments (recs.flatMap fun (e : Nat × JRec) => (span 0 (segmentsOfRec e.2.img)).map (VLogical.journal e.1)) 0
  { s with journal := { j with recs := recs, nextSeq := next }, vault := { s.vault with torn := [] } }

/-- Install one block of a WRITE record unless its frame is as new (R223). -/
def State.replayBlock (s : State) (q : Nat) (r : JRecImage) (k : Nat) : State :=
  let lba := r.firstLba + k
  let old := s.visible r.vol lba
  let skip := match old with | some (_, x) => atLeastGen x.gen r.gen | none => false
  if skip then s
  else
    let s := match old with | some (f, _) => s.freeFrame f | none => s
    match s.takeFrame { vol := r.vol, lba := lba, st := .dirty, journaled := true, gen := r.gen, data := r.payload.getD k [],
                        dirtyAt := s.now, jref := some (q, k) } with
    | none => s
    | some (f, s) =>
      let s := s.chainIn f
      let s := s.noteGen r.vol r.gen
      { s with life := { s.life with installed := s.life.installed + 1 } }

/-- Replay the WRITE records that are not retired, in SEQ order (R223). -/
def State.replayWrites (s : State) : State :=
  s.over (s.journal.recs.filter fun e => e.2.img.kind = .write && !e.2.allRetired && s.volumes.has e.2.img.vol) fun s e =>
    let s := s.noteRefs e.1 e.2.img
    let s := { s with life := { s.life with replayed := s.life.replayed + 1 } }
    s.over e.2.liveBlocks fun s k => s.replayBlock e.1 e.2.img k

/-- The chains of DESTAGE records and the INTENT records, each as its records in order. -/
def chainsOf : List (Nat × JRec) → List (List (Nat × JRec))
  | [] => []
  | e :: t =>
    if e.2.img.kind = .destage && e.2.img.chainIndex ≠ 0 then
      match chainsOf t with
      | l => [e] :: l
    else
      let n := if e.2.img.kind = .destage then e.2.img.chainCount - 1 else 0
      let follow := (t.take n).takeWhile fun x => x.2.img.kind = .destage && x.2.img.chainIndex ≠ 0
      (e :: follow) :: chainsOf t

/-- Whole chains: a chain's record with another index starts none. -/
def wholeChains (l : List (Nat × JRec)) : List (List (Nat × JRec)) :=
  (chainsOf l).filter fun c => match c with
    | [] => false
    | e :: _ => e.2.img.kind = .intent || (e.2.img.chainIndex = 0 && c.length = e.2.img.chainCount)

/-- The payload of a chain: position, segment, NO_FRAME, generation, block. -/
def chainCells (c : List (Nat × JRec)) : List (Nat × Nat × Bool × BitVec 32 × Block) :=
  c.flatMap fun e => (e.2.img.descs.zip e.2.img.payload).filterMap fun d => match d.1 with
    | .seg p g _ noFrame gen => some (p, g, noFrame, gen, d.2)
    | .item _ _ => none

/-- Replay a DESTAGE chain or an INTENT record: its stripe is rewritten whole (R224, R225). -/
def State.replayChain (s : State) (c : List (Nat × JRec)) : State :=
  match c with
  | [] => s
  | e :: _ =>
    let r := e.2.img
    let seqs := c.map (·.1)
    let s := { s with life := { s.life with replayed := s.life.replayed + c.length } }
    -- generations found in the record count for the commit counter (R143)
    let framed := (chainCells c).filter fun d => (s.tmpl r.template).isData d.1 && !d.2.2.1
    let found := if r.kind = .intent then [r.gen] else framed.map fun d => d.2.2.2.1
    let s := s.over found fun s g => s.noteGen r.vol g
    if (s.region r.region).st = .free || !s.volumes.has r.vol then s.queueRetire (seqs.map fun q => (q, 0x1FF)) none
    else
      let m := s.regionTmpl r.region
      let v := s.volumes.read r.vol { vault := false, capacity := 0 }
      let cells := chainCells c
      let data := cells.filter fun d => m.isData d.1
      let lba (d : Nat × Nat × Bool × BitVec 32 × Block) : Nat := s.lbaAt v r.region r.stripe d.1 d.2.1
      let stale := data.filterMap fun d => match s.visible r.vol (lba d) with
        | some (f, x) => if !d.2.2.1 && newerGen d.2.2.2.1 x.gen then some f else none
        | none => none
      let s := s.freeAll stale
      -- the record of a consistency repair supplies what the repair writes, in place of a frame (R346)
      let repair := r.kind = .destage && r.method = 4 && framed.isEmpty
      let supplied := data.filter fun d => repair || (s.visible r.vol (lba d)).isNone
      let segs := (span 0 m.strip).filter r.segMask.getLsbD
      let never := match r.kind with
        | .intent => (m.positions.filter fun p => !m.isData p).flatMap fun p => (span 0 m.strip).map fun g => (p, g)
        | _ => ((bitsOf r.posMask).flatMap fun p => segs.map fun g => (p, g)).filter fun x =>
            !m.isData x.1 || cells.any fun d => d.1 = x.1 && d.2.1 = x.2
      -- no position of POS_MASK takes part in a repair for the segments of SEG_MASK (R224)
      let noRepair := match r.kind with
        | .intent => []
        | _ => (bitsOf r.posMask).flatMap fun p => segs.map fun g => (p, g)
      (s.newTask { kind := .redestage seqs, vol := r.vol, region := r.region, stripe := r.stripe, segs := segs, method := r.method,
                   given := cells.map (fun d => (d.1, d.2.1, d.2.2.2.2)), newData := supplied.map (fun d => (d.1, d.2.1, d.2.2.2.2)),
                   never := never, noRepair := noRepair, gens := (data.filter fun d => !d.2.2.1).map (fun d => (d.1, d.2.1, d.2.2.2.1)),
                   regionGen := r.regionGen } (some true)).2

/-- Replay: blocks, then stripes, in SEQ order; a chain that never committed whole wrote no member (R214, R223, R224). -/
def State.replay (s : State) : State :=
  let s := s.replayWrites
  let l := s.journal.recs.filter fun e => (e.2.img.kind = .destage || e.2.img.kind = .intent) && !e.2.allRetired
  let whole := wholeChains l
  let torn := l.filter fun e => !whole.any fun c => c.any fun x => x.1 = e.1
  let s := s.queueRetire (torn.map fun e => (e.1, 0x1FF)) none
  s.over whole fun s c => s.replayChain c

/-- Each commit counter resumes one above the highest generation found, at 0 where none was (R143, DESIGN CHOICE 16). -/
def State.countersResume (s : State) : State :=
  { s with volumes := s.volumes.each fun _ (v : Volume) =>
      { v with commitCtr := if v.genFound then v.commitCtr + 1 else 0, genFound := false } }

/-- Steps 8 to 10 begin (R480). A take-over replays the imported records as they stand in HBM, whose pages are still being programmed; what
the ring held before is released (R516 step 6, R517). -/
def State.beginReplay (s : State) : State :=
  let s := (if s.life.takeover.isSome then s else s.scanJournal).replay.countersResume
  { s with life := { s.life with step := 8 } }.startProgress

/-! ### No usable dump (R209, R485, R525) -/

/-- The counters of R269, R311 and R353 continue from the newest checkpoint. -/
def State.countersSaved (s : State) : State :=
  match s.vault.newest with
  | none => s
  | some c => s.resumeCounters c.counters

/-! ### Dumps (R482, R490, R522) -/

/-- Segments of a dump that read good, from segment 0 up to the first that does not (R490). -/
def Vault.dumpSegments (v : Vault) (d : Dump) : Nat :=
  ((span 0 d.parts).takeWhile fun k => ((v.segmentRead (.dump d.seq k) d.after).data).isSome).length

/-- Why a dump is not usable: 0 no seal, 1 a bad one, 2 a section with a bad CRC (R490). -/
def Vault.dumpFault (v : Vault) (d : Dump) : Nat :=
  if !d.sealed_ then 0
  else match v.segmentRead (.dump d.seq (d.parts - 1)) d.after with
    | .erased => 0
    | .broken => 1
    | .good b => if sealHeadGood b then 2 else 1

/-- A dump that start-up finds is read whole and recorded: EV_LEHR_SEALED with the time of the seal, or EV_LEHR_INCOMPLETE. Answers whether
it is usable (R482, R490, R682). -/
def State.findDump (s : State) (d : Dump) : Bool × State :=
  let s := s.countSegments ((span 0 d.parts).map (VLogical.dump d.seq)) d.after
  if s.dumpUsable d then (true, s.recordAt Ev.lehrSealed 0 (w32 d.cause.code) (w32 d.durationUs) (w32 d.packMj) d.startTime)
  else (false, s.event Ev.lehrIncomplete 0 (s.vault.dumpSegments d) (s.vault.dumpFault d) 0)

/-- A dump released in a fence pass is recorded by the next start-up, and ARB_TAKE_N that came after the pass (R490, R512, R515). -/
def State.reportReleased (s : State) : State :=
  let held := s.life.takesIgnored
  let s := ({ s with life := { s.life with takesIgnored := [] } } : State).over held fun s r => s.accept r
  match s.life.released with
  | some (seq, n) => ({ s with life := { s.life with released := none } } : State).event Ev.dumpReleased 0 seq n 0
  | none => s

/-- The dumps that start-up finds: one without a usable seal is released (R482), and so is that of a pass that ran while another one was
held, which no array's content can be in (DESIGN CHOICE 28). -/
def State.findDumps (s : State) : State :=
  let s := match s.life.dump with
    | some d => match s.findDump d with | (true, t) => t | (false, t) => t.releaseDump
    | none => s
  match s.life.passDump with
  | some d => ({ (s.findDump d).2 with life := { s.life with passDump := none } } : State).releaseBlocks d
  | none => s

/-- Release the journal: no record of it is ever applied (R517, R522). -/
def State.releaseJournal (s : State) : State :=
  { s with journal := { nextSeq := s.journal.nextSeq, oldestPos := s.journal.oldestPos } }

/-- The dump and journal stay, unapplied and unreleased, where there is something to hold (R484). -/
def State.holdDump (s : State) : State :=
  { s with life := { s.life with held := s.life.dump.isSome || s.journal.recs.any fun e => !e.2.allRetired } }

/-! ### The module's own array (R480 steps 7 to 10) -/

/-- Are the members that are not gone all up (R276, R480)? -/
def State.membersSettled (s : State) : Bool :=
  s.members.all fun e => s.memberGone e.1 || (s.port e.1).ctl = .ready

/-- The labels that a repeated take-over owes are written, now that the drives are up (R499, R516 step 2). -/
def State.labelsNow (s : State) : State :=
  match s.life.takeover with
  | some t => if t.labelsDue then
      ({ s with life := { s.life with takeover := some { t with labelsDue := false } } } : State).writeLabels fun l =>
        { l with ownerId := Config.identity, partnerId := t.partner, takeover := true }
    else s
  | none => s

/-- Step 8 begins: the journal is replayed, in a start-up of the module's own array after rebuilds, moves and re-placements have resumed
(R480, R488). -/
def State.stepEight (s : State) : State :=
  if s.life.takeover.isSome then s.labelsNow.beginReplay
  else
    ((s.setState .restoring).undoInits.regionsResume.assignLogs).beginReplay

/-- Step 8 waits for the drives: it begins when every member that is not gone is up (R480 step 6). -/
def State.afterDrives (s : State) : State :=
  if s.membersSettled then s.stepEight else { s with life := { s.life with step := 6 } }

/-- Start-up of the module's own array: step 7, then step 8 once the drives are up; without a usable dump the region table is that of the drives,
and the counters are those of the checkpoint (R209, R480, R483, R488). -/
def State.startOwn (s : State) : State :=
  let s := match s.life.dump with
    | some d =>
      let s := s.setState .restoring
      let s := { s with regions := d.regions, life := { s.life with usableDump := true },
                        wp := { s.wp with nextDestageSeq := d.nextDestageSeq },
                        journal := { s.journal with nextSeq := d.nextJournalSeq } }
      let s := (s.resumeCounters d.counters).restore d.frames d.parisons d.entries
      s.event Ev.dumpRestored 0 d.frames.length (d.frames.filter fun (x : FrameImage) => x.bad).length d.seq
    | none => s.countersSaved
  s.afterDrives

/-! ### Take-over (R516 to R525) -/

/-- Preempt the reservation on every drive, and let each settle; a member's drive that is not up yet is preempted when it is (R309, R516
step 1, R519). -/
def State.preemptAll (s : State) : State :=
  let l := (span 0 64).filter fun p => ((s.port p).linkUp && (s.port p).ctl = .ready) || s.memberLive p
  let s := { s with ports := s.ports.each fun _ (x : Port) => { x with drained := false } }
  s.over l fun s p => s.preempt p

/-- Step 2 of a take-over: the labels name the new owner (R516). -/
def State.takeLabels (s : State) (partner : BitVec 256) : State :=
  s.writeLabels fun l => { l with ownerId := Config.identity, partnerId := partner, takeover := true }

/-- A take-over begins: reservations, labels, the array as the drives hold it, and the request for the export (R512, R516 steps 1 to 4). One
that a start-up repeats finds its labels written, and writes them again once the drives are up (R499). -/
def State.beginTakeover (s : State) (a : ArrayImage) (partner : BitVec 256) : State :=
  match a.label with
  | none => s
  | some l =>
    let s := s.setState .restoring
    let s := { s with life := { s.life with
      starting := true, step := 7, redestages := [], checksFirst := [],
      takeover := some { at_ := s.now, partner := partner, label := l, labelsDue := l.takeover } } }
    -- a take-over that is repeated goes on with the counters that the module itself has saved (R311)
    let s := (s.preemptAll.loadImage a false false).owedFound
    let s := if l.takeover then s.countersSaved else s.takeLabels partner
    (s.undoInits.regionsResume.assignLogs).emit .exportRequest

/-- The journal records that a page of the ring holds segments of. -/
def seqsIn (p : VContent) : List Nat := uniq (p.map fun e => match e.1 with | .journal q _ => q | _ => 0)

/-- Records imported over the pairing port, as the ring takes them from its start: each commits once its pages verify; their items stand as
the RETIRE records among them leave them (R215, R517). -/
def importedRecs (l : List JRecImage) (pages : List VContent) : Store JRec :=
  let recs : Store JRec := l.foldl (fun m r => m.put r.seq { img := r, pages := (pages.filter fun p => (seqsIn p).contains r.seq).length }) []
  l.foldl (fun m r => if r.kind = .retire then
      r.descs.foldl (fun m d => match d with
        | .item k q => m.upd q fun x => { x with retired := if x.retired.contains k then x.retired else x.retired ++ [k] }
        | .seg .. => m) m
    else m) recs

/-- Step 5: the journal is rebased on the imported records, after the module's own dump and journal are released (R517). -/
def State.rebaseJournal (s : State) (l : List JRecImage) : State :=
  let s := s.releaseDump.releaseJournal
  let s := { s with life := { s.life with held := false } }
  match l.getLast? with
  | none => s.startCheckpoint
  | some r =>
    -- they are written into the ring, and a checkpoint names the first of them
    let pages := pagesOf (recContent l).length (recContent l)
    let s := { s with journal := { recs := importedRecs l pages, nextSeq := r.seq + 1, oldestPos := 0 } }
    ((s.over pages fun s p => s.programPage .journalStream p ((seqsIn p).map VFor.journalRec)).flushOpens).startCheckpoint

/-- EV_DRIVE_SETTLE: the drives that wait, and the longest hard timeout (R519). -/
def State.settleEvent (s : State) : State :=
  let n := (s.ports.filter fun (e : Nat × Port) => e.2.settle.isSome || (e.2.preempting && !e.2.drained)).length
  s.event Ev.driveSettle s.sideNo n ((s.pools.vals.map fun p => p.hardTimeout * 1000).foldl max 0) 0

/-- The take-over goes on with what it has imported, or with nothing (R516 steps 5 and 6, R519, R525). -/
def State.takeoverGo (s : State) (x : Option (SealImage × DumpImage)) : State :=
  match s.life.takeover, x with
  | none, _ => s
  | some t, some (seal_, d) =>
    let s := { s with ports := s.ports.each fun p (y : Port) =>
      if seal_.drained.getLsbD p then { y with settle := none, drained := true } else y }
    let s := (s.rebaseJournal d.records).settleEvent
    let s := { s with life := { s.life with takeover := some { t with imported := true, dumpSeq := seal_.dumpSeq }, usableDump := true },
                      wp := { s.wp with nextDestageSeq := d.nextDestageSeq } }
    ((s.resumeCounters d.counters).restore d.frames d.parisons d.entries).afterDrives
  | some t, none =>
    let s := (s.rebaseJournal []).settleEvent
    let (l, vols, s) := s.checkMarked s.pair.bitmap
    let s := s.event Ev.takeoverNoDump s.sideNo l.length vols.length 0
    { s with life := { s.life with takeover := some { t with noImport := true, cacheLost := vols.length } } }.afterDrives

/-! ### Step 6: whose array it is (R499) -/

/-- The array of another module, which this one does not partner (R484, R526). -/
def State.foreignArray (s : State) (l : LabelImage) : State :=
  let low (x : BitVec 256) : Nat := x.toNat % 2 ^ 32
  let s := { s with life := { s.life with foreign_ := true } }
  let s := (s.event Ev.arrayForeign s.sideNo (low l.ownerId) (low Config.identity) (l.arrayId.toNat % 2 ^ 32)).raisePfs .pair
  match s.life.dump with
  | some d =>
    let s := s.setState .restoring
    let s := { s with life := { s.life with usableDump := true } }
    (s.event Ev.dumpForeign 0 (low l.ownerId) (low Config.identity) d.seq).holdDump
  | none => s.holdDump

/-- The module finds itself the partner: STANDBY, with its own dump and journal released or held (R494, R499, R522); without a dump
the journal is held. -/
def State.standby (s : State) (l : LabelImage) : State :=
  let past : Bool := match s.life.dump with | some d => decide (d.seq ≤ l.importedDumpSeq) | none => false
  let s := if past then s.releaseDump.releaseJournal else s.holdDump
  ({ s with life := { s.life with starting := false }, pair := { s.pair with logPorts := [] } }).setState .standby

/-- Step 6 of start-up (R499). With no label on any drive, content that has no array to go to is held (DESIGN CHOICE 29). -/
def State.byLabel (s : State) (a : ArrayImage) : State :=
  let own := a.label = s.pair.label && a.label.isSome
  let s := if own then s.loadImage a false true else (s.loadImage a false false).owedFound
  let foreign_ (s : State) : State := { s with pools := s.pools.each fun _ (p : Pool) => { p with foreign_ := true } }
  match a.label with
  | none =>
    let waiting : Bool := s.journal.recs.any fun e => !e.2.allRetired
    match s.life.dump with
    | some d =>
      if d.frames.isEmpty && d.entries.isEmpty && d.parisons.isEmpty && !waiting then s.startOwn
      else
        let s := (s.setState .restoring).holdDump
        { s with life := { s.life with step := 9, usableDump := true } }.startProgress
    | none =>
      let s := (s.setState .restoring).holdDump
      { s with life := { s.life with step := 9 } }.startProgress
  | some l =>
    if l.ownerId = Config.identity then
      if l.takeover then s.beginTakeover a l.partnerId
      else s.startOwn
    else if l.partnerId = Config.identity then (foreign_ s).standby l
    else (foreign_ s).foreignArray l

/-! ### LOGIC_DIE_RESET_EXIT and READY -/

/-- May the logic die leave reset now: every rail in its static range, and SYS_REFCLK present, for 10 ms since the rails came up, and no hold
(R469, R740, R742, R756)? -/
def State.mayLeaveReset (s : State) (f : StartFindings) : Bool :=
  s.life.inReset && s.life.railsUp && s.life.thermalHold.isNone && f.steadyUs ≥ 10000 && s.now ≥ s.life.railsSince + f.steadyUs
    && (match s.life.resetUntil with | some t => s.now ≥ t | none => true)

/-- Start-up after HBM training: mount, the power die, the array (R480 steps 4 to 6). -/
def State.startBackEnd (s : State) (f : StartFindings) : State :=
  let s := s.mapOutUntrained
  let s := { s with wp := { s.wp with buckets := s.framePool } }
  let (ok, s) := s.mount
  if !ok then s.startFails 2 s.trained.length
  else s.powerDieReports.govRestore.reportReleased.findDumps.byLabel (readArray f.drives)

/-- LOGIC_DIE_RESET_EXIT: start-up runs as far as it can without the drives (R480 to R485, R499, R651). -/
def execLogicDieResetExit (found : StartFindings) (s : State) : Host.Outcome State Fault Refusal :=
  vaultAct s (if !s.mayLeaveReset found then s
    else
      let lost := s.life.stagedLost + s.mgmt.staged.length
      let keep := s.life.hostReady
      -- where the host side has stayed up, a change of STATE is announced (R723)
      let s := (if keep then s.setState .booting else s).outOfReset found
      let s := if keep then s else s.sbCleared
      let s := s.emit (.logicReset false)
      let s := if lost = 0 then s else s.event Ev.configDiscarded 0 lost 1 0
      let s := match s.firmwareSlot found with
        | none => s.startFails 0 0
        | some k =>
          let s := { s with life := { s.life with fwRunning := k } }
          let s := if k = s.mgmt.nextSlot then s
            else s.event Ev.fwSlotFallback 0 k (if (s.slot s.mgmt.nextSlot).valid then 0 else 1) 0
          let n := s.trained.length
          if n < 28 then s.startFails 1 n else s.startBackEnd found
      if s.life.fencePin then s.fence .pin else s)

/-- READY after a take-over: the labels, RELEASE and the event (R516 step 7, R528). -/
def State.takeoverDone (s : State) : State :=
  match s.life.takeover with
  | none => s
  | some t =>
    let s := s.writeLabels fun l => { l with takeover := false, importedDumpSeq := if t.imported then t.dumpSeq else l.importedDumpSeq }
    let s := s.volumesAttached.emit .pairRelease
    let s := (s.event Ev.takeoverDone s.sideNo ((s.now - t.at_) / 1000) (b2n t.imported) t.cacheLost).raisePfs .pair
    { s with life := { s.life with takeover := none } }

/-- Members whose slots read empty, once the reading is accepted: one whose link is up is a presence conflict, the others have been removed
(R292 criterion 1, R300, R301). -/
def State.removeMissing (s : State) : State :=
  s.over (s.members.filter fun e => e.2.st ≠ .removed && (s.port e.1).prsntN && (s.port e.1).prsntRaw = (true, 39)) fun s e =>
    let p := e.1
    if !(s.port p).linkUp then s.later (.fail p 1 true)
    else if (s.port p).conflict then s
    else (s.updPort p fun x => { x with conflict := true }).event Ev.slotPresenceConflict p p 0 0

/-- STARTUP_READY: step 8 where it waits for the drives and they are up, and step 11. Step 10 must be over: every restored frame with JOURNALED = 0
destaged, and the dump with them released (R208, R381, R480, R485, R486). -/
def execStartupReady (s : State) : Host.Outcome State Fault Refusal :=
  vaultAct s (
    let boot := s.life.st = .restoring || ((s.life.foreign_ || s.life.step = 6) && s.life.st = .booting)
    if !s.live || !s.life.starting || !boot then s
    else
      let s := if s.life.foreign_ then s else (s.removeMissing).run
      let s := if s.life.starting && s.life.step = 6 && s.membersSettled then s.stepEight.run else s
      let ready := s.life.foreign_ || (s.life.step = 10 && s.life.redestages.isEmpty && s.life.checksFirst.isEmpty
        && !s.unjournaledLeft && s.membersSettled)
      if !s.life.starting || !ready then s
      else
        let usable := s.life.usableDump
        let s := s.takeoverDone
        let s := { s with life := { s.life with starting := false } }
        let s := (s.setState .ready).reclaimJournal.govStart
        s.event Ev.ready 0 ((s.now - s.life.opSince) / 1000) (b2n usable)
          (s.volumes.filter fun e => e.2.attached.isSome).length)

end Sys2Proof.Machine
end

