-- ==== Sys2Proof/Machine/Pairing.lean ====
section
/-! DEFINITION. Pairing: heartbeats, the arbiter's pins, export and import, PAIR_CONTROL, ARRAY_IMPORT, and the metadata that the
log drives hold (R491 to R528). -/

namespace Sys2Proof.Machine

open Sys2Proof

/-- The low word of an identity, as events carry it (R528). -/
def idLow (x : BitVec 256) : Nat := x.toNat % 2 ^ 32

/-- The module serves the array on its drives as its owner, and may write its metadata: not in STANDBY, FENCED or FAILED, and not
while the array is another module's. -/
def State.ownsArray (s : State) : Bool :=
  s.live && (!s.life.foreign_ || s.mgmt.importing.isSome) && [DevState.restoring, .ready, .stopping, .stopped].contains s.life.st &&
    (match s.pair.label with | some l => l.ownerId = Config.identity | none => false)

/-- The identity of the bound partner; zero when unbound (R498). -/
def State.partnerId (s : State) : BitVec 256 := match s.pair.label with | some l => l.partnerId | none => 0

/-! ### Heartbeats (R495) -/

/-- PAIR_HEARTBEAT: a frame from the partner. -/
def execPairHeartbeat (partner : PartnerFrame) (s : State) : Host.Outcome State Fault Refusal :=
  act s (if !s.live then s
    else { s with pair := { s.pair with partner := some partner.identity, partnerPresent := true, partnerLost := false, partnerStandby := partner.standby,
                                        lastBeat := s.now } })

/-- The module that this one is paired with, as the label names it: the partner of its owner, or the owner to its partner; zero: none. -/
def State.pairedWith (s : State) : BitVec 256 :=
  match s.pair.label with
  | some l => if l.ownerId = Config.identity then l.partnerId else if l.partnerId = Config.identity then l.ownerId else 0
  | none => 0

/-- Is a frame of a partner expected: one has come since the reset, or the label names a partner (R495, DESIGN CHOICE 29)? -/
def State.expectsPartner (s : State) : Bool := s.pair.partnerPresent || s.pairedWith ≠ 0

/-- PARTNER_LOST: no frame for 100 ms, since the last or since the reset, once until a frame comes; STATE does not change (R495). -/
def execPartnerLost (s : State) : Host.Outcome State Fault Refusal :=
  act s (if !s.live || !s.expectsPartner || s.pair.partnerLost || s.now < s.pair.lastBeat + 100000 then s
    else
      let s := { s with pair := { s.pair with partnerPresent := false, partnerLost := true } }
      (s.event Ev.partnerLost s.sideNo (idLow (s.pair.partner.getD s.pairedWith)) 0 0).raisePfs .pair)

/-- PAIR_HEARTBEAT_SEND: every 10 ms. -/
def execPairHeartbeatSend (s : State) : Host.Outcome State Fault Refusal :=
  act s (if !s.live || s.now < s.pair.sentAt + 10000 then s
    else ({ s with pair := { s.pair with sentAt := s.now } }).emit (.pairFrame Config.identity (s.life.st = DevState.standby)))

/-! ### The arbiter's pins (R510 to R514) -/

/-- ARB_HB_TOGGLE: 50 ms after the last change, within 5 ms, in the states that R510 names and not after a fatal condition. -/
def execArbHbToggle (s : State) : Host.Outcome State Fault Refusal :=
  act s (if !s.live || s.life.hbStopped || s.now < s.life.hbAt + 45000 ||
        !([DevState.ready, .stopping, .stopped, .standby, .restoring].contains s.life.st) then s
    else ({ s with life := { s.life with hb := !s.life.hb, hbAt := s.now } }).emit (.arbHb (!s.life.hb)))

/-- ARB_FENCE_ASSERT: the level has held for 1 ms (R512). -/
def execArbFenceAssert (s : State) : Host.Outcome State Fault Refusal :=
  act s (({ s with life := { s.life with fencePin := true } }).fence .pin)

/-- ARB_FENCE_RELEASE: the pin has not been asserted for 100 ms. A module fenced by it restarts; one whose fence pass still runs
restarts at its seal (R512). -/
def execArbFenceRelease (s : State) : Host.Outcome State Fault Refusal :=
  act s (
    let s := { s with life := { s.life with fencePin := false } }
    if s.life.inReset || s.life.st ≠ .fenced || s.life.fencedBy ≠ some .pin || (s.lehrOn && !s.lehrSealed) then s
    else (s.setState .booting).dieReset (some (s.now + 10000)))

/-- EV_TAKE_IGNORED; after a fence pass, whose gating took the recorder down, its source holds the record for the restart, 16 at most (R512,
R658). -/
def State.takeIgnored (s : State) (st unbound : Nat) : State :=
  if !s.lehrOn then s.event Ev.takeIgnored s.sideNo st unbound 0
  else
    let t := s.stamp
    let r : RawRecord := ⟨Ev.takeIgnored, ⟨none, s.sideNo⟩, w32 st, w32 unbound, 0, t.1, t.2.1, t.2.2⟩
    let l := s.life.takesIgnored
    { s with life := { s.life with takesIgnored := (if l.length < 16 then l else l.drop 1) ++ [r] } }

/-- ARB_TAKE_ASSERT: a bound STANDBY module takes over; else EV_TAKE_IGNORED. While ARB_FENCE_N is asserted its rows apply (R512). -/
def execArbTakeAssert (drives : List DriveMeta) (s : State) : Host.Outcome State Fault Refusal :=
  vaultAct s (
    let st := s.life.st
    let array := readArray drives
    let ignored (partner : BitVec 256) : State := s.takeIgnored st.code (b2n (partner = 0))
    if s.life.inReset || s.life.fencePin then s
    else if st = .fenced then ignored s.partnerId
    else if s.lehrOn then s
    else if s.serving then ignored s.partnerId
    else if st = .standby then
      match array.label with
      | some l => if l.partnerId = Config.identity then s.beginTakeover array l.ownerId else ignored l.partnerId
      | none => ignored 0
    else s)

/-- FENCE_DRAIN_TIMEOUT: reaping ends after 100 ms; every port that still holds its reservation releases it, and all are gated: one whose
commands have not all completed, or whose release has not, leaves its bit of DRAINED clear (R514). -/
def execFenceDrainTimeout (s : State) : Host.Outcome State Fault Refusal :=
  act s (match s.life.fenceDrain with
    | none => s
    | some t =>
      if s.now < t + 100000 then s
      else
        let held := (s.ports.keep fun _ (x : Port) => x.reserved && x.ctl = CtlSt.ready).map (·.1)
        (s.over held fun s p => (s.updPort p fun x => { x with reserved := false }).emit (.driveRelease p ownKey)).gatePorts)

/-! ### Export (R515) -/

/-- The DRAINED mask (R514). -/
def State.drainedMask (s : State) : Mask := (span 0 64).foldl (fun m p => if (s.port p).drained then m ||| (1#64 <<< p) else m) 0

/-- EXPORT_REQUEST: the seal with the DRAINED mask, sections 1, 2, 3 and 5, and every journal record in SEQ order. -/
def execExportRequest (s : State) : Host.Outcome State Fault Refusal :=
  act s (match s.heldForExport with
    | none => s
    | some d =>
      if s.life.exportOff then s
      else s.emit (.exportData
        { usable := true, identity := d.identity, dumpSeq := d.seq, drained := s.drainedMask }
        { counters := d.counters, entries := d.entries, parisons := d.parisons, frames := d.frames,
          records := ((s.journal.recs.filter fun e => e.2.committed).map fun e => e.2.img), nextDestageSeq := d.nextDestageSeq }))

/-- What a module holds is released, unapplied: the dump and the journal (R515, R517, R522, R527). -/
def State.releaseHeld (s : State) : State :=
  let s := s.releaseDump.releaseJournal
  { s with life := { s.life with held := false } }

/-- RELEASE: the partner has taken over; dump and journal are released (R515), in STANDBY also a journal held without a dump (R522). -/
def execRelease (s : State) : Host.Outcome State Fault Refusal :=
  act s (if s.heldForExport.isSome || (s.live && s.life.st = .standby && s.life.held) then s.releaseHeld else s)

/-! ### Import (R518) -/

/-- A take-over that still waits for what its partner holds. -/
def State.awaitingImport (s : State) : Option TakeOver :=
  match s.life.takeover with
  | some t => if s.live && s.life.starting && s.life.st = .restoring && !t.imported && !t.noImport then some t else none
  | none => none

/-- What EV_DUMP_IMPORT reports where no rule fixes it: the DUMP_SEQ of a dump never read (R528). -/
def importFigure (at_ : Nat) : Nat := (Config.openValue 0xA006 at_).toNat % 2 ^ 32

/-- The MiB of an import (R515, R528): the seal, sections 0 to 3 and 5, and the journal records, in segments of 4 KiB, rounded down. -/
def importMib (d : DumpImage) : Nat :=
  (1 + 256 + (d.entries.length + 63) / 64 + (d.entries.map fun x => x.staging.length).sum
    + (d.parisons.map fun p => 1 + p.strips.length).sum + frameSegments d.frames.length + (d.records.map segmentsOfRec).sum) / 256

/-- EXPORT_WAIT: no seal has come within EXPORT_WAIT of ARB_TAKE_N (R518). -/
def execExportWait (s : State) : Host.Outcome State Fault Refusal :=
  vaultAct s (match s.awaitingImport with
    | none => s
    | some t =>
      if t.importFails > 0 || s.now < t.at_ + s.settings.exportWait * 1000000 then s
      else (s.event Ev.dumpImport s.sideNo 1 (importFigure s.now) 0).takeoverGo none)

/-- DUMP_IMPORT: the partner's seal and dump are imported where R518 allows; else the take-over goes on without. -/
def execDumpImport (theSeal : SealImage) (content : DumpImage) (s : State) : Host.Outcome State Fault Refusal :=
  vaultAct s (match s.awaitingImport with
    | none => s
    | some t =>
      let low := theSeal.dumpSeq % 2 ^ 32
      if theSeal.usable && theSeal.identity = t.partner && theSeal.dumpSeq > t.label.importedDumpSeq then
        (s.event Ev.dumpImport s.sideNo 0 low (importMib content)).takeoverGo (some (theSeal, content))
      else (s.event Ev.dumpImport s.sideNo 2 low 0).takeoverGo none)

/-- PAIRING_LINK_FAILURE: the import is retried once from the start; a second failure ends it (R518). -/
def execPairingLinkFailure (s : State) : Host.Outcome State Fault Refusal :=
  vaultAct s (match s.awaitingImport with
    | none => s
    | some t =>
      if t.importFails = 0 then { s with life := { s.life with takeover := some { t with importFails := 1 } } }.emit .exportRequest
      else (s.event Ev.dumpImport s.sideNo 3 (importFigure s.now) 0).takeoverGo none)

/-! ### Metadata on the log drives (R502 to R509) -/

/-- The changes due now: an advance of WATERMARK alone at most once per second for its region (R502). -/
def State.changesDue (s : State) : List (Nat × Nat × Nat) :=
  s.pair.changes.filter fun c => c.2.1 ≠ 4 || (match s.pair.loggedAt.look c.2.2 with | some t => s.now ≥ t + 1000000 | none => true)

/-- CHANGE_LOG_FLUSH: waiting changes are written to the log drives, 56 to a record, as far as the ring has segments that may be written
(R502 to R504, R768). -/
def execChangeLogFlush (s : State) : Host.Outcome State Fault Refusal :=
  act s (
    let due := s.changesDue.take (56 * (16384 - s.pair.logUsed))
    if !s.ownsArray || due.isEmpty || s.now < s.pair.changesAt + 100 then s
    else
      let items := due.map fun c => (c.1, c.2.1, c.2.2, (if c.2.1 = 0 || c.2.1 = 4 then s.region c.2.2 else {}), s.changeImage c.2.1 c.2.2)
      let recs := chunks 56 items.length items
      let marks := (due.filter fun c => c.2.1 = 4).map (·.2.2)
      let seq := s.pair.changeSeq
      let s := { s with pair := { s.pair with
          loggedAt := marks.foldl (fun m r => Store.put m r s.now) s.pair.loggedAt,
          changes := s.pair.changes.filter fun c => !due.contains c, changesAt := s.now,
          changeSeq := seq + recs.length } }
      (s.over recs.zipIdx fun s e => s.metaStart (.record (seq + e.2) e.1)).run)

/-- METADATA_CHECKPOINT: every 600 s, or with the change log three-quarters full (R504). -/
def execMetadataCheckpoint (s : State) : Host.Outcome State Fault Refusal :=
  act s (if s.ownsArray && (s.now ≥ s.pair.sliceAt + 600000000 || s.pair.logUsed ≥ 12288) then s.metadataCheckpoint else s)

/-- Is a rewrite of the whole bitmap still on its way? -/
def Pair.rewriting (p : Pair) : Bool := p.jobs.any fun j => match j.2.kind with | .rewrite _ _ _ => true | _ => false

/-- BITMAP_REWRITE: every 1 s the whole bitmap goes to the slot not written last, without the regions that have been inactive for 60 s
(R507, R509); a rewrite still on its way is not overtaken. -/
def execBitmapRewrite (s : State) : Host.Outcome State Fault Refusal :=
  act s (if !s.ownsArray || s.now < s.pair.bitmapAt + 1000000 || s.pair.rewriting then s
    else
      let stamped := s.activeRegions.foldl (fun m r => Store.put m r s.now) s.pair.activeAt
      let ages := stamped.filter fun e => s.now < e.2 + 60000000
      let waiting := s.cmds.vals.flatMap fun c => if c.phase = .gathered then s.regionsWritten c else []
      let coming := s.bitsComing.filter fun r => !s.pair.bitmap.contains r
      let bits := uniq (ages.map (·.1) ++ coming ++ waiting.filter s.pair.bitmap.contains)
      let s := { s with pair := { s.pair with activeAt := ages, bitmapAt := s.now } }
      (s.metaStart (.rewrite (1 - s.pair.bitmapSlot) bits s.pair.bitmap)).run)

/-! ### PAIR_CONTROL (R496) -/

/-- EV_PAIR_BOUND (R496, R528). -/
def State.pairBound (s : State) (op : Nat) (partner : BitVec 256) : State :=
  s.event Ev.pairBound s.sideNo op (idLow partner) (b2n s.life.side)

/-- PAIR_BIND: by a READY module whose partner answers in STANDBY; the owner of the array writes the labels (R526). -/
def execPairBind (acc : Nat) (s : State) : Host.Outcome State Fault Refusal :=
  act s (s.start acc 0xB9 (fun e => e.pfield 0 0 2 = 0) fun c =>
    match s.pair.partner with
    | some p =>
      let ok := s.life.st = .ready && s.pair.partnerPresent && s.pair.partnerStandby && !s.foreignHere
      s.check c (firstFail [(!ok, St.pairRefused)])
        (((s.writeLabels fun l => { l with partnerId := p }).pairBound 0 p).finish c.acc St.success)
    | none => s.finish c.acc St.pairRefused)

/-- PAIR_UNBIND: PARTNER_ID is cleared; a module that does not own the array writes no label (R494, R526). -/
def execPairUnbind (acc : Nat) (s : State) : Host.Outcome State Fault Refusal :=
  act s (s.start acc 0xB9 (fun e => e.pfield 0 0 2 = 1) fun c =>
    s.check c (firstFail [(s.foreignHere, St.pairRefused)])
      (((s.writeLabels fun l => { l with partnerId := 0 }).pairBound 1 s.partnerId).finish c.acc St.success))

/-- PAIR_DISCARD_DUMP: a held dump and journal are released unapplied (R496, R522). -/
def execPairDiscardDump (acc : Nat) (s : State) : Host.Outcome State Fault Refusal :=
  act s (s.start acc 0xB9 (fun e => e.pfield 0 0 2 = 2) fun c =>
    ((if s.life.held then s.releaseHeld else s).pairBound 2 s.pairedWith).finish c.acc St.success)

/-! ### ARRAY_IMPORT (R527, R641) -/

/-- In STANDBY the module leaves for RESTORING; elsewhere an import changes no STATE (R527, DESIGN CHOICE 29). -/
def State.importState (s : State) : State :=
  if s.life.st = .standby then
    { s.setState .restoring with life := { (s.setState .restoring).life with starting := true, step := 10 } }
  else s

/-- ARRAY_IMPORT: the module takes the foreign array, which it reads anew, marks its regions as without an import, and attaches the volumes
once they are checked. -/
def execArrayImport (acc : Nat) (s : State) : Host.Outcome State Fault Refusal :=
  vaultAct s (s.start acc 0xB8 anyForm fun c =>
    let discard := c.sqe.pfield 0 0 1 = 1
    match s.pair.label with
    | none => s.finish c.acc St.importRefused
    | some l =>
      s.check c (firstFail [(!s.foreignHere || (s.life.held && !discard), St.importRefused)])
        (let s := if s.life.held then s.releaseHeld else s
         let a := readArray (Config.drivesAt s.now)
         -- from now on the drives of the array count as this module's, though its volumes stay OFFLINE (R96, R504)
         let s := { s with mgmt := { s.mgmt with importing := some (c.acc, l.ownerId, 0) } }
         let s := (s.preemptAll.loadImage { a with label := some (a.label.getD l) } true false).owedFound
         let s := s.importState
         let s := (s.writeLabels fun l => { l with ownerId := Config.identity, partnerId := 0, takeover := true }).undoInits
         let s := s.regionsResume.assignLogs.settleEvent
         let (marked, vols, s) := s.checkMarked s.pair.bitmap
         let s := s.event Ev.takeoverNoDump s.sideNo marked.length vols.length 0
         let s := s.updCmd c.acc fun c => { c with phase := .running }
         ({ s with mgmt := { s.mgmt with importing := some (c.acc, l.ownerId, marked.length) } }).importProgress))

end Sys2Proof.Machine
end

