-- ==== Sys2Proof/Machine/Admin.lean ====
section
/-! DEFINITION. The staged set, DEVICE_STOP and DEVICE_START, volumes, members, rebuild control and checks (R49 to R58, R66 to R77,
R99, R101, R338, R352, R402, R420, R622 to R634). -/

namespace Sys2Proof.Machine

open Sys2Proof

/-! ### Templates, pools and drives as a staged item meets them (R49, R57, R66, R70, R505) -/

/-- The template a descriptor gives, with its id; none where it breaks the table of R58 or the bounds of R50. -/
def parseTemplate (b : List Byte) : Option (Nat × Template) :=
  let id := numAt b 0 1
  let w := numAt b 1 1
  let n := field w 0 3
  let m : Template := { stripCode := field w 3 4, tiers := (span 0 n).map fun t => (numAt b (2 + 2 * t) 1, numAt b (3 + 2 * t) 1) }
  let tail := (span (2 + 2 * n) (14 - 2 * n)).all fun i => numAt b i 1 = 0
  if 1 ≤ id && !bitAt w 7 && 1 ≤ n && n ≤ 4 && tail && m.valid then some (id, m) else none

/-- The capacity of the drive on a port in bytes (R277); none where no usable drive is present. -/
def State.driveBytes (s : State) (p : Nat) : Option Nat :=
  let x := s.port p
  match x.info with
  | some i => if !x.prsntN && x.ctl = .ready && !x.unusable then some (min (i.nsze * i.lbaSize) (2 ^ 47)) else none
  | none => none

/-- Rows that a drive of a capacity gives at a chunk code (R66). -/
def rowsOf (chunkCode bytes : Nat) : Nat := (bytes - 2 ^ 30) / (chunkBlocks chunkCode * 4096)

/-- Rows of the drive on a port; 0 without a usable drive. -/
def State.driveRows (s : State) (chunkCode p : Nat) : Nat := rowsOf chunkCode ((s.driveBytes p).getD 0)

/-- The spare divisor of a SPARE_CODE (R615). -/
def spareOfCode (c : Nat) : Nat := [32, 16, 64, 128, 0].getD c 0

/-- Does a volume use the template (R57)? -/
def State.templateUsed (s : State) (id : Nat) : Bool := s.volumes.any fun e => !e.2.vault && e.2.template = id

/-- Does a volume use the pool? -/
def State.poolUsed (s : State) (id : Nat) : Bool := s.volumes.any fun e => !e.2.vault && e.2.pool = id

/-- May POOL_EXPAND add this drive: free, or SPARE_ONLY in the same pool and named without the spare option (R99)? -/
def State.joins (s : State) (pool p : Nat) (spare : Bool) : Bool :=
  match s.members.look p with
  | none => true
  | some m => m.pool = pool && m.st = .spareOnly && !spare

/-- The first check of a staged item that fails against a configuration (R613, R631, R633). -/
def State.checkItem (s : State) : Staged → Option Status
  | .template id _ => firstFail [(s.templateUsed id, St.templateInUse)]
  | .templateDelete id =>
    firstFail [(id = 0, St.templateInvalid), (s.templateUsed id, St.templateInUse), (!s.templates.has id, St.templateUnknown)]
  | .pool id chunk _ _ ports =>
    let l := bitsOf ports
    firstFail [(s.pools.has id, St.poolExists), (l.any fun p => (s.driveBytes p).isNone, St.driveUnsuitable),
               (l.any fun p => s.members.has p, St.driveInUse), (l.any fun p => s.driveRows chunk p = 0, St.driveTooSmall)]
  | .poolDelete id =>
    let mine (p : Nat) : Bool := match s.pools.look p with | some x => !x.foreign_ | none => true
    let left := (s.arrayDrives.filter fun d => (s.members.look d).any fun m => m.pool ≠ id).length
    let top := (s.usedRegions.filter fun r => mine (s.region r).pool).foldl (fun a r => max a (r + 1)) 0
    firstFail [(!s.pools.has id, St.poolUnknown), (s.poolUsed id, St.poolInUse),
               (offered left < offered s.arrayDrives.length && 0 < top && offered left ≤ top - 1, St.noSpace)]
  | .expand id ports spare =>
    match s.pools.look id with
    | none => some St.poolUnknown
    | some x =>
      let l := bitsOf ports
      firstFail [(x.foreign_, St.poolUnknown), (l.any fun p => (s.driveBytes p).isNone, St.driveUnsuitable),
                 (l.any fun p => !s.joins id p spare, St.driveInUse),
                 (l.any fun p => s.driveRows x.chunkCode p < x.rows, St.driveTooSmall)]
  | .governor _ _ => none
  | .pack _ => none

/-- The member record of a new drive. -/
def State.newMember (s : State) (pool p : Nat) (st : MemberSt) : Member :=
  { pool := pool, st := st, born := s.now, lbaSize := (match (s.port p).info with | some i => i.lbaSize | none => 0),
    capacity := (s.driveBytes p).getD 0 }

/-- Templates, pools and members as they stand once a staged item has been applied (R631). -/
def State.applyItem (s : State) : Staged → State
  | .template id m => { s with templates := s.templates.put id m }
  | .templateDelete id => { s with templates := s.templates.del id }
  | .pool id chunk spare seed ports =>
    let l := bitsOf ports
    let rows := (l.map (s.driveRows chunk)).foldl min (s.driveRows chunk (l.headD 0))
    { s with pools := s.pools.put id { born := s.now, chunkCode := chunk, spare := spare, seed := seed, rows := rows },
             members := l.foldl (fun m p => m.put p (s.newMember id p .online)) s.members }
  | .poolDelete id => { s with pools := s.pools.del id, members := s.members.keep fun _ m => m.pool ≠ id }
  | .expand id ports spare =>
    { s with members := (bitsOf ports).foldl (fun m p => match m.look p with
        | some x => m.put p { x with st := .online }
        | none => m.put p (s.newMember id p (if spare then .spareOnly else .online))) s.members }
  | .governor _ _ => s
  | .pack _ => s

/-- Do two staged items have the same place (R631)? -/
def Staged.samePlace : Staged → Staged → Bool
  | .template a _, .template b _ => a = b
  | .template a _, .templateDelete b => a = b
  | .templateDelete a, .template b _ => a = b
  | .templateDelete a, .templateDelete b => a = b
  | .governor _ _, .governor _ _ => true
  | .pack _, .pack _ => true
  | _, _ => false

/-- Stage an item: it replaces one of the same place, and is checked against the configuration that the items before it leave
(R613, R631). -/
def State.stageItem (s : State) (c : Cmd) (x : Staged) : State :=
  let l := s.mgmt.staged
  let i := (l.takeWhile fun y => !x.samePlace y).length
  let view := (l.take i).foldl State.applyItem s
  s.check c ((view.checkItem x).or (firstFail [(i = l.length && l.length ≥ 64, St.stageFull)]))
    (({ s with mgmt := { s.mgmt with staged := l.take i ++ [x] ++ l.drop (i + 1) } }).finish c.acc St.success (w32 i))

/-! ### The rows that stage (R58, R615, R631, R632) -/

/-- TEMPLATE_DEFINE (R50, R57, R58). -/
def execTemplateDefine (acc : Nat) (s : State) : Host.Outcome State Fault Refusal :=
  act s (s.start acc 0x88 (fun e => !e.pbit 0 0) fun c =>
    match parseTemplate c.bytes with
    | none => s.finish c.acc St.templateInvalid
    | some (id, m) => s.stageItem c (.template id m))

/-- TEMPLATE_DELETE: TEMPLATE_ID alone is checked (R57, R58, R615). -/
def execTemplateDelete (acc : Nat) (s : State) : Host.Outcome State Fault Refusal :=
  act s (s.start acc 0x88 (fun e => e.pbit 0 0) fun c => s.stageItem c (.templateDelete (numAt c.bytes 0 1)))

/-- POOL_CREATE: where SEED is 0 the module chooses one as it stages the item (R66, R67, R74). -/
def execPoolCreate (acc : Nat) (s : State) : Host.Outcome State Fault Refusal :=
  act s (s.start acc 0x89 (fun e => !e.pbit 0 16) fun c =>
    let e := c.sqe
    let chosen := (Config.fresh s.fresh).setWidth 32
    let seed : BitVec 32 := if e.param 1 = 0 then chosen else BitVec.ofNat 32 (e.param 1)
    let s := if e.param 1 = 0 then { s with fresh := s.fresh + 1 } else s
    s.stageItem c (.pool (e.pfield 0 0 4) (e.pfield 0 4 3) (spareOfCode (e.pfield 0 8 3)) seed e.ports))

/-- POOL_DELETE (R505, R615). -/
def execPoolDelete (acc : Nat) (s : State) : Host.Outcome State Fault Refusal :=
  act s (s.start acc 0x89 (fun e => e.pbit 0 16) fun c => s.stageItem c (.poolDelete (c.sqe.pfield 0 0 4)))

/-- POOL_EXPAND (R70, R99). -/
def execPoolExpand (acc : Nat) (s : State) : Host.Outcome State Fault Refusal :=
  act s (s.start acc 0x8A (fun e => !e.pbit 0 8) fun c => s.stageItem c (.expand (c.sqe.pfield 0 0 4) c.sqe.ports false))

/-- POOL_EXPAND_SPARE (R70, R99). -/
def execPoolExpandSpare (acc : Nat) (s : State) : Host.Outcome State Fault Refusal :=
  act s (s.start acc 0x8A (fun e => e.pbit 0 8) fun c => s.stageItem c (.expand (c.sqe.pfield 0 0 4) c.sqe.ports true))

/-- The LOOP_CFG words of a governor body; none where R632 refuses it. -/
def parseGovernor (b : List Byte) : Option (Nat × List Word) :=
  let period := numAt b 0 2
  let l := (span 0 8).map fun j => numAt b (4 + 4 * j) 4
  let bad (w : Nat) : Bool := (bitAt w 0 && (field w 1 3 = 7 || field w 4 2 = 3)) || bitAt w 7 || field w 11 21 ≠ 0
  if 50 ≤ period && period ≤ 10000 && !l.any bad then some (period, l.map w32) else none

/-- Is a list strictly ascending? -/
def ascending : List Nat → Bool
  | a :: b :: t => a < b && ascending (b :: t)
  | _ => true

/-- A pack declaration; none where a field lies outside R435 (R632). -/
def parsePack (b : List Byte) : Option PackDecl :=
  let cells := numAt b 0 1
  let mah := numAt b 2 2
  let ma := numAt b 4 2
  let ocv := if bitAt (numAt b 6 1) 0 then defaultOcv else (span 0 21).map fun i => numAt b (8 + 2 * i) 2
  let rate := if ma = 0 then min 2000 (mah / 2) else ma
  let v0 := ocv.getD 0 0
  let v20 := ocv.getD 20 0
  if (cells = 3 || cells = 4) && 500 ≤ mah && mah ≤ 10000 && 100 ≤ rate && rate ≤ 2000 && ascending ocv
      && 2800 ≤ v0 && v0 ≤ 3300 && 4000 ≤ v20 && v20 ≤ 4250
  then some { cells := cells, nominalMah := mah, chargeMa := rate, ocv := ocv } else none

/-- A CONFIG_STAGE: the header's LENGTH fixes the length of the data, and the kind that of the body (R577, R613, R632). -/
def State.stageConfig (s : State) (c : Cmd) (len : Nat) (item : List Byte → Option Staged) : State :=
  let n := numAt c.bytes 2 2
  if c.total ≠ 8 + n then s.finish c.acc St.lengthMismatch
  else if n ≠ len then s.finish c.acc St.invalidField
  else match item (c.bytes.drop 8) with
    | some x => s.stageItem c x
    | none => s.finish c.acc St.invalidField

/-- CONFIG_STAGE_GOVERNOR; a KIND that R632 does not list fails with INVALID_FIELD. -/
def execConfigStageGovernor (acc : Nat) (s : State) : Host.Outcome State Fault Refusal :=
  act s (s.start acc 0x9A anyForm fun c =>
    let kind := numAt c.bytes 0 1
    if kind = 2 then s
    else if kind ≠ 1 then s.finish c.acc (if c.total ≠ 8 + numAt c.bytes 2 2 then St.lengthMismatch else St.invalidField)
    else s.stageConfig c 36 fun b => (parseGovernor b).map fun g => .governor g.1 g.2)

/-- CONFIG_STAGE_PACK. -/
def execConfigStagePack (acc : Nat) (s : State) : Host.Outcome State Fault Refusal :=
  act s (s.start acc 0x9A anyForm fun c =>
    if numAt c.bytes 0 1 ≠ 2 then s else s.stageConfig c 56 fun b => (parsePack b).map .pack)

/-- CONFIG_DISCARD (R634). -/
def execConfigDiscard (acc : Nat) (s : State) : Host.Outcome State Fault Refusal :=
  act s (s.start acc 0x9B anyForm fun c =>
    let n := s.mgmt.staged.length
    let s := { s with mgmt := { s.mgmt with staged := [] } }
    (s.event Ev.configDiscarded 0 n 0 0).finish c.acc St.success (w32 n))

/-! ### DEVICE_STOP and DEVICE_START (R630, R633) -/

/-- DEVICE_STOP. -/
def execDeviceStop (acc : Nat) (s : State) : Host.Outcome State Fault Refusal :=
  act s (s.start acc 0x98 anyForm fun c =>
    if s.life.st = .stopped then s.finish c.acc St.success
    else
      let s := if s.life.st = .ready then s.setState .stopping else s
      (s.updCmd c.acc fun c => { c with phase := .running }).settleWaits)

/-- The index of the first staged item that no longer applies (R633). -/
def firstConflict : List Staged → State → Nat → Option Nat
  | [], _, _ => none
  | x :: t, s, i => if (s.checkItem x).isSome then some i else firstConflict t (s.applyItem x) (i + 1)

/-- An active module holds the reservation on a drive that becomes a member (R308). -/
def State.holdMember (s : State) (p : Nat) : State :=
  let x := s.port p
  let can := match x.info with | some i => i.reservations | none => false
  if !can || x.reserved then s
  else (s.setPort p { x with reserved := true, preempting := false }).emit (.driveAcquire p 1 ownKey none)

/-- A drive that is a member no longer is released (R615). -/
def State.freeDrive (s : State) (p : Nat) : State :=
  let x := s.port p
  if !x.reserved then s else (s.setPort p { x with reserved := false }).emit (.driveRelease p ownKey)

/-- The first POOL_CREATE of an array makes its label, with an ARRAY_ID the module chooses; an array without a drive has none
(R498, R499). -/
def State.arrayLabel (s : State) : State :=
  if s.members.isEmpty then { s with pair := { s.pair with label := none }, mgmt := { s.mgmt with arrayId := 0 } }
  else if s.pair.label.isSome then s
  else
    let id := Config.fresh s.fresh
    let l : LabelImage := { arrayId := id, labelSeq := 0, ownerId := Config.identity, partnerId := 0, takeover := false,
                            configSeq := s.pair.configSeq, importedDumpSeq := 0 }
    { s with fresh := s.fresh + 1, pair := { s.pair with label := some l }, mgmt := { s.mgmt with arrayId := id } }

/-- Apply one item at DEVICE_START: what it changes, EV_MEMBER_STATE where a member changes state and is not new (R99, R355), and the gauge's or governor's own
rules (R379, R435). -/
def State.applyNow (s : State) (x : Staged) : State :=
  match x with
  | .template _ _ => s.applyItem x
  | .templateDelete _ => s.applyItem x
  | .pool id _ _ _ ports =>
    let s := s.over (bitsOf ports) (fun s p => s.noteChange 1 p) |> fun s => (s.applyItem x).noteChange 2 id
    s.over (bitsOf ports) fun s p => s.holdMember p
  | .poolDelete id =>
    ((s.over (s.poolMembers id) fun s p => (s.freeDrive p).noteChange 1 p).applyItem x).noteChange 2 id
  | .expand id ports spare =>
    let st : MemberSt := if spare then .spareOnly else .online
    let moved := (bitsOf ports).filter fun p => match s.members.look p with | some m => m.st ≠ st | none => false
    let s := s.over (bitsOf ports) (fun s p => s.noteChange 1 p) |> fun s => s.applyItem x
    let s := s.over moved fun s p => s.event Ev.memberState id p st.code id
    let s := s.over (bitsOf ports) fun s p => s.holdMember p
    s.spareCheck id
  | .governor period loops => s.govStructure period loops
  | .pack d => s.declare d

/-- The saves that every DEVICE_START carries out: the governor's fields, the vault's checkpoint, the metadata checkpoint, the lifetime
series and the extremes (R382, R408, R504, R695). -/
def State.startSaves (s : State) : State :=
  s.govSave.startCheckpoint.metadataCheckpoint.saveSeries

/-- DEVICE_START: the whole staged set applies, or none of it; the configuration copy is written (R633). The saves follow every
DEVICE_START, with an empty set too, where nothing else but the return to READY happens (R382, R408, R504, R633, DEDUCED 13). -/
def execDeviceStart (acc : Nat) (s : State) : Host.Outcome State Fault Refusal :=
  vaultAct s (s.start acc 0x99 anyForm fun c =>
    let l := s.mgmt.staged
    match firstConflict l s 0 with
    | some i => s.finish c.acc St.stageConflict (w32 i)
    | none =>
      let s := if l.isEmpty then s.startSaves
        else
          let s := s.over l fun s x => s.applyNow x
          let s := s.arrayLabel
          let n := s.pair.configSeq + 1
          let s := { s with pair := { s.pair with configSeq := n }, mgmt := { s.mgmt with staged := [] } }
          let s := s.bringLogs.writeConfig.writeLabels fun y => { y with configSeq := n }
          s.startSaves.record Ev.configApplied ⟨some c.fn, 0⟩ (w32 l.length) (w32 n) (fnWord c.fn)
      (s.setState .ready).finishLogged c.acc St.success)

/-! ### Volumes (R77, R402, R420, R622 to R625) -/

/-- Place n regions of a volume, each in the lowest row that has room after those before it (R72, R73, R77). -/
def State.placeAll (s : State) (pool w : Nat) : Nat → List (Nat × Nat) → Option (List (Nat × Mask))
  | 0, _ => some []
  | n + 1, used => match s.placeRegion pool w used with
    | none => none
    | some (row, mask) => (s.placeAll pool w n ((bitsOf mask).map (fun p => (p, row)) ++ used)).map fun l => (row, mask) :: l

/-- The zero task of one stripe of a new region (R623). -/
def State.zeroStripe (s : State) (acc vol r stripe : Nat) : State :=
  let m := s.regionTmpl r
  let segs := span 0 m.strip
  let cells := m.positions.flatMap fun p => segs.map fun g => (p, g, ([] : Block))
  (s.newTask { kind := .zero acc, vol := vol, region := r, stripe := stripe, segs := segs, newData := cells,
               writeMask := maskOf 64 m.positions } (some true)).2

/-- VOLUME_CREATE_ARRAY: all or nothing; the volume is OFFLINE until its slots are zeroed (R62, R72 to R77, R623). -/
def execVolumeCreateArray (acc : Nat) (s : State) : Host.Outcome State Fault Refusal :=
  act s (s.start acc 0x8B (fun e => !e.pbit 0 12) fun c =>
    let e := c.sqe
    let id := e.pfield 0 0 12
    let t := e.pfield 1 0 8
    let p := e.pfield 1 8 4
    let capacity := e.param 2 + e.pfield 3 0 8 * 2 ^ 32
    if s.volumes.has id then s.finish c.acc St.volumeExists
    else match s.templates.look t, s.pools.look p with
      | none, _ => s.finish c.acc St.templateUnknown
      | some _, none => s.finish c.acc St.poolUnknown
      | some m, some x =>
        if x.foreign_ then s.finish c.acc St.poolUnknown
        else
          let per := chunkBlocks x.chunkCode * m.data
          let n := (capacity + per - 1) / per
          let limit := offered s.arrayDrives.length
          let free := s.freeIndices limit limit n 0
          match s.placeAll p m.width n (s.slotsUsed p) with
          | none => s.finish c.acc St.noSpace
          | some places =>
            if free.length < n then s.finish c.acc St.noSpace
            else
              let s := s.over (free.zip places) fun s y => s.updRegion y.1 fun r =>
                { bitmap := y.2.2, row := y.2.1, gen := r.gen, perm := permId x.seed y.1, template := t, chunkCode := x.chunkCode,
                  st := .normal, pool := p }
              let v : Volume := { born := s.now, vault := false, capacity := capacity, template := t, pool := p, vmap := free, init := true,
                                  ackMode := (AckMode.ofCode (e.pfield 0 13 2)).getD .pwb }
              let s := ({ s with volumes := s.volumes.put id v }).noteVolume id
              let k := n * stripesOf x.chunkCode m.stripCode
              let s := s.updCmd c.acc fun c => { c with phase := .running, tasksLeft := k }
              s.over free fun s r => s.over (span 0 (s.stripes r)) fun s j => s.zeroStripe c.acc id r j).run

/-- VOLUME_CREATE_VAULT: the volume is ready at once (R402, R420, R426, R623). -/
def execVolumeCreateVault (acc : Nat) (s : State) : Host.Outcome State Fault Refusal :=
  act s (s.start acc 0x8B (fun e => e.pbit 0 12) fun c =>
    let e := c.sqe
    let id := e.pfield 0 0 12
    let capacity := e.param 2 + e.pfield 3 0 8 * 2 ^ 32
    let bytes := s.vaultAllocated + 4096 * capacity
    s.check c (firstFail [(s.volumes.has id, St.volumeExists), (bytes > 2 ^ 40 || s.spareLeftFor bytes < 0, St.vaultCapacity),
                          (s.vault.readOnly, St.vaultReadOnly)])
      (let s := { s with volumes := s.volumes.put id { born := s.now, vault := true, capacity := capacity } }
       (s.volEvent Ev.volume id id 0 (fnKey ⟨0, 0⟩)).finish c.acc St.success 0)).run

/-- VOLUME_DELETE (R624). -/
def execVolumeDelete (acc : Nat) (s : State) : Host.Outcome State Fault Refusal :=
  vaultAct s (s.start acc 0x8C anyForm fun c =>
    let id := c.sqe.pfield 0 0 12
    match s.volumes.look id with
    | none => s.finish c.acc St.volumeUnknown
    | some v =>
      if v.attached.isSome then s.finish c.acc St.volumeAttached
      else ({ s with volumes := s.volumes.put id { v with deleting := true } }).updCmd c.acc fun c => { c with phase := .running })

/-- VOLUME_ATTACH (R622). A function that the endpoint does not have is out of range. -/
def execVolumeAttach (acc : Nat) (s : State) : Host.Outcome State Fault Refusal :=
  act s (s.start acc 0x8D anyForm fun c =>
    let id := c.sqe.pfield 0 0 12
    let f : FnId := ⟨c.sqe.pfield 1 8 1, c.sqe.pfield 1 0 8⟩
    if !s.fnExists f then s.finish c.acc St.invalidField
    else match s.volumes.look id with
      | none => s.finish c.acc St.volumeUnknown
      | some v =>
        if v.deleting then s.finish c.acc St.volumeUnknown
        else if v.attached = some f && v.detaching.isNone then s.finish c.acc St.success
        else if v.attached.isSome then s.finish c.acc St.volumeAttached
        else
          let s := ({ s with volumes := s.volumes.put id { v with attached := some f } }).noteVolume id
          (s.volEvent Ev.volume id id 2 (fnKey f)).finishLogged c.acc St.success).run

/-- VOLUME_DETACH: it waits for the commands accepted before it; run-ahead ends (R268, R625). -/
def execVolumeDetach (acc : Nat) (s : State) : Host.Outcome State Fault Refusal :=
  act s (s.start acc 0x8E anyForm fun c =>
    let id := c.sqe.pfield 0 0 12
    match s.volumes.look id with
    | none => s.finish c.acc St.volumeUnknown
    | some v =>
      if v.attached.isNone then s.finish c.acc St.success
      else
        let s := { s with volumes := s.volumes.put id { v with detaching := some c.acc } }
        ((s.updCmd c.acc fun c => { c with phase := .running }).settleWaits).dropStreams id).run

/-! ### Members (R99, R101, R338, R628) -/

/-- MEMBER_FAIL: failure criterion 7 of R292. -/
def execMemberFail (acc : Nat) (s : State) : Host.Outcome State Fault Refusal :=
  act s (s.start acc 0x90 anyForm fun c =>
    let p := c.sqe.pfield 0 0 6
    s.check c (firstFail [(!s.members.has p || s.memberGone p, St.memberState)])
      ((s.failMember p 7 false).finishLogged c.acc St.success)).run

/-- Is a region homed on the port not yet rebuilt elsewhere (R338)? -/
def State.homedUnbuilt (s : State) (port : Nat) : Bool :=
  s.usedRegions.any fun r =>
    let e := s.region r
    e.st ≠ .lost && (s.regionTmpl r).positions.any fun p => e.home p = port &&
      !(match e.reloc p with | some x => x.complete | none => false)

/-- The checks that both modes of MEMBER_REPLACE make, in the order of R613. -/
def State.replaceBad (s : State) (old new : Nat) (copyback : Bool) : Option Status :=
  match s.members.look old with
  | none => some St.memberState
  | some m =>
    let x := s.pools.read m.pool { chunkCode := 0, spare := 0, seed := 0, rows := 0 }
    firstFail [(!s.memberGone old, St.memberState), (copyback && new ≠ old, St.wrongPort),
               ((s.driveBytes new).isNone, St.driveUnsuitable), (!copyback && s.members.has new, St.driveInUse),
               (s.driveRows x.chunkCode new < x.rows, St.driveTooSmall), (copyback && s.homedUnbuilt old, St.rebuildInProgress)]

/-- MEMBER_REPLACE_COPYBACK: the member becomes REPLACING, and its rows are copied back (R99, R338, R342). -/
def execMemberReplaceCopyback (acc : Nat) (s : State) : Host.Outcome State Fault Refusal :=
  act s (s.start acc 0x91 (fun e => !e.pbit 0 16) fun c =>
    let p := c.sqe.pfield 0 0 6
    s.check c (s.replaceBad p (c.sqe.pfield 0 8 6) true)
      (let pool := (s.members.read p { pool := 0, lbaSize := 0, capacity := 0 }).pool
       let s := { s with members := s.members.put p { s.newMember pool p .removed with movedSince := s.now } }
       (((s.memberTo p .replacing).holdMember p).copybackCheck p).finishLogged c.acc St.success)).run

/-- MEMBER_REPLACE_JOIN: a new ONLINE member; the old record is dropped once nothing refers to it (R99). -/
def execMemberReplaceJoin (acc : Nat) (s : State) : Host.Outcome State Fault Refusal :=
  act s (s.start acc 0x91 (fun e => e.pbit 0 16) fun c =>
    let old := c.sqe.pfield 0 0 6
    let new := c.sqe.pfield 0 8 6
    s.check c (s.replaceBad old new false)
      (let pool := (s.members.read old { pool := 0, lbaSize := 0, capacity := 0 }).pool
       let s := { s with members := (s.members.put new (s.newMember pool new .online)).upd old fun m => { m with dropPending := true } }
       let s := ((s.noteChange 1 new).noteChange 1 old).holdMember new
       ((s.dropMembers.assignLogs.writeLabels id).spareCheck pool).finishLogged c.acc St.success)).run

/-! ### Rebuild control and checks (R350, R352, R629) -/

/-- REBUILD_CONTROL PAUSE or RESUME (R352). -/
def State.setPaused (s : State) (c : Cmd) (on : Bool) : State :=
  let p := c.sqe.pfield 0 8 4
  let all := c.sqe.pbit 0 4
  s.check c (firstFail [(!all && !s.pools.has p, St.poolUnknown)])
    (({ s with pools := s.pools.each fun k (x : Pool) => if all || k = p then { x with paused := on } else x }).finish c.acc St.success)

/-- REBUILD_PAUSE: stripes in flight complete, and WATERMARK is kept. -/
def execRebuildPause (acc : Nat) (s : State) : Host.Outcome State Fault Refusal :=
  act s (s.start acc 0x92 (fun e => e.pfield 0 0 2 = 0) fun c => s.setPaused c true).run

/-- REBUILD_RESUME. -/
def execRebuildResume (acc : Nat) (s : State) : Host.Outcome State Fault Refusal :=
  act s (s.start acc 0x92 (fun e => e.pfield 0 0 2 = 1) fun c => s.setPaused c false).run

/-- REBUILD_PROMOTE: a queued region goes to the head of its rank until its rebuild starts; another is left as it is. -/
def execRebuildPromote (acc : Nat) (s : State) : Host.Outcome State Fault Refusal :=
  act s (s.start acc 0x92 (fun e => e.pfield 0 0 2 = 2) fun c =>
    let r := c.sqe.pfield 1 0 24
    let s := if (s.workOf r).queued then
        s.updWork r fun w => { w with promoted := (s.work.vals.map (·.promoted)).foldl max 0 + 1 }
      else s
    s.finish c.acc St.success).run

/-- REBUILD_RETRY: a region halted under R323 is retried at once. -/
def execRebuildRetry (acc : Nat) (s : State) : Host.Outcome State Fault Refusal :=
  act s (s.start acc 0x92 (fun e => e.pfield 0 0 2 = 3) fun c =>
    let r := c.sqe.pfield 1 0 24
    let s := if !(s.workOf r).halted.isEmpty then s.updWork r fun w => { w with halted := [] } else s
    s.finish c.acc St.success).run

/-- CONSISTENCY_CHECK: CHECK_PENDING on every named region that is not FREE; the later option replaces the earlier (R629).
A region whose check is under way goes on with the new option and does not start anew (DESIGN CHOICE 55). -/
def execConsistencyCheck (acc : Nat) (s : State) : Host.Outcome State Fault Refusal :=
  act s (s.start acc 0x93 anyForm fun c =>
    let report := c.sqe.pbit 0 0
    let whole := c.sqe.pbit 0 1
    let pool := c.sqe.pfield 0 8 4
    let first := c.sqe.pfield 1 0 24
    let n := c.sqe.param 2
    let l := if whole then s.poolRegions pool else s.usedRegions.filter fun r => first ≤ r && r < first + n
    s.check c (firstFail [(whole && !s.pools.has pool, St.poolUnknown)])
      (let s := s.over l fun s r =>
         (s.updRegion r fun e => { e with checkPending := true }).updWork r fun w => { w with reportOnly := report }
       s.finish c.acc St.success (w32 l.length))).run

end Sys2Proof.Machine
end

