-- ==== Sys2Proof/Machine/HostIo.lean ====
section
/-! DEFINITION. The I/O commands of the host and ABORT: READ, WRITE, FLUSH, WRITE_ZEROES, DEALLOCATE, VERIFY, the gather of
frames, the commit and the lookup (R149 to R162, R186 to R189, R231 to R235, R420 to R424, R608 to R612, R617). -/

namespace Sys2Proof.Machine

open Sys2Proof

/-! ### Gather (R149, R610) -/

/-- Are there frames for a gather of n blocks (R139, R149)? -/
def State.gatherRoom (s : State) (n : Nat) : Bool := n ≤ s.freeFrames && s.gatherFrames + n ≤ 524288

/-- A command takes its gather frames: a WRITE then fetches its data, WRITE_ZEROES and DEALLOCATE are complete at once
(R149, R610). -/
def State.gather (s : State) (c : Cmd) : State :=
  let (fs, s) := s.takeFrames ((span c.sqe.lba c.sqe.nblocks).map fun l => { vol := c.sqe.vol, lba := l, st := .gather })
  if c.sqe.opcode = 2 then (s.updCmd c.acc fun c => { c with frames := fs, phase := .gathering }).pump
  else (s.updCmd c.acc fun c => { c with frames := fs, phase := .gathered }).tryCommit c.acc

/-- Take frames now, or wait behind those that wait (R149). -/
def State.gatherOrWait (s : State) (c : Cmd) : State :=
  if s.gatherRoom c.sqe.nblocks && !s.cmds.any (fun e => e.1 < c.acc && e.2.phase = .gatherWait) then s.gather c
  else s.updCmd c.acc fun c => { c with phase := .gatherWait }

/-- Is the volume a vault volume? -/
def State.isVault (s : State) (vol : Nat) : Bool :=
  match s.volumes.look vol with | some v => v.vault | none => false

/-- Start a WRITE (R149, R420, R426). -/
def State.startWrite (s : State) (c : Cmd) : State :=
  if s.isVault c.sqe.vol && s.vault.readOnly then s.finish c.acc St.vaultReadOnly else s.gatherOrWait c

/-- Start WRITE_ZEROES or DEALLOCATE: zero frames on an array volume (R610), UNMAP entries on a vault volume once the order of
R187 permits (R422, R611). -/
def State.startZeroes (s : State) (c : Cmd) : State :=
  if s.isVault c.sqe.vol then
    if s.vault.readOnly then s.finish c.acc St.vaultReadOnly
    else if !s.orderedWrite c then s.updCmd c.acc fun c => { c with phase := .gathered }
    else
      let s := s.updCmd c.acc fun c => { c with phase := .running }
      s.logEntries ((span c.sqe.lba c.sqe.nblocks).map fun l => MapEntry.unmap c.sqe.vol l) (some c.acc) none
  else s.gatherOrWait c

/-- A vault write whose order has come: its sectors are programmed in the hot user stream (R421), or its UNMAP entries are
logged (R422); it fails where the volume has become read-only meanwhile (R426). -/
def State.vaultCommit (s : State) (c : Cmd) : State :=
  if c.phase ≠ .gathered || !s.orderedWrite c then s
  else if s.vault.readOnly then s.endVaultWrite c.acc St.vaultReadOnly
  else
    let s := s.updCmd c.acc fun c => { c with phase := .running, vaultLeft := c.frames.length }
    if c.sqe.opcode = 2 then
      s.vprogram .hot (c.frames.zipIdx.map fun f =>
        (VLogical.user c.sqe.vol (c.sqe.lba + f.2), 0, match s.frames.look f.1 with | some x => x.data | none => []))
        [.userWrite c.acc]
    else s.logEntries ((span c.sqe.lba c.sqe.nblocks).map fun l => MapEntry.unmap c.sqe.vol l) (some c.acc) none

/-! ### Lookup (R142, R148, R185, R231 to R235, R263, R422) -/

/-- Look up one block of an array volume: what the READ has, and the state with the frame pinned (R231). A frame with an
uncorrectable word is written again from the journal, or dropped (R185); a clean one is freed and its block is missing. A block that a
dropped frame has lost is not read from anywhere. -/
def State.lookBlock (s : State) (acc vol : Nat) (v : Volume) (lba : Nat) : BlockSt × State :=
  if v.lostBlocks.contains lba then (.lost, s) else
  match s.visible vol lba with
  | none => (.pending, s)
  | some (f, x) =>
    if !x.bad then
      (.have_ x.data, (s.updFrame f fun y => { y with pins := y.pins + 1, ref := true }).updCmd acc fun c =>
        { c with frames := c.frames ++ [f] })
    else
    let host := s.cmds.look acc
    let s := match host with
      | some c => if c.sqe.opcode = 1 then s.markedExit (64 + c.fn.ep) 254 0 else s
      | none => s
    if x.st = .clean then
      let s := s.rebuilt (66 + f % 32) 1 f
      if x.pins = 0 then (.pending, s.freeFrame f) else (.pending, s.supersede f)
    else match s.journalCopy x with
      | some b => (.have_ b, s.recoverFrame f x b)
      | none => (.lost, s.dropBlock f)

/-- A READ or VERIFY attaches to the fills that hold FILLING frames, given as (LBA, frame), for its blocks; each run-ahead unit that a
READ attaches to doubles its stream's depth, once (R232, R248, R263). -/
def State.attachFills (s : State) (c : Cmd) (fs : List (Nat × Nat)) : State :=
  let of_ (t : Task) : List (Nat × Nat) := fs.filter fun e => t.fills.any fun f => f.1 = e.2
  s.over (s.tasks.filter fun t => !(of_ t.2).isEmpty) fun s t =>
    let read : Bool := c.sqe.opcode = 1
    let s := s.updTask t.1 fun x => { x with attached := x.attached ++ (of_ x).map fun e => (c.acc, e.1), readAttached := x.readAttached || read }
    if !read then s else match t.2.kind with
    | .unit id => { s with streams := s.streams.upd id fun x => { x with depth := min 64 (2 * x.depth) } }
    | _ => s

/-- Can the lookup pin every frame it finds (R148)? -/
def State.pinnable (s : State) (vol lba n : Nat) : Bool :=
  (span lba n).all fun l => match s.visible vol l with | some (_, x) => x.pins < 31 | none => true

/-- Look up the blocks of an array volume and issue member reads for what is missing (R231 to R234, R261). -/
def State.lookupArray (s : State) (c : Cmd) (v : Volume) : State :=
  let vol := c.sqe.vol
  let s := s.updCmd c.acc fun c => { c with phase := .reading, looked := true }
  let (blocks, s) := (span c.sqe.lba c.sqe.nblocks).foldl (fun (a : List BlockSt × State) l =>
    let (b, s') := a.2.lookBlock c.acc vol v l
    (a.1 ++ [b], s')) ([], s)
  let s := s.updCmd c.acc fun c => { c with blocks := blocks }
  let missing := (blocks.zipIdx.filter fun e => e.1 == .pending).map fun e => c.sqe.lba + e.2
  let fills := s.tasks.vals.flatMap fun t => t.fills.map (·.1)
  let filling (l : Nat) : Option Nat :=
    (s.frames.find? fun e => e.2.vol = vol && e.2.lba = l && e.2.st = .filling && fills.contains e.1).map (·.1)
  let attached := missing.filterMap fun l => (filling l).map fun f => (l, f)
  let alone := missing.filter fun l => (filling l).isNone
  let s := s.attachFills c attached
  let s := if alone.isEmpty then s else s.startFill c.acc vol alone
  let s := if c.sqe.opcode = 1 then s.noteStream vol c.sqe.lba c.sqe.nblocks else s
  s.later (.readCheck c.acc)

/-- Look up the sectors of a vault volume and read the mapped ones (R419, R422). -/
def State.lookupVault (s : State) (c : Cmd) : State :=
  let vol := c.sqe.vol
  let maps := (span c.sqe.lba c.sqe.nblocks).map fun l => s.vault.map.look (vkey vol l)
  let blocks := maps.map fun m => match m with
    | none => BlockSt.have_ []
    | some x => if x.lost then BlockSt.lost else BlockSt.pending
  let addrs := maps.filterMap fun m => match m with | some x => if x.lost then none else some x.phys | none => none
  let s := s.updCmd c.acc fun c => { c with phase := .reading, looked := true, blocks := blocks, vaultLeft := addrs.length }
  let s := (s.touchMap ((span c.sqe.lba c.sqe.nblocks).map (mapPageOf vol))).startReads addrs (.command c.acc)
  s.later (.readCheck c.acc)

/-- A READ or VERIFY that ordering permits looks up its blocks (R187, R231). -/
def State.lookup (s : State) (acc : Nat) : State :=
  match s.cmds.look acc with
  | none => s
  | some c =>
    if c.phase ≠ .ordered || !s.orderedRead c || s.lehrOn then s
    else match s.volumes.look c.sqe.vol with
      | none => s
      | some v =>
        if v.vault then s.lookupVault c
        else if s.pinnable c.sqe.vol c.sqe.lba c.sqe.nblocks then s.lookupArray c v else s

/-- Start a READ or VERIFY: it waits for its place in the order of R187, and looks up at once where that has come. -/
def State.startRead (s : State) (c : Cmd) : State := (s.updCmd c.acc fun c => { c with phase := .ordered }).lookup c.acc

/-! ### The rows -/

/-- READ (R231 to R235, R422). -/
def execRead (acc : Nat) (s : State) : Host.Outcome State Fault Refusal :=
  act s (s.start acc 1 anyForm fun c => s.startRead c).run

/-- VERIFY (R612). -/
def execVerify (acc : Nat) (s : State) : Host.Outcome State Fault Refusal :=
  act s (s.start acc 6 anyForm fun c => s.startRead c).run

/-- WRITE (R149, R421). -/
def execWrite (acc : Nat) (s : State) : Host.Outcome State Fault Refusal :=
  act s (s.start acc 2 anyForm fun c => s.startWrite c).run

/-- WRITE_ZEROES (R610, R611). -/
def execWriteZeroes (acc : Nat) (s : State) : Host.Outcome State Fault Refusal :=
  act s (s.start acc 4 anyForm fun c => s.startZeroes c).run

/-- DEALLOCATE, which on an array volume is the same operation (R610, R611). -/
def execDeallocate (acc : Nat) (s : State) : Host.Outcome State Fault Refusal :=
  act s (s.start acc 5 anyForm fun c => s.startZeroes c).run

/-- FLUSH: it completes once what it covered at its acceptance is destaged, on a vault volume once the earlier writes have
ended (R160, R162). -/
def execFlush (acc : Nat) (s : State) : Host.Outcome State Fault Refusal :=
  act s (s.start acc 3 anyForm fun c =>
    if s.isVault c.sqe.vol then (s.updCmd acc fun c => { c with phase := .running }).settleWaits
    else (s.updCmd acc fun c => { c with phase := .committed }).writeCheck acc).run

/-- GATHER_FRAMES_AVAILABLE: the first waiting command takes its frames where they suffice (R149). -/
def execGatherFramesAvailable (s : State) : Host.Outcome State Fault Refusal :=
  act s (match (s.cmds.filter fun (e : Nat × Cmd) => e.2.phase = Phase.gatherWait).head? with
    | some (_, c) => if s.gatherRoom c.sqe.nblocks && !s.lehrOn then s.gather c else s
    | none => s).run

/-- WRITE_COMMIT: a write whose commit conditions all hold commits (R151, R152, R180, R187); a vault write begins its
programs (R421). -/
def execWriteCommit (acc : Nat) (s : State) : Host.Outcome State Fault Refusal :=
  act s (match s.cmds.look acc with
    | some c => if s.lehrOn then s else if s.isVault c.sqe.vol then s.vaultCommit c else s.tryCommit acc
    | none => s).run

/-- READ_LOOKUP (R231). -/
def execReadLookup (acc : Nat) (s : State) : Host.Outcome State Fault Refusal := act s (s.lookup acc).run

/-- The command that an ABORT names: on a ring of its own function, not yet complete (R617). -/
def State.abortTarget (s : State) (c : Cmd) : Option Cmd :=
  (s.cmds.find? fun e => e.1 ≠ c.acc && !e.2.silent && e.2.sq = ringKey c.fn (c.sqe.pfield 0 0 12)
    && e.2.sqe.cid = c.sqe.pfield 1 0 16).map (·.2)

/-- Has the command taken no effect and requested no host data (R617)? -/
def Cmd.abortable (c : Cmd) : Bool :=
  c.asked = 0 && (c.phase = .accepted || c.phase = .gatherWait || c.phase = .gathering || c.phase = .ordered
    || (c.phase = .gathered && c.sqe.opcode ≠ 2))

/-- ABORT (R617). -/
def execAbort (acc : Nat) (s : State) : Host.Outcome State Fault Refusal :=
  act s (s.start acc 0x85 anyForm fun c =>
    match s.abortTarget c with
    | none => s.finish acc St.success 1
    | some t =>
      if t.abortable then ((s.freeAll t.frames).finish t.acc St.aborted).finish acc St.success 0
      else s.finish acc St.success 2).run

end Sys2Proof.Machine
end

