-- ==== Sys2Proof/Machine/Service.lean ====
section
/-! DEFINITION. Self-test, firmware, the event recorder's commands and timed work, and the calendar (R635 to R643, R671 to R696). -/

namespace Sys2Proof.Machine

open Sys2Proof

/-! ### Self-test (R635, R636) -/

/-- A test as it starts (R635): every code tile and HBM channel in service, every member, the checkpoint and the power link are to be
tested, in an extended test also marches, a patrol pass and the regions. -/
def State.newTest (s : State) (issuer : FnId) (kind : Nat) : SelfTest :=
  let channels := ((span 0 32).filter fun c => s.life.hbmTrained.getLsbD c && !s.mgmt.hbmOut.getLsbD c).map (66 + ·)
  let tiles := ((span 0 48).filter fun t => !s.mgmt.tilesOut.getLsbD t).map (114 + ·)
  { status := 1, kind := kind, startedAt := s.now, issuer := issuer, left := if kind = 2 then s.usedRegions else [],
    units := tiles ++ channels, marches := if kind = 2 then channels else [], asks := s.members.keys.filter s.memberLive,
    patrol := if kind = 2 then 1 else 0 }

/-- Start a test of a kind; it completes at once. -/
def State.startTest (s : State) (c : Cmd) (kind : Nat) : State :=
  s.check c (firstFail [(s.mgmt.selfTest.status = 1, St.selfTestRunning)])
    (let s := s.updTest fun _ => s.newTest c.fn kind
     ((s.over s.mgmt.selfTest.asks fun s p => s.askIdentify p).finish c.acc St.success).testStep)

/-- SELF_TEST_SHORT. -/
def execSelfTestShort (acc : Nat) (s : State) : Host.Outcome State Fault Refusal :=
  act s (s.start acc 0xA0 (fun e => e.pfield 0 0 2 = 1) fun c => s.startTest c 1)

/-- SELF_TEST_EXTENDED. -/
def execSelfTestExtended (acc : Nat) (s : State) : Host.Outcome State Fault Refusal :=
  act s (s.start acc 0xA0 (fun e => e.pfield 0 0 2 = 2) fun c => s.startTest c 2)

/-- SELF_TEST_ABORT: status 4 where a test runs. -/
def execSelfTestAbort (acc : Nat) (s : State) : Host.Outcome State Fault Refusal :=
  act s (s.start acc 0xA0 (fun e => e.pfield 0 0 2 = 3) fun c => (s.selfTestEnds 4).finish c.acc St.success)

/-- A unit fails the self-test: an HBM channel or tile is mapped out, and the test ends with status 3 and names it (R636, R664). -/
def State.unitFails (s : State) (i : Nat) : State :=
  let s := s.updTest fun t => { t with failedIsland := i }
  let s := if 114 ≤ i && i < 162 && (s.island i).status = 1 then s.setTile (i - 114) { s.tile (i - 114) with running := none, queue := [] } else s
  let s := if 66 ≤ i && i < 98 || 114 ≤ i && i < 162 then s.beginMapOut i else s
  s.selfTestEnds 3

/-- SELF_TEST_COMPLETE: it passes once every part of it is over; a unit that fails ends it with status 3, and an HBM
channel or tile that does is mapped out (R636, R664). -/
def execSelfTestComplete (failed : Option Nat) (s : State) : Host.Outcome State Fault Refusal :=
  act s (
    let t := s.mgmt.selfTest
    if !s.live || t.status ≠ 1 then s
    else match failed with
      | some i => (s.unitFails i).run
      | none => if s.shortDone && s.marchDone && t.patrol = 0 && t.left.all fun r => (s.region r).st = .free then s.selfTestEnds 2 else s)

/-! ### Firmware (R637, R638, R764) -/

/-- A part of an image is written to the blocks of the slot that does not run (R397, R637): at offset 0 what the slot held is discarded and
its blocks are freed. The command goes on when the sectors are verified. -/
def State.stageWrite (s : State) (c : Cmd) : State :=
  let k := 1 - s.life.fwRunning
  let x := s.slot k
  let off := c.sqe.param 0
  let s := if off = 0 then
      ((s.setSlot k { after := s.vault.programSeq, partialValid := true }).closeUse (.firmware k)).cullBlocks
    else s.setSlot k { x with partialValid := true }
  let segs := toSegments c.bytes
  let s := s.updCmd c.acc fun c => { c with phase := .running, vaultLeft := segs.length }
  if segs.isEmpty then s.stageDone { c with vaultLeft := 0 }
  else s.vprogram (.firmware k) (segs.zipIdx.map fun e => (VLogical.firmware k (off / 4096 + e.2), 0, e.1)) [.firmwarePart c.acc]

/-- FW_STAGE: data for the slot that does not run, in ascending contiguous offsets; with LAST the image is verified. -/
def execFwStage (acc : Nat) (s : State) : Host.Outcome State Fault Refusal :=
  act s (s.start acc 0xA1 anyForm fun c =>
    let k := 1 - s.life.fwRunning
    let x := s.slot k
    let off := c.sqe.param 0
    let fits := off + c.total ≤ 64 * 2 ^ 20
    let follows := off = 0 || (x.partialValid && off = x.staged.length)
    if !fits || !follows then s.finish c.acc St.invalidField else s.stageWrite c)

/-- FW_ACTIVATE: the slot that the next start-up tries first. -/
def execFwActivate (acc : Nat) (s : State) : Host.Outcome State Fault Refusal :=
  act s (s.start acc 0xA2 anyForm fun c =>
    let k := c.sqe.pfield 0 0 1
    let v := (s.slot k).version
    s.check c (firstFail [(!(s.slot k).valid, St.fwSlotInvalid)])
      ((({ s with mgmt := { s.mgmt with nextSlot := k } }).event Ev.fwActivated 0 k v 0).finish c.acc St.success (w32 v)))

/-! ### Event records (R639, R671, R687 to R691) -/

/-- The 32 bytes of a record (R671). -/
def Record.bytes (r : Record) : List Byte :=
  let flags := b2n r.calendar + 2 * b2n r.clockUnset + 4 * b2n r.scope.isSome
    + 8 * (match r.scope with | some f => f.ep | none => 0) + 16 * r.suppressed
  let head := toLe 4 r.seq.toNat ++ toLe 2 r.code ++ toLe 1 flags ++ toLe 1 r.inst ++ toLe 8 r.time ++ toLe 4 r.p1.toNat
    ++ toLe 4 r.p2.toNat ++ toLe 4 r.p3.toNat
  head ++ toLe 4 (crc32c head).toNat

/-- Is the record shown to a function (R688, R690)? -/
def State.shows (s : State) (f : FnId) (r : Record) : Bool :=
  f.num = 0 || ((match r.scope with | none => true | some g => g = f) &&
    (match (s.fn f).floor with | some q => atLeastGen r.seq q | none => true))

/-- Take records in order until n have been shown: those, and the last examined. -/
def takeShown (shown : Record → Bool) : Nat → List Record → List Record × Option Record
  | 0, _ => ([], none)
  | _, [] => ([], none)
  | n + 1, r :: t =>
    let (l, last) := takeShown shown (if shown r then n else n + 1) t
    (if shown r then r :: l else l, last.or (some r))

/-- EVENT_READ: the records shown, as far as the buffer goes. -/
def execEventRead (acc : Nat) (s : State) : Host.Outcome State Fault Refusal :=
  act s (s.start acc 0xA8 anyForm fun c =>
    if !s.mayReply c || !s.recorder.up then s
    else
      let first : BitVec 32 := BitVec.ofNat 32 (c.sqe.param 0)
      let (l, last) := takeShown (s.shows c.fn) (c.total / 32) (s.recorder.records.filter fun r => atLeastGen r.seq first)
      let bytes := l.flatMap Record.bytes
      let s := if c.silent || l.isEmpty then s
        else s.hostWrite c.fn (sliceBuffers (c.buffers.getD []) 0 bytes.length) bytes
      s.finish c.acc St.success (w32 l.length) (match last with | some r => nextSequence r.seq | none => s.recorder.next))

/-- EVENT_CLEAR: from a VF it sets that VF's floor (R688). -/
def execEventClear (acc : Nat) (s : State) : Host.Outcome State Fault Refusal :=
  act s (s.start acc 0xA9 anyForm fun c =>
    if !s.recorder.up then s
    else if c.fn.num = 0 then (s.clearRecords (some c.fn)).finish c.acc St.success
    else
      let q := match s.recorder.records.getLast? with | some r => nextSequence r.seq | none => s.recorder.next
      (s.setFn c.fn { s.fn c.fn with floor := some q }).finish c.acc St.success)

/-! ### Histograms and extremes (R692 to R695) -/

/-- HISTOGRAM_READ. -/
def execHistogramRead (acc : Nat) (s : State) : Host.Outcome State Fault Refusal :=
  act s (s.start acc 0xAA anyForm fun c =>
    if !s.recorder.up then s
    else
      let k := c.sqe.pfield 0 0 8
      s.reply c (if k = 0xFF then s.extremesPage else s.seriesPage k))

/-- Series 30: the blocks not retired by life used, and its extremes in parts per million (R693, R694). -/
def State.lifeSnapshot (s : State) : State :=
  let live := s.vault.blocks.filter fun e => e.2.st ≠ .retired
  let fresh := 262144 - s.vault.blocks.length
  let bins : Store Nat := live.foldl (fun m e =>
    let b := min 31 (32 * e.2.life / 100000000)
    m.put (960 + b) (m.read (960 + b) 0 + 1)) (if fresh = 0 then [] else [(960, fresh)])
  let s := { s with recorder := { s.recorder with
    rolling := bins.foldl (fun (m : Store Nat) (e : Nat × Nat) => m.put e.1 e.2) (s.recorder.rolling.keep fun k _ => k < 960) } }
  let s := if fresh = 0 then s else s.extreme 30 0 0
  s.over live fun s e => s.extreme 30 e.2.ppm (vdie e.1)

/-- HISTOGRAM_INTERVAL_END: the rolling series take the last 60 s, the snapshot is taken, the lifetime series and extremes are saved. -/
def execHistogramIntervalEnd (s : State) : Host.Outcome State Fault Refusal :=
  vaultAct s (if !s.live || !s.recorder.up || s.now < s.recorder.intervalAt + 60000000 then s
    else
      let r := s.recorder
      let s := { s with recorder := { r with rolling := r.minute, minute := [], intervalAt := s.now } }
      let s := s.lifeSnapshot
      s.saveSeries)

/-- The bin of a count of entries: 0 for 0, k for 2^(k−1) to 2^k − 1 (R693). -/
def entryBin (n : Nat) : Nat := if n = 0 then 0 else min 31 (Nat.log2 n + 1)

/-- HISTOGRAM_SAMPLE: the once-a-second samples of series 18 to 25. -/
def execHistogramSample (sample : TempSample) (s : State) : Host.Outcome State Fault Refusal :=
  act s (if !s.live || !s.recorder.up || s.now < s.recorder.droop50At + 1000000 then s
    else
      let r := s.recorder
      let s := { s with recorder := { r with droop50 := 0, droop25 := 0, droop50At := s.now, hottest := sample.hottest } }
      let temp (s : State) (k : Nat) (v : Int) (inst : Nat) : State := s.countLife k v (binOf v 0 32) inst
      let s := temp s 18 sample.hottest sample.hottestIsland
      let s := temp s 19 sample.hbm0 0
      let s := temp s 20 sample.hbm1 0
      let s := temp s 21 sample.vault sample.vaultDie
      let s := temp s 22 sample.powerDie 0
      let s := s.countLife 23 sample.inputMw (binOf sample.inputMw 0 5000) 0
      let s := s.countLife 24 r.droop50 (entryBin r.droop50) 0
      s.countLife 25 r.droop25 (entryBin r.droop25) 0)

/-! ### The recorder's own work (R675, R677, R680) -/

/-- The bytes of a frame's directory entry and of its destage-queue record are both uncorrectable: the block cannot be named, and every
array volume with DIRTY frames becomes CACHE_LOST with one entry that names no block (R97, R663). -/
def State.blockUnnamed (s : State) : State :=
  let dirty (v : Nat) : Bool := s.frames.any fun e => e.2.vol = v && e.2.st = .dirty
  s.over ((s.volumes.filter fun e => !e.2.vault && dirty e.1).map (·.1)) fun s v => s.addLoss v [⟨0, 0, 0xFFFFFF, 1⟩] true

/-- A GATHER frame holds an uncorrectable word: the host data of its 4 KiB is fetched again, once (R662). -/
def State.gatherBad (s : State) (f : Nat) : State :=
  match s.cmds.find? fun e => e.2.sqe.opcode = 2 && e.2.frames.contains f && (e.2.phase = .gathering || e.2.phase = .gathered) with
  | none => s
  | some (acc, c) =>
    let k := c.frames.idxOf f
    if c.refetched.contains k then s.transferFailed acc
    else
      -- once the gather is complete its data lies in the frames
      let held : Store (List Byte) := if c.phase = .gathered then
          c.frames.zipIdx.map fun e => (4096 * e.2, match s.frames.look e.1 with | some x => bytesAt x.data 0 4096 | none => [])
        else c.data
      (s.updCmd acc fun c => { c with data := held, phase := .gathering }.takePart true false k 0 []).pump

/-- A dirty frame, or a SUPERSEDED one that a destage holds, holds a fresh uncorrectable word: it is marked, its block is read from the
journal where it is journaled, and is dropped else (R185, R648, R662). -/
def State.dirtyBad (s : State) (f : Nat) (x : Frame) : State :=
  if x.bad then s
  else
    let s := s.updFrame f fun y => { y with bad := true }
    match s.journalCopy x with
    | some b => s.recoverFrame f x b
    | none => s.dropBlock f

/-- A cache frame holds an uncorrectable word: R185 handles one that is dirty or that a destage holds, a CLEAN one is freed once unpinned,
a fill fails, the host data of a gather is fetched again (R145, R662). -/
def State.frameRebuilt (s : State) (f : Nat) : State :=
  match s.frames.look f with
  | none => s
  | some x => match x.st with
    | .clean => s.supersede f
    | .filling => s.freeFrame f
    | .gather => s.gatherBad f
    | .dirty => s.dirtyBad f x
    | .destaging => s.dirtyBad f x
    | .superseded =>
      if s.tasks.any fun t => t.2.kind = .destage && t.2.frames.any fun e => e.1 = f then s.dirtyBad f x else s
    | .free => s

/-- What a structure of HBM with an uncorrectable word loses before it is rebuilt, by area (R662): a frame's content, a region's entry
where no log drive can give it again, a spilled parison, the directory entry of a frame that is neither DIRTY nor DESTAGING. -/
def State.structureRebuilt (s : State) (area index : Nat) : State :=
  let s := { s with mgmt := { s.mgmt with rebuilt := min 0xFFFFFFFF (s.mgmt.rebuilt + 1) } }
  match area with
  | 1 => s.frameRebuilt index
  | 2 => if s.logDrives.isEmpty then s.regionLost index else s
  | 4 => s.closeParison index
  | 7 => match s.frames.look index with
    | some x => match x.st with
      | .clean | .filling | .gather => s.frameRebuilt index
      | .superseded => if x.pins = 0 && x.holds = 0 then s.freeFrame index else s
      | _ => s
    | none => s
  | _ => s

/-- What the find behind a record does to the module: no row of its own stands for a word that an island outside the drive ports, the code
tiles and the host's data finds in error, nor for a bad word in a structure of HBM, and the record of it carries it (R647 to R649, R662,
R663, DESIGN CHOICE 49). -/
def State.foundBy (s : State) (code : Nat) (p1 p2 p3 : Word) : State :=
  if !s.live || s.lehrOn then s
  else if code = Ev.wordCorrected then s.countFixed p1.toNat
  else if code = Ev.wordUncorrectable then
    let i := p1.toNat
    let s := s.countBad i
    (if 66 ≤ i && i < 98 then s.channelWindow i else s).run
  else if code = Ev.markedExit then { s with mgmt := { s.mgmt with markedExits := min 0xFFFFFFFF (s.mgmt.markedExits + 1) } }
  else if code = Ev.structureRebuilt then (s.structureRebuilt p2.toNat p3.toNat).run
  else if code = Ev.packWarning then s.alert .packWarning
  else if code = Ev.cacheBlockLost && p1 = 0xFFF then s.blockUnnamed.run
  else s

/-- RECORD_ACCEPT: a source's record reaches the recorder (R675, R683 to R686); while the recorder is down its source holds it (R658).
EVENT 0x000 and class 0xF name no code (R672). -/
def execRecordAccept (code : Nat) (src : RecordSrc) (p1 p2 p3 : Word) (s : State) : Host.Outcome State Fault Refusal :=
  act s (if code % 4096 = 0 || code ≥ 0xF000 then s else (s.foundBy code p1 p2 p3).record code src p1 p2 p3)

/-- A page of records is on its way to the records area. -/
def State.recordsBusy (s : State) : Bool :=
  let here (w : VFor) : Bool := match w with | .recordsPart _ => true | _ => false
  (s.vault.ops.vals.any fun o => match o.op with | .program _ _ _ _ why => why.any here | _ => false)
    || s.vault.waiting.any fun w => w.why.any here

/-- The sectors of the next page of records, by number, with the SEQUENCEs of each: the last sector where it has room for more, programmed
again with what it holds, and those after it, four in all, 128 records to a sector (R398, R671, R677; DESIGN CHOICE 25). -/
def Recorder.nextParts (r : Recorder) : Store (List (BitVec 32)) :=
  let (first, held) := match r.parts.getLast? with
    | some (k, l) => if l.length < 128 then (k, l) else (k + 1, [])
    | none => (0, [])
  let all := (held ++ (r.records.drop (r.records.length - r.pending)).map (·.seq)).take 512
  (chunks 128 all.length all).zipIdx.map fun e => (first + e.2, e.1)

/-- Records as they are programmed. -/
def Recorder.partContent (r : Recorder) (l : Store (List (BitVec 32))) : VContent :=
  l.map fun e => (VLogical.records (16 + e.1), 0, trim ((r.records.filter fun x => e.2.contains x.seq).flatMap Record.bytes))

/-- RECORDER_COMMIT: 100 ms after the last, or at 512 pending records, a page of at most 512 is programmed; one page at a time. -/
def execRecorderCommit (s : State) : Host.Outcome State Fault Refusal :=
  vaultAct s (
    let r := s.recorder
    if !s.vaultOn || !r.up || r.pending = 0 || s.recordsBusy || (s.now < r.commitAt + 100000 && r.pending < 512) then s
    else
      ({ s with recorder := { r with commitAt := s.now } }).vprogram .journalStream (r.partContent r.nextParts) [.recordsPart r.nextParts])

/-- OPERATING_SECONDS_SAVE: every 60 s the count goes to the records area, and is saved once its page is verified (R390, R680). -/
def execOperatingSecondsSave (s : State) : Host.Outcome State Fault Refusal :=
  vaultAct s (if !s.vaultOn || s.now < s.life.opSavedAt + 60000000 then s
    else ({ s with life := { s.life with opSavedAt := s.now } }).vprogram .journalStream [(.records 1, 0, trim (toLe 8 s.opSeconds))]
      [.secondsPart s.opSeconds])

/-! ### CLOCK_SET (R643, R681) -/

/-- CLOCK_SET: the previous time of EV_CLOCK_SET is open where no calendar was set since the last start-up. -/
def execClockSet (acc : Nat) (s : State) : Host.Outcome State Fault Refusal :=
  act s (s.start acc 0xC2 anyForm fun c =>
    let t := c.sqe.param 0 + c.sqe.param 1 * 2 ^ 32
    let prev := match s.recorder.clock with
      | some (ns, at_) => (ns + (s.now - at_) * 1000) / 1000000000
      | none => (Config.openValue 0x2109 s.now).toNat
    let s := { s with recorder := { s.recorder with clock := some (t, s.now) } }
    (s.event Ev.clockSet 0 (prev % 2 ^ 32) (t / 1000000000 % 2 ^ 32) 0).finish c.acc St.success)

end Sys2Proof.Machine
end

