-- ==== Sys2Proof/Machine/WriteRows.lean ====
section
/-! DEFINITION. The rows of the write path, of the code tiles and of run-ahead that no host command carries (R127 to R137, R147,
R166, R167, R178 to R182, R197, R199, R218 to R221, R264, R268). -/

namespace Sys2Proof.Machine

open Sys2Proof

/-! ### The interlock and destage (R178 to R182, R197, R199) -/

/-- STRIPE_INTERLOCK_GRANT: what waits for a stripe's interlock is granted as R178 orders it. -/
def execStripeInterlockGrant (region stripe : Nat) (s : State) : Host.Outcome State Fault Refusal :=
  act s (if !s.live then s else (s.grantLock region stripe).run)

/-- DESTAGE_START: the first eligible stripe of R181's order starts its destage. -/
def execDestageStart (s : State) : Host.Outcome State Fault Refusal := act s s.destageNext.run

/-- DESTAGE_AGE_LIMIT: a stripe's oldest dirty frame is older than its volume's age limit, and its destage becomes foreground work
(R179, R181). -/
def execDestageAgeLimit (region stripe : Nat) (s : State) : Host.Outcome State Fault Refusal :=
  act s (
    let old := s.dirtyStripes.any fun d => d.region = region && d.stripe = stripe &&
      (match s.volumes.look d.vol with | some v => d.oldest + v.ageLimit * 1000 < s.now | none => false)
    if !s.live || !old || s.wp.aged.contains (region, stripe) then s
    else ({ s with wp := { s.wp with aged := s.wp.aged ++ [(region, stripe)] } }).run)

/-- A task that waited for room tries again (R197, R199). -/
def State.tryRoom (s : State) (id : Nat) : State :=
  match s.tasks.look id with
  | none => s
  | some x => match x.kind with
    | .destage => if x.how = .full && !x.lost.isEmpty then s.toFull id (x.lost.headD 0) else s.beginDestage id
    | .redestage _ => s.startRedestage id
    | _ => s.beginRepair id

/-- The tasks in a stage, in the order in which they were started. -/
def State.waitingIn (s : State) (g : Stage) : List Nat := (s.tasks.filter fun t => t.2.stage = g).map (·.1)

/-- DESTAGE_ENTRY_FREED: an entry of the in-flight destage table has become free, and what waits for one goes on (R197). -/
def execDestageEntryFreed (s : State) : Host.Outcome State Fault Refusal :=
  act s (if !s.live || (freeEntry s.table (s.table.length + 1) 0).isNone then s
    else (s.over (s.waitingIn .entryWait) fun s t => s.tryRoom t).run)

/-- STAGING_RUN_FREED: staging segments have been freed, and what waits for a run takes it (R199). -/
def execStagingRunFreed (s : State) : Host.Outcome State Fault Refusal :=
  act s (if !s.live then s else (s.over (s.waitingIn .stagingWait) fun s t => s.tryRoom t).run)

/-- COMMIT_STALL: commits have waited for dirty room for 1 s without a break, and the event comes once (R180). -/
def execCommitStall (s : State) : Host.Outcome State Fault Refusal :=
  act s (match s.wp.stallSince with
    | none => s
    | some t =>
      if !s.live || s.wp.stallRecorded || s.now < t + 1000000 then s
      else ({ s with wp := { s.wp with stallRecorded := true } }).event Ev.commitStall 0 s.dirtyMib s.stalledCmds.length 0)

/-! ### Reclaim and the permission (R147, R166, R167) -/

/-- The listed frames in the sweep's order: by index from where it last stopped. -/
def State.sweepOrder (s : State) : List Nat :=
  let l := s.frames.map (·.1)
  (l.filter fun f => s.wp.sweep ≤ f) ++ l.filter fun f => f < s.wp.sweep

/-- RECLAIM_SWEEP: below 262,144 FREE frames reclaim starts, every stream's run-ahead is cancelled, and the sweep goes once over the
frames or until 524,288 are FREE (R147, R268). -/
def execReclaimSweep (s : State) : Host.Outcome State Fault Refusal :=
  act s (
    if !s.live || s.lehrOn || (!s.wp.reclaim && s.freeFrames ≥ 262144) then s
    else
      let s : State := { s with wp := { s.wp with reclaim := true } }
      let s : State := s.over (s.streams.map (·.1)) fun s i => s.cancelUnits i
      let s : State := s.sweepList s.sweepOrder
      let s : State := if s.freeFrames ≥ 524288 then { s with wp := { s.wp with reclaim := false } } else s
      s.run)

/-- LR_RECOMPUTE: once a second L_r is computed again, and the permission follows it (R166, R167). -/
def execLrRecompute (s : State) : Host.Outcome State Fault Refusal :=
  act s (if !s.live || s.lehrOn || s.now < s.wp.lrAt + 1000000 then s
    else (({ s with wp := { s.wp with lrAt := s.now } }).energyNote.permissionCheck).run)

/-- PERMISSION_RETURN_FULL: W1 not asserted and E_avail nonzero for 60 s without a break (R167). -/
def execPermissionReturnFull (s : State) : Host.Outcome State Fault Refusal :=
  act s (if !s.live || s.lehrOn then s else s.permissionFull.run)

/-! ### The journal (R218, R220, R221) -/

/-- RETIRE_FLUSH: 100 µs after the first queued item a RETIRE record is written (R218). -/
def execRetireFlush (s : State) : Host.Outcome State Fault Refusal :=
  vaultAct s (if !s.live || s.journal.retireQ.isEmpty || s.now < s.journal.retireAt + 100 then s else s.retireNow)

/-- JOURNAL_SPACE_FREED: a waiting record is written where the ring has room for it (R220). -/
def execJournalSpaceFreed (s : State) : Host.Outcome State Fault Refusal :=
  vaultAct s (if !s.live || s.lehrOn then s
    else if s.retireWaits then s.retireNow.journalRetry else s.journalRetry)

/-- JOURNAL_FULL: a record has waited 1 s without a break, and the event comes once until none waits (R221). -/
def execJournalFull (s : State) : Host.Outcome State Fault Refusal :=
  act s (
    let retire := s.retireWaits && s.now ≥ s.journal.retireAt + 1000100
    let late := retire || s.journal.waiting.any fun w => s.now ≥ w.since + 1000000
    if !s.live || !late || s.journal.fullRecorded then s
    else
      let oldest := match s.journal.recs.find? fun r => !r.2.allRetired with | some r => r.1 | none => s.journal.nextSeq
      ({ s with journal := { s.journal with fullRecorded := true } }).event Ev.journalFull 0 (s.ringUsed * 4096 / 2 ^ 20)
        ((s.journal.waiting.map fun (w : JWait) => w.imgs.length).sum + b2n s.retireWaits) (oldest % 2 ^ 32))

/-! ### Code tiles (R127 to R137, R664) -/

/-- Count failures of a tile that R130 charges to it; the third in 24 h maps it out (R664). `before_` is how many it had. -/
def State.tileFailures (s : State) (t before_ : Nat) : State :=
  let x := s.tile t
  if x.failTimes.length ≤ before_ then s
  else
    let l := x.failTimes.filter fun a => s.now < a + dayUs
    let s := s.setTile t { x with failTimes := l }
    if l.length ≥ 3 then s.beginMapOut (114 + t) else s

/-- EV_VERIFY_MISMATCH for a VERIFY or LOCATE that found a mismatch: its mask names the check rows that differ (R125, R137). -/
def State.mismatchEvent (s : State) (tile : Nat) (x : Task) (o : TileOp) : State :=
  let note (t : Nat) (line : List Nat) : State :=
    let m := s.regionTmpl x.region
    let mask := o.segs.foldl (fun a g =>
      if line.all fun p => (x.cell p g).isSome then a ||| ((verifyLine m t line (x.column g)).map (2 ^ ·)).sum else a) 0
    if mask = 0 then s else s.event Ev.verifyMismatch tile (mask % 256 + (t + 1) * 2 ^ 8) x.region x.stripe
  match o.op with
  | .verify t line => note t line
  | .locate t line => note t line
  | _ => s

/-- The position whose content an input of an operation is: input 0 of an UPDATE is the old content, input 1 the new (R125). -/
def JobOp.inputPos (m : Template) (op : JobOp) (input : Nat) : Nat := (op.inputs m).getD input 64

/-- What a task's operation takes in where the check of a word has let an error pass (R129, R645). -/
def Task.taken (m : Template) (x : Task) (o : TileOp) (words : List TileWord) : Task :=
  words.foldl (fun x w =>
    let p := o.op.inputPos m w.input
    let g := o.segs.getD w.seg 64
    let put (l : List (Nat × Nat × Block)) : List (Nat × Nat × Block) :=
      l.map fun c => if c.1 = p && c.2.1 = g then (c.1, c.2.1, damage c.2.2 w.word w.err) else c
    match o.op, w.input with
    | .update _ _, 1 => { x with newData := put x.newData }
    | _, _ => { x with got := put x.got }) x

/-- A tile's job is done, and the requester goes on; a completion for a task that has gone on otherwise is discarded
(R129, R174, R175). -/
def State.jobDone (s : State) (tile : Nat) (j : Job) (words : List TileWord) : State :=
  match j.op, j.task with
  | .absorb id f old outs, _ => s.absorbed j.id id f old outs words
  | _, some t =>
    match s.tasks.look t with
    | none => s
    | some x =>
      if x.job ≠ some j.id then s
      else
        let o : TileOp := x.todo.headD ⟨j.op, j.segs⟩
        let x := x.taken (s.regionTmpl x.region) o words
        let s := { s with tasks := s.tasks.put t x }
        let failed := x.firstFail.map fun e => (e.1, (s.tile e.1).failTimes.length)
        let s := (s.opDone t).mismatchEvent tile x o
        match failed with
        | some (a, n) => s.tileFailures a n
        | none => s
  | _, none => s

/-- The frame that an input of a job is, if it is one. -/
def State.jobFrame (s : State) (j : Job) (input seg : Nat) : Option Nat :=
  match j.op, j.task with
  | .absorb _ f old _, _ => some ((f :: old.toList).getD input f)
  | op, some t => (s.tasks.look t).bind fun x =>
      if x.job = some j.id then x.inputFrame (s.regionTmpl x.region) op input (j.segs.getD seg 64) else none
  | _, none => none

/-- The uncorrectable word of a failed job is counted once. A frame's word that is marked already never counts again; a fresh one counts
at its HBM channel and marks the frame when the job is not tried again, or its retry fails on the same input, and else at the tile whose
failure the retry shows it to be. Any other input's word counts at the tile (R130, R648, R664). -/
def State.badInput (s : State) (tile : Nat) (again : Bool) (frame : Option Nat) : State :=
  match frame.bind fun f => (s.frames.look f).map fun x => (f, x) with
  | none => if again then s else s.wordBad (114 + tile) 0
  | some (f, x) => if x.bad || again then s else (s.updFrame f fun y => { y with bad := true }).channelWord (f % 32) 1

/-- Will a failed job be tried again: it belongs to a task, and its input has not failed before (R130)? -/
def State.triesAgain (s : State) (j : Job) (input : Nat) : Bool :=
  match j.op, j.task with
  | .absorb _ _ _ _, _ => false
  | .pattern _, _ => false
  | _, some t => match s.tasks.look t with
    | some x => x.job = some j.id && (x.firstFail.map (·.2)) ≠ some input
    | none => false
  | _, none => false

/-- A tile's job ends as failed (R129, R130, R177). -/
def State.jobBad (s : State) (tile : Nat) (j : Job) (input seg : Nat) : State :=
  let s := (s.event Ev.tileJobFailed tile (114 + tile) input seg).badInput tile (s.triesAgain j input) (s.jobFrame j input seg)
  match j.op, j.task with
  | .absorb id _ _ _, _ => s.absorbFailed tile id
  | .pattern _, _ => s.unitFails (114 + tile)
  | _, some t => match s.tasks.look t with
    | some x => if x.job = some j.id then s.jobFailed t tile input seg else s
    | none => s
  | _, none => s

/-- The first input of a job that is a frame with a marked word, in the order in which a tile reads its inputs, segment by segment and in
each the inputs as listed, as (input, place of the segment): each check finds it uncorrectable (R127, R648). -/
def State.markedInput (s : State) (j : Job) : Option (Nat × Nat) :=
  let m := match (j.task.bind s.tasks.look) with | some x => s.regionTmpl x.region | none => ⟨0, []⟩
  ((span 0 j.segs.length).flatMap fun g => (span 0 (j.op.inputs m).length).map fun i => (i, g)).find? fun e =>
    match (s.jobFrame j e.1 e.2).bind s.frames.look with
    | some x => x.bad
    | none => false

/-- A word of a frame that a check has corrected is written back in place, as the check leaves it (R647). -/
def State.wroteBack (s : State) (j : Job) (w : TileWord) : State :=
  match s.jobFrame j w.input w.seg with
  | some f => s.updFrame f fun y => if y.bad then y else { y with data := damage y.data w.word w.err }
  | none => s

/-- Where a tile reads a word of its inputs: by segment, by input, by word (R127). -/
def readsBefore (a b : TileWord) : Bool :=
  a.seg < b.seg || (a.seg = b.seg && (a.input < b.input || (a.input = b.input && a.word ≤ b.word)))

/-- What a tile reports of a job: the words that it corrected are counted, recorded and, in a frame, written back; the first uncorrectable one, a marked one among
them, ends the job as failed, else it is done (R129, R130, R645 to R648). The frames that it pinned are released (R140). -/
def State.jobReply (s : State) (tile : Nat) (j : Job) (words : List TileWord) : State :=
  let words := sortBy readsBefore words
  -- a frame is marked as a whole, so that a tile meets the mark in its first word (DESIGN CHOICE 49)
  let marked := s.markedInput j
  let early (w : TileWord) : Bool := match marked with
    | some (i, g) => w.seg < g || (w.seg = g && w.input < i)
    | none => true
  let seen := words.takeWhile early
  let before_ := seen.takeWhile fun w => checkWord w.err ≠ .uncorrectable
  let s := s.over (before_.filter fun w => checkWord w.err = .corrected) fun s w =>
    ((s.wordFixed (114 + tile) 0).event Ev.tileCorrected tile (114 + tile) w.input w.seg).wroteBack j w
  let s := match seen.find? fun w => checkWord w.err = .uncorrectable with
    | none => match marked with
      | some (i, g) => s.jobBad tile j i g
      | none => s.jobDone tile j before_
    | some w => s.jobBad tile j w.input w.seg
  s.unpin j.pins

/-- TILE_JOB_COMPLETE: a tile finishes its job, done or failed, and starts its next one (R127, R129, R136). A reply under an old
SRC_EPOCH of its requester is dropped (R656). -/
def execTileJobComplete (tile : Nat) (words : List TileWord) (s : State) : Host.Outcome State Fault Refusal :=
  vaultAct s (
    match (s.tile tile).running with
    | none => s
    | some j =>
      if !s.live || s.lehrOn then s
      else
        let s := s.setTile tile { s.tile tile with running := none }.startNext
        s.replyTo firmwareIsland (114 + tile) j.src fun s => s.jobReply tile j words)

/-- A job that waited for a queue place is sent: a parison's to its home tile, a retry to another tile than the first (R130, R134). -/
def State.resend (s : State) (j : Job) : State :=
  match j.op with
  | .absorb id _ _ _ => match s.parisons.look id with
    | none => s.unpin j.pins
    | some p =>
      let (home, s) := s.takeHome id p.home
      s.sendJob j (some home) none
  | _ => s.sendJob j none ((j.task.bind s.tasks.look).bind fun x => x.firstFail.map (·.1))

/-- TILE_QUEUE_PLACE_FREED: jobs that wait take the places there are, in their order (R135). -/
def execTileQueuePlaceFreed (s : State) : Host.Outcome State Fault Refusal :=
  act s (if !s.live || s.lehrOn then s
    else
      let l := s.tileWait
      (({ s with tileWait := [] }).over l fun s j => s.resend j).run)

/-! ### Run-ahead (R264, R268) -/

/-- STREAM_IDLE: a stream has gone 1 s without being extended: its run-ahead is cancelled and it is active no longer; its entry stays,
and a READ at its next address extends it again (R261, R263, R268, DESIGN CHOICE 46). -/
def execStreamIdle (stream : Nat) (s : State) : Host.Outcome State Fault Refusal :=
  act s (match s.streams.look stream with
    | none => s
    | some x => if !s.live || s.now < x.at_ + 1000000 then s
      else
        let s := s.cancelUnits stream
        ({ s with streams := s.streams.upd stream fun x => { x with active := false, waiting := [] } }).run)

/-- RUNAHEAD_FRAMES_AVAILABLE: units that waited for frames are issued (R264). -/
def execRunaheadFramesAvailable (s : State) : Host.Outcome State Fault Refusal :=
  act s (if !s.live || s.lehrOn then s
    else (s.over ((s.streams.filter fun e => e.2.waiting ≠ []).map (·.1)) fun s i => s.feedStream i).run)

end Sys2Proof.Machine
end

