-- ==== Sys2Proof/Machine/Rebuild.lean ====
section
/-! DEFINITION. The rows of rebuild, moves, re-placement and scrub (R92, R315 to R323, R332, R333, R337 to R343, R347 to R351). -/

namespace Sys2Proof.Machine

open Sys2Proof

/-- Does the module carry out background work on its array: it runs, holds the array, and is not FENCED or STANDBY? -/
def State.tends (s : State) : Bool :=
  s.live && s.life.st ≠ .fenced && s.life.st ≠ .standby && s.life.st ≠ .failed

/-! ### Start of a region's rebuild (R316 to R320) -/

/-- Places for rebuild (R316). -/
def rebuildPlaces : Nat := 256

/-- A region takes a rebuild place. -/
def State.takePlace (s : State) (r : Nat) : State :=
  s.updWork r fun w => { w with place := true, queued := false, promoted := 0, waits := none }

/-- A DEGRADED or CRITICAL region's rebuild starts: slots with COMPLETE = 0 for its lost positions, or a re-placement where a sixth
would be needed; without a target it stays queued (R92, R318 to R320). -/
def State.beginLost (s : State) (r : Nat) : State :=
  let ps := s.unslotted r
  if s.needsSixth r ps then
    let (ok, s) := s.startReplace r
    if ok then s.takePlace r else s
  else
    match s.targetsFor r ps [] (s.slotsUsed (s.region r).pool) with
    | .inl p => (s.event Ev.rebuildNoTarget (s.region r).pool r p (s.region r).pool).noteWait r
    | .inr l =>
      let s := s.updRegion r fun e => { e with st := .rebuilding, relocs := writeSlots e.relocs l, watermark := 0,
                                               crit := e.st = .critical }
      (s.updWork r fun w => { w with done := [], halted := [] }).takePlace r

/-- A REBUILDING region that waits in the queue goes on: with a set for its re-placement, or with slots for positions lost since
(R317, R328 to R330, R332, R336, R337). -/
def State.resumeRebuild (s : State) (r : Nat) : State :=
  let s := s.updWork r fun w => { w with waits := none }
  let s :=
    if (s.region r).replacePending then (if (s.workOf r).replace.isNone then s.replaceAgain r else s)
    else if (s.unslotted r).isEmpty then s
    else s.furtherLoss r
  if (s.workOf r).waits.isSome then s else s.takePlace r

/-- Start or resume the rebuild of a region. -/
def State.beginRebuild (s : State) (r : Nat) : State :=
  if (s.region r).st = .rebuilding then s.resumeRebuild r else s.beginLost r

/-- The running region that ranks lowest and has CRIT = 0, where every place holds such a region (R317). -/
def State.preemptible (s : State) : Option Nat :=
  let l := s.rebuilding
  if l.length < rebuildPlaces || l.any (fun r => (s.region r).urgentRank) then none else (sortBy s.before l).getLast?

/-- REBUILD_REGION_START: the first region of the queue that may start does, with a free place or one that R317 gives it. -/
def execRebuildRegionStart (s : State) : Host.Outcome State Fault Refusal :=
  act s (
    if !s.tends || s.gov.shares.getD 0 0 = 0 then s
    else
      match s.rebuildQueue.find? fun r => s.unpaused r && s.maySeek r && !((s.region r).st = .rebuilding && s.haltedNow r) with
      | none => s
      | some r =>
        if s.rebuilding.length < rebuildPlaces then (s.beginRebuild r).run
        else if !(s.region r).urgentRank then s
        else match s.preemptible with
          | none => s
          | some q => ((s.updWork q fun w => { w with place := false, queued := true }).beginRebuild r).run)

/-! ### Stripes (R321 to R323, R333, R340) -/

/-- The next stripe of a region: the lowest at or above WATERMARK that is neither complete nor in flight, none where the work is halted
there (R321 to R323). -/
def State.nextStripe (s : State) (r : Nat) : Option Nat :=
  let e := s.region r
  let done := (s.workOf r).done
  let flying := (s.stripeTasks r).filterMap fun t => (s.tasks.look t).map (·.stripe)
  ((span e.watermark (min (s.stripes r - e.watermark) (done.length + flying.length + 1))).find? fun k =>
    !done.contains k && !flying.contains k).filter fun k => !(s.workOf r).halted.any fun h => h.1 ≤ k

/-- Positions that a stripe of the region's work writes (R321, R333, R340). -/
def State.copyTargets (s : State) (r : Nat) : List Nat :=
  match (s.workOf r).replace, (s.workOf r).move with
  | some _, _ => (s.regionTmpl r).positions
  | none, some mv => [mv.pos]
  | none, none => ((s.region r).relocs.filter fun x => !x.complete).map (·.pos)

/-- Member bytes that one stripe of the region's work reads and writes (R351, R377). -/
def State.stripeBytes (s : State) (r k : Nat) : Nat :=
  let m := s.regionTmpl r
  let ps := s.copyTargets r
  let lost := s.lostFor r k
  let pl := recoverPlan m (fun _ => lost) (fun _ _ => false) (ps.map fun p => (p, 0))
  4096 * m.strip * (pl.cells.length + ps.length)

/-- Which share a region's work draws on (R351): REBUILD while it is REBUILDING, COPYBACK while it is RELOCATING. -/
def State.workClass (s : State) (r : Nat) : Nat := if (s.region r).st = .rebuilding then 0 else 1

/-- Does a region have stripes to issue: it holds a place, or is RELOCATING with its new set where it needs one? -/
def State.moves (s : State) (r : Nat) : Bool :=
  let e := s.region r
  let w := s.workOf r
  (e.st = .relocating || (e.st = .rebuilding && w.place)) && (!e.replacePending || w.replace.isSome)

/-- Issue one stripe: it asks for the exclusive interlock, and its bytes are charged (R321, R322, R377). -/
def State.issueStripe (s : State) (r k : Nat) : State :=
  let cls := s.workClass r
  let n := s.stripeBytes r k
  let w := s.workOf r
  ((s.charge cls n).newTask
    { kind := if w.replace.isSome || w.move.isSome then .copy else .rebuild, vol := (s.volumeOf r).getD 0, region := r,
      stripe := k, segs := [], fg := false, cls := some cls, paid := n } (some true)).2

/-- REBUILD_STRIPE_START: the next stripe of a region that is rebuilt, moved or placed anew, with at most 8 in flight. -/
def execRebuildStripeStart (region : Nat) (s : State) : Host.Outcome State Fault Refusal :=
  act s (
    if !s.tends || !s.unpaused region || !s.moves region || (s.workOf region).restartAt0 || (s.flying region).length ≥ 8
        || !s.mayStart (s.workClass region) then s
    else match s.nextStripe region with
      | none => s
      | some k => (s.issueStripe region k).run)

/-- REBUILD_RETRY_TIMER: 600 s after a halt the stripe is tried again (R323). -/
def execRebuildRetryTimer (region : Nat) (s : State) : Host.Outcome State Fault Refusal :=
  act s (if !s.live || !(s.workOf region).halted.any (fun h => h.2 + 600000000 ≤ s.now) then s
    else s.updWork region fun w => { w with halted := w.halted.filter fun h => s.now < h.2 + 600000000 })

/-- REBUILD_STARVED: the REBUILD share has stayed zero for 60 s while a region with CRIT = 1 waits, once for the episode (R351). -/
def execRebuildStarved (pool : Nat) (s : State) : Host.Outcome State Fault Refusal :=
  act s (match s.pools.look pool with
    | none => s
    | some p => match p.starvedSince with
      | none => s
      | some t =>
        let l := s.critWaiting pool
        if !s.live || p.starvedRecorded || l.isEmpty || s.gov.shares.getD 0 0 ≠ 0 || s.now < t + 60000000 then s
        else ({ s with pools := s.pools.put pool { p with starvedRecorded := true } }).event Ev.rebuildStarved pool pool l.length 0)

/-! ### Moves (R339, R341, R337, R343) -/

/-- Begin a move: the slot is written with COMPLETE = 0, and the region is RELOCATING (R92, R339). -/
def State.beginMove (s : State) (r : Nat) (mv : Move) : State :=
  let s := s.updRegion r fun e => { e with st := .relocating, watermark := 0,
                                           relocs := writeSlots e.relocs [⟨mv.pos, mv.dstPort, mv.dstRow, false⟩] }
  s.updWork r fun w => { w with move := some mv, done := [], waits := none }

/-- Start the move that a NORMAL region owes: copyback to its home, or evacuation to a target, or a re-placement where a sixth slot
would be needed (R332, R339, R341). -/
def State.startMove (s : State) (r : Nat) : State :=
  let e := s.region r
  match s.copybackPos r with
  | some (p, x) =>
    s.beginMove r { copyback := true, port := e.home p, pos := p, srcPort := x.port, srcRow := x.row,
                    dstPort := e.home p, dstRow := e.row, before_ := some x }
  | none =>
    match s.evacuationPos r with
    | none => s
    | some (p, d) =>
      if s.needsSixth r [p] then (s.startReplace r).2
      else match s.targetsFor r [p] [] (s.slotsUsed e.pool) with
        | .inl q => (s.event Ev.rebuildNoTarget e.pool r q e.pool).noteWait r
        | .inr l =>
          let t := l.headD ⟨p, 0, 0, false⟩
          s.beginMove r { copyback := false, port := d, pos := p, srcPort := (e.place p).1, srcRow := (e.place p).2,
                          dstPort := t.port, dstRow := t.row, before_ := e.reloc p }

/-- MOVE_START: the region of lowest index that owes a move starts it, at most 256 at once (R339). -/
def execMoveStart (s : State) : Host.Outcome State Fault Refusal :=
  act s (
    let moving := s.usedRegions.filter fun r => (s.region r).st = .relocating
    if !s.tends then s
    else match s.usedRegions.find? s.owesMove with
      | none => s
      | some r =>
        if (s.region r).st = .relocating then (s.replaceAgain r).run
        else if moving.length ≥ 256 then s
        else (s.startMove r).run)

/-! ### Scrub and checks (R347, R348, R350) -/

/-- A scrub period in µs (R347). -/
def periodUs (days : Nat) : Nat := days * 86400000000

/-- SCRUB_PASS_START: a pass starts once the one before and its period are both over; the first starts with the pool (R347). -/
def execScrubPassStart (pool : Nat) (s : State) : Host.Outcome State Fault Refusal :=
  act s (match s.pools.look pool with
    | none => s
    | some p =>
      let due := p.scrubStarted = 0 || s.now ≥ p.scrubStarted + periodUs p.scrubDays
      if !s.tends || s.life.starting || p.foreign_ || p.scrubDays = 0 || p.scrubAt.isSome || !due then s
      else { s with pools := s.pools.put pool { p with scrubAt := some (0, 0), scrubStarted := s.now, scrubBehind := false } })

/-- SCRUB_PERIOD_END: the period ends before its pass, which carries on; the event comes once (R347). -/
def execScrubPeriodEnd (pool : Nat) (s : State) : Host.Outcome State Fault Refusal :=
  act s (match s.pools.look pool with
    | none => s
    | some p => match p.scrubAt with
      | none => s
      | some (r, _) =>
        if !s.live || p.scrubBehind || p.scrubDays = 0 || s.now < p.scrubStarted + periodUs p.scrubDays then s
        else
          let left := ((s.poolRegions pool).filter fun q => r ≤ q).length
          ({ s with pools := s.pools.put pool { p with scrubBehind := true } }).event Ev.scrubBehind pool pool left p.scrubDays)

/-- Bytes that the scrub of a stripe reads (R377). -/
def State.scrubBytes (s : State) (r : Nat) : Nat :=
  let m := s.regionTmpl r
  4096 * m.strip * (m.positions.length - (s.lostSet r).length)

/-- Issue the scrub or check of one stripe: under the SCRUB share, charged when it starts, or, before READY, outside the governor; its I/O
goes with that of every scrub and check (R283, R348, R350, R351, R377). -/
def State.scrubTask (s : State) (r k : Nat) (report check paid : Bool) : State :=
  let n := s.scrubBytes r
  let s := if paid then s.charge 2 n else s
  (s.newTask { kind := .scrub report check, vol := (s.volumeOf r).getD 0, region := r, stripe := k, segs := [], fg := false,
               cls := if paid then some 2 else none, paid := n } (some true)).2

/-- The next stripe of a region's check; where `paid` it draws on the SCRUB share (R350, R351). -/
def State.checkStripe (s : State) (r : Nat) (paid : Bool) : State :=
  let w := s.workOf r
  (s.updWork r fun w => { w with checkNext := w.checkNext + 1 }).scrubTask r w.checkNext w.reportOnly true paid

/-- Regions of a pool whose check still has stripes to issue, from a list. -/
def State.toCheck (s : State) (pool : Nat) (l : List Nat) : Option Nat :=
  l.find? fun r => (s.region r).pool = pool && (s.region r).st ≠ .free && (s.workOf r).checkNext < s.stripes r

/-- The next step of a pool's scrub pass: the next stripe of the region it is at, or the next NORMAL region; with none left, and no
stripe of the pass in flight, the pass is complete (R347). A pass that runs when the period is set to 0 carries on to its end
(DESIGN CHOICE 43). -/
def State.passStep (s : State) (pool : Nat) (p : Pool) (r k : Nat) : State :=
  let here := if k ≠ 0 && (s.region r).pool = pool && (s.region r).st ≠ .free && k < s.stripes r then some (r, k)
    else ((s.poolRegions pool).find? fun q => (if k = 0 then r ≤ q else r < q) && (s.region q).st = .normal).map fun q => (q, 0)
  match here with
  | some (q, j) =>
    if !s.mayStart 2 then s
    else
      let s := { s with pools := s.pools.put pool { p with scrubAt := some (q, j + 1) } }
      s.scrubTask q j false false true
  | none =>
    let flying := s.tasks.any fun t => (s.region t.2.region).pool = pool && (match t.2.kind with | .scrub _ c => !c | _ => false)
    if flying then s
    else { s with pools := s.pools.put pool { p with scrubAt := none, scrubPasses := min 0xFFFFFFFF (p.scrubPasses + 1) } }

/-- SCRUB_STRIPE: the next stripe of the checks before READY, of the regions with CHECK_PENDING, of an extended self-test, or of the
scrub pass, in this order (R348, R350, R635). -/
def execScrubStripe (pool : Nat) (s : State) : Host.Outcome State Fault Refusal :=
  act s (match s.pools.look pool with
    | none => s
    | some p =>
      let early := ((s.life.starting && s.life.step ≥ 9) || s.mgmt.importing.isSome) && !s.life.checksFirst.isEmpty
      let test := s.mgmt.selfTest
      let pending := (s.regions.filter fun e => e.2.checkPending).map (·.1)
      if !s.live || s.life.st = .fenced || s.life.st = .failed || (!early && (s.life.starting || s.life.st = .standby || p.foreign_)) then s
      else if early then
        match s.toCheck pool s.life.checksFirst with
        | some r => (s.checkStripe r false).run
        | none => s
      else if !s.mayStart 2 && (s.toCheck pool pending).isSome then s
      else match s.toCheck pool pending with
        | some r => (s.checkStripe r true).run
        | none =>
          match (if s.testRegions then s.toCheck pool test.left else none) with
          | some r => if s.mayStart 2 then (s.checkStripe r true).run else s
          | none => match p.scrubAt with
            | some (r, k) => (s.passStep pool p r k).run
            | none => s)

end Sys2Proof.Machine
end

