-- ==== Sys2Proof/Machine/Registers.lean ====
section
/-! DEFINITION. The registers of BAR0 and BAR2 as the host reads them, and what a write of each does (R14, R383, R384, R460, R537 to
R539, R715 to R719, R729 to R734). -/

namespace Sys2Proof.Machine

open Sys2Proof

/-- A 32-bit register from its fields, as (lowest bit, width, value); what no field names reads as zero (R17). -/
def regWord (l : List (Nat × Nat × Nat)) : Word := w32 ((l.map fun f => f.2.2 % 2 ^ f.2.1 * 2 ^ f.1).sum)

/-! ### Reads -/

/-- The DDT of a function (R539). -/
def State.ddt (s : State) (f : FnId) : List Byte :=
  let vf := b2n (f.num ≠ 0)
  let part : List Byte := [0x47, 0x58, 0x2D, 0x49, 0x4C, 0x36, 0x34, 0x4B]
  overlay (pageOf 4096
    [(0, 4, 0x53544C49), (4, 2, 1), (6, 2, 4096), (0x18, 1, 0xB0), (0x19, 1, vf + 2 * f.ep + 4 * b2n s.life.bifurcated), (0x1A, 2, f.num),
     (0x1C, 2, 0x1F6B), (0x20, 4, s.runningVersion), (0x24, 1, s.life.st.code), (0x28, 2, maxRings f), (0x2A, 2, 16),
     (0x2C, 4, if f.num = 0 then 0x100000 else 0x10000), (0x30, 2, vectorsOf f), (0x32, 1, 64), (0x33, 1, 16), (0x34, 4, 65536),
     (0x38, 2, 4096), (0x3C, 4, 4096), (0x40, 32, if f.num = 0 then Config.identity.toNat else 0)]) 8 part

/-- The global block (R718), in the VF view of R719. -/
def State.globalWord (s : State) (f : FnId) (offset : Nat) : Word :=
  let x := s.fn f
  let pf (n : Nat) : Nat := if f.num = 0 then n else 0
  match offset with
  | 0x1000 => regWord [(0, 16, if f.num = 0 then 0x6440 else 0x6441), (16, 8, 0xB0), (24, 1, b2n (f.num ≠ 0)), (25, 1, f.ep),
                       (26, 1, b2n s.life.bifurcated)]
  | 0x1004 => regWord [(0, 3, s.life.st.code), (3, 1, pf (b2n s.life.foreign_)), (4, 1, pf (b2n !s.mgmt.staged.isEmpty)),
                       (5, 1, pf (b2n (s.mgmt.selfTest.status = 1))), (8, 4, s.life.lastFatal)]
  | 0x1008 => regWord [(0, 1, b2n x.intEn)]
  | 0x100C => regWord [(0, 1, b2n s.recorder.full), (1, 1, b2n s.recorder.clock.isSome), (2, 1, pf (b2n s.pair.partnerPresent)),
                       (8, 1, pf (b2n x.packCrossed))]
  | 0x1010 => regWord [(0, 12, x.cause.toNat)]
  | 0x1014 => regWord [(0, 12, x.causeMask.toNat)]
  | 0x1018 => regWord [(0, 32, pf x.suppressedTotal)]
  | 0x101C => s.recorder.next
  | _ => 0

/-- 32 bits of a bitmap with a bit for each ring in a list (R729). -/
def ringBits (rings : List Nat) (byte : Nat) : Word :=
  w32 (((span 0 32).filter fun i => rings.contains (8 * byte + i)).map (2 ^ ·)).sum

/-- The function block (R729, R732). -/
def State.functionWord (s : State) (f : FnId) (offset : Nat) : Word :=
  let x := s.fn f
  let cqs := s.cqs.vals.filter fun c => c.fn = f
  let sqs := s.sqs.vals.filter fun q => q.fn = f
  let held := (uniq (cqs.map (·.ring) ++ sqs.map (·.ring))).length
  let vols := (s.volumes.filter fun v => v.2.attached = some f).length
  if offset < 0x2100 then
    match offset with
    | 0x2000 => regWord [(0, 8, f.num), (8, 1, f.ep), (9, 1, b2n (f.num ≠ 0))]
    | 0x2004 => regWord [(1, 1, b2n x.adminActive), (2, 1, b2n x.adminFault)]
    | 0x2008 => regWord [(0, 13, x.adminDepth), (16, 11, x.adminVector)]
    | 0x2010 => w32 x.asqBase.toNat
    | 0x2014 => w32 (x.asqBase.toNat / 2 ^ 32)
    | 0x2018 => w32 x.acqBase.toNat
    | 0x201C => w32 (x.acqBase.toNat / 2 ^ 32)
    | 0x2020 => regWord [(0, 16, held), (16, 16, vols)]
    | _ => 0
  else
    let byte := (offset - 0x2100) % 0x200
    if f.num ≠ 0 && byte ≥ 32 then 0
    else if offset < 0x2300 then ringBits ((cqs.filter (·.stalled)).map (·.ring)) byte
    else if offset < 0x2500 then ringBits ((sqs.filter fun q => q.st = .error).map (·.ring)) byte
    else ringBits ((cqs.filter fun c => c.st = .error).map (·.ring)) byte

/-- The governor's global registers (R383). -/
def State.governorWord (s : State) (offset : Nat) : Word :=
  let g := s.gov
  let l := g.live
  match offset with
  | 0x20000 => regWord [(0, 16, g.period), (16, 1, b2n l.profInMin)]
  | 0x20004 => w32 g.budget
  | 0x20008 => regWord [(0, 4, g.winner), (16, 16, g.overruns)]
  | 0x2000C => g.periodCount
  | 0x20010 => w32 l.profTarget
  | 0x20014 => w32 l.profVmax
  | 0x20018 => w32 l.profAccel
  | 0x2001C => w32 l.profJerk
  | 0x20020 => BitVec.ofInt 32 g.rate
  | 0x20024 => BitVec.ofInt 32 g.slope
  | 0x20030 => w32 l.wattsMin
  | 0x20034 => w32 l.wattsMax
  | 0x20038 => w32 l.wattsFail
  | 0x2003C => regWord [(0, 11, g.duty), (16, 1, b2n !g.lost), (17, 1, b2n g.lostBit), (18, 1, b2n g.fastBit)]
  | 0x20040 => regWord ((span 0 4).map fun i => (8 * i, 8, l.weights.getD i 0))
  | 0x20044 => regWord ((span 0 2).map fun i => (8 * i, 8, l.weights.getD (4 + i) 0))
  | _ => if 0x20048 ≤ offset && offset < 0x20060 then w32 (g.shares.getD ((offset - 0x20048) / 4) 0) else 0

/-- Loop slot j (R384), at an offset within it. -/
def State.loopWord (s : State) (j offset : Nat) : Word :=
  let c := s.gov.live.loops.getD j {}
  let x := s.gov.loops.getD j {}
  let m (lo hi : Int) : Word := regWord [(0, 16, signedField 16 lo), (16, 16, signedField 16 hi)]
  match offset with
  | 0x00 => c.cfg &&& 0x77F
  | 0x04 => BitVec.ofInt 32 c.spValue
  | 0x08 => regWord [(0, 16, signedField 16 c.kpM), (16, 6, signedField 6 c.kpE)]
  | 0x0C => regWord [(0, 16, signedField 16 c.kiM), (16, 6, signedField 6 c.kiE)]
  | 0x10 => w32 c.outMin
  | 0x14 => w32 c.outMax
  | 0x18 => regWord [(0, 6, signedField 6 x.eF), (8, 6, signedField 6 x.eP), (16, 6, signedField 6 x.eO), (24, 1, b2n x.satF),
                     (25, 1, b2n x.satP), (26, 1, b2n x.satO), (27, 1, b2n x.stale), (28, 1, b2n x.expLimit)]
  | 0x1C => BitVec.ofInt 32 x.x
  | 0x20 => m x.y x.sp
  | 0x24 => m x.err x.pt
  | 0x28 => m x.i x.it
  | 0x2C => m x.v x.u
  | _ => 0

/-- The status register of the pack (R460): the warning levels as the last status frame carried them (R26). -/
def State.packStatus (s : State) : Word :=
  let p := s.pack
  regWord [(0, 4, p.st.code), (4, 1, b2n s.link.w1), (5, 1, b2n s.link.w2), (6, 1, b2n s.link.w3), (7, 1, b2n p.capUnverified), (8, 1, b2n p.provisional),
           (9, 1, b2n p.learnOverdue), (10, 1, b2n p.learnPending), (11, 1, b2n p.present), (12, 1, b2n p.fetClosed),
           (13, 1, b2n s.link.valid), (14, 2, s.wp.perm.code)]

/-- The power and pack status block (R460) at an offset within it: what the status frame carries is as its last frame had it (R26); no rule says
how the rest reaches the logic die, and it reads as the power die holds it (DESIGN CHOICE 50). -/
def State.packWord (s : State) (offset : Nat) : Word :=
  let p := s.pack
  let c := max 1 p.cLearned
  match offset with
  | 0x00 => s.packStatus
  | 0x04 => w32 p.crossing.toNat
  | 0x08 => regWord [(0, 16, s.link.reading.mv), (16, 16, signedField 16 s.link.reading.temp)]
  | 0x0C => BitVec.ofInt 32 s.link.reading.ma
  | 0x10 => BitVec.ofInt 32 p.qMc
  | 0x14 => w32 p.cLearned
  | 0x18 => w32 p.nominal
  | 0x1C => w32 s.link.eAvailMj
  | 0x20 => w32 (dumpMj s.settings.lCfg)
  | 0x24 => w32 s.link.inputMw
  | 0x28 => regWord [(0, 16, p.vinMv), (16, 16, p.vbus)]
  | 0x2C => regWord [(0, 16, min 0xFFFF ((s.dieNow - p.learnTime) / 86400)), (16, 16, p.learnCount)]
  | 0x30 => regWord [(0, 10, (min 1000 (max 0 (p.qMc * 1000 / c))).toNat), (16, 11, if p.nominal = 0 then 0 else p.cLearned * 1000 / p.nominal)]
  | 0x34 => w32 (if p.nominal = 0 then 0 else p.throughput / (1000 * qUnit) * 100000 / p.nominal)
  | _ => 0

/-- A dword of the MSI-X table (R734). -/
def State.msixWord (s : State) (f : FnId) (offset : Nat) : Word :=
  let (a, h, d, m) := (s.fn f).entry (offset / 16)
  match offset % 16 / 4 with
  | 0 => a
  | 1 => h
  | 2 => d
  | _ => w32 (b2n m)

/-- The 32-bit register at an offset as it reads, without the clearing of an RC field (R14). -/
def State.readWord (s : State) (f : FnId) (bar offset : Nat) : Word :=
  match blockAt f bar offset with
  | .ddt => w32 (numAt (s.ddt f) offset 4)
  | .global => s.globalWord f offset
  | .function => s.functionWord f offset
  | .governor => s.governorWord offset
  | .loops => s.loopWord ((offset - 0x20100) / 64) ((offset - 0x20100) % 64)
  | .packStatus => s.packWord (offset - 0x30000)
  | .msixTable => s.msixWord f offset
  | .pba => w32 (((span 0 32).filter fun i => (s.fn f).pba.contains (8 * (offset - 0x8000) + i)).map (2 ^ ·)).sum
  | .doorbell => 0
  | .empty => 0

/-! ### Writes -/

/-- INT_EN and FORCE lie in one register: both act at one instant, and one message is due at most (R718, R724, R726). -/
def State.writeControl (s : State) (f : FnId) (v : Word) : State :=
  let x := s.fn f
  let on := v.getLsbD 0
  let forced := (BitVec.ofNat 12 (field v.toNat 16 12)) &&& causeBits f
  let cause := x.cause ||| forced
  let due := (forced &&& ~~~x.cause &&& ~~~x.causeMask) ≠ 0 || (!x.intEn && (cause &&& ~~~x.causeMask) ≠ 0)
  (s.setFn f { x with intEn := on, cause := cause }).causeDue f due

/-- A write to the global block (R718, R719). -/
def State.writeGlobal (s : State) (f : FnId) (offset : Nat) (v : Word) : State :=
  match offset with
  | 0x1008 => s.writeControl f v
  | 0x100C => if f.num = 0 && v.getLsbD 8 then s.setFn f { s.fn f with packCrossed := false } else s
  | 0x1010 => s.writeCause f (BitVec.ofNat 12 v.toNat)
  | 0x1014 => s.writeMask f (BitVec.ofNat 12 v.toNat)
  | _ => s

/-- Replace the low or the high 32 bits of a base; the low 12 bits stay zero (R729). -/
def baseLow (b : BitVec 64) (v : Word) : BitVec 64 := BitVec.ofNat 64 (b.toNat / 2 ^ 32 * 2 ^ 32 + v.toNat / 4096 * 4096)

def baseHigh (b : BitVec 64) (v : Word) : BitVec 64 := BitVec.ofNat 64 (v.toNat * 2 ^ 32 + b.toNat % 2 ^ 32)

/-- A write to the function block: ADMIN_EN and ADMIN_FAULT, and the set-up fields while ADMIN_ACTIVE is 0 (R729 to R731). A fault
that the same write clears and a refused request sets again stays set (R15). -/
def State.writeFunction (s : State) (f : FnId) (offset : Nat) (v : Word) : State :=
  let x := s.fn f
  if offset = 0x2004 then
    let s := if v.getLsbD 2 then s.setFn f { x with adminFault := false } else s
    if v.getLsbD 0 then s.adminEnable f else s
  else if x.adminActive then s
  else match offset with
    | 0x2008 => s.setFn f { x with adminDepth := field v.toNat 0 13, adminVector := field v.toNat 16 11 }
    | 0x2010 => s.setFn f { x with asqBase := baseLow x.asqBase v }
    | 0x2014 => s.setFn f { x with asqBase := baseHigh x.asqBase v }
    | 0x2018 => s.setFn f { x with acqBase := baseLow x.acqBase v }
    | 0x201C => s.setFn f { x with acqBase := baseHigh x.acqBase v }
    | _ => s

/-- The signed value of the low w bits of a word from bit `lo` on. -/
def signedAt (v : Word) (lo w : Nat) : Int := (BitVec.ofNat w (field v.toNat lo w)).toInt

/-- The weights after a write of the word that holds those from `first` on. -/
def newWeights (l : List Nat) (first n : Nat) (v : Word) : List Nat :=
  l.zipIdx.map fun e => if first ≤ e.2 && e.2 < first + n then field v.toNat (8 * (e.2 - first)) 8 else e.1

/-- Change the live fields of the governor. -/
def State.setLive (s : State) (l : GovLive) : State := { s with gov := { s.gov with live := l } }

/-- A write to the governor's global registers: the RW fields, which the next sample instant latches, and LOST and FAST (R358, R383). -/
def State.writeGovernor (s : State) (offset : Nat) (v : Word) : State :=
  let g := s.gov
  let l := g.live
  let n := v.toNat
  match offset with
  | 0x20000 => s.setLive { l with profInMin := v.getLsbD 16 }
  | 0x20010 => s.setLive { l with profTarget := n }
  | 0x20014 => s.setLive { l with profVmax := n }
  | 0x20018 => s.setLive { l with profAccel := n }
  | 0x2001C => s.setLive { l with profJerk := n }
  | 0x20030 => s.setLive { l with wattsMin := n }
  | 0x20034 => s.setLive { l with wattsMax := n }
  | 0x20038 => s.setLive { l with wattsFail := n }
  | 0x2003C => { s with gov := { g with lostBit := g.lostBit && !v.getLsbD 17, fastBit := g.fastBit && !v.getLsbD 18 } }
  | 0x20040 => s.setLive { l with weights := newWeights l.weights 0 4 v }
  | 0x20044 => s.setLive { l with weights := newWeights l.weights 4 2 v }
  | _ => s

/-- Change a loop slot's configuration. -/
def State.setLoop (s : State) (j : Nat) (f : LoopCfg → LoopCfg) : State :=
  let l := s.gov.live
  s.setLive { l with loops := l.loops.zipIdx.map fun e => if e.2 = j then f e.1 else e.1 }

/-- A write to a loop slot (R384). -/
def State.writeLoop (s : State) (j offset : Nat) (v : Word) : State :=
  match offset with
  | 0x04 => s.setLoop j fun c => { c with spValue := v.toInt }
  | 0x08 => s.setLoop j fun c => { c with kpM := signedAt v 0 16, kpE := signedAt v 16 6 }
  | 0x0C => s.setLoop j fun c => { c with kiM := signedAt v 0 16, kiE := signedAt v 16 6 }
  | 0x10 => s.setLoop j fun c => { c with outMin := v.toNat }
  | 0x14 => s.setLoop j fun c => { c with outMax := v.toNat }
  | 0x18 =>
    { s with gov := { s.gov with loops := s.gov.loops.zipIdx.map fun e =>
        if e.2 = j then { e.1 with satF := e.1.satF && !v.getLsbD 24, satP := e.1.satP && !v.getLsbD 25,
                                   satO := e.1.satO && !v.getLsbD 26, expLimit := e.1.expLimit && !v.getLsbD 28 } else e.1 } }
  | _ => s

/-- A write to the pack block: the crossing register (R460). -/
def State.writePack (s : State) (offset : Nat) (v : Word) : State :=
  if offset = 4 then s.updPack fun p => { p with crossing := p.crossing &&& ~~~(BitVec.ofNat 9 v.toNat) } else s

/-- A doorbell write (R584, R585, R733). -/
def State.writeDoorbell (s : State) (f : FnId) (offset : Nat) (v : Word) : State :=
  let o := offset - (if f.num = 0 then 0x100000 else 0x10000)
  match o % 16 with
  | 0 => (s.tailValue f (o / 16) v.toNat false).ltrTouch f.ep
  | 4 => (s.headValue f (o / 16) v.toNat false).ltrTouch f.ep
  | _ => s

/-- Write one 32-bit register; a write to a place that is read-only or empty is discarded (R537, R538, R716). -/
def State.writeWord (s : State) (f : FnId) (bar offset : Nat) (v : Word) : State :=
  match blockAt f bar offset with
  | .ddt => s
  | .global => s.writeGlobal f offset v
  | .function => s.writeFunction f offset v
  | .doorbell => s.writeDoorbell f offset v
  | .governor => s.writeGovernor offset v
  | .loops => s.writeLoop ((offset - 0x20100) / 64) ((offset - 0x20100) % 64) v
  | .packStatus => s.writePack (offset - 0x30000) v
  | .msixTable => s.writeMsix f (offset / 16) (offset % 16 / 4) v
  | .pba => s
  | .empty => s

/-- A BAR write: 4 or 8 bytes aligned to their size, a doorbell 4 bytes only, and any where no block is; a poisoned one is discarded (R537,
R553, R717). -/
def State.barWrite (s : State) (f : FnId) (bar offset len : Nat) (v : BitVec 64) (poisoned : Bool) : State :=
  if offset + len > barSize f bar then s
  else if !s.mmioOk f then s.mmio f false s
  else if poisoned then (s.aer f 12 true).fnEvent Ev.hostPoisoned f 1 offset
  else if unoccupied f bar offset len then s
  else if (len ≠ 4 && len ≠ 8) || offset % len ≠ 0 || (blockAt f bar offset = .doorbell && len ≠ 4) then s.badAccess f bar len false offset
  else
    let s := s.writeWord f bar offset (w32 v.toNat)
    if len = 8 then s.writeWord f bar (offset + 4) (w32 (v.toNat / 2 ^ 32)) else s

/-! ### Configuration space (R533, R534, R542 to R562) -/

/-- A value of 128 × 2^v bytes, for codes the module supports; another code changes nothing (R545). -/
def sizeCode (old most v : Nat) : Nat := if v ≤ most then 128 * 2 ^ v else old

/-- An endpoint's setting, which the PF holds (R533). -/
def State.pfSet (s : State) (f : FnId) (g : Endpoint → Endpoint) : State := if f.num = 0 then s.setEp f.ep (g (s.ep f.ep)) else s

/-- LTR Mechanism Enable is written: where it becomes set, a message goes out with the present condition (R555). -/
def State.writeLtr (s : State) (f : FnId) (on : Bool) : State :=
  let x := s.ep f.ep
  let s := s.pfSet f fun x => { x with ltrEnable := on }
  if f.num = 0 && on && !x.ltrEnable then s.sendLtr f.ep (if x.ltrActive then 20000 else 1000000) else s

/-- A write to AER uncorrectable status: RW1C; the First Error Pointer goes with the bit it names (R552, R554). -/
def Fn.clearUncorr (x : Fn) (v : Nat) : Fn :=
  let rest := ((span 0 32).filter fun i => bitAt x.aerUncorr i && !bitAt v i).map (2 ^ ·)
  { x with aerUncorr := rest.sum, firstError := match x.firstError with | some i => if bitAt v i then none else some i | none => none }

/-! #### Base address registers (R535) -/

/-- A base after a write of one of its dwords: the bits within the BAR's size stay zero. -/
def barDword (size : Nat) (high : Bool) (b : BitVec 64) (v : Nat) : BitVec 64 :=
  let v := v % 2 ^ 32
  if high then BitVec.ofNat 64 (v * 2 ^ 32 + b.toNat % 2 ^ 32) else BitVec.ofNat 64 (b.toNat / 2 ^ 32 * 2 ^ 32 + v / size * size)

/-- A write of a BAR's dword. The BARs of a VF are the SR-IOV fields of its PF: its own read zero, and a write of them is discarded
(PRESUMED 36 from the PCIe standard); the fields stand still while VF Enable is set (PRESUMED 36). -/
def State.writeBar (s : State) (f : FnId) (d : BarDword) (v : Nat) : State :=
  let x := s.fn f
  let e := s.ep f.ep
  let vf (g : Endpoint) : State := if e.vfEnable then s else s.pfSet f fun _ => g
  if f.num ≠ 0 then s
  else match d with
    | .low0 => s.setFn f { x with bar0 := barDword (barSize f 0) false x.bar0 v }
    | .high0 => s.setFn f { x with bar0 := barDword (barSize f 0) true x.bar0 v }
    | .low2 => s.setFn f { x with bar2 := barDword (barSize f 2) false x.bar2 v }
    | .high2 => s.setFn f { x with bar2 := barDword (barSize f 2) true x.bar2 v }
    | .vfLow0 => vf { e with vfBar0 := barDword (barSize ⟨f.ep, 1⟩ 0) false e.vfBar0 v }
    | .vfHigh0 => vf { e with vfBar0 := barDword (barSize ⟨f.ep, 1⟩ 0) true e.vfBar0 v }
    | .vfLow2 => vf { e with vfBar2 := barDword (barSize ⟨f.ep, 1⟩ 2) false e.vfBar2 v }
    | .vfHigh2 => vf { e with vfBar2 := barDword (barSize ⟨f.ep, 1⟩ 2) true e.vfBar2 v }

/-- What a BAR's dword reads as: the base, with 64-bit, not prefetchable and memory in the low bits (R535). -/
def State.readBar (s : State) (f : FnId) (d : BarDword) : Nat :=
  let x := s.fn f
  let e := s.ep f.ep
  let low (b : BitVec 64) : Nat := b.toNat % 2 ^ 32 + 4
  let high (b : BitVec 64) : Nat := b.toNat / 2 ^ 32
  if f.num ≠ 0 then 0
  else match d with
    | .low0 => low x.bar0
    | .high0 => high x.bar0
    | .low2 => low x.bar2
    | .high2 => high x.bar2
    | .vfLow0 => low e.vfBar0
    | .vfHigh0 => high e.vfBar0
    | .vfLow2 => low e.vfBar2
    | .vfHigh2 => high e.vfBar2

/-- The base address of a function's BAR; VF n takes the n-th place of the SR-IOV field's range (R535). -/
def State.barBase (s : State) (f : FnId) (bar : Nat) : Nat :=
  let x := s.fn f
  let e := s.ep f.ep
  if f.num = 0 then (if bar = 0 then x.bar0 else x.bar2).toNat
  else (if bar = 0 then e.vfBar0 else e.vfBar2).toNat + (f.num - 1) * barSize f bar

/-! #### What the configuration space presents (R533) -/

/-- The capabilities of R533. -/
inductive Capability where
  | pciExpress | powerManagement | msix | aer | srIov | ari | serialNumber | ltr | dataLinkFeature
deriving DecidableEq, Repr

/-- Does a function present a capability? No other is presented. -/
def Capability.presented (c : Capability) (f : FnId) : Bool :=
  match c with
  | .srIov | .serialNumber | .ltr | .dataLinkFeature => f.num = 0
  | _ => true

/-- The read-only fields that R533 gives a value. -/
inductive CfgConst where
  | classCode | vendorId | deviceId | revisionId | interruptPin
  | maxPayloadSupported | flrCapable | extendedTag | tenBitTagRequester | fourteenBitTagRequester
  | timeoutRanges | timeoutDisable | d1Support | d2Support | noSoftReset | pmeSupport
  | msixTableSize | msixTable | msixPba | ecrcGenerateCapable | ecrcCheckCapable | multipleHeaders
  | totalVfs | initialVfs | firstVfOffset | vfStride | vfDeviceId | supportedPageSizes
  | serialNumber | aspmSupport | deviceType | scaledFlowControl
deriving DecidableEq, Repr

/-- The value of a read-only field (R533, R535, R554), zero in a function that does not present it. The Vendor ID of a VF, the codes of
the sizes, ranges, pages and of the device type Endpoint, and the support of Scaled Flow Control are those of the PCIe standard (PRESUMED 36). -/
def CfgConst.value (c : CfgConst) (f : FnId) : Nat :=
  let pf (n : Nat) : Nat := if f.num = 0 then n else 0
  match c with
  | .classCode => 0x010400
  | .vendorId => if f.num = 0 then 0x1F6B else 0xFFFF
  | .deviceId => if f.num = 0 then 0x6440 else 0x6441
  | .revisionId => 0xB0
  | .interruptPin => 0
  | .maxPayloadSupported => 3
  | .flrCapable | .extendedTag | .tenBitTagRequester | .fourteenBitTagRequester => 1
  | .timeoutRanges => 3
  | .timeoutDisable | .d1Support | .d2Support => 0
  | .noSoftReset => 1
  | .pmeSupport => 0
  | .msixTableSize => vectorsOf f - 1
  | .msixTable => 2
  | .msixPba => 0x8002
  | .ecrcGenerateCapable | .ecrcCheckCapable => 1
  | .multipleHeaders => 0
  | .totalVfs | .initialVfs => pf 255
  | .firstVfOffset | .vfStride => pf 1
  | .vfDeviceId => pf 0x6441
  | .supportedPageSizes => pf 1
  | .serialNumber => pf (Config.identity.toNat / 2 ^ 64 % 2 ^ 64)
  | .aspmSupport => 0
  | .deviceType => 0
  | .scaledFlowControl => pf 1

/-- The code of 128 × 2^v bytes (R545). -/
def codeOfSize (n : Nat) : Nat := ((span 0 6).find? fun v => 128 * 2 ^ v = n).getD 0

/-- What a field that a write may set reads as; the PF's settings read zero in a VF (R533, R534). -/
def State.configRead (s : State) (f : FnId) (field_ : CfgField) : Nat :=
  let x := s.fn f
  let e := s.ep f.ep
  let pf (n : Nat) : Nat := if f.num = 0 then n else 0
  match field_ with
  | .bar d => s.readBar f d
  | .ariHierarchy => pf (b2n e.ari)
  | .numVfs => pf e.numVfs
  | .vfEnableSet => pf (b2n e.vfEnable)
  | .completionTimeout => x.cplTimeout
  | .relaxedOrdering => b2n x.relaxedOrdering
  | .maxPayload => codeOfSize x.maxPayload
  | .maxReadRequest => codeOfSize x.maxReadRequest
  | .tenBitTags => b2n x.tenBitTags
  | .msixEnable => b2n x.msixEnable
  | .functionMask => b2n x.functionMask
  | .ltrEnable => pf (b2n e.ltrEnable)
  | .maxSnoop => pf e.maxSnoop
  | .maxNoSnoop => pf e.maxNoSnoop
  | .aerUncorrStatus => x.aerUncorr
  | .aerUncorrMask => x.aerUncorrMask
  | .aerUncorrSeverity => x.aerUncorrSev
  | .aerCorrStatus => x.aerCorr
  | .aerCorrMask => x.aerCorrMask
  | .reportCorrectable => b2n x.report.1
  | .reportNonFatal => b2n x.report.2.1
  | .reportFatal => b2n x.report.2.2.1
  | .reportUnsupported => b2n x.report.2.2.2
  | .ecrcCheck => b2n x.ecrc.1
  | .ecrcGenerate => b2n x.ecrc.2

/-- A write to a configuration field. -/
def State.configWrite (s : State) (f : FnId) (field_ : CfgField) (v : Nat) : State :=
  let x := s.fn f
  let on := v % 2 = 1
  if !s.hostOn || !s.fnExists f || !(s.ep f.ep).up then s
  else match field_ with
    | .bar d => s.writeBar f d v
    | .ariHierarchy => s.pfSet f fun e => { e with ari := on }
    | .numVfs => s.pfSet f fun e => if e.vfEnable then e else { e with numVfs := min 255 v }
    | .vfEnableSet => s.pfSet f fun e => { e with vfEnable := true }
    | .completionTimeout => s.setFn f { x with cplTimeout := v % 16 }
    | .relaxedOrdering => s.setFn f { x with relaxedOrdering := on }
    | .maxPayload => s.setFn f { x with maxPayload := sizeCode x.maxPayload 3 v }
    | .maxReadRequest => s.setFn f { x with maxReadRequest := sizeCode x.maxReadRequest 5 v }
    | .tenBitTags => s.setFn f { x with tenBitTags := on }
    | .msixEnable => (s.setFn f { x with msixEnable := on }).flushPba f
    | .functionMask => (s.setFn f { x with functionMask := on }).flushPba f
    | .ltrEnable => s.writeLtr f on
    | .maxSnoop => s.pfSet f fun e => { e with maxSnoop := v }
    | .maxNoSnoop => s.pfSet f fun e => { e with maxNoSnoop := v }
    | .aerUncorrStatus => s.setFn f (x.clearUncorr v)
    | .aerUncorrMask => s.setFn f { x with aerUncorrMask := v % 2 ^ 32 }
    | .aerUncorrSeverity => s.setFn f { x with aerUncorrSev := v % 2 ^ 32 }
    | .aerCorrStatus => s.setFn f { x with aerCorr := (((span 0 32).filter fun i => bitAt x.aerCorr i && !bitAt v i).map (2 ^ ·)).sum }
    | .aerCorrMask => s.setFn f { x with aerCorrMask := v % 2 ^ 32 }
    | .reportCorrectable => s.setFn f { x with report := (on, x.report.2) }
    | .reportNonFatal => s.setFn f { x with report := (x.report.1, on, x.report.2.2) }
    | .reportFatal => s.setFn f { x with report := (x.report.1, x.report.2.1, on, x.report.2.2.2) }
    | .reportUnsupported => s.setFn f { x with report := (x.report.1, x.report.2.1, x.report.2.2.1, on) }
    | .ecrcCheck => s.setFn f { x with ecrc := (on, x.ecrc.2) }
    | .ecrcGenerate => s.setFn f { x with ecrc := (x.ecrc.1, on) }

end Sys2Proof.Machine
end

