-- ==== Sys2Proof/Machine/Sideband.lean ====
section
/-! DEFINITION. The management sideband: its registers, the mailbox, alerts and the I3C common commands (R697 to R714); and
REGISTER_WRITE, which reaches the host's, the configuration and the sideband registers (R14). -/

namespace Sys2Proof.Machine

open Sys2Proof

/-- Change the sideband. -/
def State.updSb (s : State) (g : Sideband → Sideband) : State := { s with sb := g s.sb }

/-! ### Registers as they read (R702, R704) -/

/-- The register at 0x04: STATE, PERMISSION, SIDE, LAST_FATAL. -/
def State.sbHealth (s : State) : Word :=
  regWord [(0, 3, s.life.st.code), (3, 2, s.wp.perm.code), (5, 1, s.sideNo), (8, 4, s.life.lastFatal)]

/-- The register at an offset, without the clearing of PEC_ERRORS; bytes beyond 0x7F read as zero. -/
def State.sbWord (s : State) (offset : Nat) : Word :=
  let b := s.sb
  match offset with
  | 0x00 => regWord [(0, 16, 0x6440), (16, 8, 0xB0)]
  | 0x04 => s.sbHealth
  | 0x08 => regWord [(0, 10, b.status.toNat)]
  | 0x0C => regWord [(0, 10, b.enable.toNat)]
  | 0x14 => regWord [(0, 1, b2n b.busy), (1, 1, b2n b.stale), (2, 1, b2n b.overrun), (8, 8, b.resultCode), (16, 16, b.cmdSeq)]
  | 0x48 => regWord [(0, 16, b.pecErrors)]
  | _ =>
    if 0x18 ≤ offset && offset < 0x28 then b.args.getD ((offset - 0x18) / 4) 0
    else if 0x28 ≤ offset && offset < 0x48 then b.results.getD ((offset - 0x28) / 4) 0
    else 0

/-- n bytes of the register space from an offset (R702). -/
def State.sbBytes (s : State) (offset n : Nat) : List Byte :=
  (span offset n).map fun o => BitVec.ofNat 8 ((s.sbWord (o / 4 * 4)).toNat / 256 ^ (o % 4))

/-- The RC field PEC_ERRORS is cleared by a read that covers it (R14, R704). -/
def State.sbReadClears (s : State) (offset n : Nat) : State :=
  if offset < 0x4A && 0x48 < offset + n then { s with sb := { s.sb with pecErrors := 0 } } else s

/-- The CRC of the SMBus packet error code, x^8 + x^2 + x + 1 (PRESUMED 55 from the SMBus standard). -/
def pecOf (l : List Byte) : Byte :=
  l.foldl (fun c b => (span 0 8).foldl (fun (c : Byte) _ => if c.getLsbD 7 then (c <<< 1) ^^^ 0x07 else c <<< 1) (c ^^^ b)) 0

/-! ### Writes of the registers (R704, R705, R713) -/

/-- The pending alert ends where no enabled bit is set any more (R713). -/
def State.alertSettles (s : State) : State := if s.sb.status &&& s.sb.enable = 0 then s.endAlert else s

/-- Raise an in-band interrupt with ALERT_STATUS [7:0], in I3C mode with interrupts enabled (R713). -/
def State.raiseIbi (s : State) : State :=
  if s.sb.i3c && s.sb.ibiEnabled && s.sb.alert then
    (s.updSb fun b => { b with ibiAt := s.now }).emit (.sidebandIbi (BitVec.ofNat 8 s.sb.status.toNat))
  else s

/-- An alert becomes pending (R713). -/
def State.alertPending (s : State) : State :=
  let s := if s.sb.alert then s else (s.updSb fun b => { b with alert := true }).emit (.sidebandAlert true)
  s.raiseIbi

/-- A write to ALERT_STATUS: RW1C. -/
def State.sbStatusWrite (s : State) (v : BitVec 10) : State := (s.updSb fun b => { b with status := b.status &&& ~~~v }).alertSettles

/-- A write to ALERT_ENABLE: an alert is pending where a 1 is written over a set cause. -/
def State.sbEnableWrite (s : State) (v : BitVec 10) : State :=
  let s := s.updSb fun b => { b with enable := v }
  if s.sb.status &&& v ≠ 0 then s.alertPending else s.alertSettles

/-- A CMD write: it starts a command, or is turned away while one runs (R705). -/
def State.sbCommand (s : State) (n : Nat) : State :=
  if s.sb.busy then (s.updSb fun b => { b with overrun := true }).event Ev.sbCmdRejected 0 n s.sb.cmdSeq 0
  else s.updSb fun b => { b with busy := true, stale := true, cmd := n, cmdArgs := b.args }

/-- Write one register; what is read-only, reserved or beyond 0x7F discards the value (R14, R17, R702, R704). -/
def State.sbWrite (s : State) (offset : Nat) (v : Word) : State :=
  match offset with
  | 0x08 => s.sbStatusWrite (BitVec.ofNat 10 v.toNat)
  | 0x0C => s.sbEnableWrite (BitVec.ofNat 10 v.toNat)
  | 0x10 => s.sbCommand (v.toNat % 256)
  | 0x14 => if v.getLsbD 2 then s.updSb fun b => { b with overrun := false } else s
  | _ =>
    if 0x18 ≤ offset && offset < 0x28 then
      s.updSb fun b => { b with args := b.args.zipIdx.map fun e => if e.2 = (offset - 0x18) / 4 then v else e.1 }
    else s

/-- Write consecutive registers from an offset on. -/
def State.sbWrites (s : State) (offset : Nat) (data : List Byte) : State :=
  s.over (span 0 (data.length / 4)) fun s i => s.sbWrite (offset + 4 * i) (w32 (numAt data (4 * i) 4))

/-- An SMBus Block Write: the count in range, a whole number of registers, and the PEC right where there is one (R702, R703). -/
def State.sbSmbus (s : State) (offset count : Nat) (data : List Byte) (pec : Option Bool) : State :=
  if s.sb.i3c then s
  else if pec = some false then
    let s := s.updSb fun b => { b with pecErrors := min 65535 (b.pecErrors + 1) }
    s.event Ev.sbPecError 0 offset s.sb.pecErrors 0
  else if offset % 4 ≠ 0 || count < 4 || 32 < count || count % 4 ≠ 0 || data.length ≠ count then s
  else s.sbWrites offset data

/-- An I3C private write: the offset, which later reads use, and whole registers (R702). -/
def State.sbI3c (s : State) (offset : Nat) (data : List Byte) : State :=
  if !s.sb.i3c || offset % 4 ≠ 0 || data.length % 4 ≠ 0 then s
  else (s.updSb fun b => { b with lastOffset := offset }).sbWrites offset data

/-- The target's static address (R697). -/
def State.sbAddress (s : State) : Nat := s.sb.staticAddr.getD 0x58

/-- An SMBus block read: a count of 32, the 32 bytes from the offset, and the PEC of the whole transfer where the controller reads one byte
past the block (R702, R703). -/
def State.sbBlockRead (s : State) (offset : Nat) (pec : Bool) : State :=
  if s.sb.i3c || offset % 4 ≠ 0 then s
  else
    let reply := 32#8 :: s.sbBytes offset 32
    let a := BitVec.ofNat 8 (2 * s.sbAddress)
    let head := [a, BitVec.ofNat 8 offset, a + 1]
    (s.emit (.sidebandReply (if pec then reply ++ [pecOf (head ++ reply)] else reply))).sbReadClears offset 32

/-- An I3C private read: up to 64 bytes from the last offset written, which advances by as many (R702). -/
def State.sbPrivateRead (s : State) (count : Nat) : State :=
  if !s.sb.i3c then s
  else
    let n := min 64 count
    let o := s.sb.lastOffset
    ((s.emit (.sidebandReply (s.sbBytes o n))).sbReadClears o n).updSb fun b => { b with lastOffset := o + n }

/-- REGISTER_WRITE: the accesses of the sideband that read go with its writes, as the table gives the block read no row of its own
(R702, R703). -/
def execRegisterWrite (target : RegTarget) (s : State) : Host.Outcome State Fault Refusal :=
  act s (match target with
    | .bar f bar off len v poisoned => (s.barWrite f bar off len v poisoned).run
    | .config f field_ v => (s.configWrite f field_ v).run
    | .smbus off count data pec => if s.sbOn then s.sbSmbus off count data pec else s
    | .i3c off data => if s.sbOn then s.sbI3c off data else s
    | .smbusRead off pec => if s.sbOn then s.sbBlockRead off pec else s
    | .i3cRead n => if s.sbOn then s.sbPrivateRead n else s)

/-! ### Mailbox commands (R705, R710) -/

/-- A CMD write reaches the target. -/
def State.mailbox (s : State) (n : Nat) : State := if s.sbOn then s.sbCommand n else s

/-- GET_IDENTITY: CMD 0x01. -/
def execGetIdentity (s : State) : Host.Outcome State Fault Refusal := act s (s.mailbox 1)

/-- GET_HEALTH: CMD 0x02. -/
def execGetHealth (s : State) : Host.Outcome State Fault Refusal := act s (s.mailbox 2)

/-- READ_LOG: CMD 0x03 with the arguments as they stand. -/
def execReadLog (s : State) : Host.Outcome State Fault Refusal := act s (s.mailbox 3)

/-- READ_EVENT: CMD 0x04. -/
def execReadEvent (s : State) : Host.Outcome State Fault Refusal := act s (s.mailbox 4)

/-- CLEAR_EVENTS: CMD 0x05. -/
def execClearEvents (s : State) : Host.Outcome State Fault Refusal := act s (s.mailbox 5)

/-- READ_HISTOGRAM: CMD 0x06. -/
def execReadHistogram (s : State) : Host.Outcome State Fault Refusal := act s (s.mailbox 6)

/-- READ_PACK: CMD 0x07. -/
def execReadPack (s : State) : Host.Outcome State Fault Refusal := act s (s.mailbox 7)

/-! ### Their results (R706, R710, R711) -/

/-- RESULT0 to RESULT7 from 32 bytes. -/
def resultWords (l : List Byte) : List Word := (span 0 8).map fun i => w32 (numAt l (4 * i) 4)

/-- The results of GET_HEALTH. -/
def State.healthResults (s : State) : List Word :=
  let lost := s.members.filter fun e => e.2.st = .failed || e.2.st = .removed
  let tiles := (((span 0 48).filter fun t => !s.mgmt.tilesOut.getLsbD t).map (2 ^ ·)).sum
  let hbm := (((span 0 32).filter fun c => s.life.hbmTrained.getLsbD c && !s.mgmt.hbmOut.getLsbD c).map (2 ^ ·)).sum
  [s.sbHealth, regWord [(0, 8, s.vault.percentUsed), (8, 1, b2n s.vault.life90), (9, 1, b2n s.vault.readOnly)],
   w32 (s.volumes.filter fun e => s.volState e.2 ≠ .online).length, w32 lost.length, w32 hbm, w32 tiles, w32 (tiles / 2 ^ 32),
   BitVec.ofInt 32 s.recorder.hottest]

/-- A page from an offset that names a whole row of 32 bytes within it; else code 2. -/
def pageResult (page : List Byte) (offset : Nat) : Nat × List Word :=
  if offset % 32 ≠ 0 || offset ≥ page.length then (2, []) else (0, resultWords (bytesAt page offset 32))

/-- Does a log page name an object in range, and one that is there? -/
def State.logObject (s : State) (id obj : Nat) : Bool × Bool :=
  if id = 2 || id = 7 then (obj < 4096, s.volumes.has obj)
  else if id = 3 then (obj < 16, s.pools.has obj)
  else if id = 4 then (obj < 64, s.members.has obj)
  else if id = 5 then (obj < 64, true)
  else if id = 6 then (obj < 16777216, true)
  else (obj = 0, true)

/-- READ_LOG's code and results. -/
def State.logResult (s : State) (id obj offset : Nat) : Nat × List Word :=
  let (range, there) := s.logObject id obj
  if id = 0 || 12 < id || offset % 32 ≠ 0 || !range then (2, [])
  else if !there then (3, [])
  else (0, resultWords (s.logBytes id obj offset 32))

/-- The code and results of a command with its arguments; the clear of CLEAR_EVENTS aside. -/
def State.mailboxResult (s : State) (cmd : Nat) (args : List Word) : Nat × List Word :=
  let a (i : Nat) : Nat := (args.getD i 0).toNat
  let recorded := s.vault.mounted && s.recorder.up && s.live
  match cmd with
  | 1 => (0, (span 0 8).map fun i => w32 (field Config.identity.toNat (32 * i) 32))
  | 2 => (0, s.healthResults)
  | 3 => s.logResult (a 0) (a 1) (a 2)
  | 4 =>
    if !recorded then (3, [])
    else match s.recorder.records.find? fun r => atLeastGen r.seq (args.getD 0 0) with
      | some r => (0, resultWords r.bytes)
      | none => (4, [])
  | 5 => if a 0 ≠ 0x52414C43 then (2, []) else if !recorded then (3, []) else (0, [])
  | 6 =>
    if 63 < a 0 && a 0 ≠ 0xFF then (2, [])
    else if !recorded then (3, [])
    else pageResult (if a 0 = 0xFF then s.extremesPage else s.seriesPage (a 0)) (a 1)
  | 7 => if a 0 ≠ 0 && a 0 ≠ 32 then (2, []) else (0, (span 0 8).map fun i => s.packWord (a 0 + 4 * i))
  | _ => (1, [])

/-- CMD_SEQ after one: 65,535 wraps to 1 (R706). -/
def nextCmdSeq (n : Nat) : Nat := if n ≥ 65535 then 1 else n + 1

/-- MAILBOX_COMPLETE: in one step the results, the code and the sequence; then CMD_DONE. -/
def execMailboxComplete (s : State) : Host.Outcome State Fault Refusal :=
  act s (
    if !s.sbOn || !s.sb.busy then s
    else
      let (code, words) := s.mailboxResult s.sb.cmd s.sb.cmdArgs
      let s := if s.sb.cmd = 5 && code = 0 then s.clearRecords none else s
      (s.updSb fun b => { b with
        busy := false, stale := false, resultCode := code, cmdSeq := nextCmdSeq b.cmdSeq,
        results := words ++ List.replicate (8 - words.length) 0 }).alert .cmdDone)

/-! ### Alerts (R713) -/

/-- ALERT_STATUS_CLEAR. -/
def execAlertStatusClear (value : BitVec 10) (s : State) : Host.Outcome State Fault Refusal :=
  act s (if s.sbOn then s.sbStatusWrite value else s)

/-- ALERT_ENABLE_WRITE. -/
def execAlertEnableWrite (value : BitVec 10) (s : State) : Host.Outcome State Fault Refusal :=
  act s (if s.sbOn then s.sbEnableWrite value else s)

/-- PEC_ERRORS_READ: the count, which the read clears (R14, R704). -/
def execPecErrorsRead (s : State) : Host.Outcome State Fault Refusal :=
  act s (if s.sbOn then (s.updSb fun b => { b with pecErrors := 0 }).emit (.sidebandReply (toLe 4 s.sb.pecErrors)) else s)

/-- ALERT_RESPONSE: the target answers the Alert Response Address with its own, and the alert is no longer pending. -/
def execAlertResponse (s : State) : Host.Outcome State Fault Refusal :=
  act s (if s.sbOn && !s.sb.i3c && s.sb.alert then (s.emit (.sidebandReply (toLe 1 (2 * s.sbAddress)))).endAlert else s)

/-- IBI_RETRY: the interrupt is acknowledged and the alert ends, or it was not and is raised again 1 ms later. -/
def execIbiRetry (acked : Bool) (s : State) : Host.Outcome State Fault Refusal :=
  act s (
    if !s.sbOn || !s.sb.i3c || !s.sb.ibiEnabled || !s.sb.alert then s
    else if acked then s.endAlert
    else if s.now < s.sb.ibiAt + 1000 then s
    else s.raiseIbi)

/-! ### The I3C common commands (R699, R700) -/

/-- The mode of the bus changes (R699, R714). -/
def State.sbMode (s : State) (i3c : Bool) (address : Nat) : State :=
  (s.updSb fun b => { b with i3c := i3c, dynAddr := address, ibiEnabled := b.ibiEnabled && i3c }).event Ev.sbMode 0 (b2n i3c) address
    s.sbAddress

/-- A controller assigns a dynamic address: a target in SMBus mode enters I3C mode. -/
def State.sbAssign (s : State) (address : Nat) : State := if s.sbOn && !s.sb.i3c then s.sbMode true (address % 128) else s

/-- ENTDAA. -/
def execEntdaa (dynamicAddr : Nat) (s : State) : Host.Outcome State Fault Refusal := act s (s.sbAssign dynamicAddr)

/-- SETDASA, which names the static address. -/
def execSetdasa (dynamicAddr : Nat) (s : State) : Host.Outcome State Fault Refusal := act s (s.sbAssign dynamicAddr)

/-- RSTDAA: back to SMBus mode. -/
def execRstdaa (s : State) : Host.Outcome State Fault Refusal := act s (if s.sbOn && s.sb.i3c then s.sbMode false 0 else s)

/-- ENEC enables in-band interrupts; a pending alert raises one. -/
def execEnec (s : State) : Host.Outcome State Fault Refusal :=
  act s (if s.sbOn && s.sb.i3c && !s.sb.ibiEnabled then (s.updSb fun b => { b with ibiEnabled := true }).raiseIbi else s)

/-- DISEC disables them. -/
def execDisec (s : State) : Host.Outcome State Fault Refusal :=
  act s (if s.sbOn && s.sb.i3c then s.updSb fun b => { b with ibiEnabled := false } else s)

/-- The target answers a common command in I3C mode. -/
def State.sbAnswer (s : State) (data : List Byte) : State := if s.sbOn && s.sb.i3c then s.emit (.sidebandReply data) else s

/-- n bytes of an I3C characteristic that no rule gives, by the command's code. -/
def openBytes (code n : Nat) : List Byte := toLe n ((Config.openValue 0x13C code).toNat % 2 ^ (8 * n))

/-- GETPID: 48 bits, highest byte first: the manufacturer's identifier and a type bit, which no rule gives, part identifier 0x6440,
and identity bits [11:0] below four bits no rule gives. -/
def execGetpid (s : State) : Host.Outcome State Fault Refusal :=
  act s (s.sbAnswer ((openBytes 0x8D 2).reverse ++ (toLe 2 0x6440).reverse
    ++ (toLe 2 ((Config.openValue 0x13C 0x18D).toNat % 16 * 4096 + field Config.identity.toNat 0 12)).reverse))

/-- GETBCR: one byte that no rule gives. -/
def execGetbcr (s : State) : Host.Outcome State Fault Refusal := act s (s.sbAnswer (openBytes 0x8E 1))

/-- GETDCR: one byte that no rule gives. -/
def execGetdcr (s : State) : Host.Outcome State Fault Refusal := act s (s.sbAnswer (openBytes 0x8F 1))

/-- GETSTATUS: two bytes that no rule gives, which may differ from one instant to another. -/
def execGetstatus (s : State) : Host.Outcome State Fault Refusal := act s (s.sbAnswer (openBytes (0x90 + 256 * s.now) 2))

/-- GETMWL: two bytes that no rule gives. -/
def execGetmwl (s : State) : Host.Outcome State Fault Refusal := act s (s.sbAnswer (openBytes 0x8B 2))

/-- GETMRL: the 64 bytes that a private read returns at most, highest byte first (R702). -/
def execGetmrl (s : State) : Host.Outcome State Fault Refusal := act s (s.sbAnswer (toLe 2 64).reverse)

end Sys2Proof.Machine
end

