-- ==== Sys2Proof/Machine/Dispatch.lean ====
section
/-! DEFINITION. One arm for each command. -/

namespace Sys2Proof.Machine

open Sys2Proof

/-- The effect of a command on everything but the queue. -/
def exec (i : Instr) (s : State) : Host.Outcome State Fault Refusal :=
  match i with
  | .read acc => Sys2Proof.Machine.execRead acc s
  | .write acc => Sys2Proof.Machine.execWrite acc s
  | .flush acc => Sys2Proof.Machine.execFlush acc s
  | .writeZeroes acc => Sys2Proof.Machine.execWriteZeroes acc s
  | .deallocate acc => Sys2Proof.Machine.execDeallocate acc s
  | .verify acc => Sys2Proof.Machine.execVerify acc s
  | .identifyModule acc => Sys2Proof.Machine.execIdentifyModule acc s
  | .identifyVolumes acc => Sys2Proof.Machine.execIdentifyVolumes acc s
  | .identifyTemplate acc => Sys2Proof.Machine.execIdentifyTemplate acc s
  | .ringCreateSubmission acc => Sys2Proof.Machine.execRingCreateSubmission acc s
  | .ringCreateCompletion acc => Sys2Proof.Machine.execRingCreateCompletion acc s
  | .getLog acc => Sys2Proof.Machine.execGetLog acc s
  | .getFeature acc => Sys2Proof.Machine.execGetFeature acc s
  | .setFeatureAckMode acc => Sys2Proof.Machine.execSetFeatureAckMode acc s
  | .setFeatureAgeLimit acc => Sys2Proof.Machine.execSetFeatureAgeLimit acc s
  | .setFeatureLossAck acc => Sys2Proof.Machine.execSetFeatureLossAck acc s
  | .setFeatureDirtyLimit acc => Sys2Proof.Machine.execSetFeatureDirtyLimit acc s
  | .setFeatureHedge acc => Sys2Proof.Machine.execSetFeatureHedge acc s
  | .setFeatureHardTimeout acc => Sys2Proof.Machine.execSetFeatureHardTimeout acc s
  | .setFeatureMediaThreshold acc => Sys2Proof.Machine.execSetFeatureMediaThreshold acc s
  | .setFeatureScrubPeriod acc => Sys2Proof.Machine.execSetFeatureScrubPeriod acc s
  | .setFeaturePatrolPeriod acc => Sys2Proof.Machine.execSetFeaturePatrolPeriod acc s
  | .setFeatureRefreshThreshold acc => Sys2Proof.Machine.execSetFeatureRefreshThreshold acc s
  | .setFeatureTagBudget acc => Sys2Proof.Machine.execSetFeatureTagBudget acc s
  | .setFeatureClassWeights acc => Sys2Proof.Machine.execSetFeatureClassWeights acc s
  | .setFeatureMaxClass acc => Sys2Proof.Machine.execSetFeatureMaxClass acc s
  | .setFeatureRateLimit acc => Sys2Proof.Machine.execSetFeatureRateLimit acc s
  | .setFeatureStallTimeout acc => Sys2Proof.Machine.execSetFeatureStallTimeout acc s
  | .setFeatureExportWait acc => Sys2Proof.Machine.execSetFeatureExportWait acc s
  | .setFeatureTimeBase acc => Sys2Proof.Machine.execSetFeatureTimeBase acc s
  | .abort acc => Sys2Proof.Machine.execAbort acc s
  | .templateDefine acc => Sys2Proof.Machine.execTemplateDefine acc s
  | .templateDelete acc => Sys2Proof.Machine.execTemplateDelete acc s
  | .poolCreate acc => Sys2Proof.Machine.execPoolCreate acc s
  | .poolDelete acc => Sys2Proof.Machine.execPoolDelete acc s
  | .poolExpand acc => Sys2Proof.Machine.execPoolExpand acc s
  | .poolExpandSpare acc => Sys2Proof.Machine.execPoolExpandSpare acc s
  | .volumeCreateArray acc => Sys2Proof.Machine.execVolumeCreateArray acc s
  | .volumeCreateVault acc => Sys2Proof.Machine.execVolumeCreateVault acc s
  | .volumeDelete acc => Sys2Proof.Machine.execVolumeDelete acc s
  | .volumeAttach acc => Sys2Proof.Machine.execVolumeAttach acc s
  | .volumeDetach acc => Sys2Proof.Machine.execVolumeDetach acc s
  | .memberFail acc => Sys2Proof.Machine.execMemberFail acc s
  | .memberReplaceCopyback acc => Sys2Proof.Machine.execMemberReplaceCopyback acc s
  | .memberReplaceJoin acc => Sys2Proof.Machine.execMemberReplaceJoin acc s
  | .rebuildPause acc => Sys2Proof.Machine.execRebuildPause acc s
  | .rebuildResume acc => Sys2Proof.Machine.execRebuildResume acc s
  | .rebuildPromote acc => Sys2Proof.Machine.execRebuildPromote acc s
  | .rebuildRetry acc => Sys2Proof.Machine.execRebuildRetry acc s
  | .consistencyCheck acc => Sys2Proof.Machine.execConsistencyCheck acc s
  | .deviceStop acc => Sys2Proof.Machine.execDeviceStop acc s
  | .deviceStart acc => Sys2Proof.Machine.execDeviceStart acc s
  | .configStageGovernor acc => Sys2Proof.Machine.execConfigStageGovernor acc s
  | .configStagePack acc => Sys2Proof.Machine.execConfigStagePack acc s
  | .configDiscard acc => Sys2Proof.Machine.execConfigDiscard acc s
  | .selfTestShort acc => Sys2Proof.Machine.execSelfTestShort acc s
  | .selfTestExtended acc => Sys2Proof.Machine.execSelfTestExtended acc s
  | .selfTestAbort acc => Sys2Proof.Machine.execSelfTestAbort acc s
  | .selfTestComplete failed => Sys2Proof.Machine.execSelfTestComplete failed s
  | .fwStage acc => Sys2Proof.Machine.execFwStage acc s
  | .fwActivate acc => Sys2Proof.Machine.execFwActivate acc s
  | .eventRead acc => Sys2Proof.Machine.execEventRead acc s
  | .eventClear acc => Sys2Proof.Machine.execEventClear acc s
  | .histogramRead acc => Sys2Proof.Machine.execHistogramRead acc s
  | .packReplaced acc => Sys2Proof.Machine.execPackReplaced acc s
  | .packLearn acc => Sys2Proof.Machine.execPackLearn acc s
  | .packLearnAbort acc => Sys2Proof.Machine.execPackLearnAbort acc s
  | .shipModeArm acc => Sys2Proof.Machine.execShipModeArm acc s
  | .shipModeCancel acc => Sys2Proof.Machine.execShipModeCancel acc s
  | .arrayImport acc => Sys2Proof.Machine.execArrayImport acc s
  | .pairBind acc => Sys2Proof.Machine.execPairBind acc s
  | .pairUnbind acc => Sys2Proof.Machine.execPairUnbind acc s
  | .pairDiscardDump acc => Sys2Proof.Machine.execPairDiscardDump acc s
  | .slotPowerOn acc => Sys2Proof.Machine.execSlotPowerOn acc s
  | .slotPowerOff acc => Sys2Proof.Machine.execSlotPowerOff acc s
  | .slotLocateOn acc => Sys2Proof.Machine.execSlotLocateOn acc s
  | .slotLocateOff acc => Sys2Proof.Machine.execSlotLocateOff acc s
  | .slotAutomaticPower acc => Sys2Proof.Machine.execSlotAutomaticPower acc s
  | .slotButtonPolicy acc => Sys2Proof.Machine.execSlotButtonPolicy acc s
  | .clockSet acc => Sys2Proof.Machine.execClockSet acc s
  | .sqTail fn ring value => Sys2Proof.Machine.execSqTail fn ring value s
  | .cqHead fn ring value => Sys2Proof.Machine.execCqHead fn ring value s
  | .shadowPoll fn ring => Sys2Proof.Machine.execShadowPoll fn ring s
  | .adminEn fn => Sys2Proof.Machine.execAdminEn fn s
  | .causeWrite fn value => Sys2Proof.Machine.execCauseWrite fn value s
  | .causeMaskWrite fn value => Sys2Proof.Machine.execCauseMaskWrite fn value s
  | .intEnWrite fn value => Sys2Proof.Machine.execIntEnWrite fn value s
  | .force fn value => Sys2Proof.Machine.execForce fn value s
  | .suppressedTotalRead fn => Sys2Proof.Machine.execSuppressedTotalRead fn s
  | .overrunsRead fn => Sys2Proof.Machine.execOverrunsRead fn s
  | .msixEntryWrite fn vector dword value => Sys2Proof.Machine.execMsixEntryWrite fn vector dword value s
  | .registerWrite target => Sys2Proof.Machine.execRegisterWrite target s
  | .ringGrant => Sys2Proof.Machine.execRingGrant s
  | .hostCompletion ep tag cpl => Sys2Proof.Machine.execHostCompletion ep tag cpl s
  | .completionTimeout ep tag => Sys2Proof.Machine.execCompletionTimeout ep tag s
  | .tagHoldExpiry ep tag => Sys2Proof.Machine.execTagHoldExpiry ep tag s
  | .coalescingTime fn ring => Sys2Proof.Machine.execCoalescingTime fn ring s
  | .cqStall fn ring => Sys2Proof.Machine.execCqStall fn ring s
  | .stashPoolEmpty => Sys2Proof.Machine.execStashPoolEmpty s
  | .ltrIdle ep => Sys2Proof.Machine.execLtrIdle ep s
  | .hostLinkUp ep speed width flit => Sys2Proof.Machine.execHostLinkUp ep speed width flit s
  | .hostLinkDown ep => Sys2Proof.Machine.execHostLinkDown ep s
  | .hotReset ep => Sys2Proof.Machine.execHotReset ep s
  | .flr fn => Sys2Proof.Machine.execFlr fn s
  | .vfEnableCleared ep => Sys2Proof.Machine.execVfEnableCleared ep s
  | .busMasterEnableCleared fn => Sys2Proof.Machine.execBusMasterEnableCleared fn s
  | .busMasterEnableSet fn => Sys2Proof.Machine.execBusMasterEnableSet fn s
  | .d3hotEntry fn => Sys2Proof.Machine.execD3hotEntry fn s
  | .d0Return fn => Sys2Proof.Machine.execD0Return fn s
  | .perstNAssert => Sys2Proof.Machine.execPerstNAssert s
  | .perstNDeassert hostBif pairSide => Sys2Proof.Machine.execPerstNDeassert hostBif pairSide s
  | .gatherFramesAvailable => Sys2Proof.Machine.execGatherFramesAvailable s
  | .writeCommit acc => Sys2Proof.Machine.execWriteCommit acc s
  | .readLookup acc => Sys2Proof.Machine.execReadLookup acc s
  | .stripeInterlockGrant region stripe => Sys2Proof.Machine.execStripeInterlockGrant region stripe s
  | .destageStart => Sys2Proof.Machine.execDestageStart s
  | .destageAgeLimit region stripe => Sys2Proof.Machine.execDestageAgeLimit region stripe s
  | .destageEntryFreed => Sys2Proof.Machine.execDestageEntryFreed s
  | .stagingRunFreed => Sys2Proof.Machine.execStagingRunFreed s
  | .commitStall => Sys2Proof.Machine.execCommitStall s
  | .reclaimSweep => Sys2Proof.Machine.execReclaimSweep s
  | .lrRecompute => Sys2Proof.Machine.execLrRecompute s
  | .permissionReturnFull => Sys2Proof.Machine.execPermissionReturnFull s
  | .retireFlush => Sys2Proof.Machine.execRetireFlush s
  | .journalSpaceFreed => Sys2Proof.Machine.execJournalSpaceFreed s
  | .journalFull => Sys2Proof.Machine.execJournalFull s
  | .tileJobComplete tile outcome => Sys2Proof.Machine.execTileJobComplete tile outcome s
  | .tileQueuePlaceFreed => Sys2Proof.Machine.execTileQueuePlaceFreed s
  | .driveCompletion port reply => Sys2Proof.Machine.execDriveCompletion port reply s
  | .hedgeDelay port req => Sys2Proof.Machine.execHedgeDelay port req s
  | .hedgeHoldTimeout task => Sys2Proof.Machine.execHedgeHoldTimeout task s
  | .hedgeIntervalEnd => Sys2Proof.Machine.execHedgeIntervalEnd s
  | .hedgeThresholdUpdate => Sys2Proof.Machine.execHedgeThresholdUpdate s
  | .streamIdle stream => Sys2Proof.Machine.execStreamIdle stream s
  | .runaheadFramesAvailable => Sys2Proof.Machine.execRunaheadFramesAvailable s
  | .driveLinkUp port speeds widths far => Sys2Proof.Machine.execDriveLinkUp port speeds widths far s
  | .driveLinkDown port => Sys2Proof.Machine.execDriveLinkDown port s
  | .linkDownHoldExpiry port => Sys2Proof.Machine.execLinkDownHoldExpiry port s
  | .portNoLink port => Sys2Proof.Machine.execPortNoLink port s
  | .drivePerstDeassert port => Sys2Proof.Machine.execDrivePerstDeassert port s
  | .smartPoll port critical => Sys2Proof.Machine.execSmartPoll port critical s
  | .asynchronousEvent port critical => Sys2Proof.Machine.execAsynchronousEvent port critical s
  | .softTimeout port req => Sys2Proof.Machine.execSoftTimeout port req s
  | .hardTimeout port req => Sys2Proof.Machine.execHardTimeout port req s
  | .quarantineTimeout port req => Sys2Proof.Machine.execQuarantineTimeout port req s
  | .adminCommandTimeout port => Sys2Proof.Machine.execAdminCommandTimeout port s
  | .controllerDisabled port => Sys2Proof.Machine.execControllerDisabled port s
  | .controllerResetTimeout port => Sys2Proof.Machine.execControllerResetTimeout port s
  | .controllerFatalStatus port => Sys2Proof.Machine.execControllerFatalStatus port s
  | .slotScan inbound => Sys2Proof.Machine.execSlotScan inbound s
  | .slotPresenceChange slot present => Sys2Proof.Machine.execSlotPresenceChange slot present s
  | .slotButtonPress slot => Sys2Proof.Machine.execSlotButtonPress slot s
  | .buttonWindowEnd slot => Sys2Proof.Machine.execButtonWindowEnd slot s
  | .slotPowerFault slot => Sys2Proof.Machine.execSlotPowerFault slot s
  | .slotPowerGood slot => Sys2Proof.Machine.execSlotPowerGood slot s
  | .slotPowerOffDelay slot => Sys2Proof.Machine.execSlotPowerOffDelay slot s
  | .rebuildRegionStart => Sys2Proof.Machine.execRebuildRegionStart s
  | .rebuildStripeStart region => Sys2Proof.Machine.execRebuildStripeStart region s
  | .rebuildRetryTimer region => Sys2Proof.Machine.execRebuildRetryTimer region s
  | .rebuildStarved pool => Sys2Proof.Machine.execRebuildStarved pool s
  | .moveStart => Sys2Proof.Machine.execMoveStart s
  | .scrubPassStart pool => Sys2Proof.Machine.execScrubPassStart pool s
  | .scrubPeriodEnd pool => Sys2Proof.Machine.execScrubPeriodEnd pool s
  | .scrubStripe pool => Sys2Proof.Machine.execScrubStripe pool s
  | .govSampleInstant inputs => Sys2Proof.Machine.execGovSampleInstant inputs s
  | .govComputationDone => Sys2Proof.Machine.execGovComputationDone s
  | .pwmInputLost => Sys2Proof.Machine.execPwmInputLost s
  | .pwmSteadyHigh => Sys2Proof.Machine.execPwmSteadyHigh s
  | .pwmInputRestored high period => Sys2Proof.Machine.execPwmInputRestored high period s
  | .vaultProgramComplete op back => Sys2Proof.Machine.execVaultProgramComplete op back s
  | .vaultReadComplete op reads => Sys2Proof.Machine.execVaultReadComplete op reads s
  | .vaultEraseComplete op ok => Sys2Proof.Machine.execVaultEraseComplete op ok s
  | .vaultCheckpoint => Sys2Proof.Machine.execVaultCheckpoint s
  | .wearMoveCheck => Sys2Proof.Machine.execWearMoveCheck s
  | .garbageCollectionStart => Sys2Proof.Machine.execGarbageCollectionStart s
  | .vaultBlockOpenable => Sys2Proof.Machine.execVaultBlockOpenable s
  | .patrolPassStart => Sys2Proof.Machine.execPatrolPassStart s
  | .patrolPeriodEnd => Sys2Proof.Machine.execPatrolPeriodEnd s
  | .vaultRequestTimeout acc => Sys2Proof.Machine.execVaultRequestTimeout acc s
  | .percentUsedRecompute => Sys2Proof.Machine.execPercentUsedRecompute s
  | .vaultOperationTimeout channel => Sys2Proof.Machine.execVaultOperationTimeout channel s
  | .statusFrame frame => Sys2Proof.Machine.execStatusFrame frame s
  | .statusFrameTimeout => Sys2Proof.Machine.execStatusFrameTimeout s
  | .packEnergyAvailable => Sys2Proof.Machine.execPackEnergyAvailable s
  | .powerFailDetect vinMv => Sys2Proof.Machine.execPowerFailDetect vinMv s
  | .powerFailStrobe => Sys2Proof.Machine.execPowerFailStrobe s
  | .dumpCommandFrame => Sys2Proof.Machine.execDumpCommandFrame s
  | .lehrSealed failed unverified => Sys2Proof.Machine.execLehrSealed failed unverified s
  | .lehrTimeout => Sys2Proof.Machine.execLehrTimeout s
  | .puntyRelease => Sys2Proof.Machine.execPuntyRelease s
  | .vinOvervoltage vinMv => Sys2Proof.Machine.execVinOvervoltage vinMv s
  | .vinReturnInRange => Sys2Proof.Machine.execVinReturnInRange s
  | .vinBelowHoldup vinMv => Sys2Proof.Machine.execVinBelowHoldup vinMv s
  | .vinAboveHoldup => Sys2Proof.Machine.execVinAboveHoldup s
  | .holdupUvlo => Sys2Proof.Machine.execHoldupUvlo s
  | .holdupUvloRecover => Sys2Proof.Machine.execHoldupUvloRecover s
  | .packPresenceChange present => Sys2Proof.Machine.execPackPresenceChange present s
  | .identifyComplete reading => Sys2Proof.Machine.execIdentifyComplete reading s
  | .chargePhaseChange reading => Sys2Proof.Machine.execChargePhaseChange reading s
  | .chargeTermination => Sys2Proof.Machine.execChargeTermination s
  | .rechargeNeeded reading => Sys2Proof.Machine.execRechargeNeeded reading s
  | .chargeEnd cause => Sys2Proof.Machine.execChargeEnd cause s
  | .chargeHoldRelease => Sys2Proof.Machine.execChargeHoldRelease s
  | .learnDischargeDone => Sys2Proof.Machine.execLearnDischargeDone s
  | .learnRestTimeout => Sys2Proof.Machine.execLearnRestTimeout s
  | .eavailCompute reading => Sys2Proof.Machine.execEavailCompute reading s
  | .restPoint reading => Sys2Proof.Machine.execRestPoint reading s
  | .learnOverdue => Sys2Proof.Machine.execLearnOverdue s
  | .gaugeStorePeriodic => Sys2Proof.Machine.execGaugeStorePeriodic s
  | .shipCleanReport => Sys2Proof.Machine.execShipCleanReport s
  | .shipReconnect => Sys2Proof.Machine.execShipReconnect s
  | .powerDieStart => Sys2Proof.Machine.execPowerDieStart s
  | .packSample reading => Sys2Proof.Machine.execPackSample reading s
  | .logicDieResetExit found => Sys2Proof.Machine.execLogicDieResetExit found s
  | .startupReady => Sys2Proof.Machine.execStartupReady s
  | .pairHeartbeat partner => Sys2Proof.Machine.execPairHeartbeat partner s
  | .partnerLost => Sys2Proof.Machine.execPartnerLost s
  | .arbHbToggle => Sys2Proof.Machine.execArbHbToggle s
  | .fatalCondition cause island => Sys2Proof.Machine.execFatalCondition cause island s
  | .watchdogExpiry => Sys2Proof.Machine.execWatchdogExpiry s
  | .arbFenceAssert => Sys2Proof.Machine.execArbFenceAssert s
  | .arbFenceRelease => Sys2Proof.Machine.execArbFenceRelease s
  | .arbTakeAssert array => Sys2Proof.Machine.execArbTakeAssert array s
  | .fenceDrainTimeout => Sys2Proof.Machine.execFenceDrainTimeout s
  | .exportRequest => Sys2Proof.Machine.execExportRequest s
  | .release => Sys2Proof.Machine.execRelease s
  | .exportWait => Sys2Proof.Machine.execExportWait s
  | .driveSettle port => Sys2Proof.Machine.execDriveSettle port s
  | .changeLogFlush => Sys2Proof.Machine.execChangeLogFlush s
  | .metadataCheckpoint => Sys2Proof.Machine.execMetadataCheckpoint s
  | .bitmapRewrite => Sys2Proof.Machine.execBitmapRewrite s
  | .unitDown island why => Sys2Proof.Machine.execUnitDown island why s
  | .unitUp island => Sys2Proof.Machine.execUnitUp island s
  | .routerTimeout island => Sys2Proof.Machine.execRouterTimeout island s
  | .droopStretch50 island => Sys2Proof.Machine.execDroopStretch50 island s
  | .droopStretch25 island => Sys2Proof.Machine.execDroopStretch25 island s
  | .droopRecover island => Sys2Proof.Machine.execDroopRecover island s
  | .supplyFault rail high => Sys2Proof.Machine.execSupplyFault rail high s
  | .refclkLost => Sys2Proof.Machine.execRefclkLost s
  | .thermalWarn island temp => Sys2Proof.Machine.execThermalWarn island temp s
  | .thermalTrip island temp => Sys2Proof.Machine.execThermalTrip island temp s
  | .recordAccept code src p1 p2 p3 => Sys2Proof.Machine.execRecordAccept code src p1 p2 p3 s
  | .recorderCommit => Sys2Proof.Machine.execRecorderCommit s
  | .operatingSecondsSave => Sys2Proof.Machine.execOperatingSecondsSave s
  | .histogramIntervalEnd => Sys2Proof.Machine.execHistogramIntervalEnd s
  | .getIdentity => Sys2Proof.Machine.execGetIdentity s
  | .getHealth => Sys2Proof.Machine.execGetHealth s
  | .readLog => Sys2Proof.Machine.execReadLog s
  | .readEvent => Sys2Proof.Machine.execReadEvent s
  | .clearEvents => Sys2Proof.Machine.execClearEvents s
  | .readHistogram => Sys2Proof.Machine.execReadHistogram s
  | .readPack => Sys2Proof.Machine.execReadPack s
  | .mailboxComplete => Sys2Proof.Machine.execMailboxComplete s
  | .alertStatusClear value => Sys2Proof.Machine.execAlertStatusClear value s
  | .alertEnableWrite value => Sys2Proof.Machine.execAlertEnableWrite value s
  | .pecErrorsRead => Sys2Proof.Machine.execPecErrorsRead s
  | .alertResponse => Sys2Proof.Machine.execAlertResponse s
  | .ibiRetry acked => Sys2Proof.Machine.execIbiRetry acked s
  | .entdaa dynamicAddr => Sys2Proof.Machine.execEntdaa dynamicAddr s
  | .setdasa dynamicAddr => Sys2Proof.Machine.execSetdasa dynamicAddr s
  | .rstdaa => Sys2Proof.Machine.execRstdaa s
  | .enec => Sys2Proof.Machine.execEnec s
  | .disec => Sys2Proof.Machine.execDisec s
  | .getpid => Sys2Proof.Machine.execGetpid s
  | .getbcr => Sys2Proof.Machine.execGetbcr s
  | .getdcr => Sys2Proof.Machine.execGetdcr s
  | .getstatus => Sys2Proof.Machine.execGetstatus s
  | .getmwl => Sys2Proof.Machine.execGetmwl s
  | .getmrl => Sys2Proof.Machine.execGetmrl s
  | .pairHeartbeatSend => Sys2Proof.Machine.execPairHeartbeatSend s
  | .dumpImport theSeal content => Sys2Proof.Machine.execDumpImport theSeal content s
  | .pairingLinkFailure => Sys2Proof.Machine.execPairingLinkFailure s
  | .hbmParityError channel => Sys2Proof.Machine.execHbmParityError channel s
  | .hostLinkError ep err => Sys2Proof.Machine.execHostLinkError ep err s
  | .badRegisterRead fn bar offset len => Sys2Proof.Machine.execBadRegisterRead fn bar offset len s
  | .buttonRefusalEnd slot => Sys2Proof.Machine.execButtonRefusalEnd slot s
  | .vinMainPowerUp vinMv => Sys2Proof.Machine.execVinMainPowerUp vinMv s
  | .chargeCountSample currentMa => Sys2Proof.Machine.execChargeCountSample currentMa s
  | .histogramSample sample => Sys2Proof.Machine.execHistogramSample sample s
  | .thermalWarnEnd => Sys2Proof.Machine.execThermalWarnEnd s

end Sys2Proof.Machine
end

