-- ==== Sys2Proof/Safety.lean ====
section
/-! DEFINITION. What counts as a safe state of the block, in the terms the statements use: the device settings in their ranges, the
pointers of the rings below their depths, the tables in their canonical form, and converter and charger as the power die drives them. -/

namespace Sys2Proof.Machine

open Sys2Proof

/-- The device-scope features lie in the ranges of R618 (and R601, R518, R679). -/
def Settings.ok (x : Settings) : Bool :=
  4096 ≤ x.lCfg && x.lCfg ≤ 32768 && x.lCfg % 256 = 0
    && 24 ≤ x.patrolHours && x.patrolHours ≤ 336
    && 8 ≤ x.refreshBits && x.refreshBits ≤ 64
    && x.high ≤ 255 && x.medium ≤ 255 && x.low ≤ 255
    && 10 ≤ x.stallTimeout && x.stallTimeout ≤ 60000
    && 1 ≤ x.exportWait && x.exportWait ≤ 60

/-- A submission ring's fetch pointer and live tail values are indices of the ring (R567, R584, R589); a ring of depth 0, which no rule lets
be created, has none. -/
def Sq.pointersOk (q : Sq) : Bool :=
  q.depth = 0 || (q.fetch < q.depth && q.tailMmio.all (· < q.depth) && q.tailShadow.all (· < q.depth))

/-- A completion ring's head and tail are indices of the ring (R578, R581, R585). -/
def Cq.pointersOk (c : Cq) : Bool := c.depth = 0 || (c.head < c.depth && c.tail < c.depth)

/-- Every ring's pointers are indices of the ring. -/
def State.ringsOk (s : State) : Bool := s.sqs.vals.all Sq.pointersOk && s.cqs.vals.all Cq.pointersOk

/-- Every table of the state lists its keys rising, so that a record is listed once (the form is the model's, log entry 40), as
does the region table that a held dump brings back; and every frame listed is one of the cache's (R138). -/
def State.tablesOk (s : State) : Bool :=
  s.eps.wf && s.fns.wf && s.sqs.wf && s.cqs.wf && s.cmds.wf && s.templates.wf && s.pools.wf && s.members.wf && s.volumes.wf
    && s.regions.wf && s.work.wf && s.frames.wf && s.heads.wf && s.locks.wf && s.tasks.wf && s.table.wf && s.staging.wf
    && s.parisons.wf && s.streams.wf && s.tiles.wf && s.ports.wf && s.islands.wf && s.suspects.wf && s.learned.wf
    && (match s.life.dump with | some d => d.regions.wf | none => true)
    && s.frames.keys.all (· < frameTotal)

/-- The converter is off or at one of its set-points, and a power die that does not run drives neither converter nor charger (R431, R432,
R436). -/
def Pack.drivesOk (p : Pack) : Bool :=
  (p.converter = 0 || p.converter = 10700 || p.converter = 13500)
    && (p.running || (p.converter = 0 && p.charger = (0, 0)))

/-- Byte b of check row j over the bytes at offset b of the data positions of a Reed–Solomon line (R110). -/
def checkByte (j : Nat) (data : List Byte) : Byte :=
  (data.zipIdx.map fun e => gfMul (coefficient j e.2) e.1).foldl (· ^^^ ·) 0

/-- The rows that own a device setting (R618). -/
def setsSettings : Instr → Bool
  | .setFeatureDirtyLimit _ | .setFeaturePatrolPeriod _ | .setFeatureRefreshThreshold _ | .setFeatureClassWeights _
  | .setFeatureStallTimeout _ | .setFeatureExportWait _ | .setFeatureTimeBase _ => true
  | _ => false

end Sys2Proof.Machine
end

