-- ==== Sys2Proof/Certificates/Slice0/Obligations.lean ====
section
/-! DEFINITION. The statements of this slice, for the provers. A completion statement says of each row which next state its own
effect gives, under premises on the state and the operands alone; `keepOwned` says that the queue, the time and the settings of
SET_FEATURE stay, and `run` is the follow-up work that the row sets free within the step. -/

open Sys2Proof Sys2Proof.Machine

/-- One step with a command at the front of the queue is that command on the state with the queue's rest: the queue, first in first out, is
the model's choice (log entry 1), where R188 leaves the order of events to what causes them. -/
def Obligations.StepRunsFrontCommand : Prop :=
  ∀ (c : Instr) (rest : List Instr) (s : State), step { s with pending := c :: rest } = exec c { s with pending := rest }

/-- With an empty queue the block idles: 1 µs passes, the commands outstanding on members add up for the mean queue depth (R364), and
nothing else changes (the model's choice, log entry 2). -/
def Obligations.IdleStep : Prop :=
  ∀ s : State, s.pending = [] →
    step s = .next { s with now := s.now + 1, gov := { s.gov with depth := (s.gov.depth.1 + s.queued, s.gov.depth.2 + 1) } }

/-- Every command answers a next state, whatever the state and the operands, and changes neither the queue nor the time: no row faults
and none is refused (00_scope; a trigger that a table does not list has no action, which is read for every row: log entry 9). The queue so
drains one command a step: after as many steps as commands wait, it is empty and the time has not moved (the queue and the clock are the
model's choice, log entries 1 and 2; R188 leaves the order of rows to their triggers). -/
def Obligations.EveryCommandAnswers : Prop :=
  (∀ (c : Instr) (s : State), ∃ t, exec c s = .next t ∧ t.pending = s.pending ∧ t.now = s.now)
  ∧ (∀ s : State, ∃ t, Sys2Proof.core.run s.pending.length s = .next t ∧ t.pending = [] ∧ t.now = s.now)

/-- The device-scope settings stay in the ranges of R618 at every step from every state in which they are, whatever SET_FEATURE
carries and however far the vault's reserve caps the dirty limit (R401). -/
def Obligations.SettingsStayInRange : Prop :=
  ∀ s t : State, s.settings.ok = true → step s = .next t → t.settings.ok = true

/-- The state after reset has the device settings in their ranges and meets the invariants of rings, tables and power die. -/
def Obligations.ResetMeetsInvariants : Prop :=
  State.reset.settings.ok = true ∧ State.reset.ringsOk = true ∧ State.reset.tablesOk = true ∧ State.reset.pack.drivesOk = true

/-- The pointers of every ring stay indices of the ring at every step from every state in which they are: the fetch pointer and the live
tail values of a submission ring (R567, R584, R588, R589), head and tail of a completion ring (R578, R581, R585). -/
def Obligations.RingPointersStayInRange : Prop :=
  ∀ s t : State, s.ringsOk = true → step s = .next t → t.ringsOk = true

/-- Every table of the state keeps its canonical form at every step, so that no record is listed twice, and every listed frame stays one of
the 11,796,480 of the cache (R138; the form of the tables is the model's choice, log entry 40). -/
def Obligations.TablesStayCanonical : Prop :=
  ∀ s t : State, s.tablesOk = true → step s = .next t → t.tablesOk = true

/-- At every step the converter stays off or at one of its set-points of 10.7 V and 13.5 V (R431, R432), and a power die that does not run
drives neither converter nor charger. -/
def Obligations.PowerDieDrivesItsOutputs : Prop :=
  ∀ s t : State, s.pack.drivesOk = true → step s = .next t → t.pack.drivesOk = true

/-- A commit supersedes the block's visible frame (R142, R145): the gathered frame becomes DIRTY with the commit's generation and its own
content, and the frame that was visible before is listed no longer or not visible. A fill that completes while a frame of its block is
visible is dropped (R145). -/
def Obligations.CommitSupersedesVisibleFrame : Prop :=
  (∀ (s : State) (vol f : Nat) (v : Volume) (gen : BitVec 32) (x : Frame), s.frames.look f = some x →
      (∀ o y, s.visible vol x.lba = some (o, y) → o ≠ f) →
      (∃ y, (s.installFrame vol v gen f).frames.look f = some y ∧ y.st = .dirty ∧ y.gen = gen ∧ y.vol = x.vol ∧ y.lba = x.lba
        ∧ y.data = x.data)
      ∧ (∀ o y z, s.visible vol x.lba = some (o, y) → (s.installFrame vol v gen f).frames.look o = some z → z.visible = false))
  ∧ (∀ (s : State) (f : Nat) (x : Frame) (b : Block), s.frames.look f = some x → x.st = .filling →
      (s.visible x.vol x.lba).isSome = true → (s.fillDone f (some b)).frames.look f = none)

/-- The I/O commands take effect as soon as the module may start them (`startable`): READ (R231) and VERIFY (R612) take their place in
the order of overlapping commands and look up; WRITE starts towards the commit of R151; WRITE_ZEROES and DEALLOCATE are one operation
(R610); a FLUSH of an array volume is at its commit and completes once what it covers is destaged (R160), one of a vault volume waits for
the earlier writes. -/
def Obligations.IoCommandsStart : Prop :=
  ∀ (s : State) (acc : Nat) (c : Cmd),
    (s.startable acc 1 anyForm = some c →
      exec (.read acc) s = .next (s.keepOwned (((s.updCmd c.acc fun x => { x with phase := .ordered }).lookup c.acc).run)))
    ∧ (s.startable acc 6 anyForm = some c →
      exec (.verify acc) s = .next (s.keepOwned (((s.updCmd c.acc fun x => { x with phase := .ordered }).lookup c.acc).run)))
    ∧ (s.startable acc 2 anyForm = some c → exec (.write acc) s = .next (s.keepOwned ((s.startWrite c).run)))
    ∧ (s.startable acc 4 anyForm = some c → exec (.writeZeroes acc) s = .next (s.keepOwned ((s.startZeroes c).run)))
    ∧ (s.startable acc 5 anyForm = some c → exec (.deallocate acc) s = .next (s.keepOwned ((s.startZeroes c).run)))
    ∧ (s.startable acc 3 anyForm = some c → s.isVault c.sqe.vol = false →
      exec (.flush acc) s
        = .next (s.keepOwned (((s.updCmd acc fun x => { x with phase := .committed }).writeCheck acc).run)))
    ∧ (s.startable acc 3 anyForm = some c → s.isVault c.sqe.vol = true →
      exec (.flush acc) s
        = .next (s.keepOwned (((s.updCmd acc fun x => { x with phase := .running }).settleWaits).run)))

/-- The first WRITE that waits for gather frames takes them once there is room (R149), a WRITE is tried for its commit, of an array or a
vault volume (R152), and a READ looks up (R231). ABORT (R617) answers with RESULT 1 where no command of the function carries the tag and 2
where the command can no longer be ended; else it frees the command's frames, ends it with ABORTED before its own completion, and answers
with RESULT 0. -/
def Obligations.CommitLookupAbort : Prop :=
  (∀ (s : State) (k : Nat) (c : Cmd) (l : Store Cmd),
      s.cmds.filter (fun (e : Nat × Cmd) => e.2.phase = Phase.gatherWait) = (k, c) :: l → s.gatherRoom c.sqe.nblocks = true →
      s.lehrOn = false →
      exec .gatherFramesAvailable s = .next (s.keepOwned ((s.gather c).run)))
  ∧ (∀ (s : State) (acc : Nat) (c : Cmd), s.cmds.look acc = some c → s.lehrOn = false →
      exec (.writeCommit acc) s
        = .next (s.keepOwned ((if s.isVault c.sqe.vol then s.vaultCommit c else s.tryCommit acc).run)))
  ∧ (∀ (s : State) (acc : Nat), exec (.readLookup acc) s = .next (s.keepOwned ((s.lookup acc).run)))
  ∧ (∀ (s : State) (acc : Nat) (c : Cmd), s.startable acc 0x85 anyForm = some c → s.abortTarget c = none →
      exec (.abort acc) s = .next (s.keepOwned ((s.finish acc St.success 1).run)))
  ∧ (∀ (s : State) (acc : Nat) (c t : Cmd), s.startable acc 0x85 anyForm = some c → s.abortTarget c = some t →
      t.abortable = false → exec (.abort acc) s = .next (s.keepOwned ((s.finish acc St.success 2).run)))
  ∧ (∀ (s : State) (acc : Nat) (c t : Cmd), s.startable acc 0x85 anyForm = some c → s.abortTarget c = some t →
      t.abortable = true →
      exec (.abort acc) s
        = .next (s.keepOwned ((((s.freeAll t.frames).finish t.acc St.aborted).finish acc St.success 0).run)))

/-- The destage path: a stripe's interlock is granted to its first waiters (R178), the next destage that may start is started (R182), a
stripe whose oldest dirty block is past its volume's age limit joins the aged ones once (R181), the destages that wait for a table entry
(R197) or a staging run (R199) are tried again, and a commit stall of 1 s is recorded once, with the dirty amount and the commands that wait
(R180). -/
def Obligations.DestageRows : Prop :=
  (∀ (s : State) (r k : Nat), s.live = true →
      exec (.stripeInterlockGrant r k) s = .next (s.keepOwned ((s.grantLock r k).run)))
  ∧ (∀ s : State, exec .destageStart s = .next (s.keepOwned s.destageNext.run))
  ∧ (∀ (s : State) (r k : Nat), s.live = true → s.wp.aged.contains (r, k) = false →
      (∃ d v, d ∈ s.dirtyStripes ∧ d.region = r ∧ d.stripe = k ∧ s.volumes.look d.vol = some v
        ∧ d.oldest + v.ageLimit * 1000 < s.now) →
      exec (.destageAgeLimit r k) s
        = .next (s.keepOwned (({ s with wp := { s.wp with aged := s.wp.aged ++ [(r, k)] } } : State).run)))
  ∧ (∀ (s : State) (e : Nat), s.live = true → freeEntry s.table (s.table.length + 1) 0 = some e →
      exec .destageEntryFreed s = .next (s.keepOwned ((s.over (s.waitingIn .entryWait) fun s t => s.tryRoom t).run)))
  ∧ (∀ s : State, s.live = true →
      exec .stagingRunFreed s = .next (s.keepOwned ((s.over (s.waitingIn .stagingWait) fun s t => s.tryRoom t).run)))
  ∧ (∀ (s : State) (t : Nat), s.live = true → s.wp.stallSince = some t → s.wp.stallRecorded = false → t + 1000000 ≤ s.now →
      exec .commitStall s
        = .next (s.keepOwned (({ s with wp := { s.wp with stallRecorded := true } } : State).event Ev.commitStall 0 s.dirtyMib
            s.stalledCmds.length 0)))

/-- Frames and energy: the reclaim sweep cancels waiting run-ahead units, passes over the list it is due and ends at 524,288 free frames
(R147); the limit L_R and the permission follow the energy anew each second (R166); a return to FULL is tried (R167); a stream without a
read for 1 s becomes inactive and its waiting units are cancelled (R268); run-ahead that waits for frames is fed (R264). The journal and the code
tiles: retired items are written once the first has waited 100 µs (R218), records held for room go on (R220), a wait of 1 s is recorded
once (R221); a tile takes its next job, the finished job's reply is handled (R127), and a reply whose source epoch is not the present one is dropped as
stale (R656); the jobs that waited for a place at a tile are sent again (R135).
A tile's next job is R136's. That the sweep passes once over the list that is due (log entry 15) and that an inactive stream keeps its table
entry (log entry 46) are the model's choices. -/
def Obligations.UpkeepRows : Prop :=
  ((∀ s : State, s.live = true → s.lehrOn = false → (s.wp.reclaim = true ∨ s.freeFrames < 262144) →
        exec .reclaimSweep s
          = .next (s.keepOwned
              (let t : State := ({ s with wp := { s.wp with reclaim := true } } : State).over (s.streams.map (·.1)) fun s i => s.cancelUnits i
               let u : State := t.sweepList t.sweepOrder
               (if 524288 ≤ u.freeFrames then { u with wp := { u.wp with reclaim := false } } else u : State).run)))
    ∧ (∀ s : State, s.live = true → s.lehrOn = false → s.wp.lrAt + 1000000 ≤ s.now →
        exec .lrRecompute s
          = .next (s.keepOwned ((({ s with wp := { s.wp with lrAt := s.now } } : State).energyNote.permissionCheck).run)))
    ∧ (∀ s : State, s.live = true → s.lehrOn = false → exec .permissionReturnFull s = .next (s.keepOwned s.permissionFull.run))
    ∧ (∀ (s : State) (i : Nat) (x : Stream), s.live = true → s.streams.look i = some x → x.at_ + 1000000 ≤ s.now →
        exec (.streamIdle i) s
          = .next (s.keepOwned (({ s.cancelUnits i with
              streams := (s.cancelUnits i).streams.upd i fun x => { x with active := false, waiting := [] } } : State).run)))
    ∧ (∀ s : State, s.live = true → s.lehrOn = false →
        exec .runaheadFramesAvailable s
          = .next (s.keepOwned ((s.over ((s.streams.filter fun e => e.2.waiting ≠ []).map (·.1)) fun s i => s.feedStream i).run))))
  ∧ ((∀ s : State, s.live = true → s.journal.retireQ.isEmpty = false → s.journal.retireAt + 100 ≤ s.now →
        exec .retireFlush s = .next (s.keepVault s.retireNow))
    ∧ (∀ s : State, s.live = true → s.lehrOn = false →
        exec .journalSpaceFreed s = .next (s.keepVault ((if s.retireWaits then s.retireNow else s).journalRetry)))
    ∧ (∀ s : State, s.live = true → s.journal.fullRecorded = false →
        (s.journal.waiting.any (fun w => s.now ≥ w.since + 1000000) = true
          ∨ (s.retireWaits = true ∧ s.journal.retireAt + 1000100 ≤ s.now)) →
        exec .journalFull s
          = .next (s.keepOwned (({ s with journal := { s.journal with fullRecorded := true } } : State).event Ev.journalFull 0
              (s.ringUsed * 4096 / 2 ^ 20) ((s.journal.waiting.map fun (w : JWait) => w.imgs.length).sum + b2n s.retireWaits)
              ((match s.journal.recs.find? fun r => !r.2.allRetired with | some r => r.1 | none => s.journal.nextSeq) % 2 ^ 32))))
    ∧ (∀ (s t : State) (tile : Nat) (j : Job) (words : List TileWord), s.live = true → s.lehrOn = false →
        (s.tile tile).running = some j → t = s.setTile tile { s.tile tile with running := none }.startNext →
        (j.src = (t.island firmwareIsland).epoch →
          exec (.tileJobComplete tile words) s = .next (s.keepVault (t.jobReply tile j words)))
        ∧ (j.src ≠ (t.island firmwareIsland).epoch →
          exec (.tileJobComplete tile words) s = .next (s.keepVault (t.dropStale firmwareIsland (114 + tile) 1))))
    ∧ (∀ s : State, s.live = true → s.lehrOn = false →
        exec .tileQueuePlaceFreed s
          = .next (s.keepOwned ((({ s with tileWait := [] } : State).over s.tileWait fun s j => s.resend j).run))))

/-- The Admin commands that read: IDENTIFY by its CNS (R616), GET_LOG (R620) and GET_FEATURE (R619) answer with their page, and
IDENTIFY of a template that is not defined fails. -/
def Obligations.IdentifyLogFeature : Prop :=
  ∀ (s : State) (acc : Nat) (c : Cmd),
    (s.startable acc 0x80 (fun e => e.pfield 0 0 8 = 0) = some c →
      exec (.identifyModule acc) s = .next (s.keepOwned (s.reply c s.modulePage)))
    ∧ (s.startable acc 0x80 (fun e => e.pfield 0 0 8 = 1) = some c →
      exec (.identifyVolumes acc) s = .next (s.keepOwned (s.reply c (s.volumeList c.fn (c.sqe.pfield 1 0 16)))))
    ∧ (∀ m, s.startable acc 0x80 (fun e => e.pfield 0 0 8 = 2) = some c → s.templates.look (c.sqe.pfield 1 0 8) = some m →
      exec (.identifyTemplate acc) s = .next (s.keepOwned (s.reply c (templateBytes (c.sqe.pfield 1 0 8) m))))
    ∧ (s.startable acc 0x80 (fun e => e.pfield 0 0 8 = 2) = some c → s.templates.look (c.sqe.pfield 1 0 8) = none →
      exec (.identifyTemplate acc) s = .next (s.keepOwned (s.finish acc St.templateUnknown)))
    ∧ (s.startable acc 0x82 anyForm = some c →
      exec (.getLog acc) s
        = .next (s.keepOwned (s.reply c (s.logBytes (c.sqe.pfield 0 0 8) (c.sqe.param 1) (c.sqe.param 2) c.total))))
    ∧ (s.startable acc 0x84 anyForm = some c →
      exec (.getFeature acc) s
        = .next (s.keepOwned
            ((s.reply c (bytesAt ((s.featureValues c.fn.ep c.sqe.feature (c.sqe.param 1)).flatMap (toLe 4)) 0 16)
              (w32 ((s.featureValues c.fn.ep c.sqe.feature (c.sqe.param 1)).getD 0 0))).run)))

/-- RING_CREATE (R569): on a free index, with a ring context and a class the function may use, the ring stands with the entry's base,
depth, rings, class, burst (8 where 0), coalescing and shadow area; an index in use fails with RING_EXISTS.
RING_EXISTS, the context and the class are R570's. -/
def Obligations.RingCreate : Prop :=
  ∀ (s : State) (acc : Nat) (c : Cmd),
    (s.startable acc 0x81 (fun e => !e.pbit 0 12) = some c → s.sqs.has (ringKey c.fn (c.sqe.pfield 0 0 12)) = false →
      (s.hasContext (ringKey c.fn (c.sqe.pfield 0 0 12)) = true ∨ s.contexts < 4096) → s.maxClassOf c.fn ≤ c.sqe.pfield 0 13 2 →
      exec (.ringCreateSubmission acc) s
        = .next (s.keepOwned
            ((({ s with sqs := s.sqs.put (ringKey c.fn (c.sqe.pfield 0 0 12))
                         { fn := c.fn, ring := c.sqe.pfield 0 0 12, base := c.sqe.base, depth := c.sqe.pfield 3 0 17, cq := c.sqe.pfield 4 0 12,
                           cls := c.sqe.pfield 0 13 2, burst := orDefault (c.sqe.pfield 4 16 8) 8,
                           shadow := if c.sqe.pfield 5 0 16 = 0 then none else some (c.sqe.w08, c.sqe.pfield 5 0 16),
                           polledAt := s.now } } : State).finish acc St.success).run)))
    ∧ (s.startable acc 0x81 (fun e => e.pbit 0 12) = some c → s.cqs.has (ringKey c.fn (c.sqe.pfield 0 0 12)) = false →
      (s.hasContext (ringKey c.fn (c.sqe.pfield 0 0 12)) = true ∨ s.contexts < 4096) →
      exec (.ringCreateCompletion acc) s
        = .next (s.keepOwned
            ((({ s with cqs := s.cqs.put (ringKey c.fn (c.sqe.pfield 0 0 12))
                         { fn := c.fn, ring := c.sqe.pfield 0 0 12, base := c.sqe.base, depth := c.sqe.pfield 3 0 17,
                           vector := c.sqe.pfield 4 0 11, ien := c.sqe.pbit 0 15, coalCount := orDefault (c.sqe.pfield 4 16 8) 1,
                           coalTime := c.sqe.pfield 5 0 10 } } : State).finish acc St.success).run)))
    ∧ (s.startable acc 0x81 (fun e => !e.pbit 0 12) = some c → s.sqs.has (ringKey c.fn (c.sqe.pfield 0 0 12)) = true →
      exec (.ringCreateSubmission acc) s = .next (s.keepOwned ((s.finish c.acc St.ringExists).run)))
    ∧ (s.startable acc 0x81 (fun e => e.pbit 0 12) = some c → s.cqs.has (ringKey c.fn (c.sqe.pfield 0 0 12)) = true →
      exec (.ringCreateCompletion acc) s = .next (s.keepOwned ((s.finish c.acc St.ringExists).run)))

/-- SET_FEATURE of a volume's acknowledgement mode (R156), age limit (R181) and loss acknowledgement (R627), and of a pool's hedge
mode (R244), hard timeout (R286), media threshold (R293) and scrub period (R347): the record holds the value, the change of the
descriptor waits for its change-log record (R502), and the command ends with SUCCESS once the changes made so far have committed; a
stale LOSS_SEQ ends with LOSS_SEQ_STALE and changes nothing. SET_FEATURE of an endpoint's tag budget (R542), and of a function's highest
class (R570) and rate limit (R596): that a new limit fills the buckets is the model's choice (log entry 12). -/
def Obligations.ObjectFeatures : Prop :=
  ∀ (s : State) (acc : Nat) (c : Cmd),
    (s.startable acc 0x83 (fun e => e.feature = 1 && featureValuesOk 1 e.values) = some c →
      exec (.setFeatureAckMode acc) s
        = .next (s.keepOwned (((({ s with volumes := s.volumes.upd (c.sqe.param 1) fun v =>
            { v with ackMode := (AckMode.ofCode (c.sqe.value 0)).getD v.ackMode } } : State).noteVolume (c.sqe.param 1)).finishLogged c.acc
              St.success).run)))
    ∧ (s.startable acc 0x83 (fun e => e.feature = 2 && featureValuesOk 2 e.values) = some c →
      exec (.setFeatureAgeLimit acc) s
        = .next (s.keepOwned (((({ s with volumes := s.volumes.upd (c.sqe.param 1) fun v =>
            { v with ageLimit := c.sqe.value 0 } } : State).noteVolume (c.sqe.param 1)).finishLogged c.acc St.success).run)))
    ∧ (∀ v u, s.startable acc 0x83 (fun e => e.feature = 3 && featureValuesOk 3 e.values) = some c →
      s.volumes.look (c.sqe.param 1) = some v → v.lossSeq.toNat = c.sqe.value 0 →
      u = s.volEvent Ev.lossAck (c.sqe.param 1) (c.sqe.param 1) v.lossSeq.toNat v.loss.length →
      exec (.setFeatureLossAck acc) s
        = .next (s.keepOwned
            (((({ u with volumes := u.volumes.put (c.sqe.param 1)
                                      { v with cacheLost := false, loss := [], lossOverflow := false, lostBlocks := [] } }
              : State).noteVolume (c.sqe.param 1)).finishLogged acc St.success).run)))
    ∧ (∀ v, s.startable acc 0x83 (fun e => e.feature = 3 && featureValuesOk 3 e.values) = some c →
      s.volumes.look (c.sqe.param 1) = some v → v.lossSeq.toNat ≠ c.sqe.value 0 →
      exec (.setFeatureLossAck acc) s = .next (s.keepOwned ((s.finish acc St.lossSeqStale).run)))
    ∧ (s.startable acc 0x83 (fun e => e.feature = 5 && featureValuesOk 5 e.values) = some c →
      exec (.setFeatureHedge acc) s
        = .next (s.keepOwned (((({ s with pools := s.pools.upd (c.sqe.param 1) fun x =>
            { x with hedgeMode := c.sqe.value 0, hedgeFixed := if c.sqe.value 0 = 1 then c.sqe.value 1 else x.hedgeFixed } }
              : State).noteChange 2
            (c.sqe.param 1)).finishLogged c.acc St.success).run)))
    ∧ (s.startable acc 0x83 (fun e => e.feature = 6 && featureValuesOk 6 e.values) = some c →
      exec (.setFeatureHardTimeout acc) s
        = .next (s.keepOwned (((({ s with pools := s.pools.upd (c.sqe.param 1) fun x =>
            { x with hardTimeout := c.sqe.value 0 } } : State).noteChange 2
            (c.sqe.param 1)).finishLogged c.acc St.success).run)))
    ∧ (s.startable acc 0x83 (fun e => e.feature = 7 && featureValuesOk 7 e.values) = some c →
      exec (.setFeatureMediaThreshold acc) s
        = .next (s.keepOwned (((({ s with pools := s.pools.upd (c.sqe.param 1) fun x =>
            { x with mediaThreshold := c.sqe.value 0 } } : State).noteChange 2
            (c.sqe.param 1)).finishLogged c.acc St.success).run)))
    ∧ (s.startable acc 0x83 (fun e => e.feature = 8 && featureValuesOk 8 e.values) = some c →
      exec (.setFeatureScrubPeriod acc) s
        = .next (s.keepOwned (((({ s with pools := s.pools.upd (c.sqe.param 1) fun x =>
            { x with scrubDays := c.sqe.value 0 } } : State).noteChange 2
            (c.sqe.param 1)).finishLogged c.acc St.success).run)))
    ∧ (s.startable acc 0x83 (fun e => e.feature = 11 && featureValuesOk 11 e.values) = some c →
      exec (.setFeatureTagBudget acc) s
        = .next (s.keepOwned (((s.setEp (c.sqe.param 1)
            { s.ep (c.sqe.param 1) with tagBudget := c.sqe.param 2, entryTags := c.sqe.param 3 }).pump.finish acc St.success).run)))
    ∧ (s.startable acc 0x83 (fun e => e.feature = 13 && featureValuesOk 13 e.values) = some c →
      exec (.setFeatureMaxClass acc) s
        = .next (s.keepOwned (((s.setFn ⟨c.fn.ep, c.sqe.param 1⟩
            { s.fn ⟨c.fn.ep, c.sqe.param 1⟩ with maxClass := some (c.sqe.param 2) }).finish acc St.success).run)))
    ∧ (s.startable acc 0x83 (fun e => e.feature = 14 && featureValuesOk 14 e.values) = some c →
      exec (.setFeatureRateLimit acc) s
        = .next (s.keepOwned (((s.setFn ⟨c.fn.ep, c.sqe.param 1⟩
            { s.fn ⟨c.fn.ep, c.sqe.param 1⟩ with
                iopsLimit := c.sqe.param 2, iopsBurst := c.sqe.param 3, bwLimit := c.sqe.param 4, bwBurst := c.sqe.param 5,
                cmdTokens := c.sqe.param 3 * 1000000, byteTokens := c.sqe.param 5 * 1024, tokensAt := s.now }).finish acc St.success).run)))

/-- SET_FEATURE of a device setting: the dirty limit (R164), capped where the vault's reserve allows less (R401), the patrol period (R417),
the refresh threshold (R418), the class weights (R595), the stall timeout (R601), the export wait (R518) and the time base, whose change is recorded in the old
form, since it happens before the command completes (R679). The
settings differ from those before in that value alone, which is saved before the command ends with SUCCESS (R763; that the save takes one
step is the model's choice, log entry 25). -/
def Obligations.DeviceFeatures : Prop :=
  ∀ (s : State) (acc : Nat) (c : Cmd),
    (s.startable acc 0x83 (fun e => e.feature = 4 && featureValuesOk 4 e.values) = some c →
      ∃ t, exec (.setFeatureDirtyLimit acc) s
          = .next { t with pending := s.pending, now := s.now,
                           settings := { s.settings with lCfg := cappedLimit (c.sqe.param 2) s.vault.blocks } }
        ∧ t = (({ s with settings := { s.settings with lCfg := cappedLimit (c.sqe.param 2) s.vault.blocks } }
            : State).limitApplied.finish acc St.success).run)
    ∧ (s.startable acc 0x83 (fun e => e.feature = 9 && featureValuesOk 9 e.values) = some c →
      ∃ t, exec (.setFeaturePatrolPeriod acc) s
          = .next { t with pending := s.pending, now := s.now, settings := { s.settings with patrolHours := c.sqe.param 2 } }
        ∧ t = (({ s with settings := { s.settings with patrolHours := c.sqe.param 2 } } : State).finish acc St.success).run)
    ∧ (s.startable acc 0x83 (fun e => e.feature = 10 && featureValuesOk 10 e.values) = some c →
      ∃ t, exec (.setFeatureRefreshThreshold acc) s
          = .next { t with pending := s.pending, now := s.now, settings := { s.settings with refreshBits := c.sqe.param 2 } }
        ∧ t = (({ s with settings := { s.settings with refreshBits := c.sqe.param 2 } } : State).finish acc St.success).run)
    ∧ (s.startable acc 0x83 (fun e => e.feature = 12 && featureValuesOk 12 e.values) = some c →
      ∃ t x, exec (.setFeatureClassWeights acc) s = .next { t with pending := s.pending, now := s.now, settings := x }
        ∧ x = { s.settings with high := field (c.sqe.param 2) 0 8, medium := field (c.sqe.param 2) 8 8, low := field (c.sqe.param 2) 16 8 }
        ∧ t = (({ s with settings := x } : State).finish acc St.success).run)
    ∧ (s.startable acc 0x83 (fun e => e.feature = 15 && featureValuesOk 15 e.values) = some c →
      ∃ t, exec (.setFeatureStallTimeout acc) s
          = .next { t with pending := s.pending, now := s.now, settings := { s.settings with stallTimeout := c.sqe.param 2 } }
        ∧ t = (({ s with settings := { s.settings with stallTimeout := c.sqe.param 2 } } : State).finish acc St.success).run)
    ∧ (s.startable acc 0x83 (fun e => e.feature = 16 && featureValuesOk 16 e.values) = some c →
      ∃ t, exec (.setFeatureExportWait acc) s
          = .next { t with pending := s.pending, now := s.now, settings := { s.settings with exportWait := c.sqe.param 2 } }
        ∧ t = (({ s with settings := { s.settings with exportWait := c.sqe.param 2 } } : State).finish acc St.success).run)
    ∧ (s.startable acc 0x83 (fun e => e.feature = 17 && featureValuesOk 17 e.values) = some c →
      s.settings.calendarBase ≠ decide (c.sqe.param 2 = 1) →
      ∃ t, exec (.setFeatureTimeBase acc) s
          = .next { t with pending := s.pending, now := s.now, settings := { s.settings with calendarBase := decide (c.sqe.param 2 = 1) } }
        ∧ t = (({ s.event Ev.timeBase 0 (b2n (decide (c.sqe.param 2 = 1))) 0 0 with
            settings := { s.settings with calendarBase := decide (c.sqe.param 2 = 1) } } : State).finish acc St.success).run)
    ∧ (s.startable acc 0x83 (fun e => e.feature = 17 && featureValuesOk 17 e.values) = some c →
      s.settings.calendarBase = decide (c.sqe.param 2 = 1) →
      ∃ t, exec (.setFeatureTimeBase acc) s = .next { t with pending := s.pending, now := s.now, settings := s.settings }
        ∧ t = (s.finish acc St.success).run)

/-- What TEMPLATE_DEFINE, POOL_CREATE, POOL_EXPAND and CONFIG_STAGE stage: the item that the entry and its data describe, at the place
of an item it replaces or at the end, after the checks of R631 (R58, R66, R70, R99, R615, R632); a malformed template and a KIND of
neither structure stage nothing; CONFIG_DISCARD empties the set and answers with its size (R634). DEVICE_STOP leaves READY for
STOPPING and completes once accepted I/O has (R630); DEVICE_START applies the staged set, saves it under the next
configuration number, records EV_CONFIG_APPLIED and returns to READY; an item that no longer passes is named, and with nothing staged it
returns to READY at once (R633). A POOL_CREATE with SEED 0 takes a seed of the module's choice (R74). The model's choices
(log entries 3 and 13): the seed is a free value, drawn when it is staged; a start with nothing staged still carries out the saves of a
start; an unknown KIND ends with INVALID_FIELD; and the configuration copy is saved within the step. -/
def Obligations.StagedSetRows : Prop :=
  (∀ (s : State) (acc : Nat) (c : Cmd),
      (∀ id m, s.startable acc 0x88 (fun e => !e.pbit 0 0) = some c → parseTemplate c.bytes = some (id, m) →
        exec (.templateDefine acc) s = .next (s.keepOwned (s.stageItem c (.template id m))))
      ∧ (s.startable acc 0x88 (fun e => !e.pbit 0 0) = some c → parseTemplate c.bytes = none →
        exec (.templateDefine acc) s = .next (s.keepOwned (s.finish c.acc St.templateInvalid)))
      ∧ (s.startable acc 0x88 (fun e => e.pbit 0 0) = some c →
        exec (.templateDelete acc) s = .next (s.keepOwned (s.stageItem c (.templateDelete (numAt c.bytes 0 1)))))
      ∧ (s.startable acc 0x89 (fun e => !e.pbit 0 16) = some c → c.sqe.param 1 ≠ 0 →
        exec (.poolCreate acc) s
          = .next (s.keepOwned (s.stageItem c (.pool (c.sqe.pfield 0 0 4) (c.sqe.pfield 0 4 3) (spareOfCode (c.sqe.pfield 0 8 3))
              (BitVec.ofNat 32 (c.sqe.param 1)) c.sqe.ports))))
      ∧ (s.startable acc 0x89 (fun e => !e.pbit 0 16) = some c → c.sqe.param 1 = 0 →
        exec (.poolCreate acc) s
          = .next (s.keepOwned (({ s with fresh := s.fresh + 1 } : State).stageItem c (.pool (c.sqe.pfield 0 0 4) (c.sqe.pfield 0 4 3)
              (spareOfCode (c.sqe.pfield 0 8 3)) ((Config.fresh s.fresh).setWidth 32) c.sqe.ports))))
      ∧ (s.startable acc 0x89 (fun e => e.pbit 0 16) = some c →
        exec (.poolDelete acc) s = .next (s.keepOwned (s.stageItem c (.poolDelete (c.sqe.pfield 0 0 4)))))
      ∧ (s.startable acc 0x8A (fun e => !e.pbit 0 8) = some c →
        exec (.poolExpand acc) s = .next (s.keepOwned (s.stageItem c (.expand (c.sqe.pfield 0 0 4) c.sqe.ports false))))
      ∧ (s.startable acc 0x8A (fun e => e.pbit 0 8) = some c →
        exec (.poolExpandSpare acc) s = .next (s.keepOwned (s.stageItem c (.expand (c.sqe.pfield 0 0 4) c.sqe.ports true))))
      ∧ (∀ g, s.startable acc 0x9A anyForm = some c → numAt c.bytes 0 1 = 1 → c.total = 44 → numAt c.bytes 2 2 = 36 →
        parseGovernor (c.bytes.drop 8) = some g →
        exec (.configStageGovernor acc) s = .next (s.keepOwned (s.stageItem c (.governor g.1 g.2))))
      ∧ (s.startable acc 0x9A anyForm = some c → numAt c.bytes 0 1 ≠ 1 → numAt c.bytes 0 1 ≠ 2 → c.total = 8 + numAt c.bytes 2 2 →
        exec (.configStageGovernor acc) s = .next (s.keepOwned (s.finish c.acc St.invalidField)))
      ∧ (∀ d, s.startable acc 0x9A anyForm = some c → numAt c.bytes 0 1 = 2 → c.total = 64 → numAt c.bytes 2 2 = 56 →
        parsePack (c.bytes.drop 8) = some d →
        exec (.configStagePack acc) s = .next (s.keepOwned (s.stageItem c (.pack d))))
      ∧ (s.startable acc 0x9B anyForm = some c →
        exec (.configDiscard acc) s
          = .next (s.keepOwned ((({ s with mgmt := { s.mgmt with staged := [] } } : State).event Ev.configDiscarded 0
              s.mgmt.staged.length 0 0).finish c.acc St.success (w32 s.mgmt.staged.length)))))
  ∧ (∀ (s : State) (acc : Nat) (c : Cmd),
      (s.startable acc 0x98 anyForm = some c → s.life.st = .ready →
        exec (.deviceStop acc) s
          = .next (s.keepOwned (((s.setState .stopping).updCmd c.acc fun c => { c with phase := .running }).settleWaits)))
      ∧ (s.startable acc 0x98 anyForm = some c → s.life.st = .stopped →
        exec (.deviceStop acc) s = .next (s.keepOwned (s.finish c.acc St.success)))
      ∧ (s.startable acc 0x99 anyForm = some c → s.mgmt.staged = [] →
        exec (.deviceStart acc) s = .next (s.keepVault ((s.startSaves.setState .ready).finishLogged c.acc St.success)))
      ∧ (∀ t u n, s.startable acc 0x99 anyForm = some c → s.mgmt.staged ≠ [] → firstConflict s.mgmt.staged s 0 = none →
        t = (s.over s.mgmt.staged fun s x => s.applyNow x).arrayLabel → n = t.pair.configSeq + 1 →
        u = (((({ t with pair := { t.pair with configSeq := n }, mgmt := { t.mgmt with staged := [] } } : State).bringLogs.writeConfig).writeLabels fun y => { y with configSeq := n }).startSaves) →
        exec (.deviceStart acc) s
          = .next (s.keepVault (((u.record Ev.configApplied ⟨some c.fn, 0⟩
              (w32 s.mgmt.staged.length) (w32 n) (fnWord c.fn)).setState .ready).finishLogged c.acc St.success)))
      ∧ (∀ i, s.startable acc 0x99 anyForm = some c → firstConflict s.mgmt.staged s 0 = some i →
        exec (.deviceStart acc) s = .next (s.keepVault (s.finish c.acc St.stageConflict (w32 i)))))

/-- Volumes: an id in use is refused (R607); an array volume takes its regions where the template, the pool and room for all of them are
there, stands with its descriptor noted, and completes once every stripe is zeroed (R623); a vault volume that fits stands at once (R420);
VOLUME_DELETE and VOLUME_DETACH mark the volume and wait for its earlier commands (R624, R625), VOLUME_ATTACH attaches a detached volume
(R622). -/
def Obligations.VolumeRows : Prop :=
  ∀ (s : State) (acc : Nat) (c : Cmd),
    (s.startable acc 0x8B (fun e => !e.pbit 0 12) = some c → s.volumes.has (c.sqe.pfield 0 0 12) = true →
      exec (.volumeCreateArray acc) s = .next (s.keepOwned ((s.finish c.acc St.volumeExists).run)))
    ∧ (∀ m x free places, s.startable acc 0x8B (fun e => !e.pbit 0 12) = some c → s.volumes.has (c.sqe.pfield 0 0 12) = false →
      s.templates.look (c.sqe.pfield 1 0 8) = some m → s.pools.look (c.sqe.pfield 1 8 4) = some x → x.foreign_ = false →
      (∀ n, n = (c.sqe.param 2 + c.sqe.pfield 3 0 8 * 2 ^ 32 + chunkBlocks x.chunkCode * m.data - 1) / (chunkBlocks x.chunkCode * m.data) →
        free = s.freeIndices (offered s.arrayDrives.length) (offered s.arrayDrives.length) n 0 ∧ free.length = n
        ∧ s.placeAll (c.sqe.pfield 1 8 4) m.width n (s.slotsUsed (c.sqe.pfield 1 8 4)) = some places) →
      exec (.volumeCreateArray acc) s
        = .next (s.keepOwned
            (let t : State := s.over (free.zip places) fun s y => s.updRegion y.1 fun r =>
               { bitmap := y.2.2, row := y.2.1, gen := r.gen, perm := permId x.seed y.1, template := c.sqe.pfield 1 0 8,
                 chunkCode := x.chunkCode, st := .normal, pool := c.sqe.pfield 1 8 4 }
             let v : Volume := { born := s.now, vault := false, capacity := c.sqe.param 2 + c.sqe.pfield 3 0 8 * 2 ^ 32, template := c.sqe.pfield 1 0 8,
                                 pool := c.sqe.pfield 1 8 4, vmap := free, init := true,
                                 ackMode := (AckMode.ofCode (c.sqe.pfield 0 13 2)).getD .pwb }
             let u : State := ({ t with volumes := t.volumes.put (c.sqe.pfield 0 0 12) v } : State).noteVolume (c.sqe.pfield 0 0 12)
             let w : State := u.updCmd c.acc fun c => { c with phase := .running, tasksLeft := free.length * stripesOf x.chunkCode m.stripCode }
             (w.over free fun s r => s.over (span 0 (s.stripes r)) fun s j => s.zeroStripe c.acc (c.sqe.pfield 0 0 12) r j).run)))
    ∧ (s.startable acc 0x8B (fun e => e.pbit 0 12) = some c → s.volumes.has (c.sqe.pfield 0 0 12) = false →
      s.vaultAllocated + 4096 * (c.sqe.param 2 + c.sqe.pfield 3 0 8 * 2 ^ 32) ≤ 2 ^ 40 →
      0 ≤ s.spareLeftFor (s.vaultAllocated + 4096 * (c.sqe.param 2 + c.sqe.pfield 3 0 8 * 2 ^ 32)) → s.vault.readOnly = false →
      exec (.volumeCreateVault acc) s
        = .next (s.keepOwned
            (((({ s with volumes := s.volumes.put (c.sqe.pfield 0 0 12)
                                       { born := s.now, vault := true, capacity := c.sqe.param 2 + c.sqe.pfield 3 0 8 * 2 ^ 32 } } : State).volEvent Ev.volume
              (c.sqe.pfield 0 0 12) (c.sqe.pfield 0 0 12) 0 (fnKey ⟨0, 0⟩)).finish c.acc St.success 0).run)))
    ∧ (∀ v, s.startable acc 0x8C anyForm = some c → s.volumes.look (c.sqe.pfield 0 0 12) = some v → v.attached = none →
      exec (.volumeDelete acc) s
        = .next (s.keepVault (({ s with volumes := s.volumes.put (c.sqe.pfield 0 0 12) { v with deleting := true } } : State).updCmd c.acc
            fun c => { c with phase := .running })))
    ∧ (∀ v, s.startable acc 0x8D anyForm = some c → s.fnExists ⟨c.sqe.pfield 1 8 1, c.sqe.pfield 1 0 8⟩ = true →
      s.volumes.look (c.sqe.pfield 0 0 12) = some v → v.deleting = false → v.attached = none →
      exec (.volumeAttach acc) s
        = .next (s.keepOwned
            ((((({ s with volumes := s.volumes.put (c.sqe.pfield 0 0 12)
                                       { v with attached := some ⟨c.sqe.pfield 1 8 1, c.sqe.pfield 1 0 8⟩ } } : State).noteVolume
              (c.sqe.pfield 0 0 12)).volEvent Ev.volume (c.sqe.pfield 0 0 12) (c.sqe.pfield 0 0 12) 2
              (fnKey ⟨c.sqe.pfield 1 8 1, c.sqe.pfield 1 0 8⟩)).finishLogged c.acc St.success).run)))
    ∧ (∀ v f, s.startable acc 0x8E anyForm = some c → s.volumes.look (c.sqe.pfield 0 0 12) = some v → v.attached = some f →
      exec (.volumeDetach acc) s
        = .next (s.keepOwned
            (((({ s with volumes := s.volumes.put (c.sqe.pfield 0 0 12) { v with detaching := some c.acc } } : State).updCmd c.acc
              fun c => { c with phase := .running }).settleWaits.dropStreams (c.sqe.pfield 0 0 12)).run)))

/-- Members and region work: MEMBER_FAIL fails a live member under criterion 7 (R628); MEMBER_REPLACE puts a drive in place of a gone
one, as REPLACING in copyback mode (R338) or as a new ONLINE member (R99); CONSISTENCY_CHECK sets CHECK_PENDING
on the regions it names, or on all of a pool with WHOLE_POOL (R629).
REBUILD_CONTROL (R352): PAUSE and RESUME set and clear the pause of a pool or of every pool, PROMOTE puts a queued region at the head
of its rank in place of the one that was there and changes nothing for a region that is not queued, RETRY ends the wait of a halted region. -/
def Obligations.MemberAndRebuildCommands : Prop :=
  (∀ (s : State) (acc : Nat) (c : Cmd),
      (s.startable acc 0x90 anyForm = some c → s.members.has (c.sqe.pfield 0 0 6) = true → s.memberGone (c.sqe.pfield 0 0 6) = false →
        exec (.memberFail acc) s
          = .next (s.keepOwned (((s.failMember (c.sqe.pfield 0 0 6) 7 false).finishLogged c.acc St.success).run)))
      ∧ (∀ m, s.startable acc 0x91 (fun e => !e.pbit 0 16) = some c →
        s.replaceBad (c.sqe.pfield 0 0 6) (c.sqe.pfield 0 8 6) true = none → s.members.look (c.sqe.pfield 0 0 6) = some m →
        exec (.memberReplaceCopyback acc) s
          = .next (s.keepOwned
              (((((({ s with members := s.members.put (c.sqe.pfield 0 0 6)
                                        { s.newMember m.pool (c.sqe.pfield 0 0 6) .removed with movedSince := s.now } } : State).memberTo
                (c.sqe.pfield 0 0 6) .replacing).holdMember (c.sqe.pfield 0 0 6)).copybackCheck (c.sqe.pfield 0 0 6)).finishLogged c.acc
                St.success).run)))
      ∧ (∀ m, s.startable acc 0x91 (fun e => e.pbit 0 16) = some c →
        s.replaceBad (c.sqe.pfield 0 0 6) (c.sqe.pfield 0 8 6) false = none → s.members.look (c.sqe.pfield 0 0 6) = some m →
        exec (.memberReplaceJoin acc) s
          = .next (s.keepOwned
              (((((((({ s with members := (s.members.put (c.sqe.pfield 0 8 6) (s.newMember m.pool (c.sqe.pfield 0 8 6) .online)).upd
                                     (c.sqe.pfield 0 0 6) fun m => { m with dropPending := true } } : State).noteChange 1
                (c.sqe.pfield 0 8 6)).noteChange 1 (c.sqe.pfield 0 0 6)).holdMember (c.sqe.pfield 0 8 6)).dropMembers.assignLogs.writeLabels
                id).spareCheck m.pool).finishLogged c.acc St.success).run)))
      ∧ (s.startable acc 0x93 anyForm = some c → c.sqe.pbit 0 1 = false →
        exec (.consistencyCheck acc) s
          = .next (s.keepOwned
              (let l := s.usedRegions.filter fun r => c.sqe.pfield 1 0 24 ≤ r && r < c.sqe.pfield 1 0 24 + c.sqe.param 2
               ((s.over l fun s r => (s.updRegion r fun e => { e with checkPending := true }).updWork r fun w =>
                  { w with reportOnly := c.sqe.pbit 0 0 }).finish c.acc St.success (w32 l.length)).run)))
      ∧ (s.startable acc 0x93 anyForm = some c → c.sqe.pbit 0 1 = true → s.pools.has (c.sqe.pfield 0 8 4) = true →
        exec (.consistencyCheck acc) s
          = .next (s.keepOwned
              (let l := s.poolRegions (c.sqe.pfield 0 8 4)
               ((s.over l fun s r => (s.updRegion r fun e => { e with checkPending := true }).updWork r fun w =>
                  { w with reportOnly := c.sqe.pbit 0 0 }).finish c.acc St.success (w32 l.length)).run)))
      ∧ (s.startable acc 0x93 anyForm = some c → c.sqe.pbit 0 1 = true → s.pools.has (c.sqe.pfield 0 8 4) = false →
        exec (.consistencyCheck acc) s = .next (s.keepOwned ((s.finish c.acc St.poolUnknown).run))))
  ∧ (∀ (s : State) (acc : Nat) (c : Cmd),
      (s.startable acc 0x92 (fun e => e.pfield 0 0 2 = 0) = some c → (c.sqe.pbit 0 4 = true ∨ s.pools.has (c.sqe.pfield 0 8 4) = true) →
        exec (.rebuildPause acc) s
          = .next (s.keepOwned ((({ s with pools := s.pools.each fun k (x : Pool) =>
                                      if c.sqe.pbit 0 4 || k = c.sqe.pfield 0 8 4 then { x with paused := true } else x } : State).finish c.acc St.success).run)))
      ∧ (s.startable acc 0x92 (fun e => e.pfield 0 0 2 = 1) = some c → (c.sqe.pbit 0 4 = true ∨ s.pools.has (c.sqe.pfield 0 8 4) = true) →
        exec (.rebuildResume acc) s
          = .next (s.keepOwned ((({ s with pools := s.pools.each fun k (x : Pool) =>
                                      if c.sqe.pbit 0 4 || k = c.sqe.pfield 0 8 4 then { x with paused := false } else x } : State).finish c.acc St.success).run)))
      ∧ (s.startable acc 0x92 (fun e => e.pfield 0 0 2 = 2) = some c → (s.workOf (c.sqe.pfield 1 0 24)).queued = true →
        exec (.rebuildPromote acc) s
          = .next (s.keepOwned (((s.updWork (c.sqe.pfield 1 0 24) fun w =>
                                    { w with promoted := (s.work.vals.map (·.promoted)).foldl max 0 + 1 }).finish c.acc St.success).run)))
      ∧ (s.startable acc 0x92 (fun e => e.pfield 0 0 2 = 2) = some c → (s.workOf (c.sqe.pfield 1 0 24)).queued = false →
        exec (.rebuildPromote acc) s = .next (s.keepOwned ((s.finish c.acc St.success).run)))
      ∧ (s.startable acc 0x92 (fun e => e.pfield 0 0 2 = 3) = some c → (s.workOf (c.sqe.pfield 1 0 24)).halted.isEmpty = false →
        exec (.rebuildRetry acc) s
          = .next (s.keepOwned (((s.updWork (c.sqe.pfield 1 0 24) fun w => { w with halted := [] }).finish c.acc St.success).run))))

/-- Self-tests and firmware. A short or extended test starts where none runs, with the regions that are not FREE left for the
extended one to check, asks each member for Identify Controller and takes the first steps of its other parts (log entry 14), and a
start while one runs fails with SELF_TEST_RUNNING (R635). ABORT ends a running test with status 4, and
with none running it changes nothing; a test of which no unit, range, member, march, patrol pass or region is left, and whose checkpoint
and power link were good, passes with status 2, and one in which a unit fails ends
with status 3, a failing HBM channel (islands 66 to 97) or code tile (114 to 161) being mapped out first; an end sets the seconds that
the test took, records EV_SELF_TEST and raises SELF_TEST_DONE (R636). FW_STAGE writes a piece that starts at offset 0 or follows the last
to the slot's blocks, and a piece at offset 0 leaves the slot without a valid image (R397, R637); once the piece is verified the command ends,
with LAST the pieces together being the slot's image where it verifies, else the slot is empty and the command fails with FW_IMAGE_INVALID,
and EV_FW_STAGED is recorded either way; a
piece that goes past 64 MiB or does not follow fails with INVALID_FIELD (R637). FW_ACTIVATE makes a valid slot the next one and
answers with its version, and fails with FW_SLOT_INVALID on another (R638).
The order of a test's parts is the model's reading (log entry 14). -/
def Obligations.SelfTestAndFirmware : Prop :=
  (∀ (s : State) (acc : Nat) (c : Cmd),
    (s.startable acc 0xA0 (fun e => e.pfield 0 0 2 = 1) = some c → s.mgmt.selfTest.status ≠ 1 →
      exec (.selfTestShort acc) s
        = .next (s.keepOwned ((({ s with mgmt := { s.mgmt with selfTest := s.newTest c.fn 1 } } : State).over (s.newTest c.fn 1).asks
            (fun s p => s.askIdentify p)).finish c.acc St.success).testStep))
    ∧ (s.startable acc 0xA0 (fun e => e.pfield 0 0 2 = 2) = some c → s.mgmt.selfTest.status ≠ 1 →
      exec (.selfTestExtended acc) s
        = .next (s.keepOwned ((({ s with mgmt := { s.mgmt with selfTest := s.newTest c.fn 2 } } : State).over (s.newTest c.fn 2).asks
            (fun s p => s.askIdentify p)).finish c.acc St.success).testStep))
    ∧ (∀ kind, (s.newTest c.fn kind).status = 1 ∧ (s.newTest c.fn kind).kind = kind ∧ (s.newTest c.fn kind).startedAt = s.now
      ∧ (s.newTest c.fn kind).issuer = c.fn ∧ (s.newTest c.fn kind).left = (if kind = 2 then s.usedRegions else [])
      ∧ (∀ i, i ∈ (s.newTest c.fn kind).units ↔
        (66 ≤ i ∧ i < 98 ∧ s.life.hbmTrained.getLsbD (i - 66) = true ∧ s.mgmt.hbmOut.getLsbD (i - 66) = false)
          ∨ (114 ≤ i ∧ i < 162 ∧ s.mgmt.tilesOut.getLsbD (i - 114) = false)))
    ∧ (s.startable acc 0xA0 (fun e => e.pfield 0 0 2 = 1) = some c → s.mgmt.selfTest.status = 1 →
      exec (.selfTestShort acc) s = .next (s.keepOwned (s.finish c.acc St.selfTestRunning)))
    ∧ (s.startable acc 0xA0 (fun e => e.pfield 0 0 2 = 2) = some c → s.mgmt.selfTest.status = 1 →
      exec (.selfTestExtended acc) s = .next (s.keepOwned (s.finish c.acc St.selfTestRunning)))
    ∧ (∀ x, s.startable acc 0xA0 (fun e => e.pfield 0 0 2 = 3) = some c → s.mgmt.selfTest.status = 1 →
      x = { s.mgmt.selfTest with status := 4, seconds := (s.now - s.mgmt.selfTest.startedAt) / 1000000, units := [], range := none,
                                 marches := [], asks := [], ckpt := none, patrol := 0 } →
      exec (.selfTestAbort acc) s
        = .next (s.keepOwned (((({ s with mgmt := { s.mgmt with selfTest := x } } : State).event Ev.selfTest 0 4 x.kind
            x.failedIsland).raisePfs .selfTestDone).finish c.acc St.success)))
    ∧ (s.startable acc 0xA0 (fun e => e.pfield 0 0 2 = 3) = some c → s.mgmt.selfTest.status ≠ 1 →
      exec (.selfTestAbort acc) s = .next (s.keepOwned (s.finish c.acc St.success)))
    ∧ (∀ k t, s.startable acc 0xA1 anyForm = some c → c.sqe.param 0 + c.total ≤ 67108864 → k = 1 - s.life.fwRunning →
      (c.sqe.param 0 = 0 ∨ ((s.slot k).partialValid = true ∧ c.sqe.param 0 = (s.slot k).staged.length)) → c.bytes ≠ [] →
      t = (if c.sqe.param 0 = 0
        then ((s.setSlot k { after := s.vault.programSeq, partialValid := true }).closeUse (.firmware k)).cullBlocks
        else s.setSlot k { s.slot k with partialValid := true }) →
      exec (.fwStage acc) s
        = .next (s.keepOwned ((t.updCmd c.acc fun y => { y with phase := .running, vaultLeft := (toSegments c.bytes).length }).vprogram
            (.firmware k) ((toSegments c.bytes).zipIdx.map fun e => (VLogical.firmware k (c.sqe.param 0 / 4096 + e.2), 0, e.1))
            [.firmwarePart c.acc])))
    ∧ (∀ k image, s.cmds.look acc = some c → k = 1 - s.life.fwRunning → image = (s.slot k).staged ++ c.bytes →
      (c.sqe.pbit 1 0 = false →
        s.stageDone c = (s.setSlot k { s.slot k with staged := image }).finish c.acc St.success)
      ∧ (c.sqe.pbit 1 0 = true → Config.imageValid image = true →
        s.stageDone c
          = (((s.setSlot k { s.slot k with valid := true, image := image, staged := [], partialValid := false }).closeUse (.firmware k)).event
              Ev.fwStaged 0 k 0 (Config.imageVersion image).toNat).finish c.acc St.success)
      ∧ (c.sqe.pbit 1 0 = true → Config.imageValid image = false →
        s.stageDone c
          = (((s.setSlot k { s.slot k with valid := false, image := [], staged := [], partialValid := false }).closeUse (.firmware k)).event
              Ev.fwStaged 0 k 1 (Config.imageVersion image).toNat).finish c.acc St.fwImageInvalid))
    ∧ (∀ k, s.startable acc 0xA1 anyForm = some c → k = 1 - s.life.fwRunning →
      (67108864 < c.sqe.param 0 + c.total
        ∨ (c.sqe.param 0 ≠ 0 ∧ ((s.slot k).partialValid = false ∨ c.sqe.param 0 ≠ (s.slot k).staged.length))) →
      exec (.fwStage acc) s = .next (s.keepOwned (s.finish c.acc St.invalidField)))
    ∧ (s.startable acc 0xA2 anyForm = some c → (s.slot (c.sqe.pfield 0 0 1)).valid = true →
      exec (.fwActivate acc) s
        = .next (s.keepOwned ((({ s with mgmt := { s.mgmt with nextSlot := c.sqe.pfield 0 0 1 } } : State).event Ev.fwActivated 0
            (c.sqe.pfield 0 0 1) (s.slot (c.sqe.pfield 0 0 1)).version 0).finish c.acc St.success
            (w32 (s.slot (c.sqe.pfield 0 0 1)).version))))
    ∧ (s.startable acc 0xA2 anyForm = some c → (s.slot (c.sqe.pfield 0 0 1)).valid = false →
      exec (.fwActivate acc) s = .next (s.keepOwned (s.finish c.acc St.fwSlotInvalid))))
  ∧ (∀ s : State, s.live = true → s.mgmt.selfTest.status = 1 →
    (∀ x, (s.mgmt.selfTest.units.all fun i => (s.island i).status = 3) = true → s.mgmt.selfTest.range = none →
      (s.mgmt.selfTest.asks.all s.memberGone) = true → s.mgmt.selfTest.ckptGood = true → s.mgmt.selfTest.linkGood = true →
      (s.mgmt.selfTest.marches.all fun i => (s.island i).status = 3) = true → s.mgmt.selfTest.patrol = 0 →
      (s.mgmt.selfTest.left.all fun r => (s.region r).st = .free) = true →
      x = { s.mgmt.selfTest with status := 2, seconds := (s.now - s.mgmt.selfTest.startedAt) / 1000000, units := [], range := none,
                                 marches := [], asks := [], ckpt := none, patrol := 0 } →
      exec (.selfTestComplete none) s
        = .next (s.keepOwned ((({ s with mgmt := { s.mgmt with selfTest := x } } : State).event Ev.selfTest 0 2 x.kind
            x.failedIsland).raisePfs .selfTestDone)))
    ∧ (∀ i t u, t = ({ s with mgmt := { s.mgmt with selfTest := { s.mgmt.selfTest with failedIsland := i } } } : State) →
      u = (if 114 ≤ i ∧ i < 162 ∧ (s.island i).status = 1
        then t.setTile (i - 114) { t.tile (i - 114) with running := none, queue := [] } else t) →
      exec (.selfTestComplete (some i)) s
        = .next (s.keepOwned
            (((if (66 ≤ i ∧ i < 98) ∨ (114 ≤ i ∧ i < 162) then u.beginMapOut i else u).selfTestEnds 3).run))))

/-- The recorder's commands, while the recorder is up: EVENT_CLEAR of a PF empties the recorder (R687), of a VF it sets that VF's
floor one above the newest record, or to the next SEQUENCE of an empty recorder (R688); HISTOGRAM_READ answers with a series or, for
0xFF, with the extremes (R692); EVENT_READ writes the records that the function is shown from the SEQUENCE it names, as far as the
buffer goes, and answers with their count and the SEQUENCE after the last (R691). CLOCK_SET stores the host's time and records
EV_CLOCK_SET with the seconds before and after; with no calendar before, the former seconds are a free value (R643). The recorder's own
work: the minute's series become the rolling ones and the lifetime series are snapshot and saved each 60 s (R693), the samples of a
second are counted in series 18 to 25 (R693), a record whose code R672 admits reaches the recorder, after what its find does to the
module (R675; log entry 49), the oldest pending records, at most 512, are programmed 100 ms after the last batch or once 512 are
pending (R677), and operating seconds are saved each 60 s (R680).
The model's choices: the former seconds without a calendar are open value 0x2109 (log entry 8), RESULT_HI and the bytes written of a read of
records are log entry 14, what a find behind a record does is log entry 49, and the saved series and seconds count from the verification of
their page (R680, R695; log entry 25). -/
def Obligations.RecorderRows : Prop :=
  (∀ (s : State) (acc : Nat) (c : Cmd),
      (s.startable acc 0xA9 anyForm = some c → s.recorder.up = true → c.fn.num = 0 →
        exec (.eventClear acc) s = .next (s.keepOwned ((s.clearRecords (some c.fn)).finish c.acc St.success)))
      ∧ (∀ q, s.startable acc 0xA9 anyForm = some c → s.recorder.up = true → c.fn.num ≠ 0 →
        q = (match s.recorder.records.getLast? with | some r => nextSequence r.seq | none => s.recorder.next) →
        exec (.eventClear acc) s
          = .next (s.keepOwned ((s.setFn c.fn { s.fn c.fn with floor := some q }).finish c.acc St.success)))
      ∧ (s.startable acc 0xAA anyForm = some c → s.recorder.up = true → c.sqe.pfield 0 0 8 ≠ 0xFF →
        exec (.histogramRead acc) s = .next (s.keepOwned (s.reply c (s.seriesPage (c.sqe.pfield 0 0 8)))))
      ∧ (s.startable acc 0xAA anyForm = some c → s.recorder.up = true → c.sqe.pfield 0 0 8 = 0xFF →
        exec (.histogramRead acc) s = .next (s.keepOwned (s.reply c s.extremesPage)))
      ∧ (∀ prev, s.startable acc 0xC2 anyForm = some c →
        prev = (match s.recorder.clock with
          | some (ns, at_) => (ns + (s.now - at_) * 1000) / 1000000000
          | none => (Config.openValue 0x2109 s.now).toNat) →
        exec (.clockSet acc) s
          = .next (s.keepOwned
              ((({ s with recorder := { s.recorder with clock := some (c.sqe.param 0 + c.sqe.param 1 * 2 ^ 32, s.now) } } : State).event
                Ev.clockSet 0 (prev % 2 ^ 32) ((c.sqe.param 0 + c.sqe.param 1 * 2 ^ 32) / 1000000000 % 2 ^ 32) 0).finish c.acc
                St.success)))
      ∧ (∀ l last, s.startable acc 0xA8 anyForm = some c → s.mayReply c = true → s.recorder.up = true →
        takeShown (s.shows c.fn) (c.total / 32)
          (s.recorder.records.filter fun r => atLeastGen r.seq (BitVec.ofNat 32 (c.sqe.param 0))) = (l, last) →
        exec (.eventRead acc) s
          = .next (s.keepOwned
              ((if c.silent = true ∨ l = [] then s
                else s.hostWrite c.fn (sliceBuffers (c.buffers.getD []) 0 (l.flatMap Record.bytes).length) (l.flatMap Record.bytes)).finish
                c.acc St.success (w32 l.length) (match last with | some r => nextSequence r.seq | none => s.recorder.next)))))
  ∧ ((∀ s t : State, s.live = true → s.recorder.up = true → s.recorder.intervalAt + 60000000 ≤ s.now →
        t = ({ s with recorder := { s.recorder with rolling := s.recorder.minute, minute := [], intervalAt := s.now } }
          : State).lifeSnapshot →
        exec .histogramIntervalEnd s = .next (s.keepVault t.saveSeries))
    ∧ (∀ (s t : State) (x : TempSample), s.live = true → s.recorder.up = true → s.recorder.droop50At + 1000000 ≤ s.now →
        t = { s with recorder := { s.recorder with droop50 := 0, droop25 := 0, droop50At := s.now, hottest := x.hottest } } →
        exec (.histogramSample x) s
          = .next (s.keepOwned
              ((((((((t.countLife 18 x.hottest (binOf x.hottest 0 32) x.hottestIsland).countLife 19 x.hbm0 (binOf x.hbm0 0 32) 0).countLife
                 20 x.hbm1 (binOf x.hbm1 0 32) 0).countLife 21 x.vault (binOf x.vault 0 32) x.vaultDie).countLife 22 x.powerDie
                 (binOf x.powerDie 0 32) 0).countLife 23 x.inputMw (binOf x.inputMw 0 5000) 0).countLife 24 s.recorder.droop50
                 (entryBin s.recorder.droop50) 0).countLife 25 s.recorder.droop25 (entryBin s.recorder.droop25) 0)))
    ∧ (∀ (s : State) (code : Nat) (src : RecordSrc) (p1 p2 p3 : Word), code % 4096 ≠ 0 → code < 0xF000 →
        exec (.recordAccept code src p1 p2 p3) s = .next (s.keepOwned ((s.foundBy code p1 p2 p3).record code src p1 p2 p3)))
    ∧ (∀ (s : State) (l : Store (List (BitVec 32))), s.vaultOn = true → s.recorder.up = true → s.recorder.pending ≠ 0 →
        s.recordsBusy = false → (s.recorder.commitAt + 100000 ≤ s.now ∨ 512 ≤ s.recorder.pending) → l = s.recorder.nextParts →
        exec .recorderCommit s
          = .next (s.keepVault
              (({ s with recorder := { s.recorder with commitAt := s.now } } : State).vprogram .journalStream (s.recorder.partContent l)
                [.recordsPart l])))
    ∧ (∀ s : State, s.vaultOn = true → s.life.opSavedAt + 60000000 ≤ s.now →
        exec .operatingSecondsSave s
          = .next (s.keepVault (({ s with life := { s.life with opSavedAt := s.now } } : State).vprogram .journalStream
              [(.records 1, 0, trim (toLe 8 s.opSeconds))] [.secondsPart s.opSeconds]))))

/-- The host's pack commands. PACK_REPLACED resets what was learned and records EV_PACK_REPLACED, and a MISMATCH, or a CHARGE_HOLD for
over-voltage or the timer, returns to IDENTIFY; with no pack declared it is refused (R454). PACK_LEARN names why it is refused, else
marks a run as pending, which starts at once where the rest point in FULL is held (R445). Its abort form ends a pending or running run
with result 3, a running one going on to charge, and answers 5 where there is none (R446). SHIP_MODE from the states of R436 that lead
to SHIP_ARMED arms, with E_avail 0 from then on; an armed pack stays armed, and another state refuses (R449). Its cancel form takes
SHIP_ARMED back to IDENTIFY, or to ABSENT where no pack is present (DEDUCED 26), marks SHIP as cancelled, and answers 1 in any other state (R449).
RESULT and the refusals are R640's. The model's choices: the refusal in SHIP and MISMATCH and arming an armed pack (log entry 27), and the
immediate start of PACK_LEARN (log entry 26). -/
def Obligations.PackCommands : Prop :=
  ∀ (s : State) (acc : Nat) (c : Cmd),
    (s.startable acc 0xB0 anyForm = some c → s.pack.st = .notDeclared →
      exec (.packReplaced acc) s = .next (s.keepOwned ((s.finish c.acc St.packRefused 1).run)))
    ∧ (∀ t, s.startable acc 0xB0 anyForm = some c → s.pack.st ≠ .notDeclared →
      t = s.resetLearned.dieEvent Ev.packReplaced s.pack.cLearned s.pack.nominal 0 →
      (s.pack.st = .mismatch
          ∨ (s.pack.st = .chargeHold ∧ (s.pack.holdCause = some .overVolt ∨ s.pack.holdCause = some .timer)) →
        exec (.packReplaced acc) s = .next (s.keepOwned (((t.packTo .identify).finish c.acc St.success).run)))
      ∧ (s.pack.st ≠ .mismatch →
        (s.pack.st ≠ .chargeHold ∨ (s.pack.holdCause ≠ some .overVolt ∧ s.pack.holdCause ≠ some .timer)) →
        exec (.packReplaced acc) s = .next (s.keepOwned ((t.finish c.acc St.success).run))))
    ∧ (s.startable acc 0xB1 (fun e => !e.pbit 0 0) = some c → s.learnRefusal ≠ 0 →
      exec (.packLearn acc) s = .next (s.keepOwned ((s.finish c.acc St.packRefused (w32 s.learnRefusal)).run)))
    ∧ (∀ t, s.startable acc 0xB1 (fun e => !e.pbit 0 0) = some c → s.learnRefusal = 0 →
      t = s.setFlags (fun p => { p with learnPending := true }) →
      exec (.packLearn acc) s
        = .next (s.keepOwned (((if t.pack.restInFull t.stateDie = true then t.learnStart else t).finish c.acc St.success).run)))
    ∧ (s.startable acc 0xB1 (fun e => e.pbit 0 0) = some c → s.pack.learning = false →
      exec (.packLearnAbort acc) s = .next (s.keepOwned ((s.finish c.acc St.success 5).run)))
    ∧ (s.startable acc 0xB1 (fun e => e.pbit 0 0) = some c → s.pack.learning = true →
      (s.pack.st = .learnDischarge ∨ s.pack.st = .learnRest) →
      exec (.packLearnAbort acc) s = .next (s.keepOwned ((((s.learnEnds 3 0).toCharge .cc).finish c.acc St.success).run)))
    ∧ (s.startable acc 0xB1 (fun e => e.pbit 0 0) = some c → s.pack.learning = true → s.pack.st ≠ .learnDischarge →
      s.pack.st ≠ .learnRest →
      exec (.packLearnAbort acc) s = .next (s.keepOwned (((s.learnEnds 3 0).finish c.acc St.success).run)))
    ∧ (∀ t, s.startable acc 0xB2 (fun e => !e.pbit 0 0) = some c → 2 ≤ s.pack.st.code → s.pack.st.code ≤ 10 →
      s.pack.st ≠ .shipArmed →
      t = ((s.learnAbort.packTo .shipArmed).dieEvent Ev.packShip 0 0 0).updPack (fun p => { p with eAvailMj := 0 }) →
      exec (.shipModeArm acc) s
        = .next (s.keepOwned
            ((({ t with link := { t.link with eAvailMj := 0 } } : State).energyChanged.finish c.acc St.success).run)))
    ∧ (s.startable acc 0xB2 (fun e => !e.pbit 0 0) = some c → s.pack.st = .shipArmed →
      exec (.shipModeArm acc) s = .next (s.keepOwned ((s.finish c.acc St.success).run)))
    ∧ (s.startable acc 0xB2 (fun e => !e.pbit 0 0) = some c → s.pack.st ≠ .shipArmed → (s.pack.st.code < 2 ∨ 10 < s.pack.st.code) →
      exec (.shipModeArm acc) s = .next (s.keepOwned ((s.finish c.acc St.packRefused 1).run)))
    ∧ (s.startable acc 0xB2 (fun e => e.pbit 0 0) = some c → s.pack.st = .shipArmed →
      exec (.shipModeCancel acc) s
        = .next (s.keepOwned (((s.toIdentify.dieEvent Ev.packShip 3 0 0).finish c.acc St.success).run)))
    ∧ (s.startable acc 0xB2 (fun e => e.pbit 0 0) = some c → s.pack.st = .ship →
      exec (.shipModeCancel acc) s
        = .next (s.keepOwned ((((s.updPack fun p => { p with shipCancelled := true }).dieEvent Ev.packShip 3 0 0).finish c.acc
            St.success).run)))
    ∧ (s.startable acc 0xB2 (fun e => e.pbit 0 0) = some c → s.pack.st ≠ .shipArmed → s.pack.st ≠ .ship →
      exec (.shipModeCancel acc) s = .next (s.keepOwned ((s.finish c.acc St.success 1).run)))

/-- SLOT_CONTROL (R642), whatever commands wait for the slot. POWER_ON ends a button window; a slot whose power is good completes at
once, else power is started where it is off, and the command waits for the slot. POWER_OFF ends a button window and is
refused where a live member is protected, neither the slot's policy nor FORCE allowing it (R306); with power off already the member
fails and the command completes, a power-off that runs already is waited for, which ends a power-on that waits with RESULT 1 (the model's
choice, log 20), and else the member fails, power goes off and the
command waits. LOCATE_ON and LOCATE_OFF set the indicator and wait for the scan that shifts it out (R307). AUTOMATIC_POWER (R303)
and BUTTON_POLICY (R305) take effect at once. -/
def Obligations.SlotCommands : Prop :=
  ∀ (s t : State) (acc n : Nat) (c : Cmd), n = c.sqe.slotNo → t = s.cancelWindow n →
    (s.startable acc 0xC1 (fun e => e.pfield 0 8 3 = 0) = some c →
      exec (.slotPowerOn acc) s
        = .next (s.keepOwned
            ((if (t.port n).pwrEn = true ∧ (t.port n).sawGood = true ∧ (t.port n).offAt = none then t.finish acc St.success
              else if (t.port n).pwrEn = true then t.slotWait acc n
              else (t.slotOn n).slotWait acc n).run)))
    ∧ (s.startable acc 0xC1 (fun e => e.pfield 0 8 3 = 1) = some c →
      exec (.slotPowerOff acc) s
        = .next (s.keepOwned
            ((if t.slotProtected n = true ∧ (t.port n).buttonPolicy = false ∧ c.sqe.pbit 0 16 = false then t.finish acc St.slotRefused
              else if (t.port n).pwrEn = false then (if t.memberLive n = true then t.failMember n 7 false else t).finish acc St.success
              else if (t.port n).offAt ≠ none then (t.slotEnd n [0] false 1).slotWait acc n
              else (t.failAndOff n).slotWait acc n).run)))
    ∧ (s.startable acc 0xC1 (fun e => e.pfield 0 8 3 = 2) = some c →
      exec (.slotLocateOn acc) s
        = .next (s.keepOwned ((((s.updPort n fun x => { x with locate := true }).indicate n).slotWait acc n).run)))
    ∧ (s.startable acc 0xC1 (fun e => e.pfield 0 8 3 = 3) = some c →
      exec (.slotLocateOff acc) s
        = .next (s.keepOwned ((((s.updPort n fun x => { x with locate := false }).indicate n).slotWait acc n).run)))
    ∧ (s.startable acc 0xC1 (fun e => e.pfield 0 8 3 = 4) = some c →
      exec (.slotAutomaticPower acc) s
        = .next (s.keepOwned (((s.updPort n fun x => { x with autoPower := c.sqe.pbit 0 17 }).finish acc St.success).run)))
    ∧ (s.startable acc 0xC1 (fun e => e.pfield 0 8 3 = 5) = some c →
      exec (.slotButtonPolicy acc) s
        = .next (s.keepOwned (((s.updPort n fun x => { x with buttonPolicy := c.sqe.pbit 0 17 }).finish acc St.success).run)))

/-- PAIR_CONTROL and ARRAY_IMPORT. BIND writes the partner's identity into the labels where the module is READY and its partner answers
in STANDBY and the array is its own, else it is refused; UNBIND clears the identity where the module's array is its own; DISCARD_DUMP releases a held dump and
journal, and each records EV_PAIR_BOUND (R496). ARRAY_IMPORT is refused without a foreign array, and with a dump held unless it says to
discard it; else it releases what is held of dump and journal, preempts every drive, reads the array anew, writes itself as owner into the labels, resumes
the regions, marks those that the activity bitmap names for a check, and the command waits for them (R527).
The statuses are R641's. The model's choices: UNBIND by a module that is not the owner is refused and DISCARD_DUMP with nothing held
succeeds (log entry 30), and what ARRAY_IMPORT reads of the drives is a free value (log entry 29). -/
def Obligations.PairCommands : Prop :=
  ∀ (s : State) (acc : Nat) (c : Cmd),
    (∀ p, s.startable acc 0xB9 (fun e => e.pfield 0 0 2 = 0) = some c → s.pair.partner = some p → s.life.st = .ready →
      s.pair.partnerPresent = true → s.pair.partnerStandby = true → s.foreignHere = false →
      exec (.pairBind acc) s
        = .next (s.keepOwned (((s.writeLabels fun l => { l with partnerId := p }).pairBound 0 p).finish c.acc St.success)))
    ∧ (s.startable acc 0xB9 (fun e => e.pfield 0 0 2 = 0) = some c →
      (s.pair.partner = none ∨ s.life.st ≠ .ready ∨ s.pair.partnerPresent = false ∨ s.pair.partnerStandby = false
        ∨ s.foreignHere = true) →
      exec (.pairBind acc) s = .next (s.keepOwned (s.finish c.acc St.pairRefused)))
    ∧ (s.startable acc 0xB9 (fun e => e.pfield 0 0 2 = 1) = some c → s.foreignHere = false →
      exec (.pairUnbind acc) s
        = .next (s.keepOwned (((s.writeLabels fun l => { l with partnerId := 0 }).pairBound 1 s.partnerId).finish c.acc St.success)))
    ∧ (s.startable acc 0xB9 (fun e => e.pfield 0 0 2 = 1) = some c → s.foreignHere = true →
      exec (.pairUnbind acc) s = .next (s.keepOwned (s.finish c.acc St.pairRefused)))
    ∧ (∀ t, s.startable acc 0xB9 (fun e => e.pfield 0 0 2 = 2) = some c →
      t = (if s.life.held = true
        then { s.releaseDump.releaseJournal with life := { s.releaseDump.releaseJournal.life with held := false } } else s) →
      exec (.pairDiscardDump acc) s = .next (s.keepOwned ((t.pairBound 2 s.pairedWith).finish c.acc St.success)))
    ∧ (s.startable acc 0xB8 anyForm = some c →
      (s.pair.label = none ∨ s.foreignHere = false ∨ (s.life.held = true ∧ c.sqe.pfield 0 0 1 ≠ 1)) →
      exec (.arrayImport acc) s = .next (s.keepVault (s.finish c.acc St.importRefused)))
    ∧ (∀ l, s.startable acc 0xB8 anyForm = some c → s.pair.label = some l → s.foreignHere = true →
      (s.life.held = false ∨ c.sqe.pfield 0 0 1 = 1) →
      exec (.arrayImport acc) s
        = .next (s.keepVault
            (let r : State := if s.life.held = true
               then { s.releaseDump.releaseJournal with life := { s.releaseDump.releaseJournal.life with held := false } } else s
             let a : ArrayImage := readArray (Config.drivesAt r.now)
             let r : State := { r with mgmt := { r.mgmt with importing := some (c.acc, l.ownerId, 0) } }
             let r : State := (r.preemptAll.loadImage { a with label := some (a.label.getD l) } true false).owedFound.importState
             let u : State := ((r.writeLabels fun l => { l with ownerId := Config.identity, partnerId := 0, takeover := true }).undoInits
               ).regionsResume.assignLogs.settleEvent
             let m := u.checkMarked u.pair.bitmap
             let v : State := m.2.2.event Ev.takeoverNoDump m.2.2.sideNo m.1.length m.2.1.length 0
             let x : State := v.updCmd c.acc fun c => { c with phase := .running }
             ({ x with mgmt := { x.mgmt with importing := some (c.acc, l.ownerId, m.1.length) } } : State).importProgress)))

/-- Drive requests, on a port whose link is up. A completion of an I/O request is handled while the controller answers (R279), and
discarded but for the port's drain in a fence pass, where the end of its reservation's release gates the port (R514); one of a bring-up step advances the bring-up (R276); the health log's may show
a critical warning (R293), an Abort's lets the next one out (R287), the Reservation Report's names the holder to preempt (R309). A write not completed for 1 s is counted and recorded once
(R312); a request past its hard timeout is answered TIMEOUT, counted, recorded, quarantined and aborted, and the third within 600 s
fails the member (R286, criterion 3 of R292); 30 s in quarantine, or of an admin command, reset the controller (R289).
The model's choices (log entry 19): the timers run only while the port can issue, and opcode 01h stands in the record of a slow write. -/
def Obligations.DriveRequests : Prop :=
  (∀ (s : State) (p id : Nat) (st : DriveStatus) (data : List SegData), s.life.inReset = false → (s.port p).linkUp = true →
      (s.lehrOn = false → ((s.port p).ctl = .ready ∨ (s.port p).ctl = .disabling) →
        exec (.driveCompletion p (.io id st data)) s = .next (s.keepOwned ((s.ioReply p id st data).run)))
      ∧ (s.lehrOn = true → s.life.fenceDrain.isSome = true →
        exec (.driveCompletion p (.io id st data)) s
          = .next (s.keepOwned ((s.updPort p fun x => { x with reqs := x.reqs.del id }).fencePort p)))
      ∧ (∀ ok info, s.lehrOn = true → s.life.fenceDrain.isSome = true →
        exec (.driveCompletion p (.admin ok info)) s = .next (s.keepOwned (s.fenceReleased p ok))))
  ∧ (∀ (s : State) (p : Nat), s.live = true → (s.port p).linkUp = true →
      (∀ ok info, exec (.driveCompletion p (.admin ok info)) s = .next (s.keepOwned ((s.adminReply p ok info).run)))
      ∧ (∀ critical, (s.port p).admin.any (fun a => a.1 = AdminOp.health) = true →
        exec (.driveCompletion p (.health critical)) s
          = .next (s.keepOwned
              ((if critical = true then ((s.adminDone p .health).adminFreed p).criticalWarning p
                else (s.adminDone p .health).adminFreed p).run)))
      ∧ (∀ q, (s.port p).admin.any (fun a => a.1 = AdminOp.abort q) = true →
        exec (.driveCompletion p (.aborted q)) s = .next (s.keepOwned (s.abortDone p q)))
      ∧ (∀ key, (s.port p).admin.any (fun a => a.1 = AdminOp.report) = true →
        exec (.driveCompletion p (.holder key)) s = .next (s.keepOwned ((s.holderRead p key).run)))
      ∧ ((s.port p).admin.any (fun a => s.now ≥ a.2 + 30000000) = true →
        exec (.adminCommandTimeout p) s = .next (s.keepOwned ((s.resetController p .adminTimeout).run))))
  ∧ (∀ (s : State) (p q t : Nat) (r : Req), s.live = true → (s.port p).reqs.look q = some r → r.submittedAt = some t → r.write = true →
      r.softCounted = false → r.quarantined = none → (s.port p).canIssue = true → t + 1000000 ≤ s.now →
      exec (.softTimeout p q) s
        = .next (s.keepOwned
            (((s.updPort p fun x => { x with reqs := x.reqs.put q { r with softCounted := true } }).countMember p
               fun m => { m with softTimeouts := sat32 m.softTimeouts }).event Ev.memberSoftTimeout p p 1 r.slotNo.1)))
  ∧ (∀ (s u v w : State) (p q t : Nat) (r : Req) (times : List Nat), s.live = true → (s.port p).reqs.look q = some r →
      r.submittedAt = some t → r.quarantined = none → (s.port p).canIssue = true → t + s.hardUs p ≤ s.now →
      u = s.updPort p (fun x => { x with reqs := x.reqs.put q { r with quarantined := some s.now }, aborts := x.aborts ++ [q] }) →
      times = (match u.members.look p with
        | some m => (m.hardTimes.filter fun v => u.now < v + 600000000) ++ [u.now]
        | none => [u.now]) →
      v = u.countMember p (fun m => { m with hardTimeouts := sat32 m.hardTimeouts, hardTimes := times }) →
      w = ((v.event Ev.memberHardTimeout p p (r.slotNo.2 + r.slotNo.1 * 2 ^ 16) times.length).sendAborts p).later
        (.reqDone p q r .timeout) →
      exec (.hardTimeout p q) s
        = .next (s.keepOwned ((if 3 ≤ times.length ∧ w.memberLive p = true then w.later (.fail p 3 false) else w).run)))
  ∧ (∀ (s : State) (p q t : Nat) (r : Req), s.live = true → (s.port p).reqs.look q = some r → r.quarantined = some t →
      (s.port p).canIssue = true → t + 30000000 ≤ s.now →
      exec (.quarantineTimeout p q) s = .next (s.keepOwned ((s.resetController p .quarantine).run)))

/-- Controllers, on a port whose link is up: one that reads disabled releases its quarantine and its bring-up starts (R290); one whose
reset has not reached its level within CAP.TO (R291), and one that is on and reports a fatal status (R292), is given up as a failure of
its reset or reset; the health log is polled each 60 s while no read of it runs (R276), and one that arrives at once with a critical
warning is handled as one (R293); an asynchronous event with a critical warning is
handled as one, and another changes nothing (R293).
How a failure within a reset counts is the model's reading (log entries 19, 48). -/
def Obligations.ControllerRows : Prop :=
  ∀ (s : State) (p : Nat), s.live = true → (s.port p).linkUp = true →
    ((s.port p).ctl = .disabling → exec (.controllerDisabled p) s = .next (s.keepOwned (((s.dropQuarantine p).adminStep p 1).run)))
    ∧ (((s.port p).ctl = .disabling ∨ (s.port p).ctl = .bringUp 1) → (s.port p).resetWhy.isSome = true →
      (s.port p).rdySince + (s.port p).capTo * 500000 ≤ s.now →
      exec (.controllerResetTimeout p) s = .next (s.keepOwned ((s.controllerFatal p).run)))
    ∧ ((s.port p).ctl ≠ .off → (s.port p).ctl ≠ .unused → (s.port p).ctl ≠ .failed →
      exec (.controllerFatalStatus p) s = .next (s.keepOwned ((s.controllerFatal p).run)))
    ∧ ((s.port p).ctl = .ready → (s.port p).pollAt + 60000000 ≤ s.now →
      (s.port p).admin.any (fun a => a.1 = AdminOp.health) = false → (s.port p).admin.length < 31 →
      ∀ u, u = ((s.updPort p fun x => { x with pollAt := s.now }).adminSend p .health).emit (.driveAdmin p 8) →
      exec (.smartPoll p none) s = .next (s.keepOwned u)
      ∧ exec (.smartPoll p (some true)) s = .next (s.keepOwned ((((u.adminDone p .health).adminFreed p).criticalWarning p).run))
      ∧ exec (.smartPoll p (some false)) s = .next (s.keepOwned (((u.adminDone p .health).adminFreed p).run)))
    ∧ ((s.port p).ctl = .ready →
      exec (.asynchronousEvent p true) s = .next (s.keepOwned ((s.criticalWarning p).run))
      ∧ exec (.asynchronousEvent p false) s = .next (s.keepOwned s))

/-- Drive links. A link trains at the best rate and width that both ends support: the port takes its registers, records
EV_PORT_LINK_DEGRADED below 32 GT/s or x2 (R272), and, after a hold, EV_PORT_LINK_DOWN, and counts it, drops the quarantine and resets the
controller; an endpoint's bring-up then starts, another device is unusable, and a drive
that has been found unusable stays so; a link that comes back after 100 ms finds the hold over
(R271, R273, R295). A link that drops holds its requests for 100 ms, and with presence deasserted the drive has gone: a member is REMOVED at once
(R295, R301); at 100 ms the member fails, or a port without one drops its requests (R292; the latter the model's choice, log entry 55). A link not up within 1 s of PERST is recorded
and a member there fails; PERST rises 100 ms after power is good (R274); the settle time after a preempt ends (R519).
The model's choices: a reset keeps its first reason (log entry 19), and a drive whose link does not come up is unusable (log entry 48). -/
def Obligations.DriveLinks : Prop :=
  (∀ (s u v w x : State) (p : Nat) (sp : List LinkSpeed) (wd : List Nat) (far : DriveLink) (g : LinkSpeed) (n : Nat), s.live = true → (s.port p).perst = false →
      (s.port p).linkUp = false → ((s.port p).ctl ≠ .unused ∨ (s.port p).linkDownAt.isSome = true) → (s.island p).status = 0 →
      bestSpeed sp = some g → bestWidth wd = some n →
      u = s.updPort p (fun x => { x with linkUp := true, speed := some g, width := n, linkDownAt := none, capTo := far.capTo,
                                         maxPayload := min rootPort.maxPayload far.maxPayload }) →
      v = (if g ≠ .g32 ∨ n < 2 then u.event Ev.portLinkDegraded p p g.gts n else u) →
      ((s.port p).linkDownAt = none → w = v) →
      (∀ t, (s.port p).linkDownAt = some t → s.now ≤ t + 100000 →
        x = (v.event Ev.portLinkDown p p ((v.now - t) / 1000) 0).countMember p (fun m => { m with linkDowns := sat32 m.linkDowns })
        ∧ w = (if (s.port p).ctl = .unused then x
          else (x.dropQuarantine p).updPort p (fun x => { x with resetWhy := some (x.resetWhy.getD .linkReturn) }))) →
      (∀ t, (s.port p).linkDownAt = some t → s.now ≤ t + 100000) →
      exec (.driveLinkUp p sp wd far) s
        = .next (s.keepOwned
            ((if (s.port p).ctl = .unused then w else if far.endpoint = true then w.adminStep p 1 else w.driveUnusable p 0).run)))
  ∧ (∀ (s : State) (p t : Nat) (sp : List LinkSpeed) (wd : List Nat) (far : DriveLink), s.live = true → (s.port p).perst = false → (s.port p).linkUp = false →
      (s.island p).status = 0 → (bestSpeed sp).isSome = true → (bestWidth wd).isSome = true →
      (s.port p).linkDownAt = some t → t + 100000 < s.now →
      exec (.driveLinkUp p sp wd far) s = .next (s.keepOwned ((s.holdOver p).run)))
  ∧ (∀ (s u : State) (p : Nat), s.live = true → (s.port p).linkUp = true →
      u = s.updPort p (fun x => { x with linkUp := false, linkDownAt := some s.now, admin := [],
                                         ctl := if x.ctl = .unused || x.ctl = .failed then x.ctl else .training }) →
      exec (.driveLinkDown p) s
        = .next (s.keepOwned
            ((if (s.port p).prsntN = true then
                (if u.members.has p = true then u.failMember p 1 true else (u.absentAll p).assertPerst p).updPort p fun x =>
                  { x with info := none, unusable := false }
              else u).run)))
  ∧ (∀ (s u : State) (p t : Nat), s.live = true → (s.port p).linkDownAt = some t → t + 100000 ≤ s.now →
      u = ((s.event Ev.portLinkDown p p 0xFFFFFFFF 0).updPort p fun x => { x with linkDownAt := none }).resetEnds p false →
      exec (.linkDownHoldExpiry p) s
        = .next (s.keepOwned ((if u.memberLive p = true then u.failMember p 2 false else (u.absentAll p).assertPerst p).run)))
  ∧ (∀ (s u : State) (p : Nat), s.live = true → (s.port p).perst = false → (s.port p).linkUp = false → (s.port p).ctl = .training →
      (s.port p).linkDownAt = none → (s.port p).perstAt + 1000000 ≤ s.now →
      u = (s.updPort p fun x => { x with ctl := .unused, unusable := true, poweringOn := false }).event Ev.portNoLink p p 0 0 →
      exec (.portNoLink p) s = .next (s.keepOwned ((if u.memberLive p = true then u.failMember p 2 false else u).run)))
  ∧ (∀ (s : State) (p t : Nat), s.live = true → (s.port p).goodAt = some t → (s.port p).perst = true → (s.port p).pwrEn = true →
      (s.port p).pwrGood = true → t + 100000 ≤ s.now →
      exec (.drivePerstDeassert p) s
        = .next (s.keepOwned
            ((s.updPort p fun x => { x with perst := false, perstAt := s.now, goodAt := none, ctl := .training, unusable := false,
                                            linkUp := false, info := none }).emit (.drivePerst p false))))
  ∧ (∀ (s : State) (p t : Nat), s.live = true → (s.port p).settle = some t → t + s.hardUs p ≤ s.now →
      exec (.driveSettle p) s = .next (s.keepOwned (((s.updPort p fun x => { x with settle := none }).pumpPort p).run)))

/-- Hedging. At its delay, the pool's threshold or half of it for a SLOW or SUSPECT member, a hedgeable member read is hedged (R247), or
refused and counted where the limit of the interval is reached (R250). Each second an interval ends: the pool's refusals are recorded
once, its reads become those of the previous interval and the counts start anew (R250), and the estimates of every pool and member are
made anew (R242). 50 ms after its delivery a hedged READ gives up its shared interlock, or, where late data has differed already, hands
it on to the resolution of the difference, and what still comes late goes uncompared (R253).
That the two intervals of 1 s have clocks of their own is the model's reading (log entry 18). -/
def Obligations.HedgeRows : Prop :=
  (∀ (s : State) (k : Nat) (x : Task), s.live = true → s.tasks.look k = some x → x.stage = .late → x.deliveredAt + 50000 ≤ s.now →
      (x.late = [] →
        exec (.hedgeHoldTimeout k) s
          = .next (s.keepOwned (((s.updTask k fun x => { x with stage := .uncompared }).releaseLock k x.region x.stripe).run)))
      ∧ (x.late ≠ [] → exec (.hedgeHoldTimeout k) s = .next (s.keepOwned ((s.holdEnds k).run))))
  ∧ (∀ s u : State, s.live = true → s.mgmt.hedgeAt + 1000000 ≤ s.now →
      u = s.over s.pools (fun s e =>
        let v : State := if e.2.refusedNow > 0
          then s.event Ev.hedgeLimit 0 e.1 (max 1000 (e.2.readsPrev * 5 / 100)) e.2.refusedNow else s
        { v with pools := v.pools.put e.1 { e.2 with hedgesNow := 0, refusedNow := 0, readsPrev := e.2.readsNow, readsNow := 0 } }) →
      exec .hedgeIntervalEnd s = .next (s.keepOwned { u with mgmt := { u.mgmt with hedgeAt := u.now } }))
  ∧ (∀ s u : State, s.live = true → s.mgmt.estimateAt + 1000000 ≤ s.now →
      u = (s.over s.pools.keys fun s id => s.poolEstimate id).over
        (s.over s.pools.keys fun s id => s.poolEstimate id).members.keys (fun s p => s.memberEstimate p) →
      exec .hedgeThresholdUpdate s = .next (s.keepOwned (({ u with mgmt := { u.mgmt with estimateAt := u.now } } : State).run)))
  ∧ (∀ (s u : State) (p q t thr : Nat) (r : Req) (m : Member) (x : Task) (y : Pool), s.live = true → (s.port p).reqs.look q = some r →
      s.members.look p = some m → s.tasks.look r.task = some x → s.pools.look m.pool = some y →
      x.hedgeFrom r = some t → y.threshold? = some thr → r.write = false → r.hedgeable = true → r.quarantined = none →
      x.hedged.contains q = false → x.reads.contains (q, r.pos) = true →
      (thr ≤ s.now - t ∨ ((m.st = .slow ∨ m.st = .suspect) ∧ thr ≤ 2 * (s.now - t))) →
      u = s.updTask r.task (fun x => { x with hedged := x.hedged ++ [q] }) →
      (y.hedgesNow < max 1000 (y.readsPrev * 5 / 100) →
        exec (.hedgeDelay p q) s = .next (s.keepOwned ((u.startHedge p q r x m.pool).run)))
      ∧ (max 1000 (y.readsPrev * 5 / 100) ≤ y.hedgesNow →
        exec (.hedgeDelay p q) s
          = .next (s.keepOwned { u with pools := u.pools.upd m.pool fun p => { p with refusedNow := p.refusedNow + 1 },
                                        volumes := u.volumes.upd x.vol fun v => { v with hedgesRefused := sat32 v.hedgesRefused } })))

/-- Rebuild and moves: while the governor grants class 0, the first region of the queue that may start takes a free place or, where it
ranks as urgent, the place of a region that gives way (R316, R317); a region in work issues its next stripe, with at most 8 in flight
(R321, R322);
a stripe halted for 600 s is tried again (R323); starvation of 60 s is recorded once for its episode (R351); the first region that owes a move starts it, with at most 256
at once, and a RELOCATING one is placed again (R339). Scrub: a pass starts from stripe 0 when the one before and its period are over, and
one not done by the end of its period is recorded once (R347); SCRUB_STRIPE issues a stripe of the checks that come before READY or an
import, else of a region with CHECK_PENDING, else of an extended self-test, else of the running pass (R348).
The order of SCRUB_STRIPE and the first pass (log entry 23) are read from R347 to R350, and that a period of 0 lets a pass go on is log
entry 43. -/
def Obligations.RebuildAndScrubRows : Prop :=
  ((∀ (s : State) (r : Nat), s.tends = true → s.gov.shares.getD 0 0 ≠ 0 →
        s.rebuildQueue.find? (fun r => s.unpaused r && s.maySeek r && !((s.region r).st = .rebuilding && s.haltedNow r)) = some r →
        (s.rebuilding.length < rebuildPlaces → exec .rebuildRegionStart s = .next (s.keepOwned ((s.beginRebuild r).run)))
        ∧ (∀ q, rebuildPlaces ≤ s.rebuilding.length → (s.region r).urgentRank = true → s.preemptible = some q →
          exec .rebuildRegionStart s
            = .next (s.keepOwned (((s.updWork q fun w => { w with place := false, queued := true }).beginRebuild r).run))))
    ∧ (∀ (s : State) (r k : Nat), s.tends = true → s.unpaused r = true → s.moves r = true → (s.workOf r).restartAt0 = false →
        (s.flying r).length < 8 → s.mayStart (s.workClass r) = true → s.nextStripe r = some k →
        exec (.rebuildStripeStart r) s = .next (s.keepOwned ((s.issueStripe r k).run)))
    ∧ (∀ (s : State) (r k t : Nat), s.live = true → (k, t) ∈ (s.workOf r).halted → t + 600000000 ≤ s.now →
        exec (.rebuildRetryTimer r) s
          = .next (s.keepOwned (s.updWork r fun w => { w with halted := w.halted.filter fun h => s.now < h.2 + 600000000 })))
    ∧ (∀ (s : State) (id t : Nat) (p : Pool), s.live = true → s.pools.look id = some p → p.starvedSince = some t →
        p.starvedRecorded = false → (s.critWaiting id).isEmpty = false → s.gov.shares.getD 0 0 = 0 → t + 60000000 ≤ s.now →
        exec (.rebuildStarved id) s
          = .next (s.keepOwned (({ s with pools := s.pools.put id { p with starvedRecorded := true } } : State).event Ev.rebuildStarved
              id id (s.critWaiting id).length 0)))
    ∧ (∀ (s : State) (r : Nat), s.tends = true → s.usedRegions.find? s.owesMove = some r →
        ((s.region r).st = .relocating → exec .moveStart s = .next (s.keepOwned ((s.replaceAgain r).run)))
        ∧ ((s.region r).st ≠ .relocating → (s.usedRegions.filter fun r => (s.region r).st = .relocating).length < 256 →
          exec .moveStart s = .next (s.keepOwned ((s.startMove r).run)))))
  ∧ ((∀ (s : State) (id : Nat) (p : Pool), s.tends = true → s.life.starting = false → s.pools.look id = some p → p.foreign_ = false →
        p.scrubDays ≠ 0 → p.scrubAt = none → (p.scrubStarted = 0 ∨ p.scrubStarted + periodUs p.scrubDays ≤ s.now) →
        exec (.scrubPassStart id) s
          = .next (s.keepOwned { s with pools := s.pools.put id { p with scrubAt := some (0, 0), scrubStarted := s.now,
                                                                         scrubBehind := false } }))
    ∧ (∀ (s : State) (id r k : Nat) (p : Pool), s.live = true → s.pools.look id = some p → p.scrubAt = some (r, k) →
        p.scrubBehind = false → p.scrubDays ≠ 0 → p.scrubStarted + periodUs p.scrubDays ≤ s.now →
        exec (.scrubPeriodEnd id) s
          = .next (s.keepOwned (({ s with pools := s.pools.put id { p with scrubBehind := true } } : State).event Ev.scrubBehind id id
              ((s.poolRegions id).filter fun q => r ≤ q).length p.scrubDays)))
    ∧ (∀ (s : State) (id : Nat) (p : Pool) (early : Prop) (pending : List Nat), s.live = true → s.life.st ≠ .fenced →
        s.life.st ≠ .failed → s.pools.look id = some p →
        (early ↔ ((s.life.starting = true ∧ 9 ≤ s.life.step) ∨ s.mgmt.importing.isSome = true) ∧ s.life.checksFirst ≠ []) →
        pending = (s.regions.filter fun e => e.2.checkPending).map (·.1) →
        (∀ r, early → s.toCheck id s.life.checksFirst = some r →
          exec (.scrubStripe id) s = .next (s.keepOwned ((s.checkStripe r false).run)))
        ∧ (¬ early → s.life.starting = false → s.life.st ≠ .standby → p.foreign_ = false →
          (∀ r, s.toCheck id pending = some r → s.mayStart 2 = true →
            exec (.scrubStripe id) s = .next (s.keepOwned ((s.checkStripe r true).run)))
          ∧ (∀ r, s.toCheck id pending = none → s.testRegions = true → s.toCheck id s.mgmt.selfTest.left = some r →
            s.mayStart 2 = true → exec (.scrubStripe id) s = .next (s.keepOwned ((s.checkStripe r true).run)))
          ∧ (∀ r k, s.toCheck id pending = none →
            (s.testRegions = false ∨ s.toCheck id s.mgmt.selfTest.left = none) → p.scrubAt = some (r, k) →
            exec (.scrubStripe id) s = .next (s.keepOwned ((s.passStep id p r k).run))))))

/-- Slots. A scan, at most one each 520 µs, takes a byte of 64 slots from SLOT_SI and shifts out their outbound bits (R296, R297). A level
of PRSNT_N that has stood for 39 scans before this one is accepted (R300): a drive that appears ends a conflict, or gets PERST_N timing
where power is on, or is powered on where the slot's policy says so; one that goes while its link is up is a conflict, else its member
is REMOVED. Power good starts the 100 ms to PERST_N's rise and ends a POWER_ON command (R303). Power not good after 100 ms turns the
slot off as a fault and fails its member (R304). PWR_EN falls 1 ms after PERST_N (R306). The button opens a window of 5 s, or cancels
one, at whose end power goes on or off or is refused; a refusal shows for 5 s (R305).
The model's choices (log entries 20, 53): levels stand after 39 equal scans, power good and the button's window act at once, and how long a
power-on or a fault lasts for the button. -/
def Obligations.SlotRows : Prop :=
  (∀ (s u : State) (b : BitVec 512), s.live = true → (∀ t, s.mgmt.scanAt = some t → t + 520 ≤ s.now) →
      u = s.over (span 0 64) (fun s n => s.scanSlot n (inboundByte b n)) →
      exec (.slotScan b) s
        = .next (s.keepOwned (({ u with mgmt := { u.mgmt with scanAt := some u.now } } : State).emit
            (.slotBits (outboundBits fun n => (u.port n).shifted)))))
  ∧ (∀ (s u : State) (n : Nat), s.live = true → (s.port n).prsntN = true → (s.port n).prsntRaw = (false, 39) →
      u = s.updPort n (fun x => { x with prsntN := false, conflict := false }) →
      exec (.slotPresenceChange n true) s
        = .next (s.keepOwned
            ((if (s.port n).conflict = true ∧ (s.port n).linkUp = true then u
              else if (s.port n).pwrEn = true then
                u.updPort n fun x => { x with goodAt := if x.pwrGood && x.perst then some u.now else none, unusable := false }
              else if (s.port n).autoPower = true ∧ (s.port n).powerFault = false
                then (u.updPort n fun x => { x with unusable := false }).slotOn n
              else u).run)))
  ∧ (∀ (s u : State) (n : Nat), s.live = true → (s.port n).prsntN = false → (s.port n).prsntRaw = (true, 39) →
      u = s.updPort n (fun x => { x with prsntN := true, conflict := false }) →
      exec (.slotPresenceChange n false) s
        = .next (s.keepOwned
            ((if (s.port n).linkUp = true then
                (u.updPort n fun x => { x with conflict := true }).event Ev.slotPresenceConflict n n 0 0
              else (if u.members.has n = true then u.failMember n 1 true else (u.absentAll n).assertPerst n).updPort n fun x =>
                { x with info := none, unusable := false }).run)))
  ∧ (∀ (s u : State) (n : Nat), s.live = true → (s.port n).pwrEn = true → (s.port n).pwrOnAt.isSome = true → (s.port n).pwrGood = true →
      (s.port n).sawGood = false →
      u = s.updPort n (fun x => { x with sawGood := true, goodAt := if x.perst then some s.now else none }) →
      exec (.slotPowerGood n) s = .next (s.keepOwned (if (s.port n).offAt = none then u.slotEnd n [0] false 0 else u)))
  ∧ (∀ (s u v : State) (n t : Nat), s.live = true → (s.port n).pwrEn = true →
      (if (s.port n).sawGood = true then (s.port n).pwrRaw.1 = false else (s.port n).pwrGood = false) →
      (s.port n).pwrOnAt = some t → t + 100000 ≤ s.now →
      u = (((s.absentAll n).assertPerst n).updPort n fun x =>
        { x with pwrEn := false, powerFault := true, faultBit := true, goodAt := none, offAt := none }).event Ev.slotPowerFault n n
        (b2n (s.port n).sawGood) 0 →
      v = (if u.memberLive n = true then u.failMember n 6 false else u) →
      exec (.slotPowerFault n) s = .next (s.keepOwned (((v.slotEnd n [0] false 1).slotEnd n [1] false 0).run)))
  ∧ (∀ (s u : State) (n t : Nat), s.live = true → (s.port n).offAt = some t → t + 1000 ≤ s.now →
      u = (s.updPort n fun x => { x with pwrEn := false, offAt := none, sawGood := false, info := none }).slotEnd n [1] false 0 →
      exec (.slotPowerOffDelay n) s
        = .next (s.keepOwned (if ((u.port n).slotCmds.any fun e => u.slotOp e.1 = 0) = true then u.slotOn n else u)))
  ∧ (∀ (s u : State) (n : Nat), s.live = true → (s.port n).btnN = true → (s.port n).btnRaw = (false, 39) →
      u = s.updPort n (fun x => { x with btnN := false, buttonBit := true }) →
      exec (.slotButtonPress n) s
        = .next (s.keepOwned
            (if (s.port n).buttonIgnored = true then u
             else if (s.port n).window.isSome = true then u.cancelWindow n
             else u.updPort n fun x => { x with window := some (u.now, x.pwrInd) })))
  ∧ (∀ (s u : State) (n t v : Nat), s.live = true → (s.port n).window = some (t, v) → t + 5000000 ≤ s.now →
      u = s.updPort n Port.windowOver →
      exec (.buttonWindowEnd n) s
        = .next (s.keepOwned
            ((if (s.port n).pwrEn = false then (u.slotOn n).event Ev.slotButton n n 1 (b2n (s.port n).buttonPolicy)
              else if u.slotProtected n = true ∧ (s.port n).buttonPolicy = false then
                (u.updPort n fun x => { x with refusalSince := some u.now }).event Ev.slotButton n n 3 (b2n (s.port n).buttonPolicy)
              else (u.failAndOff n).event Ev.slotButton n n 2 (b2n (s.port n).buttonPolicy)).run)))
  ∧ (∀ (s : State) (n t : Nat), s.live = true → (s.port n).refusalSince = some t → t + 5000000 ≤ s.now →
      exec (.buttonRefusalEnd n) s = .next (s.keepOwned (s.updPort n fun x => { x with refusalSince := none })))

/-- The governor. At a sample instant the budget computed in the period before is applied, or, with a computation still running,
OVERRUNS counts and EV_GOV_OVERRUN is recorded; the budget is split, the live registers are latched and the samples taken (R358). The
computation's end commits every loop's step, the winner, the budget and the profile's rate (R370); one that ends after the next sample
instant is discarded and counted as an overrun (R360). PWR_CAP_PWM that is lost, steady
high or restored changes the duty, the flag and the record as R368 says; a read of the word that holds OVERRUNS answers it and clears
OVERRUNS (R383).
The computation runs the loops and the profile generator of R372 to R374. The instants of late samples, exponents at their cap and what comes
with a sample are the model's choices (log entry 24). -/
def Obligations.GovernorRows : Prop :=
  (∀ (s u v : State) (i : GovInputs), s.govUp = true → (∀ t, s.gov.sampledAt = some t → t + s.gov.period ≤ s.now) →
      u = (if s.gov.computing = true
        then ({ s with gov := { s.gov with overruns := min 65535 (s.gov.overruns + 1) } } : State).event Ev.govOverrun 0
          s.gov.periodCount.toNat s.gov.period 0
        else if s.gov.computed = true then { s with gov := { s.gov with budget := s.gov.budgetNext, winner := s.gov.winnerNext } }
        else s) →
      v = u.splitBudget.starveNote →
      exec (.govSampleInstant i) s
        = .next (s.keepOwned ((({ v with gov := { v.gov with latched := v.gov.live } } : State).govSample i).run)))
  ∧ (∀ (s : State) (t : Nat), s.govUp = true → s.gov.computing = true → s.gov.sampledAt = some t → t + s.gov.period ≤ s.now →
      exec .govComputationDone s
        = .next (s.keepOwned (({ s with gov := { s.gov with
            overruns := min 65535 (s.gov.overruns + 1), computing := false } } : State).event Ev.govOverrun 0
              s.gov.periodCount.toNat s.gov.period 0)))
  ∧ (∀ s : State, s.govUp = true → s.gov.computing = true → (∀ t, s.gov.sampledAt = some t → s.now < t + s.gov.period) →
      exec .govComputationDone s
        = .next (s.keepOwned
            (let g := s.gov
             let calcs := (g.loops.zipIdx).map fun e => (e.2, g.runLoop (g.latched.loops.getD e.2 {}) e.1)
             let u : State := s.over calcs fun s c => s.over c.2.evs fun s ev => s.event ev.1 c.1 c.1 ev.2.1 (signedField 32 ev.2.2)
             let xs := calcs.map fun c => c.2.x
             let kept := (xs.zipIdx).map fun e =>
               let c := g.latched.loops.getD e.2 {}
               let x := if e.2 = (winnerOf g.latched g.rate xs).1 && (g.loops.getD e.2 {}).init && e.1.commits c
                 then { e.1 with i := e.1.it } else e.1
               if (g.live.loops.getD e.2 {}).cfg = c.cfg then x else { x with init := false }
             ({ u with gov := { u.gov with
                 loops := kept, rate := (profileStep g.latched g.rate g.slope).1, slope := (profileStep g.latched g.rate g.slope).2,
                 computing := false, computed := true, winnerNext := (winnerOf g.latched g.rate xs).1,
                 budgetNext := (max 0 (Dyadic.floor (winnerOf g.latched g.rate xs).2)).toNat,
                 periodCount := g.periodCount + 1 } } : State))))
  ∧ (∀ s : State, s.life.inReset = false → s.gov.lost = false →
      exec .pwmInputLost s
        = .next (s.keepOwned (({ s with gov := { s.gov with lost := true, lostBit := true } } : State).event Ev.govPwm 0 0 s.gov.duty 0)))
  ∧ (∀ s : State, s.life.inReset = false → s.gov.lost = true →
      exec .pwmSteadyHigh s
        = .next (s.keepOwned (({ s with gov := { s.gov with duty := 1024, lost := false } } : State).event Ev.govPwm 0 1 1024 0)))
  ∧ (∀ s : State, s.life.inReset = false → s.gov.lost = false →
      exec .pwmSteadyHigh s = .next (s.keepOwned { s with gov := { s.gov with duty := 1024 } }))
  ∧ (∀ (s : State) (high period : Nat), s.life.inReset = false → 900 ≤ period → high ≤ period → s.gov.lost = true →
      exec (.pwmInputRestored high period) s
        = .next (s.keepOwned (({ s with gov := { s.gov with lost := false } } : State).event Ev.govPwm 0 1 s.gov.duty 0)))
  ∧ (∀ (s : State) (high period : Nat), s.life.inReset = false → 900 ≤ period → high ≤ period → s.gov.lost = false →
      exec (.pwmInputRestored high period) s = .next (s.keepOwned s))
  ∧ (∀ (s : State) (e : Nat), s.fnExists ⟨e, 0⟩ = true → s.hostOn = true →
      (s.ep e).up = true → (s.fn ⟨e, 0⟩).d3 = false →
      ∀ wide : Bool, exec (.overrunsRead ⟨⟨e, 0⟩, wide⟩) s
        = .next (s.keepOwned (({ s with gov := { s.gov with overruns := 0 } } : State).emit
            (.registerRead ⟨e, 0⟩ (BitVec.ofNat 64 (s.gov.winner + s.gov.overruns * 2 ^ 16
              + (if wide = true then s.gov.periodCount.toNat * 2 ^ 32 else 0)))))))

/-- Vault operations end, where the vault works, the die's channel is up and the request is not held. A page's program that does not fail is
read back, each sector at one attempt or more: those it decodes at count their corrected bits; where each sector is within the refresh
threshold the page is stored and what waited for it goes on, and else, or where the program fails, its block fails (R389, R390, R415). An
erase's verified blocks are logged, and are FREE with that record, each one that fails is retired (R388, R393). A read hands its sectors,
decoded or not, to the command, the copy or the patrol that asked, refreshes those over the threshold, gives up the uncorrectable ones and
drops event records whose CRC fails (R389, R418, R419, R678); a row for a sector that is not decoded and has attempts left changes nothing. An operation past 50 ms resets its channel
(R658), and a command of which a request has been held for 1 s ends with VAULT_UNAVAILABLE (R424). A request to a channel that is up but
whose new epoch is not known yet runs all the same; one to a channel that is down is held (R34, R424, R654, R657).
That the rows carry the errors of each attempt, one block of a program, the fate of a failed one and the held requests of a channel are the
model's readings (log entry 25). -/
def Obligations.VaultOperations : Prop :=
  (∀ (s v : State) (k b page : Nat) (x : VReq) (u : VUse) (sectors : VContent) (why : List VFor) (reads : List (List Nat)),
      s.vault.ops.look k = some x → x.op = .program u b page sectors why → s.opRuns x = true →
      x.src = (s.island firmwareIsland).epoch →
      v = s.countBits (vdie b) (reads.map decoded) →
      (reads.length = sectors.length → reads.all readOver = true →
        (∀ w, ((reads.map decoded).all fun c => match c with | some n => n ≤ v.settings.refreshBits | none => false) = true →
          w = ((v.opOver k).storeSectors b page sectors (reads.map decoded)).closeIfFull b →
          exec (.vaultProgramComplete k (some reads)) s
            = .next (s.keepVault ((w.over why fun s y => s.pageVerified
                ((span 0 sectors.length).filterMap fun i => (w.vault.sectors.look (vaddr b page i)).map fun z => (vaddr b page i, z)) y).retireGo)))
        ∧ (((reads.map decoded).all fun c => match c with | some n => n ≤ v.settings.refreshBits | none => false) = false →
          exec (.vaultProgramComplete k (some reads)) s = .next (s.keepVault (v.programFailed b))))
      ∧ exec (.vaultProgramComplete k none) s = .next (s.keepVault (s.programFailed b)))
  ∧ (∀ (s v : State) (k : Nat) (x : VReq) (blocks : List Nat) (ok : List Bool),
      s.vault.ops.look k = some x → x.op = .erase blocks → s.opRuns x = true → x.src = (s.island firmwareIsland).epoch →
      ok.length = blocks.length →
      v = (s.opOver k).over (((blocks.zip ok).filter (·.2)).map (·.1)) (fun s b => s.dropSectors b) →
      exec (.vaultEraseComplete k ok) s
        = .next (s.keepVault (((if (((blocks.zip ok).filter (·.2)).map (·.1)).isEmpty then v
            else v.appendMap ((((blocks.zip ok).filter (·.2)).map (·.1)).map MapEntry.blockErased) none none)).over
              ((blocks.zip ok).filter fun e => !e.2) fun s e => s.retireBlock e.1 false)))
  ∧ (∀ (s : State) (c k : Nat) (x : VReq), s.vaultOn = true → c < 16 → s.vaultUp c = true →
      s.vault.ops.find? (fun o => o.2.op.die = c && !o.2.held) = some (k, x) → x.since + 50000 ≤ s.now →
      exec (.vaultOperationTimeout c) s = .next (s.keepVault (s.channelReset c)))
  ∧ (∀ (s : State) (acc : Nat) (x : VReq), s.vaultOn = true → x ∈ s.vault.ops.vals → s.opServes x.op acc = true →
      x.held = true → x.since + 1000000 ≤ s.now →
      exec (.vaultRequestTimeout acc) s = .next (s.keepVault (s.endVaultWrite acc St.vaultUnavailable)))
  ∧ (∀ (s t u v w : State) (k : Nat) (x : VReq) (addr : List Nat) (why : VRead) (reads : List (List Nat)) (l : List (Nat × Option Nat)),
      s.vault.ops.look k = some x → x.op = .read addr why → s.opRuns x = true → x.src = (s.island firmwareIsland).epoch →
      reads.length = addr.length → reads.all readOver = true → l = addr.zip (reads.map decoded) →
      t = (s.opOver k).countBits x.op.die (l.map (·.2)) →
      u = t.over l (fun s e => match e.2 with
        | some n => { s with vault := { s.vault with sectors := s.vault.sectors.upd e.1 fun x => { x with corrected := some n } } }
        | none => s) →
      v = (match why with | .command acc => u.commandRead acc l | .copy id => u.copyRead id l | .patrol => u | .test => u) →
      w = v.over l (fun s e => match e.2 with
        | some n => (if n > s.settings.refreshBits then (match why with | .copy _ => s | _ => s.refresh e.1) else s).recordsCheck e.1
        | none => (s.scanBits e.1).vaultLost e.1) →
      exec (.vaultReadComplete k reads) s
        = .next (s.keepVault ((if why = .patrol then w.patrolGo.patrolEnd else w.refreshGo).retireGo.cullBlocks)))
  ∧ (∀ (s : State) (k : Nat) (x : VReq) (addr : List Nat) (why : VRead) (reads : List (List Nat)),
      s.vault.ops.look k = some x → x.op = .read addr why → reads.all readOver = false →
      exec (.vaultReadComplete k reads) s = .next (s.keepVault s))
  ∧ (∀ (s : State) (id : Nat) (op : VOp), op.die < 16 → (s.island (98 + op.die)).status ≠ 2 → (s.island (98 + op.die)).status ≤ 4 →
      ∃ x, (s.askDie id op).vault.ops.look id = some x ∧ x.op = op ∧ (x.held = true ↔ s.vaultUp op.die = false))

/-- The vault's upkeep. A patrol pass over the sectors in use and those of open blocks starts when its period is due, or out of turn for an
extended self-test that has come to it (log entry 14), and a pass that runs goes on; one not done by the end of its period is recorded once (R417). A checkpoint starts each
60 s, or once the map log is half full, where none is under way (R408). Each 4 h, once the VAULT_GC allowance lets it start (R377), the FULL block of least life used, where it lies more than 0.05 below the mean, is copied into the
FREE block of most life used that may be opened, or freed where nothing in it is valid (R396). Garbage collection sets its foreground by
the count of FREE blocks, migrates the hot block that closed first where the hot blocks exceed the write buffer or FREE blocks are below
4,096, and below 4,096 empties the cold block with the fewest valid sectors (R411). Writes that waited for a block go on in their order
(R413), and PERCENT_USED is computed each minute (R425).
The model's choices: a wear move or copy that its allowance does not let start waits, the patrol goes on at each of its reads and a
checkpoint goes over the older copy (log entry 25), and the block a wear move opens (log entry 3). -/
def Obligations.VaultUpkeep : Prop :=
  (∀ s : State, s.vaultOn = true → s.vault.patrol = none →
      (s.vault.patrolStarted = 0 ∨ s.vault.patrolStarted + s.settings.patrolHours * 3600000000 ≤ s.now
        ∨ s.testPatrol = true) →
      exec .patrolPassStart s
        = .next (s.keepVault ({ s with
            vault := { s.vault with
              patrol := some ((s.vault.sectors.filter fun e => s.sectorLive e.1 || (s.vblk (vblockOf e.1)).st = .open_).map (·.1)),
              patrolStarted := if s.vault.patrolStarted = 0 ∨ s.vault.patrolStarted + s.settings.patrolHours * 3600000000 ≤ s.now
                then max 1 s.now else s.vault.patrolStarted },
            mgmt := { s.mgmt with selfTest :=
              if s.testPatrol = true then { s.mgmt.selfTest with patrol := 2 } else s.mgmt.selfTest } } : State).patrolGo.patrolEnd))
  ∧ (∀ s : State, s.vaultOn = true → s.vault.patrol ≠ none →
      exec .patrolPassStart s = .next (s.keepVault s.patrolGo.patrolEnd))
  ∧ (∀ (s : State) (l : List Nat), s.vaultOn = true → s.vault.patrol = some l → s.vault.patrolBehind = false →
      s.vault.patrolStarted + s.settings.patrolHours * 3600000000 ≤ s.now →
      exec .patrolPeriodEnd s
        = .next (s.keepOwned (({ s with vault := { s.vault with patrolBehind := true } } : State).event Ev.vaultPatrolBehind 0
            (l.length + s.patrolReads) s.settings.patrolHours 0)))
  ∧ (∀ s : State, s.vaultOn = true → s.vault.writing = none → s.vault.flushing = [] →
      (s.vault.checkpointAt + 60000000 ≤ s.now ∨ 65536 ≤ 2 * s.mapLogSegments) →
      exec .vaultCheckpoint s = .next (s.keepVault s.startCheckpoint))
  ∧ (∀ (s t : State) (full free : Option (Nat × Nat)), s.vaultOn = true → s.vault.wearAt + 14400000000 ≤ s.now →
      t = { s with vault := { s.vault with wearAt := s.now } } →
      full = (sortBy (fun (a b : Nat × Nat) => a.1 < b.1 || (a.1 = b.1 && a.2 ≤ b.2))
        ((t.vault.blocks.filter fun e => e.2.st = .full && !t.inCopy e.1).map fun e => (e.2.life, e.1))).head? →
      free = t.mostWornFree →
      (∀ l b l2 d, full = some (l, b) → free = some (l2, d) → t.lifeSum.2 * (l + 5000000) < t.lifeSum.1 →
        (s.mayStart 3 = false → exec .wearMoveCheck s = .next (s.keepVault s))
        ∧ (s.mayStart 3 = true → (t.keepOf b).isEmpty = false →
          exec .wearMoveCheck s
            = .next (s.keepVault
                (((t.openBlock d (VUse.wear (t.vblk b).triLevel)).charge 3 (8192 * (t.keepOf b).length)).startCopy
                  { left := t.keepOf b, use := VUse.wear (t.vblk b).triLevel, block := some b })))
        ∧ (s.mayStart 3 = true → (t.keepOf b).isEmpty = true →
          exec .wearMoveCheck s
            = .next (s.keepVault (t.freeSource { left := t.keepOf b, use := VUse.wear (t.vblk b).triLevel, block := some b }))))
      ∧ (full = none ∨ free = none ∨ (∃ l b, full = some (l, b) ∧ t.lifeSum.1 ≤ t.lifeSum.2 * (l + 5000000)) →
        exec .wearMoveCheck s = .next (s.keepVault t)))
  ∧ (∀ (s t u : State), s.vaultOn = true →
      t = ({ s with vault := { s.vault with
        gcForeground := decide (s.freeCount < 1024) || (s.vault.gcForeground && decide (s.freeCount < 2048)) } } : State).retireGo →
      u = (if t.writeBuffer < 2 * ((t.vault.blocks.filter fun e => e.2.use = .hot && (e.2.st = .open_ || e.2.st = .full)).length : Int)
            ∨ s.freeCount < 4096
        then (match (sortBy (fun (a b : Nat × Nat) => a.1 ≤ b.1)
            ((t.vault.blocks.filter fun e => e.2.use = .hot && e.2.st = .full && !t.inCopy e.1).map fun e => (e.2.closedAt, e.1))).head?
          with | some (_, b) => t.emptyBlock b .cold | none => t)
        else t) →
      exec .garbageCollectionStart s
        = .next (s.keepVault
            (if s.freeCount < 4096
              then (match (sortBy (fun (a b : Nat × Nat × Nat) =>
                    a.1 < b.1 || (a.1 = b.1 && (a.2.1 < b.2.1 || (a.2.1 = b.2.1 && a.2.2 ≤ b.2.2))))
                  ((u.vault.blocks.filter fun e => e.2.use = .cold && e.2.st = .full && !u.inCopy e.1).map fun e =>
                    ((u.validOf e.1).length, e.2.life, e.1))).head?
                with | some (_, _, b) => u.emptyBlock b .cold | none => u)
              else u)))
  ∧ (∀ s : State, s.vaultOn = true → s.vault.waiting.isEmpty = false →
      exec .vaultBlockOpenable s
        = .next (s.keepVault ((({ s with vault := { s.vault with waiting := [] } } : State).over s.vault.waiting fun s w =>
            s.programPage w.use w.sectors w.why).flushOpens)))
  ∧ (∀ s : State, s.vaultOn = true → s.vault.percentAt + 60000000 ≤ s.now →
      exec .percentUsedRecompute s = .next (s.keepVault s.percentUpdate))

/-- The power link: a status frame of a running power die carries its readings of VIN_MAIN and PACK_P, and to a logic die that is out of
reset E_avail, zero while the pack cannot
be used, the pack's reading, W1 to W3 and the input power, the sum of what VIN_MAIN and the converter draw less what the charger delivers
(R26, R433), and a gap of 100 µs starts the run of frames anew (R26); the link is valid once frames have come for 1 s without a gap, and
not after 100 µs without one (R28). The input: below 10.5 V the strobe is driven (R462), and where the converter
works neither now nor in the pass that it starts, the rails fall (R740); above 14.0 V the input switch opens as well and
the overvoltage is recorded, and 1 s between 10.8 V and 13.2 V closes the switch and brings fallen rails up (R430); below 10.7 V the
converter is enabled and a pack in states 2 to 9 goes to HOLDUP, and 10.8 V held for 100 ms takes it back to IDENTIFY (R431, R436);
PACK_P below n × 2.70 V at every reading of 1 ms stops the converter and is recorded, until it has stayed at or above n × V_0 for 1 s
(R431). These rows change nothing before their time is over. Which readings a
time is held by, and that an input below 10.5 V counts as absent, are the model's readings (log entries 26, 50, 52); what a frame that the
link has not yet found valid tells counts as R28 says. -/
def Obligations.PowerInputRows : Prop :=
  ((∀ (s u : State) (f : StatusFrame), s.pack.running = true →
        u = (s.vinReads f.vinMv).updPack (fun p => { p.volt f.packMv s.now with
          eAvailMj := if p.unusable then 0 else p.eAvailMj, limited := f.limited,
          inputMw := f.vinMw + (if p.converter = 0 then 0 else f.converterMw) - (if p.charger = (0, 0) then 0 else f.chargerMw) }) →
        (u.life.inReset = true → exec (.statusFrame f) s = .next (s.keepOwned u))
        ∧ (u.life.inReset = false → exec (.statusFrame f) s
          = .next (s.keepOwned
              ((({ u with link := { u.link with
                   lastFrame := u.now, runSince := some (if u.now < u.link.lastFrame + 100 then u.link.runSince.getD u.now else u.now),
                   eAvailMj := u.pack.eAvailMj, w1 := u.pack.w1, w2 := u.pack.w2, w3 := u.pack.w3, reading := u.pack.reading,
                   inputMw := u.pack.inputMw, learning := u.pack.st = PackSt.learnDischarge }, gov := { u.gov with
                   learnSeen := u.gov.learnSeen || u.pack.st = PackSt.learnDischarge } } : State).energyChanged.run)))))
    ∧ (∀ s : State, s.life.inReset = false → s.link.lastFrame + 100 ≤ s.now →
        exec .statusFrameTimeout s
          = .next (s.keepOwned (({ s with link := { s.link with valid := false, runSince := none } } : State).energyChanged.run)))
    ∧ (∀ (s : State) (t : Nat), s.life.inReset = false → s.link.runSince = some t → s.link.valid = false → t + 1000000 ≤ s.now →
        s.now < s.link.lastFrame + 100 →
        exec .packEnergyAvailable s = .next (s.keepOwned (({ s with link := { s.link with valid := true } } : State).energyChanged.run))))
  ∧ (∀ s : State,
      (∀ mv u, s.pack.running = true → mv < 10500 → u = ((s.vinReads mv).updPack fun p => { p with strobe := true }).emit .strobe →
        exec (.powerFailDetect mv) s
          = .next (s.keepOwned
              (if u.life.railsUp = true ∧ u.pack.wantsConverter (u.mayLehr || u.passOpen) = 0 then u.converterLost else u)))
      ∧ (∀ mv, s.pack.running = true → 14000 < mv → s.pack.overVolt = false →
        exec (.vinOvervoltage mv) s
          = .next (s.keepOwned
              (((((s.updPack fun p => { p.setVin mv s.now with overVolt := true, inputSwitch := false, strobe := true }).emit
                (.inputSwitch false)).converterCheck.dieEvent Ev.vinOvervoltage mv 0 0).emit .strobe))))
      ∧ (∀ t u, s.pack.running = true → s.pack.overVolt = true → s.pack.vinRangeSince = some t → t + 1000000 ≤ s.now →
        u = (s.updPack fun p => { p with overVolt := false, inputSwitch := true }).emit (.inputSwitch true) →
        exec .vinReturnInRange s
          = .next (s.keepOwned
              ((if u.life.railsUp = true then u
                else { u with life := { u.life with railsUp := true, railsSince := u.now } }).converterCheck)))
      ∧ (s.pack.vinRangeSince = none ∨ (∃ t, s.pack.vinRangeSince = some t ∧ s.now < t + 1000000) →
        exec .vinReturnInRange s = .next (s.keepOwned s))
      ∧ (∀ mv u, s.pack.running = true → mv < 10700 → u = s.updPack (fun p => p.setVin mv s.now) →
        exec (.vinBelowHoldup mv) s
          = .next (s.keepOwned
              (if 2 ≤ s.pack.st.code ∧ s.pack.st.code ≤ 9 then u.learnAbort.packTo .holdup else u.converterCheck)))
      ∧ (∀ mv, s.pack.running = true → 10700 ≤ mv → mv < 10800 →
        exec (.vinBelowHoldup mv) s = .next (s.keepOwned (s.updPack fun p => p.setVin mv s.now).converterCheck))
      ∧ (∀ t u, s.pack.running = true → t = s.pack.vinGoodSince.getD s.now →
        u = s.updPack (fun p => p.setVin (max p.vinMv 10800) s.now) →
        exec .vinAboveHoldup s
          = .next (s.keepOwned
              (if s.pack.st = .holdup ∧ t + 100000 ≤ s.now then u.packTo .identify else u.converterCheck)))
      ∧ (∀ t, s.pack.converter ≠ 0 → s.pack.uvlo = false → s.pack.lowSince = some t → t + 1000 ≤ s.now →
        exec .holdupUvlo s
          = .next (s.keepOwned (((s.updPack fun p => { p with uvlo := true }).converterCheck.dieEvent Ev.holdupUvlo s.pack.reading.mv
              (signedField 32 s.pack.qMc) 0).checkW3.converterLost)))
      ∧ (s.pack.lowSince = none ∨ (∃ t, s.pack.lowSince = some t ∧ s.now < t + 1000) →
        exec .holdupUvlo s = .next (s.keepOwned s))
      ∧ (∀ t, s.pack.running = true → s.pack.uvlo = true → s.pack.highSince = some t → t + 1000000 ≤ s.now →
        exec .holdupUvloRecover s
          = .next (s.keepOwned (s.updPack fun p => { p with uvlo := false }).converterCheck.checkW3))
      ∧ (s.pack.highSince = none ∨ (∃ t, s.pack.highSince = some t ∧ s.now < t + 1000000) →
        exec .holdupUvloRecover s = .next (s.keepOwned s)))

/-- Pack states, on a running power die (R436): an absent pack that appears goes to IDENTIFY, as does one that returns in
MISMATCH or in a hold for over-voltage or the timer, one that disappears to ABSENT but in
NOT_DECLARED and the ship states; IDENTIFY after 2 s decides between MISMATCH, CHARGE_HOLD outside the charge window, PRECHARGE below
n × V_0 and CC, estimating the charge from the resting voltage where no count was kept; a charge goes from PRECHARGE to CC to CV, and
after 60 s below I_term to FULL with the top anchor; FULL starts a recharge below 97 % of the charge, or at rest more than 100 mV a
cell below V_CV; a charge ends in CHARGE_HOLD outside 0 to 45 °C, above n × (V_cv + 50 mV), or after 1 h of PRECHARGE or 10 h in all; an
over-temperature hold ends once the temperature has stayed within 3 to 42 °C for 60 s.
Charge is kept in the unit of R439, the resting voltage estimates it by R440, and a charge's end is a warning of R453's bits. What the time of a
condition is, and what a return or a first declaration does, are the model's readings (log entries 26, 52). -/
def Obligations.PackStates : Prop :=
  ∀ s : State, s.pack.running = true →
    (∀ u, s.pack.present = false → u = s.updPack (fun p => { p with present := true, counting := true }) →
      exec (.packPresenceChange true) s
        = .next (s.keepOwned
            (if s.pack.st = .absent then (u.packTo .identify).dieEvent Ev.packPresence 1 2 0
             else if s.pack.st = .mismatch ∨ (s.pack.st = .chargeHold ∧ (s.pack.holdCause = some .overVolt ∨ s.pack.holdCause = some .timer))
             then u.packTo .identify else u)))
    ∧ (∀ u v w, s.pack.present = true → u = s.learnAbort.countBreak.updPack (fun p => { p with present := false, eAvailMj := 0 }) →
      v = (if u.pack.st = .notDeclared ∨ u.pack.st = .shipArmed ∨ u.pack.st = .ship then u else u.packTo .absent) →
      w = v.setFlags (fun p => { p with capUnverified := true }) →
      exec (.packPresenceChange false) s
        = .next (s.keepOwned ((w.dieEvent Ev.packPresence 0 w.pack.st.code 0).cross 6).checkW3.dieCheck))
    ∧ (∀ x : PackReading, s.pack.st = .identify → s.pack.stateAt + 2000000 ≤ s.now →
      (s.pack.cells * 4350 < x.mv ∨ x.mv < s.pack.cells * 2500) →
      exec (.identifyComplete x) s
        = .next (s.keepOwned ((((s.updPack fun p => p.reads x s.now).packTo .mismatch).dieEvent Ev.packMismatch s.pack.cells x.mv
            0).cross 8)))
    ∧ (∀ (x : PackReading) (u v : State), s.pack.st = .identify → s.pack.stateAt + 2000000 ≤ s.now → x.mv ≤ s.pack.cells * 4350 →
      s.pack.cells * 2500 ≤ x.mv → u = s.updPack (fun p => p.reads x s.now) →
      ((s.pack.counting = true ∧ s.pack.q.isSome = true ∧ v = u)
        ∨ ((s.pack.counting = false ∨ s.pack.q = none) ∧ x.ma.natAbs < 10
          ∧ v = u.updPack (fun p =>
            { p with q := some ((8 * (u.pack.socOcv x.mv).1 * (p.cLearned * qUnit) / (10 * (u.pack.socOcv x.mv).2) : Nat) : Int),
                     counting := true, provisional := true }))) →
      exec (.identifyComplete x) s
        = .next (s.keepOwned
            (if outsideWindow x = true then (v.updPack fun p => { p with holdCause := some .overTemp }).packTo .chargeHold
             else if x.mv < s.pack.cells * s.pack.v0 then v.toCharge .precharge else v.toCharge .cc)))
    ∧ (∀ x : PackReading, s.pack.st = .precharge → s.pack.cells * s.pack.v0 ≤ x.mv →
      exec (.chargePhaseChange x) s = .next (s.keepOwned ((s.updPack fun p => p.reads x s.now).packTo .cc)))
    ∧ (∀ x : PackReading, s.pack.st = .cc → s.pack.cells * s.pack.vcv ≤ x.mv →
      exec (.chargePhaseChange x) s = .next (s.keepOwned ((s.updPack fun p => p.reads x s.now).packTo .cv)))
    ∧ (∀ t, s.pack.st = .cv → s.pack.termSince = some t → t + 60000000 ≤ s.now →
      exec .chargeTermination s = .next (s.keepOwned ((s.packTo .full).anchor false s.pack.cLearned).checkW3))
    ∧ (∀ (x : PackReading) (u : State), s.pack.st = .full → u = s.updPack (fun p => p.reads x s.now) →
      exec (.rechargeNeeded x) s
        = .next (s.keepOwned
            (if (∃ q, s.pack.q = some q ∧ 100 * q < 97 * ((s.pack.cLearned * qUnit : Nat) : Int))
                ∨ (x.ma.natAbs < 10 ∧ x.mv + s.pack.cells * 100 < s.pack.cells * s.pack.vcv)
              then u.toCharge .cc else u)))
    ∧ (∀ cause : ChargeEnd, (s.pack.st = .precharge ∨ s.pack.st = .cc ∨ s.pack.st = .cv) →
      ((cause = .overTemp ∧ (s.pack.reading.temp < 0 ∨ 360 < s.pack.reading.temp))
        ∨ (cause = .overVolt ∧ s.pack.cells * (s.pack.vcv + 50) < s.pack.reading.mv)
        ∨ (cause = .timer ∧ ((s.pack.st = .precharge ∧ s.pack.stateAt + 3600000000 ≤ s.now) ∨ s.pack.chargeStart + 36000000000 ≤ s.now))) →
      exec (.chargeEnd cause) s
        = .next (s.keepOwned (((s.updPack fun p => { p with holdCause := some cause }).packTo .chargeHold).warn (ChargeEnd.level cause)
            true)))
    ∧ (∀ t, s.pack.st = .chargeHold → s.pack.holdCause = some .overTemp → s.pack.coolSince = some t → t + 60000000 ≤ s.now →
      exec .chargeHoldRelease s = .next (s.keepOwned (s.packTo .identify)))

/-- The gauge, on a running power die: the learn discharge ends at 40 % of the learned capacity (R436) and its rest after 4 h without a
rest point (R447); a learn overdue by 180 days, and each 30 days more, is recorded (R448); E_avail and W1 to W3 are evaluated, a warning
or more than 50 °C ending a learning run (R442, R446); charge is counted in each sample (R439); a rest point ends the episode, learns
against the last one, sets the empty anchor, becomes the last and, in FULL, starts a pending run (R441); the store is written every 6 h
(R456), and the pack's series 26 to 28 are counted each second, the
temperature while its switches are closed (R459, R748).
C_meas of a rejected pair, which rest points count and the extremes' times are the model's readings (log entries 26, 33, 52). -/
def Obligations.GaugeRows : Prop :=
  ∀ s : State, s.pack.running = true →
    (s.pack.st = .learnDischarge →
      40 * ((s.pack.cLearned * qUnit : Nat) : Int) ≤ -100 * s.pack.sinceRest →
      exec .learnDischargeDone s = .next (s.keepOwned (s.packTo .learnRest)))
    ∧ (s.pack.st = .learnRest → s.pack.stateAt + 14400000000 ≤ s.now →
      exec .learnRestTimeout s = .next (s.keepOwned ((s.learnEnds 4 0).toCharge .cc)))
    ∧ (s.pack.st ≠ .notDeclared →
      (if s.pack.learnOverdue = true then s.pack.overdueAt + 2592000 ≤ s.dieNow else s.pack.learnTime + 15552000 ≤ s.dieNow) →
      exec .learnOverdue s
        = .next (s.keepOwned ((s.setFlags fun p => { p with learnOverdue := true, overdueAt := s.dieNow }).dieEvent Ev.packLearnOverdue
            ((s.dieNow - s.pack.learnTime) / 86400) s.pack.cLearned 0)))
    ∧ (∀ (x : PackReading) (u : State), u = (s.updPack fun p => p.reads x s.now).evaluate →
      exec (.eavailCompute x) s
        = .next (s.keepOwned
            (if (u.pack.st = .learnDischarge ∨ u.pack.st = .learnRest) ∧ (u.pack.w1 = true ∨ 400 < x.temp)
              then u.learnAbort.toCharge .cc else u)))
    ∧ (∀ ma : Int, s.pack.present = true → s.pack.fetClosed = true →
      exec (.chargeCountSample ma) s
        = .next (s.keepOwned ((s.draws (-ma).toNat).updPack fun p => { p.flows ma s.now with
            q := p.q.map (· + ma), counted := p.counted + ma, counting := true, reading := { p.reading with ma := ma }, throughput := p.throughput + (-ma).toNat,
            episode := if ma < -10 then some (p.episode.getD 0 + (-ma).toNat) else p.episode.map (· + ((-ma).toNat : Int)) })))
    ∧ (∀ (x : PackReading) (u l e f : State) (r : Option (Nat × Nat)), x.ma.natAbs < 10 → 80 ≤ x.temp → x.temp ≤ 320 →
      s.pack.movedAt + 2700000000 ≤ s.now → s.pack.restTaken = false → s.pack.counting = true → s.pack.decl ≠ none →
      (s.pack.reads x s.now).steady s.now = true →
      u = s.episodeEnds.updPack (fun p => { p.reads x s.now with restTaken := true }) →
      (r, l) = (match s.pack.rest with | some a => u.learnAt a x.mv | none => (none, u)) →
      e = (match r with
        | some (k, c) =>
          if s.pack.st = PackSt.learnRest then (l.learnEnds k c).toCharge .cc
          else if k = 2 then
            (l.updPack fun p => { p with rejectCount := min 65535 (p.rejectCount + 1) }).storeGauge.dieEvent Ev.packLearn k c
              (l.updPack fun p => { p with rejectCount := min 65535 (p.rejectCount + 1) }).storeGauge.pack.cLearned
          else l.dieEvent Ev.packLearn k c l.pack.cLearned
        | none => if s.pack.st = PackSt.learnRest then (l.learnEnds 5 0).toCharge .cc else l) →
      f = (if x.mv ≤ s.pack.cells * s.pack.v0 then e.anchor true 0 else e) →
      exec (.restPoint x) s
        = .next (s.keepOwned
            (if s.pack.st = PackSt.full ∧ (f.updPack fun p => { p with rest := some ⟨p.q, x.mv, f.dieNow, p.counted⟩ }).pack.learnPending = true
              then (f.updPack fun p => { p with rest := some ⟨p.q, x.mv, f.dieNow, p.counted⟩ }).learnStart
              else f.updPack fun p => { p with rest := some ⟨p.q, x.mv, f.dieNow, p.counted⟩ })))
    ∧ (s.pack.storeAt + 21600 ≤ s.dieNow → exec .gaugeStorePeriodic s = .next (s.keepOwned s.storeGauge))
    ∧ (∀ x : PackReading, s.pack.present = true →
      ∀ u, u = (s.countLife 26 ((x.mv / s.pack.cells : Nat) : Int) (binOf ((x.mv / s.pack.cells : Nat) : Int) 2800 50) 0).countLife 27 x.ma
          (binOf x.ma (-16000) 1000) 0 →
      exec (.packSample x) s
        = .next (s.keepOwned (if u.pack.fetClosed = true then u.countLife 28 x.temp (binOf x.temp (-160) 24) 0 else u)))

/-- The power die starts with the newer valid bank of its store, recording which, or without one with its capacity unverified and a
learning run pending (R457); a shipped pack stays so, else the pack is NOT_DECLARED, IDENTIFY or ABSENT as it finds it. Ship mode opens
the pack's switches once the armed module is clean (R451), and closes them after 1 s of input voltage where it was cancelled or the input
had fallen (R452).
The seconds, the flags and the 45 minutes after a start of the power die, and that SHIP outlasts it, are the model's readings (log entries 27,
50, 52). -/
def Obligations.PowerDieAndShip : Prop :=
  (∀ (s t u : State) (useB : Bool), s.pack.running = false →
      useB = (s.pack.bankB.valid && (!s.pack.bankA.valid || newerGen s.pack.bankB.seq s.pack.bankA.seq)) →
      t = s.countBreak.updPack (fun p => { p with
        running := true, dieAt := s.now, uvlo := false, overVolt := false, lowVin := p.vinMv < 10700, movedAt := s.now, restTaken := false,
        holdCause := none, provisional := false, vinFell := p.vinFell || p.st = .ship, eAvailMj := 0, valid := s.pack.bankA.valid || s.pack.bankB.valid, lastBankB := useB,
        counting := p.present && p.fetClosed }) →
      u = (if useB = true then (t.updPack (·.load s.pack.bankB)).dieEvent Ev.gaugeStore 1 s.pack.bankB.seq.toNat 0
           else if s.pack.bankA.valid = true then (t.updPack (·.load s.pack.bankA)).dieEvent Ev.gaugeStore 0 s.pack.bankA.seq.toNat 0
           else (t.updPack fun p => { p.load {} with capUnverified := true, learnPending := true }).dieEvent Ev.gaugeStore 2 0 0) →
      exec .powerDieStart s
        = .next (s.keepOwned
            (if u.pack.st = .ship then u else if u.pack.decl = none then u.packTo .notDeclared
             else if u.pack.present = true then u.packTo .identify else u.packTo .absent)))
  ∧ (∀ s : State, s.pack.running = true → s.pack.st = .shipArmed → s.life.inReset = false → s.lehrOn = false → s.shipClean = true →
      exec .shipCleanReport s = .next (s.keepOwned s.shipOpen.dieCheck))
  ∧ (∀ (s : State) (t : Nat), s.pack.running = true → s.pack.vinGoodSince = some t → s.pack.st = .ship → t + 1000000 ≤ s.now →
      (s.pack.shipCancelled = true ∨ s.pack.vinFell = true) →
      exec .shipReconnect s
        = .next (s.keepOwned ((((s.updPack fun p => { p with fetClosed := true, shipCancelled := false, counting := false }).emit
            (.fets true)).toIdentify).dieEvent Ev.packShip 2 0 0)))

/-- Loss of power. PERST_N resets the host port, and a serving module whose vault is mounted starts a lehr pass, with cause PERST_N
(R477); while a pass runs it resets the host port alone (R479), a module FENCED by a conflict resets, and another keeps its back end
(R479). PERST_N's release samples the straps once the host port is ready (R750). The strobe that the power die has driven, or Punty's frame, starts a pass of a serving module
where none runs (R27; the cause of a frame with neither over-voltage nor PERST_N behind it is the model's choice, log entry 28). A pass
seals with its dump, whose blocks that fail their programs and frames that are uncorrectable are named (R467, R469, R479), or is over without
a seal after 3 s (R470); a sealed pass but a fence's ends with the logic die's reset, released 10 ms later, once the input has been steady,
and a thermal hold likewise (R469). The rails come up with an input of 10.8 to 14.0 V that has been there for 10 ms as far as it has been read
(R740). A rail's fault resets the logic die at once, and cuts off a pass that has not sealed; after a seal a rail may fall (R739, R743; what
the cut pass leaves and the 10 ms without a reading are the model's choice, log entries 28 and 52). -/
def Obligations.PowerLossRows : Prop :=
  ∀ s : State,
    (∀ u, s.life.perst = false → s.life.inReset = false → s.lehrOn = false → s.serving = true → s.vault.mounted = true →
      u = (s.discardStaged true).endExport.hostReset.selfTestEnds 5 →
      (s.life.st ≠ .fenced ∨ s.life.fencedBy ≠ some .conflict ∨ s.lehrSealed = false) →
      exec .perstNAssert s = .next (s.keepOwned ((u.clearBegun.startLehr .perst).setState .booting).sbCleared))
    ∧ (∀ u, s.life.perst = false → s.life.inReset = false → s.lehrOn = true → u = s.endExport →
      (s.life.st ≠ .fenced ∨ s.life.fencedBy ≠ some .conflict ∨ s.lehrSealed = false) →
      exec .perstNAssert s
        = .next (s.keepOwned (if s.life.hostReady = true then u.hostReset else { u with life := { u.life with perst := true } })))
    ∧ (s.life.perst = false → s.life.inReset = false → s.life.st = .fenced → s.life.fencedBy = some .conflict → s.lehrSealed = true →
      exec .perstNAssert s
        = .next (s.keepOwned ((({ s with life := { s.life with perst := true } } : State).setState .booting).dieReset
            (some (s.now + 10000)))))
    ∧ (∀ u, s.life.perst = false → s.life.inReset = false → s.lehrOn = false → (s.serving = false ∨ s.vault.mounted = false) →
      (s.life.st ≠ .fenced ∨ s.life.fencedBy ≠ some .conflict) → u = (s.discardStaged false).endExport.hostReset.selfTestEnds 5 →
      (u.life.st ≠ .fenced ∨ u.life.fencedBy ≠ some .conflict) →
      exec .perstNAssert s = .next (s.keepOwned u))
    ∧ (s.life.perst = false → s.life.inReset = true →
      exec .perstNAssert s
        = .next (s.keepOwned (if s.life.hostReady = true then s.hostReset
            else { s with life := { s.life with perst := true } })))
    ∧ (∀ b side, s.life.perst = true → s.life.hostReady = true →
      exec (.perstNDeassert b side) s
        = .next (s.keepOwned { s with life := { s.life with perst := false, bifurcated := b, side := side } }))
    ∧ ((s.pack.strobe = true ∨ s.pack.vinAbsent = true ∨ s.pack.overVolt = true) → s.life.lehr = none →
      (s.updPack fun p => { p with strobe := false }).serving = true →
      exec .powerFailStrobe s
        = .next (s.keepOwned ((s.updPack fun p => { p with strobe := false }).startLehr
            (if s.pack.overVolt = true then .overVolt else .powerFail))))
    ∧ (s.lehrOn = false → s.serving = true →
      exec .dumpCommandFrame s
        = .next (s.keepOwned (s.startLehr
            (if s.pack.overVolt = true then .overVolt else if s.life.perst = true then .perst else .powerFail))))
    ∧ (∀ l failed unverified, s.life.lehr = some l → l.sealed_ = false →
      exec (.lehrSealed failed unverified) s
        = .next (s.keepOwned
            ((s.writeDump l (s.now - l.at_) (if l.onPack = true then l.drawn / 4000000 else 0) true
              ⟨failed.blocks ++ unverified.blocks, failed.logPages ++ unverified.logPages, failed.frames ++ unverified.frames⟩).puntyActs
              l true)))
    ∧ (∀ l, s.life.lehr = some l → l.sealed_ = false → l.at_ + 3000000 ≤ s.now →
      exec .lehrTimeout s
        = .next (s.keepOwned (((s.writeDump l 0 0 false {}).setConverter 0).puntyActs
            { l with cause := if l.cause = .fence then .powerFail else l.cause } false)))
    ∧ (∀ l, s.life.lehr = some l → l.sealed_ = true → l.cause ≠ .fence → s.vinSteady = true →
      exec .puntyRelease s = .next (s.keepOwned (s.dieReset (some (s.now + 10000)))))
    ∧ (∀ t, s.life.lehr = none → s.life.thermalHold = some t → s.life.inReset = true → t ≤ s.now → s.vinSteady = true →
      exec .puntyRelease s
        = .next (s.keepOwned { s with life := { s.life with thermalHold := none, resetUntil := some (s.now + 10000) } }))
    ∧ (∀ mv u, s.pack.running = true → s.life.railsUp = false → s.pack.overVolt = false → 10800 ≤ mv → mv ≤ 14000 →
      (∀ t, s.pack.vinGoodSince = some t → t + 10000 ≤ s.now) →
      u = (s.updPack fun p => { p.setVin mv s.now with
        inputSwitch := true, vinGoodSince := some (p.vinGoodSince.getD (s.now - 10000)) }).emit (.inputSwitch true) →
      exec (.vinMainPowerUp mv) s
        = .next (s.keepOwned ({ u with life := { u.life with railsUp := true, railsSince := u.now } } : State).converterCheck))
    ∧ (∀ rail high u v, s.life.inReset = false →
      (∀ l, s.life.lehr = some l → l.sealed_ = true → l.noSeal = true ∨ high = true) →
      u = ((match s.life.lehr with | some l => if l.sealed_ = true then s else s.writeDump l 0 0 false {} | none => s).updPack fun p =>
        { p with supplyFault := if p.running then some (rail, high) else p.supplyFault }) →
      v = ({ u with life := { u.life with lehr := none } } : State).dieReset none →
      exec (.supplyFault rail high) s = .next (s.keepOwned { v with life := { v.life with railsSince := v.now } }))
    ∧ (∀ rail l, s.life.lehr = some l → l.sealed_ = true → l.noSeal = false →
      exec (.supplyFault rail false) s = .next (s.keepOwned s))

/-- Start-up (R480). When the logic die may leave reset it does, with its registers at their reset values and a lost staged set
recorded; with no firmware slot that verifies start-up fails for reason 0, with fewer than 28 lanes of memory trained for reason 1, and
else the back end starts from the slot found, a fallback being recorded; a fence pin that is asserted then fences. STARTUP_READY runs
step 8 where it has waited for the drives and every member that is not gone is up, and ends start-up once step 10 is over and nothing that it
waits for is left: the module is READY; a module of a foreign array is READY without step 10.
What start-up finds comes with the row (log entry 29), and what a restart keeps where no rule says it (log entry 43) is the model's choice, as
is that 0 channels are named where no firmware slot verifies (log entry 29). -/
def Obligations.RestartRows : Prop :=
  (∀ (s t u v w : State) (f : StartFindings) (lost : Nat), s.mayLeaveReset f = true → lost = s.life.stagedLost + s.mgmt.staged.length →
      t = (if s.life.hostReady = true then (s.setState .booting).outOfReset f else (s.outOfReset f).sbCleared).emit (.logicReset false) →
      u = (if lost = 0 then t else t.event Ev.configDiscarded 0 lost 1 0) →
      (u.firmwareSlot f = none → w = u.startFails 0 0) →
      (∀ k, u.firmwareSlot f = some k →
        v = (if k = u.mgmt.nextSlot then { u with life := { u.life with fwRunning := k } }
          else ({ u with life := { u.life with fwRunning := k } } : State).event Ev.fwSlotFallback 0 k
            (if (u.slot u.mgmt.nextSlot).valid = true then 0 else 1) 0)
        ∧ w = (if v.trained.length < 28 then v.startFails 1 v.trained.length else v.startBackEnd f)) →
      exec (.logicDieResetExit f) s = .next (s.keepVault (if w.life.fencePin = true then w.fence .pin else w)))
  ∧ (∀ s r t v w : State, s.live = true → s.life.starting = true →
      (s.life.st = .restoring ∨ ((s.life.foreign_ = true ∨ s.life.step = 6) ∧ s.life.st = .booting)) →
      r = (if s.life.foreign_ = true then s else s.removeMissing.run) →
      t = (if r.life.starting = true ∧ r.life.step = 6 ∧ r.membersSettled = true then r.stepEight.run else r) → t.life.starting = true →
      (t.life.foreign_ = true ∨ (t.life.step = 10 ∧ t.life.redestages = [] ∧ t.life.checksFirst = [] ∧ t.unjournaledLeft = false
        ∧ t.membersSettled = true)) →
      v = t.takeoverDone →
      w = (({ v with life := { v.life with starting := false } } : State).setState .ready).reclaimJournal.govStart →
      exec .startupReady s
        = .next (s.keepVault (w.event Ev.ready 0 ((w.now - w.life.opSince) / 1000) (b2n t.life.usableDump)
            (w.volumes.filter fun e => e.2.attached.isSome).length)))

/-- Pairing, while the logic die works. A heartbeat frame shows the partner, none for 100 ms loses it, which is recorded and raises the
PFs' cause, and frames go out each 10 ms (R495). ARB_HB may change once 45 ms have passed since its last change, in the states that serve it (R510; the command's instant lies with who
sends it).
ARB_FENCE_N fences; its release restarts a module that it fenced, once no pass of its runs unsealed; ARB_TAKE_N starts the take-over of a
bound STANDBY module and is recorded as ignored by one that is not bound, serves or is FENCED (R512), after a fence pass, which has
gated the recorder, with the records held for the restart (R658). A fence drain ends after 100 ms:
held reservations are released and the ports gated (R514).
That the fence rows win with both pins asserted, and that a release waits for an unsealed pass, are the model's readings (log entry 30). -/
def Obligations.PairingRows : Prop :=
  ∀ s : State,
    (∀ f : PartnerFrame, s.live = true →
      exec (.pairHeartbeat f) s
        = .next (s.keepOwned { s with pair := { s.pair with
            partner := some f.identity, partnerPresent := true, partnerLost := false, partnerStandby := f.standby, lastBeat := s.now } }))
    ∧ (s.live = true → s.expectsPartner = true → s.pair.partnerLost = false → s.pair.lastBeat + 100000 ≤ s.now →
      exec .partnerLost s
        = .next (s.keepOwned ((({ s with pair := { s.pair with partnerPresent := false, partnerLost := true } } : State).event
            Ev.partnerLost s.sideNo (idLow (s.pair.partner.getD s.pairedWith)) 0 0).raisePfs .pair)))
    ∧ (s.live = true → s.pair.sentAt + 10000 ≤ s.now →
      exec .pairHeartbeatSend s
        = .next (s.keepOwned (({ s with pair := { s.pair with sentAt := s.now } } : State).emit (.pairFrame Config.identity
            (s.life.st = DevState.standby)))))
    ∧ (s.live = true → s.life.hbStopped = false → s.life.hbAt + 45000 ≤ s.now →
      s.life.st ∈ [DevState.ready, .stopping, .stopped, .standby, .restoring] →
      exec .arbHbToggle s
        = .next (s.keepOwned (({ s with life := { s.life with hb := !s.life.hb, hbAt := s.now } } : State).emit (.arbHb (!s.life.hb)))))
    ∧ (exec .arbFenceAssert s = .next (s.keepOwned (({ s with life := { s.life with fencePin := true } } : State).fence .pin)))
    ∧ (s.life.inReset = false → s.life.st = .fenced → s.life.fencedBy = some .pin → (s.lehrOn = false ∨ s.lehrSealed = true) →
      exec .arbFenceRelease s
        = .next (s.keepOwned ((({ s with life := { s.life with fencePin := false } } : State).setState .booting).dieReset
            (some (s.now + 10000)))))
    ∧ ((s.life.inReset = true ∨ s.life.st ≠ .fenced ∨ s.life.fencedBy ≠ some .pin ∨ (s.lehrOn = true ∧ s.lehrSealed = false)) →
      exec .arbFenceRelease s = .next (s.keepOwned { s with life := { s.life with fencePin := false } }))
    ∧ (∀ (d : List DriveMeta) (l : LabelImage), s.live = true → s.lehrOn = false → s.life.fencePin = false → s.life.st = .standby →
      (readArray d).label = some l →
      (l.partnerId = Config.identity → exec (.arbTakeAssert d) s = .next (s.keepVault (s.beginTakeover (readArray d) l.ownerId)))
      ∧ (l.partnerId ≠ Config.identity →
        exec (.arbTakeAssert d) s
          = .next (s.keepVault (s.event Ev.takeIgnored s.sideNo DevState.standby.code (b2n (l.partnerId = 0)) 0))))
    ∧ (∀ d : List DriveMeta, s.life.inReset = false → s.life.fencePin = false → s.lehrOn = false →
      (s.life.st = .fenced ∨ s.serving = true) →
      exec (.arbTakeAssert d) s
        = .next (s.keepVault (s.event Ev.takeIgnored s.sideNo s.life.st.code (b2n (s.partnerId = 0)) 0)))
    ∧ (∀ d : List DriveMeta, s.life.inReset = false → s.life.fencePin = false → s.lehrOn = true → s.life.st = .fenced →
      exec (.arbTakeAssert d) s
        = .next (s.keepVault { s with life := { s.life with takesIgnored :=
            (if s.life.takesIgnored.length < 16 then s.life.takesIgnored else s.life.takesIgnored.drop 1)
              ++ [⟨Ev.takeIgnored, ⟨none, s.sideNo⟩, w32 s.life.st.code, w32 (b2n (s.partnerId = 0)), 0, s.stamp.1, s.stamp.2.1,
                s.stamp.2.2⟩] } }))
    ∧ (∀ t, s.life.fenceDrain = some t → t + 100000 ≤ s.now →
      exec .fenceDrainTimeout s
        = .next (s.keepOwned (s.over ((s.ports.keep fun _ (x : Port) => x.reserved && x.ctl = CtlSt.ready).map (·.1)) fun s p =>
            (s.updPort p fun x => { x with reserved := false }).emit (.driveRelease p ownKey)).gatePorts))

/-- Export and import of a dump: the held dump with its counters and the committed journal records go out whole, and RELEASE lets them go
(R515); a take-over that waits imports a usable newer seal of its partner, goes on without another one, without any once EXPORT_WAIT has
passed since ARB_TAKE_N, and after a second link failure (R518). Array metadata: the changes that are due are logged together 100 µs
after the first, 56 to a record, as far as the ring has room, and a WATERMARK's instant is kept (R502); a slice is written each 10 minutes, or with the log three
quarters full (R504); the activity bitmap is rewritten each second, to the slot not written last, without the regions inactive for
60 s (R509).
The model's choices: what may be imported, and EXPORT_WAIT after a failure (log entry 30), the figures of an import without a seal (log entry
8), records imported within the step (log entry 17), the images of descriptors and the order of a configuration copy (log entry 47), and
writes of metadata within their step (log entry 31). -/
def Obligations.DumpAndMetadataRows : Prop :=
  ((∀ (s : State) (d : Dump), s.heldForExport = some d → s.life.exportOff = false →
        exec .exportRequest s
          = .next (s.keepOwned (s.emit (.exportData
              { usable := true, identity := d.identity, dumpSeq := d.seq, drained := s.drainedMask }
              { counters := d.counters, entries := d.entries, parisons := d.parisons, frames := d.frames,
                records := ((s.journal.recs.filter fun e => e.2.committed).map fun e => e.2.img), nextDestageSeq := d.nextDestageSeq }))))
    ∧ (∀ s : State, (s.heldForExport.isSome = true ∨ (s.live = true ∧ s.life.st = .standby ∧ s.life.held = true)) →
        exec .release s
          = .next (s.keepOwned { s.releaseDump.releaseJournal with life := { s.releaseDump.releaseJournal.life with held := false } }))
    ∧ (∀ (s : State) (t : TakeOver), s.awaitingImport = some t → t.importFails = 0 → t.at_ + s.settings.exportWait * 1000000 ≤ s.now →
        exec .exportWait s = .next (s.keepVault ((s.event Ev.dumpImport s.sideNo 1 (importFigure s.now) 0).takeoverGo none)))
    ∧ (∀ (s : State) (t : TakeOver) (x : SealImage) (d : DumpImage), s.awaitingImport = some t →
        (x.usable = true → x.identity = t.partner → t.label.importedDumpSeq < x.dumpSeq →
          exec (.dumpImport x d) s
            = .next (s.keepVault ((s.event Ev.dumpImport s.sideNo 0 (x.dumpSeq % 2 ^ 32) (importMib d)).takeoverGo (some (x, d)))))
        ∧ ((x.usable = false ∨ x.identity ≠ t.partner ∨ x.dumpSeq ≤ t.label.importedDumpSeq) →
          exec (.dumpImport x d) s
            = .next (s.keepVault ((s.event Ev.dumpImport s.sideNo 2 (x.dumpSeq % 2 ^ 32) 0).takeoverGo none))))
    ∧ (∀ (s : State) (t : TakeOver), s.awaitingImport = some t → t.importFails = 0 →
        exec .pairingLinkFailure s
          = .next (s.keepVault (({ s with life := { s.life with takeover := some { t with importFails := 1 } } } : State).emit .exportRequest)))
    ∧ (∀ (s : State) (t : TakeOver), s.awaitingImport = some t → t.importFails ≠ 0 →
        exec .pairingLinkFailure s = .next (s.keepVault ((s.event Ev.dumpImport s.sideNo 3 (importFigure s.now) 0).takeoverGo none))))
  ∧ ((∀ (s t : State) (due : List (Nat × Nat × Nat)) (recs : List (List (Nat × Nat × Nat × Region × List Byte))),
        due = s.changesDue.take (56 * (16384 - s.pair.logUsed)) →
        s.ownsArray = true → due.isEmpty = false → s.pair.changesAt + 100 ≤ s.now →
        recs = chunks 56 due.length (due.map fun c =>
          (c.1, c.2.1, c.2.2, (if c.2.1 = 0 || c.2.1 = 4 then s.region c.2.2 else {}), s.changeImage c.2.1 c.2.2)) →
        t = { s with pair := { s.pair with
          loggedAt := ((due.filter fun c => c.2.1 = 4).map (·.2.2)).foldl (fun m r => Store.put m r s.now) s.pair.loggedAt,
          changes := s.pair.changes.filter fun c => !due.contains c, changesAt := s.now,
          changeSeq := s.pair.changeSeq + recs.length } } →
        exec .changeLogFlush s
          = .next (s.keepOwned (t.over recs.zipIdx fun u e => u.metaStart (.record (s.pair.changeSeq + e.2) e.1)).run))
    ∧ (∀ s : State, s.ownsArray = true → (s.pair.sliceAt + 600000000 ≤ s.now ∨ 12288 ≤ s.pair.logUsed) →
        exec .metadataCheckpoint s = .next (s.keepOwned s.metadataCheckpoint))
    ∧ (∀ (s : State) (ages : Store Nat) (waiting : List Nat), s.ownsArray = true → s.pair.bitmapAt + 1000000 ≤ s.now →
        s.pair.rewriting = false →
        ages = ((s.activeRegions.foldl (fun m r => Store.put m r s.now) s.pair.activeAt).filter fun e => s.now < e.2 + 60000000) →
        waiting = s.cmds.vals.flatMap (fun c => if c.phase = .gathered then s.regionsWritten c else []) →
        exec .bitmapRewrite s
          = .next (s.keepOwned ((({ s with pair := { s.pair with activeAt := ages, bitmapAt := s.now } } : State).metaStart
              (.rewrite (1 - s.pair.bitmapSlot)
                (uniq (ages.map (·.1) ++ (s.bitsComing.filter fun r => !s.pair.bitmap.contains r)
                  ++ waiting.filter s.pair.bitmap.contains)) s.pair.bitmap)).run))))

/-- Doorbells and registers, in a function whose memory space answers. A tail below the depth of a submission ring that is not in ERROR
stands as the MMIO tail, but for one that the fetch pointer has reached or passed since the path's last value (R588), one at the depth or
above puts the ring into ERROR, and one of a ring that is not there or in ERROR is a protocol event (R584, R586); a head goes the way of R585, and each doorbell is an activity of its endpoint. A
ring's shadow area is read once in its interval (R587). ADMIN_EN makes the admin rings where the registers allow them and sets ADMIN_FAULT
where not; on a function whose admin rings stand it changes nothing (R730). CAUSE clears the bits written as 1 (R725); CAUSE_MASK and
INT_EN hold what is written, a bit that CAUSE has set and that becomes unmasked, or enabled, making a message due (R724); FORCE sets
the function's cause bits, a newly set unmasked one making a message due (R726); a PF reads SUPPRESSED_TOTAL and clears its copy, a
VF reads zero, and a read of 8 bytes takes EVENT_SEQ_NEXT above it in the same step (R717 to R719, R722; the fields' places and resets are R718's). A dword of an MSI-X entry takes what its
fields hold, and held messages go out where they may (R550). A function in D3hot answers with Unsupported Request, advisory for a write
(R552; its being posted is the model's choice, log entry 36). What is a path's last value a whole ring ago is log entry 55. -/
def Obligations.DoorbellsAndRegisters : Prop :=
  (∀ (s : State) (f : FnId), s.mmioOk f = true →
    (∀ r v, r < maxRings f →
      (∀ q, s.sqs.look (ringKey f r) = some q → q.st ≠ .error → v.toNat < q.depth →
        exec (.sqTail f r v) s
          = .next (s.keepOwned
              (({ s with
                  sqs := s.sqs.put (ringKey f r) { q with
                    tailMmio := if q.tailMmio = none ∧ q.pastMmio < q.depth ∧ ahead q.depth (v.toNat + q.pastMmio) q.fetch ≤ q.pastMmio
                      then none else some v.toNat,
                    pastMmio := if q.tailMmio = none ∧ q.pastMmio < q.depth ∧ ahead q.depth (v.toNat + q.pastMmio) q.fetch ≤ q.pastMmio
                      then ahead q.depth q.fetch v.toNat else 0 } }
                : State).ltrTouch f.ep)))
      ∧ (∀ q, s.sqs.look (ringKey f r) = some q → q.st ≠ .error → q.depth ≤ v.toNat →
        exec (.sqTail f r v) s = .next (s.keepOwned ((s.sqError (ringKey f r) q 1).ltrTouch f.ep)))
      ∧ (s.sqs.look (ringKey f r) = none →
        exec (.sqTail f r v) s = .next (s.keepOwned ((s.ringProtocol f r 0 4).ltrTouch f.ep)))
      ∧ (∀ q, s.sqs.look (ringKey f r) = some q → q.st = .error →
        exec (.sqTail f r v) s = .next (s.keepOwned ((s.ringProtocol f r 0 4).ltrTouch f.ep))))
    ∧ (∀ r v, r < maxRings f →
      (s.cqs.look (ringKey f r) = none →
        exec (.cqHead f r v) s = .next (s.keepOwned ((s.ringProtocol f r 1 4).ltrTouch f.ep)))
      ∧ (∀ c, s.cqs.look (ringKey f r) = some c → c.st = .error →
        exec (.cqHead f r v) s = .next (s.keepOwned ((s.ringProtocol f r 1 4).ltrTouch f.ep)))
      ∧ (∀ c, s.cqs.look (ringKey f r) = some c → c.st ≠ .error → v.toNat < c.depth →
        ahead c.depth v.toNat c.head ≤ ahead c.depth c.tail c.head →
        exec (.cqHead f r v) s
          = .next (s.keepOwned ((({ s with cqs := s.cqs.put (ringKey f r) { c with head := v.toNat } } : State).drainCq
              (ringKey f r)).ltrTouch f.ep))))
    ∧ (∀ r q addr us t, s.sqs.look (ringKey f r) = some q → q.shadow = some (addr, us) → q.st = .active → q.polledAt + us ≤ s.now →
      s.issueRead f (.shadow (ringKey f r)) addr 8 = some t →
      exec (.shadowPoll f r) s = .next (s.keepOwned { t with sqs := t.sqs.put (ringKey f r) { q with polledAt := t.now } }))
    ∧ (∀ x, x = s.fn f →
      (x.adminActive = true → exec (.adminEn f) s = .next (s.keepOwned s))
      ∧ (x.adminActive = false → 2 ≤ x.adminDepth → x.adminDepth ≤ 4096 → x.adminVector < vectorsOf f → x.asqBase ≠ 0 → x.acqBase ≠ 0 →
        s.contexts < 4096 →
        exec (.adminEn f) s
          = .next (s.keepOwned { s.setFn f { x with adminActive := true } with
              sqs := s.sqs.put (ringKey f 0) { fn := f, ring := 0, base := x.asqBase.toNat, depth := x.adminDepth, cq := 0, cls := 4,
                                               burst := 1, shadow := none },
              cqs := s.cqs.put (ringKey f 0) { fn := f, ring := 0, base := x.acqBase.toNat, depth := x.adminDepth,
                                               vector := x.adminVector, ien := true, coalCount := 1, coalTime := 0 } }))
      ∧ (x.adminActive = false →
        (x.adminDepth < 2 ∨ 4096 < x.adminDepth ∨ vectorsOf f ≤ x.adminVector ∨ x.asqBase = 0 ∨ x.acqBase = 0 ∨ 4096 ≤ s.contexts) →
        exec (.adminEn f) s = .next (s.keepOwned (s.setFn f { x with adminFault := true }))))
    ∧ (∀ v, exec (.causeWrite f v) s = .next (s.keepOwned (s.setFn f { s.fn f with cause := (s.fn f).cause &&& ~~~v })))
    ∧ (∀ v, exec (.causeMaskWrite f v) s
        = .next (s.keepOwned ((s.setFn f { s.fn f with causeMask := v &&& causeBits f }).causeDue f
            (((s.fn f).cause &&& (s.fn f).causeMask &&& ~~~(v &&& causeBits f)) ≠ 0))))
    ∧ (∀ v, exec (.intEnWrite f v) s
        = .next (s.keepOwned ((s.setFn f { s.fn f with intEn := v }).causeDue f
            (v && !(s.fn f).intEn && ((s.fn f).cause &&& ~~~(s.fn f).causeMask) ≠ 0))))
    ∧ (∀ v, exec (.force f v) s
        = .next (s.keepOwned ((s.setFn f { s.fn f with cause := (s.fn f).cause ||| (v &&& causeBits f) }).causeDue f
            (((v &&& causeBits f) &&& ~~~(s.fn f).cause &&& ~~~(s.fn f).causeMask) ≠ 0))))
    ∧ (∀ wide above, above = (if wide = true then s.recorder.next.toNat * 2 ^ 32 else 0) →
      (f.num = 0 → exec (.suppressedTotalRead ⟨f, wide⟩) s
        = .next (s.keepOwned ((s.setFn f { s.fn f with suppressedTotal := 0 }).emit
            (.registerRead f (BitVec.ofNat 64 ((s.fn f).suppressedTotal + above))))))
      ∧ (f.num ≠ 0 → exec (.suppressedTotalRead ⟨f, wide⟩) s = .next (s.keepOwned (s.emit (.registerRead f (BitVec.ofNat 64 above))))))
    ∧ (∀ v d x a h y m, v < vectorsOf f → (s.fn f).entry v = (a, h, y, m) → d < 4 →
      exec (.msixEntryWrite f v d x) s
        = .next (s.keepOwned ((s.setFn f { s.fn f with
            msix := Store.putD (0, 0, 0, true) (s.fn f).msix v
              (if d = 0 then (x &&& 0xFFFFFFFC, h, y, m) else if d = 1 then (a, x, y, m) else if d = 2 then (a, h, x, m)
               else (a, h, y, x.getLsbD 0)) }).flushPba f))))
  ∧ (∀ (s u : State) (f : FnId) (v : Word) (m : BitVec 12), s.hostOn = true → s.fnExists f = true → (s.ep f.ep).up = true →
      (s.fn f).d3 = true →
      u = (s.aer f 20 true).emit (.unsupported f) →
      (∀ r, exec (.sqTail f r v) s = .next (s.keepOwned u) ∧ exec (.cqHead f r v) s = .next (s.keepOwned u))
      ∧ (∀ b, exec (.causeWrite f m) s = .next (s.keepOwned u) ∧ exec (.causeMaskWrite f m) s = .next (s.keepOwned u)
        ∧ exec (.intEnWrite f b) s = .next (s.keepOwned u) ∧ exec (.force f m) s = .next (s.keepOwned u))
      ∧ (∀ wide, exec (.suppressedTotalRead ⟨f, wide⟩) s = .next (s.keepOwned ((s.aer f 20 false).emit (.unsupported f)))))

/-- Resets and links of the host side. FLR resets a function, of a PF its whole endpoint (R558); VF_ENABLE cleared resets its VFs, a link
that goes down its endpoint, with the time it was up recorded, and a hot reset is recorded before (R557); a link that comes up at a
rate, width and mode that R530 admits is recorded (R530). An error of the link is logged at its bit in the PF, those of the data link
layer's TLPs only outside Flit Mode, ECRC where its check is enabled (R552). A read in a BAR whose size or alignment R537 does not
accept is an Unsupported Request, and recorded, but for one of places that no block occupies, which returns zero (R537).
The form of a base address register, the signalling of Unsupported Request and the rate of 2.5 GT/s as 2 are PRESUMED (log entries 11, 36). -/
def Obligations.HostLinkRows : Prop :=
  ∀ s : State, s.hostOn = true →
    (∀ f : FnId, f.num = 0 → s.fnExists f = true → (s.ep f.ep).up = true →
      exec (.flr f) s = .next (s.keepOwned ((s.resetEp f.ep true).run)))
    ∧ (∀ f : FnId, f.num ≠ 0 → s.fnExists f = true → (s.ep f.ep).up = true →
      exec (.flr f) s = .next (s.keepOwned ((s.resetFn true f).run)))
    ∧ (∀ e u, s.endpoints.contains e = true → (s.ep e).vfEnable = true → u = s.over (s.vfsOf e) (fun s f => s.resetFn true f) →
      exec (.vfEnableCleared e) s = .next (s.keepOwned ((u.setEp e { u.ep e with vfEnable := false }).run)))
    ∧ (∀ e u, (s.ep e).up = true →
      u = (s.resetEp e false).fnEvent Ev.hostLinkDown ⟨e, 0⟩ ((s.now - (s.ep e).upAt) / 1000) 0 →
      exec (.hostLinkDown e) s
        = .next (s.keepOwned ((u.setEp e { u.ep e with up := false, speed := 0, width := 0, flit := false }).run)))
    ∧ (∀ e, (s.ep e).up = true →
      exec (.hotReset e) s
        = .next (s.keepOwned (((s.fnEvent Ev.hostHotReset ⟨e, 0⟩ (s.functionsOf e).length 0).linkLost e).run)))
    ∧ (∀ e g w flit, s.endpoints.contains e = true → (s.ep e).up = false → g ∈ [2, 5, 8, 16, 32, 64] → w ∈ [1, 2, 4, 8, 16] →
      (w ≤ 8 ∨ s.life.bifurcated = false) → (flit = true ∨ g ≠ 64) →
      exec (.hostLinkUp e g w flit) s
        = .next (s.keepOwned ((s.setEp e { s.ep e with up := true, speed := g, width := w, flit := flit, upAt := s.now }).fnEvent
            Ev.hostLinkUp ⟨e, 0⟩ (g + w * 256 + b2n flit * 65536) 0)))
    ∧ (∀ e, s.endpoints.contains e = true →
      exec (.hostLinkError e .receiverError) s = .next (s.keepOwned (s.aerCorrectable ⟨e, 0⟩ 0))
      ∧ exec (.hostLinkError e .badTlp) s = .next (s.keepOwned (if (s.ep e).flit = true then s else s.aerCorrectable ⟨e, 0⟩ 6))
      ∧ exec (.hostLinkError e .badDllp) s = .next (s.keepOwned (if (s.ep e).flit = true then s else s.aerCorrectable ⟨e, 0⟩ 7))
      ∧ exec (.hostLinkError e .replayRollover) s = .next (s.keepOwned (s.aerCorrectable ⟨e, 0⟩ 8))
      ∧ exec (.hostLinkError e .replayTimeout) s = .next (s.keepOwned (s.aerCorrectable ⟨e, 0⟩ 12))
      ∧ exec (.hostLinkError e .dllProtocol) s = .next (s.keepOwned (s.aer ⟨e, 0⟩ 4 false))
      ∧ exec (.hostLinkError e .flowControl) s = .next (s.keepOwned (s.aer ⟨e, 0⟩ 13 false))
      ∧ exec (.hostLinkError e .overflow) s = .next (s.keepOwned (s.aer ⟨e, 0⟩ 17 false))
      ∧ exec (.hostLinkError e .malformedTlp) s = .next (s.keepOwned (s.aer ⟨e, 0⟩ 18 false))
      ∧ exec (.hostLinkError e .ecrc) s
        = .next (s.keepOwned (if (s.fn ⟨e, 0⟩).ecrc.1 = true then s.aer ⟨e, 0⟩ 19 false else s)))
    ∧ (∀ (f : FnId) (bar offset len : Nat), s.mmioOk f = true → offset + len ≤ barSize f bar →
      ¬ (bar = 0 ∧ offset < 4096 ∧ 1 ≤ len ∧ offset + len ≤ 4096) → ¬ ((len = 4 ∨ len = 8) ∧ offset % len = 0) →
      (unoccupied f bar offset len = false →
        exec (.badRegisterRead f bar offset len) s
          = .next (s.keepOwned ((((s.aer f 20 false).emit (.unsupported f)).fnEvent Ev.hostBadAccess f
              (bar % 256 + len % 256 * 256 + 65536) offset))))
      ∧ (unoccupied f bar offset len = true → exec (.badRegisterRead f bar offset len) s = .next (s.keepOwned s)))

/-- Bus mastering, power states and completions. A function whose Bus Master Enable is cleared, or that enters D3hot, stops its requests,
and one that gets both again resumes them (R560, R556). A completion answers the outstanding read of its tag; one of a held tag that is
not silent is a late completion, and one of no tag is an unexpected completion of the PF (R541, R552). A read past its timeout ends: its tag is
held, and unless its function was reset meanwhile the timeout is logged, recorded and its reader told (R562); a tag is held for twice
the timeout (R563).
Tags, late and unexpected completions are R559's. That BME clear lets a gathered WRITE go on is read from R560 against R154 (log entry 51), and
that one completion answers a whole read and the record on entry to D3hot are the model's readings (log entry 11). -/
def Obligations.HostRequestRows : Prop :=
  ∀ s : State, s.hostOn = true →
    (∀ f : FnId, s.fnExists f = true → (s.fn f).bme = true →
      exec (.busMasterEnableCleared f) s
        = .next (s.keepOwned ((if (s.fn f).d3 = true then s.setFn f { s.fn f with bme := false }
            else (s.setFn f { s.fn f with bme := false }).stopRequests f).run)))
    ∧ (∀ f : FnId, s.fnExists f = true → (s.fn f).bme = false →
      exec (.busMasterEnableSet f) s
        = .next (s.keepOwned (((s.setFn f { s.fn f with bme := true }).resumeRequests f).run)))
    ∧ (∀ f : FnId, s.fnExists f = true → (s.fn f).d3 = false →
      exec (.d3hotEntry f) s
        = .next (s.keepOwned ((if (s.fn f).bme = true then (s.setFn f { s.fn f with d3 := true }).stopRequests f
            else s.setFn f { s.fn f with d3 := true }).run)))
    ∧ (∀ f : FnId, s.fnExists f = true → (s.fn f).d3 = true →
      exec (.d0Return f) s = .next (s.keepOwned (((s.setFn f { s.fn f with d3 := false }).resumeRequests f).run)))
    ∧ (∀ e tag r cpl, (s.ep e).up = true → (s.ep e).reads.look tag = some r →
      exec (.hostCompletion e tag cpl) s = .next (s.keepOwned ((s.readAnswered e tag r cpl).run)))
    ∧ (∀ e tag h cpl, (s.ep e).up = true → (s.ep e).reads.look tag = none → (s.ep e).held.look tag = some h →
      exec (.hostCompletion e tag cpl) s
        = .next (s.keepOwned (if h.silent = true then s
            else (s.aer h.fn 16 true).fnEvent Ev.hostLateCpl h.fn tag (s.now - h.since))))
    ∧ (∀ e tag cpl, (s.ep e).up = true → (s.ep e).reads.look tag = none → (s.ep e).held.look tag = none →
      exec (.hostCompletion e tag cpl) s = .next (s.keepOwned (s.aer ⟨e, 0⟩ 16 true)))
    ∧ (∀ e tag r u, (s.ep e).reads.look tag = some r → r.at_ + (s.fn r.fn).timeoutUs ≤ s.now →
      u = s.setEp e { s.ep e with
        reads := (s.ep e).reads.del tag,
        held := (s.ep e).held.put tag { fn := r.fn, since := s.now, timeout := (s.fn r.fn).timeoutUs, silent := r.orphan } } →
      exec (.completionTimeout e tag) s
        = .next (s.keepOwned
            (if r.orphan = true then u.pump.run
             else (((((u.aer r.fn 14 false).fnEvent Ev.hostCplTimeout r.fn tag (b2n !r.kind.isEntry)).readLost r.kind).pump).run))))
    ∧ (∀ e tag h, (s.ep e).held.look tag = some h → h.since + 2 * h.timeout ≤ s.now →
      exec (.tagHoldExpiry e tag) s = .next (s.keepOwned (s.setEp e { s.ep e with held := (s.ep e).held.del tag }).pump))

/-- Rings over time: the ring that the arbiter chooses fetches its burst, with the credits after it (R594); the coalescing time sends the
message for what is counted, where the ring's interrupt is enabled (R602); a completion ring backed up past STALL_TIMEOUT is stalled, recorded and raises its
cause, once an episode, and an empty stash pool is recorded at most once a second (R601); an endpoint without activity for 10 ms sends
its idle LTR (R555). -/
def Obligations.RingTimeRows : Prop :=
  (∀ (s : State) (cls k : Nat) (cr : List Nat) (q : Sq), s.choose = some (cls, k, cr) → s.sqs.look k = some q →
      exec .ringGrant s
        = .next (s.keepOwned (({ s with mgmt := { s.mgmt with credits := cr, lastGrant := s.mgmt.lastGrant.put cls k } }
            : State).fetchBurst k q)))
  ∧ (∀ (s u : State) (f : FnId) (r : Nat) (c : Cq), s.cqs.look (ringKey f r) = some c → s.hostOn = true → 0 < c.sinceMsg →
      c.firstAt + c.coalTime ≤ s.now → u = { s with cqs := s.cqs.put (ringKey f r) { c with sinceMsg := 0 } } →
      exec (.coalescingTime f r) s = .next (s.keepOwned (if c.ien = true then u.sendVector f c.vector else u)))
  ∧ (∀ (s : State) (f : FnId) (r t : Nat) (c : Cq), s.hostOn = true → s.cqs.look (ringKey f r) = some c → c.backedSince = some t →
      c.stalled = false → t + s.settings.stallTimeout * 1000 ≤ s.now →
      exec (.cqStall f r) s
        = .next (s.keepOwned ((({ s with cqs := s.cqs.put (ringKey f r) { c with stalled := true } } : State).fnEvent Ev.cqStall c.fn
            c.ring (c.stash.length + c.waiting.length)).raise c.fn .ringStall)))
  ∧ (∀ s : State, s.hostOn = true → 16384 ≤ s.stashed → (∀ t, s.mgmt.stashEmptyAt = some t → t + 1000000 ≤ s.now) →
      exec .stashPoolEmpty s
        = .next (s.keepOwned (({ s with mgmt := { s.mgmt with stashEmptyAt := some s.now } } : State).event Ev.stashPoolEmpty 0 0
            (s.cqs.filter fun (e : Nat × Cq) => !e.2.stash.isEmpty).length 0)))
  ∧ (∀ (s : State) (e : Nat), s.hostOn = true → (s.ep e).ltrActive = true → s.epBusy e = false → (s.ep e).lastActivity + 10000 ≤ s.now →
      exec (.ltrIdle e) s = .next (s.keepOwned ((s.setEp e { s.ep e with ltrActive := false }).sendLtr e 1000000)))

/-- Internal units, while the logic die works. A condition of R660, or a router's boundary that does not answer (cause 3), is recorded
each time and fails a module that is not FAILED, whose LAST_FATAL it then is (R660, R669); the watchdog stops ARB_HB and alerts the sideband without a change of STATE (R511). A
parity error of an HBM channel that is up is kept with those of the last 24 h, and at two the channel is mapped out (R664). A unit whose
own state has a bad word resets where R658 lets it, and a drive port's bad queue state resets its controller (R658); for a self-test a
tile drains, a channel's range of frames, and the whole channel for its march, where none other does (R636, R667, R668), and one that is
down comes up with its epoch, recorded, and with what waited for it, a drained one tested, and a tile once no job runs on it (R657, R667);
epochs that had to wait advance first (R652), and an HBM channel's share moves back (R668). Clocks: below 94 % a clock of 100 % goes to 50 % (R38) and below 90 % one
that is not at 25 % goes there (R39), each counted, and a lower clock keeps its 1 µs wait anew; after 1 µs a clock rises one step (R40). The reference clock's
loss is recorded and fails the device once (R745). 100 °C is recorded once until the warning ends (R755); 115 °C fails the device and
holds the logic die in reset, after the pass where one runs, for 60 s (R756). That a test's march drains a channel and that the wait of 1 µs
begins anew at each step of a clock are the model's choices (log entries 14, 55).
That the watchdog leaves STATE, and how drains and map-outs are recorded, are the model's readings (log entry 32). -/
def Obligations.InternalUnitRows : Prop :=
  ∀ s : State, s.live = true →
    (∀ cause i u, 0 < cause → cause ≤ 6 → u = s.event Ev.fatalInternal (i % 256) cause i 0 →
      exec (.fatalCondition cause i) s
        = .next (s.keepOwned ((if s.life.st = .failed then u else u.failWith cause).run)))
    ∧ (∀ i u, 234 ≤ i → i ≤ 249 →
      u = s.event Ev.fatalInternal (i % 256) 3 i 0 →
      exec (.routerTimeout i) s
        = .next (s.keepOwned ((if s.life.st = .failed then u else u.failWith 3).run)))
    ∧ (exec .watchdogExpiry s
        = .next (s.keepOwned (({ s.hbLow with life := { s.hbLow.life with hbStopped := true } } : State).alert .fatal)))
    ∧ (∀ c u, c < 32 → (s.island (66 + c)).status ≠ 1 → (s.island (66 + c)).status ≠ 3 →
      u = s.updIsland (66 + c) (fun x => { x with parityTimes := dayWindow s.now (s.island (66 + c)).parityTimes }) →
      exec (.hbmParityError c) s
        = .next (s.keepOwned
            ((if 2 ≤ (dayWindow s.now (s.island (66 + c)).parityTimes).length then u.beginMapOut (66 + c) else u).run)))
    ∧ (∀ i, i < 260 → canReset i = true → ((s.island i).status = 0 ∨ (s.island i).status = 2) →
      exec (.unitDown i .reset) s = .next (s.keepVault (s.resetIsland i)))
    ∧ (∀ p, p < 64 → (s.port p).linkUp = true → (s.port p).resetWhy = none → (s.port p).ctl ≠ .off → (s.port p).ctl ≠ .unused →
      (s.port p).ctl ≠ .failed → exec (.unitDown p .reset) s = .next (s.keepVault (s.resetController p .queueState)))
    ∧ (∀ i, ((66 ≤ i ∧ i < 98) ∨ (114 ≤ i ∧ i < 162)) → s.mgmt.selfTest.status = 1 → (s.island i).status = 0 →
      s.mgmt.selfTest.range = none →
      s.islands.any (fun (e : Nat × Island) => e.2.status = 2 || (e.2.status = 1 && e.2.drained)) = false →
      (i ∈ s.mgmt.selfTest.units → i < 98 →
        exec (.unitDown i .drained) s
          = .next (s.keepVault { s with mgmt := { s.mgmt with selfTest := { s.mgmt.selfTest with range := some (i - 66, false) } } }))
      ∧ (i ∈ s.mgmt.selfTest.units ∧ 114 ≤ i ∨ i ∉ s.mgmt.selfTest.units ∧ i ∈ s.mgmt.selfTest.marches ∧ s.shortDone = true →
        exec (.unitDown i .drained) s = .next (s.keepVault (s.setIsland i { s.island i with status := 2 }))))
    ∧ (∀ i t x u, t = s.lateEpochs → t.live = true → x = t.island i → x.status = 1 →
      (114 ≤ i → i < 162 → (t.tile (i - 114)).running = none) → x.advanceDue = false → x.drained = false →
      u = t.setIsland i { x with advanceDue := false, drained := false, status := 0, upAt := some t.now } →
      exec (.unitUp i) s
        = .next (s.keepVault
            (((if 66 ≤ i ∧ i < 98 then { u with mgmt := { u.mgmt with shares := u.mgmt.shares.del (i - 66) } } else u).event Ev.unitUp
              (i % 256) i x.epoch.toNat 0).unitBack i)))
    ∧ (∀ i t x u, t = s.lateEpochs → t.live = true → x = t.island i → x.status = 1 →
      (114 ≤ i → i < 162 → (t.tile (i - 114)).running = none) → (x.advanceDue = true ∨ x.drained = true) →
      (∀ v, x.advancedAt = some v → v + 1000 ≤ t.now) →
      u = (let v := t.setIsland i { x with epoch := x.epoch + 1, advancedAt := some t.now, advanceDue := false,
                                           drained := false, status := 0, upAt := some t.now }
        if x.drained = true then v.unitTested i else v) →
      exec (.unitUp i) s
        = .next (s.keepVault
            (((if 66 ≤ i ∧ i < 98 then { u with mgmt := { u.mgmt with shares := u.mgmt.shares.del (i - 66) } } else u).event Ev.unitUp
              (i % 256) i (x.epoch + 1).toNat 0).unitBack i)))
    ∧ (∀ i, i < 260 →
      exec (.droopStretch50 i) s
        = .next (s.keepOwned (if (s.island i).clock = 0 then s.countDroop i false
            else s.setIsland i { s.island i with clockAt := s.now })))
    ∧ (∀ i, i < 260 →
      exec (.droopStretch25 i) s
        = .next (s.keepOwned (if (s.island i).clock = 2 then s.setIsland i { s.island i with clockAt := s.now }
            else s.countDroop i true)))
    ∧ (∀ i, (s.island i).clock ≠ 0 → (s.island i).clockAt + 1 ≤ s.now →
      exec (.droopRecover i) s
        = .next (s.keepOwned (if (s.island i).clock = 2 then s.countDroop i false
            else s.setIsland i { s.island i with clock := 0, clockAt := s.now })))
    ∧ (s.life.refclkLost = false →
      exec .refclkLost s
        = .next (s.keepOwned (((({ s with life := { s.life with refclkLost := true } } : State).event Ev.refclkLost 0 s.life.st.code 0
            0).failDevice).run)))
    ∧ (∀ i t, s.recorder.thermalWarn = false → 800 ≤ t →
      exec (.thermalWarn i t) s
        = .next (s.keepOwned (({ s with recorder := { s.recorder with thermalWarn := true } } : State).record Ev.thermalWarn ⟨none, 0⟩
            (w32 i) (BitVec.ofInt 32 t) 0)))
    ∧ (exec .thermalWarnEnd s = .next (s.keepOwned { s with recorder := { s.recorder with thermalWarn := false } }))
    ∧ (∀ i t u v, s.life.thermalHold = none → 920 ≤ t →
      u = (s.updPack fun p => { p with thermalTrip := some (i, t, s.life.st) }).failDevice →
      v = { u with life := { u.life with thermalHold := some 0 } } →
      exec (.thermalTrip i t) s = .next (s.keepOwned (if v.passOpen = true then v else v.dieReset none)))
    ∧ (∀ v : State, v.life.inReset = false → v.life.thermalHold = some 0 →
      (v.dieReset none).life.thermalHold = some (v.now + 60000000))

/-- The sideband while it serves its bus. An SMBus Block Write whose PEC is wrong is counted and recorded, and one of 4 to 32 bytes of
whole registers writes them; an I3C private write of whole registers does too and sets the offset of later reads (R702). ALERT_STATUS clears the bits written as 1 and
ALERT_ENABLE holds what is written, a 1 over a set cause making the alert pending; the Alert Response Address is answered with the
target's own and ends the alert, an in-band interrupt ends it where acknowledged and is raised again after 1 ms where not (R713). A read
of PEC_ERRORS clears it (R704). ENTDAA and SETDASA assign a dynamic address in SMBus mode, RSTDAA returns to SMBus mode, ENEC and DISEC
enable and disable in-band interrupts (R699). A Block Read answers with a count of 32, the bytes from its offset, and a PEC where the controller
reads one past the block; an I3C private read answers with up to 64 bytes from the last offset written, which advances (R702, R703). A
mailbox command's completion clears BUSY and STALE, sets the result code and words, advances CMD_SEQ and raises CMD_DONE, a CLEAR_EVENTS
that succeeds having emptied the recorder (R706, R710). The model's choices: what discards a write, an alert without an enabled bit and the
reads' row (log entry 34), and the polynomial of the PEC (PRESUMED, log entry 55). -/
def Obligations.SidebandRows : Prop :=
  ∀ s : State, s.sbOn = true →
    (∀ off n data u, s.sb.i3c = false → u = s.updSb (fun b => { b with pecErrors := min 65535 (b.pecErrors + 1) }) →
      exec (.registerWrite (.smbus off n data (some false))) s
        = .next (s.keepOwned (u.event Ev.sbPecError 0 off u.sb.pecErrors 0)))
    ∧ (∀ off n data pec, s.sb.i3c = false → pec ≠ some false → off % 4 = 0 → 4 ≤ n → n ≤ 32 → n % 4 = 0 → data.length = n →
      exec (.registerWrite (.smbus off n data pec)) s = .next (s.keepOwned (s.sbWrites off data)))
    ∧ (∀ off data, s.sb.i3c = true → off % 4 = 0 → data.length % 4 = 0 →
      exec (.registerWrite (.i3c off data)) s
        = .next (s.keepOwned ((s.updSb fun b => { b with lastOffset := off }).sbWrites off data)))
    ∧ (∀ off a reply, s.sb.i3c = false → off % 4 = 0 → a = BitVec.ofNat 8 (2 * s.sbAddress) → reply = 32#8 :: s.sbBytes off 32 →
      exec (.registerWrite (.smbusRead off false)) s = .next (s.keepOwned ((s.emit (.sidebandReply reply)).sbReadClears off 32))
      ∧ exec (.registerWrite (.smbusRead off true)) s
        = .next (s.keepOwned ((s.emit (.sidebandReply (reply ++ [pecOf (a :: BitVec.ofNat 8 off :: (a + 1) :: reply)]))).sbReadClears off
            32)))
    ∧ (∀ n, s.sb.i3c = true →
      exec (.registerWrite (.i3cRead n)) s
        = .next (s.keepOwned (((s.emit (.sidebandReply (s.sbBytes s.sb.lastOffset (min 64 n)))).sbReadClears s.sb.lastOffset
            (min 64 n)).updSb fun b => { b with lastOffset := s.sb.lastOffset + min 64 n })))
    ∧ (∀ v, exec (.alertStatusClear v) s
        = .next (s.keepOwned (s.updSb fun b => { b with status := b.status &&& ~~~v }).alertSettles))
    ∧ (∀ v u, u = s.updSb (fun b => { b with enable := v }) →
      exec (.alertEnableWrite v) s
        = .next (s.keepOwned (if s.sb.status &&& v ≠ 0 then u.alertPending else u.alertSettles)))
    ∧ (exec .pecErrorsRead s
        = .next (s.keepOwned ((s.updSb fun b => { b with pecErrors := 0 }).emit (.sidebandReply (toLe 4 s.sb.pecErrors)))))
    ∧ (s.sb.i3c = false → s.sb.alert = true →
      exec .alertResponse s = .next (s.keepOwned (s.emit (.sidebandReply (toLe 1 (2 * s.sbAddress)))).endAlert))
    ∧ (s.sb.i3c = true → s.sb.ibiEnabled = true → s.sb.alert = true → exec (.ibiRetry true) s = .next (s.keepOwned s.endAlert))
    ∧ (s.sb.i3c = true → s.sb.ibiEnabled = true → s.sb.alert = true → s.sb.ibiAt + 1000 ≤ s.now →
      exec (.ibiRetry false) s = .next (s.keepOwned s.raiseIbi))
    ∧ (∀ a, s.sb.i3c = false →
      exec (.entdaa a) s
        = .next (s.keepOwned ((s.updSb fun b => { b with i3c := true, dynAddr := a % 128 }).event Ev.sbMode 0 1 (a % 128)
            s.sbAddress))
      ∧ exec (.setdasa a) s
        = .next (s.keepOwned ((s.updSb fun b => { b with i3c := true, dynAddr := a % 128 }).event Ev.sbMode 0 1 (a % 128)
            s.sbAddress)))
    ∧ (∀ u, s.sb.i3c = true → u = s.updSb (fun b => { b with i3c := false, dynAddr := 0, ibiEnabled := false }) →
      exec .rstdaa s = .next (s.keepOwned (u.event Ev.sbMode 0 0 0 s.sbAddress)))
    ∧ (s.sb.i3c = true → s.sb.ibiEnabled = false →
      exec .enec s = .next (s.keepOwned (s.updSb fun b => { b with ibiEnabled := true }).raiseIbi))
    ∧ (s.sb.i3c = true → exec .disec s = .next (s.keepOwned (s.updSb fun b => { b with ibiEnabled := false })))
    ∧ (∀ code words u, s.sb.busy = true → s.mailboxResult s.sb.cmd s.sb.cmdArgs = (code, words) →
      u = (if s.sb.cmd = 5 ∧ code = 0 then s.clearRecords none else s) →
      exec .mailboxComplete s
        = .next (s.keepOwned ((u.updSb fun b => { b with
            busy := false, stale := false, resultCode := code, cmdSeq := nextCmdSeq b.cmdSeq,
            results := words ++ List.replicate (8 - words.length) 0 }).alert .cmdDone)))

/-- The I3C characteristics are answered in I3C mode (R699): the part identifier 0x6440 and the low 12 bits of the identity stand in
GETPID, and GETMRL answers 64 (R702); the other bits and answers, which no rule gives, are free values. A write to a BAR (R537) that is not poisoned and is 4 or 8
bytes, aligned to its size, writes its words, and one to places that no block occupies is discarded; a base address register of a PF keeps what is written
above its size and reads as 64-bit and not prefetchable (R535, its reading by the PCIe standard PRESUMED 36); a write to configuration space of a function whose link is up writes its field (R14).
Which characteristics are open values (log entry 8, 0x13C) and GETMRL (log entry 34) are the model's. -/
def Obligations.I3cAnswersAndRegisters : Prop :=
  (∀ s : State, s.sbOn = true → s.sb.i3c = true →
      exec .getpid s
        = .next (s.keepOwned (s.emit (.sidebandReply ((openBytes 0x8D 2).reverse ++ (toLe 2 0x6440).reverse
            ++ (toLe 2 ((Config.openValue 0x13C 0x18D).toNat % 16 * 4096 + field Config.identity.toNat 0 12)).reverse))))
      ∧ exec .getbcr s = .next (s.keepOwned (s.emit (.sidebandReply (openBytes 0x8E 1))))
      ∧ exec .getdcr s = .next (s.keepOwned (s.emit (.sidebandReply (openBytes 0x8F 1))))
      ∧ exec .getstatus s = .next (s.keepOwned (s.emit (.sidebandReply (openBytes (0x90 + 256 * s.now) 2))))
      ∧ exec .getmwl s = .next (s.keepOwned (s.emit (.sidebandReply (openBytes 0x8B 2))))
      ∧ exec .getmrl s = .next (s.keepOwned (s.emit (.sidebandReply (toLe 2 64).reverse))))
  ∧ (∀ (s u : State) (f : FnId) (bar off len : Nat) (v : BitVec 64), s.mmioOk f = true → off + len ≤ barSize f bar →
      (len = 4 ∨ (len = 8 ∧ blockAt f bar off ≠ .doorbell)) → off % len = 0 → u = s.writeWord f bar off (w32 v.toNat) →
      exec (.registerWrite (.bar f bar off len v false)) s
        = .next (s.keepOwned
            ((if len = 8 then u.writeWord f bar (off + 4) (w32 (v.toNat / 2 ^ 32)) else u).run)))
  ∧ (∀ (s : State) (f : FnId) (bar off len : Nat) (v : BitVec 64), s.mmioOk f = true → off + len ≤ barSize f bar →
      unoccupied f bar off len = true → exec (.registerWrite (.bar f bar off len v false)) s = .next (s.keepOwned s.run))
  ∧ (∀ (s : State) (e v : Nat), v < 2 ^ 32 → s.mmioOk ⟨e, 0⟩ = true →
      (s.writeBar ⟨e, 0⟩ .low0 v).readBar ⟨e, 0⟩ .low0 = v / 0x1000000 * 0x1000000 + 4
      ∧ (s.writeBar ⟨e, 0⟩ .low2 v).readBar ⟨e, 0⟩ .low2 = v / 0x10000 * 0x10000 + 4
      ∧ (s.writeBar ⟨e, 0⟩ .high0 v).readBar ⟨e, 0⟩ .high0 = v
      ∧ (s.writeBar ⟨e, 0⟩ .high2 v).readBar ⟨e, 0⟩ .high2 = v)
  ∧ (∀ (s : State) (f : FnId) (x : CfgField) (v : Nat), s.hostOn = true → s.fnExists f = true → (s.ep f.ep).up = true →
      exec (.registerWrite (.config f x v)) s = .next (s.keepOwned ((s.configWrite f x v).run)))

/-- The device settings change only by the SET_FEATURE rows that own them (R618), but for L_cfg, which the commands of the vault
lower, and never raise, where the reserve allows less (R401). -/
def Obligations.SettingsChangeOnlyBySetFeature : Prop :=
  ∀ (c : Instr) (s t : State), exec c s = .next t → setsSettings c = false →
    t.settings = { s.settings with lCfg := t.settings.lCfg } ∧ t.settings.lCfg ≤ s.settings.lCfg

/-- R585 on a completion ring that is not in ERROR: a value below the depth that lies, in ring order, from the head to the tail
becomes the head and posting resumes; any other puts the ring into ERROR, with its protocol event and cause. -/
def Obligations.CqHeadRule : Prop :=
  ∀ (s : State) (f : FnId) (r : Nat) (v : Word) (c : Cq), s.mmioOk f = true → r < maxRings f →
    s.cqs.look (ringKey f r) = some c → c.st ≠ .error →
    (v.toNat < c.depth ∧ ahead c.depth v.toNat c.head ≤ ahead c.depth c.tail c.head →
      exec (.cqHead f r v) s
        = .next (s.keepOwned ((({ s with cqs := s.cqs.put (ringKey f r) { c with head := v.toNat } } : State).drainCq
            (ringKey f r)).ltrTouch f.ep)))
    ∧ (¬ (v.toNat < c.depth ∧ ahead c.depth v.toNat c.head ≤ ahead c.depth c.tail c.head) →
      ∃ why t, exec (.cqHead f r v) s = .next t
        ∧ t = s.keepOwned ((((({ s with cqs := s.cqs.put (ringKey f r) { c with st := .error } } : State).ringProtocol c.fn c.ring 1
            why).raise c.fn .ringError)).ltrTouch f.ep)
        ∧ (t.cqs.look (ringKey f r)).map (·.st) = some .error)

/-- R705: while BUSY is 0 a CMD write copies ARG0 to ARG3, sets BUSY and STALE and starts the command; while BUSY is 1 it is
discarded, sets OVERRUN and records EV_SB_CMD_REJECTED; an ARG write changes its argument alone, so that the command in progress keeps
its copy. -/
def Obligations.MailboxCommandStarts : Prop :=
  (∀ (s : State) (c : Instr) (n : Nat), s.sbOn = true →
      (c, n) ∈ [(Instr.getIdentity, 1), (.getHealth, 2), (.readLog, 3), (.readEvent, 4), (.clearEvents, 5), (.readHistogram, 6),
        (.readPack, 7)] →
      (s.sb.busy = false →
        exec c s = .next (s.keepOwned { s with sb := { s.sb with busy := true, stale := true, cmd := n, cmdArgs := s.sb.args } }))
      ∧ (s.sb.busy = true →
        exec c s = .next (s.keepOwned (({ s with sb := { s.sb with overrun := true } } : State).event Ev.sbCmdRejected 0 n s.sb.cmdSeq
          0))))
  ∧ (∀ (s : State) (off : Nat) (v : Word), 0x18 ≤ off → off < 0x28 →
      (s.sbWrite off v).sb = { s.sb with args := s.sb.args.zipIdx.map fun e => if e.2 = (off - 0x18) / 4 then v else e.1 })

/-- R622: VOLUME_ATTACH to a volume attached elsewhere fails with VOLUME_ATTACHED, and to the function that already holds it it
succeeds without effect; a volume holds at most one function. -/
def Obligations.AttachedAtMostOnce : Prop :=
  ∀ (s : State) (acc : Nat) (c : Cmd) (v : Volume) (g : FnId), s.startable acc 0x8D anyForm = some c →
    s.fnExists ⟨c.sqe.pfield 1 8 1, c.sqe.pfield 1 0 8⟩ = true → s.volumes.look (c.sqe.pfield 0 0 12) = some v → v.deleting = false →
    v.attached = some g →
    (g ≠ ⟨c.sqe.pfield 1 8 1, c.sqe.pfield 1 0 8⟩ →
      exec (.volumeAttach acc) s = .next (s.keepOwned ((s.finish c.acc St.volumeAttached).run)))
    ∧ (g = ⟨c.sqe.pfield 1 8 1, c.sqe.pfield 1 0 8⟩ → v.detaching = none →
      exec (.volumeAttach acc) s = .next (s.keepOwned ((s.finish c.acc St.success).run)))

/-- R107: the coefficient is the quotient, so that times x_j + y_i it gives x_0 + y_i = y_i; c_{0,i} is 1 for every i, and check row 0
is the exclusive OR of the data. -/
def Obligations.Coefficients : Prop :=
  (∀ i j : Nat, i ≤ 55 → j ≤ 7 →
      gfMul (coefficient j i) (BitVec.ofNat 8 j ^^^ BitVec.ofNat 8 (8 + i)) = BitVec.ofNat 8 0 ^^^ BitVec.ofNat 8 (8 + i))
  ∧ (∀ i : Nat, i ≤ 55 → coefficient 0 i = 1)
  ∧ (∀ data : List Byte, data.length ≤ 56 → checkByte 0 data = data.foldl (· ^^^ ·) 0)

/-- When data position i of a single-tier line changes from d to d', check row j changes by c_{j,i} × (d + d') (R113), and that factor
is the one by which the model reaches the check position D + j of a valid template of one Reed–Solomon tier (R109, R114). -/
def Obligations.CheckRowDelta : Prop :=
  (∀ (j i : Nat) (data : List Byte) (d d' : Byte), data[i]? = some d →
      checkByte j (data.set i d') = checkByte j data ^^^ gfMul (coefficient j i) (d ^^^ d'))
  ∧ (∀ (m : Template) (n k i j : Nat), m.valid = true → m.tiers = [(n, k)] → 2 ≤ n - k → i < n - k → j < k →
      m.factor i (n - k + j) = some (coefficient j i))

/-- The position of a data strip has the digits of R60, is a data position of the region, and no two strips share one (R59, R60). -/
def Obligations.DataStripsHavePositions : Prop :=
  ∀ (m : Template) (k : Nat), m.valid = true → k < m.data →
    digitsOf m.tiers (m.dataPos k) = dataDigits m.tiers k ∧ m.dataPos k < m.width ∧ m.isData (m.dataPos k) = true
    ∧ stripOf m.tiers (digitsOf m.tiers (m.dataPos k)) = k

/-- A region of one tier recovers from the loss of any c positions, the number R56 guarantees for it, by the rule of R116 and R117,
and from none that is larger, for then no line is repairable. -/
def Obligations.OneTierRecoversUpToChecks : Prop :=
  ∀ (m : Template) (n k : Nat) (lost : List Nat), m.valid = true → m.tiers = [(n, k)] → lost.Nodup → (∀ p ∈ lost, p < n) →
    (recoverable m lost = true ↔ lost.length ≤ k)

/-- Every record store, of any type of record, keeps its keys rising under its operations, and reads back what was written at a key and at no
other (the form of the tables is the model's choice, log entry 40). -/
def Obligations.StoresKeepTheirForm : Prop :=
  ∀ (α : Type) (_ : DecidableEq α) (d : α) (m : Store α) (k : Nat) (v : α) (f : α → α) (g : Nat → α → α) (q : Nat → α → Bool),
    Store.wf m = true →
    Store.wf (m.put k v) = true ∧ Store.wf (m.del k) = true ∧ Store.wf (m.putD d k v) = true ∧ Store.wf (m.upd k f) = true
    ∧ Store.wf (m.each g) = true ∧ Store.wf (m.keep q) = true
    ∧ (m.putD d k v).read k d = v ∧ (∀ k', k' ≠ k → (m.putD d k v).read k' d = m.read k' d)

/-- R722: every count of a record left unrecorded increments both PFs' copies of SUPPRESSED_TOTAL, and a read by one PF clears that
PF's copy and no other function's. -/
def Obligations.SuppressedTotalPerPf : Prop :=
  (∀ (s : State) (code e : Nat), e ∈ s.endpoints →
      ((s.countUnrecorded code).fn ⟨e, 0⟩).suppressedTotal = min 0xFFFFFFFF ((s.fn ⟨e, 0⟩).suppressedTotal + 1))
  ∧ (∀ (s : State) (e : Nat), s.mmioOk ⟨e, 0⟩ = true →
      ∃ t, exec (.suppressedTotalRead ⟨⟨e, 0⟩, false⟩) s = .next t ∧ (t.fn ⟨e, 0⟩).suppressedTotal = 0
        ∧ ∀ f : FnId, fnKey f ≠ fnKey ⟨e, 0⟩ → t.fn f = s.fn f)

/-- While a completion ring is backed up (64 stashed entries, or one with the pool empty), no submission ring bound to it receives a
grant (R599, R594): RING_GRANT never chooses one. -/
def Obligations.BackedUpRingsGetNoGrant : Prop :=
  ∀ (s : State) (cls k : Nat) (credits : List Nat), s.choose = some (cls, k, credits) →
    ∃ q c, (k, q) ∈ s.sqs ∧ s.cqs.look (ringKey q.fn q.cq) = some c ∧ q.st = .active ∧ c.stash.length < 64
      ∧ (c.stash = [] ∨ s.stashed < 16384)
end

