-- ==== Sys2Proof/Laws/State.lean ====
section
/-! SUPPORT. What each shared update of the state writes and what it leaves: one lemma for each field and update, so that no proof
unfolds a record update. -/

namespace Sys2Proof.Machine

open Sys2Proof

variable (s : State)

/-! ### `emit` -/

@[simp] theorem State.emit_pending (o : Output) : (s.emit o).pending = s.pending := rfl
@[simp] theorem State.emit_now (o : Output) : (s.emit o).now = s.now := rfl
@[simp] theorem State.emit_choice (o : Output) : (s.emit o).choice = s.choice := rfl
@[simp] theorem State.emit_fresh (o : Output) : (s.emit o).fresh = s.fresh := rfl
@[simp] theorem State.emit_out (o : Output) : (s.emit o).out = o :: s.out := rfl
@[simp] theorem State.emit_nextId (o : Output) : (s.emit o).nextId = s.nextId := rfl
@[simp] theorem State.emit_nextAcc (o : Output) : (s.emit o).nextAcc = s.nextAcc := rfl
@[simp] theorem State.emit_todo (o : Output) : (s.emit o).todo = s.todo := rfl
@[simp] theorem State.emit_life (o : Output) : (s.emit o).life = s.life := rfl
@[simp] theorem State.emit_pair (o : Output) : (s.emit o).pair = s.pair := rfl
@[simp] theorem State.emit_eps (o : Output) : (s.emit o).eps = s.eps := rfl
@[simp] theorem State.emit_fns (o : Output) : (s.emit o).fns = s.fns := rfl
@[simp] theorem State.emit_sqs (o : Output) : (s.emit o).sqs = s.sqs := rfl
@[simp] theorem State.emit_cqs (o : Output) : (s.emit o).cqs = s.cqs := rfl
@[simp] theorem State.emit_cmds (o : Output) : (s.emit o).cmds = s.cmds := rfl
@[simp] theorem State.emit_templates (o : Output) : (s.emit o).templates = s.templates := rfl
@[simp] theorem State.emit_pools (o : Output) : (s.emit o).pools = s.pools := rfl
@[simp] theorem State.emit_members (o : Output) : (s.emit o).members = s.members := rfl
@[simp] theorem State.emit_volumes (o : Output) : (s.emit o).volumes = s.volumes := rfl
@[simp] theorem State.emit_regions (o : Output) : (s.emit o).regions = s.regions := rfl
@[simp] theorem State.emit_work (o : Output) : (s.emit o).work = s.work := rfl
@[simp] theorem State.emit_settings (o : Output) : (s.emit o).settings = s.settings := rfl
@[simp] theorem State.emit_wp (o : Output) : (s.emit o).wp = s.wp := rfl
@[simp] theorem State.emit_frames (o : Output) : (s.emit o).frames = s.frames := rfl
@[simp] theorem State.emit_heads (o : Output) : (s.emit o).heads = s.heads := rfl
@[simp] theorem State.emit_locks (o : Output) : (s.emit o).locks = s.locks := rfl
@[simp] theorem State.emit_tasks (o : Output) : (s.emit o).tasks = s.tasks := rfl
@[simp] theorem State.emit_table (o : Output) : (s.emit o).table = s.table := rfl
@[simp] theorem State.emit_staging (o : Output) : (s.emit o).staging = s.staging := rfl
@[simp] theorem State.emit_parisons (o : Output) : (s.emit o).parisons = s.parisons := rfl
@[simp] theorem State.emit_streams (o : Output) : (s.emit o).streams = s.streams := rfl
@[simp] theorem State.emit_tiles (o : Output) : (s.emit o).tiles = s.tiles := rfl
@[simp] theorem State.emit_tileWait (o : Output) : (s.emit o).tileWait = s.tileWait := rfl
@[simp] theorem State.emit_ports (o : Output) : (s.emit o).ports = s.ports := rfl
@[simp] theorem State.emit_journal (o : Output) : (s.emit o).journal = s.journal := rfl
@[simp] theorem State.emit_vault (o : Output) : (s.emit o).vault = s.vault := rfl
@[simp] theorem State.emit_pack (o : Output) : (s.emit o).pack = s.pack := rfl
@[simp] theorem State.emit_link (o : Output) : (s.emit o).link = s.link := rfl
@[simp] theorem State.emit_gov (o : Output) : (s.emit o).gov = s.gov := rfl
@[simp] theorem State.emit_islands (o : Output) : (s.emit o).islands = s.islands := rfl
@[simp] theorem State.emit_suspects (o : Output) : (s.emit o).suspects = s.suspects := rfl
@[simp] theorem State.emit_learned (o : Output) : (s.emit o).learned = s.learned := rfl
@[simp] theorem State.emit_recorder (o : Output) : (s.emit o).recorder = s.recorder := rfl
@[simp] theorem State.emit_sb (o : Output) : (s.emit o).sb = s.sb := rfl
@[simp] theorem State.emit_mgmt (o : Output) : (s.emit o).mgmt = s.mgmt := rfl

/-! ### `setEp` -/

@[simp] theorem State.setEp_pending (e : Nat) (v : Endpoint) : (s.setEp e v).pending = s.pending := rfl
@[simp] theorem State.setEp_now (e : Nat) (v : Endpoint) : (s.setEp e v).now = s.now := rfl
@[simp] theorem State.setEp_choice (e : Nat) (v : Endpoint) : (s.setEp e v).choice = s.choice := rfl
@[simp] theorem State.setEp_fresh (e : Nat) (v : Endpoint) : (s.setEp e v).fresh = s.fresh := rfl
@[simp] theorem State.setEp_out (e : Nat) (v : Endpoint) : (s.setEp e v).out = s.out := rfl
@[simp] theorem State.setEp_nextId (e : Nat) (v : Endpoint) : (s.setEp e v).nextId = s.nextId := rfl
@[simp] theorem State.setEp_nextAcc (e : Nat) (v : Endpoint) : (s.setEp e v).nextAcc = s.nextAcc := rfl
@[simp] theorem State.setEp_todo (e : Nat) (v : Endpoint) : (s.setEp e v).todo = s.todo := rfl
@[simp] theorem State.setEp_life (e : Nat) (v : Endpoint) : (s.setEp e v).life = s.life := rfl
@[simp] theorem State.setEp_pair (e : Nat) (v : Endpoint) : (s.setEp e v).pair = s.pair := rfl
@[simp] theorem State.setEp_eps (e : Nat) (v : Endpoint) : (s.setEp e v).eps = s.eps.putD {} e v := rfl
@[simp] theorem State.setEp_fns (e : Nat) (v : Endpoint) : (s.setEp e v).fns = s.fns := rfl
@[simp] theorem State.setEp_sqs (e : Nat) (v : Endpoint) : (s.setEp e v).sqs = s.sqs := rfl
@[simp] theorem State.setEp_cqs (e : Nat) (v : Endpoint) : (s.setEp e v).cqs = s.cqs := rfl
@[simp] theorem State.setEp_cmds (e : Nat) (v : Endpoint) : (s.setEp e v).cmds = s.cmds := rfl
@[simp] theorem State.setEp_templates (e : Nat) (v : Endpoint) : (s.setEp e v).templates = s.templates := rfl
@[simp] theorem State.setEp_pools (e : Nat) (v : Endpoint) : (s.setEp e v).pools = s.pools := rfl
@[simp] theorem State.setEp_members (e : Nat) (v : Endpoint) : (s.setEp e v).members = s.members := rfl
@[simp] theorem State.setEp_volumes (e : Nat) (v : Endpoint) : (s.setEp e v).volumes = s.volumes := rfl
@[simp] theorem State.setEp_regions (e : Nat) (v : Endpoint) : (s.setEp e v).regions = s.regions := rfl
@[simp] theorem State.setEp_work (e : Nat) (v : Endpoint) : (s.setEp e v).work = s.work := rfl
@[simp] theorem State.setEp_settings (e : Nat) (v : Endpoint) : (s.setEp e v).settings = s.settings := rfl
@[simp] theorem State.setEp_wp (e : Nat) (v : Endpoint) : (s.setEp e v).wp = s.wp := rfl
@[simp] theorem State.setEp_frames (e : Nat) (v : Endpoint) : (s.setEp e v).frames = s.frames := rfl
@[simp] theorem State.setEp_heads (e : Nat) (v : Endpoint) : (s.setEp e v).heads = s.heads := rfl
@[simp] theorem State.setEp_locks (e : Nat) (v : Endpoint) : (s.setEp e v).locks = s.locks := rfl
@[simp] theorem State.setEp_tasks (e : Nat) (v : Endpoint) : (s.setEp e v).tasks = s.tasks := rfl
@[simp] theorem State.setEp_table (e : Nat) (v : Endpoint) : (s.setEp e v).table = s.table := rfl
@[simp] theorem State.setEp_staging (e : Nat) (v : Endpoint) : (s.setEp e v).staging = s.staging := rfl
@[simp] theorem State.setEp_parisons (e : Nat) (v : Endpoint) : (s.setEp e v).parisons = s.parisons := rfl
@[simp] theorem State.setEp_streams (e : Nat) (v : Endpoint) : (s.setEp e v).streams = s.streams := rfl
@[simp] theorem State.setEp_tiles (e : Nat) (v : Endpoint) : (s.setEp e v).tiles = s.tiles := rfl
@[simp] theorem State.setEp_tileWait (e : Nat) (v : Endpoint) : (s.setEp e v).tileWait = s.tileWait := rfl
@[simp] theorem State.setEp_ports (e : Nat) (v : Endpoint) : (s.setEp e v).ports = s.ports := rfl
@[simp] theorem State.setEp_journal (e : Nat) (v : Endpoint) : (s.setEp e v).journal = s.journal := rfl
@[simp] theorem State.setEp_vault (e : Nat) (v : Endpoint) : (s.setEp e v).vault = s.vault := rfl
@[simp] theorem State.setEp_pack (e : Nat) (v : Endpoint) : (s.setEp e v).pack = s.pack := rfl
@[simp] theorem State.setEp_link (e : Nat) (v : Endpoint) : (s.setEp e v).link = s.link := rfl
@[simp] theorem State.setEp_gov (e : Nat) (v : Endpoint) : (s.setEp e v).gov = s.gov := rfl
@[simp] theorem State.setEp_islands (e : Nat) (v : Endpoint) : (s.setEp e v).islands = s.islands := rfl
@[simp] theorem State.setEp_suspects (e : Nat) (v : Endpoint) : (s.setEp e v).suspects = s.suspects := rfl
@[simp] theorem State.setEp_learned (e : Nat) (v : Endpoint) : (s.setEp e v).learned = s.learned := rfl
@[simp] theorem State.setEp_recorder (e : Nat) (v : Endpoint) : (s.setEp e v).recorder = s.recorder := rfl
@[simp] theorem State.setEp_sb (e : Nat) (v : Endpoint) : (s.setEp e v).sb = s.sb := rfl
@[simp] theorem State.setEp_mgmt (e : Nat) (v : Endpoint) : (s.setEp e v).mgmt = s.mgmt := rfl

/-! ### `setFn` -/

@[simp] theorem State.setFn_pending (f : FnId) (v : Fn) : (s.setFn f v).pending = s.pending := rfl
@[simp] theorem State.setFn_now (f : FnId) (v : Fn) : (s.setFn f v).now = s.now := rfl
@[simp] theorem State.setFn_choice (f : FnId) (v : Fn) : (s.setFn f v).choice = s.choice := rfl
@[simp] theorem State.setFn_fresh (f : FnId) (v : Fn) : (s.setFn f v).fresh = s.fresh := rfl
@[simp] theorem State.setFn_out (f : FnId) (v : Fn) : (s.setFn f v).out = s.out := rfl
@[simp] theorem State.setFn_nextId (f : FnId) (v : Fn) : (s.setFn f v).nextId = s.nextId := rfl
@[simp] theorem State.setFn_nextAcc (f : FnId) (v : Fn) : (s.setFn f v).nextAcc = s.nextAcc := rfl
@[simp] theorem State.setFn_todo (f : FnId) (v : Fn) : (s.setFn f v).todo = s.todo := rfl
@[simp] theorem State.setFn_life (f : FnId) (v : Fn) : (s.setFn f v).life = s.life := rfl
@[simp] theorem State.setFn_pair (f : FnId) (v : Fn) : (s.setFn f v).pair = s.pair := rfl
@[simp] theorem State.setFn_eps (f : FnId) (v : Fn) : (s.setFn f v).eps = s.eps := rfl
@[simp] theorem State.setFn_fns (f : FnId) (v : Fn) : (s.setFn f v).fns = s.fns.putD {} (fnKey f) v := rfl
@[simp] theorem State.setFn_sqs (f : FnId) (v : Fn) : (s.setFn f v).sqs = s.sqs := rfl
@[simp] theorem State.setFn_cqs (f : FnId) (v : Fn) : (s.setFn f v).cqs = s.cqs := rfl
@[simp] theorem State.setFn_cmds (f : FnId) (v : Fn) : (s.setFn f v).cmds = s.cmds := rfl
@[simp] theorem State.setFn_templates (f : FnId) (v : Fn) : (s.setFn f v).templates = s.templates := rfl
@[simp] theorem State.setFn_pools (f : FnId) (v : Fn) : (s.setFn f v).pools = s.pools := rfl
@[simp] theorem State.setFn_members (f : FnId) (v : Fn) : (s.setFn f v).members = s.members := rfl
@[simp] theorem State.setFn_volumes (f : FnId) (v : Fn) : (s.setFn f v).volumes = s.volumes := rfl
@[simp] theorem State.setFn_regions (f : FnId) (v : Fn) : (s.setFn f v).regions = s.regions := rfl
@[simp] theorem State.setFn_work (f : FnId) (v : Fn) : (s.setFn f v).work = s.work := rfl
@[simp] theorem State.setFn_settings (f : FnId) (v : Fn) : (s.setFn f v).settings = s.settings := rfl
@[simp] theorem State.setFn_wp (f : FnId) (v : Fn) : (s.setFn f v).wp = s.wp := rfl
@[simp] theorem State.setFn_frames (f : FnId) (v : Fn) : (s.setFn f v).frames = s.frames := rfl
@[simp] theorem State.setFn_heads (f : FnId) (v : Fn) : (s.setFn f v).heads = s.heads := rfl
@[simp] theorem State.setFn_locks (f : FnId) (v : Fn) : (s.setFn f v).locks = s.locks := rfl
@[simp] theorem State.setFn_tasks (f : FnId) (v : Fn) : (s.setFn f v).tasks = s.tasks := rfl
@[simp] theorem State.setFn_table (f : FnId) (v : Fn) : (s.setFn f v).table = s.table := rfl
@[simp] theorem State.setFn_staging (f : FnId) (v : Fn) : (s.setFn f v).staging = s.staging := rfl
@[simp] theorem State.setFn_parisons (f : FnId) (v : Fn) : (s.setFn f v).parisons = s.parisons := rfl
@[simp] theorem State.setFn_streams (f : FnId) (v : Fn) : (s.setFn f v).streams = s.streams := rfl
@[simp] theorem State.setFn_tiles (f : FnId) (v : Fn) : (s.setFn f v).tiles = s.tiles := rfl
@[simp] theorem State.setFn_tileWait (f : FnId) (v : Fn) : (s.setFn f v).tileWait = s.tileWait := rfl
@[simp] theorem State.setFn_ports (f : FnId) (v : Fn) : (s.setFn f v).ports = s.ports := rfl
@[simp] theorem State.setFn_journal (f : FnId) (v : Fn) : (s.setFn f v).journal = s.journal := rfl
@[simp] theorem State.setFn_vault (f : FnId) (v : Fn) : (s.setFn f v).vault = s.vault := rfl
@[simp] theorem State.setFn_pack (f : FnId) (v : Fn) : (s.setFn f v).pack = s.pack := rfl
@[simp] theorem State.setFn_link (f : FnId) (v : Fn) : (s.setFn f v).link = s.link := rfl
@[simp] theorem State.setFn_gov (f : FnId) (v : Fn) : (s.setFn f v).gov = s.gov := rfl
@[simp] theorem State.setFn_islands (f : FnId) (v : Fn) : (s.setFn f v).islands = s.islands := rfl
@[simp] theorem State.setFn_suspects (f : FnId) (v : Fn) : (s.setFn f v).suspects = s.suspects := rfl
@[simp] theorem State.setFn_learned (f : FnId) (v : Fn) : (s.setFn f v).learned = s.learned := rfl
@[simp] theorem State.setFn_recorder (f : FnId) (v : Fn) : (s.setFn f v).recorder = s.recorder := rfl
@[simp] theorem State.setFn_sb (f : FnId) (v : Fn) : (s.setFn f v).sb = s.sb := rfl
@[simp] theorem State.setFn_mgmt (f : FnId) (v : Fn) : (s.setFn f v).mgmt = s.mgmt := rfl

/-! ### `setPort` -/

@[simp] theorem State.setPort_pending (p : Nat) (v : Port) : (s.setPort p v).pending = s.pending := rfl
@[simp] theorem State.setPort_now (p : Nat) (v : Port) : (s.setPort p v).now = s.now := rfl
@[simp] theorem State.setPort_choice (p : Nat) (v : Port) : (s.setPort p v).choice = s.choice := rfl
@[simp] theorem State.setPort_fresh (p : Nat) (v : Port) : (s.setPort p v).fresh = s.fresh := rfl
@[simp] theorem State.setPort_out (p : Nat) (v : Port) : (s.setPort p v).out = s.out := rfl
@[simp] theorem State.setPort_nextId (p : Nat) (v : Port) : (s.setPort p v).nextId = s.nextId := rfl
@[simp] theorem State.setPort_nextAcc (p : Nat) (v : Port) : (s.setPort p v).nextAcc = s.nextAcc := rfl
@[simp] theorem State.setPort_todo (p : Nat) (v : Port) : (s.setPort p v).todo = s.todo := rfl
@[simp] theorem State.setPort_life (p : Nat) (v : Port) : (s.setPort p v).life = s.life := rfl
@[simp] theorem State.setPort_pair (p : Nat) (v : Port) : (s.setPort p v).pair = s.pair := rfl
@[simp] theorem State.setPort_eps (p : Nat) (v : Port) : (s.setPort p v).eps = s.eps := rfl
@[simp] theorem State.setPort_fns (p : Nat) (v : Port) : (s.setPort p v).fns = s.fns := rfl
@[simp] theorem State.setPort_sqs (p : Nat) (v : Port) : (s.setPort p v).sqs = s.sqs := rfl
@[simp] theorem State.setPort_cqs (p : Nat) (v : Port) : (s.setPort p v).cqs = s.cqs := rfl
@[simp] theorem State.setPort_cmds (p : Nat) (v : Port) : (s.setPort p v).cmds = s.cmds := rfl
@[simp] theorem State.setPort_templates (p : Nat) (v : Port) : (s.setPort p v).templates = s.templates := rfl
@[simp] theorem State.setPort_pools (p : Nat) (v : Port) : (s.setPort p v).pools = s.pools := rfl
@[simp] theorem State.setPort_members (p : Nat) (v : Port) : (s.setPort p v).members = s.members := rfl
@[simp] theorem State.setPort_volumes (p : Nat) (v : Port) : (s.setPort p v).volumes = s.volumes := rfl
@[simp] theorem State.setPort_regions (p : Nat) (v : Port) : (s.setPort p v).regions = s.regions := rfl
@[simp] theorem State.setPort_work (p : Nat) (v : Port) : (s.setPort p v).work = s.work := rfl
@[simp] theorem State.setPort_settings (p : Nat) (v : Port) : (s.setPort p v).settings = s.settings := rfl
@[simp] theorem State.setPort_wp (p : Nat) (v : Port) : (s.setPort p v).wp = s.wp := rfl
@[simp] theorem State.setPort_frames (p : Nat) (v : Port) : (s.setPort p v).frames = s.frames := rfl
@[simp] theorem State.setPort_heads (p : Nat) (v : Port) : (s.setPort p v).heads = s.heads := rfl
@[simp] theorem State.setPort_locks (p : Nat) (v : Port) : (s.setPort p v).locks = s.locks := rfl
@[simp] theorem State.setPort_tasks (p : Nat) (v : Port) : (s.setPort p v).tasks = s.tasks := rfl
@[simp] theorem State.setPort_table (p : Nat) (v : Port) : (s.setPort p v).table = s.table := rfl
@[simp] theorem State.setPort_staging (p : Nat) (v : Port) : (s.setPort p v).staging = s.staging := rfl
@[simp] theorem State.setPort_parisons (p : Nat) (v : Port) : (s.setPort p v).parisons = s.parisons := rfl
@[simp] theorem State.setPort_streams (p : Nat) (v : Port) : (s.setPort p v).streams = s.streams := rfl
@[simp] theorem State.setPort_tiles (p : Nat) (v : Port) : (s.setPort p v).tiles = s.tiles := rfl
@[simp] theorem State.setPort_tileWait (p : Nat) (v : Port) : (s.setPort p v).tileWait = s.tileWait := rfl
@[simp] theorem State.setPort_ports (p : Nat) (v : Port) : (s.setPort p v).ports = s.ports.putD {} p v := rfl
@[simp] theorem State.setPort_journal (p : Nat) (v : Port) : (s.setPort p v).journal = s.journal := rfl
@[simp] theorem State.setPort_vault (p : Nat) (v : Port) : (s.setPort p v).vault = s.vault := rfl
@[simp] theorem State.setPort_pack (p : Nat) (v : Port) : (s.setPort p v).pack = s.pack := rfl
@[simp] theorem State.setPort_link (p : Nat) (v : Port) : (s.setPort p v).link = s.link := rfl
@[simp] theorem State.setPort_gov (p : Nat) (v : Port) : (s.setPort p v).gov = s.gov := rfl
@[simp] theorem State.setPort_islands (p : Nat) (v : Port) : (s.setPort p v).islands = s.islands := rfl
@[simp] theorem State.setPort_suspects (p : Nat) (v : Port) : (s.setPort p v).suspects = s.suspects := rfl
@[simp] theorem State.setPort_learned (p : Nat) (v : Port) : (s.setPort p v).learned = s.learned := rfl
@[simp] theorem State.setPort_recorder (p : Nat) (v : Port) : (s.setPort p v).recorder = s.recorder := rfl
@[simp] theorem State.setPort_sb (p : Nat) (v : Port) : (s.setPort p v).sb = s.sb := rfl
@[simp] theorem State.setPort_mgmt (p : Nat) (v : Port) : (s.setPort p v).mgmt = s.mgmt := rfl

/-! ### `updPort` -/

@[simp] theorem State.updPort_pending (p : Nat) (f : Port → Port) : (s.updPort p f).pending = s.pending := rfl
@[simp] theorem State.updPort_now (p : Nat) (f : Port → Port) : (s.updPort p f).now = s.now := rfl
@[simp] theorem State.updPort_choice (p : Nat) (f : Port → Port) : (s.updPort p f).choice = s.choice := rfl
@[simp] theorem State.updPort_fresh (p : Nat) (f : Port → Port) : (s.updPort p f).fresh = s.fresh := rfl
@[simp] theorem State.updPort_out (p : Nat) (f : Port → Port) : (s.updPort p f).out = s.out := rfl
@[simp] theorem State.updPort_nextId (p : Nat) (f : Port → Port) : (s.updPort p f).nextId = s.nextId := rfl
@[simp] theorem State.updPort_nextAcc (p : Nat) (f : Port → Port) : (s.updPort p f).nextAcc = s.nextAcc := rfl
@[simp] theorem State.updPort_todo (p : Nat) (f : Port → Port) : (s.updPort p f).todo = s.todo := rfl
@[simp] theorem State.updPort_life (p : Nat) (f : Port → Port) : (s.updPort p f).life = s.life := rfl
@[simp] theorem State.updPort_pair (p : Nat) (f : Port → Port) : (s.updPort p f).pair = s.pair := rfl
@[simp] theorem State.updPort_eps (p : Nat) (f : Port → Port) : (s.updPort p f).eps = s.eps := rfl
@[simp] theorem State.updPort_fns (p : Nat) (f : Port → Port) : (s.updPort p f).fns = s.fns := rfl
@[simp] theorem State.updPort_sqs (p : Nat) (f : Port → Port) : (s.updPort p f).sqs = s.sqs := rfl
@[simp] theorem State.updPort_cqs (p : Nat) (f : Port → Port) : (s.updPort p f).cqs = s.cqs := rfl
@[simp] theorem State.updPort_cmds (p : Nat) (f : Port → Port) : (s.updPort p f).cmds = s.cmds := rfl
@[simp] theorem State.updPort_templates (p : Nat) (f : Port → Port) : (s.updPort p f).templates = s.templates := rfl
@[simp] theorem State.updPort_pools (p : Nat) (f : Port → Port) : (s.updPort p f).pools = s.pools := rfl
@[simp] theorem State.updPort_members (p : Nat) (f : Port → Port) : (s.updPort p f).members = s.members := rfl
@[simp] theorem State.updPort_volumes (p : Nat) (f : Port → Port) : (s.updPort p f).volumes = s.volumes := rfl
@[simp] theorem State.updPort_regions (p : Nat) (f : Port → Port) : (s.updPort p f).regions = s.regions := rfl
@[simp] theorem State.updPort_work (p : Nat) (f : Port → Port) : (s.updPort p f).work = s.work := rfl
@[simp] theorem State.updPort_settings (p : Nat) (f : Port → Port) : (s.updPort p f).settings = s.settings := rfl
@[simp] theorem State.updPort_wp (p : Nat) (f : Port → Port) : (s.updPort p f).wp = s.wp := rfl
@[simp] theorem State.updPort_frames (p : Nat) (f : Port → Port) : (s.updPort p f).frames = s.frames := rfl
@[simp] theorem State.updPort_heads (p : Nat) (f : Port → Port) : (s.updPort p f).heads = s.heads := rfl
@[simp] theorem State.updPort_locks (p : Nat) (f : Port → Port) : (s.updPort p f).locks = s.locks := rfl
@[simp] theorem State.updPort_tasks (p : Nat) (f : Port → Port) : (s.updPort p f).tasks = s.tasks := rfl
@[simp] theorem State.updPort_table (p : Nat) (f : Port → Port) : (s.updPort p f).table = s.table := rfl
@[simp] theorem State.updPort_staging (p : Nat) (f : Port → Port) : (s.updPort p f).staging = s.staging := rfl
@[simp] theorem State.updPort_parisons (p : Nat) (f : Port → Port) : (s.updPort p f).parisons = s.parisons := rfl
@[simp] theorem State.updPort_streams (p : Nat) (f : Port → Port) : (s.updPort p f).streams = s.streams := rfl
@[simp] theorem State.updPort_tiles (p : Nat) (f : Port → Port) : (s.updPort p f).tiles = s.tiles := rfl
@[simp] theorem State.updPort_tileWait (p : Nat) (f : Port → Port) : (s.updPort p f).tileWait = s.tileWait := rfl
@[simp] theorem State.updPort_ports (p : Nat) (f : Port → Port) : (s.updPort p f).ports = s.ports.putD {} p (f (s.port p)) := rfl
@[simp] theorem State.updPort_journal (p : Nat) (f : Port → Port) : (s.updPort p f).journal = s.journal := rfl
@[simp] theorem State.updPort_vault (p : Nat) (f : Port → Port) : (s.updPort p f).vault = s.vault := rfl
@[simp] theorem State.updPort_pack (p : Nat) (f : Port → Port) : (s.updPort p f).pack = s.pack := rfl
@[simp] theorem State.updPort_link (p : Nat) (f : Port → Port) : (s.updPort p f).link = s.link := rfl
@[simp] theorem State.updPort_gov (p : Nat) (f : Port → Port) : (s.updPort p f).gov = s.gov := rfl
@[simp] theorem State.updPort_islands (p : Nat) (f : Port → Port) : (s.updPort p f).islands = s.islands := rfl
@[simp] theorem State.updPort_suspects (p : Nat) (f : Port → Port) : (s.updPort p f).suspects = s.suspects := rfl
@[simp] theorem State.updPort_learned (p : Nat) (f : Port → Port) : (s.updPort p f).learned = s.learned := rfl
@[simp] theorem State.updPort_recorder (p : Nat) (f : Port → Port) : (s.updPort p f).recorder = s.recorder := rfl
@[simp] theorem State.updPort_sb (p : Nat) (f : Port → Port) : (s.updPort p f).sb = s.sb := rfl
@[simp] theorem State.updPort_mgmt (p : Nat) (f : Port → Port) : (s.updPort p f).mgmt = s.mgmt := rfl

/-! ### `setTile` -/

@[simp] theorem State.setTile_pending (t : Nat) (v : Tile) : (s.setTile t v).pending = s.pending := rfl
@[simp] theorem State.setTile_now (t : Nat) (v : Tile) : (s.setTile t v).now = s.now := rfl
@[simp] theorem State.setTile_choice (t : Nat) (v : Tile) : (s.setTile t v).choice = s.choice := rfl
@[simp] theorem State.setTile_fresh (t : Nat) (v : Tile) : (s.setTile t v).fresh = s.fresh := rfl
@[simp] theorem State.setTile_out (t : Nat) (v : Tile) : (s.setTile t v).out = s.out := rfl
@[simp] theorem State.setTile_nextId (t : Nat) (v : Tile) : (s.setTile t v).nextId = s.nextId := rfl
@[simp] theorem State.setTile_nextAcc (t : Nat) (v : Tile) : (s.setTile t v).nextAcc = s.nextAcc := rfl
@[simp] theorem State.setTile_todo (t : Nat) (v : Tile) : (s.setTile t v).todo = s.todo := rfl
@[simp] theorem State.setTile_life (t : Nat) (v : Tile) : (s.setTile t v).life = s.life := rfl
@[simp] theorem State.setTile_pair (t : Nat) (v : Tile) : (s.setTile t v).pair = s.pair := rfl
@[simp] theorem State.setTile_eps (t : Nat) (v : Tile) : (s.setTile t v).eps = s.eps := rfl
@[simp] theorem State.setTile_fns (t : Nat) (v : Tile) : (s.setTile t v).fns = s.fns := rfl
@[simp] theorem State.setTile_sqs (t : Nat) (v : Tile) : (s.setTile t v).sqs = s.sqs := rfl
@[simp] theorem State.setTile_cqs (t : Nat) (v : Tile) : (s.setTile t v).cqs = s.cqs := rfl
@[simp] theorem State.setTile_cmds (t : Nat) (v : Tile) : (s.setTile t v).cmds = s.cmds := rfl
@[simp] theorem State.setTile_templates (t : Nat) (v : Tile) : (s.setTile t v).templates = s.templates := rfl
@[simp] theorem State.setTile_pools (t : Nat) (v : Tile) : (s.setTile t v).pools = s.pools := rfl
@[simp] theorem State.setTile_members (t : Nat) (v : Tile) : (s.setTile t v).members = s.members := rfl
@[simp] theorem State.setTile_volumes (t : Nat) (v : Tile) : (s.setTile t v).volumes = s.volumes := rfl
@[simp] theorem State.setTile_regions (t : Nat) (v : Tile) : (s.setTile t v).regions = s.regions := rfl
@[simp] theorem State.setTile_work (t : Nat) (v : Tile) : (s.setTile t v).work = s.work := rfl
@[simp] theorem State.setTile_settings (t : Nat) (v : Tile) : (s.setTile t v).settings = s.settings := rfl
@[simp] theorem State.setTile_wp (t : Nat) (v : Tile) : (s.setTile t v).wp = s.wp := rfl
@[simp] theorem State.setTile_frames (t : Nat) (v : Tile) : (s.setTile t v).frames = s.frames := rfl
@[simp] theorem State.setTile_heads (t : Nat) (v : Tile) : (s.setTile t v).heads = s.heads := rfl
@[simp] theorem State.setTile_locks (t : Nat) (v : Tile) : (s.setTile t v).locks = s.locks := rfl
@[simp] theorem State.setTile_tasks (t : Nat) (v : Tile) : (s.setTile t v).tasks = s.tasks := rfl
@[simp] theorem State.setTile_table (t : Nat) (v : Tile) : (s.setTile t v).table = s.table := rfl
@[simp] theorem State.setTile_staging (t : Nat) (v : Tile) : (s.setTile t v).staging = s.staging := rfl
@[simp] theorem State.setTile_parisons (t : Nat) (v : Tile) : (s.setTile t v).parisons = s.parisons := rfl
@[simp] theorem State.setTile_streams (t : Nat) (v : Tile) : (s.setTile t v).streams = s.streams := rfl
@[simp] theorem State.setTile_tiles (t : Nat) (v : Tile) : (s.setTile t v).tiles = s.tiles.putD {} t v := rfl
@[simp] theorem State.setTile_tileWait (t : Nat) (v : Tile) : (s.setTile t v).tileWait = s.tileWait := rfl
@[simp] theorem State.setTile_ports (t : Nat) (v : Tile) : (s.setTile t v).ports = s.ports := rfl
@[simp] theorem State.setTile_journal (t : Nat) (v : Tile) : (s.setTile t v).journal = s.journal := rfl
@[simp] theorem State.setTile_vault (t : Nat) (v : Tile) : (s.setTile t v).vault = s.vault := rfl
@[simp] theorem State.setTile_pack (t : Nat) (v : Tile) : (s.setTile t v).pack = s.pack := rfl
@[simp] theorem State.setTile_link (t : Nat) (v : Tile) : (s.setTile t v).link = s.link := rfl
@[simp] theorem State.setTile_gov (t : Nat) (v : Tile) : (s.setTile t v).gov = s.gov := rfl
@[simp] theorem State.setTile_islands (t : Nat) (v : Tile) : (s.setTile t v).islands = s.islands := rfl
@[simp] theorem State.setTile_suspects (t : Nat) (v : Tile) : (s.setTile t v).suspects = s.suspects := rfl
@[simp] theorem State.setTile_learned (t : Nat) (v : Tile) : (s.setTile t v).learned = s.learned := rfl
@[simp] theorem State.setTile_recorder (t : Nat) (v : Tile) : (s.setTile t v).recorder = s.recorder := rfl
@[simp] theorem State.setTile_sb (t : Nat) (v : Tile) : (s.setTile t v).sb = s.sb := rfl
@[simp] theorem State.setTile_mgmt (t : Nat) (v : Tile) : (s.setTile t v).mgmt = s.mgmt := rfl

/-! ### `setIsland` -/

@[simp] theorem State.setIsland_pending (i : Nat) (v : Island) : (s.setIsland i v).pending = s.pending := rfl
@[simp] theorem State.setIsland_now (i : Nat) (v : Island) : (s.setIsland i v).now = s.now := rfl
@[simp] theorem State.setIsland_choice (i : Nat) (v : Island) : (s.setIsland i v).choice = s.choice := rfl
@[simp] theorem State.setIsland_fresh (i : Nat) (v : Island) : (s.setIsland i v).fresh = s.fresh := rfl
@[simp] theorem State.setIsland_out (i : Nat) (v : Island) : (s.setIsland i v).out = s.out := rfl
@[simp] theorem State.setIsland_nextId (i : Nat) (v : Island) : (s.setIsland i v).nextId = s.nextId := rfl
@[simp] theorem State.setIsland_nextAcc (i : Nat) (v : Island) : (s.setIsland i v).nextAcc = s.nextAcc := rfl
@[simp] theorem State.setIsland_todo (i : Nat) (v : Island) : (s.setIsland i v).todo = s.todo := rfl
@[simp] theorem State.setIsland_life (i : Nat) (v : Island) : (s.setIsland i v).life = s.life := rfl
@[simp] theorem State.setIsland_pair (i : Nat) (v : Island) : (s.setIsland i v).pair = s.pair := rfl
@[simp] theorem State.setIsland_eps (i : Nat) (v : Island) : (s.setIsland i v).eps = s.eps := rfl
@[simp] theorem State.setIsland_fns (i : Nat) (v : Island) : (s.setIsland i v).fns = s.fns := rfl
@[simp] theorem State.setIsland_sqs (i : Nat) (v : Island) : (s.setIsland i v).sqs = s.sqs := rfl
@[simp] theorem State.setIsland_cqs (i : Nat) (v : Island) : (s.setIsland i v).cqs = s.cqs := rfl
@[simp] theorem State.setIsland_cmds (i : Nat) (v : Island) : (s.setIsland i v).cmds = s.cmds := rfl
@[simp] theorem State.setIsland_templates (i : Nat) (v : Island) : (s.setIsland i v).templates = s.templates := rfl
@[simp] theorem State.setIsland_pools (i : Nat) (v : Island) : (s.setIsland i v).pools = s.pools := rfl
@[simp] theorem State.setIsland_members (i : Nat) (v : Island) : (s.setIsland i v).members = s.members := rfl
@[simp] theorem State.setIsland_volumes (i : Nat) (v : Island) : (s.setIsland i v).volumes = s.volumes := rfl
@[simp] theorem State.setIsland_regions (i : Nat) (v : Island) : (s.setIsland i v).regions = s.regions := rfl
@[simp] theorem State.setIsland_work (i : Nat) (v : Island) : (s.setIsland i v).work = s.work := rfl
@[simp] theorem State.setIsland_settings (i : Nat) (v : Island) : (s.setIsland i v).settings = s.settings := rfl
@[simp] theorem State.setIsland_wp (i : Nat) (v : Island) : (s.setIsland i v).wp = s.wp := rfl
@[simp] theorem State.setIsland_frames (i : Nat) (v : Island) : (s.setIsland i v).frames = s.frames := rfl
@[simp] theorem State.setIsland_heads (i : Nat) (v : Island) : (s.setIsland i v).heads = s.heads := rfl
@[simp] theorem State.setIsland_locks (i : Nat) (v : Island) : (s.setIsland i v).locks = s.locks := rfl
@[simp] theorem State.setIsland_tasks (i : Nat) (v : Island) : (s.setIsland i v).tasks = s.tasks := rfl
@[simp] theorem State.setIsland_table (i : Nat) (v : Island) : (s.setIsland i v).table = s.table := rfl
@[simp] theorem State.setIsland_staging (i : Nat) (v : Island) : (s.setIsland i v).staging = s.staging := rfl
@[simp] theorem State.setIsland_parisons (i : Nat) (v : Island) : (s.setIsland i v).parisons = s.parisons := rfl
@[simp] theorem State.setIsland_streams (i : Nat) (v : Island) : (s.setIsland i v).streams = s.streams := rfl
@[simp] theorem State.setIsland_tiles (i : Nat) (v : Island) : (s.setIsland i v).tiles = s.tiles := rfl
@[simp] theorem State.setIsland_tileWait (i : Nat) (v : Island) : (s.setIsland i v).tileWait = s.tileWait := rfl
@[simp] theorem State.setIsland_ports (i : Nat) (v : Island) : (s.setIsland i v).ports = s.ports := rfl
@[simp] theorem State.setIsland_journal (i : Nat) (v : Island) : (s.setIsland i v).journal = s.journal := rfl
@[simp] theorem State.setIsland_vault (i : Nat) (v : Island) : (s.setIsland i v).vault = s.vault := rfl
@[simp] theorem State.setIsland_pack (i : Nat) (v : Island) : (s.setIsland i v).pack = s.pack := rfl
@[simp] theorem State.setIsland_link (i : Nat) (v : Island) : (s.setIsland i v).link = s.link := rfl
@[simp] theorem State.setIsland_gov (i : Nat) (v : Island) : (s.setIsland i v).gov = s.gov := rfl
@[simp] theorem State.setIsland_islands (i : Nat) (v : Island) : (s.setIsland i v).islands = s.islands.putD {} i v := rfl
@[simp] theorem State.setIsland_suspects (i : Nat) (v : Island) : (s.setIsland i v).suspects = s.suspects := rfl
@[simp] theorem State.setIsland_learned (i : Nat) (v : Island) : (s.setIsland i v).learned = s.learned := rfl
@[simp] theorem State.setIsland_recorder (i : Nat) (v : Island) : (s.setIsland i v).recorder = s.recorder := rfl
@[simp] theorem State.setIsland_sb (i : Nat) (v : Island) : (s.setIsland i v).sb = s.sb := rfl
@[simp] theorem State.setIsland_mgmt (i : Nat) (v : Island) : (s.setIsland i v).mgmt = s.mgmt := rfl

/-! ### `updIsland` -/

@[simp] theorem State.updIsland_pending (i : Nat) (g : Island → Island) : (s.updIsland i g).pending = s.pending := rfl
@[simp] theorem State.updIsland_now (i : Nat) (g : Island → Island) : (s.updIsland i g).now = s.now := rfl
@[simp] theorem State.updIsland_choice (i : Nat) (g : Island → Island) : (s.updIsland i g).choice = s.choice := rfl
@[simp] theorem State.updIsland_fresh (i : Nat) (g : Island → Island) : (s.updIsland i g).fresh = s.fresh := rfl
@[simp] theorem State.updIsland_out (i : Nat) (g : Island → Island) : (s.updIsland i g).out = s.out := rfl
@[simp] theorem State.updIsland_nextId (i : Nat) (g : Island → Island) : (s.updIsland i g).nextId = s.nextId := rfl
@[simp] theorem State.updIsland_nextAcc (i : Nat) (g : Island → Island) : (s.updIsland i g).nextAcc = s.nextAcc := rfl
@[simp] theorem State.updIsland_todo (i : Nat) (g : Island → Island) : (s.updIsland i g).todo = s.todo := rfl
@[simp] theorem State.updIsland_life (i : Nat) (g : Island → Island) : (s.updIsland i g).life = s.life := rfl
@[simp] theorem State.updIsland_pair (i : Nat) (g : Island → Island) : (s.updIsland i g).pair = s.pair := rfl
@[simp] theorem State.updIsland_eps (i : Nat) (g : Island → Island) : (s.updIsland i g).eps = s.eps := rfl
@[simp] theorem State.updIsland_fns (i : Nat) (g : Island → Island) : (s.updIsland i g).fns = s.fns := rfl
@[simp] theorem State.updIsland_sqs (i : Nat) (g : Island → Island) : (s.updIsland i g).sqs = s.sqs := rfl
@[simp] theorem State.updIsland_cqs (i : Nat) (g : Island → Island) : (s.updIsland i g).cqs = s.cqs := rfl
@[simp] theorem State.updIsland_cmds (i : Nat) (g : Island → Island) : (s.updIsland i g).cmds = s.cmds := rfl
@[simp] theorem State.updIsland_templates (i : Nat) (g : Island → Island) : (s.updIsland i g).templates = s.templates := rfl
@[simp] theorem State.updIsland_pools (i : Nat) (g : Island → Island) : (s.updIsland i g).pools = s.pools := rfl
@[simp] theorem State.updIsland_members (i : Nat) (g : Island → Island) : (s.updIsland i g).members = s.members := rfl
@[simp] theorem State.updIsland_volumes (i : Nat) (g : Island → Island) : (s.updIsland i g).volumes = s.volumes := rfl
@[simp] theorem State.updIsland_regions (i : Nat) (g : Island → Island) : (s.updIsland i g).regions = s.regions := rfl
@[simp] theorem State.updIsland_work (i : Nat) (g : Island → Island) : (s.updIsland i g).work = s.work := rfl
@[simp] theorem State.updIsland_settings (i : Nat) (g : Island → Island) : (s.updIsland i g).settings = s.settings := rfl
@[simp] theorem State.updIsland_wp (i : Nat) (g : Island → Island) : (s.updIsland i g).wp = s.wp := rfl
@[simp] theorem State.updIsland_frames (i : Nat) (g : Island → Island) : (s.updIsland i g).frames = s.frames := rfl
@[simp] theorem State.updIsland_heads (i : Nat) (g : Island → Island) : (s.updIsland i g).heads = s.heads := rfl
@[simp] theorem State.updIsland_locks (i : Nat) (g : Island → Island) : (s.updIsland i g).locks = s.locks := rfl
@[simp] theorem State.updIsland_tasks (i : Nat) (g : Island → Island) : (s.updIsland i g).tasks = s.tasks := rfl
@[simp] theorem State.updIsland_table (i : Nat) (g : Island → Island) : (s.updIsland i g).table = s.table := rfl
@[simp] theorem State.updIsland_staging (i : Nat) (g : Island → Island) : (s.updIsland i g).staging = s.staging := rfl
@[simp] theorem State.updIsland_parisons (i : Nat) (g : Island → Island) : (s.updIsland i g).parisons = s.parisons := rfl
@[simp] theorem State.updIsland_streams (i : Nat) (g : Island → Island) : (s.updIsland i g).streams = s.streams := rfl
@[simp] theorem State.updIsland_tiles (i : Nat) (g : Island → Island) : (s.updIsland i g).tiles = s.tiles := rfl
@[simp] theorem State.updIsland_tileWait (i : Nat) (g : Island → Island) : (s.updIsland i g).tileWait = s.tileWait := rfl
@[simp] theorem State.updIsland_ports (i : Nat) (g : Island → Island) : (s.updIsland i g).ports = s.ports := rfl
@[simp] theorem State.updIsland_journal (i : Nat) (g : Island → Island) : (s.updIsland i g).journal = s.journal := rfl
@[simp] theorem State.updIsland_vault (i : Nat) (g : Island → Island) : (s.updIsland i g).vault = s.vault := rfl
@[simp] theorem State.updIsland_pack (i : Nat) (g : Island → Island) : (s.updIsland i g).pack = s.pack := rfl
@[simp] theorem State.updIsland_link (i : Nat) (g : Island → Island) : (s.updIsland i g).link = s.link := rfl
@[simp] theorem State.updIsland_gov (i : Nat) (g : Island → Island) : (s.updIsland i g).gov = s.gov := rfl
@[simp] theorem State.updIsland_islands (i : Nat) (g : Island → Island) : (s.updIsland i g).islands = s.islands.putD {} i (g (s.island i)) := rfl
@[simp] theorem State.updIsland_suspects (i : Nat) (g : Island → Island) : (s.updIsland i g).suspects = s.suspects := rfl
@[simp] theorem State.updIsland_learned (i : Nat) (g : Island → Island) : (s.updIsland i g).learned = s.learned := rfl
@[simp] theorem State.updIsland_recorder (i : Nat) (g : Island → Island) : (s.updIsland i g).recorder = s.recorder := rfl
@[simp] theorem State.updIsland_sb (i : Nat) (g : Island → Island) : (s.updIsland i g).sb = s.sb := rfl
@[simp] theorem State.updIsland_mgmt (i : Nat) (g : Island → Island) : (s.updIsland i g).mgmt = s.mgmt := rfl

/-! ### `setRegion` -/

@[simp] theorem State.setRegion_pending (r : Nat) (v : Region) : (s.setRegion r v).pending = s.pending := rfl
@[simp] theorem State.setRegion_now (r : Nat) (v : Region) : (s.setRegion r v).now = s.now := rfl
@[simp] theorem State.setRegion_choice (r : Nat) (v : Region) : (s.setRegion r v).choice = s.choice := rfl
@[simp] theorem State.setRegion_fresh (r : Nat) (v : Region) : (s.setRegion r v).fresh = s.fresh := rfl
@[simp] theorem State.setRegion_out (r : Nat) (v : Region) : (s.setRegion r v).out = s.out := rfl
@[simp] theorem State.setRegion_nextId (r : Nat) (v : Region) : (s.setRegion r v).nextId = s.nextId := rfl
@[simp] theorem State.setRegion_nextAcc (r : Nat) (v : Region) : (s.setRegion r v).nextAcc = s.nextAcc := rfl
@[simp] theorem State.setRegion_todo (r : Nat) (v : Region) : (s.setRegion r v).todo = s.todo := rfl
@[simp] theorem State.setRegion_life (r : Nat) (v : Region) : (s.setRegion r v).life = s.life := rfl
@[simp] theorem State.setRegion_pair (r : Nat) (v : Region) : (s.setRegion r v).pair = s.pair := rfl
@[simp] theorem State.setRegion_eps (r : Nat) (v : Region) : (s.setRegion r v).eps = s.eps := rfl
@[simp] theorem State.setRegion_fns (r : Nat) (v : Region) : (s.setRegion r v).fns = s.fns := rfl
@[simp] theorem State.setRegion_sqs (r : Nat) (v : Region) : (s.setRegion r v).sqs = s.sqs := rfl
@[simp] theorem State.setRegion_cqs (r : Nat) (v : Region) : (s.setRegion r v).cqs = s.cqs := rfl
@[simp] theorem State.setRegion_cmds (r : Nat) (v : Region) : (s.setRegion r v).cmds = s.cmds := rfl
@[simp] theorem State.setRegion_templates (r : Nat) (v : Region) : (s.setRegion r v).templates = s.templates := rfl
@[simp] theorem State.setRegion_pools (r : Nat) (v : Region) : (s.setRegion r v).pools = s.pools := rfl
@[simp] theorem State.setRegion_members (r : Nat) (v : Region) : (s.setRegion r v).members = s.members := rfl
@[simp] theorem State.setRegion_volumes (r : Nat) (v : Region) : (s.setRegion r v).volumes = s.volumes := rfl
@[simp] theorem State.setRegion_regions (r : Nat) (v : Region) : (s.setRegion r v).regions = s.regions.putD {} r v := rfl
@[simp] theorem State.setRegion_work (r : Nat) (v : Region) : (s.setRegion r v).work = s.work := rfl
@[simp] theorem State.setRegion_settings (r : Nat) (v : Region) : (s.setRegion r v).settings = s.settings := rfl
@[simp] theorem State.setRegion_wp (r : Nat) (v : Region) : (s.setRegion r v).wp = s.wp := rfl
@[simp] theorem State.setRegion_frames (r : Nat) (v : Region) : (s.setRegion r v).frames = s.frames := rfl
@[simp] theorem State.setRegion_heads (r : Nat) (v : Region) : (s.setRegion r v).heads = s.heads := rfl
@[simp] theorem State.setRegion_locks (r : Nat) (v : Region) : (s.setRegion r v).locks = s.locks := rfl
@[simp] theorem State.setRegion_tasks (r : Nat) (v : Region) : (s.setRegion r v).tasks = s.tasks := rfl
@[simp] theorem State.setRegion_table (r : Nat) (v : Region) : (s.setRegion r v).table = s.table := rfl
@[simp] theorem State.setRegion_staging (r : Nat) (v : Region) : (s.setRegion r v).staging = s.staging := rfl
@[simp] theorem State.setRegion_parisons (r : Nat) (v : Region) : (s.setRegion r v).parisons = s.parisons := rfl
@[simp] theorem State.setRegion_streams (r : Nat) (v : Region) : (s.setRegion r v).streams = s.streams := rfl
@[simp] theorem State.setRegion_tiles (r : Nat) (v : Region) : (s.setRegion r v).tiles = s.tiles := rfl
@[simp] theorem State.setRegion_tileWait (r : Nat) (v : Region) : (s.setRegion r v).tileWait = s.tileWait := rfl
@[simp] theorem State.setRegion_ports (r : Nat) (v : Region) : (s.setRegion r v).ports = s.ports := rfl
@[simp] theorem State.setRegion_journal (r : Nat) (v : Region) : (s.setRegion r v).journal = s.journal := rfl
@[simp] theorem State.setRegion_vault (r : Nat) (v : Region) : (s.setRegion r v).vault = s.vault := rfl
@[simp] theorem State.setRegion_pack (r : Nat) (v : Region) : (s.setRegion r v).pack = s.pack := rfl
@[simp] theorem State.setRegion_link (r : Nat) (v : Region) : (s.setRegion r v).link = s.link := rfl
@[simp] theorem State.setRegion_gov (r : Nat) (v : Region) : (s.setRegion r v).gov = s.gov := rfl
@[simp] theorem State.setRegion_islands (r : Nat) (v : Region) : (s.setRegion r v).islands = s.islands := rfl
@[simp] theorem State.setRegion_suspects (r : Nat) (v : Region) : (s.setRegion r v).suspects = s.suspects := rfl
@[simp] theorem State.setRegion_learned (r : Nat) (v : Region) : (s.setRegion r v).learned = s.learned := rfl
@[simp] theorem State.setRegion_recorder (r : Nat) (v : Region) : (s.setRegion r v).recorder = s.recorder := rfl
@[simp] theorem State.setRegion_sb (r : Nat) (v : Region) : (s.setRegion r v).sb = s.sb := rfl
@[simp] theorem State.setRegion_mgmt (r : Nat) (v : Region) : (s.setRegion r v).mgmt = s.mgmt := rfl

/-! ### `setWork` -/

@[simp] theorem State.setWork_pending (r : Nat) (v : RegionWork) : (s.setWork r v).pending = s.pending := rfl
@[simp] theorem State.setWork_now (r : Nat) (v : RegionWork) : (s.setWork r v).now = s.now := rfl
@[simp] theorem State.setWork_choice (r : Nat) (v : RegionWork) : (s.setWork r v).choice = s.choice := rfl
@[simp] theorem State.setWork_fresh (r : Nat) (v : RegionWork) : (s.setWork r v).fresh = s.fresh := rfl
@[simp] theorem State.setWork_out (r : Nat) (v : RegionWork) : (s.setWork r v).out = s.out := rfl
@[simp] theorem State.setWork_nextId (r : Nat) (v : RegionWork) : (s.setWork r v).nextId = s.nextId := rfl
@[simp] theorem State.setWork_nextAcc (r : Nat) (v : RegionWork) : (s.setWork r v).nextAcc = s.nextAcc := rfl
@[simp] theorem State.setWork_todo (r : Nat) (v : RegionWork) : (s.setWork r v).todo = s.todo := rfl
@[simp] theorem State.setWork_life (r : Nat) (v : RegionWork) : (s.setWork r v).life = s.life := rfl
@[simp] theorem State.setWork_pair (r : Nat) (v : RegionWork) : (s.setWork r v).pair = s.pair := rfl
@[simp] theorem State.setWork_eps (r : Nat) (v : RegionWork) : (s.setWork r v).eps = s.eps := rfl
@[simp] theorem State.setWork_fns (r : Nat) (v : RegionWork) : (s.setWork r v).fns = s.fns := rfl
@[simp] theorem State.setWork_sqs (r : Nat) (v : RegionWork) : (s.setWork r v).sqs = s.sqs := rfl
@[simp] theorem State.setWork_cqs (r : Nat) (v : RegionWork) : (s.setWork r v).cqs = s.cqs := rfl
@[simp] theorem State.setWork_cmds (r : Nat) (v : RegionWork) : (s.setWork r v).cmds = s.cmds := rfl
@[simp] theorem State.setWork_templates (r : Nat) (v : RegionWork) : (s.setWork r v).templates = s.templates := rfl
@[simp] theorem State.setWork_pools (r : Nat) (v : RegionWork) : (s.setWork r v).pools = s.pools := rfl
@[simp] theorem State.setWork_members (r : Nat) (v : RegionWork) : (s.setWork r v).members = s.members := rfl
@[simp] theorem State.setWork_volumes (r : Nat) (v : RegionWork) : (s.setWork r v).volumes = s.volumes := rfl
@[simp] theorem State.setWork_regions (r : Nat) (v : RegionWork) : (s.setWork r v).regions = s.regions := rfl
@[simp] theorem State.setWork_work (r : Nat) (v : RegionWork) : (s.setWork r v).work = s.work.putD {} r v := rfl
@[simp] theorem State.setWork_settings (r : Nat) (v : RegionWork) : (s.setWork r v).settings = s.settings := rfl
@[simp] theorem State.setWork_wp (r : Nat) (v : RegionWork) : (s.setWork r v).wp = s.wp := rfl
@[simp] theorem State.setWork_frames (r : Nat) (v : RegionWork) : (s.setWork r v).frames = s.frames := rfl
@[simp] theorem State.setWork_heads (r : Nat) (v : RegionWork) : (s.setWork r v).heads = s.heads := rfl
@[simp] theorem State.setWork_locks (r : Nat) (v : RegionWork) : (s.setWork r v).locks = s.locks := rfl
@[simp] theorem State.setWork_tasks (r : Nat) (v : RegionWork) : (s.setWork r v).tasks = s.tasks := rfl
@[simp] theorem State.setWork_table (r : Nat) (v : RegionWork) : (s.setWork r v).table = s.table := rfl
@[simp] theorem State.setWork_staging (r : Nat) (v : RegionWork) : (s.setWork r v).staging = s.staging := rfl
@[simp] theorem State.setWork_parisons (r : Nat) (v : RegionWork) : (s.setWork r v).parisons = s.parisons := rfl
@[simp] theorem State.setWork_streams (r : Nat) (v : RegionWork) : (s.setWork r v).streams = s.streams := rfl
@[simp] theorem State.setWork_tiles (r : Nat) (v : RegionWork) : (s.setWork r v).tiles = s.tiles := rfl
@[simp] theorem State.setWork_tileWait (r : Nat) (v : RegionWork) : (s.setWork r v).tileWait = s.tileWait := rfl
@[simp] theorem State.setWork_ports (r : Nat) (v : RegionWork) : (s.setWork r v).ports = s.ports := rfl
@[simp] theorem State.setWork_journal (r : Nat) (v : RegionWork) : (s.setWork r v).journal = s.journal := rfl
@[simp] theorem State.setWork_vault (r : Nat) (v : RegionWork) : (s.setWork r v).vault = s.vault := rfl
@[simp] theorem State.setWork_pack (r : Nat) (v : RegionWork) : (s.setWork r v).pack = s.pack := rfl
@[simp] theorem State.setWork_link (r : Nat) (v : RegionWork) : (s.setWork r v).link = s.link := rfl
@[simp] theorem State.setWork_gov (r : Nat) (v : RegionWork) : (s.setWork r v).gov = s.gov := rfl
@[simp] theorem State.setWork_islands (r : Nat) (v : RegionWork) : (s.setWork r v).islands = s.islands := rfl
@[simp] theorem State.setWork_suspects (r : Nat) (v : RegionWork) : (s.setWork r v).suspects = s.suspects := rfl
@[simp] theorem State.setWork_learned (r : Nat) (v : RegionWork) : (s.setWork r v).learned = s.learned := rfl
@[simp] theorem State.setWork_recorder (r : Nat) (v : RegionWork) : (s.setWork r v).recorder = s.recorder := rfl
@[simp] theorem State.setWork_sb (r : Nat) (v : RegionWork) : (s.setWork r v).sb = s.sb := rfl
@[simp] theorem State.setWork_mgmt (r : Nat) (v : RegionWork) : (s.setWork r v).mgmt = s.mgmt := rfl

/-! ### `updWork` -/

@[simp] theorem State.updWork_pending (r : Nat) (f : RegionWork → RegionWork) : (s.updWork r f).pending = s.pending := rfl
@[simp] theorem State.updWork_now (r : Nat) (f : RegionWork → RegionWork) : (s.updWork r f).now = s.now := rfl
@[simp] theorem State.updWork_choice (r : Nat) (f : RegionWork → RegionWork) : (s.updWork r f).choice = s.choice := rfl
@[simp] theorem State.updWork_fresh (r : Nat) (f : RegionWork → RegionWork) : (s.updWork r f).fresh = s.fresh := rfl
@[simp] theorem State.updWork_out (r : Nat) (f : RegionWork → RegionWork) : (s.updWork r f).out = s.out := rfl
@[simp] theorem State.updWork_nextId (r : Nat) (f : RegionWork → RegionWork) : (s.updWork r f).nextId = s.nextId := rfl
@[simp] theorem State.updWork_nextAcc (r : Nat) (f : RegionWork → RegionWork) : (s.updWork r f).nextAcc = s.nextAcc := rfl
@[simp] theorem State.updWork_todo (r : Nat) (f : RegionWork → RegionWork) : (s.updWork r f).todo = s.todo := rfl
@[simp] theorem State.updWork_life (r : Nat) (f : RegionWork → RegionWork) : (s.updWork r f).life = s.life := rfl
@[simp] theorem State.updWork_pair (r : Nat) (f : RegionWork → RegionWork) : (s.updWork r f).pair = s.pair := rfl
@[simp] theorem State.updWork_eps (r : Nat) (f : RegionWork → RegionWork) : (s.updWork r f).eps = s.eps := rfl
@[simp] theorem State.updWork_fns (r : Nat) (f : RegionWork → RegionWork) : (s.updWork r f).fns = s.fns := rfl
@[simp] theorem State.updWork_sqs (r : Nat) (f : RegionWork → RegionWork) : (s.updWork r f).sqs = s.sqs := rfl
@[simp] theorem State.updWork_cqs (r : Nat) (f : RegionWork → RegionWork) : (s.updWork r f).cqs = s.cqs := rfl
@[simp] theorem State.updWork_cmds (r : Nat) (f : RegionWork → RegionWork) : (s.updWork r f).cmds = s.cmds := rfl
@[simp] theorem State.updWork_templates (r : Nat) (f : RegionWork → RegionWork) : (s.updWork r f).templates = s.templates := rfl
@[simp] theorem State.updWork_pools (r : Nat) (f : RegionWork → RegionWork) : (s.updWork r f).pools = s.pools := rfl
@[simp] theorem State.updWork_members (r : Nat) (f : RegionWork → RegionWork) : (s.updWork r f).members = s.members := rfl
@[simp] theorem State.updWork_volumes (r : Nat) (f : RegionWork → RegionWork) : (s.updWork r f).volumes = s.volumes := rfl
@[simp] theorem State.updWork_regions (r : Nat) (f : RegionWork → RegionWork) : (s.updWork r f).regions = s.regions := rfl
@[simp] theorem State.updWork_work (r : Nat) (f : RegionWork → RegionWork) : (s.updWork r f).work = s.work.putD {} r (f (s.workOf r)) := rfl
@[simp] theorem State.updWork_settings (r : Nat) (f : RegionWork → RegionWork) : (s.updWork r f).settings = s.settings := rfl
@[simp] theorem State.updWork_wp (r : Nat) (f : RegionWork → RegionWork) : (s.updWork r f).wp = s.wp := rfl
@[simp] theorem State.updWork_frames (r : Nat) (f : RegionWork → RegionWork) : (s.updWork r f).frames = s.frames := rfl
@[simp] theorem State.updWork_heads (r : Nat) (f : RegionWork → RegionWork) : (s.updWork r f).heads = s.heads := rfl
@[simp] theorem State.updWork_locks (r : Nat) (f : RegionWork → RegionWork) : (s.updWork r f).locks = s.locks := rfl
@[simp] theorem State.updWork_tasks (r : Nat) (f : RegionWork → RegionWork) : (s.updWork r f).tasks = s.tasks := rfl
@[simp] theorem State.updWork_table (r : Nat) (f : RegionWork → RegionWork) : (s.updWork r f).table = s.table := rfl
@[simp] theorem State.updWork_staging (r : Nat) (f : RegionWork → RegionWork) : (s.updWork r f).staging = s.staging := rfl
@[simp] theorem State.updWork_parisons (r : Nat) (f : RegionWork → RegionWork) : (s.updWork r f).parisons = s.parisons := rfl
@[simp] theorem State.updWork_streams (r : Nat) (f : RegionWork → RegionWork) : (s.updWork r f).streams = s.streams := rfl
@[simp] theorem State.updWork_tiles (r : Nat) (f : RegionWork → RegionWork) : (s.updWork r f).tiles = s.tiles := rfl
@[simp] theorem State.updWork_tileWait (r : Nat) (f : RegionWork → RegionWork) : (s.updWork r f).tileWait = s.tileWait := rfl
@[simp] theorem State.updWork_ports (r : Nat) (f : RegionWork → RegionWork) : (s.updWork r f).ports = s.ports := rfl
@[simp] theorem State.updWork_journal (r : Nat) (f : RegionWork → RegionWork) : (s.updWork r f).journal = s.journal := rfl
@[simp] theorem State.updWork_vault (r : Nat) (f : RegionWork → RegionWork) : (s.updWork r f).vault = s.vault := rfl
@[simp] theorem State.updWork_pack (r : Nat) (f : RegionWork → RegionWork) : (s.updWork r f).pack = s.pack := rfl
@[simp] theorem State.updWork_link (r : Nat) (f : RegionWork → RegionWork) : (s.updWork r f).link = s.link := rfl
@[simp] theorem State.updWork_gov (r : Nat) (f : RegionWork → RegionWork) : (s.updWork r f).gov = s.gov := rfl
@[simp] theorem State.updWork_islands (r : Nat) (f : RegionWork → RegionWork) : (s.updWork r f).islands = s.islands := rfl
@[simp] theorem State.updWork_suspects (r : Nat) (f : RegionWork → RegionWork) : (s.updWork r f).suspects = s.suspects := rfl
@[simp] theorem State.updWork_learned (r : Nat) (f : RegionWork → RegionWork) : (s.updWork r f).learned = s.learned := rfl
@[simp] theorem State.updWork_recorder (r : Nat) (f : RegionWork → RegionWork) : (s.updWork r f).recorder = s.recorder := rfl
@[simp] theorem State.updWork_sb (r : Nat) (f : RegionWork → RegionWork) : (s.updWork r f).sb = s.sb := rfl
@[simp] theorem State.updWork_mgmt (r : Nat) (f : RegionWork → RegionWork) : (s.updWork r f).mgmt = s.mgmt := rfl

/-! ### `setLock` -/

@[simp] theorem State.setLock_pending (r k : Nat) (l : Lock) : (s.setLock r k l).pending = s.pending := rfl
@[simp] theorem State.setLock_now (r k : Nat) (l : Lock) : (s.setLock r k l).now = s.now := rfl
@[simp] theorem State.setLock_choice (r k : Nat) (l : Lock) : (s.setLock r k l).choice = s.choice := rfl
@[simp] theorem State.setLock_fresh (r k : Nat) (l : Lock) : (s.setLock r k l).fresh = s.fresh := rfl
@[simp] theorem State.setLock_out (r k : Nat) (l : Lock) : (s.setLock r k l).out = s.out := rfl
@[simp] theorem State.setLock_nextId (r k : Nat) (l : Lock) : (s.setLock r k l).nextId = s.nextId := rfl
@[simp] theorem State.setLock_nextAcc (r k : Nat) (l : Lock) : (s.setLock r k l).nextAcc = s.nextAcc := rfl
@[simp] theorem State.setLock_todo (r k : Nat) (l : Lock) : (s.setLock r k l).todo = s.todo := rfl
@[simp] theorem State.setLock_life (r k : Nat) (l : Lock) : (s.setLock r k l).life = s.life := rfl
@[simp] theorem State.setLock_pair (r k : Nat) (l : Lock) : (s.setLock r k l).pair = s.pair := rfl
@[simp] theorem State.setLock_eps (r k : Nat) (l : Lock) : (s.setLock r k l).eps = s.eps := rfl
@[simp] theorem State.setLock_fns (r k : Nat) (l : Lock) : (s.setLock r k l).fns = s.fns := rfl
@[simp] theorem State.setLock_sqs (r k : Nat) (l : Lock) : (s.setLock r k l).sqs = s.sqs := rfl
@[simp] theorem State.setLock_cqs (r k : Nat) (l : Lock) : (s.setLock r k l).cqs = s.cqs := rfl
@[simp] theorem State.setLock_cmds (r k : Nat) (l : Lock) : (s.setLock r k l).cmds = s.cmds := rfl
@[simp] theorem State.setLock_templates (r k : Nat) (l : Lock) : (s.setLock r k l).templates = s.templates := rfl
@[simp] theorem State.setLock_pools (r k : Nat) (l : Lock) : (s.setLock r k l).pools = s.pools := rfl
@[simp] theorem State.setLock_members (r k : Nat) (l : Lock) : (s.setLock r k l).members = s.members := rfl
@[simp] theorem State.setLock_volumes (r k : Nat) (l : Lock) : (s.setLock r k l).volumes = s.volumes := rfl
@[simp] theorem State.setLock_regions (r k : Nat) (l : Lock) : (s.setLock r k l).regions = s.regions := rfl
@[simp] theorem State.setLock_work (r k : Nat) (l : Lock) : (s.setLock r k l).work = s.work := rfl
@[simp] theorem State.setLock_settings (r k : Nat) (l : Lock) : (s.setLock r k l).settings = s.settings := rfl
@[simp] theorem State.setLock_wp (r k : Nat) (l : Lock) : (s.setLock r k l).wp = s.wp := rfl
@[simp] theorem State.setLock_frames (r k : Nat) (l : Lock) : (s.setLock r k l).frames = s.frames := rfl
@[simp] theorem State.setLock_heads (r k : Nat) (l : Lock) : (s.setLock r k l).heads = s.heads := rfl
@[simp] theorem State.setLock_locks (r k : Nat) (l : Lock) : (s.setLock r k l).locks = s.locks.putD {} (lockKey r k) l := rfl
@[simp] theorem State.setLock_tasks (r k : Nat) (l : Lock) : (s.setLock r k l).tasks = s.tasks := rfl
@[simp] theorem State.setLock_table (r k : Nat) (l : Lock) : (s.setLock r k l).table = s.table := rfl
@[simp] theorem State.setLock_staging (r k : Nat) (l : Lock) : (s.setLock r k l).staging = s.staging := rfl
@[simp] theorem State.setLock_parisons (r k : Nat) (l : Lock) : (s.setLock r k l).parisons = s.parisons := rfl
@[simp] theorem State.setLock_streams (r k : Nat) (l : Lock) : (s.setLock r k l).streams = s.streams := rfl
@[simp] theorem State.setLock_tiles (r k : Nat) (l : Lock) : (s.setLock r k l).tiles = s.tiles := rfl
@[simp] theorem State.setLock_tileWait (r k : Nat) (l : Lock) : (s.setLock r k l).tileWait = s.tileWait := rfl
@[simp] theorem State.setLock_ports (r k : Nat) (l : Lock) : (s.setLock r k l).ports = s.ports := rfl
@[simp] theorem State.setLock_journal (r k : Nat) (l : Lock) : (s.setLock r k l).journal = s.journal := rfl
@[simp] theorem State.setLock_vault (r k : Nat) (l : Lock) : (s.setLock r k l).vault = s.vault := rfl
@[simp] theorem State.setLock_pack (r k : Nat) (l : Lock) : (s.setLock r k l).pack = s.pack := rfl
@[simp] theorem State.setLock_link (r k : Nat) (l : Lock) : (s.setLock r k l).link = s.link := rfl
@[simp] theorem State.setLock_gov (r k : Nat) (l : Lock) : (s.setLock r k l).gov = s.gov := rfl
@[simp] theorem State.setLock_islands (r k : Nat) (l : Lock) : (s.setLock r k l).islands = s.islands := rfl
@[simp] theorem State.setLock_suspects (r k : Nat) (l : Lock) : (s.setLock r k l).suspects = s.suspects := rfl
@[simp] theorem State.setLock_learned (r k : Nat) (l : Lock) : (s.setLock r k l).learned = s.learned := rfl
@[simp] theorem State.setLock_recorder (r k : Nat) (l : Lock) : (s.setLock r k l).recorder = s.recorder := rfl
@[simp] theorem State.setLock_sb (r k : Nat) (l : Lock) : (s.setLock r k l).sb = s.sb := rfl
@[simp] theorem State.setLock_mgmt (r k : Nat) (l : Lock) : (s.setLock r k l).mgmt = s.mgmt := rfl

/-! ### `updTask` -/

@[simp] theorem State.updTask_pending (t : Nat) (f : Task → Task) : (s.updTask t f).pending = s.pending := rfl
@[simp] theorem State.updTask_now (t : Nat) (f : Task → Task) : (s.updTask t f).now = s.now := rfl
@[simp] theorem State.updTask_choice (t : Nat) (f : Task → Task) : (s.updTask t f).choice = s.choice := rfl
@[simp] theorem State.updTask_fresh (t : Nat) (f : Task → Task) : (s.updTask t f).fresh = s.fresh := rfl
@[simp] theorem State.updTask_out (t : Nat) (f : Task → Task) : (s.updTask t f).out = s.out := rfl
@[simp] theorem State.updTask_nextId (t : Nat) (f : Task → Task) : (s.updTask t f).nextId = s.nextId := rfl
@[simp] theorem State.updTask_nextAcc (t : Nat) (f : Task → Task) : (s.updTask t f).nextAcc = s.nextAcc := rfl
@[simp] theorem State.updTask_todo (t : Nat) (f : Task → Task) : (s.updTask t f).todo = s.todo := rfl
@[simp] theorem State.updTask_life (t : Nat) (f : Task → Task) : (s.updTask t f).life = s.life := rfl
@[simp] theorem State.updTask_pair (t : Nat) (f : Task → Task) : (s.updTask t f).pair = s.pair := rfl
@[simp] theorem State.updTask_eps (t : Nat) (f : Task → Task) : (s.updTask t f).eps = s.eps := rfl
@[simp] theorem State.updTask_fns (t : Nat) (f : Task → Task) : (s.updTask t f).fns = s.fns := rfl
@[simp] theorem State.updTask_sqs (t : Nat) (f : Task → Task) : (s.updTask t f).sqs = s.sqs := rfl
@[simp] theorem State.updTask_cqs (t : Nat) (f : Task → Task) : (s.updTask t f).cqs = s.cqs := rfl
@[simp] theorem State.updTask_cmds (t : Nat) (f : Task → Task) : (s.updTask t f).cmds = s.cmds := rfl
@[simp] theorem State.updTask_templates (t : Nat) (f : Task → Task) : (s.updTask t f).templates = s.templates := rfl
@[simp] theorem State.updTask_pools (t : Nat) (f : Task → Task) : (s.updTask t f).pools = s.pools := rfl
@[simp] theorem State.updTask_members (t : Nat) (f : Task → Task) : (s.updTask t f).members = s.members := rfl
@[simp] theorem State.updTask_volumes (t : Nat) (f : Task → Task) : (s.updTask t f).volumes = s.volumes := rfl
@[simp] theorem State.updTask_regions (t : Nat) (f : Task → Task) : (s.updTask t f).regions = s.regions := rfl
@[simp] theorem State.updTask_work (t : Nat) (f : Task → Task) : (s.updTask t f).work = s.work := rfl
@[simp] theorem State.updTask_settings (t : Nat) (f : Task → Task) : (s.updTask t f).settings = s.settings := rfl
@[simp] theorem State.updTask_wp (t : Nat) (f : Task → Task) : (s.updTask t f).wp = s.wp := rfl
@[simp] theorem State.updTask_frames (t : Nat) (f : Task → Task) : (s.updTask t f).frames = s.frames := rfl
@[simp] theorem State.updTask_heads (t : Nat) (f : Task → Task) : (s.updTask t f).heads = s.heads := rfl
@[simp] theorem State.updTask_locks (t : Nat) (f : Task → Task) : (s.updTask t f).locks = s.locks := rfl
@[simp] theorem State.updTask_tasks (t : Nat) (f : Task → Task) : (s.updTask t f).tasks = s.tasks.upd t f := rfl
@[simp] theorem State.updTask_table (t : Nat) (f : Task → Task) : (s.updTask t f).table = s.table := rfl
@[simp] theorem State.updTask_staging (t : Nat) (f : Task → Task) : (s.updTask t f).staging = s.staging := rfl
@[simp] theorem State.updTask_parisons (t : Nat) (f : Task → Task) : (s.updTask t f).parisons = s.parisons := rfl
@[simp] theorem State.updTask_streams (t : Nat) (f : Task → Task) : (s.updTask t f).streams = s.streams := rfl
@[simp] theorem State.updTask_tiles (t : Nat) (f : Task → Task) : (s.updTask t f).tiles = s.tiles := rfl
@[simp] theorem State.updTask_tileWait (t : Nat) (f : Task → Task) : (s.updTask t f).tileWait = s.tileWait := rfl
@[simp] theorem State.updTask_ports (t : Nat) (f : Task → Task) : (s.updTask t f).ports = s.ports := rfl
@[simp] theorem State.updTask_journal (t : Nat) (f : Task → Task) : (s.updTask t f).journal = s.journal := rfl
@[simp] theorem State.updTask_vault (t : Nat) (f : Task → Task) : (s.updTask t f).vault = s.vault := rfl
@[simp] theorem State.updTask_pack (t : Nat) (f : Task → Task) : (s.updTask t f).pack = s.pack := rfl
@[simp] theorem State.updTask_link (t : Nat) (f : Task → Task) : (s.updTask t f).link = s.link := rfl
@[simp] theorem State.updTask_gov (t : Nat) (f : Task → Task) : (s.updTask t f).gov = s.gov := rfl
@[simp] theorem State.updTask_islands (t : Nat) (f : Task → Task) : (s.updTask t f).islands = s.islands := rfl
@[simp] theorem State.updTask_suspects (t : Nat) (f : Task → Task) : (s.updTask t f).suspects = s.suspects := rfl
@[simp] theorem State.updTask_learned (t : Nat) (f : Task → Task) : (s.updTask t f).learned = s.learned := rfl
@[simp] theorem State.updTask_recorder (t : Nat) (f : Task → Task) : (s.updTask t f).recorder = s.recorder := rfl
@[simp] theorem State.updTask_sb (t : Nat) (f : Task → Task) : (s.updTask t f).sb = s.sb := rfl
@[simp] theorem State.updTask_mgmt (t : Nat) (f : Task → Task) : (s.updTask t f).mgmt = s.mgmt := rfl

/-! ### `updFrame` -/

@[simp] theorem State.updFrame_pending (f : Nat) (g : Frame → Frame) : (s.updFrame f g).pending = s.pending := rfl
@[simp] theorem State.updFrame_now (f : Nat) (g : Frame → Frame) : (s.updFrame f g).now = s.now := rfl
@[simp] theorem State.updFrame_choice (f : Nat) (g : Frame → Frame) : (s.updFrame f g).choice = s.choice := rfl
@[simp] theorem State.updFrame_fresh (f : Nat) (g : Frame → Frame) : (s.updFrame f g).fresh = s.fresh := rfl
@[simp] theorem State.updFrame_out (f : Nat) (g : Frame → Frame) : (s.updFrame f g).out = s.out := rfl
@[simp] theorem State.updFrame_nextId (f : Nat) (g : Frame → Frame) : (s.updFrame f g).nextId = s.nextId := rfl
@[simp] theorem State.updFrame_nextAcc (f : Nat) (g : Frame → Frame) : (s.updFrame f g).nextAcc = s.nextAcc := rfl
@[simp] theorem State.updFrame_todo (f : Nat) (g : Frame → Frame) : (s.updFrame f g).todo = s.todo := rfl
@[simp] theorem State.updFrame_life (f : Nat) (g : Frame → Frame) : (s.updFrame f g).life = s.life := rfl
@[simp] theorem State.updFrame_pair (f : Nat) (g : Frame → Frame) : (s.updFrame f g).pair = s.pair := rfl
@[simp] theorem State.updFrame_eps (f : Nat) (g : Frame → Frame) : (s.updFrame f g).eps = s.eps := rfl
@[simp] theorem State.updFrame_fns (f : Nat) (g : Frame → Frame) : (s.updFrame f g).fns = s.fns := rfl
@[simp] theorem State.updFrame_sqs (f : Nat) (g : Frame → Frame) : (s.updFrame f g).sqs = s.sqs := rfl
@[simp] theorem State.updFrame_cqs (f : Nat) (g : Frame → Frame) : (s.updFrame f g).cqs = s.cqs := rfl
@[simp] theorem State.updFrame_cmds (f : Nat) (g : Frame → Frame) : (s.updFrame f g).cmds = s.cmds := rfl
@[simp] theorem State.updFrame_templates (f : Nat) (g : Frame → Frame) : (s.updFrame f g).templates = s.templates := rfl
@[simp] theorem State.updFrame_pools (f : Nat) (g : Frame → Frame) : (s.updFrame f g).pools = s.pools := rfl
@[simp] theorem State.updFrame_members (f : Nat) (g : Frame → Frame) : (s.updFrame f g).members = s.members := rfl
@[simp] theorem State.updFrame_volumes (f : Nat) (g : Frame → Frame) : (s.updFrame f g).volumes = s.volumes := rfl
@[simp] theorem State.updFrame_regions (f : Nat) (g : Frame → Frame) : (s.updFrame f g).regions = s.regions := rfl
@[simp] theorem State.updFrame_work (f : Nat) (g : Frame → Frame) : (s.updFrame f g).work = s.work := rfl
@[simp] theorem State.updFrame_settings (f : Nat) (g : Frame → Frame) : (s.updFrame f g).settings = s.settings := rfl
@[simp] theorem State.updFrame_wp (f : Nat) (g : Frame → Frame) : (s.updFrame f g).wp = s.wp := rfl
@[simp] theorem State.updFrame_frames (f : Nat) (g : Frame → Frame) : (s.updFrame f g).frames = s.frames.upd f g := rfl
@[simp] theorem State.updFrame_heads (f : Nat) (g : Frame → Frame) : (s.updFrame f g).heads = s.heads := rfl
@[simp] theorem State.updFrame_locks (f : Nat) (g : Frame → Frame) : (s.updFrame f g).locks = s.locks := rfl
@[simp] theorem State.updFrame_tasks (f : Nat) (g : Frame → Frame) : (s.updFrame f g).tasks = s.tasks := rfl
@[simp] theorem State.updFrame_table (f : Nat) (g : Frame → Frame) : (s.updFrame f g).table = s.table := rfl
@[simp] theorem State.updFrame_staging (f : Nat) (g : Frame → Frame) : (s.updFrame f g).staging = s.staging := rfl
@[simp] theorem State.updFrame_parisons (f : Nat) (g : Frame → Frame) : (s.updFrame f g).parisons = s.parisons := rfl
@[simp] theorem State.updFrame_streams (f : Nat) (g : Frame → Frame) : (s.updFrame f g).streams = s.streams := rfl
@[simp] theorem State.updFrame_tiles (f : Nat) (g : Frame → Frame) : (s.updFrame f g).tiles = s.tiles := rfl
@[simp] theorem State.updFrame_tileWait (f : Nat) (g : Frame → Frame) : (s.updFrame f g).tileWait = s.tileWait := rfl
@[simp] theorem State.updFrame_ports (f : Nat) (g : Frame → Frame) : (s.updFrame f g).ports = s.ports := rfl
@[simp] theorem State.updFrame_journal (f : Nat) (g : Frame → Frame) : (s.updFrame f g).journal = s.journal := rfl
@[simp] theorem State.updFrame_vault (f : Nat) (g : Frame → Frame) : (s.updFrame f g).vault = s.vault := rfl
@[simp] theorem State.updFrame_pack (f : Nat) (g : Frame → Frame) : (s.updFrame f g).pack = s.pack := rfl
@[simp] theorem State.updFrame_link (f : Nat) (g : Frame → Frame) : (s.updFrame f g).link = s.link := rfl
@[simp] theorem State.updFrame_gov (f : Nat) (g : Frame → Frame) : (s.updFrame f g).gov = s.gov := rfl
@[simp] theorem State.updFrame_islands (f : Nat) (g : Frame → Frame) : (s.updFrame f g).islands = s.islands := rfl
@[simp] theorem State.updFrame_suspects (f : Nat) (g : Frame → Frame) : (s.updFrame f g).suspects = s.suspects := rfl
@[simp] theorem State.updFrame_learned (f : Nat) (g : Frame → Frame) : (s.updFrame f g).learned = s.learned := rfl
@[simp] theorem State.updFrame_recorder (f : Nat) (g : Frame → Frame) : (s.updFrame f g).recorder = s.recorder := rfl
@[simp] theorem State.updFrame_sb (f : Nat) (g : Frame → Frame) : (s.updFrame f g).sb = s.sb := rfl
@[simp] theorem State.updFrame_mgmt (f : Nat) (g : Frame → Frame) : (s.updFrame f g).mgmt = s.mgmt := rfl

/-! ### `updCmd` -/

@[simp] theorem State.updCmd_pending (acc : Nat) (f : Cmd → Cmd) : (s.updCmd acc f).pending = s.pending := rfl
@[simp] theorem State.updCmd_now (acc : Nat) (f : Cmd → Cmd) : (s.updCmd acc f).now = s.now := rfl
@[simp] theorem State.updCmd_choice (acc : Nat) (f : Cmd → Cmd) : (s.updCmd acc f).choice = s.choice := rfl
@[simp] theorem State.updCmd_fresh (acc : Nat) (f : Cmd → Cmd) : (s.updCmd acc f).fresh = s.fresh := rfl
@[simp] theorem State.updCmd_out (acc : Nat) (f : Cmd → Cmd) : (s.updCmd acc f).out = s.out := rfl
@[simp] theorem State.updCmd_nextId (acc : Nat) (f : Cmd → Cmd) : (s.updCmd acc f).nextId = s.nextId := rfl
@[simp] theorem State.updCmd_nextAcc (acc : Nat) (f : Cmd → Cmd) : (s.updCmd acc f).nextAcc = s.nextAcc := rfl
@[simp] theorem State.updCmd_todo (acc : Nat) (f : Cmd → Cmd) : (s.updCmd acc f).todo = s.todo := rfl
@[simp] theorem State.updCmd_life (acc : Nat) (f : Cmd → Cmd) : (s.updCmd acc f).life = s.life := rfl
@[simp] theorem State.updCmd_pair (acc : Nat) (f : Cmd → Cmd) : (s.updCmd acc f).pair = s.pair := rfl
@[simp] theorem State.updCmd_eps (acc : Nat) (f : Cmd → Cmd) : (s.updCmd acc f).eps = s.eps := rfl
@[simp] theorem State.updCmd_fns (acc : Nat) (f : Cmd → Cmd) : (s.updCmd acc f).fns = s.fns := rfl
@[simp] theorem State.updCmd_sqs (acc : Nat) (f : Cmd → Cmd) : (s.updCmd acc f).sqs = s.sqs := rfl
@[simp] theorem State.updCmd_cqs (acc : Nat) (f : Cmd → Cmd) : (s.updCmd acc f).cqs = s.cqs := rfl
@[simp] theorem State.updCmd_cmds (acc : Nat) (f : Cmd → Cmd) : (s.updCmd acc f).cmds = s.cmds.upd acc f := rfl
@[simp] theorem State.updCmd_templates (acc : Nat) (f : Cmd → Cmd) : (s.updCmd acc f).templates = s.templates := rfl
@[simp] theorem State.updCmd_pools (acc : Nat) (f : Cmd → Cmd) : (s.updCmd acc f).pools = s.pools := rfl
@[simp] theorem State.updCmd_members (acc : Nat) (f : Cmd → Cmd) : (s.updCmd acc f).members = s.members := rfl
@[simp] theorem State.updCmd_volumes (acc : Nat) (f : Cmd → Cmd) : (s.updCmd acc f).volumes = s.volumes := rfl
@[simp] theorem State.updCmd_regions (acc : Nat) (f : Cmd → Cmd) : (s.updCmd acc f).regions = s.regions := rfl
@[simp] theorem State.updCmd_work (acc : Nat) (f : Cmd → Cmd) : (s.updCmd acc f).work = s.work := rfl
@[simp] theorem State.updCmd_settings (acc : Nat) (f : Cmd → Cmd) : (s.updCmd acc f).settings = s.settings := rfl
@[simp] theorem State.updCmd_wp (acc : Nat) (f : Cmd → Cmd) : (s.updCmd acc f).wp = s.wp := rfl
@[simp] theorem State.updCmd_frames (acc : Nat) (f : Cmd → Cmd) : (s.updCmd acc f).frames = s.frames := rfl
@[simp] theorem State.updCmd_heads (acc : Nat) (f : Cmd → Cmd) : (s.updCmd acc f).heads = s.heads := rfl
@[simp] theorem State.updCmd_locks (acc : Nat) (f : Cmd → Cmd) : (s.updCmd acc f).locks = s.locks := rfl
@[simp] theorem State.updCmd_tasks (acc : Nat) (f : Cmd → Cmd) : (s.updCmd acc f).tasks = s.tasks := rfl
@[simp] theorem State.updCmd_table (acc : Nat) (f : Cmd → Cmd) : (s.updCmd acc f).table = s.table := rfl
@[simp] theorem State.updCmd_staging (acc : Nat) (f : Cmd → Cmd) : (s.updCmd acc f).staging = s.staging := rfl
@[simp] theorem State.updCmd_parisons (acc : Nat) (f : Cmd → Cmd) : (s.updCmd acc f).parisons = s.parisons := rfl
@[simp] theorem State.updCmd_streams (acc : Nat) (f : Cmd → Cmd) : (s.updCmd acc f).streams = s.streams := rfl
@[simp] theorem State.updCmd_tiles (acc : Nat) (f : Cmd → Cmd) : (s.updCmd acc f).tiles = s.tiles := rfl
@[simp] theorem State.updCmd_tileWait (acc : Nat) (f : Cmd → Cmd) : (s.updCmd acc f).tileWait = s.tileWait := rfl
@[simp] theorem State.updCmd_ports (acc : Nat) (f : Cmd → Cmd) : (s.updCmd acc f).ports = s.ports := rfl
@[simp] theorem State.updCmd_journal (acc : Nat) (f : Cmd → Cmd) : (s.updCmd acc f).journal = s.journal := rfl
@[simp] theorem State.updCmd_vault (acc : Nat) (f : Cmd → Cmd) : (s.updCmd acc f).vault = s.vault := rfl
@[simp] theorem State.updCmd_pack (acc : Nat) (f : Cmd → Cmd) : (s.updCmd acc f).pack = s.pack := rfl
@[simp] theorem State.updCmd_link (acc : Nat) (f : Cmd → Cmd) : (s.updCmd acc f).link = s.link := rfl
@[simp] theorem State.updCmd_gov (acc : Nat) (f : Cmd → Cmd) : (s.updCmd acc f).gov = s.gov := rfl
@[simp] theorem State.updCmd_islands (acc : Nat) (f : Cmd → Cmd) : (s.updCmd acc f).islands = s.islands := rfl
@[simp] theorem State.updCmd_suspects (acc : Nat) (f : Cmd → Cmd) : (s.updCmd acc f).suspects = s.suspects := rfl
@[simp] theorem State.updCmd_learned (acc : Nat) (f : Cmd → Cmd) : (s.updCmd acc f).learned = s.learned := rfl
@[simp] theorem State.updCmd_recorder (acc : Nat) (f : Cmd → Cmd) : (s.updCmd acc f).recorder = s.recorder := rfl
@[simp] theorem State.updCmd_sb (acc : Nat) (f : Cmd → Cmd) : (s.updCmd acc f).sb = s.sb := rfl
@[simp] theorem State.updCmd_mgmt (acc : Nat) (f : Cmd → Cmd) : (s.updCmd acc f).mgmt = s.mgmt := rfl

/-! ### `updPack` -/

@[simp] theorem State.updPack_pending (f : Pack → Pack) : (s.updPack f).pending = s.pending := rfl
@[simp] theorem State.updPack_now (f : Pack → Pack) : (s.updPack f).now = s.now := rfl
@[simp] theorem State.updPack_choice (f : Pack → Pack) : (s.updPack f).choice = s.choice := rfl
@[simp] theorem State.updPack_fresh (f : Pack → Pack) : (s.updPack f).fresh = s.fresh := rfl
@[simp] theorem State.updPack_out (f : Pack → Pack) : (s.updPack f).out = s.out := rfl
@[simp] theorem State.updPack_nextId (f : Pack → Pack) : (s.updPack f).nextId = s.nextId := rfl
@[simp] theorem State.updPack_nextAcc (f : Pack → Pack) : (s.updPack f).nextAcc = s.nextAcc := rfl
@[simp] theorem State.updPack_todo (f : Pack → Pack) : (s.updPack f).todo = s.todo := rfl
@[simp] theorem State.updPack_life (f : Pack → Pack) : (s.updPack f).life = s.life := rfl
@[simp] theorem State.updPack_pair (f : Pack → Pack) : (s.updPack f).pair = s.pair := rfl
@[simp] theorem State.updPack_eps (f : Pack → Pack) : (s.updPack f).eps = s.eps := rfl
@[simp] theorem State.updPack_fns (f : Pack → Pack) : (s.updPack f).fns = s.fns := rfl
@[simp] theorem State.updPack_sqs (f : Pack → Pack) : (s.updPack f).sqs = s.sqs := rfl
@[simp] theorem State.updPack_cqs (f : Pack → Pack) : (s.updPack f).cqs = s.cqs := rfl
@[simp] theorem State.updPack_cmds (f : Pack → Pack) : (s.updPack f).cmds = s.cmds := rfl
@[simp] theorem State.updPack_templates (f : Pack → Pack) : (s.updPack f).templates = s.templates := rfl
@[simp] theorem State.updPack_pools (f : Pack → Pack) : (s.updPack f).pools = s.pools := rfl
@[simp] theorem State.updPack_members (f : Pack → Pack) : (s.updPack f).members = s.members := rfl
@[simp] theorem State.updPack_volumes (f : Pack → Pack) : (s.updPack f).volumes = s.volumes := rfl
@[simp] theorem State.updPack_regions (f : Pack → Pack) : (s.updPack f).regions = s.regions := rfl
@[simp] theorem State.updPack_work (f : Pack → Pack) : (s.updPack f).work = s.work := rfl
@[simp] theorem State.updPack_settings (f : Pack → Pack) : (s.updPack f).settings = s.settings := rfl
@[simp] theorem State.updPack_wp (f : Pack → Pack) : (s.updPack f).wp = s.wp := rfl
@[simp] theorem State.updPack_frames (f : Pack → Pack) : (s.updPack f).frames = s.frames := rfl
@[simp] theorem State.updPack_heads (f : Pack → Pack) : (s.updPack f).heads = s.heads := rfl
@[simp] theorem State.updPack_locks (f : Pack → Pack) : (s.updPack f).locks = s.locks := rfl
@[simp] theorem State.updPack_tasks (f : Pack → Pack) : (s.updPack f).tasks = s.tasks := rfl
@[simp] theorem State.updPack_table (f : Pack → Pack) : (s.updPack f).table = s.table := rfl
@[simp] theorem State.updPack_staging (f : Pack → Pack) : (s.updPack f).staging = s.staging := rfl
@[simp] theorem State.updPack_parisons (f : Pack → Pack) : (s.updPack f).parisons = s.parisons := rfl
@[simp] theorem State.updPack_streams (f : Pack → Pack) : (s.updPack f).streams = s.streams := rfl
@[simp] theorem State.updPack_tiles (f : Pack → Pack) : (s.updPack f).tiles = s.tiles := rfl
@[simp] theorem State.updPack_tileWait (f : Pack → Pack) : (s.updPack f).tileWait = s.tileWait := rfl
@[simp] theorem State.updPack_ports (f : Pack → Pack) : (s.updPack f).ports = s.ports := rfl
@[simp] theorem State.updPack_journal (f : Pack → Pack) : (s.updPack f).journal = s.journal := rfl
@[simp] theorem State.updPack_vault (f : Pack → Pack) : (s.updPack f).vault = s.vault := rfl
@[simp] theorem State.updPack_pack (f : Pack → Pack) : (s.updPack f).pack = f s.pack := rfl
@[simp] theorem State.updPack_link (f : Pack → Pack) : (s.updPack f).link = s.link := rfl
@[simp] theorem State.updPack_gov (f : Pack → Pack) : (s.updPack f).gov = s.gov := rfl
@[simp] theorem State.updPack_islands (f : Pack → Pack) : (s.updPack f).islands = s.islands := rfl
@[simp] theorem State.updPack_suspects (f : Pack → Pack) : (s.updPack f).suspects = s.suspects := rfl
@[simp] theorem State.updPack_learned (f : Pack → Pack) : (s.updPack f).learned = s.learned := rfl
@[simp] theorem State.updPack_recorder (f : Pack → Pack) : (s.updPack f).recorder = s.recorder := rfl
@[simp] theorem State.updPack_sb (f : Pack → Pack) : (s.updPack f).sb = s.sb := rfl
@[simp] theorem State.updPack_mgmt (f : Pack → Pack) : (s.updPack f).mgmt = s.mgmt := rfl

/-! ### `updSb` -/

@[simp] theorem State.updSb_pending (g : Sideband → Sideband) : (s.updSb g).pending = s.pending := rfl
@[simp] theorem State.updSb_now (g : Sideband → Sideband) : (s.updSb g).now = s.now := rfl
@[simp] theorem State.updSb_choice (g : Sideband → Sideband) : (s.updSb g).choice = s.choice := rfl
@[simp] theorem State.updSb_fresh (g : Sideband → Sideband) : (s.updSb g).fresh = s.fresh := rfl
@[simp] theorem State.updSb_out (g : Sideband → Sideband) : (s.updSb g).out = s.out := rfl
@[simp] theorem State.updSb_nextId (g : Sideband → Sideband) : (s.updSb g).nextId = s.nextId := rfl
@[simp] theorem State.updSb_nextAcc (g : Sideband → Sideband) : (s.updSb g).nextAcc = s.nextAcc := rfl
@[simp] theorem State.updSb_todo (g : Sideband → Sideband) : (s.updSb g).todo = s.todo := rfl
@[simp] theorem State.updSb_life (g : Sideband → Sideband) : (s.updSb g).life = s.life := rfl
@[simp] theorem State.updSb_pair (g : Sideband → Sideband) : (s.updSb g).pair = s.pair := rfl
@[simp] theorem State.updSb_eps (g : Sideband → Sideband) : (s.updSb g).eps = s.eps := rfl
@[simp] theorem State.updSb_fns (g : Sideband → Sideband) : (s.updSb g).fns = s.fns := rfl
@[simp] theorem State.updSb_sqs (g : Sideband → Sideband) : (s.updSb g).sqs = s.sqs := rfl
@[simp] theorem State.updSb_cqs (g : Sideband → Sideband) : (s.updSb g).cqs = s.cqs := rfl
@[simp] theorem State.updSb_cmds (g : Sideband → Sideband) : (s.updSb g).cmds = s.cmds := rfl
@[simp] theorem State.updSb_templates (g : Sideband → Sideband) : (s.updSb g).templates = s.templates := rfl
@[simp] theorem State.updSb_pools (g : Sideband → Sideband) : (s.updSb g).pools = s.pools := rfl
@[simp] theorem State.updSb_members (g : Sideband → Sideband) : (s.updSb g).members = s.members := rfl
@[simp] theorem State.updSb_volumes (g : Sideband → Sideband) : (s.updSb g).volumes = s.volumes := rfl
@[simp] theorem State.updSb_regions (g : Sideband → Sideband) : (s.updSb g).regions = s.regions := rfl
@[simp] theorem State.updSb_work (g : Sideband → Sideband) : (s.updSb g).work = s.work := rfl
@[simp] theorem State.updSb_settings (g : Sideband → Sideband) : (s.updSb g).settings = s.settings := rfl
@[simp] theorem State.updSb_wp (g : Sideband → Sideband) : (s.updSb g).wp = s.wp := rfl
@[simp] theorem State.updSb_frames (g : Sideband → Sideband) : (s.updSb g).frames = s.frames := rfl
@[simp] theorem State.updSb_heads (g : Sideband → Sideband) : (s.updSb g).heads = s.heads := rfl
@[simp] theorem State.updSb_locks (g : Sideband → Sideband) : (s.updSb g).locks = s.locks := rfl
@[simp] theorem State.updSb_tasks (g : Sideband → Sideband) : (s.updSb g).tasks = s.tasks := rfl
@[simp] theorem State.updSb_table (g : Sideband → Sideband) : (s.updSb g).table = s.table := rfl
@[simp] theorem State.updSb_staging (g : Sideband → Sideband) : (s.updSb g).staging = s.staging := rfl
@[simp] theorem State.updSb_parisons (g : Sideband → Sideband) : (s.updSb g).parisons = s.parisons := rfl
@[simp] theorem State.updSb_streams (g : Sideband → Sideband) : (s.updSb g).streams = s.streams := rfl
@[simp] theorem State.updSb_tiles (g : Sideband → Sideband) : (s.updSb g).tiles = s.tiles := rfl
@[simp] theorem State.updSb_tileWait (g : Sideband → Sideband) : (s.updSb g).tileWait = s.tileWait := rfl
@[simp] theorem State.updSb_ports (g : Sideband → Sideband) : (s.updSb g).ports = s.ports := rfl
@[simp] theorem State.updSb_journal (g : Sideband → Sideband) : (s.updSb g).journal = s.journal := rfl
@[simp] theorem State.updSb_vault (g : Sideband → Sideband) : (s.updSb g).vault = s.vault := rfl
@[simp] theorem State.updSb_pack (g : Sideband → Sideband) : (s.updSb g).pack = s.pack := rfl
@[simp] theorem State.updSb_link (g : Sideband → Sideband) : (s.updSb g).link = s.link := rfl
@[simp] theorem State.updSb_gov (g : Sideband → Sideband) : (s.updSb g).gov = s.gov := rfl
@[simp] theorem State.updSb_islands (g : Sideband → Sideband) : (s.updSb g).islands = s.islands := rfl
@[simp] theorem State.updSb_suspects (g : Sideband → Sideband) : (s.updSb g).suspects = s.suspects := rfl
@[simp] theorem State.updSb_learned (g : Sideband → Sideband) : (s.updSb g).learned = s.learned := rfl
@[simp] theorem State.updSb_recorder (g : Sideband → Sideband) : (s.updSb g).recorder = s.recorder := rfl
@[simp] theorem State.updSb_sb (g : Sideband → Sideband) : (s.updSb g).sb = g s.sb := rfl
@[simp] theorem State.updSb_mgmt (g : Sideband → Sideband) : (s.updSb g).mgmt = s.mgmt := rfl

/-! ### `keepOwned` -/

@[simp] theorem State.keepOwned_pending (t : State) : (s.keepOwned t).pending = s.pending := rfl
@[simp] theorem State.keepOwned_now (t : State) : (s.keepOwned t).now = s.now := rfl
@[simp] theorem State.keepOwned_choice (t : State) : (s.keepOwned t).choice = t.choice := rfl
@[simp] theorem State.keepOwned_fresh (t : State) : (s.keepOwned t).fresh = t.fresh := rfl
@[simp] theorem State.keepOwned_out (t : State) : (s.keepOwned t).out = t.out := rfl
@[simp] theorem State.keepOwned_nextId (t : State) : (s.keepOwned t).nextId = t.nextId := rfl
@[simp] theorem State.keepOwned_nextAcc (t : State) : (s.keepOwned t).nextAcc = t.nextAcc := rfl
@[simp] theorem State.keepOwned_todo (t : State) : (s.keepOwned t).todo = t.todo := rfl
@[simp] theorem State.keepOwned_life (t : State) : (s.keepOwned t).life = t.life := rfl
@[simp] theorem State.keepOwned_pair (t : State) : (s.keepOwned t).pair = t.pair := rfl
@[simp] theorem State.keepOwned_eps (t : State) : (s.keepOwned t).eps = t.eps := rfl
@[simp] theorem State.keepOwned_fns (t : State) : (s.keepOwned t).fns = t.fns := rfl
@[simp] theorem State.keepOwned_sqs (t : State) : (s.keepOwned t).sqs = t.sqs := rfl
@[simp] theorem State.keepOwned_cqs (t : State) : (s.keepOwned t).cqs = t.cqs := rfl
@[simp] theorem State.keepOwned_cmds (t : State) : (s.keepOwned t).cmds = t.cmds := rfl
@[simp] theorem State.keepOwned_templates (t : State) : (s.keepOwned t).templates = t.templates := rfl
@[simp] theorem State.keepOwned_pools (t : State) : (s.keepOwned t).pools = t.pools := rfl
@[simp] theorem State.keepOwned_members (t : State) : (s.keepOwned t).members = t.members := rfl
@[simp] theorem State.keepOwned_volumes (t : State) : (s.keepOwned t).volumes = t.volumes := rfl
@[simp] theorem State.keepOwned_regions (t : State) : (s.keepOwned t).regions = t.regions := rfl
@[simp] theorem State.keepOwned_work (t : State) : (s.keepOwned t).work = t.work := rfl
@[simp] theorem State.keepOwned_settings (t : State) : (s.keepOwned t).settings = s.settings := rfl
@[simp] theorem State.keepOwned_wp (t : State) : (s.keepOwned t).wp = t.wp := rfl
@[simp] theorem State.keepOwned_frames (t : State) : (s.keepOwned t).frames = t.frames := rfl
@[simp] theorem State.keepOwned_heads (t : State) : (s.keepOwned t).heads = t.heads := rfl
@[simp] theorem State.keepOwned_locks (t : State) : (s.keepOwned t).locks = t.locks := rfl
@[simp] theorem State.keepOwned_tasks (t : State) : (s.keepOwned t).tasks = t.tasks := rfl
@[simp] theorem State.keepOwned_table (t : State) : (s.keepOwned t).table = t.table := rfl
@[simp] theorem State.keepOwned_staging (t : State) : (s.keepOwned t).staging = t.staging := rfl
@[simp] theorem State.keepOwned_parisons (t : State) : (s.keepOwned t).parisons = t.parisons := rfl
@[simp] theorem State.keepOwned_streams (t : State) : (s.keepOwned t).streams = t.streams := rfl
@[simp] theorem State.keepOwned_tiles (t : State) : (s.keepOwned t).tiles = t.tiles := rfl
@[simp] theorem State.keepOwned_tileWait (t : State) : (s.keepOwned t).tileWait = t.tileWait := rfl
@[simp] theorem State.keepOwned_ports (t : State) : (s.keepOwned t).ports = t.ports := rfl
@[simp] theorem State.keepOwned_journal (t : State) : (s.keepOwned t).journal = t.journal := rfl
@[simp] theorem State.keepOwned_vault (t : State) : (s.keepOwned t).vault = t.vault := rfl
@[simp] theorem State.keepOwned_pack (t : State) : (s.keepOwned t).pack = t.pack := rfl
@[simp] theorem State.keepOwned_link (t : State) : (s.keepOwned t).link = t.link := rfl
@[simp] theorem State.keepOwned_gov (t : State) : (s.keepOwned t).gov = t.gov := rfl
@[simp] theorem State.keepOwned_islands (t : State) : (s.keepOwned t).islands = t.islands := rfl
@[simp] theorem State.keepOwned_suspects (t : State) : (s.keepOwned t).suspects = t.suspects := rfl
@[simp] theorem State.keepOwned_learned (t : State) : (s.keepOwned t).learned = t.learned := rfl
@[simp] theorem State.keepOwned_recorder (t : State) : (s.keepOwned t).recorder = t.recorder := rfl
@[simp] theorem State.keepOwned_sb (t : State) : (s.keepOwned t).sb = t.sb := rfl
@[simp] theorem State.keepOwned_mgmt (t : State) : (s.keepOwned t).mgmt = t.mgmt := rfl

end Sys2Proof.Machine
end

