-- ==== Sys2Proof/Laws/Stores.lean ====
section
/-! SUPPORT. What a record store reads after each of its operations. -/

namespace Sys2Proof.Machine

open Sys2Proof

variable {α : Type}

@[simp] theorem Store.look_nil (k : Nat) : Store.look ([] : Store α) k = none := rfl

/-- A read after a write: the written record at its key, the former one at every other. -/
theorem Store.look_put (m : Store α) (k : Nat) (v : α) (j : Nat) :
    (m.put k v).look j = if k = j then some v else m.look j := by
  induction m with
  | nil => simp only [Store.put, Store.look]
  | cons e t ih =>
    obtain ⟨a, b⟩ := e
    by_cases h1 : k < a
    · simp only [Store.put, h1, if_true, Store.look]
    · by_cases h2 : k = a
      · subst h2
        simp only [Store.put, lt_irrefl, if_false, if_true, Store.look]
        split <;> rfl
      · simp only [Store.put, h1, h2, if_false, Store.look, ih]
        split
        · rename_i h; subst h; rw [if_neg h2]
        · rfl

@[simp] theorem Store.look_put_self (m : Store α) (k : Nat) (v : α) : (m.put k v).look k = some v := by
  simp [Store.look_put]

theorem Store.look_put_other (m : Store α) {k j : Nat} (v : α) (h : k ≠ j) : (m.put k v).look j = m.look j := by
  simp [Store.look_put, h]

/-- A read after a drop. -/
theorem Store.look_del (m : Store α) (k j : Nat) : (m.del k).look j = if k = j then none else m.look j := by
  induction m with
  | nil => simp [Store.del]
  | cons e t ih =>
    obtain ⟨a, b⟩ := e
    by_cases h : a = k
    · subst h
      simp only [Store.del, if_true, ih, Store.look]
      split <;> simp_all
    · simp only [Store.del, h, if_false, Store.look, ih]
      split
      · rename_i h'; subst h'; simp [Ne.symm h]
      · rfl

/-- A change of a listed record shows at its key alone. -/
theorem Store.look_upd (m : Store α) (k : Nat) (f : α → α) (j : Nat) :
    (m.upd k f).look j = if k = j then (m.look j).map f else m.look j := by
  induction m with
  | nil => simp [Store.upd, Store.look]
  | cons e t ih =>
    obtain ⟨a, b⟩ := e
    simp only [Store.upd, List.map_cons] at ih ⊢
    by_cases h : a = k
    · subst h
      simp only [if_true, Store.look]
      by_cases hj : a = j
      · simp [hj]
      · simp only [hj, if_false]; rw [ih]; simp [hj]
    · simp only [h, if_false, Store.look]
      by_cases hj : a = j
      · subst hj; simp [Ne.symm h]
      · simp only [hj, if_false]; exact ih

@[simp] theorem Store.has_put (m : Store α) (k : Nat) (v : α) : (m.put k v).has k = true := by simp [Store.has]

@[simp] theorem Store.has_del (m : Store α) (k : Nat) : (m.del k).has k = false := by simp [Store.has, Store.look_del]

end Sys2Proof.Machine
end

