-- ==== Sys2Proof/Laws/Shared.lean ====
section
/-! SUPPORT. What each operation that the meanings share can do: the outcome's shape, the start of a host command, checks, folds over
the state, and the accessors of parts after an update of a part. -/

namespace Sys2Proof.Machine

open Sys2Proof

/-! ### The shape of a meaning -/

@[simp] theorem act_eq (s t : State) : act s t = .next (s.keepOwned t) := rfl

@[simp] theorem vaultAct_eq (s t : State) : vaultAct s t = .next (s.keepVault t) := rfl

@[simp] theorem actSet_eq (s : State) (x : Settings) (t : State) :
    actSet s x t = .next { t with pending := s.pending, now := s.now, settings := x } := rfl

@[simp] theorem State.keepVault_pending (s t : State) : (s.keepVault t).pending = s.pending := by
  simp only [State.keepVault]

@[simp] theorem State.keepVault_now (s t : State) : (s.keepVault t).now = s.now := by
  simp only [State.keepVault]

/-- A meaning of the vault changes no device setting but the cap of the dirty limit (R401). -/
theorem State.keepVault_settings (s t : State) :
    (s.keepVault t).settings = { s.settings with lCfg := (s.keepVault t).settings.lCfg } := by
  simp only [State.keepVault]

/-! ### Conditions and folds -/

@[simp] theorem State.when_true (s t : State) : s.when true t = t := rfl

@[simp] theorem State.when_false (s t : State) : s.when false t = s := rfl

@[simp] theorem State.over_nil {α : Type} (s : State) (f : State → α → State) : s.over [] f = s := rfl

@[simp] theorem State.over_cons {α : Type} (s : State) (a : α) (l : List α) (f : State → α → State) :
    s.over (a :: l) f = (f s a).over l f := rfl

/-- What one turn keeps, a fold keeps. -/
theorem State.over_keeps {α : Type} {P : State → Prop} (f : State → α → State) (l : List α)
    (step : ∀ s a, a ∈ l → P s → P (f s a)) : ∀ s, P s → P (s.over l f) := by
  induction l with
  | nil => intro s h; exact h
  | cons a l ih =>
    intro s h
    exact ih (fun s b hb => step s b (List.mem_cons_of_mem a hb)) _ (step s a List.mem_cons_self h)

/-! ### Host commands -/

/-- The command that may start is the accepted one of that number, with that opcode and form, and none runs while the block is in reset
or in a lehr pass. -/
theorem State.startable_some {s : State} {acc op : Nat} {sub : Sqe → Bool} {c : Cmd} (h : s.startable acc op sub = some c) :
    s.cmds.look acc = some c ∧ c.phase = .accepted ∧ c.sqe.opcode = op ∧ sub c.sqe = true ∧ s.lehrOn = false
      ∧ s.life.inReset = false := by
  unfold State.startable at h
  split at h
  · cases h
  · rename_i x hx
    split at h
    · rename_i hc
      cases h
      simp only [Bool.and_eq_true, decide_eq_true_eq, Bool.not_eq_true'] at hc
      exact ⟨hx, hc.1.1.1.1.1.1.1.1, hc.1.1.1.1.1.1.1.2, hc.1.1.1.1.1.1.2, hc.1.1.2, hc.1.2⟩
    · cases h

theorem State.start_some {s : State} {acc op : Nat} {sub : Sqe → Bool} {c : Cmd} (f : Cmd → State)
    (h : s.startable acc op sub = some c) : s.start acc op sub f = f c := by
  simp [State.start, h]

theorem State.start_none {s : State} {acc op : Nat} {sub : Sqe → Bool} (f : Cmd → State) (h : s.startable acc op sub = none) :
    s.start acc op sub f = s := by
  simp [State.start, h]

@[simp] theorem State.check_none (s : State) (c : Cmd) (t : State) : s.check c none t = t := rfl

@[simp] theorem State.check_some (s : State) (c : Cmd) (st : Status) (t : State) : s.check c (some st) t = s.finish c.acc st := rfl

/-! ### Parts after an update of a part -/

@[simp] theorem State.updPack_pack_st (s : State) (f : Pack → Pack) : (s.updPack f).pack.st = (f s.pack).st := rfl

@[simp] theorem State.live_emit (s : State) (o : Output) : (s.emit o).live = s.live := rfl

@[simp] theorem State.live_updPack (s : State) (f : Pack → Pack) : (s.updPack f).live = s.live := rfl

@[simp] theorem State.live_setPort (s : State) (p : Nat) (v : Port) : (s.setPort p v).live = s.live := rfl

@[simp] theorem State.cmds_look_updCmd (s : State) (acc : Nat) (f : Cmd → Cmd) (j : Nat) :
    (s.updCmd acc f).cmds.look j = if acc = j then (s.cmds.look j).map f else s.cmds.look j := by
  simp [Store.look_upd]

/-- A part reads as it was written, and the others as before. -/
theorem State.port_setPort (s : State) (p q : Nat) (v : Port) :
    (s.setPort p v).port q = if p = q then v else s.port q := by
  simp only [State.port, State.setPort, Store.putD, Store.read]
  split
  · rename_i h; simp only [Store.look_del]; split <;> simp_all
  · simp only [Store.look_put]; split <;> simp

@[simp] theorem State.port_updPort (s : State) (p : Nat) (f : Port → Port) : (s.updPort p f).port p = f (s.port p) := by
  simp [State.updPort, State.port_setPort]

theorem State.island_setIsland (s : State) (i j : Nat) (v : Island) :
    (s.setIsland i v).island j = if i = j then v else s.island j := by
  simp only [State.island, State.setIsland, Store.putD, Store.read]
  split
  · rename_i h; simp only [Store.look_del]; split <;> simp_all
  · simp only [Store.look_put]; split <;> simp

/-- The tile that a job goes to lets it in (R654). -/
theorem State.tileFor_lets {n : Nat} {s s' : State} {no : Option Nat} {t : Nat} (h : State.tileFor n s no = (some t, s')) :
    s'.boundary (114 + t) (s'.viewOf firmwareIsland (114 + t)) = none := by
  induction n generalizing s with
  | zero => simp [State.tileFor] at h
  | succ n ih =>
    simp only [State.tileFor] at h
    split at h
    · simp at h
    · split at h
      · rename_i ok
        simp only [Prod.mk.injEq, Option.some.injEq] at h
        obtain ⟨rfl, rfl⟩ := h
        exact Option.isNone_iff_eq_none.mp ok
      · exact ih h

/-- The areas beside the frames fill the shares of the 32 channels (R138, R661). -/
theorem hbmAreas_fill_shares : (hbmAreas.map HbmArea.units).sum = 32 * shareUnits := by decide

end Sys2Proof.Machine
end

