-- ==== Sys2Proof/WellFormed.lean ====
section
/-! DEFINITION. Which operands a command may carry: numbers of parts the block has, and values of the width of their
register. A meaning answers a trigger with other operands by leaving the state unchanged. -/

namespace Sys2Proof

/-- A function the endpoint layout has (R529, R531). -/
def FnId.wf (f : FnId) : Bool := f.ep ≤ 1 && f.num ≤ 255

/-- A ring index (R539). -/
def ringWf (f : FnId) (r : Nat) : Bool := f.wf && r < (if f.num = 0 then 4096 else 256)

/-- A drive port or slot (R271, R296). -/
def portWf (p : Nat) : Bool := p < 64

/-- A clock island (R30). -/
def islandWf (i : Nat) : Bool := i < 260

/-- An endpoint (R529). -/
def epWf (e : Nat) : Bool := e < 2

/-- A tag value (R543). -/
def tagWf (e t : Nat) : Bool := epWf e && t < 16384

/-- A stripe of a region (R48, R73). -/
def stripeWf (r k : Nat) : Bool := r < 16777216 && k < 4096

/-- The shape of a register access (R537). -/
def RegTarget.wf : RegTarget → Bool
  | .bar f b _ len v _ => f.wf && b < 6 && 1 ≤ len && len ≤ 8 && v.toNat < 2 ^ (8 * len)
  | .config f _ _ => f.wf
  | .smbus o n d _ => o < 256 && n < 256 && d.length ≤ 255
  | .i3c o d => o < 256 && d.length ≤ 255
  | .smbusRead o _ => o < 256
  | .i3cRead n => n ≤ 65535

/-- Is the command well formed? -/
def Instr.wf : Instr → Bool
  | .sqTail f r _ | .cqHead f r _ | .shadowPoll f r | .coalescingTime f r | .cqStall f r => ringWf f r
  | .adminEn f | .causeWrite f _ | .causeMaskWrite f _ | .intEnWrite f _ | .force f _ | .flr f | .busMasterEnableCleared f | .busMasterEnableSet f | .d3hotEntry f | .d0Return f => f.wf
  | .badRegisterRead f b _ _ => f.wf && b < 6
  | .suppressedTotalRead r | .overrunsRead r => r.fn.wf
  | .msixEntryWrite f v d _ => f.wf && v < (if f.num = 0 then 2048 else 64) && d < 4
  | .registerWrite t => t.wf
  | .hostCompletion e t _ | .completionTimeout e t | .tagHoldExpiry e t => tagWf e t
  | .ltrIdle e | .hostLinkUp e _ _ _ | .hostLinkDown e | .hotReset e | .vfEnableCleared e | .hostLinkError e _ => epWf e
  | .stripeInterlockGrant r k | .destageAgeLimit r k => stripeWf r k
  | .tileJobComplete t _ => t < 48
  | .driveCompletion p _ | .hedgeDelay p _ | .driveLinkUp p _ _ _ | .driveLinkDown p | .linkDownHoldExpiry p
  | .portNoLink p | .drivePerstDeassert p | .smartPoll p _ | .asynchronousEvent p _ | .softTimeout p _ | .hardTimeout p _
  | .quarantineTimeout p _ | .adminCommandTimeout p | .controllerDisabled p | .controllerResetTimeout p
  | .controllerFatalStatus p | .slotPresenceChange p _ | .slotButtonPress p | .buttonWindowEnd p | .slotPowerFault p
  | .slotPowerGood p | .slotPowerOffDelay p | .driveSettle p | .buttonRefusalEnd p => portWf p
  | .vaultOperationTimeout c => c < 16
  | .hbmParityError c => c < 32
  | .unitDown i _ | .unitUp i | .routerTimeout i | .droopStretch50 i | .droopStretch25 i | .droopRecover i
  | .thermalWarn i _ | .thermalTrip i _ => islandWf i
  | .supplyFault r _ => r < 8
  | .entdaa a | .setdasa a => a < 128
  | .recordAccept c _ _ _ _ => c < 65536
  | _ => true

end Sys2Proof
end

