-- ==== Sys2Proof/Tests/Slice0.lean ====
section
/-! SUPPORT. Tests: that WellFormed refuses, what single steps do on small states, figures of the spec worked by hand, and for each statement
with premises a concrete state and operands that meet them, clause by clause. -/

/-- That state with a command accepted. -/
def Sys2Proof.Machine.State.holding (s : Sys2Proof.Machine.State) (c : Sys2Proof.Machine.Cmd) : Sys2Proof.Machine.State :=
  { s with cmds := s.cmds.put c.acc c }

namespace Sys2Proof.Tests

open Sys2Proof Sys2Proof.Machine

/-! ### Small states -/

/-- Late in a run (every period is over), with the logic die out of reset and the host port up. -/
def up : State :=
  { State.reset with now := 100000000000000, life := { st := .ready, inReset := false, perst := false, hostReady := true },
                     eps := [(0, { up := true, speed := 32, width := 8 })] }

/-- A submission entry with an opcode and parameters. -/
def entry (op : Nat) (params : List Word) : Sqe :=
  { opcode := op, fence := false, fua := false, dptrMode := 0, cid := 1, vol := 0, w08 := 0, nblocks := 1, dptrAddr := 0, dptrLen := 0,
    params := params }

/-- An accepted command, its host data complete. -/
def command (op : Nat) (params : List Word) (data : List Byte := []) : Cmd :=
  { acc := 1, fn := ⟨0, 0⟩, sq := 0, sqe := entry op params, at_ := 0, buffers := some [(0, data.length)], good := data.length,
    data := [(0, data)] }

/-- The command may start. -/
def starts (s : State) (op : Nat) (sub : Sqe → Bool := anyForm) : Bool := (s.startable 1 op sub).isSome

def pool0 : Pool := { chunkCode := 0, spare := 32, seed := 7, rows := 64 }

def member0 : Member := { pool := 0, lbaSize := 4096, capacity := 1000000 }

/-- A module with pool 0, a member at port 3 and region 5 of that pool. -/
def arrayUp : State :=
  { up with pools := [(0, pool0)], members := [(3, member0)], templates := [(1, ⟨2, [(6, 2)]⟩)],
            regions := [(5, { template := 1, st := .rebuilding, pool := 0 })],
            volumes := [(9, { vault := false, capacity := 1000, template := 1, vmap := [5] })] }

/-- A module whose port 3 has a trained link and an answering controller. -/
def portUp (p : Port) : State := { arrayUp with ports := [(3, { p with linkUp := true, ctl := .ready, perst := false })] }

def vaultUp : State := { up with vault := { mounted := true } }

/-- A pack in a state of R436. -/
def packIn (st : PackSt) : State := { up with pack := { st := st, present := true, decl := some ⟨3, 2000, 1000, defaultOcv⟩, cLearned := 10000, q := some 0 } }

/-! ### WellFormed -/

/-- Every check refuses an operand beyond its range. -/
theorem test_wf_refuses :
    ([.flr ⟨2, 0⟩, .flr ⟨0, 256⟩, .sqTail ⟨0, 0⟩ 4096 0, .cqHead ⟨0, 1⟩ 256 0, .badRegisterRead ⟨0, 0⟩ 6 0 4, .msixEntryWrite ⟨0, 0⟩ 2048 0 0,
      .msixEntryWrite ⟨0, 1⟩ 64 0 0, .msixEntryWrite ⟨0, 0⟩ 0 4 0, .registerWrite (.bar ⟨0, 0⟩ 6 0 4 0 false),
      .registerWrite (.bar ⟨0, 0⟩ 0 0 4 0x100000000 false), .registerWrite (.smbus 256 0 [] none), .registerWrite (.i3c 256 []),
      .completionTimeout 0 16384, .ltrIdle 2, .stripeInterlockGrant 16777216 0, .destageAgeLimit 0 4096, .tileJobComplete 48 [],
      .driveLinkDown 64, .vaultOperationTimeout 16, .hbmParityError 32, .droopRecover 260, .supplyFault 8 false, .entdaa 128,
      .recordAccept 65536 ⟨none, 0⟩ 0 0 0] : List Instr).all (fun c => !c.wf) = true := by decide

/-- The greatest operands are accepted. -/
theorem test_wf_accepts :
    ([.flr ⟨1, 255⟩, .sqTail ⟨0, 0⟩ 4095 0, .cqHead ⟨0, 1⟩ 255 0, .msixEntryWrite ⟨0, 0⟩ 2047 3 0, .completionTimeout 1 16383,
      .stripeInterlockGrant 16777215 4095, .tileJobComplete 47 [], .driveLinkDown 63, .vaultOperationTimeout 15, .hbmParityError 31,
      .droopRecover 259, .supplyFault 7 true, .entdaa 127] : List Instr).all Instr.wf = true := by decide

/-! ### Figures of the spec, and single steps -/

/-- The logarithms that the text under R106 gives. -/
theorem test_field_logarithms :
    gfPow 0x02 3 = 0x08 ∧ gfPow 0x02 223 = 0x09 ∧ gfPow 0x02 51 = 0x0A ∧ gfPow 0x02 238 = 0x0B ∧ gfPow 0x02 255 = 0x01 := by
  decide +kernel

/-- The first worked example of 03_erasure_code: row 1 of the check matrix, and the line 49 4C 54 53 02 84. -/
theorem test_check_matrix : (span 0 4).map (coefficient 1) = [0x9C, 0xAC, 0x99, 0xDC] ∧ (span 0 4).map (coefficient 0) = [1, 1, 1, 1] := by
  decide +kernel

theorem test_example_line : checkByte 0 [0x49, 0x4C, 0x54, 0x53] = 0x02 ∧ checkByte 1 [0x49, 0x4C, 0x54, 0x53] = 0x84 := by
  decide +kernel

/-- Positions 1 and 3 of that line are decoded from the others. -/
theorem test_example_decode :
    (decodeLine ⟨2, [(6, 2)]⟩ ⟨0, [0, 1, 2, 3, 4, 5], [1, 3], [1, 3]⟩ [(0, [0x49]), (2, [0x54]), (4, [0x02]), (5, [0x84])]).map
      (fun e => (e.1, e.2)) = [(1, [0x4C]), (3, [0x53])] := by decide +kernel

/-- The second worked example: data strips 0 to 3 of (2+2)×(2+1) lie at positions 0, 1, 4 and 5, the five lost positions are recovered,
and the six with u_1 ≤ 2 and u_2 ≤ 1 are not. -/
theorem test_example_two_tiers :
    (let m : Template := ⟨2, [(4, 2), (3, 1)]⟩
     (span 0 4).map m.dataPos = [0, 1, 4, 5] ∧ recoverable m [0, 1, 2, 4, 5] = true ∧ recoverable m [0, 1, 2, 4, 5, 6] = false) := by decide +kernel

/-- R645: one wrong symbol is corrected, two are uncorrectable. -/
theorem test_word_code : checkWord 0 = .good ∧ checkWord 0xF0 = .corrected ∧ checkWord 0x101 = .uncorrectable := by decide

/-- R213: position 63, segment 63, a check, of a DESTAGE record; item 0x1FF of record 5 of a RETIRE record. -/
theorem test_descriptors :
    (JDesc.seg 63 63 true false 0).bytes = [0xFF, 0x1F, 0, 0, 0, 0, 0, 0] ∧ (JDesc.item 0x1FF 5).bytes = [0xFF, 0x0B, 0, 0, 0, 0, 0, 0] := by
  decide

/-- R78: the header of a CRITICAL region of template 3, chunk code 4, row 2, whose members are at ports 0 and 8. -/
theorem test_region_entry :
    (regionBytes { bitmap := 0x101, row := 2, template := 3, chunkCode := 4, st := .critical }).take 24
      = [1, 1, 0, 0, 0, 0, 0, 0, 2, 0, 0, 0, 0, 0, 0, 0, 0, 0, 0, 0, 3, 0x1C, 0, 0] := by decide

/-- R82: a position that has a slot gets its new place in that slot. -/
theorem test_slot_rewritten :
    (writeSlots [⟨1, 10, 0, true⟩, ⟨2, 11, 0, true⟩] [⟨1, 12, 7, false⟩]).map (fun x => (x.pos, x.port, x.row)) = [(1, 12, 7), (2, 11, 0)] := by
  decide

/-- R671: SEQUENCE goes from 0xFFFFFFFF to 1. -/
theorem test_sequence_wraps : nextSequence 0xFFFFFFFF = 1 := by decide

/-- The state a command leads to. -/
def after (c : Instr) (s : State) : State := match exec c s with | .next t => t | _ => s

/-- R436: PRECHARGE ends at n × V_0, here 3 × 3.0 V. -/
theorem test_precharge_ends :
    (after (.chargePhaseChange ⟨9000, 0, 200⟩) (packIn .precharge)).pack.st = .cc
      ∧ (after (.chargePhaseChange ⟨8999, 0, 200⟩) (packIn .precharge)).pack.st = .precharge := by decide

/-- R462: the strobe is driven below 10.5 V and not at it. -/
theorem test_strobe_level :
    (after (.powerFailDetect 10499) up).pack.strobe = true ∧ (after (.powerFailDetect 10500) up).pack.strobe = false := by decide

/-- R38 to R40: from full rate to 25 %, then a rise of one step after the wait, and none before it. -/
theorem test_droop_steps :
    (let a := after (.droopStretch25 5) up
     (a.island 5).clock = 2 ∧ ((after (.droopRecover 5) a).island 5).clock = 2
      ∧ ((after (.droopRecover 5) { a with now := a.now + 1 }).island 5).clock = 1) := by decide

/-- R704: a read of PEC_ERRORS clears it. -/
theorem test_pec_errors_cleared : (after .pecErrorsRead { up with sb := { up.sb with pecErrors := 3 } }).sb.pecErrors = 0 := by decide

/-- R510: ARB_HB changes only 45 ms after its last change. -/
theorem test_heartbeat_wait :
    (after .arbHbToggle up).life.hb = true ∧ (after .arbHbToggle { up with life := { up.life with hbAt := up.now - 44999 } }).life.hb = false := by
  decide

/-- R718: CAUSE is cleared by ones. -/
theorem test_cause_rw1c :
    (let s := { up with fns := [(0, { cause := 0x00F })] }
     ((after (.causeWrite ⟨0, 0⟩ 0x003) s).fn ⟨0, 0⟩).cause = 0x00C) := by decide

/-- R495: a partner is lost once 100 ms have passed without a frame. -/
theorem test_partner_lost :
    (let s (t : Nat) : State := { up with pair := { up.pair with partnerPresent := true, lastBeat := up.now - t } }
     (after .partnerLost (s 99999)).pair.partnerPresent = true ∧ (after .partnerLost (s 100000)).pair.partnerPresent = false) := by decide

/-- A command takes the front of the queue, and an idle step 1 µs. -/
theorem test_queue :
    (match step { up with pending := [.arbFenceRelease, .arbHbToggle] } with | .next t => t.pending | _ => []) = [.arbHbToggle]
      ∧ (match step up with | .next t => t.now | _ => 0) = up.now + 1 := by decide

/-! ### Witnesses: each statement's premises, clause by clause -/

theorem witness_settingsStayInRange : State.reset.settings.ok = true ∧ ∃ t, step State.reset = .next t := ⟨by decide, _, rfl⟩

theorem witness_ioCommandsStart :
    (let m := { up with volumes := [(0, { vault := false, capacity := 8 })] }
     let v := { up with volumes := [(0, { vault := true, capacity := 8 })] }
     starts (m.holding (command 1 [])) 1 && starts (m.holding (command 6 [])) 6 && starts (m.holding (command 2 [])) 2
      && starts (m.holding (command 4 [])) 4 && starts (m.holding (command 5 [])) 5
      && starts (m.holding (command 3 [])) 3 && !m.isVault 0 && starts (v.holding (command 3 [])) 3 && v.isVault 0) = true := by decide

theorem witness_commitLookupAbort :
    (let w := up.holding { command 2 [] with phase := .gatherWait }
     let a := up.holding (command 0x85 [5, 7])
     let other (asked : Nat) : Cmd := { command 1 [] with acc := 2, sq := ringKey ⟨0, 0⟩ 5, asked := asked, sqe := { entry 1 [] with cid := 7 } }
     (w.cmds.filter fun (e : Nat × Cmd) => e.2.phase = Phase.gatherWait).length = 1 && w.gatherRoom 1 && !w.lehrOn
      && starts a 0x85 && (a.abortTarget (command 0x85 [5, 7])).isNone
      && ((a.holding (other 1)).abortTarget (command 0x85 [5, 7])).any (fun c => !c.abortable)
      && ((a.holding (other 0)).abortTarget (command 0x85 [5, 7])).any Cmd.abortable) = true := by decide

/-- Region 5 with a dirty block of volume 9 that is past its age limit. -/
def dirtyUp : State := { arrayUp with frames := [(0, { vol := 9, lba := 0, st := .dirty })] }

theorem witness_destageRows :
    (let s := { up with wp := { up.wp with stallSince := some 0 } }
     dirtyUp.live && (dirtyUp.dirtyStripes.any fun d => d.region = 5 && d.stripe = 0 && d.oldest + 1000 * 1000 < dirtyUp.now)
      && !dirtyUp.wp.aged.contains (5, 0) && freeEntry up.table 1 0 = some 0 && s.wp.stallSince = some 0 && !s.wp.stallRecorded
      && 1000000 ≤ s.now) = true := by decide

theorem witness_upkeepRows :
    (let r := { up with wp := { up.wp with reclaim := true }, streams := [(4, ⟨9, 8, 2, 2, true, 4, 0, []⟩)] }
     let j := { up with journal := { up.journal with retireQ := [(1, 0, none)], waiting := [{ imgs := [], since := 0 }] } }
     let k : Job := { id := 1, op := .pattern 0, task := none, fg := true, bytes := 4096 }
     let w := { up with tiles := [(0, { running := some k }), (1, { running := some { k with src := 9 } })] }
     r.live && !r.lehrOn && r.wp.reclaim && up.wp.lrAt + 1000000 ≤ up.now && (r.streams.look 4).any (fun x => x.at_ + 1000000 ≤ r.now)
      && !j.journal.retireQ.isEmpty && j.journal.retireAt + 100 ≤ j.now && !j.journal.fullRecorded
      && (j.journal.waiting.any fun w => j.now ≥ w.since + 1000000) && j.retireWaits && j.journal.retireAt + 1000100 ≤ j.now
      && (w.tile 0).running = some k && k.src = (w.island firmwareIsland).epoch
      && (w.tile 1).running.any fun j => j.src ≠ (w.island firmwareIsland).epoch) = true := by decide

theorem witness_identifyLogFeature :
    (let s := { up with templates := [(3, ⟨2, [(6, 2)]⟩)] }
     starts (up.holding (command 0x80 [0])) 0x80 (fun e => e.pfield 0 0 8 = 0) && starts (up.holding (command 0x80 [1])) 0x80 (fun e => e.pfield 0 0 8 = 1)
      && starts (s.holding (command 0x80 [2, 3])) 0x80 (fun e => e.pfield 0 0 8 = 2) && (s.templates.look 3).isSome && (s.templates.look 4).isNone
      && starts (up.holding (command 0x82 [])) 0x82 && starts (up.holding (command 0x84 [])) 0x84) = true := by decide

theorem witness_ringCreate :
    (let c := command 0x81 [4095]
     let d := command 0x81 [4096 + 4095]
     let q : Sq := { fn := ⟨0, 0⟩, ring := 4095, base := 0, depth := 2, cq := 1, cls := 0, burst := 8, shadow := none }
     let r : Cq := { fn := ⟨0, 0⟩, ring := 4095, base := 0, depth := 2, vector := 0, ien := true, coalCount := 1, coalTime := 0 }
     let k := ringKey ⟨0, 0⟩ 4095
     starts (up.holding c) 0x81 (fun e => !e.pbit 0 12) && !up.sqs.has k && up.contexts < 4096 && up.maxClassOf ⟨0, 0⟩ ≤ c.sqe.pfield 0 13 2
      && starts (up.holding d) 0x81 (fun e => e.pbit 0 12) && !up.cqs.has k
      && ({ up with sqs := [(k, q)] } : State).sqs.has k && ({ up with cqs := [(k, r)] } : State).cqs.has k) = true := by decide

theorem witness_objectFeatures :
    (let f (id v : Word) (w : Word := 0) : State := arrayUp.holding (command 0x83 ([id, if id.toNat < 9 then 9 else 0, v, w] ++ if id = 14 then [0, 4] else []))
     let ok (id v : Word) (w : Word := 0) : Bool :=
       starts (f id v w) 0x83 fun e => e.feature = id.toNat && featureValuesOk id.toNat e.values
     ok 1 2 && ok 2 10 && ok 2 60000 && ok 3 0 && (arrayUp.volumes.look 9).any (fun v => v.lossSeq.toNat = 0) && ok 3 1
      && !decide ((1 : Word).toNat = 0)
      && ok 5 0 && ok 5 1 500 && ok 5 1 50000 && ok 6 1 && ok 6 60 && ok 7 4 && ok 7 1024 && ok 8 0 && ok 8 90
      && ok 11 256 64 && ok 11 4096 1024 && ok 13 3 && ok 14 0 1 && ok 14 50000000 65535) = true := by decide

theorem witness_deviceFeatures :
    (let ok (id v : Word) : Bool :=
       starts (up.holding (command 0x83 [id, 0, v])) 0x83 fun e => e.feature = id.toNat && featureValuesOk id.toNat e.values
     ok 4 4096 && ok 4 32768 && ok 9 24 && ok 9 336 && ok 10 8 && ok 10 64 && ok 12 0x010410 && ok 15 10 && ok 15 60000 && ok 16 1 && ok 16 60
      && ok 17 1 && up.settings.calendarBase ≠ decide ((1 : Word).toNat = 1) && ok 17 0
      && up.settings.calendarBase = decide ((0 : Word).toNat = 1)) = true := by decide

/-- TEMPLATE_DEFINE's 16 bytes: template 1, one tier of six members with two checks. -/
def template1 : List Byte := [1, 0x01 + 8 * 4, 6, 2] ++ List.replicate 12 0

theorem witness_stagedSetRows :
    (let sp := { up with life := { up.life with st := .stopped } }
     let st := { sp with mgmt := { sp.mgmt with staged := [.poolDelete 3] } }
     let ok (op : Nat) (ps : List Word) (sub : Sqe → Bool) : Bool := starts (sp.holding (command op ps)) op sub
     (parseTemplate template1).isSome && (parseTemplate []).isNone
      && starts (sp.holding (command 0x88 [0] template1)) 0x88 (fun e => !e.pbit 0 0) && ok 0x88 [1] (fun e => e.pbit 0 0)
      && ok 0x89 [0, 1] (fun e => !e.pbit 0 16) && ok 0x89 [0, 0] (fun e => !e.pbit 0 16) && ok 0x89 [65536] (fun e => e.pbit 0 16)
      && ok 0x8A [0] (fun e => !e.pbit 0 8) && ok 0x8A [256] (fun e => e.pbit 0 8)
      && starts (sp.holding (command 0x9A [] (toLe 1 1 ++ [0] ++ toLe 2 36 ++ List.replicate 40 0))) 0x9A
      && (parseGovernor (toLe 2 50 ++ List.replicate 34 0)).isSome && ok 0x9B [] anyForm && ok 0x99 [] anyForm
      && starts (up.holding (command 0x98 [])) 0x98 && up.life.st = .ready && ok 0x98 [] anyForm
      && firstConflict st.mgmt.staged st 0 = some 0 && firstConflict ([] : List Staged) sp 0 = none) = true := by decide

theorem witness_volumeRows :
    (let w (at_ : Option FnId) : State := { up with volumes := [(9, { vault := false, capacity := 8, attached := at_ })] }
     starts ((w none).holding (command 0x8B [9])) 0x8B (fun e => !e.pbit 0 12) && (w none).volumes.has 9
      && (arrayUp.templates.look 1).isSome && (arrayUp.pools.look 0).any (fun x => !x.foreign_) && !arrayUp.volumes.has 8
      && starts (up.holding (command 0x8B [4096])) 0x8B (fun e => e.pbit 0 12) && up.vaultAllocated + 4096 ≤ 2 ^ 40
      && 0 ≤ up.spareLeftFor 4096 && !up.vault.readOnly
      && starts ((w none).holding (command 0x8C [9])) 0x8C && starts ((w none).holding (command 0x8D [9])) 0x8D && (w none).fnExists ⟨0, 0⟩
      && starts ((w (some ⟨0, 0⟩)).holding (command 0x8E [9])) 0x8E) = true := by decide

theorem witness_memberAndRebuildCommands :
    (let c (op : Nat) (ps : List Word) (sub : Sqe → Bool := anyForm) : Bool := starts (arrayUp.holding (command op ps)) op sub
     let gone := { arrayUp with members := [(3, { member0 with st := .removed })] }
     let q := { arrayUp with work := [(5, { queued := true, halted := [(0, 0)] })] }
     c 0x90 [3] && arrayUp.members.has 3 && !arrayUp.memberGone 3 && c 0x91 [3] (fun e => !e.pbit 0 16) && gone.memberGone 3
      && c 0x91 [65536 + 3 + 4 * 256] (fun e => e.pbit 0 16) && c 0x93 [0, 5, 1] && c 0x92 [0] (fun e => e.pfield 0 0 2 = 0)
      && arrayUp.pools.has 0 && c 0x92 [17] (fun e => e.pfield 0 0 2 = 1) && c 0x92 [2, 5] (fun e => e.pfield 0 0 2 = 2) && (q.workOf 5).queued
      && !(arrayUp.workOf 5).queued && c 0x93 [2] && (command 0x93 [2]).sqe.pbit 0 1 && c 0x93 [2 + 256 * 3] && !arrayUp.pools.has 3
      && c 0x92 [3, 5] (fun e => e.pfield 0 0 2 = 3) && !(q.workOf 5).halted.isEmpty) = true := by decide

theorem witness_selfTestAndFirmware :
    (let run := { up with mgmt := { up.mgmt with selfTest := { status := 1, kind := 2, ckptGood := true, linkGood := true } } }
     let c (s : State) (op : Nat) (ps : List Word) (d : List Byte := []) (sub : Sqe → Bool := anyForm) : Bool :=
       starts (s.holding (command op ps d)) op sub
     let part := { up with mgmt := { up.mgmt with slotB := { staged := [1], partialValid := true } } }
     c up 0xA0 [1] [] (fun e => e.pfield 0 0 2 = 1) && c up 0xA0 [2] [] (fun e => e.pfield 0 0 2 = 2) && up.mgmt.selfTest.status ≠ 1
      && c run 0xA0 [1] [] (fun e => e.pfield 0 0 2 = 1) && c run 0xA0 [2] [] (fun e => e.pfield 0 0 2 = 2)
      && c run 0xA0 [3] [] (fun e => e.pfield 0 0 2 = 3) && c up 0xA0 [3] [] (fun e => e.pfield 0 0 2 = 3) && run.live
      && run.mgmt.selfTest.status = 1 && (run.mgmt.selfTest.left.all fun r => (run.region r).st = .free)
      && run.shortDone && run.marchDone && run.mgmt.selfTest.patrol = 0 && (up.newTest ⟨0, 0⟩ 2).units.contains 114
      && c up 0xA1 [0] [7] && c up 0xA1 [0, 1] [7] && c part 0xA1 [1, 1] [7] && (part.slot 1).partialValid && (part.slot 1).staged.length = 1
      && c up 0xA1 [67108864] [7] && 67108864 < 67108864 + 1 && c up 0xA1 [1] [7] && !(up.slot 1).partialValid
      && c up 0xA2 [0] && (up.slot 0).valid && c up 0xA2 [1] && !(up.slot 1).valid) = true := by decide

theorem witness_recorderRows :
    (let r (n : Nat) : Record := { seq := BitVec.ofNat 32 n, code := 1, calendar := false, clockUnset := false, scope := none, inst := 0, suppressed := 0, time := 0, p1 := 0, p2 := 0, p3 := 0 }
     let u := { vaultUp with recorder := { up.recorder with up := true } }
     let w := { u with recorder := { u.recorder with pending := 1, records := [r 4] } }
     starts (u.holding (command 0xA9 [])) 0xA9 && u.recorder.up && starts (u.holding { command 0xA9 [] with fn := ⟨0, 1⟩ }) 0xA9
      && starts (u.holding (command 0xAA [0])) 0xAA && starts (u.holding (command 0xAA [0xFF])) 0xAA && starts (u.holding (command 0xC2 [1])) 0xC2
      && starts (u.holding (command 0xA8 [])) 0xA8 && u.mayReply { command 0xA8 [] with silent := true }
      && u.recorder.intervalAt + 60000000 ≤ u.now && u.recorder.droop50At + 1000000 ≤ u.now && 1 % 4096 ≠ 0
      && w.vaultOn && w.recorder.pending ≠ 0 && !w.recordsBusy && w.recorder.commitAt + 100000 ≤ w.now
      && !u.lehrOn && u.life.opSavedAt + 60000000 ≤ u.now) = true := by decide

theorem witness_packCommands :
    (let r (st : PackSt) (op : Nat) (ps : List Word) (sub : Sqe → Bool := anyForm) : Bool := starts ((packIn st).holding (command op ps)) op sub
     let hold := { packIn .chargeHold with pack := { (packIn .chargeHold).pack with holdCause := some .timer } }
     let learn := { packIn .full with pack := { (packIn .full).pack with learnPending := true } }
     r .notDeclared 0xB0 [] && r .mismatch 0xB0 [] && r .full 0xB0 [] && starts (hold.holding (command 0xB0 [])) 0xB0
      && hold.pack.holdCause = some .timer && r .absent 0xB1 [0] (fun e => !e.pbit 0 0) && (packIn .absent).learnRefusal = 1
      && r .full 0xB1 [0] (fun e => !e.pbit 0 0) && (packIn .full).learnRefusal = 0 && r .full 0xB1 [1] (fun e => e.pbit 0 0)
      && !(packIn .full).pack.learning && (packIn .learnDischarge).pack.learning && (packIn .learnRest).pack.learning && learn.pack.learning
      && r .identify 0xB2 [0] (fun e => !e.pbit 0 0) && PackSt.code .identify = 2 && PackSt.code .holdup = 10
      && r .shipArmed 0xB2 [0] (fun e => !e.pbit 0 0) && r .absent 0xB2 [0] (fun e => !e.pbit 0 0) && PackSt.code .absent = 1
      && r .ship 0xB2 [0] (fun e => !e.pbit 0 0) && 10 < PackSt.code .ship
      && r .shipArmed 0xB2 [1] (fun e => e.pbit 0 0) && r .ship 0xB2 [1] (fun e => e.pbit 0 0) && r .full 0xB2 [1] (fun e => e.pbit 0 0)) = true := by
  decide

theorem witness_slotCommands :
    ((List.range 6).all fun k =>
      starts (up.holding (command 0xC1 [BitVec.ofNat 32 (3 + 256 * k)])) 0xC1 (fun e => e.pfield 0 8 3 = k)
        && (command 0xC1 [BitVec.ofNat 32 (3 + 256 * k)]).sqe.slotNo = 3) = true := by decide

/-- A label with an owner and a partner. -/
def label (owner partner : BitVec 256) : LabelImage :=
  { arrayId := 0, labelSeq := 1, ownerId := owner, partnerId := partner, takeover := false, configSeq := 1, importedDumpSeq := 0 }

theorem identity_next : Config.identity + 1 ≠ Config.identity := by simp

/-- Its own array, a foreign one, and no label: the three that UNBIND and ARRAY_IMPORT distinguish. -/
theorem witness_pairCommands :
    (let p := { up with pair := { up.pair with partner := some 5, partnerPresent := true, partnerStandby := true } }
     let r (op : Nat) (ps : List Word) (sub : Sqe → Bool := anyForm) : Bool := starts (p.holding (command op ps)) op sub
     r 0xB9 [0] (fun e => e.pfield 0 0 2 = 0) && p.life.st = .ready && up.pair.partner.isNone && r 0xB9 [1] (fun e => e.pfield 0 0 2 = 1)
      && r 0xB9 [2] (fun e => e.pfield 0 0 2 = 2) && r 0xB8 [0] && r 0xB8 [1] && up.pair.label.isNone && !up.life.held) = true
    ∧ ({ up with pair := { up.pair with label := some (label Config.identity 0) } } : State).foreignHere = false
    ∧ ({ up with pair := { up.pair with label := some (label (Config.identity + 1) 0) } } : State).foreignHere = true := by
  refine ⟨by decide, ?_, ?_⟩
  · simp [State.foreignHere, label]
  · simp [State.foreignHere, label]

/-- A member request of port 3, submitted at instant 0. -/
def request : Req :=
  { task := 1, write := true, fg := true, region := 5, stripe := 0, pos := 0, segs := [0], row := 0, gen := 0, acceptedAt := 0,
    submittedAt := some 0 }

theorem witness_driveRequests :
    (let s := portUp { reqs := [(7, request), (8, { request with quarantined := some 0 })],
                       admin := [(.health, 0), (.abort 8, 0), (.report, 0)] }
     let f := { s with life := { s.life with lehr := some { cause := .fence, at_ := 0, time := (0, false) }, fenceDrain := some 0 } }
     s.live && (s.port 3).linkUp && (s.port 3).ctl = .ready && f.lehrOn && f.life.fenceDrain.isSome && !f.life.inReset
      && (s.port 3).admin.any (fun a => a.1 = AdminOp.health) && (s.port 3).admin.any (fun a => a.1 = AdminOp.abort 8)
      && (s.port 3).admin.any (fun a => a.1 = AdminOp.report) && (s.port 3).admin.any (fun a => s.now ≥ a.2 + 30000000)
      && (s.port 3).reqs.look 7 = some request && request.write && !request.softCounted && request.quarantined.isNone && (s.port 3).canIssue
      && 1000000 ≤ s.now && s.hardUs 3 ≤ s.now && (s.port 3).reqs.look 8 = some { request with quarantined := some 0 }) = true := by decide

theorem witness_controllerRows :
    (let s := portUp {}
     let d := { s with ports := [(3, { s.port 3 with ctl := .disabling, resetWhy := some .linkReturn })] }
     let b := { s with ports := [(3, { s.port 3 with ctl := .bringUp 1, resetWhy := some .linkReturn })] }
     s.live && (s.port 3).linkUp && (d.port 3).ctl = .disabling && (d.port 3).resetWhy.isSome && (d.port 3).capTo * 500000 ≤ d.now
      && (b.port 3).ctl = .bringUp 1 && (b.port 3).resetWhy.isSome && (s.port 3).ctl = .ready && (s.port 3).pollAt + 60000000 ≤ s.now
      && !(s.port 3).admin.any (fun a => a.1 = AdminOp.health) && (s.port 3).admin.length < 31) = true := by decide

theorem witness_driveLinks :
    (let a (x : Port) : State := { arrayUp with ports := [(3, x)] }
     let down := a { ctl := .training, perst := false, linkDownAt := some (up.now - 100000) }
     let late := a { ctl := .training, perst := false, linkDownAt := some (up.now - 100001) }
     let fresh := a { ctl := .training, perst := false }
     let on := a { ctl := .ready, perst := false, linkUp := true, conflict := true }
     let power := a { goodAt := some 0, pwrEn := true, pwrGood := true, settle := some 0 }
     down.live && (bestSpeed [.g32, .g16]) = some .g32 && (bestWidth [1, 2]) = some 2 && (down.island 3).status = 0 && (down.port 3).ctl ≠ .unused
      && down.now ≤ (up.now - 100000) + 100000 && (up.now - 100001) + 100000 < late.now && (fresh.port 3).linkDownAt.isNone
      && (fresh.port 3).perstAt + 1000000 ≤ fresh.now && (on.port 3).linkUp && on.memberLive 3 && (power.port 3).goodAt = some 0
      && (power.port 3).perst && 100000 ≤ power.now && power.hardUs 3 ≤ power.now) = true := by decide

/-- The fill of a READ, with member read 7 outstanding on port 3. -/
def fillTask : Task := { kind := .fill 1, vol := 9, region := 5, stripe := 0, stage := .reading, segs := [0], reads := [(7, 0)] }

theorem witness_hedgeRows :
    (let r := { request with write := false, hedgeable := true }
     let s := { portUp { reqs := [(7, r)] } with tasks := [(1, fillTask), (2, { fillTask with stage := .late })] }
     let busy := { s with pools := [(0, { pool0 with hedgesNow := 1000 })] }
     s.live && (s.tasks.look 2).any (fun x => x.stage = .late && x.late = [] && x.deliveredAt + 50000 ≤ s.now)
      && s.mgmt.hedgeAt + 1000000 ≤ s.now && s.mgmt.estimateAt + 1000000 ≤ s.now && fillTask.hedgeFrom r = some 0
      && pool0.threshold? = some 2000 && !r.write && r.hedgeable && r.quarantined.isNone && !fillTask.hedged.contains 7
      && fillTask.reads.contains (7, r.pos) && 2000 ≤ s.now - 0 && pool0.hedgesNow < max 1000 (pool0.readsPrev * 5 / 100)
      && (busy.pools.look 0).any (fun y => max 1000 (y.readsPrev * 5 / 100) ≤ y.hedgesNow)) = true := by decide

theorem witness_rebuildAndScrubRows :
    (let q := { arrayUp with work := [(5, { queued := true, halted := [(0, 0)] })], gov := { shares := [1], allowance := [1, 1, 1] } }
     let w := { q with work := [(5, { place := true })] }
     let n := { q with regions := [(5, { template := 1, st := .relocating, replacePending := true, pool := 0 })], work := [] }
     let starve := { q with pools := [(0, { pool0 with starvedSince := some 0 })], gov := {},
                            regions := [(5, { template := 1, st := .critical, pool := 0 })] }
     let scrub := { q with pools := [(0, { pool0 with scrubAt := some (5, 0) })] }
     let chk := { q with regions := [(5, { template := 1, st := .normal, pool := 0, checkPending := true })] }
     let test := { q with mgmt := { q.mgmt with selfTest := { status := 1, kind := 2, left := [5], ckptGood := true, linkGood := true } } }
     let early := { q with life := { q.life with starting := true, step := 9, checksFirst := [5] } }
     q.tends && q.gov.shares.getD 0 0 ≠ 0
      && (w.rebuildQueue.find? fun r => w.unpaused r && w.maySeek r && !((w.region r).st = .rebuilding && w.haltedNow r)) = none
      && ({ q with work := [(5, { queued := true })] } : State).rebuildQueue = [5] && q.rebuilding.length < rebuildPlaces
      && w.unpaused 5 && w.moves 5 && !(w.workOf 5).restartAt0 && (w.flying 5).length < 8 && w.mayStart (w.workClass 5) && w.nextStripe 5 = some 0
      && (q.workOf 5).halted.contains (0, 0) && 600000000 ≤ q.now && (starve.critWaiting 0) = [5] && starve.gov.shares.getD 0 0 = 0
      && n.usedRegions.find? n.owesMove = some 5 && pool0.scrubAt.isNone && pool0.scrubStarted = 0 && pool0.scrubDays ≠ 0
      && (scrub.pools.look 0).any (fun p => p.scrubAt = some (5, 0) && !p.scrubBehind && p.scrubStarted + periodUs p.scrubDays ≤ scrub.now)
      && chk.toCheck 0 [5] = some 5 && chk.mayStart 2 && test.toCheck 0 test.mgmt.selfTest.left = some 5 && test.testRegions && !q.testRegions
      && early.toCheck 0 early.life.checksFirst = some 5) = true := by decide

theorem witness_slotRows :
    (let a (x : Port) : State := { arrayUp with ports := [(3, x)] }
     let gone := a { prsntN := false, prsntRaw := (true, 39), linkUp := true }
     let come := a { prsntN := true, prsntRaw := (false, 39) }
     let good := a { pwrEn := true, pwrOnAt := some 0, pwrGood := true, slotCmds := [(1, false)] }
     let fault := a { pwrEn := true, pwrOnAt := some 0 }
     let btn := a { btnN := true, btnRaw := (false, 39) }
     let win := a { window := some (0, 1), refusalSince := some 0, offAt := some 0 }
     up.mgmt.scanAt.isNone && gone.live && !(gone.port 3).prsntN && (gone.port 3).prsntRaw = (true, 39) && (come.port 3).prsntRaw = (false, 39)
      && (good.port 3).pwrOnAt.isSome && (good.port 3).pwrGood && !(good.port 3).sawGood
      && ((good.holding (command 0xC1 [3])).cmds.look 1).any (fun c => c.sqe.pfield 0 8 3 = 0)
      && !(fault.port 3).sawGood && !(fault.port 3).pwrGood && 100000 ≤ fault.now && (btn.port 3).btnRaw = (false, 39)
      && (win.port 3).window = some (0, 1) && 5000000 ≤ win.now && (win.port 3).refusalSince = some 0 && (win.port 3).offAt = some 0) = true := by
  decide

theorem witness_governorRows :
    (let g := { up with gov := { up.gov with running := true, computing := true, lost := true } }
     let late := { g with gov := { g.gov with sampledAt := some 0 } }
     late.govUp && late.gov.computing && late.gov.period ≤ late.now && g.govUp && g.gov.sampledAt.isNone && g.gov.computing && g.gov.lost && !up.gov.lost && up.fnExists ⟨0, 0⟩ && up.hostOn) = true := by decide

theorem witness_vaultOperations :
    (let o (x : VOp) (held : Bool := false) : State :=
       { vaultUp with vault := { mounted := true, ops := [(4, { op := x, since := 0, dest := 0, src := 0, held := held })] } }
     let runs (s : State) : Bool := (s.vault.ops.look 4).any fun x => s.opRuns x && x.src = (s.island firmwareIsland).epoch
     let down := { vaultUp with islands := [(98, { status := 1 })] }
     runs (o (.program .hot 0 0 [(.user 0 0, 0, [])] [])) && runs (o (.erase [0, 4096])) && runs (o (.read [0] .patrol))
      && [[80, 24]].all readOver && [[80, 24]].map decoded = [some 24] && !([[80]].all readOver)
      && ((o (.erase [0])).vault.ops.find? fun o => o.2.op.die = 0 && !o.2.held).isSome && 50000 ≤ vaultUp.now
      && ((o (.program .hot 0 0 [] [.userWrite 1]) true).vault.ops.vals.any fun x => up.opServes x.op 1 && x.held && x.since + 1000000 ≤ vaultUp.now)
      && (vaultUp.island 98).status = 0 && vaultUp.vaultUp 0 && !down.vaultUp 0) = true := by decide

theorem witness_vaultUpkeep :
    (let v (x : Vault) : State := { up with vault := { x with mounted := true } }
     let p := v { patrol := some [1] }
     let b (life : Nat) (st : VBlockSt) : VBlock := { st := st, nS := life }
     let w := v { waiting := [{ use := .hot, sectors := [], why := [] }] }
     vaultUp.vaultOn && vaultUp.vault.writing.isNone && vaultUp.vault.flushing.isEmpty && vaultUp.vault.patrol.isNone && vaultUp.vault.patrolStarted = 0 && p.vault.patrol.isSome && !p.vault.patrolBehind
      && vaultUp.vault.checkpointAt + 60000000 ≤ vaultUp.now && vaultUp.vault.wearAt + 14400000000 ≤ vaultUp.now
      && ({ vaultUp with gov := { vaultUp.gov with allowance := [0, 0, 0, 1, 0, 0] } } : State).mayStart 3
      && ((v { blocks := [(0, b 0 .full), (1, b 400000 .full)] }).vault.blocks.filter fun e => e.2.st = .full).length = 2
      && !w.vault.waiting.isEmpty && vaultUp.vault.percentAt + 60000000 ≤ vaultUp.now) = true := by decide

theorem witness_powerInputRows :
    (let p (x : Pack) : State := { up with pack := x }
     let run := { up with link := { up.link with runSince := some 0, lastFrame := up.now } }
     !up.life.inReset && up.pack.running && up.link.lastFrame + 100 ≤ up.now && run.link.runSince = some 0 && !run.link.valid
      && run.now < run.link.lastFrame + 100 && 10499 < 10500 && 14000 < 14001 && !up.pack.overVolt && (p { overVolt := true }).pack.overVolt
      && (p { vinGoodSince := none }).pack.vinGoodSince.isNone && up.pack.vinGoodSince = some 0
      && up.pack.vinRangeSince = some 0 && 1000000 ≤ up.now && (p { lowSince := some 0, converter := 10700 }).pack.lowSince = some 0
      && (p { lowSince := some 0, converter := 10700 }).pack.converter ≠ 0 && !(p { converter := 10700 }).pack.uvlo
      && 8099 < up.pack.cells * 2700 && up.pack.cells * up.pack.v0 ≤ 9000
      && (p { vinRangeSince := none }).pack.vinRangeSince.isNone && (p { lowSince := none }).pack.lowSince.isNone && (p { highSince := none }).pack.highSince.isNone
      && ({ up with life := { up.life with inReset := true } } : State).life.inReset
      && (p { uvlo := true, highSince := some 0 }).pack.uvlo && (p { uvlo := true, highSince := some 0 }).pack.highSince = some 0) = true := by decide

theorem witness_packStates :
    (let f (mv : Nat) (ma : Int) : PackReading := ⟨mv, ma, 200⟩
     let i := packIn .identify
     let absent := { i with pack := { i.pack with present := false } }
     let hold := { packIn .chargeHold with pack := { (packIn .chargeHold).pack with holdCause := some .overTemp } }
     up.pack.running && !absent.pack.present && i.pack.present && i.pack.stateAt + 2000000 ≤ i.now
      && i.pack.cells * 4350 < (f 13051 0).mv && (f 7499 0).mv < i.pack.cells * 2500 && (f 7500 9).mv ≤ i.pack.cells * 4350
      && i.pack.cells * 2500 ≤ (f 7500 9).mv && !i.pack.counting && (f 7500 9).ma.natAbs < 10
      && (packIn .precharge).pack.cells * (packIn .precharge).pack.v0 ≤ 9000 && (packIn .cc).pack.cells * (packIn .cc).pack.vcv ≤ 12600
      && ((packIn .cv).updPack fun p => { p with termSince := some 0 }).pack.termSince = some 0 && 60000000 ≤ up.now && (packIn .full).pack.st = .full
      && (packIn .precharge).pack.stateAt + 3600000000 ≤ up.now && (packIn .cv).pack.chargeStart + 36000000000 ≤ up.now
      && outsideWindow ⟨11000, 0, 361⟩ && (packIn .cv).pack.cells * ((packIn .cv).pack.vcv + 50) < 12751
      && hold.pack.holdCause = some .overTemp && (hold.updPack fun p => { p with coolSince := some 0 }).pack.coolSince = some 0) = true := by decide

theorem witness_gaugeRows :
    (let d := packIn .learnDischarge
     let l := { d with pack := { d.pack with rest := some ⟨some 0, 12600, 0, 0⟩, counted := -d.pack.cLearned * (qUnit : Nat) } }
     40 * ((l.pack.cLearned * qUnit : Nat) : Int) ≤ -100 * l.pack.sinceRest
      && (packIn .learnRest).pack.stateAt + 14400000000 ≤ up.now && !d.pack.learnOverdue && d.pack.learnTime + 15552000 ≤ d.dieNow
      && d.pack.present && d.pack.fetClosed && !d.pack.restTaken && d.pack.movedAt + 2700000000 ≤ d.now
      && (({ d.pack with counting := true, volts := [(0, 12600)] } : Pack).reads ⟨12602, 0, 200⟩ d.now).steady d.now && d.pack.storeAt + 21600 ≤ d.dieNow) = true := by decide

theorem witness_powerDieAndShip :
    (let s := packIn .shipArmed
     let ship := { packIn .ship with pack := { (packIn .ship).pack with shipCancelled := true } }
     let off := { up with pack := { up.pack with running := false } }
     !off.pack.running && s.pack.running && !s.lehrOn && s.shipClean && ship.pack.vinGoodSince = some 0 && 1000000 ≤ ship.now
      && ship.pack.shipCancelled) = true := by decide

/-- A lehr pass of that cause. -/
def passing (cause : LehrCause) (isSealed : Bool) : State :=
  { up with life := { up.life with lehr := some { cause := cause, at_ := 0, time := (0, false), sealed_ := isSealed } } }

theorem witness_powerLossRows :
    (let strobe := { up with pack := { up.pack with strobe := true } }
     let hold := { up with life := { up.life with inReset := true, thermalHold := some 0, perst := true } }
     let dark := { up with life := { up.life with railsUp := false } }
     let reset := { up with life := { up.life with inReset := true } }
     let conflict := { passing .perst true with life := { (passing .perst true).life with st := .fenced, fencedBy := some .conflict } }
     conflict.life.fencedBy = some .conflict && conflict.lehrSealed && !conflict.life.perst && (passing .perst false).lehrOn && !(passing .perst false).life.inReset
      && (passing .perst true).life.lehr.any (fun l => !l.noSeal) && !reset.life.perst && reset.life.inReset && reset.life.hostReady && !vaultUp.life.perst && vaultUp.serving && vaultUp.vault.mounted && vaultUp.life.st ≠ .fenced && !up.vault.mounted && hold.life.inReset
      && hold.life.perst && strobe.pack.strobe && strobe.life.lehr.isNone
      && (strobe.updPack fun p => { p with strobe := false }).serving && !up.lehrOn && (passing .perst false).life.lehr.any (fun l => !l.sealed_)
      && 3000000 ≤ (passing .perst false).now && (passing .perst true).life.lehr.any (fun l => l.sealed_ && l.cause ≠ .fence) && up.vinSteady
      && hold.life.thermalHold = some 0 && hold.life.lehr.isNone && !dark.life.railsUp && !dark.pack.overVolt) = true := by decide

theorem witness_restartRows :
    (let r := { State.reset with now := 10000 }
     let b := { up with life := { up.life with st := .restoring, starting := true, step := 10 } }
     let w := { up with life := { up.life with st := .booting, starting := true, step := 6 } }
     r.mayLeaveReset { slotAOk := true, slotBOk := false, hbmTrained := 0, perstHigh := true, hostBif := false, pairSide := false, sbAddr := 0, drives := [] }
      && w.life.st = .booting && w.life.starting && w.life.step = 6 && w.membersSettled && b.live && b.life.starting && b.life.st = .restoring && b.life.step = 10 && b.life.redestages = [] && b.life.checksFirst = []
      && !b.unjournaledLeft && b.membersSettled) = true := by decide

theorem witness_pairingRows :
    (let p := { up with pair := { up.pair with partnerPresent := true } }
     let f := { up with life := { up.life with st := .fenced, fencedBy := some .pin, fenceDrain := some 0 } }
     let s := { up with life := { up.life with st := .standby } }
     p.live && p.expectsPartner && !p.pair.partnerLost && p.pair.lastBeat + 100000 ≤ p.now && p.pair.sentAt + 10000 ≤ p.now && !p.life.hbStopped && p.life.hbAt + 45000 ≤ p.now
      && [DevState.ready, .stopping, .stopped, .standby, .restoring].contains p.life.st && !f.life.inReset && f.life.fencedBy = some .pin
      && !f.lehrOn && (passing .fence false).lehrOn && !(passing .fence false).life.fencePin && s.live && !s.life.fencePin && s.life.st = .standby && f.life.fenceDrain = some 0 && 100000 ≤ f.now
      && up.serving) = true
    ∧ (∀ p, (readArray [{ port := 3, labels := [{ copy := 0, good := true, label := label 0 p, logs := [3] }] }]).label = some (label 0 p))
    ∧ (label 0 Config.identity).partnerId = Config.identity ∧ (label 0 (Config.identity + 1)).partnerId ≠ Config.identity :=
  ⟨by decide, fun _ => rfl, rfl, identity_next⟩

theorem witness_dumpAndMetadataRows :
    (let t : TakeOver := { at_ := 0, partner := 5, label := label 5 0 }
     let w (fails : Nat) : State :=
       { up with life := { up.life with st := .restoring, starting := true, takeover := some { t with importFails := fails } } }
     let x : SealImage := { usable := true, identity := 5, dumpSeq := 1, drained := 0 }
     (w 0).awaitingImport = some t && t.importFails = 0 && t.at_ + up.settings.exportWait * 1000000 ≤ up.now && x.usable && x.identity = t.partner
      && t.label.importedDumpSeq < x.dumpSeq && (w 1).awaitingImport = some { t with importFails := 1 }) = true
    ∧ ({ up with life := { up.life with st := .standby, held := true } } : State).live = true
    ∧ ({ up with pair := { up.pair with label := some (label Config.identity 0), changes := [(1, 0, 5)] } } : State).ownsArray = true := by
  refine ⟨by decide, by decide, ?_⟩
  simp [State.ownsArray, label, State.live, State.lehrOn, up]

theorem witness_doorbellsAndRegisters :
    (let k := ringKey ⟨0, 0⟩ 1
     let q : Sq := { fn := ⟨0, 0⟩, ring := 1, base := 0, depth := 4, cq := 1, cls := 0, burst := 8, shadow := some (64, 10) }
     let c : Cq := { fn := ⟨0, 0⟩, ring := 1, base := 0, depth := 4, vector := 0, ien := true, coalCount := 1, coalTime := 0, tail := 3 }
     let s := { up with sqs := [(k, q)], cqs := [(k, c)], fns := [(0, { bme := true })], choice := 0 }
     let e := { up with sqs := [(k, { q with st := .error })], cqs := [(k, { c with st := .error })] }
     let a (d : Nat) : State :=
       { up with fns := [(0, { adminDepth := d, asqBase := 4096, acqBase := 8192 })] }
     s.mmioOk ⟨0, 0⟩ && 1 < maxRings ⟨0, 0⟩ && (s.sqs.look k).any (fun q => q.st = .active && (3 : Word).toNat < q.depth && q.depth ≤ (4 : Word).toNat)
      && (up.sqs.look k).isNone && (e.sqs.look k).any (fun q => q.st = .error) && (up.cqs.look k).isNone && (e.cqs.look k).any (fun c => c.st = .error)
      && (s.cqs.look k).any (fun c => c.st ≠ .error && (3 : Word).toNat < c.depth && ahead c.depth 3 c.head ≤ ahead c.depth c.tail c.head)
      && q.polledAt + 10 ≤ s.now && (s.issueRead ⟨0, 0⟩ (.shadow k) 64 8).isSome && !((a 2).fn ⟨0, 0⟩).adminActive
      && 2 ≤ ((a 2).fn ⟨0, 0⟩).adminDepth && ((a 4096).fn ⟨0, 0⟩).adminDepth ≤ 4096 && (a 2).contexts < 4096
      && ((a 1).fn ⟨0, 0⟩).adminDepth < 2 && 4096 < ((a 4097).fn ⟨0, 0⟩).adminDepth && 2047 < vectorsOf ⟨0, 0⟩) = true := by decide

/-- R552: the access to a function in D3hot that the third part of DoorbellsAndRegisters is about. -/
theorem witness_d3hot :
    (let d := { up with fns := [(0, { d3 := true })] }
     d.hostOn && d.fnExists ⟨0, 0⟩ && (d.ep 0).up && (d.fn ⟨0, 0⟩).d3) = true := by decide

theorem witness_hostLinkRows :
    (let v := { up with eps := [(0, { up := true, vfEnable := true, ari := true, numVfs := 3 })] }
     up.hostOn && up.fnExists ⟨0, 0⟩ && (up.ep 0).up && v.fnExists ⟨0, 3⟩ && v.endpoints.contains 0 && (v.ep 0).vfEnable
      && !(({ up with eps := [] } : State).ep 0).up && [2, 5, 8, 16, 32, 64].contains 64 && [1, 2, 4, 8, 16].contains 16 && !up.life.bifurcated
      && up.mmioOk ⟨0, 0⟩ && 4096 + 3 ≤ barSize ⟨0, 0⟩ 0 && !decide (4096 < 4096)
      && !unoccupied ⟨0, 0⟩ 0 4096 3 && unoccupied ⟨0, 0⟩ 0 0x3000 3) = true := by decide

theorem witness_hostRequestRows :
    (let r : HostRead := { fn := ⟨0, 0⟩, kind := .data 1 0 4, addr := 0, at_ := 0 }
     let h : HeldTag := { fn := ⟨0, 0⟩, since := 0, timeout := 50000, silent := false }
     let s := { up with eps := [(0, { up := true, reads := [(0, r)], held := [(1, h)] })], fns := [(0, { bme := true })] }
     let d := { up with fns := [(0, { d3 := true })] }
     s.hostOn && s.fnExists ⟨0, 0⟩ && (s.fn ⟨0, 0⟩).bme && !(up.fn ⟨0, 0⟩).bme && !(s.fn ⟨0, 0⟩).d3 && (d.fn ⟨0, 0⟩).d3 && (s.ep 0).up
      && (s.ep 0).reads.look 0 = some r && (s.ep 0).reads.look 1 = none && (s.ep 0).held.look 1 = some h && (s.ep 0).reads.look 2 = none
      && (s.ep 0).held.look 2 = none && r.at_ + (s.fn r.fn).timeoutUs ≤ s.now && h.since + 2 * h.timeout ≤ s.now) = true := by decide

/-- A module with submission ring 1 of class URGENT, which holds an entry, and its completion ring. -/
def ringUp : State :=
  { up with sqs := [(ringKey ⟨0, 0⟩ 1, { fn := ⟨0, 0⟩, ring := 1, base := 0, depth := 4, cq := 1, cls := 0, burst := 8, shadow := none,
                                          tailMmio := some 1 })],
            cqs := [(ringKey ⟨0, 0⟩ 1, { fn := ⟨0, 0⟩, ring := 1, base := 0, depth := 4, vector := 0, ien := true, coalCount := 1, coalTime := 0,
                                          sinceMsg := 1, backedSince := some 0 })],
            fns := [(0, { bme := true })] }

theorem witness_ringTimeRows :
    (let k := ringKey ⟨0, 0⟩ 1
     let b := { up with eps := [(0, { up := true, ltrActive := true })] }
     ringUp.choose.isSome && (ringUp.cqs.look k).any (fun c => 0 < c.sinceMsg && c.firstAt + c.coalTime ≤ ringUp.now && c.backedSince = some 0 && !c.stalled)
      && ringUp.settings.stallTimeout * 1000 ≤ ringUp.now && (b.ep 0).ltrActive && !b.epBusy 0 && (b.ep 0).lastActivity + 10000 ≤ b.now
      && up.mgmt.stashEmptyAt.isNone) = true := by decide

theorem witness_stashPoolEmpty : ∃ s : State, s.hostOn = true ∧ 16384 ≤ s.stashed ∧ s.mgmt.stashEmptyAt = none := by
  refine ⟨{ up with cqs := [(1, { fn := ⟨0, 0⟩, ring := 1, base := 0, depth := 4, vector := 0, ien := true, coalCount := 1, coalTime := 0, stash := List.replicate 16384 {} })] }, by decide, ?_, rfl⟩
  simp only [State.stashed, Store.vals, List.map_cons, List.map_nil, List.length_replicate, List.sum_cons, List.sum_nil]; decide

theorem witness_internalUnitRows :
    (let i (x : Island) : State := { up with islands := [(115, x)] }
     let test := { up with mgmt := { up.mgmt with selfTest := { status := 1, kind := 1, units := [115, 70] } } }
     let march := { up with mgmt := { up.mgmt with selfTest := { status := 1, kind := 2, marches := [70], ckptGood := true, linkGood := true } } }
     let port := { up with ports := [(3, { up.port 3 with linkUp := true, ctl := .ready })] }
     up.live && (up.island 66).status ≠ 1 && (up.island 66).status ≠ 3 && canReset 115 && (up.island 115).status = 0
      && test.mgmt.selfTest.status = 1 && !test.unitInTest && test.mgmt.selfTest.units.contains 115 && test.mgmt.selfTest.range.isNone
      && test.mgmt.selfTest.units.contains 70 && march.mgmt.selfTest.marches.contains 70 && march.shortDone && !march.unitInTest
      && (port.port 3).linkUp && (port.port 3).resetWhy.isNone && (port.port 3).ctl = .ready
      && ((i { status := 1, drained := true }).island 115).drained && (up.tile 1).running.isNone
      && ((i { status := 1 }).island 115).status = 1 && !((i { status := 1 }).island 115).drained
      && ((i { status := 1, advanceDue := true, advancedAt := some 0 }).island 115).advanceDue && 1000 ≤ up.now
      && ((i { clock := 2 }).island 115).clock = 2 && ((i { clock := 2 }).island 115).clockAt + 1 ≤ up.now && !up.life.refclkLost
      && !up.recorder.thermalWarn && up.life.thermalHold.isNone) = true := by decide

theorem witness_sidebandRows :
    (let b (x : Sideband) : State := { up with sb := x }
     up.sbOn && !up.sb.i3c && 4 ≤ 4 && 4 % 4 = 0 && (b { i3c := true }).sb.i3c && (b { alert := true }).sb.alert
      && (b { i3c := true, ibiEnabled := true, alert := true }).sb.ibiEnabled && (b { i3c := true }).sb.ibiAt + 1000 ≤ up.now
      && !(b { i3c := true }).sb.ibiEnabled && 224 % 4 = 0 && (b { busy := true }).sb.busy) = true := by decide

theorem witness_i3cAnswersAndRegisters :
    (let i := { up with sb := { up.sb with i3c := true } }
     i.sbOn && i.sb.i3c && up.mmioOk ⟨0, 0⟩ && unoccupied ⟨0, 0⟩ 0 0x3000 8 && 0x3000 + 8 ≤ barSize ⟨0, 0⟩ 0 && 16777212 + 4 ≤ barSize ⟨0, 0⟩ 0 && 16777212 % 4 = 0 && 16777208 + 8 ≤ barSize ⟨0, 0⟩ 0
      && up.hostOn && up.fnExists ⟨0, 0⟩ && (up.ep 0).up) = true := by decide

theorem witness_mailboxCommandStarts :
    (up.sbOn && !up.sb.busy && [(Instr.getIdentity, 1), (.readPack, 7)].contains (.readPack, 7)
      && ({ up with sb := { up.sb with busy := true } } : State).sb.busy) = true := by decide

theorem witness_settingsChangeOnlyBySetFeature :
    setsSettings .watchdogExpiry = false ∧ ∃ t, exec .watchdogExpiry State.reset = .next t := ⟨by decide, _, rfl⟩

/-- Both branches of R585: a head that stays behind the tail, and one beyond it. -/
theorem witness_cqHeadRule :
    (let c : Cq := { fn := ⟨0, 0⟩, ring := 1, base := 0, depth := 4, vector := 0, ien := true, coalCount := 1, coalTime := 0, tail := 2 }
     up.mmioOk ⟨0, 0⟩ && 1 < maxRings ⟨0, 0⟩ && c.st ≠ .error && (2 : Word).toNat < c.depth
      && ahead c.depth 2 c.head ≤ ahead c.depth c.tail c.head && !decide (ahead c.depth 3 c.head ≤ ahead c.depth c.tail c.head)) = true := by decide

theorem witness_attachedAtMostOnce :
    (let s (g : FnId) : State := { up with volumes := [(9, { vault := false, capacity := 8, attached := some g })] }
     starts ((s ⟨0, 0⟩).holding (command 0x8D [9])) 0x8D && (s ⟨0, 0⟩).fnExists ⟨0, 0⟩ && decide ((⟨0, 1⟩ : FnId) ≠ ⟨0, 0⟩)) = true := by decide

/-- A template of one tier of six members with two checks, a strip of it and two lost positions. -/
theorem witness_code :
    (let m : Template := ⟨2, [(6, 2)]⟩
     m.valid && 2 ≤ 6 - 2 && 3 < 6 - 2 && 3 < m.data && decide ([1, 4].Nodup) && [1, 4].all (· < 6)) = true := by decide

theorem witness_storesKeepTheirForm : Store.wf ([(1, {}), (4, {})] : Store Region) = true := by decide

/-- Rings, tables and the power die's outputs of small states meet their invariants, and the states take a step. -/
theorem witness_invariants :
    (ringUp.ringsOk && ringUp.tablesOk && arrayUp.tablesOk && dirtyUp.tablesOk && (packIn .learnDischarge).pack.drivesOk
      && ({ (packIn .holdup).pack with running := false } : Pack).drivesOk) = true
    ∧ (∃ t, step ringUp = .next t) ∧ ∃ t, step (packIn .learnDischarge) = .next t := ⟨by decide, ⟨_, rfl⟩, _, rfl⟩

/-- Block 0 of volume 9, visible in frame 0, is gathered anew in frame 1; a fill of it is under way in frame 2. -/
def rewriteUp : State :=
  { arrayUp with frames := [(0, { vol := 9, lba := 0, st := .clean }), (1, { vol := 9, lba := 0, st := .gather }),
                            (2, { vol := 9, lba := 0, st := .filling })],
                  heads := [(0, 0)], wp := { arrayUp.wp with buckets := 1 } }

theorem witness_commitSupersedesVisibleFrame :
    ((rewriteUp.visible 9 0).map (·.1) = some 0) ∧ (rewriteUp.frames.look 1).isSome = true
      ∧ (rewriteUp.frames.look 2).any (fun x => x.st = .filling) = true := by decide +kernel

theorem witness_suppressedTotalPerPf : (0 ∈ up.endpoints) ∧ up.mmioOk ⟨0, 0⟩ = true := by decide

theorem witness_backedUpRingsGetNoGrant : (ringUp.choose.map fun x => (x.1, x.2.1)) = some (0, ringKey ⟨0, 0⟩ 1) := by decide

end Sys2Proof.Tests
end

section
/-! PROOFS. The rows of the power link and of VIN_MAIN (R26, R28, R430, R431, R436, R462): what each row does once its guard is met, what
it leaves while its time still runs, and the statement O35 put together from them. -/

namespace Sys2Proof.Machine

open Sys2Proof

/-! ### Times a condition must hold for -/

theorem heldFor_some {t now time : Nat} : heldFor (some t) now time = true ↔ t + time ≤ now := by
  simp [heldFor]

theorem heldFor_of_le {since : Option Nat} {t now time : Nat} (ht : since = some t) (h : t + time ≤ now) :
    heldFor since now time = true :=
  ht ▸ heldFor_some.mpr h

theorem heldFor_eq_false_iff {since : Option Nat} {now time : Nat} :
    heldFor since now time = false ↔ since = none ∨ ∃ t, since = some t ∧ now < t + time := by
  cases since <;> simp [heldFor]

/-! ### What a reading of VIN_MAIN leaves and starts -/

@[simp] theorem Pack.setVin_st (p : Pack) (mv now : Nat) : (p.setVin mv now).st = p.st := rfl

/-- At or above 10.8 V the time of R436 runs on, or starts now. -/
theorem Pack.setVin_vinGoodSince {p : Pack} {mv now : Nat} (h : 10800 ≤ mv) :
    (p.setVin mv now).vinGoodSince = some (p.vinGoodSince.getD now) := by
  simp [Pack.setVin, runFrom, h]

/-- Below 10.7 V a pack in states 2 to 9 goes to HOLDUP, and for any other the converter follows (R431, R436). -/
theorem State.vinReads_of_lt {s : State} {mv : Nat} (h : mv < 10700) :
    s.vinReads mv
      = if 2 ≤ s.pack.st.code ∧ s.pack.st.code ≤ 9 then (s.updPack fun p => p.setVin mv s.now).learnAbort.packTo .holdup
        else (s.updPack fun p => p.setVin mv s.now).converterCheck := by
  simp only [State.vinReads, h, decide_true, Bool.true_and, Bool.and_eq_true, decide_eq_true_eq]
  rfl

/-- From 10.7 V on the pack keeps its state, and the converter follows. -/
theorem State.vinReads_of_le {s : State} {mv : Nat} (h : 10700 ≤ mv) :
    s.vinReads mv = (s.updPack fun p => p.setVin mv s.now).converterCheck := by
  simp [State.vinReads, Nat.not_lt.mpr h]

/-! ### The dispatch of the rows -/

theorem exec_statusFrame (f : StatusFrame) (s : State) : exec (.statusFrame f) s = execStatusFrame f s := rfl

theorem exec_statusFrameTimeout (s : State) : exec .statusFrameTimeout s = execStatusFrameTimeout s := rfl

theorem exec_packEnergyAvailable (s : State) : exec .packEnergyAvailable s = execPackEnergyAvailable s := rfl

theorem exec_powerFailDetect (mv : Nat) (s : State) : exec (.powerFailDetect mv) s = execPowerFailDetect mv s := rfl

theorem exec_vinOvervoltage (mv : Nat) (s : State) : exec (.vinOvervoltage mv) s = execVinOvervoltage mv s := rfl

theorem exec_vinReturnInRange (s : State) : exec .vinReturnInRange s = execVinReturnInRange s := rfl

theorem exec_vinBelowHoldup (mv : Nat) (s : State) : exec (.vinBelowHoldup mv) s = execVinBelowHoldup mv s := rfl

theorem exec_vinAboveHoldup (s : State) : exec .vinAboveHoldup s = execVinAboveHoldup s := rfl

theorem exec_holdupUvlo (s : State) : exec .holdupUvlo s = execHoldupUvlo s := rfl

theorem exec_holdupUvloRecover (s : State) : exec .holdupUvloRecover s = execHoldupUvloRecover s := rfl

/-! ### The power link -/

/-- What the power die reads for a status frame and tells in it (R26, R431, R433). -/
def State.frameRead (s : State) (f : StatusFrame) : State :=
  (s.vinReads f.vinMv).updPack fun p => { p.volt f.packMv s.now with
    eAvailMj := if p.unusable then 0 else p.eAvailMj, limited := f.limited,
    inputMw := f.vinMw + (if p.converter = 0 then 0 else f.converterMw) - (if p.charger = (0, 0) then 0 else f.chargerMw) }

/-- What a logic die out of reset takes from a status frame (R26, R28, R367). -/
def State.frameTaken (u : State) : State :=
  { u with
    link := { u.link with
      lastFrame := u.now, runSince := some (if u.now < u.link.lastFrame + 100 then u.link.runSince.getD u.now else u.now),
      eAvailMj := u.pack.eAvailMj, w1 := u.pack.w1, w2 := u.pack.w2, w3 := u.pack.w3, reading := u.pack.reading,
      inputMw := u.pack.inputMw, learning := u.pack.st = PackSt.learnDischarge },
    gov := { u.gov with learnSeen := u.gov.learnSeen || u.pack.st = PackSt.learnDischarge } }

theorem exec_statusFrame_inReset {s : State} {f : StatusFrame} (run : s.pack.running = true)
    (off : (s.frameRead f).life.inReset = true) :
    exec (.statusFrame f) s = .next (s.keepOwned (s.frameRead f)) := by
  rw [exec_statusFrame, execStatusFrame, act_eq, if_neg (by simp [run])]
  exact congrArg (fun t => Host.Outcome.next (s.keepOwned t)) (if_pos off)

theorem exec_statusFrame_outOfReset {s : State} {f : StatusFrame} (run : s.pack.running = true)
    (on : (s.frameRead f).life.inReset = false) :
    exec (.statusFrame f) s = .next (s.keepOwned (s.frameRead f).frameTaken.energyChanged.run) := by
  rw [exec_statusFrame, execStatusFrame, act_eq, if_neg (by simp [run])]
  exact congrArg (fun t => Host.Outcome.next (s.keepOwned t)) (if_neg (Bool.not_eq_true _ ▸ on))

theorem exec_statusFrameTimeout_of_gap {s : State} (on : s.life.inReset = false) (gap : s.link.lastFrame + 100 ≤ s.now) :
    exec .statusFrameTimeout s
      = .next (s.keepOwned (({ s with link := { s.link with valid := false, runSince := none } } : State).energyChanged.run)) := by
  rw [exec_statusFrameTimeout, execStatusFrameTimeout, act_eq, if_neg (by simp [on, gap])]

theorem exec_packEnergyAvailable_of_run {s : State} {t : Nat} (on : s.life.inReset = false) (since : s.link.runSince = some t)
    (invalid : s.link.valid = false) (held : t + 1000000 ≤ s.now) (noGap : s.now < s.link.lastFrame + 100) :
    exec .packEnergyAvailable s = .next (s.keepOwned (({ s with link := { s.link with valid := true } } : State).energyChanged.run)) := by
  simp only [exec_packEnergyAvailable, execPackEnergyAvailable, act_eq, since]
  rw [if_neg (by simp [on, invalid, held, noGap])]

/-! ### Power fail and overvoltage -/

theorem exec_powerFailDetect_of_lt {s : State} {mv : Nat} (run : s.pack.running = true) (low : mv < 10500) {u : State}
    (hu : u = ((s.vinReads mv).updPack fun p => { p with strobe := true }).emit .strobe) :
    exec (.powerFailDetect mv) s
      = .next (s.keepOwned
          (if u.life.railsUp = true ∧ u.pack.wantsConverter (u.mayLehr || u.passOpen) = 0 then u.converterLost else u)) := by
  subst hu
  rw [exec_powerFailDetect, execPowerFailDetect, act_eq, if_neg (by simp [run, low])]
  simp only [Bool.and_eq_true, decide_eq_true_eq]

theorem exec_vinOvervoltage_of_gt {s : State} {mv : Nat} (run : s.pack.running = true) (high : 14000 < mv)
    (first : s.pack.overVolt = false) :
    exec (.vinOvervoltage mv) s
      = .next (s.keepOwned
          (((((s.updPack fun p => { p.setVin mv s.now with overVolt := true, inputSwitch := false, strobe := true }).emit
            (.inputSwitch false)).converterCheck.dieEvent Ev.vinOvervoltage mv 0 0).emit .strobe))) := by
  rw [exec_vinOvervoltage, execVinOvervoltage, act_eq, if_neg (by simp [run, high, first])]

theorem exec_vinReturnInRange_of_held {s : State} {t : Nat} (run : s.pack.running = true) (opened : s.pack.overVolt = true)
    (since : s.pack.vinRangeSince = some t) (held : t + 1000000 ≤ s.now) {u : State}
    (hu : u = (s.updPack fun p => { p with overVolt := false, inputSwitch := true }).emit (.inputSwitch true)) :
    exec .vinReturnInRange s
      = .next (s.keepOwned
          ((if u.life.railsUp = true then u
            else { u with life := { u.life with railsUp := true, railsSince := u.now } }).converterCheck)) := by
  subst hu
  rw [exec_vinReturnInRange, execVinReturnInRange, act_eq, if_neg (by simp [run, opened, heldFor_of_le since held])]

theorem exec_vinReturnInRange_early {s : State} (early : heldFor s.pack.vinRangeSince s.now 1000000 = false) :
    exec .vinReturnInRange s = .next (s.keepOwned s) := by
  rw [exec_vinReturnInRange, execVinReturnInRange, act_eq, if_pos (by simp [early])]

/-! ### The levels of the hold-up converter -/

theorem exec_vinBelowHoldup_of_lt {s : State} {mv : Nat} (run : s.pack.running = true) (low : mv < 10800) :
    exec (.vinBelowHoldup mv) s = .next (s.keepOwned (s.vinReads mv)) := by
  rw [exec_vinBelowHoldup, execVinBelowHoldup, act_eq, if_neg (by simp [run, low])]

theorem exec_vinAboveHoldup_of_running {s : State} (run : s.pack.running = true) {u : State}
    (hu : u = s.updPack fun p => p.setVin (max p.vinMv 10800) s.now) :
    exec .vinAboveHoldup s
      = .next (s.keepOwned
          (if s.pack.st = .holdup ∧ s.pack.vinGoodSince.getD s.now + 100000 ≤ s.now then u.packTo .identify
            else u.converterCheck)) := by
  subst hu
  have good : ((s.pack.setVin (max s.pack.vinMv 10800) s.now).st = .holdup
        && heldFor (s.pack.setVin (max s.pack.vinMv 10800) s.now).vinGoodSince s.now 100000) = true
      ↔ s.pack.st = .holdup ∧ s.pack.vinGoodSince.getD s.now + 100000 ≤ s.now := by
    rw [Pack.setVin_vinGoodSince (le_max_right ..), Pack.setVin_st, Bool.and_eq_true, decide_eq_true_eq, heldFor_some]
  rw [exec_vinAboveHoldup, execVinAboveHoldup, act_eq, if_neg (by simp [run])]
  exact congrArg (fun t => Host.Outcome.next (s.keepOwned t)) (if_congr good rfl rfl)

theorem exec_holdupUvlo_of_held {s : State} {t : Nat} (works : s.pack.converter ≠ 0) (first : s.pack.uvlo = false)
    (since : s.pack.lowSince = some t) (held : t + 1000 ≤ s.now) :
    exec .holdupUvlo s
      = .next (s.keepOwned (((s.updPack fun p => { p with uvlo := true }).converterCheck.dieEvent Ev.holdupUvlo s.pack.reading.mv
          (signedField 32 s.pack.qMc) 0).checkW3.converterLost)) := by
  rw [exec_holdupUvlo, execHoldupUvlo, act_eq, if_neg (by simp [works, first, heldFor_of_le since held])]

theorem exec_holdupUvlo_early {s : State} (early : heldFor s.pack.lowSince s.now 1000 = false) :
    exec .holdupUvlo s = .next (s.keepOwned s) := by
  rw [exec_holdupUvlo, execHoldupUvlo, act_eq, if_pos (by simp [early])]

theorem exec_holdupUvloRecover_of_held {s : State} {t : Nat} (run : s.pack.running = true) (stopped : s.pack.uvlo = true)
    (since : s.pack.highSince = some t) (held : t + 1000000 ≤ s.now) :
    exec .holdupUvloRecover s
      = .next (s.keepOwned (s.updPack fun p => { p with uvlo := false }).converterCheck.checkW3) := by
  rw [exec_holdupUvloRecover, execHoldupUvloRecover, act_eq, if_neg (by simp [run, stopped, heldFor_of_le since held])]

theorem exec_holdupUvloRecover_early {s : State} (early : heldFor s.pack.highSince s.now 1000000 = false) :
    exec .holdupUvloRecover s = .next (s.keepOwned s) := by
  rw [exec_holdupUvloRecover, execHoldupUvloRecover, act_eq, if_pos (by simp [early])]

/-! ### The statement -/

/-- Settles O35: each row past its guard has its stated effect, and no row acts while the time it waits for still runs. -/
theorem powerInputRows : Obligations.PowerInputRows := by
  unfold Obligations.PowerInputRows
  refine ⟨⟨fun s u f run hu => ?frame,
      fun _ on gap => exec_statusFrameTimeout_of_gap on gap,
      fun _ _ on since invalid held noGap => exec_packEnergyAvailable_of_run on since invalid held noGap⟩,
    fun s => ⟨fun _ _ run low hu => exec_powerFailDetect_of_lt run low hu,
      fun _ run high first => exec_vinOvervoltage_of_gt run high first,
      fun _ _ run opened since held hu => exec_vinReturnInRange_of_held run opened since held hu,
      fun early => exec_vinReturnInRange_early (heldFor_eq_false_iff.mpr early),
      fun mv u run low hu => ?below,
      fun mv run low high => ?between,
      fun t u run ht hu => ?above,
      fun _ works first since held => exec_holdupUvlo_of_held works first since held,
      fun early => exec_holdupUvlo_early (heldFor_eq_false_iff.mpr early),
      fun _ run stopped since held => exec_holdupUvloRecover_of_held run stopped since held,
      fun early => exec_holdupUvloRecover_early (heldFor_eq_false_iff.mpr early)⟩⟩
  case frame =>
    obtain rfl : u = s.frameRead f := hu
    exact ⟨exec_statusFrame_inReset run, exec_statusFrame_outOfReset run⟩
  case below =>
    rw [exec_vinBelowHoldup_of_lt run (by omega), State.vinReads_of_lt low, hu]
  case between =>
    rw [exec_vinBelowHoldup_of_lt run high, State.vinReads_of_le low]
  case above =>
    rw [exec_vinAboveHoldup_of_running run hu, ht]

end Sys2Proof.Machine
end

section
/-! PROOFS. The tables of the state (log entry 40): every operation of a record store keeps its keys rising, a write reads back at its key
and at no other, and the statement O58 put together from these. -/

namespace Sys2Proof.Machine

open Sys2Proof

section

variable {α : Type}

/-! ### The canonical form -/

/-- The canonical form says of every pair of records that the earlier has the lower key. -/
theorem Store.wf_iff_pairwise (m : Store α) : m.wf = true ↔ m.Pairwise fun a b => a.1 < b.1 := by
  rw [← List.isChain_iff_pairwise]
  induction m with
  | nil => simp [Store.wf]
  | cons a m ih =>
    cases m with
    | nil => simp [Store.wf]
    | cons b m => simp [Store.wf, ih]

/-- The form speaks of the keys alone. -/
theorem Store.wf_iff_keys (m : Store α) : m.wf = true ↔ m.keys.Pairwise (· < ·) := by
  rw [Store.wf_iff_pairwise, Store.keys, List.pairwise_map]

theorem Store.wf_of_keys_eq {m m' : Store α} (hk : m'.keys = m.keys) (h : m.wf = true) : m'.wf = true := by
  rw [Store.wf_iff_keys] at h ⊢
  rwa [hk]

/-! ### The operations keep it -/

@[simp] theorem Store.keys_upd (m : Store α) (k : Nat) (f : α → α) : (m.upd k f).keys = m.keys := by
  rw [Store.keys, Store.upd, List.map_map]
  refine List.map_congr_left fun e _ => ?_
  rw [Function.comp_apply, apply_ite Prod.fst, ite_self]

@[simp] theorem Store.keys_each (m : Store α) (g : Nat → α → α) : (m.each g).keys = m.keys := by
  rw [Store.keys, Store.each, List.map_map]
  rfl

theorem Store.wf_upd {m : Store α} (k : Nat) (f : α → α) (h : m.wf = true) : (m.upd k f).wf = true :=
  Store.wf_of_keys_eq (Store.keys_upd m k f) h

theorem Store.wf_each {m : Store α} (g : Nat → α → α) (h : m.wf = true) : (m.each g).wf = true :=
  Store.wf_of_keys_eq (Store.keys_each m g) h

theorem Store.wf_keep {m : Store α} (q : Nat → α → Bool) (h : m.wf = true) : (m.keep q).wf = true := by
  rw [Store.wf_iff_pairwise] at h ⊢
  exact h.filter _

/-- To drop a key is to keep the others. -/
theorem Store.del_eq_keep (m : Store α) (k : Nat) : m.del k = m.keep fun j _ => decide (j ≠ k) := by
  induction m with
  | nil => rfl
  | cons e t ih =>
    rw [Store.keep] at ih
    by_cases h : e.1 = k <;> simp [Store.del, Store.keep, h, ih]

theorem Store.wf_del {m : Store α} (k : Nat) (h : m.wf = true) : (m.del k).wf = true :=
  Store.del_eq_keep m k ▸ Store.wf_keep _ h

/-- A write adds no record but its own to those that are listed. -/
theorem Store.mem_put {m : Store α} {k : Nat} {v : α} {e : Nat × α} (h : e ∈ m.put k v) : e = (k, v) ∨ e ∈ m := by
  induction m with
  | nil => exact .inl (List.mem_singleton.mp h)
  | cons a t ih =>
    rw [Store.put] at h
    split at h
    · exact List.mem_cons.mp h
    · split at h
      · exact (List.mem_cons.mp h).imp_right (List.mem_cons_of_mem a)
      · rcases List.mem_cons.mp h with rfl | h
        · exact .inr List.mem_cons_self
        · exact (ih h).imp_right (List.mem_cons_of_mem a)

theorem Store.wf_put {m : Store α} (k : Nat) (v : α) (h : m.wf = true) : (m.put k v).wf = true := by
  rw [Store.wf_iff_pairwise] at h ⊢
  induction m with
  | nil => exact List.pairwise_singleton ..
  | cons a t ih =>
    obtain ⟨first, rest⟩ := List.pairwise_cons.mp h
    rw [Store.put]
    split
    · rename_i below
      exact h.cons fun e he => (List.mem_cons.mp he).elim (· ▸ below) fun he => below.trans (first e he)
    · rename_i notBelow
      split
      · rename_i same
        exact rest.cons fun e he => same ▸ first e he
      · rename_i other
        have above : a.1 < k := by omega
        exact (ih rest).cons fun e he => (Store.mem_put he).elim (· ▸ above) (first e)

theorem Store.wf_putD [DecidableEq α] (d : α) {m : Store α} (k : Nat) (v : α) (h : m.wf = true) : (m.putD d k v).wf = true := by
  rw [Store.putD]
  split
  · exact Store.wf_del k h
  · exact Store.wf_put k v h

/-! ### A read after a write -/

/-- A write that drops what reads as unlisted shows at its key alone. -/
theorem Store.read_putD [DecidableEq α] (d : α) (m : Store α) (k : Nat) (v : α) (j : Nat) :
    (m.putD d k v).read j d = if k = j then v else m.read j d := by
  rw [Store.putD, Store.read, Store.read]
  split
  · rename_i unlisted
    rw [Store.look_del, unlisted, apply_ite (Option.getD · d), Option.getD_none]
  · rw [Store.look_put, apply_ite (Option.getD · d), Option.getD_some]

end

/-! ### The statement -/

/-- Settles O58: the canonical form is a relation between the keys alone, which each operation keeps, and `read_putD` says what a write
shows. -/
theorem storesKeepTheirForm : Obligations.StoresKeepTheirForm := by
  unfold Obligations.StoresKeepTheirForm
  intro α _ d m k v f g q h
  exact ⟨Store.wf_put k v h, Store.wf_del k h, Store.wf_putD d k v h, Store.wf_upd k f h, Store.wf_each g h, Store.wf_keep q h,
    by rw [Store.read_putD, if_pos rfl],
    fun k' other => by rw [Store.read_putD, if_neg other.symm]⟩

end Sys2Proof.Machine
end

section
/-! PROOFS. Templates and positions (R50, R59, R60): what a position built from digits reads as, the digits of a data strip, and the
statement O56 put together from them. -/

namespace Sys2Proof

open Sys2Proof.Machine

/-! ### Valid templates -/

theorem Template.width_eq_prod (m : Template) : m.width = (m.tiers.map (·.1)).prod := by
  rw [Template.width, List.prod_eq_foldl]

theorem Template.data_eq_prod (m : Template) : m.data = (m.tiers.map tierData).prod := by
  rw [Template.data, List.prod_eq_foldl]

/-- Every tier of a valid template has a data member (R50). -/
theorem Template.checks_lt_members {m : Template} (h : m.valid = true) {t : Nat × Nat} (ht : t ∈ m.tiers) : t.2 < t.1 := by
  simp only [Template.valid, Bool.and_eq_true, List.all_eq_true, decide_eq_true_eq] at h
  obtain ⟨⟨-, tier⟩, -⟩ := h
  exact (tier t ht).1.2

/-! ### Positions of digits (R59) -/

/-- There is one digit for each tier, below the tier's bound: `(·.1)` for the digits of any position, `tierData` for those of a data
position. -/
def DigitsBelow (bound : Nat × Nat → Nat) (ts : List (Nat × Nat)) (us : List Nat) : Prop :=
  List.Forall₂ (fun t u => u < bound t) ts us

/-- A position reads as the digits it is built from. -/
theorem digitsOf_posOfDigits {ts : List (Nat × Nat)} {us : List Nat} (h : DigitsBelow (·.1) ts us) :
    digitsOf ts (posOfDigits ts us) = us := by
  induction h with
  | nil => rfl
  | @cons t u ts us hu _ ih =>
    have low : (u + t.1 * posOfDigits ts us) % t.1 = u := by rw [Nat.add_mul_mod_self_left, Nat.mod_eq_of_lt hu]
    have high : (u + t.1 * posOfDigits ts us) / t.1 = posOfDigits ts us := by
      rw [Nat.add_mul_div_left _ _ (Nat.zero_lt_of_lt hu), Nat.div_eq_of_lt hu, Nat.zero_add]
    rw [posOfDigits, digitsOf, low, high, ih]

/-- A position built from digits is one of the region's. -/
theorem posOfDigits_lt {ts : List (Nat × Nat)} {us : List Nat} (h : DigitsBelow (·.1) ts us) :
    posOfDigits ts us < (ts.map (·.1)).prod := by
  induction h with
  | nil => exact Nat.zero_lt_one
  | @cons t u ts us hu _ ih =>
    rw [posOfDigits, List.map_cons, List.prod_cons]
    calc u + t.1 * posOfDigits ts us < t.1 + t.1 * posOfDigits ts us := Nat.add_lt_add_right hu _
      _ = t.1 * (posOfDigits ts us + 1) := by rw [Nat.mul_succ, Nat.add_comm]
      _ ≤ t.1 * (ts.map (·.1)).prod := Nat.mul_le_mul_left _ ih

theorem allData_of_below {ts : List (Nat × Nat)} {us : List Nat} (h : DigitsBelow tierData ts us) : allData ts us = true := by
  induction h with
  | nil => rfl
  | cons hu _ ih => rw [allData, ih, Bool.and_true, decide_eq_true hu]

/-! ### Digits of a data strip (R60) -/

theorem dataDigits_below {ts : List (Nat × Nat)} (h : ∀ t ∈ ts, t.2 < t.1) (k : Nat) : DigitsBelow tierData ts (dataDigits ts k) := by
  induction ts generalizing k with
  | nil => exact .nil
  | cons t ts ih =>
    obtain ⟨ht, hts⟩ := List.forall_mem_cons.mp h
    exact .cons (Nat.mod_lt k (Nat.sub_pos_of_lt ht)) (ih hts _)

/-- A data digit is a digit. -/
theorem DigitsBelow.members {ts : List (Nat × Nat)} {us : List Nat} (h : DigitsBelow tierData ts us) : DigitsBelow (·.1) ts us :=
  h.imp fun t _ hu => hu.trans_le (Nat.sub_le t.1 t.2)

/-- The digits of a data strip give back its number. -/
theorem stripOf_dataDigits {ts : List (Nat × Nat)} {k : Nat} (h : k < (ts.map tierData).prod) : stripOf ts (dataDigits ts k) = k := by
  induction ts generalizing k with
  | nil => exact (Nat.lt_one_iff.mp h).symm
  | cons t ts ih =>
    rw [List.map_cons, List.prod_cons] at h
    rw [dataDigits, stripOf, ih (Nat.div_lt_of_lt_mul h), Nat.mod_add_div]

/-! ### The statement -/

/-- Settles O56: the digits of a data strip are below the tiers' data members, so its position reads as them, and they give the strip
back. -/
theorem dataStripsHavePositions : Obligations.DataStripsHavePositions := by
  unfold Obligations.DataStripsHavePositions
  intro m k hv hk
  have below : DigitsBelow tierData m.tiers (dataDigits m.tiers k) := dataDigits_below (fun _ => Template.checks_lt_members hv) k
  have digits : digitsOf m.tiers (m.dataPos k) = dataDigits m.tiers k := digitsOf_posOfDigits below.members
  rw [Template.isData, digits]
  exact ⟨rfl, m.width_eq_prod ▸ posOfDigits_lt below.members, allData_of_below below, stripOf_dataDigits (m.data_eq_prod ▸ hk)⟩

end Sys2Proof
end

section
/-! PROOFS. The recovery rule on a region of one tier (R56, R116, R117): its only line holds every position, what one pass over it repairs,
and the statement O57 put together from that. -/

namespace Sys2Proof

open Sys2Proof.Machine

/-! ### The line of a region of one tier -/

@[simp] theorem span_zero_eq_range (n : Nat) : span 0 n = List.range n := by
  simp [span]

theorem filter_range_mod_eq_zero {n : Nat} (hn : 0 < n) : ((List.range n).filter fun p => p % n = 0) = [0] := by
  obtain ⟨n, rfl⟩ := Nat.exists_eq_add_one.mpr hn
  have rest : ∀ p < n, ¬ (p + 1) % (n + 1) = 0 := fun p hp => by rw [Nat.mod_eq_of_lt (by omega)]; omega
  simpa [List.range_succ_eq_map, List.filter_map] using rest

/-- The only line of the only tier holds every position (R54, R109). -/
theorem Template.lines_of_oneTier {m : Template} {n k : Nat} (ht : m.tiers = [(n, k)]) (hn : 0 < n) : m.lines 0 = [List.range n] := by
  have positions : m.positions = List.range n := by simp [Template.positions, Template.width, ht]
  have line : m.line 0 0 = List.range n := by simp [Template.line, ht]
  have firsts : (m.positions.filter fun p => (digitsOf m.tiers p).getD 0 0 = 0) = [0] := by
    rw [positions, ht]
    exact filter_range_mod_eq_zero hn
  rw [Template.lines, firsts, List.map_singleton, line]

/-- On that line lie all positions lost. -/
theorem filter_range_contains_perm {n : Nat} {lost : List Nat} (hd : lost.Nodup) (hb : ∀ p ∈ lost, p < n) :
    ((List.range n).filter lost.contains).Perm lost :=
  (List.perm_ext_iff_of_nodup (List.nodup_range.filter _) hd).mpr fun p => by simpa using hb p

/-! ### One pass -/

/-- One pass over a region of one tier repairs its line, if repairable (R116). -/
theorem repairTier_of_oneTier {m : Template} {n k : Nat} {lost : List Nat} (ht : m.tiers = [(n, k)]) (hn : 0 < n) (hd : lost.Nodup)
    (hb : ∀ p ∈ lost, p < n) :
    repairTier m 0 lost
      = if 1 ≤ lost.length ∧ lost.length ≤ k then
          ([], [{ tier := 0, line := List.range n, lost := (List.range n).filter lost.contains }])
        else (lost, []) := by
  have left : (lost.filter fun p => !((List.range n).filter lost.contains).contains p) = [] := by
    simpa using fun p hp => ⟨hb p hp, hp⟩
  simp only [repairTier, Template.lines_of_oneTier ht hn, List.foldl_cons, List.foldl_nil,
    (filter_range_contains_perm hd hb).length_eq, left]
  simp [ht]

/-- On one tier the search for a repair is one pass. -/
theorem repairFrom_one (m : Template) (t : Nat) (un : List Nat) :
    repairFrom m 1 t un = if (repairTier m t un).2.isEmpty then (un, []) else repairTier m t un := rfl

/-! ### The closure (R117) -/

/-- Where nothing is repairable the closure ends with what it has. -/
theorem closureLoop_of_noRepair {m : Template} {tiers : Nat} {un : List Nat} (h : (repairFrom m tiers 0 un).2 = []) (fuel : Nat) :
    closureLoop m tiers fuel un = (un, []) := by
  cases fuel with
  | zero => rfl
  | succ fuel => simp [closureLoop, h]

/-- After a repair the closure goes on with what that leaves. -/
theorem closureLoop_of_repair {m : Template} {tiers : Nat} {un : List Nat} (h : (repairFrom m tiers 0 un).2 ≠ []) (fuel : Nat) :
    (closureLoop m tiers (fuel + 1) un).1 = (closureLoop m tiers fuel (repairFrom m tiers 0 un).1).1 := by
  simp [closureLoop, h]

/-- What one tier leaves unresolved: nothing where the loss is within its checks, else everything. -/
theorem closure_of_oneTier {m : Template} {n k : Nat} {lost : List Nat} (ht : m.tiers = [(n, k)]) (hn : 0 < n) (hd : lost.Nodup)
    (hb : ∀ p ∈ lost, p < n) :
    (closure m 1 lost).1 = if lost.length ≤ k then [] else lost := by
  have idle : repairTier m 0 [] = ([], []) := repairTier_of_oneTier ht hn List.nodup_nil (by simp)
  have ends (fuel : Nat) : closureLoop m 1 fuel [] = ([], []) := closureLoop_of_noRepair (by simp [repairFrom_one, idle]) fuel
  have pass := repairTier_of_oneTier ht hn hd hb
  rw [closure]
  by_cases noLoss : lost = []
  · rw [noLoss, ends]; simp
  · by_cases few : lost.length ≤ k
    · rw [if_pos ⟨List.length_pos_iff.mpr noLoss, few⟩] at pass
      rw [if_pos few, closureLoop_of_repair (by simp [repairFrom_one, pass])]
      simp [repairFrom_one, pass, ends]
    · rw [if_neg fun h => few h.2] at pass
      rw [if_neg few, closureLoop_of_noRepair (by simp [repairFrom_one, pass])]

/-! ### The statement -/

/-- Settles O57: the first pass repairs the region's one line where the loss is within its checks, and nothing is ever repaired where it is
not. -/
theorem oneTierRecoversUpToChecks : Obligations.OneTierRecoversUpToChecks := by
  unfold Obligations.OneTierRecoversUpToChecks
  intro m n k lost hv ht hd hb
  have checks : k < n := Template.checks_lt_members hv (t := (n, k)) (by simp [ht])
  have left : (closure m m.tiers.length lost).1 = if lost.length ≤ k then [] else lost := by
    rw [ht]
    exact closure_of_oneTier ht (Nat.zero_lt_of_lt checks) hd hb
  rw [recoverable, left, List.isEmpty_iff]
  split
  · simpa
  · rename_i many
    exact iff_of_false (fun h => many (by simp [h])) many

end Sys2Proof
end

section
/-! PROOFS. The erasure code's field (R105, R106): the laws of doubling, product and power, and that α = 0x02 generates the field, so that
the model's inverse, a power, is one. -/

namespace Sys2Proof

open Sys2Proof.Machine

/-! ### Sums and doubling (R105, R106) -/

theorem ite_xor_zero (p q : Bool) (c : Byte) :
    (if p ^^ q then c else 0) = (if p then c else 0) ^^^ (if q then c else 0) := by
  cases p <;> cases q <;> simp

/-- Doubling shifts, and reduces by 0x11D what overflows. -/
theorem gfDouble_eq (a : Byte) : gfDouble a = (a <<< 1) ^^^ (if a.getLsbD 7 then 0x1D else 0) := by
  rw [gfDouble]
  split <;> simp

theorem gfDouble_xor (a b : Byte) : gfDouble (a ^^^ b) = gfDouble a ^^^ gfDouble b := by
  simp only [gfDouble_eq, BitVec.shiftLeft_xor_distrib, BitVec.getLsbD_xor, ite_xor_zero]
  ac_rfl

/-- Doubling undone by the modulus is twice the number. -/
theorem toNat_gfDouble_xor :
    ∀ b : Byte, (gfDouble b).toNat ^^^ (if b.getLsbD 7 then 0x11D else 0) = 2 * b.toNat := by decide

theorem gfDouble_ne_zero : ∀ b : Byte, b ≠ 0 → gfDouble b ≠ 0 := by decide

/-! ### Products of a byte and a number's lowest bits -/

theorem gfMulBits_succ (n : Nat) (a : Byte) (b : Nat) :
    gfMulBits (n + 1) a b = (if b.testBit 0 then a else 0) ^^^ gfMulBits n (gfDouble a) (b / 2) := by
  simp [gfMulBits]

@[simp] theorem gfMulBits_zero_right (n : Nat) (a : Byte) : gfMulBits n a 0 = 0 := by
  induction n generalizing a with
  | zero => rfl
  | succ n ih => simp [gfMulBits, ih]

theorem gfMulBits_two_mul (n : Nat) (a : Byte) (b : Nat) : gfMulBits (n + 1) a (2 * b) = gfMulBits n (gfDouble a) b := by
  simp [gfMulBits]

theorem gfMulBits_xor_right (n : Nat) (a : Byte) (x y : Nat) :
    gfMulBits n a (x ^^^ y) = gfMulBits n a x ^^^ gfMulBits n a y := by
  induction n generalizing a x y with
  | zero => simp [gfMulBits]
  | succ n ih =>
    simp only [gfMulBits_succ, Nat.testBit_xor, ite_xor_zero, Nat.xor_div_two, ih]
    ac_rfl

/-- Bits above the number's own add nothing. -/
theorem gfMulBits_succ_of_lt {n b : Nat} (h : b < 2 ^ n) (a : Byte) : gfMulBits (n + 1) a b = gfMulBits n a b := by
  induction n generalizing a b with
  | zero => rw [Nat.lt_one_iff.mp h, gfMulBits_zero_right, gfMulBits_zero_right]
  | succ n ih => rw [gfMulBits_succ, ih (by omega), ← gfMulBits_succ]

theorem gfMulBits_gfDouble (n : Nat) (a : Byte) (b : Nat) : gfMulBits n (gfDouble a) b = gfDouble (gfMulBits n a b) := by
  induction n generalizing a b with
  | zero => simp [gfMulBits, gfDouble]
  | succ n ih =>
    rw [gfMulBits, gfMulBits, ih, gfDouble_xor]
    split <;> rfl

/-- The field's modulus is 0x11D (R105). -/
theorem gfMulBits_modulus : ∀ a : Byte, gfMulBits 9 a 0x11D = 0 := by decide

/-! ### The product (R105) -/

@[simp] theorem gfMul_zero (a : Byte) : gfMul a 0 = 0 := gfMulBits_zero_right 8 a

theorem one_gfMul : ∀ b : Byte, gfMul 1 b = b := by decide

@[simp] theorem gfMul_one (a : Byte) : gfMul a 1 = a := by
  simp [gfMul, gfMulBits]

theorem gfMul_xor (a b c : Byte) : gfMul a (b ^^^ c) = gfMul a b ^^^ gfMul a c := by
  simp only [gfMul, BitVec.toNat_xor, gfMulBits_xor_right]

theorem gfDouble_gfMul (a b : Byte) : gfMul (gfDouble a) b = gfDouble (gfMul a b) := gfMulBits_gfDouble 8 a b.toNat

/-- Twice the second factor, before reduction, has nine bits; the modulus that reduces it adds nothing to the product. -/
theorem gfMul_gfDouble (a b : Byte) : gfMul a (gfDouble b) = gfDouble (gfMul a b) := by
  have reduction : gfMulBits 9 a (if b.getLsbD 7 then 0x11D else 0) = 0 := by
    split
    · exact gfMulBits_modulus a
    · exact gfMulBits_zero_right 9 a
  calc gfMul a (gfDouble b) = gfMulBits 9 a (gfDouble b).toNat := (gfMulBits_succ_of_lt (gfDouble b).isLt a).symm
    _ = gfMulBits 9 a ((gfDouble b).toNat ^^^ (if b.getLsbD 7 then 0x11D else 0)) := by
      rw [gfMulBits_xor_right, reduction, BitVec.ofNat_eq_ofNat, BitVec.xor_zero]
    _ = gfMulBits 9 a (2 * b.toNat) := by rw [toNat_gfDouble_xor]
    _ = gfMul (gfDouble a) b := gfMulBits_two_mul 8 a b.toNat
    _ = gfDouble (gfMul a b) := gfDouble_gfMul a b

theorem gfMulBits_gfMul (n : Nat) (a b : Byte) (c : Nat) : gfMulBits n (gfMul a b) c = gfMul a (gfMulBits n b c) := by
  induction n generalizing b c with
  | zero => exact (gfMul_zero a).symm
  | succ n ih =>
    rw [gfMulBits, gfMulBits, gfMul_xor, ← gfMul_gfDouble, ih]
    split
    · rfl
    · rw [gfMul_zero]

theorem gfMul_assoc (a b c : Byte) : gfMul (gfMul a b) c = gfMul a (gfMul b c) := gfMulBits_gfMul 8 a b c.toNat

/-! ### Powers -/

@[simp] theorem gfPow_zero (a : Byte) : gfPow a 0 = 1 := rfl

theorem gfPow_succ (a : Byte) (n : Nat) : gfPow a (n + 1) = gfMul a (gfPow a n) := rfl

theorem gfPow_add (a : Byte) (m n : Nat) : gfPow a (m + n) = gfMul (gfPow a m) (gfPow a n) := by
  induction m with
  | zero => rw [Nat.zero_add, gfPow_zero, one_gfMul]
  | succ m ih => rw [Nat.succ_add, gfPow_succ, gfPow_succ, ih, gfMul_assoc]

theorem gfPow_mul (a : Byte) (m n : Nat) : gfPow a (m * n) = gfPow (gfPow a m) n := by
  induction n with
  | zero => rfl
  | succ n ih => rw [Nat.mul_succ, Nat.add_comm, gfPow_add, ih, gfPow_succ]

@[simp] theorem one_gfPow (n : Nat) : gfPow 1 n = 1 := by
  induction n with
  | zero => rfl
  | succ n ih => rw [gfPow_succ, ih, gfMul_one]

/-- The powers of α = 0x02 come from one by doubling. -/
theorem gfPow_two_eq_iterate (n : Nat) : gfPow 2 n = gfDouble^[n] 1 := by
  induction n with
  | zero => rfl
  | succ n ih =>
    rw [gfPow_succ, Function.iterate_succ_apply', ih, show (2 : Byte) = gfDouble 1 from rfl, gfDouble_gfMul, one_gfMul]

/-! ### α generates the field -/

theorem gfPow_two_15 : gfPow 2 15 = 0x26 := by decide

theorem gfPow_two_17 : gfPow 2 17 = 0x98 := by decide

theorem gfPow_two_51 : gfPow 2 51 = 0x0A := by
  rw [show 51 = 17 * 3 from rfl, gfPow_mul, gfPow_two_17]
  decide

theorem gfPow_two_85 : gfPow 2 85 = 0xD6 := by
  rw [show 85 = 17 * 5 from rfl, gfPow_mul, gfPow_two_17]
  decide

theorem gfPow_two_255 : gfPow 2 255 = 1 := by
  rw [show 255 = 51 * 5 from rfl, gfPow_mul, gfPow_two_51]
  decide

theorem dvd_of_dvd_255 {d : Nat} (h : d ∣ 255) (hd : d ≠ 255) : d ∣ 15 ∨ d ∣ 51 ∨ d ∣ 85 := by
  have smaller : ∀ e ∈ Nat.divisors 255, e ≠ 255 → e ∣ 15 ∨ e ∣ 51 ∨ e ∣ 85 := by simp [Nat.divisors_ofNat]
  exact smaller d (by simpa using h) hd

/-- The order of α divides 255, but none of its largest proper divisors. -/
theorem minimalPeriod_gfDouble_one : Function.minimalPeriod gfDouble 1 = 255 := by
  have periodic {n : Nat} : Function.IsPeriodicPt gfDouble n 1 ↔ gfPow 2 n = 1 := by
    rw [gfPow_two_eq_iterate, Function.IsPeriodicPt, Function.IsFixedPt]
  have order {n : Nat} : Function.minimalPeriod gfDouble 1 ∣ n ↔ gfPow 2 n = 1 :=
    Function.isPeriodicPt_iff_minimalPeriod_dvd.symm.trans periodic
  by_contra proper
  rcases dvd_of_dvd_255 (order.mpr gfPow_two_255) proper with h | h | h
  · exact absurd (gfPow_two_15.symm.trans (order.mp h)) (by decide)
  · exact absurd (gfPow_two_51.symm.trans (order.mp h)) (by decide)
  · exact absurd (gfPow_two_85.symm.trans (order.mp h)) (by decide)

theorem iterate_gfDouble_ne_zero (n : Nat) : gfDouble^[n] 1 ≠ 0 := by
  induction n with
  | zero => decide
  | succ n ih => exact Function.iterate_succ_apply' gfDouble n 1 ▸ gfDouble_ne_zero _ ih

/-- Every nonzero byte is a power of α: 255 different ones fill the field. -/
theorem exists_gfPow_two {b : Byte} (h : b ≠ 0) : ∃ n, gfPow 2 n = b := by
  have maps : Set.MapsTo (gfDouble^[·] 1) (Finset.range 255) (Finset.univ.erase (0 : Byte)) := fun n _ => by
    simpa using iterate_gfDouble_ne_zero n
  have injective : Set.InjOn (gfDouble^[·] 1) (Finset.range 255 : Set Nat) := by
    rw [Finset.coe_range, ← minimalPeriod_gfDouble_one]
    exact Function.iterate_injOn_Iio_minimalPeriod
  have card : (Finset.univ.erase (0 : Byte)).card ≤ (Finset.range 255).card := by
    rw [Finset.card_erase_of_mem (Finset.mem_univ _), Finset.card_univ, ← FinEnum.card_eq_fintypeCard, FinEnum.card_bitVec,
      Finset.card_range]
    norm_num
  have fills := Finset.surjOn_of_injOn_of_card_le _ maps injective card
  obtain ⟨n, -, hn⟩ := fills (by simpa using h)
  exact ⟨n, (gfPow_two_eq_iterate n).trans hn⟩

theorem gfPow_255 {b : Byte} (h : b ≠ 0) : gfPow b 255 = 1 := by
  obtain ⟨n, rfl⟩ := exists_gfPow_two h
  rw [← gfPow_mul, Nat.mul_comm, gfPow_mul, gfPow_two_255, one_gfPow]

/-! ### Inverse and quotient -/

theorem gfMul_gfInv {b : Byte} (h : b ≠ 0) : gfMul b (gfInv b) = 1 := gfPow_255 h

theorem gfInv_gfMul {b : Byte} (h : b ≠ 0) : gfMul (gfInv b) b = 1 := by
  calc gfMul (gfInv b) b = gfMul (gfPow b 254) (gfPow b 1) := by rw [gfInv, gfPow_succ b 0, gfPow_zero, gfMul_one]
    _ = gfPow b 255 := (gfPow_add b 254 1).symm
    _ = 1 := gfPow_255 h

theorem gfMul_gfDiv {b : Byte} (h : b ≠ 0) (a : Byte) : gfMul (gfDiv a b) b = a := by
  rw [gfDiv, gfMul_assoc, gfInv_gfMul h, gfMul_one]

end Sys2Proof
end

section
/-! PROOFS. The check matrix (R107), a byte of a check row (R110, R113), the factor of a change in a region of one tier (R109, R114), and
the statements O54 and O55 put together from them and from the field. -/

namespace Sys2Proof

open Sys2Proof.Machine

/-! ### The check matrix (R107) -/

/-- x_j and y_i never meet: j is below 8, and 8 + i is 8 to 63. -/
theorem rowPoint_xor_columnPoint_ne_zero {i j : Nat} (hi : i ≤ 55) (hj : j ≤ 7) :
    BitVec.ofNat 8 j ^^^ BitVec.ofNat 8 (8 + i) ≠ 0 := by
  intro h
  have points : j % 256 = (8 + i) % 256 := congrArg BitVec.toNat (BitVec.xor_eq_zero_iff.mp h)
  omega

theorem coefficient_gfMul {i j : Nat} (hi : i ≤ 55) (hj : j ≤ 7) :
    gfMul (coefficient j i) (BitVec.ofNat 8 j ^^^ BitVec.ofNat 8 (8 + i)) = BitVec.ofNat 8 (8 + i) :=
  gfMul_gfDiv (rowPoint_xor_columnPoint_ne_zero hi hj) _

theorem coefficient_zero {i : Nat} (hi : i ≤ 55) : coefficient 0 i = 1 := by
  have nonzero := rowPoint_xor_columnPoint_ne_zero hi (Nat.zero_le 7)
  rw [BitVec.zero_xor] at nonzero
  rw [coefficient, BitVec.zero_xor, gfDiv, gfMul_gfInv nonzero]

/-! ### A byte of a check row (R110) -/

theorem checkByte_eq_foldl_mapIdx (j : Nat) (data : List Byte) :
    checkByte j data = (data.mapIdx fun i b => gfMul (coefficient j i) b).foldl (· ^^^ ·) 0 := by
  rw [checkByte, List.mapIdx_eq_zipIdx_map]

/-- Check row 0 is the exclusive OR of the data (R107). -/
theorem checkByte_zero {data : List Byte} (h : data.length ≤ 56) : checkByte 0 data = data.foldl (· ^^^ ·) 0 := by
  have terms : (data.zipIdx.map fun e => gfMul (coefficient 0 e.2) e.1) = data.zipIdx.map Prod.fst := by
    refine List.map_congr_left fun e he => ?_
    have index := (List.mem_zipIdx' he).1
    rw [coefficient_zero (by omega), one_gfMul]
  rw [checkByte, terms, List.zipIdx_map_fst]

/-- A sum changes by what one of its terms changes by. -/
theorem foldl_xor_set {l : List Byte} {i : Nat} {b : Byte} (h : l[i]? = some b) (b' init : Byte) :
    (l.set i b').foldl (· ^^^ ·) init = l.foldl (· ^^^ ·) init ^^^ (b ^^^ b') := by
  induction l generalizing i init with
  | nil => simp at h
  | cons x xs ih =>
    cases i with
    | zero =>
      obtain rfl : x = b := by simpa using h
      have change : init ^^^ b' = (x ^^^ b') ^^^ (init ^^^ x) := by
        calc init ^^^ b' = init ^^^ b' ^^^ (x ^^^ x) := by rw [BitVec.xor_self, BitVec.xor_zero]
          _ = (x ^^^ b') ^^^ (init ^^^ x) := by ac_rfl
      rw [List.set_cons_zero, List.foldl_cons, List.foldl_cons, change, List.foldl_assoc, BitVec.xor_comm]
    | succ i => exact ih (by simpa using h) (init ^^^ x)

/-- R113: the change of a data byte reaches the check row times its coefficient. -/
theorem checkByte_set (j : Nat) {i : Nat} {data : List Byte} {d : Byte} (h : data[i]? = some d) (d' : Byte) :
    checkByte j (data.set i d') = checkByte j data ^^^ gfMul (coefficient j i) (d ^^^ d') := by
  have term : (data.mapIdx fun i b => gfMul (coefficient j i) b)[i]? = some (gfMul (coefficient j i) d) := by simp [h]
  rw [checkByte_eq_foldl_mapIdx, checkByte_eq_foldl_mapIdx, List.mapIdx_set, foldl_xor_set term, gfMul_xor]

/-! ### The factor of a change in a region of one tier (R109, R114) -/

theorem Template.factor_of_oneTier {m : Template} {n k i j : Nat} (ht : m.tiers = [(n, k)]) (hd : 2 ≤ n - k) (hi : i < n - k)
    (hj : j < k) : m.factor i (n - k + j) = some (coefficient j i) := by
  have digit : digitsOf [(n, k)] i = [i] := by rw [digitsOf, digitsOf, Nat.mod_eq_of_lt (by omega)]
  have checkDigit : digitsOf [(n, k)] (n - k + j) = [n - k + j] := by rw [digitsOf, digitsOf, Nat.mod_eq_of_lt (by omega)]
  have moved : i ≠ n - k + j := by omega
  have reedSolomon : n - k ≠ 1 := by omega
  simpa [Template.factor, ht, digit, checkDigit, deltaFactor, tierData, moved, reedSolomon] using one_gfMul (coefficient j i)

/-! ### The statements -/

/-- Settles O54: a nonzero byte's power 254 is its inverse, so each coefficient is the quotient it stands for; those of row 0 divide y_i by
itself. -/
theorem coefficients : Obligations.Coefficients := by
  unfold Obligations.Coefficients
  refine ⟨fun i j hi hj => ?_, fun i hi => coefficient_zero hi, fun data h => checkByte_zero h⟩
  rw [BitVec.zero_xor]
  exact coefficient_gfMul hi hj

/-- Settles O55: the product distributes over the sum of the old byte and the new, and the region's one tier gives its one factor. -/
theorem checkRowDelta : Obligations.CheckRowDelta := by
  unfold Obligations.CheckRowDelta
  exact ⟨fun j i data d d' h => checkByte_set j h d', fun m n k i j _ ht hd hi hj => Template.factor_of_oneTier ht hd hi hj⟩

end Sys2Proof
end

section
/-! PROOFS. The queue and the time of a step (log entries 1, 2): what the front command does, that every command answers with both kept, and the
statements O1 and O3 put together from these. -/

namespace Sys2Proof.Machine

open Sys2Proof

/-! ### One command -/

theorem step_cons (c : Instr) (rest : List Instr) (s : State) :
    step { s with pending := c :: rest } = exec c { s with pending := rest } := rfl

/-- The outcome is a next state with the queue and the time of `s`. -/
def KeepsQueue (s : State) (o : Host.Outcome State Fault Refusal) : Prop :=
  ∃ t, o = .next t ∧ t.pending = s.pending ∧ t.now = s.now

theorem keepsQueue_act (s t : State) : KeepsQueue s (act s t) := ⟨_, rfl, rfl, rfl⟩

theorem keepsQueue_vaultAct (s t : State) : KeepsQueue s (vaultAct s t) :=
  ⟨_, rfl, State.keepVault_pending s t, State.keepVault_now s t⟩

theorem keepsQueue_setDevice (acc id : Nat) (s : State) (put : List Nat → Settings) (after : State → State) :
    KeepsQueue s (setDevice acc id s put after) := by
  unfold setDevice
  split
  · exact ⟨s, rfl, rfl, rfl⟩
  · exact ⟨_, rfl, rfl, rfl⟩

theorem exec_keepsQueue (c : Instr) (s : State) : KeepsQueue s (exec c s) := by
  cases c
  case setFeatureDirtyLimit acc => exact (keepsQueue_setDevice .. : KeepsQueue s (execSetFeatureDirtyLimit acc s))
  case setFeaturePatrolPeriod acc => exact (keepsQueue_setDevice .. : KeepsQueue s (execSetFeaturePatrolPeriod acc s))
  case setFeatureRefreshThreshold acc => exact (keepsQueue_setDevice .. : KeepsQueue s (execSetFeatureRefreshThreshold acc s))
  case setFeatureClassWeights acc => exact (keepsQueue_setDevice .. : KeepsQueue s (execSetFeatureClassWeights acc s))
  case setFeatureStallTimeout acc => exact (keepsQueue_setDevice .. : KeepsQueue s (execSetFeatureStallTimeout acc s))
  case setFeatureExportWait acc => exact (keepsQueue_setDevice .. : KeepsQueue s (execSetFeatureExportWait acc s))
  case setFeatureTimeBase acc => exact (keepsQueue_setDevice .. : KeepsQueue s (execSetFeatureTimeBase acc s))
  case vaultProgramComplete | vaultReadComplete | vaultEraseComplete | wearMoveCheck | garbageCollectionStart
      | percentUsedRecompute | vaultRequestTimeout | unitDown | unitUp | vaultOperationTimeout
      | logicDieResetExit | startupReady | arbTakeAssert | exportWait | dumpImport | pairingLinkFailure
      | arrayImport | deviceStart | volumeDelete | histogramIntervalEnd | recorderCommit
      | operatingSecondsSave | retireFlush | journalSpaceFreed | tileJobComplete
      | vaultCheckpoint | vaultBlockOpenable | patrolPassStart =>
    exact keepsQueue_vaultAct s _
  all_goals exact keepsQueue_act s _

/-! ### The queue drains -/

theorem step_keepsQueue {s : State} {c : Instr} {rest : List Instr} (h : s.pending = c :: rest) :
    ∃ t, step s = .next t ∧ t.pending = rest ∧ t.now = s.now := by
  rw [step, h]
  exact exec_keepsQueue c { s with pending := rest }

theorem run_succ_of_next {M : Host.Core} {k : Nat} {s t : M.State} (h : M.step s = .next t) : M.run (k + 1) s = M.run k t := by
  rw [Host.Core.run, h]

theorem run_drains {l : List Instr} : ∀ {s : State}, s.pending = l →
    ∃ t, Sys2Proof.core.run l.length s = .next t ∧ t.pending = [] ∧ t.now = s.now := by
  induction l with
  | nil => exact fun {s} h => ⟨s, rfl, h, rfl⟩
  | cons c rest ih =>
    intro s h
    obtain ⟨u, hu, left, time⟩ := step_keepsQueue h
    obtain ⟨t, ht, none, same⟩ := ih left
    exact ⟨t, (run_succ_of_next hu).trans ht, none, same.trans time⟩

/-! ### The statements -/

/-- Settles O1: the step takes the front command off the queue and runs it. -/
theorem stepRunsFrontCommand : Obligations.StepRunsFrontCommand := by
  unfold Obligations.StepRunsFrontCommand
  exact step_cons

/-- Settles O3: each row is of one of the three shapes, which keep queue and time, and the run drains by induction on the queue. -/
theorem everyCommandAnswers : Obligations.EveryCommandAnswers := by
  unfold Obligations.EveryCommandAnswers
  exact ⟨exec_keepsQueue, fun _ => run_drains rfl⟩

end Sys2Proof.Machine
end

section
/-! PROOFS. Rows of gather, commit, lookup, ABORT (R149, R152, R231, R617) and of the destage path (R178 to R182, R197, R199): what each does once
its guard is met, and the statements O11 and O12 put together from these. -/

namespace Sys2Proof.Machine

open Sys2Proof

/-! ### Commit, lookup, ABORT -/

theorem execGatherFramesAvailable_of_room {s : State} {k : Nat} {c : Cmd} {l : Store Cmd}
    (first : s.cmds.filter (fun (e : Nat × Cmd) => e.2.phase = Phase.gatherWait) = (k, c) :: l)
    (room : s.gatherRoom c.sqe.nblocks = true) (quiet : s.lehrOn = false) :
    execGatherFramesAvailable s = .next (s.keepOwned ((s.gather c).run)) := by
  simp [execGatherFramesAvailable, first, room, quiet]

theorem execWriteCommit_of_listed {s : State} {acc : Nat} {c : Cmd} (listed : s.cmds.look acc = some c) (quiet : s.lehrOn = false) :
    execWriteCommit acc s = .next (s.keepOwned ((if s.isVault c.sqe.vol then s.vaultCommit c else s.tryCommit acc).run)) := by
  simp [execWriteCommit, listed, quiet]

section

variable {s : State} {acc : Nat} {c t : Cmd}

theorem execAbort_of_start (start : s.startable acc 0x85 anyForm = some c) (found : s.abortTarget c = none) :
    execAbort acc s = .next (s.keepOwned (s.finish acc St.success 1).run) := by
  rw [execAbort, State.start_some _ start, found, act_eq]

theorem execAbort_of_late (start : s.startable acc 0x85 anyForm = some c) (found : s.abortTarget c = some t)
    (late : t.abortable = false) : execAbort acc s = .next (s.keepOwned (s.finish acc St.success 2).run) := by
  rw [execAbort, State.start_some _ start, found, act_eq]
  simp only [late, Bool.false_eq_true, if_false]

theorem execAbort_of_abortable (start : s.startable acc 0x85 anyForm = some c) (found : s.abortTarget c = some t)
    (inTime : t.abortable = true) :
    execAbort acc s
      = .next (s.keepOwned (((s.freeAll t.frames).finish t.acc St.aborted).finish acc St.success 0).run) := by
  rw [execAbort, State.start_some _ start, found, act_eq]
  simp only [inTime, if_true]

end

/-- Settles O11: each row past its guard, and ABORT by what it finds under the tag. -/
theorem commitLookupAbort : Obligations.CommitLookupAbort := by
  unfold Obligations.CommitLookupAbort
  refine ⟨fun _ _ _ _ first room quiet => execGatherFramesAvailable_of_room first room quiet,
    fun _ _ _ listed quiet => execWriteCommit_of_listed listed quiet, fun _ _ => rfl,
    fun _ _ _ start found => execAbort_of_start start found,
    fun _ _ _ _ start found late => execAbort_of_late start found late,
    fun _ _ _ _ start found inTime => execAbort_of_abortable start found inTime⟩

/-! ### Destage -/

theorem execStripeInterlockGrant_of_live {s : State} (live : s.live = true) (r k : Nat) :
    execStripeInterlockGrant r k s = .next (s.keepOwned (s.grantLock r k).run) := by
  simp [execStripeInterlockGrant, live]

theorem execDestageAgeLimit_of_old {s : State} {r k : Nat} (live : s.live = true) (new : s.wp.aged.contains (r, k) = false)
    (old : ∃ d v, d ∈ s.dirtyStripes ∧ d.region = r ∧ d.stripe = k ∧ s.volumes.look d.vol = some v
      ∧ d.oldest + v.ageLimit * 1000 < s.now) :
    execDestageAgeLimit r k s
      = .next (s.keepOwned ({ s with wp := { s.wp with aged := s.wp.aged ++ [(r, k)] } } : State).run) := by
  obtain ⟨d, v, mem, hr, hk, hv, late⟩ := old
  simp only [execDestageAgeLimit, act_eq]
  rw [if_neg]
  simp only [live, new, Bool.not_true, Bool.false_or, Bool.or_false, Bool.not_eq_true', Bool.not_eq_false, List.any_eq_true,
    Bool.and_eq_true, decide_eq_true_eq]
  exact ⟨d, mem, ⟨hr, hk⟩, by rw [hv]; exact decide_eq_true late⟩

theorem execDestageEntryFreed_of_free {s : State} {e : Nat} (live : s.live = true)
    (free : freeEntry s.table (s.table.length + 1) 0 = some e) :
    execDestageEntryFreed s = .next (s.keepOwned (s.over (s.waitingIn .entryWait) fun s t => s.tryRoom t).run) := by
  simp [execDestageEntryFreed, live, free]

theorem execStagingRunFreed_of_live {s : State} (live : s.live = true) :
    execStagingRunFreed s = .next (s.keepOwned (s.over (s.waitingIn .stagingWait) fun s t => s.tryRoom t).run) := by
  simp [execStagingRunFreed, live]

theorem execCommitStall_of_since {s : State} {t : Nat} (live : s.live = true) (since : s.wp.stallSince = some t)
    (first : s.wp.stallRecorded = false) (held : t + 1000000 ≤ s.now) :
    execCommitStall s
      = .next (s.keepOwned (({ s with wp := { s.wp with stallRecorded := true } } : State).event Ev.commitStall 0 s.dirtyMib
          s.stalledCmds.length 0)) := by
  simp [execCommitStall, live, since, first, Nat.not_lt.mpr held]

/-- Settles O12: each row of the destage path past its guard. -/
theorem destageRows : Obligations.DestageRows := by
  unfold Obligations.DestageRows
  exact ⟨fun _ r k live => execStripeInterlockGrant_of_live live r k, fun _ => rfl,
    fun _ _ _ live new old => execDestageAgeLimit_of_old live new old,
    fun _ _ live free => execDestageEntryFreed_of_free live free,
    fun _ live => execStagingRunFreed_of_live live,
    fun _ _ live since first held => execCommitStall_of_since live since first held⟩

end Sys2Proof.Machine
end

section
/-! PROOFS. Upkeep rows: frames, energy and streams (R147, R166, R167, R264, R268), the journal (R218 to R221) and the code tiles (R127, R135, R656),
each once its guard is met, and the statement O13 put together from these. -/

namespace Sys2Proof.Machine

open Sys2Proof

/-! ### Frames, energy and streams -/

section

variable {s : State}

theorem execReclaimSweep_of_due (live : s.live = true) (quiet : s.lehrOn = false) (due : s.wp.reclaim = true ∨ s.freeFrames < 262144) {t u : State}
    (ht : t = ({ s with wp := { s.wp with reclaim := true } } : State).over (s.streams.map (·.1)) fun s i => s.cancelUnits i)
    (hu : u = t.sweepList t.sweepOrder) :
    execReclaimSweep s
      = .next (s.keepOwned (if 524288 ≤ u.freeFrames then { u with wp := { u.wp with reclaim := false } } else u : State).run) := by
  have guard : ¬ (!s.live || s.lehrOn || (!s.wp.reclaim && decide (s.freeFrames ≥ 262144))) = true := by
    rcases due with on | few
    · simp [live, quiet, on]
    · simp [live, quiet, Nat.not_le.mpr few]
  rw [execReclaimSweep, if_neg guard, act_eq, hu, ht]

theorem execLrRecompute_of_due (live : s.live = true) (quiet : s.lehrOn = false) (due : s.wp.lrAt + 1000000 ≤ s.now) :
    execLrRecompute s
      = .next (s.keepOwned (({ s with wp := { s.wp with lrAt := s.now } } : State).energyNote.permissionCheck).run) := by
  simp [execLrRecompute, live, quiet, Nat.not_lt.mpr due]

theorem execPermissionReturnFull_of_live (live : s.live = true) (quiet : s.lehrOn = false) :
    execPermissionReturnFull s = .next (s.keepOwned s.permissionFull.run) := by
  simp [execPermissionReturnFull, live, quiet]

theorem execStreamIdle_of_idle {i : Nat} {x : Stream} (live : s.live = true) (listed : s.streams.look i = some x)
    (idle : x.at_ + 1000000 ≤ s.now) :
    execStreamIdle i s
      = .next (s.keepOwned ({ s.cancelUnits i with
          streams := (s.cancelUnits i).streams.upd i fun x => { x with active := false, waiting := [] } } : State).run) := by
  simp [execStreamIdle, live, listed, Nat.not_lt.mpr idle]

theorem execRunaheadFramesAvailable_of_live (live : s.live = true) (quiet : s.lehrOn = false) :
    execRunaheadFramesAvailable s
      = .next (s.keepOwned (s.over ((s.streams.filter fun e => e.2.waiting ≠ []).map (·.1)) fun s i => s.feedStream i).run) := by
  simp [execRunaheadFramesAvailable, live, quiet]

/-! ### The journal -/

theorem execRetireFlush_of_due (live : s.live = true) (queued : s.journal.retireQ.isEmpty = false)
    (due : s.journal.retireAt + 100 ≤ s.now) : execRetireFlush s = .next (s.keepVault s.retireNow) := by
  simp [execRetireFlush, live, List.isEmpty_eq_false_iff.mp queued, Nat.not_lt.mpr due]

theorem execJournalSpaceFreed_of_live (live : s.live = true) (quiet : s.lehrOn = false) :
    execJournalSpaceFreed s = .next (s.keepVault (if s.retireWaits then s.retireNow else s).journalRetry) := by
  by_cases waits : s.retireWaits = true <;> simp [execJournalSpaceFreed, live, quiet, waits]

theorem execJournalFull_of_late (live : s.live = true) (first : s.journal.fullRecorded = false)
    (late : s.journal.waiting.any (fun w => s.now ≥ w.since + 1000000) = true
      ∨ (s.retireWaits = true ∧ s.journal.retireAt + 1000100 ≤ s.now)) :
    exec .journalFull s
      = .next (s.keepOwned (({ s with journal := { s.journal with fullRecorded := true } } : State).event Ev.journalFull 0
          (s.ringUsed * 4096 / 2 ^ 20) ((s.journal.waiting.map fun (w : JWait) => w.imgs.length).sum + b2n s.retireWaits)
          ((match s.journal.recs.find? fun r => !r.2.allRetired with | some r => r.1 | none => s.journal.nextSeq) % 2 ^ 32))) := by
  have guard : ¬ (!s.live || !(s.retireWaits && decide (s.now ≥ s.journal.retireAt + 1000100)
      || s.journal.waiting.any fun w => s.now ≥ w.since + 1000000) || s.journal.fullRecorded) = true := by
    rcases late with waiting | ⟨retire, held⟩
    · rw [waiting]; simp [live, first]
    · simp [live, first, retire, held]
  exact congrArg (act s) (if_neg guard)

/-! ### Code tiles -/

theorem execTileJobComplete_of_running {tile : Nat} {j : Job} (words : List TileWord) (live : s.live = true) (quiet : s.lehrOn = false)
    (running : (s.tile tile).running = some j) :
    execTileJobComplete tile words s
      = .next (s.keepVault ((s.setTile tile { s.tile tile with running := none }.startNext).replyTo firmwareIsland (114 + tile) j.src
          fun s => s.jobReply tile j words)) := by
  simp [execTileJobComplete, live, quiet, running]

theorem execTileQueuePlaceFreed_of_live (live : s.live = true) (quiet : s.lehrOn = false) :
    execTileQueuePlaceFreed s
      = .next (s.keepOwned ((({ s with tileWait := [] } : State).over s.tileWait fun s j => s.resend j).run)) := by
  simp [execTileQueuePlaceFreed, live, quiet]

end

theorem State.replyTo_of_epoch {s : State} {requester : Nat} {src : BitVec 8} (responder : Nat) (f : State → State)
    (h : src = (s.island requester).epoch) : s.replyTo requester responder src f = f s := if_pos h

theorem State.replyTo_of_stale {s : State} {requester : Nat} {src : BitVec 8} (responder : Nat) (f : State → State)
    (h : src ≠ (s.island requester).epoch) : s.replyTo requester responder src f = s.dropStale requester responder 1 := if_neg h

/-- Settles O13: each row past its guard; a tile's reply is handled or dropped by its source epoch. -/
theorem upkeepRows : Obligations.UpkeepRows := by
  unfold Obligations.UpkeepRows
  refine ⟨⟨fun _ live quiet due => execReclaimSweep_of_due live quiet due rfl rfl,
      fun _ live quiet due => execLrRecompute_of_due live quiet due,
      fun _ live quiet => execPermissionReturnFull_of_live live quiet,
      fun _ _ _ live listed idle => execStreamIdle_of_idle live listed idle,
      fun _ live quiet => execRunaheadFramesAvailable_of_live live quiet⟩,
    fun _ live queued due => execRetireFlush_of_due live queued due,
    fun _ live quiet => execJournalSpaceFreed_of_live live quiet,
    fun _ live first late => execJournalFull_of_late live first late,
    fun s t tile j words live quiet running ht => ?tile,
    fun _ live quiet => execTileQueuePlaceFreed_of_live live quiet⟩
  case tile =>
    subst ht
    have row := execTileJobComplete_of_running words live quiet running
    exact ⟨fun present => row.trans (by rw [State.replyTo_of_epoch _ _ present]),
      fun old => row.trans (by rw [State.replyTo_of_stale _ _ old])⟩

end Sys2Proof.Machine
end

section
/-! PROOFS. SET_FEATURE: what each row does for a command that may start (R618), and the statements O16 and O17 put together from these. -/

namespace Sys2Proof.Machine

open Sys2Proof

/-- A SET_FEATURE that may start, of feature `id` with values in its ranges. -/
def State.sets (s : State) (acc id : Nat) (c : Cmd) : Prop :=
  s.startable acc 0x83 (fun e => e.feature = id && featureValuesOk id e.values) = some c

theorem State.setFeature_some {s : State} {acc id : Nat} {c : Cmd} (f : Cmd → State) (h : s.sets acc id c) : s.setFeature acc id f = f c :=
  State.start_some f h

theorem setDevice_some {s : State} {acc id : Nat} {c : Cmd} {put : List Nat → Settings} {after : State → State} (h : s.sets acc id c) :
    setDevice acc id s put after
      = actSet s (put c.sqe.values) ((after { s with settings := put c.sqe.values }).finish acc St.success).run := by
  rw [setDevice, show s.startable _ _ _ = _ from h]

section

variable {s : State} {acc : Nat} {c : Cmd}

/-! ### A volume's features -/

theorem execSetFeatureAckMode_of_sets (h : s.sets acc 1 c) :
    execSetFeatureAckMode acc s
      = .next (s.keepOwned (s.setVolume c fun v => { v with ackMode := (AckMode.ofCode (c.sqe.value 0)).getD v.ackMode }).run) := by
  rw [execSetFeatureAckMode, State.setFeature_some _ h, act_eq]

theorem execSetFeatureAgeLimit_of_sets (h : s.sets acc 2 c) :
    execSetFeatureAgeLimit acc s = .next (s.keepOwned (s.setVolume c fun v => { v with ageLimit := c.sqe.value 0 }).run) := by
  rw [execSetFeatureAgeLimit, State.setFeature_some _ h, act_eq]

theorem execSetFeatureLossAck_of_current {v : Volume} (h : s.sets acc 3 c) (listed : s.volumes.look (c.sqe.param 1) = some v)
    (current : v.lossSeq.toNat = c.sqe.value 0) {u : State}
    (hu : u = s.volEvent Ev.lossAck (c.sqe.param 1) (c.sqe.param 1) v.lossSeq.toNat v.loss.length) :
    execSetFeatureLossAck acc s
      = .next (s.keepOwned
          (((({ u with volumes := u.volumes.put (c.sqe.param 1)
                                    { v with cacheLost := false, loss := [], lossOverflow := false, lostBlocks := [] } }
            : State).noteVolume (c.sqe.param 1)).finishLogged acc St.success).run)) := by
  rw [execSetFeatureLossAck, State.setFeature_some _ h, act_eq, hu]
  simp only [listed, current, ne_eq, not_true_eq_false, if_false]

theorem execSetFeatureLossAck_of_stale {v : Volume} (h : s.sets acc 3 c) (listed : s.volumes.look (c.sqe.param 1) = some v)
    (stale : v.lossSeq.toNat ≠ c.sqe.value 0) :
    execSetFeatureLossAck acc s = .next (s.keepOwned (s.finish acc St.lossSeqStale).run) := by
  rw [execSetFeatureLossAck, State.setFeature_some _ h, act_eq]
  simp only [listed, ne_eq, stale, not_false_eq_true, if_true]

/-! ### A pool's features -/

theorem execSetFeatureHedge_of_sets (h : s.sets acc 5 c) :
    execSetFeatureHedge acc s
      = .next (s.keepOwned (s.setPool c fun x =>
          { x with hedgeMode := c.sqe.value 0, hedgeFixed := if c.sqe.value 0 = 1 then c.sqe.value 1 else x.hedgeFixed }).run) := by
  rw [execSetFeatureHedge, State.setFeature_some _ h, act_eq]

theorem execSetFeatureHardTimeout_of_sets (h : s.sets acc 6 c) :
    execSetFeatureHardTimeout acc s = .next (s.keepOwned (s.setPool c fun x => { x with hardTimeout := c.sqe.value 0 }).run) := by
  rw [execSetFeatureHardTimeout, State.setFeature_some _ h, act_eq]

theorem execSetFeatureMediaThreshold_of_sets (h : s.sets acc 7 c) :
    execSetFeatureMediaThreshold acc s = .next (s.keepOwned (s.setPool c fun x => { x with mediaThreshold := c.sqe.value 0 }).run) := by
  rw [execSetFeatureMediaThreshold, State.setFeature_some _ h, act_eq]

theorem execSetFeatureScrubPeriod_of_sets (h : s.sets acc 8 c) :
    execSetFeatureScrubPeriod acc s = .next (s.keepOwned (s.setPool c fun x => { x with scrubDays := c.sqe.value 0 }).run) := by
  rw [execSetFeatureScrubPeriod, State.setFeature_some _ h, act_eq]

/-! ### Features of an endpoint and of a function -/

theorem execSetFeatureTagBudget_of_sets (h : s.sets acc 11 c) :
    execSetFeatureTagBudget acc s
      = .next (s.keepOwned ((s.setEp (c.sqe.param 1)
          { s.ep (c.sqe.param 1) with tagBudget := c.sqe.value 0, entryTags := c.sqe.value 1 }).pump.finish acc St.success).run) := by
  rw [execSetFeatureTagBudget, State.setFeature_some _ h, act_eq]

theorem execSetFeatureMaxClass_of_sets (h : s.sets acc 13 c) :
    execSetFeatureMaxClass acc s
      = .next (s.keepOwned ((s.setFn c.target { s.fn c.target with maxClass := some (c.sqe.value 0) }).finish acc St.success).run) := by
  rw [execSetFeatureMaxClass, State.setFeature_some _ h, act_eq]

theorem execSetFeatureRateLimit_of_sets (h : s.sets acc 14 c) :
    execSetFeatureRateLimit acc s
      = .next (s.keepOwned ((s.setFn c.target { s.fn c.target with
          iopsLimit := c.sqe.value 0, iopsBurst := c.sqe.value 1, bwLimit := c.sqe.value 2, bwBurst := c.sqe.value 3,
          cmdTokens := c.sqe.value 1 * 1000000, byteTokens := c.sqe.value 3 * 1024, tokensAt := s.now }).finish acc St.success).run) := by
  rw [execSetFeatureRateLimit, State.setFeature_some _ h, act_eq]

end

/-- Settles O16: each row for a command that may start; LOSS_ACK by whether its LOSS_SEQ is the present one. -/
theorem objectFeatures : Obligations.ObjectFeatures := by
  unfold Obligations.ObjectFeatures
  exact fun s acc c => ⟨execSetFeatureAckMode_of_sets, execSetFeatureAgeLimit_of_sets,
    fun v u h listed current hu => execSetFeatureLossAck_of_current h listed current hu,
    fun v h listed stale => execSetFeatureLossAck_of_stale h listed stale,
    execSetFeatureHedge_of_sets, execSetFeatureHardTimeout_of_sets, execSetFeatureMediaThreshold_of_sets,
    execSetFeatureScrubPeriod_of_sets, execSetFeatureTagBudget_of_sets, execSetFeatureMaxClass_of_sets, execSetFeatureRateLimit_of_sets⟩

/-! ### Device settings -/

section

variable {s : State} {acc : Nat} {c : Cmd}

theorem execSetFeatureDirtyLimit_of_sets (h : s.sets acc 4 c) :
    execSetFeatureDirtyLimit acc s
      = actSet s { s.settings with lCfg := cappedLimit (c.sqe.param 2) s.vault.blocks }
          (({ s with settings := { s.settings with lCfg := cappedLimit (c.sqe.param 2) s.vault.blocks } }
            : State).limitApplied.finish acc St.success).run :=
  setDevice_some h

theorem execSetFeaturePatrolPeriod_of_sets (h : s.sets acc 9 c) :
    execSetFeaturePatrolPeriod acc s
      = actSet s { s.settings with patrolHours := c.sqe.param 2 }
          (({ s with settings := { s.settings with patrolHours := c.sqe.param 2 } } : State).finish acc St.success).run :=
  setDevice_some h

theorem execSetFeatureRefreshThreshold_of_sets (h : s.sets acc 10 c) :
    execSetFeatureRefreshThreshold acc s
      = actSet s { s.settings with refreshBits := c.sqe.param 2 }
          (({ s with settings := { s.settings with refreshBits := c.sqe.param 2 } } : State).finish acc St.success).run :=
  setDevice_some h

theorem execSetFeatureClassWeights_of_sets (h : s.sets acc 12 c) {x : Settings}
    (hx : x = { s.settings with
      high := field (c.sqe.param 2) 0 8, medium := field (c.sqe.param 2) 8 8, low := field (c.sqe.param 2) 16 8 }) :
    execSetFeatureClassWeights acc s = actSet s x (({ s with settings := x } : State).finish acc St.success).run := by
  rw [hx]
  exact setDevice_some h

theorem execSetFeatureStallTimeout_of_sets (h : s.sets acc 15 c) :
    execSetFeatureStallTimeout acc s
      = actSet s { s.settings with stallTimeout := c.sqe.param 2 }
          (({ s with settings := { s.settings with stallTimeout := c.sqe.param 2 } } : State).finish acc St.success).run :=
  setDevice_some h

theorem execSetFeatureExportWait_of_sets (h : s.sets acc 16 c) :
    execSetFeatureExportWait acc s
      = actSet s { s.settings with exportWait := c.sqe.param 2 }
          (({ s with settings := { s.settings with exportWait := c.sqe.param 2 } } : State).finish acc St.success).run :=
  setDevice_some h

/-- The record of a change still has the old form (R679). -/
theorem execSetFeatureTimeBase_of_change (h : s.sets acc 17 c) (change : s.settings.calendarBase ≠ decide (c.sqe.param 2 = 1)) :
    execSetFeatureTimeBase acc s
      = actSet s { s.settings with calendarBase := decide (c.sqe.param 2 = 1) }
          (({ s.event Ev.timeBase 0 (b2n (decide (c.sqe.param 2 = 1))) 0 0 with
            settings := { s.settings with calendarBase := decide (c.sqe.param 2 = 1) } } : State).finish acc St.success).run :=
  (setDevice_some h).trans (congrArg (fun u : State => actSet s _ (u.finish acc St.success).run) (if_neg change.symm))

/-- A value that the time base has already leaves every setting. -/
theorem execSetFeatureTimeBase_of_same (h : s.sets acc 17 c) (same : s.settings.calendarBase = decide (c.sqe.param 2 = 1)) :
    execSetFeatureTimeBase acc s = actSet s s.settings (s.finish acc St.success).run := by
  have unchanged : ({ s.settings with calendarBase := decide (c.sqe.param 2 = 1) } : Settings) = s.settings := by rw [← same]
  calc execSetFeatureTimeBase acc s
      = actSet s { s.settings with calendarBase := decide (c.sqe.param 2 = 1) }
          (({ s with settings := { s.settings with calendarBase := decide (c.sqe.param 2 = 1) } } : State).finish acc St.success).run :=
        (setDevice_some h).trans (congrArg (fun u : State => actSet s _ (u.finish acc St.success).run) (if_pos same.symm))
    _ = actSet s s.settings (s.finish acc St.success).run := by rw [unchanged]

end

/-- Settles O17: each row is the shared change of a setting; the time base by whether its value changes. -/
theorem deviceFeatures : Obligations.DeviceFeatures := by
  unfold Obligations.DeviceFeatures
  exact fun s acc c => ⟨fun h => ⟨_, execSetFeatureDirtyLimit_of_sets h, rfl⟩,
    fun h => ⟨_, execSetFeaturePatrolPeriod_of_sets h, rfl⟩,
    fun h => ⟨_, execSetFeatureRefreshThreshold_of_sets h, rfl⟩,
    fun h => ⟨_, _, execSetFeatureClassWeights_of_sets h rfl, rfl, rfl⟩,
    fun h => ⟨_, execSetFeatureStallTimeout_of_sets h, rfl⟩,
    fun h => ⟨_, execSetFeatureExportWait_of_sets h, rfl⟩,
    fun h change => ⟨_, execSetFeatureTimeBase_of_change h change, rfl⟩,
    fun h same => ⟨_, execSetFeatureTimeBase_of_same h same, rfl⟩⟩

end Sys2Proof.Machine
end

section
/-! PROOFS. The frame that a commit replaces and the one it installs (R142, R145): what the operations on chains, holds and frames leave of another
frame, what the superseded action leaves listed, and the statement O9 put together from these. -/

namespace Sys2Proof.Machine

open Sys2Proof

/-! ### What links and holds leave of a frame -/

/-- A frame without its place in a chain and its holds. -/
def Frame.core (x : Frame) : Frame := { x with next := none, holds := 0 }

/-- The frame listed at `j`, without its place in a chain and its holds. -/
def State.coreAt (s : State) (j : Nat) : Option Frame := (s.frames.look j).map Frame.core

theorem State.look_of_coreAt {s t : State} {j : Nat} {x : Frame} (same : t.coreAt j = s.coreAt j) (h : s.frames.look j = some x) :
    ∃ y, t.frames.look j = some y ∧ y.core = x.core := by
  rw [State.coreAt, State.coreAt, h] at same
  exact Option.map_eq_some_iff.mp same

theorem Frame.visible_of_core {x y : Frame} (h : x.core = y.core) : x.visible = y.visible := by
  have st : x.core.st = y.core.st := congrArg Frame.st h
  exact congrArg (fun st => decide (st = FrameSt.clean) || decide (st = FrameSt.dirty) || decide (st = FrameSt.destaging)) st

theorem State.coreAt_updFrame_other (s : State) {f j : Nat} (g : Frame → Frame) (h : f ≠ j) : (s.updFrame f g).coreAt j = s.coreAt j := by
  rw [State.coreAt, State.updFrame, Store.look_upd, if_neg h, State.coreAt]

theorem State.coreAt_updFrame_same (s : State) (f j : Nat) {g : Frame → Frame} (hg : ∀ x, (g x).core = x.core) :
    (s.updFrame f g).coreAt j = s.coreAt j := by
  rw [State.coreAt, State.updFrame, Store.look_upd, State.coreAt]
  split
  · rw [Option.map_map]; exact congrArg (fun k => Option.map k _) (funext hg)
  · rfl

theorem State.look_updFrame (s : State) {f : Nat} (g : Frame → Frame) : (s.updFrame f g).frames.look f = (s.frames.look f).map g := by
  rw [State.updFrame, Store.look_upd, if_pos rfl]

/-- A chain that is written back changes NEXT fields alone. -/
theorem State.coreAt_setChain (s : State) (b : Nat) (l : List Nat) (j : Nat) : (s.setChain b l).coreAt j = s.coreAt j := by
  simp only [State.coreAt, State.setChain]
  generalize l.zip _ = links
  induction links generalizing s with
  | nil => rfl
  | cons e links ih =>
    exact (ih (s.updFrame e.1 fun x => { x with next := e.2 })).trans (s.coreAt_updFrame_same _ _ fun _ => rfl)

theorem State.coreAt_chainIn (s : State) (f j : Nat) : (s.chainIn f).coreAt j = s.coreAt j := by
  unfold State.chainIn
  split
  · rfl
  · exact s.coreAt_setChain _ _ j

theorem State.coreAt_holdAll (s : State) (l : List Nat) (j : Nat) : (s.holdAll l).coreAt j = s.coreAt j := by
  refine @State.over_keeps _ (fun u => u.coreAt j = s.coreAt j) _ l (fun u f _ h => ?_) s rfl
  refine (u.coreAt_updFrame_same f j ?_).trans h
  exact fun _ => rfl

/-! ### Frames that are freed, settled or superseded -/

@[simp] theorem State.look_freeFrame (s : State) (f : Nat) : (s.freeFrame f).frames.look f = none := by
  unfold State.freeFrame
  split
  · assumption
  · simp [Store.look_del]

theorem State.coreAt_freeFrame (s : State) {f j : Nat} (h : f ≠ j) : (s.freeFrame f).coreAt j = s.coreAt j := by
  unfold State.freeFrame
  split
  · rfl
  · rw [State.coreAt, Store.look_del, if_neg h]
    split
    · exact s.coreAt_setChain _ _ j
    · rfl

theorem State.coreAt_settleFrame (s : State) {f j : Nat} (h : f ≠ j) : (s.settleFrame f).coreAt j = s.coreAt j := by
  unfold State.settleFrame
  split
  · split
    · exact s.coreAt_freeFrame h
    · rfl
  · rfl

theorem State.look_settleFrame {s : State} {f : Nat} {z : Frame} (h : (s.settleFrame f).frames.look f = some z) :
    s.frames.look f = some z := by
  unfold State.settleFrame at h
  split at h
  · split at h
    · rw [State.look_freeFrame] at h; cases h
    · exact h
  · exact h

theorem State.coreAt_supersede (s : State) {f j : Nat} (h : f ≠ j) : (s.supersede f).coreAt j = s.coreAt j := by
  unfold State.supersede
  split
  · rfl
  · split
    · exact s.coreAt_freeFrame h
    · exact (State.coreAt_settleFrame _ h).trans (s.coreAt_updFrame_other _ h)

/-- What the superseded action leaves listed is SUPERSEDED (R145). -/
theorem State.st_supersede {s : State} {f : Nat} {z : Frame} (h : (s.supersede f).frames.look f = some z) : z.st = .superseded := by
  unfold State.supersede at h
  split at h
  · rename_i none; rw [none] at h; cases h
  · split at h
    · rw [State.look_freeFrame] at h; cases h
    · have settled := State.look_settleFrame h
      rw [State.look_updFrame] at settled
      obtain ⟨x, -, rfl⟩ := Option.map_eq_some_iff.mp settled
      rfl

/-! ### The frame that a commit replaces -/

/-- The superseded action of a commit is that of the visible frame, on a state with the same frames but for holds and the visible
one's ABSORBED. -/
theorem State.replaceBy_visible {s : State} {vol lba o : Nat} {x : Frame} (h : s.visible vol lba = some (o, x)) (f r k : Nat) :
    ∃ u : State, s.replaceBy f vol lba r k = u.supersede o ∧ ∀ j, o ≠ j → u.coreAt j = s.coreAt j := by
  unfold State.replaceBy
  rw [h]
  dsimp only
  split
  · split_ifs
    · exact ⟨_, rfl, fun j hj => (State.coreAt_updFrame_other _ _ hj).trans (State.coreAt_holdAll _ _ j)⟩
    · exact ⟨s, rfl, fun _ _ => rfl⟩
  · exact ⟨s, rfl, fun _ _ => rfl⟩

theorem State.coreAt_replaceBy {s : State} {vol lba j : Nat} (h : ∀ o x, s.visible vol lba = some (o, x) → o ≠ j) (f r k : Nat) :
    (s.replaceBy f vol lba r k).coreAt j = s.coreAt j := by
  cases hv : s.visible vol lba with
  | none => rw [State.replaceBy, hv]
  | some e =>
    obtain ⟨o, x⟩ := e
    obtain ⟨u, hu, same⟩ := State.replaceBy_visible hv f r k
    rw [hu, State.coreAt_supersede u (h o x hv), same j (h o x hv)]

/-! ### The statement -/

section

variable {s : State} {vol f : Nat} {x : Frame}

/-- The state in which a commit's frame takes its place, once the visible one has given way. -/
theorem State.installFrame_listed (h : s.frames.look f = some x) (v : Volume) (gen : BitVec 32) :
    ∃ u : State, u.frames = (s.replaceBy f vol x.lba (s.locate v x.lba).region (s.locate v x.lba).stripe).frames
      ∧ s.installFrame vol v gen f = (u.updFrame f fun y => { y with st := .dirty, gen := gen, dirtyAt := u.now }).chainIn f := by
  unfold State.installFrame
  rw [h]
  refine ⟨_, ?_, rfl⟩
  rfl

theorem State.installFrame_dirty (h : s.frames.look f = some x) (other : ∀ o y, s.visible vol x.lba = some (o, y) → o ≠ f) (v : Volume)
    (gen : BitVec 32) :
    ∃ y, (s.installFrame vol v gen f).frames.look f = some y ∧ y.st = .dirty ∧ y.gen = gen ∧ y.vol = x.vol ∧ y.lba = x.lba
      ∧ y.data = x.data := by
  obtain ⟨u, hu, hi⟩ := State.installFrame_listed h v gen
  have kept : u.coreAt f = s.coreAt f := by rw [State.coreAt, hu]; exact State.coreAt_replaceBy other f _ _
  obtain ⟨x', hx', same⟩ := State.look_of_coreAt kept h
  have sameVol : x'.core.vol = x.core.vol := congrArg Frame.vol same
  have sameLba : x'.core.lba = x.core.lba := congrArg Frame.lba same
  have sameData : x'.core.data = x.core.data := congrArg Frame.data same
  rw [hi]
  obtain ⟨y, hy, core⟩ := State.look_of_coreAt (State.coreAt_chainIn _ f f)
    ((State.look_updFrame u fun y => { y with st := .dirty, gen := gen, dirtyAt := u.now }).trans (congrArg _ hx'))
  exact ⟨y, hy, congrArg Frame.st core, congrArg Frame.gen core, (congrArg Frame.vol core).trans sameVol,
    (congrArg Frame.lba core).trans sameLba, (congrArg Frame.data core).trans sameData⟩

theorem State.installFrame_supersedes (h : s.frames.look f = some x) (v : Volume) (gen : BitVec 32) {o : Nat} {y z : Frame}
    (vis : s.visible vol x.lba = some (o, y)) (other : o ≠ f) (hz : (s.installFrame vol v gen f).frames.look o = some z) :
    z.visible = false := by
  obtain ⟨u, hu, hi⟩ := State.installFrame_listed h v gen
  rw [hi] at hz
  have kept : u.coreAt o = ((u.updFrame f fun y => { y with st := .dirty, gen := gen, dirtyAt := u.now }).chainIn f).coreAt o :=
    ((State.coreAt_chainIn _ f o).trans (u.coreAt_updFrame_other _ other.symm)).symm
  obtain ⟨w, hw, core⟩ := State.look_of_coreAt kept hz
  obtain ⟨t, ht, -⟩ := State.replaceBy_visible vis f (s.locate v x.lba).region (s.locate v x.lba).stripe
  rw [hu, ht] at hw
  rw [← Frame.visible_of_core core, Frame.visible, State.st_supersede hw]
  rfl

theorem State.fillDone_of_visible (h : s.frames.look f = some x) (filling : x.st = .filling) (vis : (s.visible x.vol x.lba).isSome = true)
    (b : Block) : s.fillDone f (some b) = s.freeFrame f := by
  simp only [State.fillDone, h, filling, ne_eq, not_true_eq_false, if_false, vis, if_true]

end

/-- Settles O9: the visible frame takes the superseded action before the gathered one is installed, and neither touches the other. -/
theorem commitSupersedesVisibleFrame : Obligations.CommitSupersedesVisibleFrame := by
  unfold Obligations.CommitSupersedesVisibleFrame
  refine ⟨fun s vol f v gen x listed other => ⟨State.installFrame_dirty listed other v gen, fun o y z vis hz => ?_⟩,
    fun s f x b listed filling vis => ?_⟩
  · exact State.installFrame_supersedes listed v gen vis (other o y vis) hz
  · rw [State.fillDone_of_visible listed filling vis, State.look_freeFrame]

end Sys2Proof.Machine
end

section
/-! PROOFS. The invariant of the tables (log entry 40) and the frames (R138), and the steps by which a proof about it follows a definition. -/

namespace Sys2Proof.Machine

open Sys2Proof

/-! ### The frames of the cache -/

/-- The frame table is canonical and lists frames of the cache alone (R138). -/
def FramesOk (m : Store Frame) : Prop := m.wf = true ∧ ∀ f ∈ m.keys, f < frameTotal

theorem FramesOk.of_keys {m m' : Store Frame} (h : FramesOk m) (hk : m'.keys = m.keys) : FramesOk m' :=
  ⟨Store.wf_of_keys_eq hk h.1, hk ▸ h.2⟩

theorem FramesOk.nil : FramesOk [] := ⟨rfl, nofun⟩

theorem FramesOk.upd {m : Store Frame} (k : Nat) (g : Frame → Frame) (h : FramesOk m) : FramesOk (m.upd k g) :=
  h.of_keys (Store.keys_upd m k g)

theorem FramesOk.each {m : Store Frame} (g : Nat → Frame → Frame) (h : FramesOk m) : FramesOk (m.each g) :=
  h.of_keys (Store.keys_each m g)

theorem FramesOk.keep {m : Store Frame} (q : Nat → Frame → Bool) (h : FramesOk m) : FramesOk (m.keep q) :=
  ⟨Store.wf_keep q h.1, fun f hf => h.2 f ((List.filter_sublist.map _).subset hf)⟩

theorem FramesOk.del {m : Store Frame} (k : Nat) (h : FramesOk m) : FramesOk (m.del k) :=
  Store.del_eq_keep m k ▸ h.keep _

theorem FramesOk.foldl {α : Type} {l : List α} {g : Store Frame → α → Store Frame} {m : Store Frame} (h : FramesOk m)
    (turn : ∀ m a, FramesOk m → FramesOk (g m a)) : FramesOk (l.foldl g m) :=
  List.foldlRecOn l g h fun m hm a _ => turn m a hm

theorem FramesOk.put {m : Store Frame} {k : Nat} (x : Frame) (h : FramesOk m) (hk : k < frameTotal) : FramesOk (m.put k x) := by
  refine ⟨Store.wf_put k x h.1, fun f hf => ?_⟩
  obtain ⟨e, he, rfl⟩ := List.mem_map.mp hf
  rcases Store.mem_put he with rfl | he
  · exact hk
  · exact h.2 e.1 (List.mem_map_of_mem he)

/-! ### Every table -/

theorem Store.wf_foldl {α β : Type} {l : List α} {g : Store β → α → Store β} {m : Store β} (h : m.wf = true)
    (turn : ∀ m a, m.wf = true → (g m a).wf = true) : (l.foldl g m).wf = true :=
  List.foldlRecOn l g h fun m hm a _ => turn m a hm


/-- Every table of the state is canonical (log entry 40), the region table of a held dump too. -/
structure State.TablesOk (s : State) : Prop where
  eps : s.eps.wf = true
  fns : s.fns.wf = true
  sqs : s.sqs.wf = true
  cqs : s.cqs.wf = true
  cmds : s.cmds.wf = true
  templates : s.templates.wf = true
  pools : s.pools.wf = true
  members : s.members.wf = true
  volumes : s.volumes.wf = true
  regions : s.regions.wf = true
  work : s.work.wf = true
  frames : FramesOk s.frames
  heads : s.heads.wf = true
  locks : s.locks.wf = true
  tasks : s.tasks.wf = true
  table : s.table.wf = true
  staging : s.staging.wf = true
  parisons : s.parisons.wf = true
  streams : s.streams.wf = true
  tiles : s.tiles.wf = true
  ports : s.ports.wf = true
  islands : s.islands.wf = true
  suspects : s.suspects.wf = true
  learned : s.learned.wf = true
  dump : ∀ d ∈ s.life.dump, d.regions.wf = true

theorem State.tablesOk_iff (s : State) : s.tablesOk = true ↔ s.TablesOk := by
  have hdump : (match s.life.dump with | some d => d.regions.wf | none => true) = true ↔ ∀ d ∈ s.life.dump, d.regions.wf = true := by
    cases s.life.dump <;> simp
  have hkeys : s.frames.keys.all (· < frameTotal) = true ↔ ∀ f ∈ s.frames.keys, f < frameTotal := by simp
  constructor
  · intro h
    simp only [State.tablesOk, Bool.and_eq_true, and_assoc] at h
    obtain ⟨eps, fns, sqs, cqs, cmds, templates, pools, members, volumes, regions, work, frames, heads, locks, tasks, table, staging,
      parisons, streams, tiles, ports, islands, suspects, learned, dump, keys⟩ := h
    exact ⟨eps, fns, sqs, cqs, cmds, templates, pools, members, volumes, regions, work, ⟨frames, hkeys.mp keys⟩, heads, locks, tasks, table,
      staging, parisons, streams, tiles, ports, islands, suspects, learned, hdump.mp dump⟩
  · rintro ⟨eps, fns, sqs, cqs, cmds, templates, pools, members, volumes, regions, work, ⟨frames, keys⟩, heads, locks, tasks, table,
      staging, parisons, streams, tiles, ports, islands, suspects, learned, dump⟩
    simp only [State.tablesOk, Bool.and_eq_true, and_assoc]
    exact ⟨eps, fns, sqs, cqs, cmds, templates, pools, members, volumes, regions, work, frames, heads, locks, tasks, table, staging,
      parisons, streams, tiles, ports, islands, suspects, learned, hdump.mpr dump, hkeys.mpr keys⟩

/-! ### How a proof follows a definition -/

section

variable {s t u v : State}

theorem State.TablesOk.ite {c : Prop} [Decidable c] (ht : t.TablesOk) (hu : u.TablesOk) : (if c then t else u).TablesOk := by
  split
  · exact ht
  · exact hu

theorem State.TablesOk.iteSnd {α : Type} {c : Prop} [Decidable c] {a b : α × State} (ha : a.2.TablesOk) (hb : b.2.TablesOk) :
    (if c then a else b).2.TablesOk := by
  split
  · exact ha
  · exact hb

theorem State.TablesOk.iteSndSnd {α β : Type} {c : Prop} [Decidable c] {a b : α × β × State} (ha : a.2.2.TablesOk) (hb : b.2.2.TablesOk) :
    (if c then a else b).2.2.TablesOk := by
  split
  · exact ha
  · exact hb

theorem State.TablesOk.via {P : Prop} (rest : v.TablesOk → P) (h : v.TablesOk) : P := rest h

theorem State.TablesOk.andThen {P : Prop} (h : v.TablesOk) (rest : v.TablesOk → P) : P := rest h

theorem State.TablesOk.over {α : Type} {l : List α} {f : State → α → State} (h : s.TablesOk)
    (turn : ∀ s a, s.TablesOk → (f s a).TablesOk) : (s.over l f).TablesOk :=
  State.over_keeps f l (fun u a _ hu => turn u a hu) s h

theorem State.TablesOk.foldl {α : Type} {l : List α} {f : State → α → State} (h : s.TablesOk)
    (turn : ∀ s a, s.TablesOk → (f s a).TablesOk) : (l.foldl f s).TablesOk := h.over turn

theorem State.TablesOk.foldlSnd {α β : Type} {l : List α} {f : β × State → α → β × State} {b : β × State} (h : b.2.TablesOk)
    (turn : ∀ b a, b.2.TablesOk → (f b a).2.TablesOk) : (l.foldl f b).2.TablesOk :=
  List.foldlRecOn l f (motive := fun b => b.2.TablesOk) h fun b hb a _ => turn b a hb

/-- A turn is given with what it answers, so that the kernel compares the two and does not evaluate the turn. -/
theorem State.TablesOk.foldlSndTo {α β : Type} {l : List α} {f : β × State → α → β × State} {b : β × State} (h : b.2.TablesOk)
    (turn : ∀ b a c, b.2.TablesOk → f b a = c → c.2.TablesOk) : (l.foldl f b).2.TablesOk :=
  h.foldlSnd fun b a hb => turn b a _ hb rfl

theorem State.TablesOk.foldlSndSnd {α β γ : Type} {l : List α} {f : β × γ × State → α → β × γ × State} {b : β × γ × State}
    (h : b.2.2.TablesOk) (turn : ∀ b a, b.2.2.TablesOk → (f b a).2.2.TablesOk) : (l.foldl f b).2.2.TablesOk :=
  List.foldlRecOn l f (motive := fun b => b.2.2.TablesOk) h fun b hb a _ => turn b a hb

/-- Tables outside an update stay. -/
theorem State.TablesOk.frame (h : s.TablesOk) {pending now choice fresh out nextId nextAcc todo pair settings wp tileWait journal vault
    pack link gov recorder sb mgmt} :
    State.TablesOk { s with
      pending := pending, now := now, choice := choice, fresh := fresh, out := out, nextId := nextId, nextAcc := nextAcc, todo := todo,
      pair := pair, settings := settings, wp := wp, tileWait := tileWait, journal := journal, vault := vault,
      pack := pack, link := link, gov := gov, recorder := recorder, sb := sb, mgmt := mgmt } :=
  { h with }

/-- Tables outside an update of the life that keeps its dump stay. -/
theorem State.TablesOk.lived (h : s.TablesOk) {pending now choice fresh out nextId nextAcc todo life pair settings wp tileWait journal vault
    pack link gov recorder sb mgmt} (held : life.dump = s.life.dump) :
    State.TablesOk { s with
      pending := pending, now := now, choice := choice, fresh := fresh, out := out, nextId := nextId, nextAcc := nextAcc, todo := todo,
      life := life, pair := pair, settings := settings, wp := wp, tileWait := tileWait, journal := journal, vault := vault,
      pack := pack, link := link, gov := gov, recorder := recorder, sb := sb, mgmt := mgmt } :=
  { h with dump := by rw [held]; exact h.dump }

/-- A life with a canonical dump, where the update takes it from another state. -/
theorem State.TablesOk.withLife (h : s.TablesOk) {life : Life} (hd : ∀ d ∈ life.dump, d.regions.wf = true) :
    State.TablesOk { s with life := life } :=
  { h with dump := hd }

theorem State.TablesOk.ofSnd {α : Type} {x : α × State} {a : α} (hx : x = (a, s)) (h : x.2.TablesOk) : s.TablesOk := by
  subst hx
  exact h

theorem State.TablesOk.ofSndSnd {α β : Type} {x : α × β × State} {a : α} {b : β} (hx : x = (a, b, s)) (h : x.2.2.TablesOk) :
    s.TablesOk := by
  subst hx
  exact h

/-- A loop on fuel, taken at its recursor: the kernel would evaluate the partition of a list with a head to unfold the loop's equation. -/
theorem State.TablesOk.brecOn {F : (n : Nat) → Nat.below (motive := fun _ => State → State) n → State → State}
    (zero : ∀ b s, s.TablesOk → (F 0 b s).TablesOk)
    (succ : ∀ n (b : Nat.below (motive := fun _ => State → State) (n + 1)), (∀ s, s.TablesOk → (b.1 s).TablesOk) →
      ∀ s, s.TablesOk → (F (n + 1) b s).TablesOk) (n : Nat) :
    ∀ s, s.TablesOk → (Nat.brecOn (motive := fun _ => State → State) n F s).TablesOk := by
  induction n with
  | zero => exact fun s h => zero _ s h
  | succ n ih => exact fun s h => succ n _ ih s h

/-! ### One entry of one table -/

theorem State.TablesOk.sqsPut (h : s.TablesOk) {k x} : State.TablesOk { s with sqs := s.sqs.put k x } :=
  { h with sqs := Store.wf_put _ _ h.sqs }

theorem State.TablesOk.cqsPut (h : s.TablesOk) {k x} : State.TablesOk { s with cqs := s.cqs.put k x } :=
  { h with cqs := Store.wf_put _ _ h.cqs }

theorem State.TablesOk.cmdsDel (h : s.TablesOk) {k} : State.TablesOk { s with cmds := s.cmds.del k } :=
  { h with cmds := Store.wf_del _ h.cmds }

theorem State.TablesOk.templatesDel (h : s.TablesOk) {k} : State.TablesOk { s with templates := s.templates.del k } :=
  { h with templates := Store.wf_del _ h.templates }

theorem State.TablesOk.templatesPut (h : s.TablesOk) {k x} : State.TablesOk { s with templates := s.templates.put k x } :=
  { h with templates := Store.wf_put _ _ h.templates }

theorem State.TablesOk.poolsEach (h : s.TablesOk) {g} : State.TablesOk { s with pools := s.pools.each g } :=
  { h with pools := Store.wf_each _ h.pools }

theorem State.TablesOk.poolsPut (h : s.TablesOk) {k x} : State.TablesOk { s with pools := s.pools.put k x } :=
  { h with pools := Store.wf_put _ _ h.pools }

theorem State.TablesOk.poolsUpd (h : s.TablesOk) {k f} : State.TablesOk { s with pools := s.pools.upd k f } :=
  { h with pools := Store.wf_upd _ _ h.pools }

theorem State.TablesOk.membersEach (h : s.TablesOk) {g} : State.TablesOk { s with members := s.members.each g } :=
  { h with members := Store.wf_each _ h.members }

theorem State.TablesOk.membersKeep (h : s.TablesOk) {q} : State.TablesOk { s with members := s.members.keep q } :=
  { h with members := Store.wf_keep _ h.members }

theorem State.TablesOk.membersPut (h : s.TablesOk) {k x} : State.TablesOk { s with members := s.members.put k x } :=
  { h with members := Store.wf_put _ _ h.members }

theorem State.TablesOk.membersUpd (h : s.TablesOk) {k f} : State.TablesOk { s with members := s.members.upd k f } :=
  { h with members := Store.wf_upd _ _ h.members }

theorem State.TablesOk.volumesDel (h : s.TablesOk) {k} : State.TablesOk { s with volumes := s.volumes.del k } :=
  { h with volumes := Store.wf_del _ h.volumes }

theorem State.TablesOk.volumesEach (h : s.TablesOk) {g} : State.TablesOk { s with volumes := s.volumes.each g } :=
  { h with volumes := Store.wf_each _ h.volumes }

theorem State.TablesOk.volumesPut (h : s.TablesOk) {k x} : State.TablesOk { s with volumes := s.volumes.put k x } :=
  { h with volumes := Store.wf_put _ _ h.volumes }

theorem State.TablesOk.volumesUpd (h : s.TablesOk) {k f} : State.TablesOk { s with volumes := s.volumes.upd k f } :=
  { h with volumes := Store.wf_upd _ _ h.volumes }

theorem State.TablesOk.regionsPutD (h : s.TablesOk) {d k x} : State.TablesOk { s with regions := s.regions.putD d k x } :=
  { h with regions := Store.wf_putD _ _ _ h.regions }

theorem State.TablesOk.workPutD (h : s.TablesOk) {d k x} : State.TablesOk { s with work := s.work.putD d k x } :=
  { h with work := Store.wf_putD _ _ _ h.work }

theorem State.TablesOk.framesDel (h : s.TablesOk) {k} : State.TablesOk { s with frames := s.frames.del k } :=
  { h with frames := FramesOk.del _ h.frames }

theorem State.TablesOk.framesEach (h : s.TablesOk) {g} : State.TablesOk { s with frames := s.frames.each g } :=
  { h with frames := FramesOk.each _ h.frames }

theorem State.TablesOk.framesKeep (h : s.TablesOk) {q} : State.TablesOk { s with frames := s.frames.keep q } :=
  { h with frames := FramesOk.keep _ h.frames }

theorem State.TablesOk.framesUpd (h : s.TablesOk) {k f} : State.TablesOk { s with frames := s.frames.upd k f } :=
  { h with frames := FramesOk.upd _ _ h.frames }

theorem State.TablesOk.locksPutD (h : s.TablesOk) {d k x} : State.TablesOk { s with locks := s.locks.putD d k x } :=
  { h with locks := Store.wf_putD _ _ _ h.locks }

theorem State.TablesOk.tasksDel (h : s.TablesOk) {k} : State.TablesOk { s with tasks := s.tasks.del k } :=
  { h with tasks := Store.wf_del _ h.tasks }

theorem State.TablesOk.tasksEach (h : s.TablesOk) {g} : State.TablesOk { s with tasks := s.tasks.each g } :=
  { h with tasks := Store.wf_each _ h.tasks }

theorem State.TablesOk.tasksPut (h : s.TablesOk) {k x} : State.TablesOk { s with tasks := s.tasks.put k x } :=
  { h with tasks := Store.wf_put _ _ h.tasks }

theorem State.TablesOk.tasksUpd (h : s.TablesOk) {k f} : State.TablesOk { s with tasks := s.tasks.upd k f } :=
  { h with tasks := Store.wf_upd _ _ h.tasks }

theorem State.TablesOk.tableDel (h : s.TablesOk) {k} : State.TablesOk { s with table := s.table.del k } :=
  { h with table := Store.wf_del _ h.table }

theorem State.TablesOk.tablePut (h : s.TablesOk) {k x} : State.TablesOk { s with table := s.table.put k x } :=
  { h with table := Store.wf_put _ _ h.table }

theorem State.TablesOk.stagingKeep (h : s.TablesOk) {q} : State.TablesOk { s with staging := s.staging.keep q } :=
  { h with staging := Store.wf_keep _ h.staging }

theorem State.TablesOk.parisonsDel (h : s.TablesOk) {k} : State.TablesOk { s with parisons := s.parisons.del k } :=
  { h with parisons := Store.wf_del _ h.parisons }

theorem State.TablesOk.parisonsPut (h : s.TablesOk) {k x wp} :
    State.TablesOk { s with parisons := s.parisons.put k x, wp := wp } :=
  { h with parisons := Store.wf_put _ _ h.parisons }

theorem State.TablesOk.parisonsUpd (h : s.TablesOk) {k f} : State.TablesOk { s with parisons := s.parisons.upd k f } :=
  { h with parisons := Store.wf_upd _ _ h.parisons }

theorem State.TablesOk.streamsDel (h : s.TablesOk) {k} : State.TablesOk { s with streams := s.streams.del k } :=
  { h with streams := Store.wf_del _ h.streams }

theorem State.TablesOk.streamsPut (h : s.TablesOk) {k x} : State.TablesOk { s with streams := s.streams.put k x } :=
  { h with streams := Store.wf_put _ _ h.streams }

theorem State.TablesOk.streamsUpd (h : s.TablesOk) {k f} : State.TablesOk { s with streams := s.streams.upd k f } :=
  { h with streams := Store.wf_upd _ _ h.streams }

theorem State.TablesOk.portsEach (h : s.TablesOk) {g} : State.TablesOk { s with ports := s.ports.each g } :=
  { h with ports := Store.wf_each _ h.ports }

theorem State.TablesOk.suspectsPut (h : s.TablesOk) {k x} : State.TablesOk { s with suspects := s.suspects.put k x } :=
  { h with suspects := Store.wf_put _ _ h.suspects }

theorem State.TablesOk.learnedKeep (h : s.TablesOk) {q} : State.TablesOk { s with learned := s.learned.keep q } :=
  { h with learned := Store.wf_keep _ h.learned }

theorem State.TablesOk.learnedPut (h : s.TablesOk) {k x} : State.TablesOk { s with learned := s.learned.put k x } :=
  { h with learned := Store.wf_put _ _ h.learned }

theorem State.TablesOk.framesPut (h : s.TablesOk) {k x} (hk : k < frameTotal) : State.TablesOk { s with frames := s.frames.put k x } :=
  { h with frames := h.frames.put _ hk }

theorem State.TablesOk.cmdsUpd (h : s.TablesOk) {k f} : State.TablesOk { s with cmds := s.cmds.upd k f } :=
  { h with cmds := Store.wf_upd _ _ h.cmds }

/-- Every next state of an answer keeps its tables. -/
def NextOk (o : Host.Outcome State Fault Refusal) : Prop := ∀ t, o = .next t → t.TablesOk

theorem NextOk.next (h : t.TablesOk) : NextOk (.next t) := by
  rintro _ ⟨⟩
  exact h

end

end Sys2Proof.Machine
end

section
/-! PROOFS. Canonical tables under what all units share. -/

namespace Sys2Proof.Machine

open Sys2Proof

section

variable {s t u v : State}

/-! ### Writing a state -/

theorem State.TablesOk.pick (h : s.TablesOk) {n} : (s.pick n).2.TablesOk := h.frame

theorem State.TablesOk.newId (h : s.TablesOk) : (s.newId).2.TablesOk := h.frame

theorem State.TablesOk.emit (h : s.TablesOk) {o} : (s.emit o).TablesOk := h.frame

theorem State.TablesOk.keepOwned (h : t.TablesOk) : (s.keepOwned t).TablesOk := h.frame

theorem NextOk.act (h : t.TablesOk) : NextOk (act s t) := .next h.keepOwned

theorem NextOk.actSet {x} (h : t.TablesOk) : NextOk (actSet s x t) := .next h.frame

theorem State.TablesOk.when (h : s.TablesOk) (ht : t.TablesOk) {c} : (s.when c t).TablesOk := .ite ht h

/-! ### Operations of several units -/

theorem State.TablesOk.setEp (h : s.TablesOk) {e v'} : (s.setEp e v').TablesOk := { h with eps := Store.wf_putD _ _ _ h.eps }

theorem State.TablesOk.setFn (h : s.TablesOk) {f v'} : (s.setFn f v').TablesOk := { h with fns := Store.wf_putD _ _ _ h.fns }

theorem State.TablesOk.setPort (h : s.TablesOk) {p v'} : (s.setPort p v').TablesOk := { h with ports := Store.wf_putD _ _ _ h.ports }

theorem State.TablesOk.setTile (h : s.TablesOk) {t' v'} : (s.setTile t' v').TablesOk := { h with tiles := Store.wf_putD _ _ _ h.tiles }

theorem State.TablesOk.setIsland (h : s.TablesOk) {i v'} : (s.setIsland i v').TablesOk :=
  { h with islands := Store.wf_putD _ _ _ h.islands }

theorem State.TablesOk.setRegion (h : s.TablesOk) {r v'} : (s.setRegion r v').TablesOk := h.regionsPutD

theorem State.TablesOk.setWork (h : s.TablesOk) {r v'} : (s.setWork r v').TablesOk := h.workPutD

theorem State.TablesOk.emitVector (h : s.TablesOk) {f v'} : (s.emitVector f v').TablesOk := h.emit

theorem State.TablesOk.sendVector (h : s.TablesOk) {f v'} : (s.sendVector f v').TablesOk := .ite h.emitVector h.setFn

theorem State.TablesOk.flushPba (h : s.TablesOk) {f} : (s.flushPba f).TablesOk := h.over fun _ _ h => .ite h.emitVector.setFn h

theorem State.TablesOk.raise (h : s.TablesOk) {f c} : (s.raise f c).TablesOk := .ite h (.ite h.setFn.sendVector h.setFn)

theorem State.TablesOk.raisePfs (h : s.TablesOk) {c} : (s.raisePfs c).TablesOk := h.over fun _ _ h => h.raise

theorem State.TablesOk.raiseAll (h : s.TablesOk) {c} : (s.raiseAll c).TablesOk := h.over fun _ _ h => h.raise

theorem State.TablesOk.alert (h : s.TablesOk) {a} : (s.alert a).TablesOk :=
  .ite h (.ite (.via (fun h => .ite h.emit h) (.ite h.frame h.frame.emit)) h.frame)

theorem State.TablesOk.endAlert (h : s.TablesOk) : s.endAlert.TablesOk := .ite h.frame.emit h

theorem State.TablesOk.sbCleared (h : s.TablesOk) : s.sbCleared.TablesOk := h.frame.endAlert.alert

theorem State.TablesOk.countUnrecorded (h : s.TablesOk) {code} : (s.countUnrecorded code).TablesOk := h.frame.over fun _ _ h => h.setFn

theorem State.TablesOk.storeRecord (h : s.TablesOk) {r} : (s.storeRecord r).TablesOk := h.frame

theorem State.TablesOk.accept (h : s.TablesOk) {r} : (s.accept r).TablesOk :=
  .ite h.frame (.ite h.countUnrecorded (.via (fun h => .ite h.storeRecord.frame.raisePfs.alert h.storeRecord) (.ite h.frame h)))

theorem State.TablesOk.holdRecord (h : s.TablesOk) {r} : (s.holdRecord r).TablesOk := by
  unfold State.holdRecord
  dsimp only
  split
  · exact .ite h.frame h.frame.countUnrecorded
  · exact h.frame

theorem State.TablesOk.record (h : s.TablesOk) {code src p1 p2 p3} : (s.record code src p1 p2 p3).TablesOk :=
  .ite h (.ite h.accept h.holdRecord)

theorem State.TablesOk.event (h : s.TablesOk) {code inst p1 p2 p3} : (s.event code inst p1 p2 p3).TablesOk := h.record

theorem State.TablesOk.fnEvent (h : s.TablesOk) {code f p2 p3} : (s.fnEvent code f p2 p3).TablesOk := h.record

theorem State.TablesOk.volEvent (h : s.TablesOk) {code v' p1 p2 p3} : (s.volEvent code v' p1 p2 p3).TablesOk := h.record

theorem State.TablesOk.updIsland (h : s.TablesOk) {i g} : (s.updIsland i g).TablesOk := h.setIsland

theorem State.TablesOk.aerCorrectable (h : s.TablesOk) {f bit} : (s.aerCorrectable f bit).TablesOk := .ite h.setFn.emit h.setFn

theorem State.TablesOk.countBad (h : s.TablesOk) {i} : (s.countBad i).TablesOk := h.updIsland

theorem State.TablesOk.countFixed (h : s.TablesOk) {i} : (s.countFixed i).TablesOk := h.updIsland.over fun _ _ h => h.aerCorrectable

theorem State.TablesOk.wordBad (h : s.TablesOk) {i area} : (s.wordBad i area).TablesOk := h.countBad.event

theorem State.TablesOk.wordFixed (h : s.TablesOk) {i area} : (s.wordFixed i area).TablesOk := h.countFixed.event

theorem State.TablesOk.markedExit (h : s.TablesOk) {i requester exit} : (s.markedExit i requester exit).TablesOk := h.frame.event

theorem State.TablesOk.rebuilt (h : s.TablesOk) {i area index} : (s.rebuilt i area index).TablesOk := h.frame.event

theorem State.TablesOk.learnEpoch (h : s.TablesOk) {requester dest} : (s.learnEpoch requester dest).TablesOk := h.learnedPut

theorem State.TablesOk.dropStale (h : s.TablesOk) {requester responder n} : (s.dropStale requester responder n).TablesOk :=
  h.over fun _ _ h => h.setIsland.event

theorem State.TablesOk.replyTo (h : s.TablesOk) {requester responder src} {f : State → State}
    (hf : ∀ s, s.TablesOk → (f s).TablesOk) :
    (s.replyTo requester responder src f).TablesOk :=
  .ite (hf _ h) h.dropStale

theorem State.TablesOk.islandDown (h : s.TablesOk) {i why} : (s.islandDown i why).TablesOk := h.setIsland.learnedKeep.event

theorem State.TablesOk.mapOut (h : s.TablesOk) {i row} : (s.mapOut i row).TablesOk :=
  .alert (.raisePfs (.ite h.updIsland.frame.event h.updIsland.frame.event.event))

theorem State.TablesOk.aer (h : s.TablesOk) {f bit advisory} : (s.aer f bit advisory).TablesOk :=
  .ite (.ite h.setFn.emit h.setFn) (.ite h.setFn.emit h.setFn)

theorem State.TablesOk.mmio (h : s.TablesOk) (ht : t.TablesOk) {f read} : (s.mmio f read t).TablesOk := .ite ht (.ite h.aer.emit h)

theorem State.TablesOk.setState (h : s.TablesOk) {st} : (s.setState st).TablesOk :=
  .ite h (.ite (.raiseAll ((h.lived (by rfl)).raiseAll.alert.over fun _ _ h => h.aer)) (h.lived (by rfl)).raiseAll.alert)

/-! ### Rings -/

theorem State.TablesOk.noteBacked (h : s.TablesOk) : s.noteBacked.TablesOk := by
  refine h.over fun _ _ h => ?_
  split
  · exact h
  · split
    · exact h.cqsPut
    · exact .ite h.cqsPut.fnEvent h.cqsPut
    · exact h

theorem State.TablesOk.stallCheck (h : s.TablesOk) {k} : (s.stallCheck k).TablesOk := by
  unfold State.stallCheck
  split
  · exact h
  · split
    · exact h
    · exact .ite h.cqsPut.fnEvent.raise h

theorem State.TablesOk.postEntry (h : s.TablesOk) {k c e} : (s.postEntry k c e).TablesOk := h.emit.cqsPut

theorem State.TablesOk.cqMessage (h : s.TablesOk) {k} : (s.cqMessage k).TablesOk := by
  unfold State.cqMessage
  split
  · exact h
  · exact .ite (.ite h.cqsPut.sendVector h.cqsPut) h

theorem State.TablesOk.refillStash (h : s.TablesOk) {k} : (s.refillStash k).TablesOk := by
  unfold State.refillStash
  split
  · exact h
  · exact h.cqsPut

theorem State.TablesOk.drainLoop (h : s.TablesOk) {n k} : (s.drainLoop n k).TablesOk := by
  induction n generalizing s with
  | zero => exact h
  | succ n ih =>
    rw [State.drainLoop]
    split
    · exact h
    · refine .ite ?_ h
      split
      · exact ih h.postEntry
      · exact ih h.postEntry
      · exact h

theorem State.TablesOk.drainCq (h : s.TablesOk) {k} : (s.drainCq k).TablesOk := by
  unfold State.drainCq
  split
  · exact h
  · exact .noteBacked (h.drainLoop.cqMessage.refillStash.over fun _ _ h => h.refillStash)

theorem State.TablesOk.generate (h : s.TablesOk) {k e} : (s.generate k e).TablesOk := by
  unfold State.generate
  split
  · exact h
  · exact .ite h.postEntry.cqMessage (.ite h.cqsPut.noteBacked h.cqsPut)

theorem State.TablesOk.extremeOf (h : s.TablesOk) {series x} : (s.extremeOf series x).TablesOk := h.frame

theorem State.TablesOk.extreme (h : s.TablesOk) {series v' inst} : (s.extreme series v' inst).TablesOk := h.extremeOf

theorem State.TablesOk.countHostLatency (h : s.TablesOk) {series us} : (s.countHostLatency series us).TablesOk := by
  refine .ite ?_ h.frame.extreme
  split <;> exact h.frame.extreme.frame

theorem State.TablesOk.finishOne (h : s.TablesOk) {acc st result resultHi} : (s.finishOne acc st result resultHi).TablesOk := by
  unfold State.finishOne
  split
  · exact h
  · extract_lets s₁ _ s₂ s₃
    have h₂ : s₂.TablesOk := h.cmdsDel.setEp
    have h₃ : s₃.TablesOk := .ite h₂.countHostLatency (.ite h₂.countHostLatency h₂)
    refine .ite h₂ ?_
    split
    · exact h₃
    · exact h₃.generate

theorem State.TablesOk.noteChange (h : s.TablesOk) {kind index} : (s.noteChange kind index).TablesOk := .ite h (.ite h h.frame)

theorem State.TablesOk.noteVolume (h : s.TablesOk) {v'} : (s.noteVolume v').TablesOk := by
  unfold State.noteVolume
  split
  · exact .ite h h.noteChange
  · exact h

theorem State.TablesOk.answer (h : s.TablesOk) {acc st result resultHi} : (s.answer acc st result resultHi).TablesOk := by
  refine .ite { h with cmds := ?_ } h.finishOne
  dsimp only
  exact Store.wf_upd _ _ h.cmds

theorem State.TablesOk.settleWaits (h : s.TablesOk) : s.settleWaits.TablesOk := by
  refine h.over fun _ _ h => .ite (.ite h.finishOne h) (.ite (.ite (.finishOne (.ite h.setState h)) h) ?_)
  dsimp only
  split
  · exact h.finishOne
  · refine .ite h.finishOne (.ite (.answer (.noteVolume ?_)) h)
    exact { h.volEvent with
      volumes := Store.wf_put _ _ h.volEvent.volumes
      streams := by dsimp only; exact Store.wf_keep _ h.volEvent.streams }

theorem State.TablesOk.finish (h : s.TablesOk) {acc st result resultHi} : (s.finish acc st result resultHi).TablesOk :=
  h.finishOne.settleWaits

theorem State.TablesOk.finishLogged (h : s.TablesOk) {acc st result resultHi} : (s.finishLogged acc st result resultHi).TablesOk :=
  h.answer.settleWaits

theorem State.TablesOk.updCmd (h : s.TablesOk) {acc f} : (s.updCmd acc f).TablesOk := h.cmdsUpd

/-! ### The array -/

theorem State.TablesOk.updRegion (h : s.TablesOk) {r f} : (s.updRegion r f).TablesOk :=
  .ite h (.ite h.setRegion.noteChange (.ite h.setRegion.noteChange.event h.setRegion.noteChange.event))

theorem State.TablesOk.raiseLoss (h : s.TablesOk) {v'} : (s.raiseLoss v').TablesOk := by
  unfold State.raiseLoss
  dsimp only
  split
  · exact .ite h.raisePfs h.raisePfs.raise
  · exact h.raisePfs

theorem State.TablesOk.addLoss (h : s.TablesOk) {vol l lost} : (s.addLoss vol l lost).TablesOk := by
  unfold State.addLoss
  split
  · exact h
  · exact .ite h (.via (fun h => .ite h.alert h) (.ite h.volumesPut.raiseLoss.noteVolume h.volumesPut.raiseLoss))

/-! ### The cache -/

theorem State.findFree_lt {not_ : Option Nat} {n i f : Nat} (hf : s.findFree not_ n i = some f) : f < frameTotal := by
  induction n generalizing i with
  | zero => nomatch hf
  | succ n ih =>
    rw [State.findFree] at hf
    split at hf
    · exact Option.some.inj hf ▸ Nat.mod_lt _ (by decide)
    · exact ih hf

theorem State.TablesOk.takeFrameBut (h : s.TablesOk) {not_ x f} (ht : s.takeFrameBut not_ x = some (f, t)) : t.TablesOk := by
  unfold State.takeFrameBut at ht
  extract_lets room at ht
  split at ht
  next d s₁ hs =>
    have h₁ : s₁.TablesOk := .ofSnd hs h.pick
    split at ht
    · nomatch ht
    · split at ht
      · next hf =>
        obtain ⟨rfl, rfl⟩ := Prod.mk.inj (Option.some.inj ht)
        exact h₁.framesPut (State.findFree_lt hf)
      · nomatch ht

theorem State.TablesOk.takeFrame (h : s.TablesOk) {x f} (ht : s.takeFrame x = some (f, t)) : t.TablesOk := h.takeFrameBut ht

theorem State.TablesOk.moveShare (h : s.TablesOk) {c} : (s.moveShare c).TablesOk := .ite h h.pick.frame

theorem State.TablesOk.takeFrames (h : s.TablesOk) {l} : (s.takeFrames l).2.TablesOk := by
  refine .foldlSndTo h fun b a c h hc => ?_
  split at hc
  · next ht => exact hc ▸ (h.takeFrame ht)
  · exact hc ▸ h

theorem State.TablesOk.setChain (h : s.TablesOk) {b l} : (s.setChain b l).TablesOk := by
  have heads : (match l with | [] => s.heads.del b | f :: _ => s.heads.put b f).wf = true := by
    cases l with
    | nil => exact Store.wf_del _ h.heads
    | cons f l => exact Store.wf_put _ _ h.heads
  exact { h with frames := .foldl h.frames fun _ _ h => h.upd _ _, heads := heads }

theorem State.TablesOk.chainIn (h : s.TablesOk) {f} : (s.chainIn f).TablesOk := by
  unfold State.chainIn
  split
  · exact h
  · exact h.setChain

theorem State.TablesOk.freeFrame (h : s.TablesOk) {f} : (s.freeFrame f).TablesOk := by
  unfold State.freeFrame
  split
  · exact h
  · exact .framesDel (.ite h.setChain h)

theorem State.TablesOk.freeAll (h : s.TablesOk) {l} : (s.freeAll l).TablesOk := h.over fun _ _ h => h.freeFrame

theorem State.TablesOk.updFrame (h : s.TablesOk) {f g} : (s.updFrame f g).TablesOk := h.framesUpd

theorem State.TablesOk.settleFrame (h : s.TablesOk) {f} : (s.settleFrame f).TablesOk := by
  unfold State.settleFrame
  split
  · exact .ite h.freeFrame h
  · exact h

theorem State.TablesOk.supersede (h : s.TablesOk) {f} : (s.supersede f).TablesOk := by
  unfold State.supersede
  split
  · exact h
  · exact .ite h.freeFrame h.updFrame.settleFrame

theorem State.TablesOk.pinAll (h : s.TablesOk) {l} : (s.pinAll l).TablesOk := h.over fun _ _ h => h.updFrame

theorem State.TablesOk.unpin (h : s.TablesOk) {l} : (s.unpin l).TablesOk := h.over fun _ _ h => h.updFrame.settleFrame

theorem State.TablesOk.holdAll (h : s.TablesOk) {l} : (s.holdAll l).TablesOk := h.over fun _ _ h => h.updFrame

theorem State.TablesOk.unhold (h : s.TablesOk) {l} : (s.unhold l).TablesOk := h.over fun _ _ h => h.updFrame.settleFrame

theorem State.TablesOk.noteGen (h : s.TablesOk) {vol g} : (s.noteGen vol g).TablesOk := h.volumesUpd

theorem State.TablesOk.fillDone (h : s.TablesOk) {f data} : (s.fillDone f data).TablesOk := by
  unfold State.fillDone
  split
  · exact .ite h (.ite h.freeFrame h.updFrame.chainIn)
  · exact h.freeFrame
  · exact h

theorem State.TablesOk.sweepFrame (h : s.TablesOk) {f} : (s.sweepFrame f).TablesOk := by
  unfold State.sweepFrame
  split
  · exact h
  · exact .ite h (.ite h.updFrame (.ite h.freeFrame h))

theorem State.TablesOk.sweepList (h : s.TablesOk) {l} : (s.sweepList l).TablesOk := by
  induction l generalizing s with
  | nil => exact h
  | cons f l ih =>
    rw [State.sweepList]
    exact .ite h.frame (ih h.sweepFrame.frame)

theorem State.TablesOk.demand (h : s.TablesOk) {l} : (s.demand l).TablesOk := h.frame

/-! ### Fetching -/

theorem State.TablesOk.issueRead (h : s.TablesOk) {f kind addr len} (ht : s.issueRead f kind addr len = some t) : t.TablesOk := by
  unfold State.issueRead at ht
  split at ht
  · nomatch ht
  · dsimp only at ht
    split at ht
    · nomatch ht
    · exact Option.some.inj ht ▸ h.pick.setEp.emit

theorem State.TablesOk.issueAll (h : s.TablesOk) {l} : (s.issueAll l).TablesOk := by
  induction l generalizing s with
  | nil => exact h
  | cons x l ih =>
    rw [State.issueAll]
    split
    · next ht => exact ih (h.issueRead ht)
    · exact h

theorem State.TablesOk.takeTokens (h : s.TablesOk) {f e} : (s.takeTokens f e).TablesOk := h.setFn

theorem State.TablesOk.pumpCmd (h : s.TablesOk) {n acc} : (s.pumpCmd n acc).TablesOk := by
  induction n generalizing s with
  | zero => exact h
  | succ n ih =>
    rw [State.pumpCmd]
    split
    · exact h
    · refine .ite h ?_
      split
      · split
        · exact h
        · next ht => exact ih (h.issueRead ht).updCmd
      · dsimp only
        split
        · exact h
        · split
          · exact h
          · next ht => exact ih (h.issueRead ht).updCmd

theorem State.TablesOk.pump (h : s.TablesOk) : s.pump.TablesOk := h.over fun _ _ h => h.pumpCmd

theorem State.TablesOk.hostWrite (h : s.TablesOk) {f buffers data} : (s.hostWrite f buffers data).TablesOk := h.over fun _ _ h => h.emit

theorem State.TablesOk.afterList (h : s.TablesOk) {acc} : (s.afterList acc).TablesOk := by
  unfold State.afterList
  split
  · exact h
  · refine .ite h.finish (.ite h.finish ?_)
    split
    · exact h.finish
    · exact h.updCmd

theorem State.TablesOk.askList (h : s.TablesOk) {acc c} : (s.askList acc c).TablesOk := h.updCmd.pumpCmd

theorem State.TablesOk.coverFlush (h : s.TablesOk) {acc e} : (s.coverFlush acc e).TablesOk := h.updCmd.demand

theorem State.TablesOk.acceptEntry (h : s.TablesOk) {key q bytes} : (s.acceptEntry key q bytes).TablesOk := by
  unfold State.acceptEntry
  extract_lets e acc admin mode c s₁ s₂
  have h₁ : s₁.TablesOk := { h with cmds := Store.wf_put _ _ h.cmds }
  have h₂ : s₂.TablesOk := .ite h₁ h₁.takeTokens
  clear_value s₂
  split
  · exact h₂.finish
  · refine .ite h₂.askList ?_
    split
    · exact h₂.finish
    · exact .updCmd (.ite h₂.coverFlush h₂)

theorem State.TablesOk.acceptLoop (h : s.TablesOk) {n key} : (s.acceptLoop n key).TablesOk := by
  induction n generalizing s with
  | zero => exact h
  | succ n ih =>
    rw [State.acceptLoop]
    split
    · exact h
    · refine .ite h ?_
      split
      · exact h
      · exact ih h.sqsPut.acceptEntry

theorem State.TablesOk.fetchBurst (h : s.TablesOk) {key q} : (s.fetchBurst key q).TablesOk := h.issueAll

end

end Sys2Proof.Machine
end

section
/-! PROOFS. Canonical tables in the vault and the journal. -/

namespace Sys2Proof.Machine

open Sys2Proof

section

variable {s t u v : State}

/-! ### The vault -/

theorem State.TablesOk.setVblk (h : s.TablesOk) {b x} : (s.setVblk b x).TablesOk := h.frame

theorem State.TablesOk.askDie (h : s.TablesOk) {id op} : (s.askDie id op).TablesOk := .frame (.ite h h.learnEpoch)

theorem State.TablesOk.issueOp (h : s.TablesOk) {op} : (s.issueOp op).TablesOk := h.newId.askDie

theorem State.TablesOk.reissueOps (h : s.TablesOk) {d} : (s.reissueOps d).TablesOk := h.over fun _ _ h => h.askDie

theorem State.TablesOk.startReads (h : s.TablesOk) {l why} : (s.startReads l why).TablesOk := h.over fun _ _ h => h.issueOp

theorem State.TablesOk.openBlock (h : s.TablesOk) {b u'} : (s.openBlock b u').TablesOk := h.setVblk.frame

theorem State.TablesOk.pageFor (h : s.TablesOk) {use b page} (ht : s.pageFor use = some (b, page, t)) : t.TablesOk := by
  obtain ⟨⟨d, b', v⟩, hpick, hv⟩ := Option.map_eq_some_iff.mp ht
  have hopen : v.TablesOk := by
    obtain ⟨e, -, he⟩ := List.exists_of_findSome?_eq_some hpick
    split at he
    · exact (Prod.mk.inj (Prod.mk.inj (Option.some.inj he)).2).2 ▸ h
    · split at he
      · obtain ⟨b'', -, hb⟩ := Option.map_eq_some_iff.mp he
        exact (Prod.mk.inj (Prod.mk.inj hb).2).2 ▸ h.openBlock
      · nomatch he
  exact (Prod.mk.inj (Prod.mk.inj hv).2).2 ▸ hopen.setVblk.frame

theorem State.TablesOk.programPage (h : s.TablesOk) {u' sectors why} : (s.programPage u' sectors why).TablesOk := by
  refine .ite h.frame ?_
  split
  · exact h.frame
  · next b page t ht =>
    exact (h.pageFor ht).issueOp

theorem State.TablesOk.storeSectors (h : s.TablesOk) {b page sectors corrected} : (s.storeSectors b page sectors corrected).TablesOk :=
  h.over fun _ _ h => h.frame

theorem State.TablesOk.program (h : s.TablesOk) {u' content why} : (s.program u' content why).TablesOk :=
  h.over fun _ _ h => h.programPage

theorem State.TablesOk.touchMap (h : s.TablesOk) {l} : (s.touchMap l).TablesOk := h.frame

theorem State.TablesOk.appendRecord (h : s.TablesOk) {all acc copy} : (s.appendRecord all acc copy).TablesOk :=
  .ite h.frame.touchMap.program h.frame.touchMap

theorem State.TablesOk.writeHeld (h : s.TablesOk) : s.writeHeld.TablesOk := h.over fun _ _ h => .ite h h.frame.program

theorem State.TablesOk.appendMap (h : s.TablesOk) {entries acc copy} : (s.appendMap entries acc copy).TablesOk :=
  .ite h.appendRecord h.appendRecord.appendRecord

theorem State.TablesOk.flushOpens (h : s.TablesOk) : s.flushOpens.TablesOk := .ite h h.appendMap

theorem State.TablesOk.vprogram (h : s.TablesOk) {u' content why} : (s.vprogram u' content why).TablesOk := h.program.flushOpens

theorem State.TablesOk.logEntries (h : s.TablesOk) {entries acc copy} : (s.logEntries entries acc copy).TablesOk :=
  h.over fun _ _ h => h.appendMap

theorem State.TablesOk.startErases (h : s.TablesOk) : s.startErases.TablesOk :=
  h.over fun _ _ h => .issueOp (h.over fun _ _ h => h.setVblk)

theorem State.TablesOk.releaseBlocks (h : s.TablesOk) {d} : (s.releaseBlocks d).TablesOk :=
  .via (fun h => .ite h.frame.startErases (.ite (h.frame.startErases.lived (by rfl)) h.frame.startErases.event))
    (h.over fun _ _ h => h.setVblk)

theorem State.TablesOk.releaseDump (h : s.TablesOk) : s.releaseDump.TablesOk := by
  unfold State.releaseDump
  split
  · exact h
  · exact .releaseBlocks (h.withLife (by simp))

theorem State.TablesOk.cullBlocks (h : s.TablesOk) : s.cullBlocks.TablesOk := .startErases (h.over fun _ _ h => h.setVblk)

theorem State.TablesOk.dropSectors (h : s.TablesOk) {b} : (s.dropSectors b).TablesOk := h.frame

theorem State.TablesOk.percentUpdate (h : s.TablesOk) : s.percentUpdate.TablesOk :=
  .via (fun h => .ite h.frame.event.raisePfs.alert h) (.ite h.frame.event.raisePfs.alert h.frame)

theorem State.TablesOk.retireBlock (h : s.TablesOk) {b program} : (s.retireBlock b program).TablesOk :=
  .percentUpdate (.event (.appendMap (.ite h.setVblk.dropSectors h.setVblk.dropSectors.frame)))

theorem State.TablesOk.startCopy (h : s.TablesOk) {c} : (s.startCopy c).TablesOk := h.newId.frame.startReads

theorem State.TablesOk.closeBlock (h : s.TablesOk) {b} : (s.closeBlock b).TablesOk := h.setVblk.frame

theorem State.TablesOk.closeUse (h : s.TablesOk) {u'} : (s.closeUse u').TablesOk := h.over fun _ _ h => h.closeBlock

theorem State.TablesOk.closeWear (h : s.TablesOk) {b u'} : (s.closeWear b u').TablesOk := .ite h h.closeUse.frame

theorem State.TablesOk.freeSource (h : s.TablesOk) {c} : (s.freeSource c).TablesOk := by
  unfold State.freeSource
  split
  · exact h
  · exact .ite h.closeWear.retireBlock (.ite h.closeWear.setVblk.startErases h.closeWear)

theorem State.TablesOk.moved (h : s.TablesOk) {l} : (s.moved l).TablesOk := by
  unfold State.moved
  exact { h with cmds := by dsimp only; exact Store.wf_each _ h.cmds }

theorem State.TablesOk.copyCopied (h : s.TablesOk) {id c} : (s.copyCopied id c).TablesOk := by
  refine .via (fun h => .ite h.appendMap ?_) (.ite h.moved.frame h.moved)
  split
  · exact h.frame
  · exact h.frame.freeSource

theorem State.TablesOk.mapCommitted (h : s.TablesOk) {seq} : (s.mapCommitted seq).TablesOk := by
  unfold State.mapCommitted
  split
  · exact h
  · refine .via (fun h => h.over fun _ _ h => ?_) (h.frame.over fun _ _ h => ?_)
    · split
      · exact h
      · exact h.frame.freeSource
    · split
      · exact h.setVblk
      · exact h

theorem State.TablesOk.endVaultWrite (h : s.TablesOk) {acc st} : (s.endVaultWrite acc st).TablesOk := by
  unfold State.endVaultWrite
  split
  · exact h
  · exact h.freeAll.finish

theorem State.TablesOk.commitMaps (h : s.TablesOk) : s.commitMaps.TablesOk :=
  .cullBlocks (State.TablesOk.over (h.over fun _ _ h => h.mapCommitted) fun _ _ h => .ite h h.endVaultWrite)

theorem State.TablesOk.mapPageDone (h : s.TablesOk) {seq} : (s.mapPageDone seq).TablesOk := h.frame

theorem State.TablesOk.resumeCounters (h : s.TablesOk) {c} : (s.resumeCounters c).TablesOk := by
  unfold State.resumeCounters
  exact { h with
    pools := by dsimp only; exact Store.wf_each _ h.pools
    members := by dsimp only; exact Store.wf_each _ h.members
    volumes := by dsimp only; exact Store.wf_each _ h.volumes }

theorem State.TablesOk.writeCheckpoint (h : s.TablesOk) : s.writeCheckpoint.TablesOk :=
  .ite h h.flushOpens.frame.cullBlocks.appendMap.vprogram

theorem State.TablesOk.flushMap (h : s.TablesOk) : s.flushMap.TablesOk :=
  .ite h.writeCheckpoint (.flushOpens (h.frame.over fun _ _ h => h.program))

theorem State.TablesOk.startCheckpoint (h : s.TablesOk) : s.startCheckpoint.TablesOk := .ite h (.ite h.frame h.flushMap)

theorem State.TablesOk.mapFlushed (h : s.TablesOk) {i phys} : (s.mapFlushed i phys).TablesOk :=
  .ite h (.ite h.frame.appendMap.flushMap h.frame.appendMap)

theorem State.TablesOk.checkpointDone (h : s.TablesOk) : s.checkpointDone.TablesOk := by
  unfold State.checkpointDone
  split
  · exact h
  · exact .via (fun h => .ite h.startCheckpoint h) h.frame.closeUse.writeHeld.cullBlocks

theorem State.TablesOk.blockGone (h : s.TablesOk) {vol lba} : (s.blockGone vol lba).TablesOk := h.appendMap.addLoss

theorem State.TablesOk.rebuildMapPage (h : s.TablesOk) {i} : (s.rebuildMapPage i).TablesOk := .frame (h.over fun _ _ h => h.blockGone)

theorem State.TablesOk.recordsDrop (h : s.TablesOk) {k lost} : (s.recordsDrop k lost).TablesOk := by
  unfold State.recordsDrop
  split
  split
  · exact h
  · exact h.frame.event

theorem State.TablesOk.recordsLost (h : s.TablesOk) {k} : (s.recordsLost k).TablesOk := .ite h h.recordsDrop

theorem State.TablesOk.recordsCheck (h : s.TablesOk) {addr} : (s.recordsCheck addr).TablesOk := by
  unfold State.recordsCheck
  split
  · exact h
  · split
    · exact .ite h h.recordsDrop
    · exact h

theorem State.TablesOk.vaultLost (h : s.TablesOk) {addr} : (s.vaultLost addr).TablesOk := by
  unfold State.vaultLost
  split
  · exact h
  · dsimp only
    split
    · exact .ite h.event.frame.blockGone h.event.frame
    · split
      · exact h.event.frame.demand
      · exact h.event.frame
    · exact h.event.frame
    · exact .ite h.event.frame.rebuildMapPage h.event.frame
    · exact .ite h.event.frame h.event.frame.startCheckpoint
    · exact .ite h.event.frame h.event.frame
    · exact .ite h.event.frame.recordsLost h.event.frame
    · exact h.event.frame
    · exact h.event.frame

/-! ### The journal -/

theorem State.TablesOk.writeRecs (h : s.TablesOk) {l} : (s.writeRecs l).2.TablesOk :=
  .flushOpens (h.frame.over fun _ _ h => h.programPage)

theorem State.TablesOk.noteRefs (h : s.TablesOk) {q r} : (s.noteRefs q r).TablesOk := h.over fun _ _ h => h.framesEach

theorem State.TablesOk.putRecs (h : s.TablesOk) {l acc task} : (s.putRecs l acc task).2.TablesOk := by
  unfold State.putRecs
  split
  next qs s₁ hs =>
    have h₁ : s₁.TablesOk := .ofSnd hs h.writeRecs
    extract_lets s₂ s₃
    have h₂ : s₂.TablesOk := h₁.over fun _ _ h => .ite h.noteRefs h
    have h₃ : s₃.TablesOk := by
      unfold s₃
      split
      · exact h₂.updCmd
      · exact h₂
    dsimp only
    split
    · exact h₃.tasksUpd
    · exact h₃

theorem State.TablesOk.appendRecs (h : s.TablesOk) {l acc task} : (s.appendRecs l acc task).TablesOk := .ite h.frame h.putRecs

theorem State.TablesOk.reclaimJournal (h : s.TablesOk) : s.reclaimJournal.TablesOk := .ite h h.frame

theorem State.TablesOk.journalPressure (h : s.TablesOk) : s.journalPressure.TablesOk := .ite h (h.over fun _ _ h => h.demand)

theorem State.TablesOk.flushRetire (h : s.TablesOk) {n least} : (s.flushRetire n least).TablesOk := by
  induction n generalizing s with
  | zero => exact h
  | succ n ih =>
    rw [State.flushRetire]
    refine .ite h ?_
    split
    next hs => exact ih (State.TablesOk.ofSnd hs h.writeRecs).frame

theorem State.TablesOk.queueRetire (h : s.TablesOk) {items task} : (s.queueRetire items task).TablesOk := .ite h h.frame.flushRetire

theorem State.TablesOk.retireNow (h : s.TablesOk) : s.retireNow.TablesOk := h.flushRetire

theorem State.TablesOk.journalRetry (h : s.TablesOk) : s.journalRetry.TablesOk := by
  unfold State.journalRetry
  split
  next left s₁ hs =>
    have h₁ : s₁.TablesOk := by
      refine .ofSnd hs (h.foldlSnd fun _ _ h => .iteSnd h ?_)
      exact .ite h.putRecs.queueRetire h.putRecs
    exact h₁.frame

theorem State.TablesOk.journalPageDone (h : s.TablesOk) {q} : (s.journalPageDone q).TablesOk := h.frame

theorem State.TablesOk.recCommitted (h : s.TablesOk) {q} : (s.recCommitted q).TablesOk := by
  unfold State.recCommitted
  split
  · exact h
  · extract_lets _ s₁
    have h₁ : s₁.TablesOk := h.frame
    split
    · exact h₁.framesEach
    · refine h₁.over fun _ _ h => ?_
      split
      · exact h.frame
      · exact h
    · exact h₁

end

end Sys2Proof.Machine
end

section
/-! PROOFS. Canonical tables in stripes, members and the engine. -/

namespace Sys2Proof.Machine

open Sys2Proof

section

variable {s t u v : State}

/-! ### Stripes and their interlock -/

theorem State.TablesOk.later (h : s.TablesOk) {t'} : (s.later t').TablesOk := h.frame

theorem State.TablesOk.charge (h : s.TablesOk) {cls bytes} : (s.charge cls bytes).TablesOk := h.frame

theorem State.TablesOk.setLock (h : s.TablesOk) {r k l} : (s.setLock r k l).TablesOk := h.locksPutD

theorem State.TablesOk.requestLock (h : s.TablesOk) {t' r k excl} : (s.requestLock t' r k excl).TablesOk := .ite h.setLock.later h.setLock

theorem State.TablesOk.releaseLock (h : s.TablesOk) {t' r k} : (s.releaseLock t' r k).TablesOk := h.setLock

theorem State.TablesOk.grantLock (h : s.TablesOk) {r k} : (s.grantLock r k).TablesOk := by
  unfold State.grantLock
  dsimp only
  split
  · exact .ite h.setLock.later h
  · split
    · exact h
    · exact .ite h.setLock.later h
    · exact .ite (h.setLock.over fun _ _ h => h.later) h

theorem State.TablesOk.updTask (h : s.TablesOk) {t' f} : (s.updTask t' f).TablesOk := h.tasksUpd

theorem State.TablesOk.newTask (h : s.TablesOk) {x excl} : (s.newTask x excl).2.TablesOk := by
  unfold State.newTask
  split
  next id s₁ hs =>
    extract_lets s₂
    have h₂ : s₂.TablesOk := (State.TablesOk.ofSnd hs h.newId).tasksPut
    dsimp only
    split
    · exact h₂.requestLock
    · exact h₂.later

theorem State.TablesOk.submitReq (h : s.TablesOk) {port id r} : (s.submitReq port id r).TablesOk := h.setPort.emit

theorem State.TablesOk.pumpClass (h : s.TablesOk) {port ids} : (s.pumpClass port ids).TablesOk := by
  induction ids generalizing s with
  | nil => exact h
  | cons id ids ih =>
    rw [State.pumpClass]
    split
    · exact ih h
    · exact .ite (ih h) (.ite h (ih h.submitReq))

theorem State.TablesOk.pumpPort (h : s.TablesOk) {port} : (s.pumpPort port).TablesOk := h.pumpClass.pumpClass

theorem State.TablesOk.pumpAll (h : s.TablesOk) : s.pumpAll.TablesOk := h.over fun _ _ h => h.pumpPort

theorem State.TablesOk.askPort (h : s.TablesOk) {port r} : (s.askPort port r).2.TablesOk := .iteSnd h.newId.later h.newId.setPort.pumpPort

theorem State.TablesOk.spend (h : s.TablesOk) {t' bytes} : (s.spend t' bytes).TablesOk := by
  unfold State.spend
  split
  · exact h
  · split
    · exact h
    · exact h.updTask.charge

theorem State.TablesOk.countRebuildBytes (h : s.TablesOk) {r} : (s.countRebuildBytes r).TablesOk := by
  unfold State.countRebuildBytes
  split
  · exact h
  · exact h.poolsUpd

theorem State.TablesOk.askCells (h : s.TablesOk) {t' write pos place cells hedgeable counted} :
    (s.askCells t' write pos place cells hedgeable counted).TablesOk := by
  unfold State.askCells
  split
  · exact h
  · exact h.over fun _ _ h => h.spend.askPort.updTask

theorem State.TablesOk.reissue (h : s.TablesOk) {t' old place r} : (s.reissue t' old place r).TablesOk :=
  h.spend.askPort.updTask.tasksEach

theorem State.TablesOk.dropReqs (h : s.TablesOk) {t'} : (s.dropReqs t').TablesOk := h.portsEach

theorem State.TablesOk.giveTile (h : s.TablesOk) {t' j} : (s.giveTile t' j).TablesOk := h.setTile

theorem State.TablesOk.tileFor (h : s.TablesOk) {n not_} : (s.tileFor n not_).2.TablesOk := by
  induction n generalizing s with
  | zero => exact h
  | succ n ih =>
    rw [State.tileFor]
    split
    · exact h
    · exact .iteSnd h (ih h.learnEpoch)

theorem State.TablesOk.sendJob (h : s.TablesOk) {j home not_} : (s.sendJob j home not_).TablesOk := by
  unfold State.sendJob
  split
  next target s₁ hs =>
    have h₁ : s₁.TablesOk := by
      split at hs
      · exact (Prod.mk.inj hs).2 ▸ h
      · exact .ofSnd hs h.tileFor
    split
    · exact h₁.giveTile
    · exact h₁.frame

theorem State.TablesOk.stage (h : s.TablesOk) {first cells} : (s.stage first cells).TablesOk :=
  { h with staging := Store.wf_foldl h.staging fun _ _ h => Store.wf_put _ _ h }

theorem State.TablesOk.freeStaging (h : s.TablesOk) {r} : (s.freeStaging r).TablesOk := by
  unfold State.freeStaging
  split
  · exact h
  · exact h.stagingKeep

theorem State.TablesOk.dropJobs (h : s.TablesOk) {t'} : (s.dropJobs t').TablesOk := .frame (h.over fun _ _ h => h.unpin)

theorem State.TablesOk.endTask (h : s.TablesOk) {t'} : (s.endTask t').TablesOk := by
  unfold State.endTask
  split
  · exact h
  · refine .via (fun h => h.dropJobs.tasksDel.frame.freeAll.releaseLock) ?_
    split
    · exact h.dropReqs.freeStaging.tableDel
    · exact h.dropReqs.freeStaging

/-! ### Members -/

theorem State.TablesOk.spareCheck (h : s.TablesOk) {pool} : (s.spareCheck pool).TablesOk := by
  unfold State.spareCheck
  split
  · exact h
  · exact .ite (.ite h h.poolsPut.event) (.ite h.poolsPut h)

theorem State.TablesOk.updWork (h : s.TablesOk) {r f} : (s.updWork r f).TablesOk := h.setWork

theorem State.TablesOk.enqueue (h : s.TablesOk) {r} : (s.enqueue r).TablesOk := h.updWork

theorem State.TablesOk.endStripes (h : s.TablesOk) {r} : (s.endStripes r).TablesOk := h.over fun _ _ h => h.endTask

theorem State.TablesOk.regionLost (h : s.TablesOk) {r} : (s.regionLost r).TablesOk := by
  unfold State.regionLost
  extract_lets s₁ e s₂ s₃ s₄
  have h₃ : s₃.TablesOk := h.endStripes.updWork.over fun _ _ h => h.later
  have h₄ : s₄.TablesOk := h₃.updRegion
  split
  · exact h₄.volEvent
  · exact h₄.event

theorem State.TablesOk.noteWait (h : s.TablesOk) {r} : (s.noteWait r).TablesOk := by
  unfold State.noteWait
  exact h.updWork

theorem State.TablesOk.startReplace (h : s.TablesOk) {r} : (s.startReplace r).2.TablesOk := by
  unfold State.startReplace
  split
  · dsimp only
    exact h.updRegion.updWork
  · exact h.event.noteWait

theorem State.TablesOk.abandonMove (h : s.TablesOk) {r} : (s.abandonMove r).TablesOk := by
  unfold State.abandonMove
  dsimp only
  split <;> exact h.endStripes.updRegion.updWork

theorem State.TablesOk.recompute (h : s.TablesOk) {r} : (s.recompute r).TablesOk :=
  .ite h.regionLost (.ite h.updRegion.updWork.updWork.enqueue h.updRegion.updWork.updWork)

theorem State.TablesOk.setCrit (h : s.TablesOk) {r} : (s.setCrit r).TablesOk := h.updRegion

theorem State.TablesOk.backToQueue (h : s.TablesOk) {r} : (s.backToQueue r).TablesOk := h.updWork.noteWait

theorem State.TablesOk.furtherLoss (h : s.TablesOk) {r} : (s.furtherLoss r).TablesOk := by
  refine .ite h.updWork
    (.ite h.updWork (.ite (.ite h.endStripes.updWork.startReplace.setCrit h.endStripes.updWork.startReplace.backToQueue) ?_))
  split
  · exact h.endStripes.updWork.updRegion.setCrit.updWork
  · exact h.endStripes.updWork.event.backToQueue

theorem State.TablesOk.replaceAgain (h : s.TablesOk) {r} : (s.replaceAgain r).TablesOk := by
  unfold State.replaceAgain
  dsimp only
  split
  · exact h.endStripes.updWork.updRegion.updWork
  · exact .ite h.endStripes.updWork.updRegion.event.backToQueue h.endStripes.updWork.updRegion.event.noteWait

theorem State.TablesOk.regionHit (h : s.TablesOk) {r port} : (s.regionHit r port).TablesOk := by
  unfold State.regionHit
  dsimp only
  split
  · exact h
  · exact h
  · exact .ite h h.recompute
  · exact .ite h h.recompute
  · exact .ite h h.recompute
  · exact .ite h.abandonMove.recompute (.ite h.replaceAgain h)
  · exact .ite (.ite h.regionLost (.ite (.ite h.setCrit.replaceAgain h.setCrit) h.setCrit.furtherLoss)) (.ite h.replaceAgain h)

theorem State.TablesOk.memberDone (h : s.TablesOk) : s.memberDone.TablesOk := h.over fun _ _ h => .ite h h.membersUpd.event

theorem State.TablesOk.dropMembers (h : s.TablesOk) : s.dropMembers.TablesOk := h.membersKeep

theorem State.TablesOk.writeLabels (h : s.TablesOk) {f} : (s.writeLabels f).TablesOk := by
  unfold State.writeLabels
  split
  · exact h
  · exact .ite h (h.frame.over fun _ _ h => h.emit)

theorem State.TablesOk.writeConfig (h : s.TablesOk) : s.writeConfig.TablesOk := .ite h (h.frame.over fun _ _ h => h.emit)

theorem State.TablesOk.metadataCheckpoint (h : s.TablesOk) : s.metadataCheckpoint.TablesOk := .ite h (.frame (h.over fun _ _ h => h.emit))

theorem State.TablesOk.metaAsk (h : s.TablesOk) {job port} : (s.metaAsk job port).TablesOk := by
  unfold State.metaAsk
  split
  · exact h
  · exact h.over fun _ _ h => h.askPort.frame

theorem State.TablesOk.metaDone (h : s.TablesOk) {job} : (s.metaDone job).TablesOk := by
  unfold State.metaDone
  split
  · exact h
  · dsimp only
    split
    · exact .pumpAll (h.frame.over fun _ _ h => h.finish)
    · exact h.frame
    · exact h.frame
    · exact h.frame

theorem State.TablesOk.metaCheck (h : s.TablesOk) {job} : (s.metaCheck job).TablesOk := by
  unfold State.metaCheck
  split
  · exact .ite h.metaDone h
  · exact h

theorem State.TablesOk.metaStart (h : s.TablesOk) {k} : (s.metaStart k).TablesOk := .metaCheck (h.newId.frame.over fun _ _ h => h.metaAsk)

theorem State.TablesOk.bringLogs (h : s.TablesOk) : s.bringLogs.TablesOk :=
  State.TablesOk.over (h.frame.over fun _ _ h => h.newId.frame.over fun _ _ h => h.metaAsk) fun _ _ h => h.event

theorem State.TablesOk.assignLogs (h : s.TablesOk) : s.assignLogs.TablesOk :=
  .ite h (.via (fun h => .writeLabels (.ite h h.metadataCheckpoint)) (h.bringLogs.over fun _ _ h => h.emit))

theorem State.TablesOk.memberTo (h : s.TablesOk) {port st} : (s.memberTo port st).TablesOk := by
  unfold State.memberTo
  split
  · exact h
  · exact .ite h (.via (fun h => .assignLogs (.ite h.alert h)) (.ite h.membersPut.noteChange.event.raisePfs h.membersPut.noteChange.event))

theorem State.TablesOk.absentAll (h : s.TablesOk) {port} : (s.absentAll port).TablesOk := h.setPort.over fun _ _ h => .ite h h.later

theorem State.TablesOk.assertPerst (h : s.TablesOk) {port} : (s.assertPerst port).TablesOk :=
  .via (fun h => .ite h h.emit) (.ite h.setPort.event h.setPort)

theorem State.TablesOk.failMember (h : s.TablesOk) {port cause removed} : (s.failMember port cause removed).TablesOk := by
  unfold State.failMember
  split
  · exact h
  · exact .ite h
      (.via (fun h =>
           .via (fun h =>
               .ite h (.spareCheck (.memberDone (.membersUpd (h.foldlSnd fun _ _ h => h.regionHit)))))
             (.ite h.memberTo.later h.memberTo))
         h.absentAll.assertPerst.event)

theorem State.TablesOk.countRebuilt (h : s.TablesOk) {r ps} : (s.countRebuilt r ps).TablesOk := h.membersEach

theorem State.TablesOk.forgetOwed (h : s.TablesOk) {r} : (s.forgetOwed r).TablesOk := h.membersEach

theorem State.TablesOk.evacuationCheck (h : s.TablesOk) {port} : (s.evacuationCheck port).TablesOk := by
  unfold State.evacuationCheck
  split
  · exact h
  · exact .ite h.membersPut.event h

theorem State.TablesOk.copybackCheck (h : s.TablesOk) {port} : (s.copybackCheck port).TablesOk := by
  unfold State.copybackCheck
  split
  · exact h
  · exact .ite h.memberTo.event h

theorem State.TablesOk.memberChecks (h : s.TablesOk) : s.memberChecks.TablesOk :=
  .ite h (.dropMembers (.memberDone (h.over fun _ _ h => h.evacuationCheck.copybackCheck)))

theorem State.TablesOk.countMoved (h : s.TablesOk) {port n} : (s.countMoved port n).TablesOk := h.membersUpd

theorem State.TablesOk.countEvacuated (h : s.TablesOk) {r} : (s.countEvacuated r).TablesOk := h.over fun _ _ h => h.countMoved

theorem State.TablesOk.countResumed (h : s.TablesOk) {r} : (s.countResumed r).TablesOk := by
  refine .ite h (h.over fun _ _ h => ?_)
  dsimp only
  split
  · exact .ite h.countMoved h
  · exact h

theorem State.TablesOk.regionDone (h : s.TablesOk) {r} : (s.regionDone r).TablesOk := by
  unfold State.regionDone
  dsimp only
  split
  · exact .spareCheck (.dropMembers (.memberDone (h.countRebuilt.countEvacuated.updRegion.setWork.over fun _ _ h => h.evacuationCheck)))
  · exact h.updRegion.setWork.countMoved.evacuationCheck.copybackCheck.dropMembers.spareCheck
  · exact .spareCheck
      (.dropMembers (.memberDone (h.countRebuilt.countResumed.updRegion.setWork.over fun _ _ h => h.evacuationCheck.copybackCheck)))

theorem State.TablesOk.stripeDone (h : s.TablesOk) {r stripe} : (s.stripeDone r stripe).TablesOk :=
  .via (fun h => .ite h.furtherLoss (.ite h.regionDone h)) (h.updWork.updRegion.updWork.over fun _ _ h => h.endTask)

/-! ### The engine -/

theorem State.TablesOk.startFill (h : s.TablesOk) {acc vol lbas} : (s.startFill acc vol lbas).TablesOk := by
  unfold State.startFill
  split
  · refine h.over fun _ _ h => .via (fun h => h.newTask) (.foldlSndTo h fun b a c h hc => ?_)
    extract_lets at hc
    split at hc
    · next ht => exact hc ▸ (h.takeFrame ht)
    · exact hc ▸ h
  · exact h

theorem State.TablesOk.deliver (h : s.TablesOk) {x cells} : (s.deliver x cells).TablesOk := by
  refine h.over fun _ _ h => ?_
  split
  · exact h
  · refine .via (fun h => .later (.ite h h.startFill)) (h.over fun _ _ h => ?_)
    dsimp only
    split
    · exact h.updCmd
    · exact .ite h h.updCmd

theorem State.TablesOk.readCheck (h : s.TablesOk) {acc} : (s.readCheck acc).TablesOk := by
  unfold State.readCheck
  split
  · exact h
  · extract_lets read s₁ s₂
    have h₁ : s₁.TablesOk := .ite (h.over fun _ _ h => h.hostWrite) h
    have h₂ : s₂.TablesOk := h₁.unpin
    refine .ite h (.ite h ?_)
    split
    · exact h₂.finish
    · exact .finish (.ite h₂.volumesUpd.volEvent h₂)

theorem State.TablesOk.closeParison (h : s.TablesOk) {id} : (s.closeParison id).TablesOk := by
  unfold State.closeParison
  split
  · exact h
  · exact .unhold (.parisonsDel (h.over fun _ _ h => h.updFrame))

theorem State.TablesOk.writeCheck (h : s.TablesOk) {acc} : (s.writeCheck acc).TablesOk := by
  unfold State.writeCheck
  split
  · exact h
  · refine .ite h ?_
    split <;> exact h.finish

theorem State.TablesOk.coverDone (h : s.TablesOk) {vol l} : (s.coverDone vol l).TablesOk := h.over fun _ _ h => h.updCmd.writeCheck

theorem State.TablesOk.coverDropped (h : s.TablesOk) {vol lba g} : (s.coverDropped vol lba g).TablesOk :=
  h.over fun _ _ h => h.updCmd.writeCheck

theorem State.TablesOk.recoverFrame (h : s.TablesOk) {f x b} : (s.recoverFrame f x b).TablesOk := h.updFrame.volEvent

theorem State.TablesOk.blockLost (h : s.TablesOk) {f} : (s.blockLost f).TablesOk := by
  unfold State.blockLost
  split
  · exact h
  · extract_lets s₁ s₂ s₃ key s₄ s₅
    have h₂ : s₂.TablesOk := h.volEvent.addLoss
    have h₃ : s₃.TablesOk := .ite h₂ h₂.volumesUpd
    have h₄ : s₄.TablesOk := by
      unfold s₄
      split
      · exact h₃.closeParison
      · exact h₃
    have h₅ : s₅.TablesOk := h₄.freeFrame.coverDropped
    split
    · exact h₅.frame
    · exact h₅

theorem State.TablesOk.issueCells (h : s.TablesOk) {id cells} : (s.issueCells id cells).TablesOk := by
  unfold State.issueCells
  split
  · exact h
  · exact h.updTask.over fun _ _ h => h.askCells

theorem State.TablesOk.planWant (h : s.TablesOk) {id} : (s.planWant id).TablesOk := by
  unfold State.planWant
  split
  · exact h
  · exact h.updTask.issueCells.later

theorem State.TablesOk.writeEntry (h : s.TablesOk) {id} : (s.writeEntry id).TablesOk := by
  unfold State.writeEntry
  split
  · exact h
  · split
    · exact h
    · exact h.tablePut
    · exact h

theorem State.TablesOk.takeRoom (h : s.TablesOk) {id need} : (s.takeRoom id need).2.TablesOk := by
  unfold State.takeRoom
  split
  · exact h
  · dsimp only
    split <;> exact h.updTask

theorem State.TablesOk.gatherStripe (h : s.TablesOk) {id} : (s.gatherStripe id).TablesOk := by
  unfold State.gatherStripe
  split
  · exact h
  · exact h.updTask

theorem State.TablesOk.beginDestage (h : s.TablesOk) {id} : (s.beginDestage id).TablesOk := by
  unfold State.beginDestage
  split
  · exact h
  · refine .ite h.endTask ?_
    extract_lets dirty how m some_ segs par s₁ table s₂
    have h₁ : s₁.TablesOk := by
      unfold s₁
      clear_value par
      split
      · exact .ite h h.closeParison
      · exact h
    have h₂ : s₂.TablesOk := h₁.updTask
    clear_value how s₂
    split
    next ok s₃ hs =>
      have h₃ : s₃.TablesOk := .ofSnd hs h₂.takeRoom
      refine .ite h₃ ?_
      extract_lets cells st seq _ s₄ s₅ s₆ s₇
      have h₇ : s₇.TablesOk := h₃.frame.updTask.writeEntry.over fun _ _ h => h.updFrame
      split
      · exact h₇.updTask.issueCells.later
      · exact h₇.updTask.issueCells.later
      · exact h₇.gatherStripe.planWant
      · exact h₇.updTask.later

theorem State.TablesOk.restartDestage (h : s.TablesOk) {id} : (s.restartDestage id).TablesOk := by
  unfold State.restartDestage
  split
  · exact h
  · extract_lets s₁ s₂ s₃
    have h₁ : s₁.TablesOk := h.over fun _ _ h => h.updFrame.settleFrame
    have h₂ : s₂.TablesOk := h₁.dropReqs.dropJobs.freeStaging
    have h₃ : s₃.TablesOk := by
      unfold s₃
      split
      · exact h₂.tableDel
      · exact h₂
    exact h₃.updTask.beginDestage

theorem State.TablesOk.fullLost (h : s.TablesOk) {id pos} : (s.fullLost id pos).TablesOk := h.updTask.writeEntry

theorem State.TablesOk.dropRecords (h : s.TablesOk) {id} : (s.dropRecords id).TablesOk := by
  unfold State.dropRecords
  split
  · exact h
  · exact h.queueRetire.frame.updTask

theorem State.TablesOk.toFull (h : s.TablesOk) {id pos} : (s.toFull id pos).TablesOk := by
  unfold State.toFull
  split
  · exact h
  · exact .ite h.dropReqs.updTask.freeStaging.takeRoom h.dropReqs.updTask.freeStaging.takeRoom.updTask.writeEntry.gatherStripe.planWant

theorem State.TablesOk.exitMarked (h : s.TablesOk) {id island exit f} : (s.exitMarked id island exit f).TablesOk := h.markedExit.later

theorem State.TablesOk.issueWrites (h : s.TablesOk) {id} : (s.issueWrites id).TablesOk := by
  unfold State.issueWrites
  split
  · exact h
  · split
    · exact h.exitMarked
    · exact .later (h.updTask.over fun _ _ h => h.over fun _ _ h => h.askCells)

theorem State.TablesOk.readyToWrite (h : s.TablesOk) {id} : (s.readyToWrite id).TablesOk := by
  unfold State.readyToWrite
  split
  · exact h
  · extract_lets m staged s₁
    have h₁ : s₁.TablesOk := by
      unfold s₁
      split
      · exact h.stage
      · exact h
    split
    · exact h₁.exitMarked
    · exact .via (fun h => .ite h.spend.updTask.appendRecs h.issueWrites) (.ite h₁.appendRecs h₁)

theorem State.TablesOk.beginRepair (h : s.TablesOk) {id} : (s.beginRepair id).TablesOk := by
  unfold State.beginRepair
  split
  · exact h
  · exact .ite h.endTask (.ite h.updTask.takeRoom h.updTask.takeRoom.frame.updTask.writeEntry.readyToWrite)

theorem State.TablesOk.startRepairs (h : s.TablesOk) {x} : (s.startRepairs x).TablesOk := h.over fun _ _ h => .ite h h.newTask

theorem State.TablesOk.haltStripe (h : s.TablesOk) {id} : (s.haltStripe id).TablesOk := by
  unfold State.haltStripe
  split
  · exact h
  · exact .ite h.event.updWork.endTask.furtherLoss h.event.updWork.endTask

theorem State.TablesOk.startResolve (h : s.TablesOk) {id} : (s.startResolve id).TablesOk := by
  unfold State.startResolve
  split
  · exact h
  · split
    · exact h.endTask
    · exact h.updTask.issueCells.later

theorem State.TablesOk.startScrub (h : s.TablesOk) {id} : (s.startScrub id).TablesOk := by
  unfold State.startScrub
  split
  · exact h
  · exact h.updTask.issueCells.later

theorem State.TablesOk.startCopy' (h : s.TablesOk) {id} : (s.startCopy' id).TablesOk := by
  unfold State.startCopy'
  split
  · exact h
  · exact h.updTask.planWant

theorem State.TablesOk.startRedestage (h : s.TablesOk) {id} : (s.startRedestage id).TablesOk := by
  unfold State.startRedestage
  split
  · exact h
  · refine .via (fun h => h.updTask.planWant) ?_
    split
    · exact .ite h.updTask h.updTask.closeParison
    · exact h.updTask

theorem State.TablesOk.startTask (h : s.TablesOk) {id} : (s.startTask id).TablesOk := by
  unfold State.startTask
  split
  · exact h
  · split
    · exact h.planWant
    · exact h.planWant
    · exact h.planWant
    · exact h.beginDestage
    · exact h.startRedestage
    · exact h.beginRepair
    · exact h.startCopy'
    · exact h.startCopy'
    · exact h.startScrub
    · exact h.startResolve
    · exact h.issueWrites

end

end Sys2Proof.Machine
end

section
/-! PROOFS. Canonical tables while a command settles. -/

namespace Sys2Proof.Machine

open Sys2Proof

section

variable {s t u v : State}

/-! ### Settling -/

theorem State.TablesOk.regather (h : s.TablesOk) {id} : (s.regather id).TablesOk := h.updTask.gatherStripe.planWant

theorem State.TablesOk.nextOp (h : s.TablesOk) {id x o rest} : (s.nextOp id x o rest).TablesOk :=
  .ite h.regather (.ite h.updTask.later (.ite h.updTask h.newId.updTask.pinAll.sendJob))

theorem State.TablesOk.opDone (h : s.TablesOk) {id} : (s.opDone id).TablesOk := by
  unfold State.opDone
  split
  · exact h
  · split
    · exact h
    · refine .via (fun h => h.updTask.later) ?_
      split
      · exact h.wordBad.setTile
      · exact h

theorem State.TablesOk.uncompared (h : s.TablesOk) {vol} : (s.uncompared vol).TablesOk := h.volumesUpd

theorem State.TablesOk.requestUpgrade (h : s.TablesOk) {id} : (s.requestUpgrade id).TablesOk := by
  unfold State.requestUpgrade
  split
  · exact h
  · dsimp only
    split
    · exact .ite h h.updTask.updTask.endTask
    · exact h.updTask.setLock.grantLock

theorem State.TablesOk.lateOver (h : s.TablesOk) {id} : (s.lateOver id).TablesOk := by
  unfold State.lateOver
  split
  · exact h
  · exact .ite h (.ite h.endTask h.requestUpgrade)

theorem State.TablesOk.holdEnds (h : s.TablesOk) {id} : (s.holdEnds id).TablesOk := by
  unfold State.holdEnds
  split
  · exact h
  · exact .ite h.updTask.releaseLock h.newId.setLock.tasksPut.updTask.requestUpgrade

theorem State.TablesOk.lateAgain (h : s.TablesOk) {id x r} : (s.lateAgain id x r).TablesOk := .ite h h.askPort.updTask

theorem State.TablesOk.lateEnded (h : s.TablesOk) {id port req pos r res} : (s.lateEnded id port req pos r res).TablesOk := by
  unfold State.lateEnded
  split
  · exact h
  · refine .via (fun h => h.lateOver) (.ite h.updTask.lateAgain ?_)
    split
    · exact .ite h.updTask.uncompared.startRepairs (.ite h.updTask.uncompared (.ite h.updTask h.updTask.takeFrames.updTask))
    · exact h.updTask.startRepairs
    · exact h.updTask

theorem State.TablesOk.leave (h : s.TablesOk) {id} : (s.leave id).TablesOk := by
  unfold State.leave
  split
  · exact h
  · exact .ite h.endTask h.updTask.lateOver

theorem State.TablesOk.noteTakers (h : s.TablesOk) {id x cells} : (s.noteTakers id x cells).TablesOk := h.updTask

theorem State.TablesOk.fillOver (h : s.TablesOk) {id x} : (s.fillOver id x).TablesOk :=
  .leave (.updTask (.startRepairs (.deliver (h.noteTakers.over fun _ _ h => h.fillDone))))

theorem State.TablesOk.unitOver (h : s.TablesOk) {id x} : (s.unitOver id x).TablesOk :=
  .leave (.updTask (.startRepairs (.deliver (.volumesUpd (.noteTakers (h.over fun _ _ h => h.fillDone))))))

theorem State.TablesOk.memberReadLost (h : s.TablesOk) {id pos segs back} : (s.memberReadLost id pos segs back).TablesOk := by
  unfold State.memberReadLost
  split
  · exact h
  · dsimp only
    split
    · exact h.updTask.planWant
    · exact h.updTask.planWant
    · exact h.endTask
    · exact .ite h.fullLost.planWant h.toFull
    · exact h.updTask.planWant
    · exact h.updTask.planWant
    · exact h.updTask.planWant
    · exact h.updTask.later
    · exact h.later
    · exact h
    · exact h

theorem State.TablesOk.abandonHedge (h : s.TablesOk) {id parent req} : (s.abandonHedge id parent req).TablesOk := by
  unfold State.abandonHedge
  dsimp only
  split
  · exact h.endTask
  · split
    · exact h.endTask.updTask.memberReadLost
    · exact h.endTask

theorem State.TablesOk.hedgeOver (h : s.TablesOk) {id parent req pos x} : (s.hedgeOver id parent req pos x).TablesOk := by
  refine .ite h.abandonHedge ?_
  dsimp only
  split
  · exact h.endTask
  · exact .ite h.endTask h.endTask.volumesUpd.updTask.later

theorem State.TablesOk.endWrite (h : s.TablesOk) {id x} : (s.endWrite id x).TablesOk := by
  unfold State.endWrite
  dsimp only
  split
  · exact h.endTask.closeParison
  · exact h.endTask

theorem State.TablesOk.retireWith (h : s.TablesOk) {id x items} : (s.retireWith id x items).TablesOk :=
  .ite h.queueRetire.updTask h.queueRetire.endWrite

theorem State.TablesOk.retireTask (h : s.TablesOk) {id x} : (s.retireTask id x).TablesOk := h.retireWith

theorem State.TablesOk.zeroLoss (h : s.TablesOk) {x cause} : (s.zeroLoss x cause).TablesOk :=
  .ite h (.ite (h.addLoss.over fun _ _ h => h.event) h.addLoss.event)

theorem State.TablesOk.destageOver (h : s.TablesOk) {id x} : (s.destageOver id x).TablesOk :=
  .via (fun h => .coverDone (.retireWith (.ite h.zeroLoss.updWork h.zeroLoss))) (h.over fun _ _ h => h.updFrame.settleFrame)

theorem State.TablesOk.freeRestored (h : s.TablesOk) {of} : (s.freeRestored of).TablesOk := h.over fun _ _ h => h.updFrame.settleFrame

theorem State.TablesOk.checkMarked (h : s.TablesOk) {marked} : (s.checkMarked marked).2.2.TablesOk := by
  refine .via (fun h => h.lived (by rfl)) (State.TablesOk.over (h.over fun _ _ h => h.updRegion) fun _ _ h => ?_)
  split
  · exact h.addLoss
  · exact h

theorem State.TablesOk.checksWithoutDump (h : s.TablesOk) : s.checksWithoutDump.TablesOk := h.checkMarked.event

theorem State.TablesOk.startProgress (h : s.TablesOk) : s.startProgress.TablesOk := by
  refine .ite h
    (.via (fun h =>
         .ite (.demand (.freeRestored (.ite (h.lived (by rfl)).event (h.lived (by rfl))))) h)
       (.ite (State.TablesOk.over (.ite (h.lived (by rfl)).event (h.lived (by rfl)).event.checksWithoutDump) fun _ _ h => ?_) h))
  split
  · exact h.requestLock
  · exact h

theorem State.TablesOk.redestageOver (h : s.TablesOk) {id x records} : (s.redestageOver id x records).TablesOk :=
  .via (fun h =>
      .via (fun h => .startProgress (.coverDone (.endWrite (.queueRetire (.ite h.zeroLoss (h.zeroLoss.lived (by rfl)))))))
        (.ite h h.freeRestored))
    (h.over fun _ _ h => h.updFrame)

theorem State.TablesOk.zeroOver (h : s.TablesOk) {id acc} : (s.zeroOver id acc).TablesOk := by
  unfold State.zeroOver
  dsimp only
  split
  · exact h.endTask
  · exact .ite h.endTask.updCmd.volumesUpd.noteVolume.volEvent.finishLogged h.endTask.updCmd

theorem State.TablesOk.volumesAttached (h : s.TablesOk) : s.volumesAttached.TablesOk := by
  refine h.over fun _ _ h => ?_
  split
  · exact h.volEvent
  · exact h

theorem State.TablesOk.importProgress (h : s.TablesOk) : s.importProgress.TablesOk := by
  unfold State.importProgress
  split
  · exact h
  · extract_lets low _ _ s₁ s₂
    have h₁ : s₁.TablesOk := { h with pools := by dsimp only [s₁]; exact Store.wf_each _ h.pools }
    exact .ite h h₁.writeLabels.volumesAttached.event.finish

theorem State.TablesOk.scrubOver (h : s.TablesOk) {id x check} : (s.scrubOver id x check).TablesOk := by
  unfold State.scrubOver
  extract_lets s₁ left s₂ s₃ _ s₄ t
  have h₁ : s₁.TablesOk := h.retireTask
  have h₄ : s₄.TablesOk := h₁.updRegion.updWork.lived (by rfl)
  exact .ite (.ite h₄.frame.importProgress.startProgress h₄.importProgress.startProgress) h₁

theorem State.TablesOk.noteSuspects (h : s.TablesOk) {vol e rows} : (s.noteSuspects vol e rows).TablesOk :=
  h.over fun _ _ h => h.suspectsPut

theorem State.TablesOk.suspectCheck (h : s.TablesOk) : s.suspectCheck.TablesOk := by
  refine h.over fun s e h => .volEvent ?_
  exact { h with suspects := Store.wf_del _ h.suspects, volumes := by dsimp only; exact Store.wf_upd _ _ h.volumes }

theorem State.TablesOk.resolveOver (h : s.TablesOk) {id x} : (s.resolveOver id x).TablesOk := by
  unfold State.resolveOver
  split
  · exact h.endTask
  · refine .via (fun h =>
        .ite h.queueRetire.endTask (.via (fun h => h.freeStaging.updTask.startResolve) ?_))
      (h.over fun _ _ h => h.noteSuspects.freeAll)
    split
    · exact h.queueRetire.tableDel
    · exact h.queueRetire

theorem State.TablesOk.destageComputed (h : s.TablesOk) {id x} : (s.destageComputed id x).TablesOk := by
  refine .ite h.updTask.readyToWrite ?_
  split
  · exact h.updTask.readyToWrite
  · exact h.updTask.readyToWrite
  · exact h.updTask.later
  · exact h.updTask.later
  · exact h.updTask.later
  · exact .ite h.regather h.updTask.later

theorem State.TablesOk.redestageComputed (h : s.TablesOk) {id x} : (s.redestageComputed id x).TablesOk :=
  .ite h.updTask.issueWrites (.ite h.updTask.issueWrites h.updTask.later)

theorem State.TablesOk.scrubComputed (h : s.TablesOk) {id x report check'} : (s.scrubComputed id x report check').TablesOk := by
  refine .ite h.updTask.later
    (.ite h.updTask.later
       (.via (fun h =>
            .ite h.scrubOver h.updTask.beginRepair)
          (h.over fun _ _ h => .via (fun h => .ite ?_ h.event) (.ite h.poolsUpd.frame h.poolsUpd))))
  dsimp only
  split
  · exact h.event.addLoss
  · exact h.event

theorem State.TablesOk.resolveComputed (h : s.TablesOk) {id x} : (s.resolveComputed id x).TablesOk := by
  unfold State.resolveComputed
  split
  · exact h.endTask
  · exact .ite h.updTask.later (.via (fun h => .ite h.updTask.resolveOver h.updTask.beginRepair) (.ite h.updRegion h))

theorem State.TablesOk.computed (h : s.TablesOk) {id x} : (s.computed id x).TablesOk := by
  unfold State.computed
  split
  · exact h.fillOver
  · exact h.unitOver
  · exact h.hedgeOver
  · exact h.destageComputed
  · exact h.redestageComputed
  · exact h
  · exact .ite h.haltStripe h.updTask.issueWrites
  · exact .ite h.haltStripe h.updTask.issueWrites
  · exact h.scrubComputed
  · exact h.resolveComputed
  · exact h

theorem State.TablesOk.written (h : s.TablesOk) {id x} : (s.written id x).TablesOk := by
  unfold State.written
  split
  · exact h.destageOver
  · exact h.redestageOver
  · exact .ite h.retireTask h.volumesUpd.event.retireTask
  · exact h.startRepairs.stripeDone
  · exact h.startRepairs.stripeDone
  · exact h.scrubOver
  · exact h.resolveOver
  · exact h.zeroOver
  · exact h
  · exact h
  · exact h

theorem State.TablesOk.advance (h : s.TablesOk) {id} : (s.advance id).TablesOk := by
  unfold State.advance
  split
  · exact h
  · refine .ite (.ite h h.dropRecords.restartDestage) ?_
    split
    · refine .ite h ?_
      split
      · exact h.nextOp
      · exact h.computed
    · exact .ite h.updTask.writeEntry.written h.updTask.writeEntry
    · exact h

theorem State.TablesOk.endHedges (h : s.TablesOk) {parent req} : (s.endHedges parent req).TablesOk := h.over fun _ _ h => h.endTask

theorem State.TablesOk.readFailed (h : s.TablesOk) {id req x r back} : (s.readFailed id req x r back).TablesOk := by
  unfold State.readFailed
  split
  · exact h.abandonHedge
  · exact .ite h.updTask h.updTask.memberReadLost

theorem State.TablesOk.readEnded (h : s.TablesOk) {id x port req r res} : (s.readEnded id x port req r res).TablesOk := by
  refine .ite (.ite h.readFailed h.updTask.endHedges.issueCells) ?_
  split
  · exact .ite (.ite h.readFailed h.updTask.reissue) h.updTask.endHedges.updTask.later
  · exact h.readFailed
  · exact h.readFailed

theorem State.TablesOk.writeEnded (h : s.TablesOk) {id x port req r res} : (s.writeEnded id x port req r res).TablesOk := by
  refine .ite (.ite h.updTask.later (.later (h.updTask.over fun _ _ h => h.askCells))) ?_
  split
  · exact h.updTask.later
  · split
    · refine .ite h.updTask.later (.via (fun h => h.later.later) ?_)
      split
      · exact h.updTask
      · exact h.updTask
      · exact h.updTask.event
    · exact h.updTask.later
  · refine .ite (.via (fun h => h.later.later) ?_) h.updTask.reissue.later
    split
    · exact h.updTask
    · exact h.updTask
    · exact h.updTask.event

theorem State.TablesOk.metaEnded (h : s.TablesOk) {port req r res} : (s.metaEnded port req r res).TablesOk := by
  refine .ite h ?_
  split
  · exact h.frame.metaCheck
  · exact h.failMember.frame.metaCheck
  · exact .ite h.failMember.frame.metaCheck h.askPort.frame

theorem State.TablesOk.reqDone (h : s.TablesOk) {port req r res} : (s.reqDone port req r res).TablesOk := by
  unfold State.reqDone
  extract_lets s₁
  have h₁ : s₁.TablesOk := by
    unfold s₁
    split
    · exact h.countRebuildBytes
    · exact h
  refine .ite h.metaEnded ?_
  split
  · exact h₁
  · exact .ite h₁.writeEnded (.ite h₁.lateEnded (.ite h₁.readEnded h₁))

theorem State.TablesOk.dropFrom (h : s.TablesOk) {f} : (s.dropFrom f).TablesOk := by
  refine h.over fun _ _ h => ?_
  dsimp only
  split
  · exact h.updTask.restartDestage
  · exact h.updTask.restartDestage
  · exact h.updTask.restartDestage
  · exact h.updTask.dropRecords.restartDestage
  · exact h.updTask

theorem State.TablesOk.dropBlock (h : s.TablesOk) {f} : (s.dropBlock f).TablesOk := h.blockLost.dropFrom

theorem State.TablesOk.planAgain (h : s.TablesOk) {id} : (s.planAgain id).TablesOk := h.updTask.planWant

theorem State.TablesOk.redestageAgain (h : s.TablesOk) {id} : (s.redestageAgain id).TablesOk := h.updTask.startRedestage

theorem State.TablesOk.badFrame (h : s.TablesOk) {id f} : (s.badFrame id f).TablesOk := by
  unfold State.badFrame
  split
  · exact h.later
  · split
    · exact h.recoverFrame.updTask.later
    · dsimp only
      split
      · split
        · exact h.updTask.dropBlock.redestageAgain
        · exact h.updTask.dropBlock
      · exact h.updTask.dropBlock

theorem State.TablesOk.badClean (h : s.TablesOk) {id f} : (s.badClean id f).TablesOk := h.rebuilt.supersede.regather

theorem State.TablesOk.inputLost (h : s.TablesOk) {id x o rest p} : (s.inputLost id x o rest p).TablesOk := by
  unfold State.inputLost
  dsimp only
  split
  · exact h.updTask.updTask.later
  · exact h.updTask.updTask.later
  · split
    · exact .ite h.updTask.fullLost.planAgain h.updTask.toFull
    · exact h.updTask.updTask.redestageAgain
    · exact h.updTask.abandonHedge
    · exact h.updTask.updTask.later
    · exact h.updTask.updTask.updTask.planWant

theorem State.TablesOk.jobFailed (h : s.TablesOk) {id tile input seg} : (s.jobFailed id tile input seg).TablesOk := by
  unfold State.jobFailed
  split
  · exact h
  · split
    · exact h
    · refine .ite h.updTask.later ?_
      dsimp only
      split
      · exact .ite h.event.badClean h.event.badFrame
      · exact h.event.inputLost

theorem State.TablesOk.markedWrite (h : s.TablesOk) {id f} : (s.markedWrite id f).TablesOk := by
  unfold State.markedWrite
  split
  · split
    · exact .ite h.recoverFrame.updTask.issueWrites h.recoverFrame.updTask.readyToWrite
    · exact h.badFrame
  · exact h

theorem State.TablesOk.follow (h : s.TablesOk) {x} : (s.follow x).TablesOk := by
  unfold State.follow
  split
  · exact h.startTask
  · exact h.reqDone
  · exact h.advance
  · exact h.failMember
  · exact h.readCheck
  · exact h.markedWrite

theorem State.TablesOk.settleLoop (h : s.TablesOk) {n} : (s.settleLoop n).TablesOk := by
  induction n generalizing s with
  | zero => exact h
  | succ n ih =>
    rw [State.settleLoop]
    split
    · exact h
    · exact ih h.frame.follow

theorem State.TablesOk.settle (h : s.TablesOk) : s.settle.TablesOk := h.settleLoop

end

end Sys2Proof.Machine
end

section
/-! PROOFS. Canonical tables on the write path, and the actions that end in a next state. -/

namespace Sys2Proof.Machine

open Sys2Proof

section

variable {s t u v : State}

/-! ### The write path -/

theorem State.TablesOk.roomInSpill (h : s.TablesOk) {k n} : (s.roomInSpill k n).TablesOk := by
  induction k generalizing s with
  | zero => exact h
  | succ k ih =>
    rw [State.roomInSpill]
    refine .ite h ?_
    split
    · exact ih h.closeParison
    · exact h

theorem State.TablesOk.roomInSram (h : s.TablesOk) {k n} : (s.roomInSram k n).TablesOk := by
  induction k generalizing s with
  | zero => exact h
  | succ k ih =>
    rw [State.roomInSram]
    refine .ite h ?_
    split
    · exact ih h.roomInSpill.parisonsUpd
    · exact h

theorem State.TablesOk.openParison (h : s.TablesOk) {vol r k} : (s.openParison vol r k).TablesOk := by
  unfold State.openParison
  extract_lets +onlyGivenNames m
  refine .ite h ?_
  split
  · exact h
  · extract_lets s₁ id
    have h₁ : s₁.TablesOk := h.roomInSram
    exact h₁.parisonsPut

theorem State.TablesOk.homeFor (h : s.TablesOk) {n home} : (s.homeFor n home).2.TablesOk := by
  induction n generalizing s home with
  | zero => exact h
  | succ n ih =>
    rw [State.homeFor]
    split
    · exact h
    · dsimp only
      split
      · exact ih h.learnEpoch
      · exact h.learnEpoch

theorem State.TablesOk.takeHome (h : s.TablesOk) {id home} : (s.takeHome id home).2.TablesOk := by
  unfold State.takeHome
  split
  next hs => exact .parisonsUpd (.ofSnd hs h.homeFor)

theorem State.TablesOk.absorbIssue (h : s.TablesOk) {id} : (s.absorbIssue id).TablesOk := by
  unfold State.absorbIssue
  split
  · exact h
  · split
    · exact .ite h (.ite h.parisonsUpd h.newId.takeHome.parisonsUpd.pinAll.sendJob)
    · exact h

theorem State.TablesOk.absorbEnd (h : s.TablesOk) {id f old} : (s.absorbEnd id f old).TablesOk := by
  unfold State.absorbEnd
  extract_lets s₁ s₂
  have h₂ : s₂.TablesOk := h.parisonsUpd.updFrame
  split
  · exact h₂.unhold
  · exact h₂

theorem State.TablesOk.absorbNext (h : s.TablesOk) {n id} : (s.absorbNext n id).TablesOk := by
  induction n generalizing s with
  | zero => exact h
  | succ n ih =>
    rw [State.absorbNext]
    split
    · exact h
    · split
      · exact h
      · extract_lets m begin_
        have hbegin : ∀ s f old pos, s.TablesOk → (begin_ s f old pos).TablesOk := fun s f old pos h =>
          .ite (ih h.parisonsUpd.absorbEnd) h.parisonsUpd.absorbIssue
        clear_value begin_
        refine .ite h ?_
        split
        · extract_lets s₁
          have h₁ : s₁.TablesOk := h.parisonsUpd
          split
          · exact hbegin _ _ _ _ h₁
          · exact ih h₁.unhold
        · refine .ite h (.ite (ih h.parisonsUpd) ?_)
          split
          · exact .ite h (hbegin _ _ _ _ h)
          · exact h

theorem State.TablesOk.absorbStripe (h : s.TablesOk) {vol r k} : (s.absorbStripe vol r k).TablesOk := by
  unfold State.absorbStripe
  split
  · exact h
  · exact h.absorbNext

theorem State.TablesOk.absorbAdd (h : s.TablesOk) {j id f old outs words} : (s.absorbAdd j id f old outs words).TablesOk := by
  unfold State.absorbAdd
  split
  · refine .ite h ?_
    split
    · exact h
    · dsimp only
      split
      · exact h.parisonsPut.absorbEnd
      · exact h.parisonsPut
  · exact h

theorem State.TablesOk.absorbed (h : s.TablesOk) {j id f old outs words} : (s.absorbed j id f old outs words).TablesOk := by
  unfold State.absorbed
  dsimp only
  split
  · exact h.absorbAdd
  · exact .ite h.absorbAdd.absorbStripe h.absorbAdd.absorbIssue

theorem State.TablesOk.absorbFailed (h : s.TablesOk) {tile id} : (s.absorbFailed tile id).TablesOk := by
  unfold State.absorbFailed
  split
  · exact h.event.closeParison
  · exact h

theorem State.TablesOk.urgentCheck (h : s.TablesOk) : s.urgentCheck.TablesOk :=
  .via (fun h => .ite h.frame.event (.ite h.frame h)) (.ite h.frame h)

theorem State.TablesOk.stallNote (h : s.TablesOk) : s.stallNote.TablesOk :=
  .via (fun h => .ite (.ite h h.frame) (.ite h h.frame)) (State.TablesOk.over (h.over fun _ _ h => h.updCmd) fun _ _ h => h.updCmd)

theorem State.TablesOk.permEvent (h : s.TablesOk) : s.permEvent.TablesOk := h.event

theorem State.TablesOk.journalInFlight (h : s.TablesOk) : s.journalInFlight.TablesOk := by
  refine h.over fun _ _ h => ?_
  split
  · exact h
  · exact .ite h.updTask.appendRecs h.updTask

theorem State.TablesOk.enterJournaled (h : s.TablesOk) : s.enterJournaled.TablesOk :=
  .urgentCheck (.journalInFlight (.ite h.frame.framesEach.permEvent.event h.frame.framesEach.permEvent))

theorem State.TablesOk.permissionCheck (h : s.TablesOk) : s.permissionCheck.TablesOk := by
  unfold State.permissionCheck
  dsimp only
  split
  · exact .ite (.ite h.frame.permEvent.urgentCheck h.enterJournaled) h
  · exact .ite h.enterJournaled (.ite h.frame.urgentCheck h)
  · exact h

theorem State.TablesOk.energyNote (h : s.TablesOk) : s.energyNote.TablesOk := h.frame

theorem State.TablesOk.permissionFull (h : s.TablesOk) : s.permissionFull.TablesOk := by
  unfold State.permissionFull
  split
  · exact h
  · exact .ite h h.frame.permEvent.urgentCheck

theorem State.TablesOk.limitApplied (h : s.TablesOk) : s.limitApplied.TablesOk := .ite h.permissionCheck.urgentCheck h.frame.urgentCheck

theorem State.TablesOk.reserveCheck (h : s.TablesOk) {oldKept} : (s.reserveCheck oldKept).TablesOk := by
  unfold State.reserveCheck
  extract_lets kept new lowered holds _ s₁ s₂ s₃ s₄
  have h₃ : s₃.TablesOk := h.frame.event.raisePfs.limitApplied
  exact .ite h (.ite h (.ite (.ite h₃.frame h₃.frame.enterJournaled) h₃))

theorem State.TablesOk.replaceBy (h : s.TablesOk) {f vol lba r k} : (s.replaceBy f vol lba r k).TablesOk := by
  unfold State.replaceBy
  split
  · exact h
  · split
    · exact .ite h.parisonsUpd.holdAll.updFrame.supersede h.supersede
    · exact h.supersede

theorem State.TablesOk.installFrame (h : s.TablesOk) {vol v' gen f} : (s.installFrame vol v' gen f).TablesOk := by
  unfold State.installFrame
  split
  · exact h
  · exact h.replaceBy.volumesUpd.updFrame.chainIn

theorem State.TablesOk.noteActive (h : s.TablesOk) {rs} : (s.noteActive rs).TablesOk := h.frame

theorem State.TablesOk.askBits (h : s.TablesOk) {rs} : (s.askBits rs).TablesOk := .ite h h.metaStart

theorem State.TablesOk.install (h : s.TablesOk) {vol fs} : (s.install vol fs).2.TablesOk := by
  unfold State.install
  split
  · exact h
  · exact .frame
      (State.TablesOk.over
         (State.TablesOk.over (h.volumesPut.noteActive.over fun _ _ h => h.installFrame) fun _ _ h => h.openParison)
         (fun _ _ h => h.absorbStripe))

theorem State.TablesOk.commit (h : s.TablesOk) {acc} : (s.commit acc).TablesOk := by
  unfold State.commit
  split
  · exact h
  · split
    · exact h
    · exact .via (fun h => .writeCheck (.ite h.demand h)) (.ite h.install.updCmd.appendRecs h.install.updCmd)

theorem State.TablesOk.tryCommit (h : s.TablesOk) {acc} : (s.tryCommit acc).TablesOk := by
  unfold State.tryCommit
  split
  · exact h
  · exact .ite (.ite h.askBits.commit h.askBits) h

theorem State.TablesOk.startDestage (h : s.TablesOk) {d fg} : (s.startDestage d fg).TablesOk := .newTask (.ite h h.charge)

theorem State.TablesOk.destageNext (h : s.TablesOk) : s.destageNext.TablesOk := by
  refine .ite h ?_
  dsimp only
  split
  · exact h.startDestage
  · split
    · exact h
    · exact .ite h.startDestage h

theorem State.TablesOk.issueUnit (h : s.TablesOk) {id vol first} : (s.issueUnit id vol first).TablesOk := by
  unfold State.issueUnit
  split
  · exact h
  · refine .via (fun h => .ite h.freeAll h.newTask) (.foldlSndTo h fun b a c h hc => ?_)
    extract_lets at hc
    split at hc
    · next ht => exact hc ▸ (h.takeFrame ht)
    · exact hc ▸ h

theorem State.TablesOk.feedStream (h : s.TablesOk) {id} : (s.feedStream id).TablesOk := by
  unfold State.feedStream
  split
  · exact h
  · refine .ite h ?_
    split
    next hs => exact .streamsUpd (.ofSnd hs (h.foldlSnd fun _ _ h => .iteSnd h.issueUnit h))

theorem State.TablesOk.cancelUnits (h : s.TablesOk) {id} : (s.cancelUnits id).TablesOk := h.over fun _ _ h => h.endTask.volumesUpd.deliver

theorem State.TablesOk.noteStream (h : s.TablesOk) {vol lba n} : (s.noteStream vol lba n).TablesOk := by
  unfold State.noteStream
  dsimp only
  split
  · exact h.streamsPut.feedStream
  · exact .streamsPut (.ite h.cancelUnits h)

theorem State.TablesOk.dropStream (h : s.TablesOk) {id} : (s.dropStream id).TablesOk := h.cancelUnits.streamsDel

theorem State.TablesOk.dropStreams (h : s.TablesOk) {vol} : (s.dropStreams vol).TablesOk := h.over fun _ _ h => h.dropStream

theorem State.TablesOk.orphanUnits (h : s.TablesOk) : s.orphanUnits.TablesOk := h.over fun _ _ h => h.cancelUnits

/-- The definition is unfolded as a function: unfolded at its arguments, it would have the kernel evaluate the search for a frame. -/
theorem State.TablesOk.moveFrame (h : s.TablesOk) {f x} : (s.moveFrame f x).TablesOk := by
  have hdef : State.moveFrame = State.moveFrame := rfl
  conv at hdef => rhs; delta State.moveFrame
  rw [hdef]
  beta_reduce
  split
  · exact h
  · next ht => exact (h.takeFrameBut ht).freeFrame.chainIn

theorem State.TablesOk.emptyChannel (h : s.TablesOk) {c} : (s.emptyChannel c).TablesOk :=
  h.moveShare.over fun _ _ h => .ite h (.ite h.freeFrame h.moveFrame)

theorem State.TablesOk.selfTestEnds (h : s.TablesOk) {status} : (s.selfTestEnds status).TablesOk := .ite h h.frame.event.raisePfs

theorem State.TablesOk.updTest (h : s.TablesOk) {f} : (s.updTest f).TablesOk := h.frame

theorem State.TablesOk.unitTested (h : s.TablesOk) {i} : (s.unitTested i).TablesOk := h.updTest

theorem State.TablesOk.rangeStep (h : s.TablesOk) : s.rangeStep.TablesOk := by
  unfold State.rangeStep
  split
  · exact h
  · exact h.updTest.unitTested
  · exact .via (fun h => .ite h h.updTest) (h.over fun _ _ h => .ite h (.ite h.freeFrame h.moveFrame))

theorem State.with_ckpt (s : State) :
    { s with mgmt := { s.mgmt with selfTest := { s.mgmt.selfTest with ckpt := s.mgmt.selfTest.ckpt } } } = s := rfl

theorem State.TablesOk.testReads (h : s.TablesOk) {n} : (testReads n s).TablesOk := by
  delta Sys2Proof.Machine.testReads
  refine State.TablesOk.brecOn (fun _ _ h => h) (fun n b ih s h => ?_) n s h
  have turn : ∀ p,
      (testReads._f (n + 1) b { s with mgmt := { s.mgmt with selfTest := { s.mgmt.selfTest with ckpt := p } } }).TablesOk := by
    intro p
    match p with
    | none => exact h.frame
    | some (_, []) => exact h.frame
    | some (_, a :: l) =>
      refine .ite h.frame ?_
      split
      exact ih _ (.issueOp (.charge (.updTest (.frame h))))
  exact State.with_ckpt s ▸ turn s.mgmt.selfTest.ckpt

theorem State.TablesOk.testCheckpoint (h : s.TablesOk) : s.testCheckpoint.TablesOk := by
  unfold State.testCheckpoint
  dsimp only
  split
  · exact h
  · refine .ite h ?_
    split
    · exact .ite h.updTest (.ite h.testReads (.ite h (.ite h.updTest h.updTest.selfTestEnds)))
    · exact h.updTest.testReads

theorem State.TablesOk.testStep (h : s.TablesOk) : s.testStep.TablesOk := .ite h h.updTest.rangeStep.testCheckpoint

theorem State.TablesOk.lateEpochs (h : s.TablesOk) : s.lateEpochs.TablesOk :=
  .ite h (h.over fun _ _ h => .ite h (.ite h.setIsland.sbCleared h.setIsland))

theorem State.TablesOk.testTile (h : s.TablesOk) {t'} : (s.testTile t').TablesOk := h.over fun _ _ h => h.newId.setTile

theorem State.TablesOk.nextDrain (h : s.TablesOk) : s.nextDrain.TablesOk := by
  refine .ite h ?_
  split
  · exact h.setIsland
  · exact h

theorem State.TablesOk.drainCheck (h : s.TablesOk) : s.drainCheck.TablesOk :=
  .ite h
    (h.nextDrain.over
       (fun _ _ h => .via (fun h => .ite h (.ite h.islandDown.mapOut (.ite h.islandDown h.islandDown.testTile))) (.ite h.emptyChannel h)))

theorem State.TablesOk.freeVolume (h : s.TablesOk) {v' x} : (s.freeVolume v' x).TablesOk :=
  .via (fun h =>
      .via (fun h => .volumesDel (.ite h.volEvent h.volEvent.noteChange)) (.ite h.frame h.frame.logEntries.frame))
    (State.TablesOk.over
       (.retireNow (.queueRetire (State.TablesOk.over (.freeAll (.dropStreams (h.over fun _ _ h => h.endTask))) fun _ _ h => h.closeParison)))
       (fun _ _ h => h.setWork.forgetOwed.updRegion))

theorem State.TablesOk.deleteCheck (h : s.TablesOk) : s.deleteCheck.TablesOk := by
  refine h.over fun _ _ h => .via (fun h => .ite h h.finish) ?_
  split
  · exact .ite h.freeVolume h
  · exact h

theorem State.TablesOk.spareChecks (h : s.TablesOk) : s.spareChecks.TablesOk := .ite h (h.over fun _ _ h => h.spareCheck)

theorem State.TablesOk.pinRetry (h : s.TablesOk) : s.pinRetry.TablesOk :=
  State.TablesOk.over (h.over fun _ _ h => h.updTask.later) fun _ _ h => h.absorbIssue

theorem State.TablesOk.dumpDone (h : s.TablesOk) : s.dumpDone.TablesOk := .ite h.releaseDump h

theorem State.TablesOk.noteActivity (h : s.TablesOk) : s.noteActivity.TablesOk := .ite h.frame h.frame.metaStart

theorem State.TablesOk.starveNote (h : s.TablesOk) : s.starveNote.TablesOk := h.poolsEach

theorem State.TablesOk.slotWatch (h : s.TablesOk) : s.slotWatch.TablesOk := h.over fun _ _ h => .ite h.updWork h.updWork

theorem State.TablesOk.run (h : s.TablesOk) : s.run.TablesOk :=
  h.settle.deleteCheck.orphanUnits.pinRetry.noteActivity.settle.drainCheck.testStep.lateEpochs.pump.dumpDone.memberChecks
    |>.journalPressure.urgentCheck.stallNote.suspectCheck.spareChecks.slotWatch.starveNote

theorem State.TablesOk.keepVault (h : t.TablesOk) : (s.keepVault t).TablesOk := h.reserveCheck.run.frame

theorem NextOk.vaultAct (h : t.TablesOk) : NextOk (vaultAct s t) := .next h.keepVault

/-! ### Starting a command -/

theorem State.TablesOk.start (h : s.TablesOk) {acc op sub} {f : Cmd → State} (hf : ∀ b, (f b).TablesOk) :
    (s.start acc op sub f).TablesOk := by
  unfold State.start
  split
  · exact hf _
  · exact h

theorem State.TablesOk.reply (h : s.TablesOk) {c page result} : (s.reply c page result).TablesOk := .ite h (.finish (.ite h h.hostWrite))

theorem State.TablesOk.check (h : s.TablesOk) (ht : t.TablesOk) {c bad} : (s.check c bad t).TablesOk := by
  unfold State.check
  split
  · exact h.finish
  · exact ht

end

end Sys2Proof.Machine
end

section
/-! PROOFS. Canonical tables in features, gauge and the pass at a power loss. -/

namespace Sys2Proof.Machine

open Sys2Proof

section

variable {s t u v : State}

/-! ### Pages -/

theorem State.TablesOk.setSlot (h : s.TablesOk) {k x} : (s.setSlot k x).TablesOk := h.frame

theorem State.TablesOk.saveSeries (h : s.TablesOk) : s.saveSeries.TablesOk := .ite h h.vprogram

theorem NextOk.execIdentifyModule (h : s.TablesOk) {acc} : NextOk (execIdentifyModule acc s) := .act (h.start fun _ => h.reply)

theorem NextOk.execIdentifyVolumes (h : s.TablesOk) {acc} : NextOk (execIdentifyVolumes acc s) := .act (h.start fun _ => h.reply)

theorem NextOk.execIdentifyTemplate (h : s.TablesOk) {acc} : NextOk (execIdentifyTemplate acc s) := by
  refine .act (h.start fun _ => ?_)
  dsimp only
  split
  · exact h.reply
  · exact h.finish

theorem NextOk.execGetLog (h : s.TablesOk) {acc} : NextOk (execGetLog acc s) := .act (h.start fun _ => h.reply)

/-! ### Features -/

theorem State.TablesOk.setFeature (h : s.TablesOk) {acc id} {f : Cmd → State} (hf : ∀ b, (f b).TablesOk) :
    (s.setFeature acc id f).TablesOk :=
  h.start fun _ => hf _

theorem NextOk.setDevice (h : s.TablesOk) {acc id put} {after : State → State} (hafter : ∀ s, s.TablesOk → (after s).TablesOk) :
    NextOk (setDevice acc id s put after) := by
  unfold Sys2Proof.Machine.setDevice
  split
  · exact .next h
  · exact .actSet (hafter _ h.frame).finish.run

theorem State.TablesOk.setVolume (h : s.TablesOk) {c f} : (s.setVolume c f).TablesOk := h.volumesUpd.noteVolume.finishLogged

theorem State.TablesOk.setPool (h : s.TablesOk) {c f} : (s.setPool c f).TablesOk := h.poolsUpd.noteChange.finishLogged

theorem NextOk.execSetFeatureAckMode (h : s.TablesOk) {acc} : NextOk (execSetFeatureAckMode acc s) :=
  .act (.run (h.setFeature fun _ => h.setVolume))

theorem NextOk.execSetFeatureAgeLimit (h : s.TablesOk) {acc} : NextOk (execSetFeatureAgeLimit acc s) :=
  .act (.run (h.setFeature fun _ => h.setVolume))

theorem NextOk.execSetFeatureLossAck (h : s.TablesOk) {acc} : NextOk (execSetFeatureLossAck acc s) := by
  refine .act (.run (h.setFeature fun _ => ?_))
  dsimp only
  split
  · exact h.finish
  · exact .ite h.finish h.volEvent.volumesPut.noteVolume.finishLogged

theorem NextOk.execSetFeatureDirtyLimit (h : s.TablesOk) {acc} : NextOk (execSetFeatureDirtyLimit acc s) :=
  .setDevice h fun _ h => h.limitApplied

theorem NextOk.execSetFeatureHedge (h : s.TablesOk) {acc} : NextOk (execSetFeatureHedge acc s) :=
  .act (.run (h.setFeature fun _ => h.setPool))

theorem NextOk.execSetFeatureHardTimeout (h : s.TablesOk) {acc} : NextOk (execSetFeatureHardTimeout acc s) :=
  .act (.run (h.setFeature fun _ => h.setPool))

theorem NextOk.execSetFeatureMediaThreshold (h : s.TablesOk) {acc} : NextOk (execSetFeatureMediaThreshold acc s) :=
  .act (.run (h.setFeature fun _ => h.setPool))

theorem NextOk.execSetFeatureScrubPeriod (h : s.TablesOk) {acc} : NextOk (execSetFeatureScrubPeriod acc s) :=
  .act (.run (h.setFeature fun _ => h.setPool))

theorem NextOk.execSetFeaturePatrolPeriod (h : s.TablesOk) {acc} : NextOk (execSetFeaturePatrolPeriod acc s) := .setDevice h fun _ h => h

theorem NextOk.execSetFeatureRefreshThreshold (h : s.TablesOk) {acc} : NextOk (execSetFeatureRefreshThreshold acc s) :=
  .setDevice h fun _ h => h

theorem NextOk.execSetFeatureTagBudget (h : s.TablesOk) {acc} : NextOk (execSetFeatureTagBudget acc s) :=
  .act (.run (h.setFeature fun _ => h.setEp.pump.finish))

theorem NextOk.execSetFeatureClassWeights (h : s.TablesOk) {acc} : NextOk (execSetFeatureClassWeights acc s) := .setDevice h fun _ h => h

theorem NextOk.execSetFeatureMaxClass (h : s.TablesOk) {acc} : NextOk (execSetFeatureMaxClass acc s) :=
  .act (.run (h.setFeature fun _ => h.setFn.finish))

theorem NextOk.execSetFeatureRateLimit (h : s.TablesOk) {acc} : NextOk (execSetFeatureRateLimit acc s) :=
  .act (.run (h.setFeature fun _ => h.setFn.finish))

theorem NextOk.execSetFeatureStallTimeout (h : s.TablesOk) {acc} : NextOk (execSetFeatureStallTimeout acc s) := .setDevice h fun _ h => h

theorem NextOk.execSetFeatureExportWait (h : s.TablesOk) {acc} : NextOk (execSetFeatureExportWait acc s) := .setDevice h fun _ h => h

theorem NextOk.execSetFeatureTimeBase (h : s.TablesOk) {acc} : NextOk (execSetFeatureTimeBase acc s) :=
  .setDevice h fun _ h => .ite h h.frame.event.frame

theorem NextOk.execGetFeature (h : s.TablesOk) {acc} : NextOk (execGetFeature acc s) := .act (.run (h.start fun _ => h.reply))

theorem NextOk.execRingCreateSubmission (h : s.TablesOk) {acc} : NextOk (execRingCreateSubmission acc s) :=
  .act (.run (h.start fun _ => h.check h.sqsPut.finish))

theorem NextOk.execRingCreateCompletion (h : s.TablesOk) {acc} : NextOk (execRingCreateCompletion acc s) :=
  .act (.run (h.start fun _ => h.check h.cqsPut.finish))

/-! ### The gauge -/

theorem State.TablesOk.updPack (h : s.TablesOk) {f} : (s.updPack f).TablesOk := h.frame

theorem State.TablesOk.dieEvent (h : s.TablesOk) {code p1 p2 p3} : (s.dieEvent code p1 p2 p3).TablesOk := .ite h.updPack h.event

theorem State.TablesOk.cross (h : s.TablesOk) {bit} : (s.cross bit).TablesOk := .ite h h.updPack.raisePfs

theorem State.TablesOk.packCrossed (h : s.TablesOk) : s.packCrossed.TablesOk := h.over fun _ _ h => .ite h.setFn h

theorem State.TablesOk.warn (h : s.TablesOk) {level asserted} : (s.warn level asserted).TablesOk :=
  .via (fun h => .ite h h.alert) (.ite h.dieEvent.cross.packCrossed h.dieEvent.cross)

theorem State.TablesOk.mirrorGauge (h : s.TablesOk) : s.mirrorGauge.TablesOk := .ite h (h.updPack.over fun _ _ h => h.vprogram)

theorem State.TablesOk.storeGauge (h : s.TablesOk) : s.storeGauge.TablesOk := h.updPack.mirrorGauge

theorem State.TablesOk.setFlags (h : s.TablesOk) {f} : (s.setFlags f).TablesOk := .ite h.updPack h.updPack.storeGauge

theorem State.TablesOk.setConverter (h : s.TablesOk) {mv} : (s.setConverter mv).TablesOk := by
  refine .ite h ?_
  dsimp only
  split
  · exact .ite h.updPack.emit (h.updPack.emit.lived (by rfl))
  · exact h.updPack.emit

theorem State.TablesOk.setCharger (h : s.TablesOk) {x} : (s.setCharger x).TablesOk := .ite h h.updPack.emit

theorem State.TablesOk.converterCheck (h : s.TablesOk) : s.converterCheck.TablesOk := h.setConverter.setCharger

theorem State.TablesOk.packTo (h : s.TablesOk) {st} : (s.packTo st).TablesOk := h.updPack.converterCheck

theorem State.TablesOk.toIdentify (h : s.TablesOk) : s.toIdentify.TablesOk := h.packTo

theorem State.TablesOk.toCharge (h : s.TablesOk) {st} : (s.toCharge st).TablesOk := h.updPack.packTo

theorem State.TablesOk.checkW3 (h : s.TablesOk) : s.checkW3.TablesOk := .ite h.updPack.warn (.ite h.updPack.warn h)

theorem State.TablesOk.learnEnds (h : s.TablesOk) {result cMeas} : (s.learnEnds result cMeas).TablesOk :=
  h.updPack.setFlags.dieEvent.cross

theorem State.TablesOk.learnAbort (h : s.TablesOk) : s.learnAbort.TablesOk := .ite h.learnEnds h

theorem State.TablesOk.vinReads (h : s.TablesOk) {mv} : (s.vinReads mv).TablesOk :=
  .ite h.updPack.learnAbort.packTo h.updPack.converterCheck

theorem State.TablesOk.learnStart (h : s.TablesOk) : s.learnStart.TablesOk := h.packTo

theorem State.TablesOk.evaluate (h : s.TablesOk) : s.evaluate.TablesOk :=
  .via (fun h =>
      .checkW3 (.ite h.updPack.warn (.ite h.updPack.warn h)))
    (.ite h.updPack.updPack.warn (.ite h.updPack.updPack.warn h.updPack))

theorem State.TablesOk.countBreak (h : s.TablesOk) : s.countBreak.TablesOk := h.updPack

theorem State.TablesOk.countLife (h : s.TablesOk) {series v' bin inst} : (s.countLife series v' bin inst).TablesOk :=
  .ite h.updPack h.frame.extreme

theorem State.TablesOk.countBits (h : s.TablesOk) {d l} : (s.countBits d l).TablesOk := by
  refine h.over fun _ _ h => ?_
  split
  · exact h.frame.countLife
  · exact h

theorem State.TablesOk.countSegments (h : s.TablesOk) {l after} : (s.countSegments l after).TablesOk := h.over fun _ _ h => h.countBits

theorem State.TablesOk.countAt (h : s.TablesOk) {l} : (s.countAt l).TablesOk := h.over fun _ _ h => h.countBits

theorem State.TablesOk.episodeEnds (h : s.TablesOk) : s.episodeEnds.TablesOk := by
  unfold State.episodeEnds
  split
  · exact h
  · exact h.updPack.countLife

theorem State.TablesOk.anchor (h : s.TablesOk) {empty mc} : (s.anchor empty mc).TablesOk := h.episodeEnds.updPack.dieEvent.storeGauge

theorem State.TablesOk.resetLearned (h : s.TablesOk) : s.resetLearned.TablesOk := .storeGauge (.updPack (.ite h.learnAbort.toCharge h))

theorem State.TablesOk.declare (h : s.TablesOk) {d} : (s.declare d).TablesOk := by
  refine .ite h ?_
  dsimp only
  split
  · exact .ite h.updPack.resetLearned.updPack.packTo h.updPack.resetLearned.packTo
  · exact h.updPack.resetLearned.packTo
  · exact h.updPack.resetLearned.converterCheck

theorem State.TablesOk.shipOpen (h : s.TablesOk) : s.shipOpen.TablesOk := h.storeGauge.countBreak.updPack.emit.packTo.dieEvent.checkW3

theorem State.TablesOk.dieCheck (h : s.TablesOk) : s.dieCheck.TablesOk := .ite h.countBreak.updPack h

/-! ### The pass at a power loss -/

theorem State.TablesOk.hostCleared (h : s.TablesOk) : s.hostCleared.TablesOk := by
  unfold State.hostCleared
  exact { h with
    eps := by dsimp only; exact Store.wf_each _ h.eps
    fns := by dsimp only; exact Store.wf_each _ h.fns
    sqs := rfl
    cqs := rfl
    cmds := rfl }

theorem State.TablesOk.clearRecords (h : s.TablesOk) {pf} : (s.clearRecords pf).TablesOk := h.frame.storeRecord.over fun _ _ h => h.setFn

theorem State.TablesOk.clearBegun (h : s.TablesOk) : s.clearBegun.TablesOk := .ite h.clearRecords h

theorem State.TablesOk.discardGather (h : s.TablesOk) {c reason} : (s.discardGather c reason).TablesOk :=
  .ite h.framesKeep.unpin.fnEvent h.framesKeep.unpin

theorem State.TablesOk.hbLow (h : s.TablesOk) : s.hbLow.TablesOk := .ite (h.lived (by rfl)).emit h

theorem State.TablesOk.jobsOver (h : s.TablesOk) : s.jobsOver.TablesOk := by
  refine .via (fun h => h.over fun _ _ h => .ite h.parisonsUpd.unhold h.closeParison) (h.over fun _ _ h => ?_)
  split
  · exact h.absorbAdd
  · exact h

theorem State.TablesOk.unitsOver (h : s.TablesOk) : s.unitsOver.TablesOk := h.over fun _ _ h => h.endTask.volumesUpd

theorem State.TablesOk.gateIsland (h : s.TablesOk) {i status} : (s.gateIsland i status).TablesOk := .ite h (.ite h.setIsland h.setIsland)

theorem State.TablesOk.gateAll (h : s.TablesOk) {cause} : (s.gateAll cause).TablesOk := h.over fun _ _ h => h.gateIsland

theorem State.TablesOk.startLehr (h : s.TablesOk) {cause} : (s.startLehr cause).TablesOk := by
  unfold State.startLehr
  extract_lets s₁ t s₂ s₃ keepHost s₄ sram _ s₅
  have h₂ : s₂.TablesOk := h.selfTestEnds.over fun _ _ h => .ite h h.discardGather
  have h₃ : s₃.TablesOk := .jobsOver (.unitsOver { h₂ with cmds := rfl })
  have h₄ : s₄.TablesOk := .ite h₃ h₃.hostCleared
  have h₅ : s₅.TablesOk := { h₄ with
    cmds := rfl
    tiles := rfl
    parisons := by dsimp only [s₅]; exact Store.wf_keep _ h₄.parisons
    frames := by dsimp only [s₅]; exact h₄.frames.keep _
    ports := by dsimp only [s₅]; exact Store.wf_each _ h₄.ports }
  exact .ite h (.converterCheck (.gateAll (.hbLow (.ite h₅ h₅.endAlert))))

theorem State.TablesOk.cutMapLog (h : s.TablesOk) : s.cutMapLog.TablesOk := by
  unfold State.cutMapLog
  dsimp only
  split <;> exact h.frame

theorem State.TablesOk.storeNow (h : s.TablesOk) {b page content} : (s.storeNow b page content).TablesOk := h.storeSectors

theorem State.TablesOk.passPage (h : s.TablesOk) {fails p fuel n} : (passPage fails p fuel n s).2.2.TablesOk := by
  induction fuel generalizing s n with
  | zero => exact h
  | succ fuel ih =>
    rw [Sys2Proof.Machine.passPage]
    split
    · exact h
    · next ht => exact .iteSndSnd (ih (h.pageFor ht).setVblk.frame) (h.pageFor ht).storeNow

theorem State.TablesOk.pagesNow (h : s.TablesOk) {n fails content} : (State.pagesNow (n, s) fails content).2.2.TablesOk :=
  State.TablesOk.foldlSndSnd h fun _ _ h => h.passPage

theorem State.TablesOk.recordNow (h : s.TablesOk) {n fails l} : (State.recordNow (n, s) fails l).2.TablesOk := by
  unfold State.recordNow
  extract_lets v content _ s₁
  have h₁ : s₁.TablesOk := h.frame
  split
  next n left s₂ hs =>
    have h₂ : s₂.TablesOk := .ofSndSnd hs h₁.pagesNow
    exact h₂.frame

theorem State.TablesOk.commitNow (h : s.TablesOk) {n fails l} : (State.commitNow (n, s) fails l).2.TablesOk :=
  .iteSnd h.recordNow h.recordNow.recordNow

theorem State.TablesOk.opensNow (h : s.TablesOk) {n fails k} : (opensNow fails k (n, s)).2.TablesOk := by
  induction k generalizing s n with
  | zero => exact h
  | succ k ih =>
    rw [Sys2Proof.Machine.opensNow]
    exact .iteSnd h (ih h.commitNow)

theorem State.TablesOk.retiredNow (h : s.TablesOk) {b} : (s.retiredNow b).TablesOk := h.setVblk.event.percentUpdate

theorem State.TablesOk.emptyNow (h : s.TablesOk) {n fails b} : (State.emptyNow fails (n, s) b).2.TablesOk := by
  unfold State.emptyNow
  extract_lets src
  split
  next n left s₁ hs =>
    have h₁ : s₁.TablesOk := .ofSndSnd hs h.pagesNow
    refine .iteSnd h₁ ?_
    extract_lets pages
    split
    next n' s₂ hs₂ =>
      have h₂ : s₂.TablesOk := .ofSnd hs₂ h₁.commitNow
      exact h₂.retiredNow.dropSectors

theorem State.TablesOk.retireAllNow (h : s.TablesOk) {n fails k} : (retireAllNow fails k (n, s)).2.TablesOk := by
  induction k generalizing s n with
  | zero => exact h
  | succ k ih =>
    rw [Sys2Proof.Machine.retireAllNow]
    split
    · exact h
    · exact ih h.frame.emptyNow

theorem State.TablesOk.openDump (h : s.TablesOk) {opened failed logFails} : (s.openDump opened failed logFails).TablesOk := by
  unfold State.openDump
  extract_lets _ s₁
  have h₁ : s₁.TablesOk := h.frame
  split
  next n s₂ hs₂ =>
    have h₂ : s₂.TablesOk := .ofSnd hs₂ (.foldlSnd h₁ fun _ _ h => h.commitNow)
    extract_lets s₃
    have h₃ : s₃.TablesOk := h₂.over fun _ _ h => h.setVblk
    split
    next n' s₄ hs₄ =>
      have h₄ : s₄.TablesOk := .ofSnd hs₄ (.iteSnd h₃ h₃.commitNow)
      extract_lets s₅
      have h₅ : s₅.TablesOk := h₄.over fun _ _ h => h.frame.retiredNow
      split
      next n'' s₆ hs₆ =>
        have h₆ : s₆.TablesOk := .ofSnd hs₆ h₅.retireAllNow.opensNow
        exact h₆.frame

theorem State.TablesOk.storeDump (h : s.TablesOk) {seq blocks segments} : (s.storeDump seq blocks segments).TablesOk := by
  refine h.over fun _ _ h => ?_
  split
  · exact h.storeNow
  · exact h

theorem Store.wf_committed (h : s.TablesOk) : s.committed.wf = true :=
  Store.wf_foldl h.regions fun _ _ h => Store.wf_putD _ _ _ h

theorem State.TablesOk.writeDump (h : s.TablesOk) {l durationUs packMj sealed_ failed} :
    (s.writeDump l durationUs packMj sealed_ failed).TablesOk := by
  unfold State.writeDump
  extract_lets s₁ s₂ c regions j0 j1 total bad room entries parisons table sections head n kept need order good opened after nextSeq s₃
    seq d₀ all body segments d
  have h₂ : s₂.TablesOk := h.cutMapLog.framesEach
  have h₃ : s₃.TablesOk := h₂.openDump
  have hd : d.regions.wf = true := Store.wf_committed h₂
  clear_value d segments s₃
  refine h₃.storeDump.withLife ?_
  split
  · exact h₃.dump
  · rintro _ ⟨⟩
    exact hd

theorem State.TablesOk.dieReset (h : s.TablesOk) {until_} : (s.dieReset until_).TablesOk := by
  unfold State.dieReset
  extract_lets s₁ keep _ _ s₂
  have h₁ : s₁.TablesOk := h.selfTestEnds
  have h₂ : s₂.TablesOk := .ite (h₁.over fun _ _ h => h.gateIsland) (h₁.hostCleared.endAlert.withLife h₁.dump)
  exact .ite h (h₂.lived (by rfl)).converterCheck.emit

theorem State.TablesOk.railsFall (h : s.TablesOk) : s.railsFall.TablesOk := (h.dieReset.hostCleared.setConverter.lived (by rfl)).dieCheck

theorem State.TablesOk.puntyActs (h : s.TablesOk) {l isSealed} : (s.puntyActs l isSealed).TablesOk :=
  .via (fun h =>
      .ite h.railsFall
        (.ite h.dieReset
          (.ite (.ite h.setState.dieReset (h.updIsland.lived (by rfl)).converterCheck)
            (.ite h.dieReset (h.lived (by rfl)).converterCheck))))
    (.ite h.shipOpen h)

theorem State.TablesOk.passUnsealed (h : s.TablesOk) {l} : (s.passUnsealed l).TablesOk := .ite h.puntyActs h.writeDump.puntyActs

theorem State.TablesOk.converterLost (h : s.TablesOk) : s.converterLost.TablesOk := by
  refine .ite h ?_
  split
  · exact h.passUnsealed
  · exact h.railsFall

theorem State.TablesOk.failWith (h : s.TablesOk) {cause} : (s.failWith cause).TablesOk :=
  .ite h (.via (fun h => .ite h.startLehr (h.lived (by rfl))) (h.lived (by rfl)).setState.alert.hbLow)

theorem State.TablesOk.failDevice (h : s.TablesOk) : s.failDevice.TablesOk := h.failWith

theorem State.TablesOk.fatalInternal (h : s.TablesOk) {cause island} : (s.fatalInternal cause island).TablesOk :=
  .ite h.event h.event.failWith

theorem State.TablesOk.beginMapOut (h : s.TablesOk) {i} : (s.beginMapOut i).TablesOk :=
  .ite h (.ite h.fatalInternal (.ite h.fatalInternal (.ite h.mapOut h.setIsland.drainCheck)))

theorem State.TablesOk.channelWindow (h : s.TablesOk) {i} : (s.channelWindow i).TablesOk := .ite h.updIsland.beginMapOut h.updIsland

theorem State.TablesOk.channelWord (h : s.TablesOk) {c area} : (s.channelWord c area).TablesOk := h.wordBad.channelWindow

theorem State.TablesOk.fencePort (h : s.TablesOk) {p} : (s.fencePort p).TablesOk := .ite h h.setPort.emit

theorem State.TablesOk.fenceReleased (h : s.TablesOk) {p ok} : (s.fenceReleased p ok).TablesOk := .ite h h.setPort.gateIsland

theorem State.TablesOk.fence (h : s.TablesOk) {by_} : (s.fence by_).TablesOk := by
  unfold State.fence
  extract_lets st pass s₁ _ s₂ s₃ s₄ _ s₅
  have h₁ : s₁.TablesOk := .ite h.event.raisePfs h
  have h₃ : s₃.TablesOk := (h₁.lived (by rfl)).setState.hbLow
  have h₄ : s₄.TablesOk := h₃.startLehr
  have h₅ : s₅.TablesOk := { h₄ with ports := by dsimp only [s₅]; exact Store.wf_each _ h₄.ports }
  exact .ite h (.ite (h₅.over fun _ _ h => h.fencePort) h₃)

end

end Sys2Proof.Machine
end

section
/-! PROOFS. Canonical tables in power, governor, drives and slots. -/

namespace Sys2Proof.Machine

open Sys2Proof

section

variable {s t u v : State}

/-! ### Power -/

theorem State.TablesOk.energyChanged (h : s.TablesOk) : s.energyChanged.TablesOk := .ite h h.energyNote.permissionCheck

theorem NextOk.execStatusFrame (h : s.TablesOk) {frame} : NextOk (execStatusFrame frame s) :=
  .act (.ite h (.ite h.vinReads.updPack h.vinReads.updPack.frame.energyChanged.run))

theorem NextOk.execStatusFrameTimeout (h : s.TablesOk) : NextOk (execStatusFrameTimeout s) := .act (.ite h h.frame.energyChanged.run)

theorem NextOk.execPackEnergyAvailable (h : s.TablesOk) : NextOk (execPackEnergyAvailable s) := by
  refine .act ?_
  split
  · exact h
  · exact .ite h h.frame.energyChanged.run

theorem NextOk.execPowerFailDetect (h : s.TablesOk) {vinMv} : NextOk (execPowerFailDetect vinMv s) :=
  .act (.ite h (.via (fun h => .ite h.converterLost h) h.vinReads.updPack.emit))

theorem NextOk.execVinOvervoltage (h : s.TablesOk) {vinMv} : NextOk (execVinOvervoltage vinMv s) :=
  .act (.ite h h.updPack.emit.converterCheck.dieEvent.emit)

theorem NextOk.execVinReturnInRange (h : s.TablesOk) : NextOk (execVinReturnInRange s) :=
  .act (.ite h (.converterCheck (.ite h.updPack.emit (h.updPack.emit.lived (by rfl)))))

theorem NextOk.execVinBelowHoldup (h : s.TablesOk) {vinMv} : NextOk (execVinBelowHoldup vinMv s) := .act (.ite h h.vinReads)

theorem NextOk.execVinAboveHoldup (h : s.TablesOk) : NextOk (execVinAboveHoldup s) :=
  .act (.ite h (.ite h.updPack.packTo h.updPack.converterCheck))

theorem NextOk.execHoldupUvlo (h : s.TablesOk) : NextOk (execHoldupUvlo s) :=
  .act (.ite h h.updPack.converterCheck.dieEvent.checkW3.converterLost)

theorem NextOk.execHoldupUvloRecover (h : s.TablesOk) : NextOk (execHoldupUvloRecover s) := .act (.ite h h.updPack.converterCheck.checkW3)

theorem NextOk.execPackPresenceChange (h : s.TablesOk) {present} : NextOk (execPackPresenceChange present s) :=
  .act
    (.ite h
       (.ite (.via (fun h => .ite h.dieEvent h) (.ite h.updPack.packTo h.updPack))
          (.via (fun h => .dieCheck (.checkW3 (.cross (.dieEvent (.setFlags (.ite h h.packTo)))))) h.learnAbort.countBreak.updPack)))

theorem NextOk.execIdentifyComplete (h : s.TablesOk) {reading} : NextOk (execIdentifyComplete reading s) :=
  .act
    (.ite h
       (.ite h.updPack.packTo.dieEvent.cross
          (.ite h.updPack (.via (fun h => .ite h.updPack.packTo (.ite h.toCharge h.toCharge)) (.ite h.updPack h.updPack.updPack)))))

theorem NextOk.execChargePhaseChange (h : s.TablesOk) {reading} : NextOk (execChargePhaseChange reading s) :=
  .act (.ite h (.ite h.updPack.packTo (.ite h.updPack.packTo h.updPack)))

theorem NextOk.execChargeTermination (h : s.TablesOk) : NextOk (execChargeTermination s) := .act (.ite h h.packTo.anchor.checkW3)

theorem NextOk.execRechargeNeeded (h : s.TablesOk) {reading} : NextOk (execRechargeNeeded reading s) :=
  .act (.ite h (.ite h.updPack.toCharge h.updPack))

theorem NextOk.execChargeEnd (h : s.TablesOk) {cause} : NextOk (execChargeEnd cause s) := .act (.ite h h.updPack.packTo.warn)

theorem NextOk.execChargeHoldRelease (h : s.TablesOk) : NextOk (execChargeHoldRelease s) := .act (.ite h.packTo h)

theorem NextOk.execLearnDischargeDone (h : s.TablesOk) : NextOk (execLearnDischargeDone s) := .act (.ite h.packTo h)

theorem NextOk.execLearnRestTimeout (h : s.TablesOk) : NextOk (execLearnRestTimeout s) := .act (.ite h.learnEnds.toCharge h)

theorem NextOk.execEavailCompute (h : s.TablesOk) {reading} : NextOk (execEavailCompute reading s) :=
  .act (.ite h (.ite h.updPack.evaluate.learnAbort.toCharge h.updPack.evaluate))

theorem State.TablesOk.draws (h : s.TablesOk) {out} : (s.draws out).TablesOk := by
  unfold State.draws
  split
  · exact .ite h (h.lived (by rfl))
  · exact h

theorem NextOk.execChargeCountSample (h : s.TablesOk) {currentMa} : NextOk (execChargeCountSample currentMa s) :=
  .act (.ite h h.draws.updPack)

theorem State.TablesOk.learnAt (h : s.TablesOk) {a mv} : (s.learnAt a mv).2.TablesOk := .iteSnd h (.iteSnd h h.updPack.storeGauge)

theorem NextOk.execRestPoint (h : s.TablesOk) {reading} : NextOk (execRestPoint reading s) := by
  refine .act (.ite h (.ite h.updPack ?_))
  extract_lets s₁
  have h₁ : s₁.TablesOk := h.episodeEnds.updPack
  split
  next r s₂ hs =>
    have h₂ : s₂.TablesOk := by
      split at hs
      · exact .ofSnd hs h₁.learnAt
      · exact (Prod.mk.inj hs).2 ▸ h₁
    extract_lets s₃ s₄ die s₅
    have h₃ : s₃.TablesOk := by
      unfold s₃
      split
      · exact .ite h₂.learnEnds.toCharge (.dieEvent (.ite h₂.updPack.storeGauge h₂))
      · exact .ite h₂.learnEnds.toCharge h₂
    have h₄ : s₄.TablesOk := .ite h₃.anchor h₃
    exact .ite h₄.updPack.learnStart h₄.updPack

theorem NextOk.execLearnOverdue (h : s.TablesOk) : NextOk (execLearnOverdue s) := .act (.ite h h.setFlags.dieEvent)

theorem NextOk.execGaugeStorePeriodic (h : s.TablesOk) : NextOk (execGaugeStorePeriodic s) := .act (.ite h.storeGauge h)

theorem NextOk.execPackSample (h : s.TablesOk) {reading} : NextOk (execPackSample reading s) :=
  .act (.ite h (.ite h.countLife.countLife.countLife h.countLife.countLife))

theorem NextOk.execPowerDieStart (h : s.TablesOk) : NextOk (execPowerDieStart s) :=
  .act
    (.ite h
       (.via (fun h =>
            .ite h (.ite h.packTo (.ite h.packTo h.packTo)))
          (.ite h.countBreak.updPack.updPack.dieEvent (.ite h.countBreak.updPack.updPack.dieEvent h.countBreak.updPack.updPack.dieEvent))))

theorem NextOk.execShipCleanReport (h : s.TablesOk) : NextOk (execShipCleanReport s) := .act (.ite h.shipOpen.dieCheck h)

theorem NextOk.execShipReconnect (h : s.TablesOk) : NextOk (execShipReconnect s) := by
  refine .act ?_
  split
  · exact h
  · exact .ite h h.updPack.emit.toIdentify.dieEvent

theorem NextOk.execPackReplaced (h : s.TablesOk) {acc} : NextOk (execPackReplaced acc s) :=
  .act (.run (h.start fun _ => .ite h.finish (.finish (.ite h.resetLearned.dieEvent.packTo h.resetLearned.dieEvent))))

theorem NextOk.execPackLearn (h : s.TablesOk) {acc} : NextOk (execPackLearn acc s) :=
  .act (.run (h.start fun _ => .ite h.finish (.finish (.ite h.setFlags.learnStart h.setFlags))))

theorem NextOk.execPackLearnAbort (h : s.TablesOk) {acc} : NextOk (execPackLearnAbort acc s) :=
  .act (.run (h.start fun _ => .ite h.finish (.finish (.ite h.learnEnds.toCharge h.learnEnds))))

theorem NextOk.execShipModeArm (h : s.TablesOk) {acc} : NextOk (execShipModeArm acc s) :=
  .act (.run (h.start fun _ => .ite h.finish (.ite h.finish h.learnAbort.packTo.dieEvent.updPack.frame.energyChanged.finish)))

theorem NextOk.execShipModeCancel (h : s.TablesOk) {acc} : NextOk (execShipModeCancel acc s) := by
  refine .act (.run (h.start fun _ => ?_))
  split
  · exact h.toIdentify.dieEvent.finish
  · exact h.updPack.dieEvent.finish
  · exact h.finish

/-! ### The governor -/

theorem State.TablesOk.splitBudget (h : s.TablesOk) : s.splitBudget.TablesOk := h.frame

theorem State.TablesOk.govSample (h : s.TablesOk) {i} : (s.govSample i).TablesOk := h.frame

theorem NextOk.execGovSampleInstant (h : s.TablesOk) {inputs} : NextOk (execGovSampleInstant inputs s) :=
  .act (.ite h (.run (.govSample (.frame (.starveNote (.splitBudget (.ite h.frame.event (.ite h.frame h))))))))

theorem NextOk.execGovComputationDone (h : s.TablesOk) : NextOk (execGovComputationDone s) :=
  .act (.ite h (.ite h.frame.event (.frame (h.over fun _ _ h => h.over fun _ _ h => h.event))))

theorem NextOk.execPwmInputLost (h : s.TablesOk) : NextOk (execPwmInputLost s) := .act (.ite h h.frame.event)

theorem State.TablesOk.pwmRestored (h : s.TablesOk) : s.pwmRestored.TablesOk := .ite h.frame.event h

theorem NextOk.execPwmSteadyHigh (h : s.TablesOk) : NextOk (execPwmSteadyHigh s) := .act (.ite h h.frame.pwmRestored)

theorem NextOk.execPwmInputRestored (h : s.TablesOk) {high period} : NextOk (execPwmInputRestored high period s) :=
  .act (.ite h h.pwmRestored)

theorem NextOk.execOverrunsRead (h : s.TablesOk) {read} : NextOk (execOverrunsRead read s) := .act (h.mmio (.ite h h.frame.emit))

theorem State.TablesOk.govStart (h : s.TablesOk) : s.govStart.TablesOk := h.frame

theorem State.TablesOk.govStructure (h : s.TablesOk) {period cfgs} : (s.govStructure period cfgs).TablesOk := .ite h h.frame.event

theorem State.TablesOk.govSave (h : s.TablesOk) : s.govSave.TablesOk := h.frame

theorem State.TablesOk.govRestore (h : s.TablesOk) : s.govRestore.TablesOk := h.frame

/-! ### Drives -/

theorem State.TablesOk.updPort (h : s.TablesOk) {p f} : (s.updPort p f).TablesOk := h.setPort

theorem State.TablesOk.countMember (h : s.TablesOk) {p f} : (s.countMember p f).TablesOk := .ite h.membersUpd h

theorem State.TablesOk.suspect (h : s.TablesOk) {p} : (s.suspect p).TablesOk := by
  unfold State.suspect
  split
  · exact h
  · exact .ite h (.evacuationCheck (h.membersUpd.memberTo.over fun _ _ h => h.replaceAgain))

theorem State.TablesOk.criticalWarning (h : s.TablesOk) {p} : (s.criticalWarning p).TablesOk := h.suspect

theorem State.TablesOk.adminSend (h : s.TablesOk) {p op} : (s.adminSend p op).TablesOk := h.updPort

theorem State.TablesOk.adminDone (h : s.TablesOk) {p op} : (s.adminDone p op).TablesOk := h.updPort

theorem State.TablesOk.queueSetup (h : s.TablesOk) {p} : (s.queueSetup p).TablesOk :=
  State.TablesOk.over (.ite h.emit h) fun _ _ h => h.emit

theorem State.TablesOk.adminStep (h : s.TablesOk) {p step} : (s.adminStep p step).TablesOk :=
  .via (fun h => .via (fun h => .ite h.emit.queueSetup (.ite h.emit.emit h.emit)) (.ite h.emit h)) (.ite h.updPort h.updPort.adminSend)

theorem State.TablesOk.resetEnds (h : s.TablesOk) {p ok} : (s.resetEnds p ok).TablesOk := by
  unfold State.resetEnds
  split
  · exact h
  · exact h.updPort.countMember.event

theorem State.TablesOk.controllerFatal (h : s.TablesOk) {p} : (s.controllerFatal p).TablesOk :=
  .ite h.resetEnds.updPort.failMember h.resetEnds.updPort

theorem State.TablesOk.resetController (h : s.TablesOk) {p why} : (s.resetController p why).TablesOk :=
  .ite h.controllerFatal h.updPort.emit

theorem State.TablesOk.dropQuarantine (h : s.TablesOk) {p} : (s.dropQuarantine p).TablesOk := h.updPort

theorem State.TablesOk.reissueAll (h : s.TablesOk) {p} : (s.reissueAll p).TablesOk := h.updPort.pumpClass.pumpPort

theorem State.TablesOk.driveUnusable (h : s.TablesOk) {p why} : (s.driveUnusable p why).TablesOk :=
  .via (fun h => .ite h.updPort.event.failMember h.updPort.event) (.ite h.resetEnds h)

theorem State.TablesOk.askHolder (h : s.TablesOk) {p} : (s.askHolder p).TablesOk := .ite h.adminSend.emit h

theorem State.TablesOk.askIdentify (h : s.TablesOk) {p} : (s.askIdentify p).TablesOk := .ite h.adminSend.emit h

theorem State.TablesOk.preempt (h : s.TablesOk) {p} : (s.preempt p).TablesOk := h.updPort.askHolder

theorem State.TablesOk.holderRead (h : s.TablesOk) {p key} : (s.holderRead p key).TablesOk := .ite h h.adminDone.updPort.emit

theorem State.TablesOk.controllerUp (h : s.TablesOk) {p} : (s.controllerUp p).TablesOk := by
  unfold State.controllerUp
  extract_lets res holds take s₁ s₂
  have h₁ : s₁.TablesOk := h.updPort
  have h₂ : s₂.TablesOk := .ite h₁.preempt (.ite h₁.emit h₁)
  exact h₂.resetEnds.reissueAll.askIdentify

theorem State.TablesOk.identified (h : s.TablesOk) {p ok} : (s.identified p ok).TablesOk :=
  .ite h.adminDone.updTest.askHolder h.adminDone.updTest.selfTestEnds

theorem State.TablesOk.adminReply (h : s.TablesOk) {p ok info} : (s.adminReply p ok info).TablesOk := by
  unfold State.adminReply
  split
  · exact .ite h.controllerFatal
      (.ite h.updPort.driveUnusable (.ite h.updPort.driveUnusable (.ite h.updPort.controllerUp h.updPort.adminStep)))
  · exact h

theorem State.TablesOk.sendAborts (h : s.TablesOk) {p} : (s.sendAborts p).TablesOk := by
  refine h.over fun _ _ h => ?_
  split
  · exact h.updPort
  · exact h.updPort.adminSend.emit.countMember

theorem State.TablesOk.adminFreed (h : s.TablesOk) {p} : (s.adminFreed p).TablesOk := h.askHolder.sendAborts.askIdentify

theorem State.TablesOk.abortDone (h : s.TablesOk) {p id} : (s.abortDone p id).TablesOk := h.adminDone.adminFreed

theorem State.TablesOk.mediaError (h : s.TablesOk) {p} : (s.mediaError p).TablesOk := by
  unfold State.mediaError
  split
  · exact h
  · exact .ite h (.ite h.membersPut.later (.ite h.membersPut.suspect h.membersPut))

theorem State.TablesOk.countRead (h : s.TablesOk) {p us} : (s.countRead p us).TablesOk := by
  unfold State.countRead
  split
  · exact h
  · extract_lets bin bump s₁ k r
    have h₁ : s₁.TablesOk := { h with
      members := Store.wf_put _ _ h.members
      pools := by dsimp only [s₁]; exact Store.wf_upd _ _ h.pools }
    exact h₁.frame.extreme

theorem State.TablesOk.portWords (h : s.TablesOk) {p data} : (s.portWords p data).TablesOk := by
  refine h.over fun _ _ h => ?_
  split
  · exact h
  · exact h.wordFixed
  · exact h.wordBad

theorem State.TablesOk.ioReply (h : s.TablesOk) {p id status data} : (s.ioReply p id status data).TablesOk := by
  unfold State.ioReply
  dsimp only
  split
  · exact h
  · split
    · exact h
    · exact h.updPort.countMember.event.pumpPort
    · split
      · exact h.updPort.event.fence
      · refine .pumpPort (.later ?_)
        split
        · exact .via (fun h => .ite h.countRead h) (.ite h.updPort h.updPort.portWords)
        · exact h.updPort.mediaError
        · dsimp only
          exact h.updPort

theorem State.TablesOk.healthRead (h : s.TablesOk) {port critical} : (s.healthRead port critical).TablesOk :=
  .run (.ite h.adminDone.adminFreed.criticalWarning h.adminDone.adminFreed)

theorem NextOk.execDriveCompletion (h : s.TablesOk) {port reply} : NextOk (execDriveCompletion port reply s) := by
  refine .act ?_
  dsimp only
  split
  · exact .ite h (.ite (.ite h.updPort.fencePort h) (.ite h.ioReply.run h))
  · exact .ite h.identified.adminFreed.run (.ite h.adminReply.run (.ite h.fenceReleased h))
  · exact .ite h.healthRead h
  · exact .ite h.abortDone h
  · exact .ite h.holderRead.run h

theorem NextOk.execSoftTimeout (h : s.TablesOk) {port req} : NextOk (execSoftTimeout port req s) := by
  refine .act ?_
  split
  · exact h
  · split
    · exact h
    · exact .ite h h.updPort.countMember.event

theorem NextOk.execHardTimeout (h : s.TablesOk) {port req} : NextOk (execHardTimeout port req s) := by
  refine .act ?_
  split
  · exact h
  · split
    · exact h
    · exact .ite h (.run (.ite h.updPort.countMember.event.sendAborts.later.later h.updPort.countMember.event.sendAborts.later))

theorem NextOk.execQuarantineTimeout (h : s.TablesOk) {port req} : NextOk (execQuarantineTimeout port req s) := by
  refine .act ?_
  split
  · split
    · exact .ite h.resetController.run h
    · exact h
  · exact h

theorem NextOk.execAdminCommandTimeout (h : s.TablesOk) {port} : NextOk (execAdminCommandTimeout port s) :=
  .act (.ite h.resetController.run h)

theorem NextOk.execControllerDisabled (h : s.TablesOk) {port} : NextOk (execControllerDisabled port s) :=
  .act (.ite h.dropQuarantine.adminStep.run h)

theorem NextOk.execControllerResetTimeout (h : s.TablesOk) {port} : NextOk (execControllerResetTimeout port s) :=
  .act (.ite h.controllerFatal.run h)

theorem NextOk.execControllerFatalStatus (h : s.TablesOk) {port} : NextOk (execControllerFatalStatus port s) :=
  .act (.ite h.controllerFatal.run h)

theorem NextOk.execSmartPoll (h : s.TablesOk) {port critical} : NextOk (execSmartPoll port critical s) := by
  refine .act (.ite h ?_)
  extract_lets s₁
  have h₁ : s₁.TablesOk := h.updPort.adminSend.emit
  split
  · exact h₁
  · exact h₁.healthRead

theorem NextOk.execAsynchronousEvent (h : s.TablesOk) {port critical} : NextOk (execAsynchronousEvent port critical s) :=
  .act (.ite h.criticalWarning.run h)

theorem State.TablesOk.holdOver (h : s.TablesOk) {port} : (s.holdOver port).TablesOk :=
  .ite h.event.updPort.resetEnds.failMember h.event.updPort.resetEnds.absentAll.assertPerst

theorem State.TablesOk.linkTrained (h : s.TablesOk) {port speed width far} : (s.linkTrained port speed width far).TablesOk := by
  unfold State.linkTrained
  extract_lets down unused s₁ s₂ s₃
  have h₁ : s₁.TablesOk := h.updPort
  have h₂ : s₂.TablesOk := .ite h₁.event h₁
  have h₃ : s₃.TablesOk := by
    unfold s₃
    clear_value down
    split
    · exact .ite h₂.event.countMember h₂.event.countMember.dropQuarantine.updPort
    · exact h₂
  exact .ite h₃ (.ite h₃.driveUnusable h₃.adminStep)

theorem NextOk.execDriveLinkUp (h : s.TablesOk) {port speeds widths far} : NextOk (execDriveLinkUp port speeds widths far s) := by
  refine .act (.ite h ?_)
  split
  · exact .run (.ite h.holdOver h.linkTrained)
  · exact h

theorem State.TablesOk.driveGone (h : s.TablesOk) {n} : (s.driveGone n).TablesOk := by
  unfold State.driveGone
  exact .updPort (.ite h.failMember h.absentAll.assertPerst)

theorem NextOk.execDriveLinkDown (h : s.TablesOk) {port} : NextOk (execDriveLinkDown port s) :=
  .act (.ite h (.run (.ite h.updPort.driveGone h.updPort)))

theorem NextOk.execLinkDownHoldExpiry (h : s.TablesOk) {port} : NextOk (execLinkDownHoldExpiry port s) := by
  refine .act ?_
  split
  · exact h
  · exact .ite h h.holdOver.run

theorem NextOk.execPortNoLink (h : s.TablesOk) {port} : NextOk (execPortNoLink port s) :=
  .act (.ite h (.run (.ite h.updPort.event.failMember h.updPort.event)))

theorem NextOk.execDrivePerstDeassert (h : s.TablesOk) {port} : NextOk (execDrivePerstDeassert port s) := by
  refine .act ?_
  dsimp only
  split
  · exact h
  · exact .ite h h.updPort.emit

theorem NextOk.execDriveSettle (h : s.TablesOk) {port} : NextOk (execDriveSettle port s) := by
  refine .act ?_
  split
  · exact h
  · exact .ite h h.updPort.pumpPort.run

theorem State.TablesOk.startHedge (h : s.TablesOk) {port req r x pool} : (s.startHedge port req r x pool).TablesOk := by
  unfold State.startHedge
  extract_lets want lost m pl _ s₁
  have h₁ : s₁.TablesOk := { h with
    pools := by dsimp only [s₁]; exact Store.wf_upd _ _ h.pools
    volumes := by dsimp only [s₁]; exact Store.wf_upd _ _ h.volumes }
  exact .ite h h₁.newTask

theorem NextOk.execHedgeDelay (h : s.TablesOk) {port req} : NextOk (execHedgeDelay port req s) := by
  refine .act ?_
  split
  · split
    · split
      · extract_lets half due s₁
        have h₁ : s₁.TablesOk := h.updTask
        clear_value s₁
        refine .ite h (.ite ?_ h₁.startHedge.run)
        exact { h₁ with
          pools := by dsimp only; exact Store.wf_upd _ _ h₁.pools
          volumes := by dsimp only; exact Store.wf_upd _ _ h₁.volumes }
      · exact h
    · exact h
  · exact h

theorem NextOk.execHedgeHoldTimeout (h : s.TablesOk) {task} : NextOk (execHedgeHoldTimeout task s) := by
  refine .act ?_
  split
  · exact h
  · exact .ite h h.holdEnds.run

theorem NextOk.execHedgeIntervalEnd (h : s.TablesOk) : NextOk (execHedgeIntervalEnd s) :=
  .act (.ite h (.frame (h.over fun _ _ h => .poolsPut (.ite h.event h))))

theorem State.TablesOk.poolEstimate (h : s.TablesOk) {id} : (s.poolEstimate id).TablesOk := by
  unfold State.poolEstimate
  split
  · exact h
  · exact .ite h.poolsPut.event h.poolsPut

theorem State.TablesOk.memberEstimate (h : s.TablesOk) {port} : (s.memberEstimate port).TablesOk := by
  unfold State.memberEstimate
  split
  · exact h
  · split
    · exact h
    · dsimp only
      split
      · exact h.membersPut
      · exact .ite h.membersPut.membersUpd.memberTo (.ite (.ite h.membersPut.membersUpd.memberTo h.membersPut.membersUpd) h.membersPut)

theorem NextOk.execHedgeThresholdUpdate (h : s.TablesOk) : NextOk (execHedgeThresholdUpdate s) :=
  .act (.ite h (.run (.frame (State.TablesOk.over (h.over fun _ _ h => h.poolEstimate) fun _ _ h => h.memberEstimate))))

/-! ### Slots -/

theorem State.TablesOk.indicate (h : s.TablesOk) {n} : (s.indicate n).TablesOk := by
  unfold State.indicate
  exact h.updPort

theorem State.TablesOk.slotEnd (h : s.TablesOk) {n ops shifted result} : (s.slotEnd n ops shifted result).TablesOk :=
  h.updPort.over fun _ _ h => h.finish

theorem State.TablesOk.slotOn (h : s.TablesOk) {n} : (s.slotOn n).TablesOk := h.updPort

theorem State.TablesOk.slotOff (h : s.TablesOk) {n} : (s.slotOff n).TablesOk := h.slotEnd.absentAll.assertPerst.updPort

theorem State.TablesOk.failAndOff (h : s.TablesOk) {n} : (s.failAndOff n).TablesOk := .slotOff (.ite h.failMember h)

theorem State.TablesOk.cancelWindow (h : s.TablesOk) {n} : (s.cancelWindow n).TablesOk := .ite h h.updPort.event

theorem State.TablesOk.scanSlot (h : s.TablesOk) {n b} : (s.scanSlot n b).TablesOk := by
  unfold State.scanSlot
  exact h.indicate.updPort.slotEnd.updPort

theorem NextOk.execSlotScan (h : s.TablesOk) {inbound} : NextOk (execSlotScan inbound s) :=
  .act (.ite h (.emit (.frame (h.over fun _ _ h => h.scanSlot))))

theorem NextOk.execSlotPresenceChange (h : s.TablesOk) {slot present} : NextOk (execSlotPresenceChange slot present s) :=
  .act
    (.ite h
       (.run
          (.ite (.ite h.updPort (.ite h.updPort.updPort (.ite h.updPort.updPort.slotOn h.updPort)))
             (.ite h.updPort.updPort.event h.updPort.driveGone))))

theorem NextOk.execSlotPowerGood (h : s.TablesOk) {slot} : NextOk (execSlotPowerGood slot s) :=
  .act (.ite h (.ite h.updPort h.updPort.slotEnd))

theorem NextOk.execSlotPowerFault (h : s.TablesOk) {slot} : NextOk (execSlotPowerFault slot s) :=
  .act (.ite h (.via (fun h => .run (.slotEnd (.slotEnd (.ite h.event.failMember h.event)))) h.absentAll.assertPerst.updPort))

theorem NextOk.execSlotPowerOffDelay (h : s.TablesOk) {slot} : NextOk (execSlotPowerOffDelay slot s) := by
  refine .act ?_
  split
  · exact h
  · exact .ite h (h.updPort.slotEnd.when h.updPort.slotEnd.slotOn)

theorem NextOk.execSlotButtonPress (h : s.TablesOk) {slot} : NextOk (execSlotButtonPress slot s) :=
  .act (.ite h (.ite h.updPort (.ite h.updPort.cancelWindow h.updPort.updPort)))

theorem NextOk.execButtonWindowEnd (h : s.TablesOk) {slot} : NextOk (execButtonWindowEnd slot s) := by
  refine .act ?_
  dsimp only
  split
  · exact h
  · exact .ite h (.run (.ite h.updPort.slotOn.event (.ite h.updPort.updPort.event h.updPort.failAndOff.event)))

theorem NextOk.execButtonRefusalEnd (h : s.TablesOk) {slot} : NextOk (execButtonRefusalEnd slot s) := by
  refine .act ?_
  split
  · exact .ite h.updPort h
  · exact h

theorem State.TablesOk.slotControl (h : s.TablesOk) {acc op} {f : Cmd → ℕ → State} (hf : ∀ b c, (f b c).TablesOk) :
    (s.slotControl acc op f).TablesOk :=
  h.start fun _ => hf _ _

theorem State.TablesOk.slotWait (h : s.TablesOk) {acc n} : (s.slotWait acc n).TablesOk := h.updCmd.updPort

theorem NextOk.execSlotPowerOn (h : s.TablesOk) {acc} : NextOk (execSlotPowerOn acc s) :=
  .act (.run (h.slotControl fun _ _ => .ite h.cancelWindow.finish (.slotWait (.ite h.cancelWindow h.cancelWindow.slotOn))))

theorem NextOk.execSlotPowerOff (h : s.TablesOk) {acc} : NextOk (execSlotPowerOff acc s) :=
  .act
    (.run
       (h.slotControl fun _ _ =>
          .ite h.cancelWindow.finish
            (.ite (.finish (.ite h.cancelWindow.failMember h.cancelWindow))
               (.ite h.cancelWindow.slotEnd.slotWait h.cancelWindow.failAndOff.slotWait))))

theorem NextOk.execSlotLocateOn (h : s.TablesOk) {acc} : NextOk (execSlotLocateOn acc s) :=
  .act (.run (h.slotControl fun _ _ => h.updPort.indicate.slotWait))

theorem NextOk.execSlotLocateOff (h : s.TablesOk) {acc} : NextOk (execSlotLocateOff acc s) :=
  .act (.run (h.slotControl fun _ _ => h.updPort.indicate.slotWait))

theorem NextOk.execSlotAutomaticPower (h : s.TablesOk) {acc} : NextOk (execSlotAutomaticPower acc s) :=
  .act (.run (h.slotControl fun _ _ => h.updPort.finish))

theorem NextOk.execSlotButtonPolicy (h : s.TablesOk) {acc} : NextOk (execSlotButtonPolicy acc s) :=
  .act (.run (h.slotControl fun _ _ => h.updPort.finish))

end

end Sys2Proof.Machine
end

section
/-! PROOFS. Canonical tables in host link, power loss, vault rows and islands. -/

namespace Sys2Proof.Machine

open Sys2Proof

section

variable {s t u v : State}

/-! ### The host link -/

theorem State.TablesOk.sendLtr (h : s.TablesOk) {e target} : (s.sendLtr e target).TablesOk := .ite h.emit h

theorem State.TablesOk.ltrTouch (h : s.TablesOk) {e} : (s.ltrTouch e).TablesOk := .ite h.setEp h.setEp.sendLtr

theorem NextOk.execLtrIdle (h : s.TablesOk) {ep} : NextOk (execLtrIdle ep s) := .act (h.when h.setEp.sendLtr)

theorem State.TablesOk.ringProtocol (h : s.TablesOk) {f ring kind reason} : (s.ringProtocol f ring kind reason).TablesOk := h.fnEvent

theorem State.TablesOk.sqError (h : s.TablesOk) {k q reason} : (s.sqError k q reason).TablesOk := h.sqsPut.ringProtocol.raise

theorem State.TablesOk.cqError (h : s.TablesOk) {k c reason} : (s.cqError k c reason).TablesOk := h.cqsPut.ringProtocol.raise

theorem State.TablesOk.tailValue (h : s.TablesOk) {f ring value shadow} : (s.tailValue f ring value shadow).TablesOk := by
  unfold State.tailValue
  dsimp only
  split
  · exact h.ringProtocol
  · exact .ite h.ringProtocol (.ite h.sqError h.sqsPut)

theorem State.TablesOk.headValue (h : s.TablesOk) {f ring value shadow} : (s.headValue f ring value shadow).TablesOk := by
  unfold State.headValue
  dsimp only
  split
  · exact h.ringProtocol
  · exact .ite h.ringProtocol (.ite h.cqError (.ite h.cqError h.cqsPut.drainCq))

theorem NextOk.execSqTail (h : s.TablesOk) {fn ring value} : NextOk (execSqTail fn ring value s) :=
  .act (h.mmio (h.when h.tailValue.ltrTouch))

theorem NextOk.execCqHead (h : s.TablesOk) {fn ring value} : NextOk (execCqHead fn ring value s) :=
  .act (h.mmio (h.when h.headValue.ltrTouch))

theorem NextOk.execShadowPoll (h : s.TablesOk) {fn ring} : NextOk (execShadowPoll fn ring s) := by
  refine .act ?_
  split
  · split
    · refine .ite ?_ h
      split
      · next t ht =>
        exact (h.issueRead ht).sqsPut
      · exact h
    · exact h
  · exact h

theorem State.TablesOk.shadowValue (h : s.TablesOk) {k b} : (s.shadowValue k b).TablesOk := by
  unfold State.shadowValue
  split
  · exact h
  · exact .via (fun h => .ite h.headValue h) (.ite h.sqsPut.tailValue h.sqsPut)

theorem State.TablesOk.adminEnable (h : s.TablesOk) {f} : (s.adminEnable f).TablesOk :=
  .ite h (.ite (.andThen h.setFn fun h => { h with sqs := Store.wf_put _ _ h.sqs, cqs := Store.wf_put _ _ h.cqs }) h.setFn)

theorem NextOk.execAdminEn (h : s.TablesOk) {fn} : NextOk (execAdminEn fn s) := .act (h.mmio h.adminEnable)

theorem State.TablesOk.causeDue (h : s.TablesOk) {f due} : (s.causeDue f due).TablesOk := .ite h.sendVector h

theorem State.TablesOk.writeCause (h : s.TablesOk) {f v'} : (s.writeCause f v').TablesOk := h.setFn

theorem State.TablesOk.writeMask (h : s.TablesOk) {f v'} : (s.writeMask f v').TablesOk := h.setFn.causeDue

theorem State.TablesOk.writeIntEn (h : s.TablesOk) {f v'} : (s.writeIntEn f v').TablesOk := h.setFn.causeDue

theorem State.TablesOk.writeForce (h : s.TablesOk) {f v'} : (s.writeForce f v').TablesOk := h.setFn.causeDue

theorem NextOk.execCauseWrite (h : s.TablesOk) {fn value} : NextOk (execCauseWrite fn value s) := .act (h.mmio h.writeCause)

theorem NextOk.execCauseMaskWrite (h : s.TablesOk) {fn value} : NextOk (execCauseMaskWrite fn value s) := .act (h.mmio h.writeMask)

theorem NextOk.execIntEnWrite (h : s.TablesOk) {fn value} : NextOk (execIntEnWrite fn value s) := .act (h.mmio h.writeIntEn)

theorem NextOk.execForce (h : s.TablesOk) {fn value} : NextOk (execForce fn value s) := .act (h.mmio h.writeForce)

theorem NextOk.execSuppressedTotalRead (h : s.TablesOk) {read} : NextOk (execSuppressedTotalRead read s) :=
  .act (h.mmio (.ite h.setFn.emit h.emit))

theorem State.TablesOk.writeMsix (h : s.TablesOk) {f vector dword v'} : (s.writeMsix f vector dword v').TablesOk := h.setFn.flushPba

theorem NextOk.execMsixEntryWrite (h : s.TablesOk) {fn vector dword value} : NextOk (execMsixEntryWrite fn vector dword value s) :=
  .act (h.mmio (h.when h.writeMsix))

theorem NextOk.execRingGrant (h : s.TablesOk) : NextOk (execRingGrant s) := by
  refine .act ?_
  split
  · exact h
  · split
    · exact h
    · exact h.frame.fetchBurst

theorem State.TablesOk.transferFailed (h : s.TablesOk) {acc} : (s.transferFailed acc).TablesOk := by
  unfold State.transferFailed
  split
  · exact h
  · exact h.discardGather.finish

theorem State.TablesOk.endOnReset (h : s.TablesOk) {c} : (s.endOnReset c).TablesOk :=
  .ite (.ite h.updCmd h.discardGather.cmdsDel) (.ite h.unpin.cmdsDel (.ite h.cmdsDel h.updCmd))

theorem State.TablesOk.resetFn (h : s.TablesOk) {note f} : (s.resetFn note f).TablesOk := by
  unfold State.resetFn
  extract_lets mine x outstanding count s₁ s₂ s₃ s₄ s₅ s₆
  have h₂ : s₂.TablesOk := (h.over fun _ _ h => h.endOnReset).setEp
  have h₃ : s₃.TablesOk := { h₂ with
    sqs := by dsimp only [s₃]; exact Store.wf_keep _ h₂.sqs
    cqs := by dsimp only [s₃]; exact Store.wf_keep _ h₂.cqs }
  have h₅ : s₅.TablesOk := .ite h₃.setFn.selfTestEnds h₃.setFn
  have h₆ : s₆.TablesOk := .ite h₅.fnEvent h₅
  exact (h₆.over fun _ _ h => h.refillStash).settleWaits.noteBacked

theorem State.TablesOk.resetEp (h : s.TablesOk) {e note} : (s.resetEp e note).TablesOk := .setEp (h.over fun _ _ h => h.resetFn)

theorem NextOk.execFlr (h : s.TablesOk) {fn} : NextOk (execFlr fn s) := .act (.run (h.when (.ite h.resetEp h.resetFn)))

theorem NextOk.execVfEnableCleared (h : s.TablesOk) {ep} : NextOk (execVfEnableCleared ep s) :=
  .act (.run (h.when (.setEp (h.over fun _ _ h => h.resetFn))))

theorem State.TablesOk.linkLost (h : s.TablesOk) {e} : (s.linkLost e).TablesOk := h.resetEp.fnEvent.setEp

theorem NextOk.execHostLinkDown (h : s.TablesOk) {ep} : NextOk (execHostLinkDown ep s) := .act (.run (h.when h.linkLost))

theorem NextOk.execHotReset (h : s.TablesOk) {ep} : NextOk (execHotReset ep s) := .act (.run (h.when h.fnEvent.linkLost))

theorem NextOk.execHostLinkUp (h : s.TablesOk) {ep speed width flit} : NextOk (execHostLinkUp ep speed width flit s) :=
  .act (h.when h.setEp.fnEvent)

theorem State.TablesOk.stopRequests (h : s.TablesOk) {f} : (s.stopRequests f).TablesOk :=
  .fnEvent (h.over fun _ _ h => .finish (.ite h.discardGather h.unpin))

theorem State.TablesOk.resumeRequests (h : s.TablesOk) {f} : (s.resumeRequests f).TablesOk :=
  State.TablesOk.over (.pump (.flushPba (h.over fun _ _ h => h.drainCq))) fun _ _ h => h.readCheck

theorem NextOk.execBusMasterEnableCleared (h : s.TablesOk) {fn} : NextOk (execBusMasterEnableCleared fn s) :=
  .act (.run (h.when (.ite h.setFn h.setFn.stopRequests)))

theorem NextOk.execBusMasterEnableSet (h : s.TablesOk) {fn} : NextOk (execBusMasterEnableSet fn s) :=
  .act (.run (h.when h.setFn.resumeRequests))

theorem NextOk.execD3hotEntry (h : s.TablesOk) {fn} : NextOk (execD3hotEntry fn s) :=
  .act (.run (h.when (.ite h.setFn.stopRequests h.setFn)))

theorem NextOk.execD0Return (h : s.TablesOk) {fn} : NextOk (execD0Return fn s) := .act (.run (h.when h.setFn.resumeRequests))

theorem State.TablesOk.entryFailed (h : s.TablesOk) {k} : (s.entryFailed k).TablesOk := by
  unfold State.entryFailed
  split
  · exact h
  · exact .ite h.sqError h.sqsPut

theorem State.TablesOk.entriesArrived (h : s.TablesOk) {k first count b} : (s.entriesArrived k first count b).TablesOk := by
  unfold State.entriesArrived
  split
  · exact h
  · exact .ite h.sqsPut h.sqsPut.acceptLoop.ltrTouch.pump

theorem State.TablesOk.dataArrived (h : s.TablesOk) {acc off b stored second} : (s.dataArrived acc off b stored second).TablesOk := by
  unfold State.dataArrived
  split
  · exact h
  · refine .via (fun h =>
        .ite h.transferFailed
          (.via (fun h => .ite (.updCmd (h.over fun _ _ h => h.updFrame)) h.updCmd) (h.over fun _ _ h => h.rebuilt)))
      (h.over fun _ _ h => ?_)
    split
    · exact h
    · exact h.wordFixed
    · exact h.channelWord

theorem State.TablesOk.listArrived (h : s.TablesOk) {acc off b} : (s.listArrived acc off b).TablesOk := by
  unfold State.listArrived
  split
  · exact h
  · exact .ite h.updCmd.afterList.pump h.updCmd

theorem State.TablesOk.readLost (h : s.TablesOk) {k} : (s.readLost k).TablesOk := by
  unfold State.readLost
  split
  · exact h.entryFailed
  · exact h
  · exact h.transferFailed
  · exact h.transferFailed
  · exact h.transferFailed

theorem State.TablesOk.readAnswered (h : s.TablesOk) {ep tag r cpl} : (s.readAnswered ep tag r cpl).TablesOk := by
  unfold State.readAnswered
  dsimp only
  split
  · refine .ite h.setEp.pump (.ite h ?_)
    split
    · exact h.setEp.entriesArrived
    · exact h.setEp.shadowValue.pump
    · exact h.setEp.listArrived
    · exact h.setEp.dataArrived.pump
    · exact h.setEp.dataArrived.pump
  · refine .ite h.setEp.pump ?_
    split
    · exact .pump (.transferFailed (.ite h.setEp.aer.fnEvent h.setEp))
    · exact h.setEp.readLost.pump
  · exact .ite h.setEp.pump h.setEp.readLost.pump

theorem NextOk.execHostCompletion (h : s.TablesOk) {ep tag cpl} : NextOk (execHostCompletion ep tag cpl s) := by
  refine .act (.ite h ?_)
  split
  · exact h.readAnswered.run
  · split
    · exact .ite h h.aer.fnEvent
    · exact h.aer

theorem NextOk.execCompletionTimeout (h : s.TablesOk) {ep tag} : NextOk (execCompletionTimeout ep tag s) := by
  refine .act ?_
  split
  · exact h
  · exact .ite h (.ite h.setEp.pump.run h.setEp.aer.fnEvent.readLost.pump.run)

theorem NextOk.execTagHoldExpiry (h : s.TablesOk) {ep tag} : NextOk (execTagHoldExpiry ep tag s) := by
  refine .act ?_
  split
  · exact h
  · exact .ite h.setEp.pump h

theorem NextOk.execCoalescingTime (h : s.TablesOk) {fn ring} : NextOk (execCoalescingTime fn ring s) := by
  refine .act ?_
  split
  · exact h
  · exact .ite (.ite h.cqsPut.sendVector h.cqsPut) h

theorem NextOk.execCqStall (h : s.TablesOk) {fn ring} : NextOk (execCqStall fn ring s) := .act (h.when h.stallCheck)

theorem NextOk.execStashPoolEmpty (h : s.TablesOk) : NextOk (execStashPoolEmpty s) := .act (h.when h.frame.event)

theorem NextOk.execHostLinkError (h : s.TablesOk) {ep err} : NextOk (execHostLinkError ep err s) := by
  refine .act (h.when ?_)
  split
  · exact h.aerCorrectable
  · exact h.when h.aerCorrectable
  · exact h.when h.aerCorrectable
  · exact h.aerCorrectable
  · exact h.aerCorrectable
  · exact h.aer
  · exact h.aer
  · exact h.aer
  · exact h.aer
  · exact h.when h.aer

theorem State.TablesOk.badAccess (h : s.TablesOk) {f bar len read offset} : (s.badAccess f bar len read offset).TablesOk :=
  h.aer.emit.fnEvent

theorem NextOk.execBadRegisterRead (h : s.TablesOk) {fn bar offset len} : NextOk (execBadRegisterRead fn bar offset len s) :=
  .act (h.mmio (h.when h.badAccess))

/-! ### Power loss -/

theorem State.TablesOk.discardStaged (h : s.TablesOk) {pass} : (s.discardStaged pass).TablesOk :=
  .ite h (.ite (h.lived (by rfl)) h.frame.event)

theorem State.TablesOk.hostReset (h : s.TablesOk) : s.hostReset.TablesOk := by
  unfold State.hostReset
  extract_lets s₁ silent _ _ s₂
  have h₁ : s₁.TablesOk := h.over fun _ _ h => .ite h.linkLost h.resetEp
  have h₂ : s₂.TablesOk := { h₁.hostCleared with cmds := h₁.cmds }
  exact h₂.updPack.frame

theorem State.TablesOk.endExport (h : s.TablesOk) : s.endExport.TablesOk := .ite (h.lived (by rfl)) h

theorem NextOk.execPerstNAssert (h : s.TablesOk) : NextOk (execPerstNAssert s) :=
  .act
    (.ite h
       (.ite (.ite h.hostReset (h.lived (by rfl)))
          (.ite (h.lived (by rfl)).setState.dieReset
             (.ite (.ite h.endExport.hostReset (h.endExport.lived (by rfl)))
                (.via (fun h =>
                     .ite h.clearBegun.startLehr.setState.sbCleared (.ite h.setState.dieReset h))
                   h.discardStaged.endExport.hostReset.selfTestEnds)))))

theorem NextOk.execPerstNDeassert (h : s.TablesOk) {hostBif pairSide} : NextOk (execPerstNDeassert hostBif pairSide s) :=
  .act (.ite h (h.lived (by rfl)))

theorem State.TablesOk.gatePorts (h : s.TablesOk) : s.gatePorts.TablesOk := by
  unfold State.gatePorts
  extract_lets s₁
  have h₁ : s₁.TablesOk := h.over fun _ _ h => h.gateIsland
  clear_value s₁
  exact { h₁ with ports := by dsimp only; exact Store.wf_each _ h₁.ports }

theorem NextOk.execPowerFailStrobe (h : s.TablesOk) : NextOk (execPowerFailStrobe s) := by
  refine .act (.ite h ?_)
  dsimp only
  split
  · exact .via (fun h => .ite h.puntyActs h) (.ite h.updPack.gatePorts h.updPack)
  · exact .ite h.updPack.startLehr h.updPack

theorem NextOk.execDumpCommandFrame (h : s.TablesOk) : NextOk (execDumpCommandFrame s) := .act (.ite h h.startLehr)

theorem NextOk.execLehrSealed (h : s.TablesOk) {failed unverified} : NextOk (execLehrSealed failed unverified s) := by
  refine .act ?_
  split
  · exact .ite h h.writeDump.puntyActs
  · exact h

theorem NextOk.execLehrTimeout (h : s.TablesOk) : NextOk (execLehrTimeout s) := by
  refine .act ?_
  split
  · exact .ite h h.writeDump.setConverter.puntyActs
  · exact h

theorem NextOk.execPuntyRelease (h : s.TablesOk) : NextOk (execPuntyRelease s) := by
  refine .act ?_
  split
  · exact .ite h.dieReset h
  · exact .ite (h.lived (by rfl)) h
  · exact h

theorem NextOk.execVinMainPowerUp (h : s.TablesOk) {vinMv} : NextOk (execVinMainPowerUp vinMv s) :=
  .act (.ite h (h.updPack.emit.lived (by rfl)).converterCheck)

theorem NextOk.execSupplyFault (h : s.TablesOk) {rail high} : NextOk (execSupplyFault rail high s) := by
  refine .act (.ite h (.via (fun h => ((h.updPack.lived (by rfl)).dieReset.lived (by rfl))) ?_))
  split
  · exact .ite h h.writeDump
  · exact h

/-! ### Vault rows -/

theorem State.TablesOk.commitJournal (h : s.TablesOk) : s.commitJournal.TablesOk := by
  refine .via (fun h =>
      .via (fun h => h.reclaimJournal) (h.over fun _ _ h => .ite h ?_))
    (State.TablesOk.over (State.TablesOk.over (.frame (h.over fun _ _ h => h.recCommitted)) fun _ _ h => h.updCmd.writeCheck)
       (fun _ _ h => ?_))
  · split
    · exact h.endWrite
    · exact h
  · split
    · exact .ite h h.issueWrites
    · exact h

theorem State.TablesOk.closeIfFull (h : s.TablesOk) {b} : (s.closeIfFull b).TablesOk := .ite h.closeBlock h

theorem State.TablesOk.writeProgrammed (h : s.TablesOk) {acc l} : (s.writeProgrammed acc l).TablesOk := by
  unfold State.writeProgrammed
  split
  · exact h
  · exact .ite h.updCmd h.updCmd.logEntries

theorem State.TablesOk.copyProgrammed (h : s.TablesOk) {id l} : (s.copyProgrammed id l).TablesOk := by
  unfold State.copyProgrammed
  split
  · exact h
  · exact .ite h.frame.copyCopied h.frame

theorem State.TablesOk.stageDone (h : s.TablesOk) {c} : (s.stageDone c).TablesOk := .ite h.setSlot.finish h.setSlot.closeUse.event.finish

theorem State.TablesOk.firmwareProgrammed (h : s.TablesOk) {acc n} : (s.firmwareProgrammed acc n).TablesOk := by
  unfold State.firmwareProgrammed
  split
  · exact h
  · exact .ite h.updCmd h.updCmd.stageDone

theorem State.TablesOk.pageVerified (h : s.TablesOk) {sectors x} : (s.pageVerified sectors x).TablesOk := by
  unfold State.pageVerified
  split
  · exact h.journalPageDone.commitJournal
  · exact h.mapPageDone.commitMaps
  · exact h.writeProgrammed
  · exact h.copyProgrammed
  · exact h.mapFlushed
  · split
    · exact .ite h.checkpointDone h.frame
    · exact h
  · exact h.firmwareProgrammed
  · exact h.frame
  · exact h.frame
  · exact h.lived (by rfl)

theorem State.TablesOk.retireGo (h : s.TablesOk) : s.retireGo.TablesOk :=
  h.over fun _ _ h => .ite h (.ite h.frame.freeSource h.frame.charge.startCopy)

theorem State.TablesOk.programFailed (h : s.TablesOk) {b} : (s.programFailed b).TablesOk := by
  refine .via (fun h => h.retireGo) (State.TablesOk.over (.ite h.frame h.frame) fun _ _ h => ?_)
  split
  · exact h.setVblk.vprogram
  · exact h

theorem State.TablesOk.opReply (h : s.TablesOk) {o} {f : State → State} (hf : ∀ s, s.TablesOk → (f s).TablesOk) :
    (s.opReply o f).TablesOk :=
  h.replyTo fun _ h => hf _ h

theorem State.TablesOk.opOver (h : s.TablesOk) {op} : (s.opOver op).TablesOk := h.frame

theorem State.TablesOk.programmed (h : s.TablesOk) {op b page sectors why back} : (s.programmed op b page sectors why back).TablesOk :=
  .ite (.retireGo (h.countBits.opOver.storeSectors.closeIfFull.over fun _ _ h => h.pageVerified)) h.countBits.programFailed

theorem NextOk.execVaultProgramComplete (h : s.TablesOk) {op back} : NextOk (execVaultProgramComplete op back s) := by
  refine .vaultAct ?_
  split
  · split
    · refine .ite h ?_
      split
      · exact h.opReply fun _ h => h.programFailed
      · exact .ite h (h.opReply fun _ h => h.programmed)
    · exact h
    · exact h
  · exact h

theorem State.TablesOk.refresh (h : s.TablesOk) {addr} : (s.refresh addr).TablesOk := .ite h h.frame

theorem State.TablesOk.refreshIssue (h : s.TablesOk) {n} : (refreshIssue n s).TablesOk := by
  induction n generalizing s with
  | zero => exact h
  | succ n ih =>
    rw [Sys2Proof.Machine.refreshIssue]
    split
    · exact h
    · exact .ite h (ih (.ite h.frame h.frame.charge.startCopy))

theorem State.TablesOk.refreshGo (h : s.TablesOk) : s.refreshGo.TablesOk := h.refreshIssue

theorem State.with_patrol (s : State) : { s with vault := { s.vault with patrol := s.vault.patrol } } = s := rfl

theorem State.TablesOk.patrolIssue (h : s.TablesOk) {n} : (patrolIssue n s).TablesOk := by
  delta Sys2Proof.Machine.patrolIssue
  refine State.TablesOk.brecOn (fun _ _ h => h) (fun n b ih s h => ?_) n s h
  have turn : ∀ p, (patrolIssue._f (n + 1) b { s with vault := { s.vault with patrol := p } }).TablesOk := by
    intro p
    match p with
    | none => exact h.frame
    | some [] => exact h.frame
    | some (a :: l) =>
      refine .ite h.frame ?_
      split
      exact ih _ (.issueOp (.charge (.frame h)))
  exact State.with_patrol s ▸ turn s.vault.patrol

theorem State.TablesOk.patrolGo (h : s.TablesOk) : s.patrolGo.TablesOk := h.refreshGo.patrolIssue

theorem State.TablesOk.patrolEnd (h : s.TablesOk) : s.patrolEnd.TablesOk := by
  unfold State.patrolEnd
  split
  · exact .ite h h.frame.updTest
  · exact h

theorem State.TablesOk.commandRead (h : s.TablesOk) {acc l} : (s.commandRead acc l).TablesOk := by
  unfold State.commandRead
  split
  · exact h
  · exact h.updCmd.later

theorem State.TablesOk.copyRead (h : s.TablesOk) {id l} : (s.copyRead id l).TablesOk := by
  unfold State.copyRead
  split
  · exact h
  · exact .ite h.frame.copyCopied (.ite h.frame h.frame.vprogram)

theorem State.TablesOk.scanBits (h : s.TablesOk) {addr} : (s.scanBits addr).TablesOk := by
  unfold State.scanBits
  split
  · split
    · exact .ite h h.countAt
    · exact h
  · exact h

theorem State.TablesOk.sectorsRead (h : s.TablesOk) {die why l} : (s.sectorsRead die why l).TablesOk := by
  unfold State.sectorsRead
  extract_lets s₁ s₂ s₃ s₄
  have h₂ : s₂.TablesOk := by
    refine h.countBits.over fun _ _ h => ?_
    split
    · exact h.frame
    · exact h
  have h₃ : s₃.TablesOk := by
    unfold s₃
    split
    · exact h₂.commandRead
    · exact h₂.copyRead
    · exact h₂
    · exact h₂
  have h₄ : s₄.TablesOk := by
    refine h₃.over fun _ _ h => ?_
    split
    · refine .recordsCheck (.ite ?_ h)
      split
      · exact h
      · exact h.refresh
    · exact h.scanBits.vaultLost
  exact .cullBlocks (.retireGo (.ite h₄.patrolGo.patrolEnd h₄.refreshGo))

theorem NextOk.execVaultReadComplete (h : s.TablesOk) {op reads} : NextOk (execVaultReadComplete op reads s) := by
  refine .vaultAct ?_
  split
  · split
    · exact .ite h (h.opReply fun _ h => h.opOver.sectorsRead)
    · exact h
    · exact h
  · exact h

theorem NextOk.execPatrolPassStart (h : s.TablesOk) : NextOk (execPatrolPassStart s) :=
  .vaultAct (.ite h (.ite h.patrolGo.patrolEnd (.ite h h.frame.updTest.patrolGo.patrolEnd)))

theorem NextOk.execPatrolPeriodEnd (h : s.TablesOk) : NextOk (execPatrolPeriodEnd s) := by
  refine .act ?_
  split
  · exact .ite h h.frame.event
  · exact h

theorem State.TablesOk.erased (h : s.TablesOk) {l} : (s.erased l).TablesOk :=
  .via (fun h => State.TablesOk.over (.ite h h.appendMap) fun _ _ h => h.retireBlock) (h.over fun _ _ h => h.dropSectors)

theorem NextOk.execVaultEraseComplete (h : s.TablesOk) {op ok} : NextOk (execVaultEraseComplete op ok s) := by
  refine .vaultAct ?_
  split
  · split
    · exact .ite h (h.opReply fun _ h => h.opOver.erased)
    · exact h
    · exact h
  · exact h

theorem NextOk.execVaultCheckpoint (h : s.TablesOk) : NextOk (execVaultCheckpoint s) := .vaultAct (h.when h.startCheckpoint)

theorem NextOk.execWearMoveCheck (h : s.TablesOk) : NextOk (execWearMoveCheck s) := by
  refine .vaultAct (.ite h ?_)
  dsimp only
  split
  · exact h.frame
  · exact .ite h (.ite h.frame.freeSource h.frame.openBlock.charge.startCopy)

theorem State.TablesOk.emptyBlock (h : s.TablesOk) {b u'} : (s.emptyBlock b u').TablesOk :=
  .ite h (.via (fun h => .ite h.freeSource h.startCopy) (.ite h h.charge))

theorem NextOk.execGarbageCollectionStart (h : s.TablesOk) : NextOk (execGarbageCollectionStart s) := by
  refine .vaultAct (.ite h (.via (fun h => .ite ?_ h) (.ite ?_ h.frame.retireGo)))
  · split
    · exact h.emptyBlock
    · exact h
  · split
    · exact h.frame.retireGo.emptyBlock
    · exact h.frame.retireGo

theorem NextOk.execVaultBlockOpenable (h : s.TablesOk) : NextOk (execVaultBlockOpenable s) :=
  .vaultAct (.ite h (.flushOpens (h.frame.over fun _ _ h => h.programPage)))

theorem NextOk.execPercentUsedRecompute (h : s.TablesOk) : NextOk (execPercentUsedRecompute s) := .vaultAct (h.when h.percentUpdate)

theorem NextOk.execVaultRequestTimeout (h : s.TablesOk) {acc} : NextOk (execVaultRequestTimeout acc s) :=
  .vaultAct (h.when h.endVaultWrite)

/-! ### Islands -/

theorem NextOk.execFatalCondition (h : s.TablesOk) {cause island} : NextOk (execFatalCondition cause island s) :=
  .act (.ite h h.fatalInternal.run)

theorem NextOk.execRouterTimeout (h : s.TablesOk) {island} : NextOk (execRouterTimeout island s) := .act (.ite h h.fatalInternal.run)

theorem NextOk.execWatchdogExpiry (h : s.TablesOk) : NextOk (execWatchdogExpiry s) := .act (.ite h (h.hbLow.lived (by rfl)).alert)

theorem NextOk.execHbmParityError (h : s.TablesOk) {channel} : NextOk (execHbmParityError channel s) :=
  .act (.ite h (.run (.ite h.updIsland.beginMapOut h.updIsland)))

theorem State.TablesOk.jobAbsent (h : s.TablesOk) {t' j} : (s.jobAbsent t' j).TablesOk := by
  unfold State.jobAbsent
  split
  · exact h.unpin.absorbFailed
  · split
    · exact .ite h.sendJob h.unpin
    · exact h.unpin
  · exact h

theorem State.TablesOk.tileAbsent (h : s.TablesOk) {t'} : (s.tileAbsent t').TablesOk :=
  State.TablesOk.over (.setTile (.ite h h.learnEpoch)) fun _ _ h => h.jobAbsent

theorem State.TablesOk.tileStale (h : s.TablesOk) {t'} : (s.tileStale t').TablesOk := by
  unfold State.tileStale
  split
  · exact h
  · exact h.dropStale

theorem State.TablesOk.tileReset (h : s.TablesOk) {t'} : (s.tileReset t').TablesOk :=
  .via (fun h => .ite h.setTile.mapOut (.ite h.setTile.beginMapOut h.setTile)) h.islandDown.tileStale.tileAbsent

theorem State.TablesOk.channelReset (h : s.TablesOk) {c} : (s.channelReset c).TablesOk := by
  unfold State.channelReset
  extract_lets x s₁ s₂ _ s₃
  have h₂ : s₂.TablesOk := .ite h.islandDown.learnEpoch h.islandDown
  have h₃ : s₃.TablesOk := h₂.frame
  clear_value x
  split
  · split
    · exact h₃.programFailed
    · exact h₃
    · exact h₃
  · exact h₃

theorem State.TablesOk.sidebandDown (h : s.TablesOk) : s.sidebandDown.TablesOk :=
  .emit (.ite h.clearBegun.islandDown.dropStale h.clearBegun.islandDown)

theorem State.TablesOk.recorderDown (h : s.TablesOk) : s.recorderDown.TablesOk := .frame (h.islandDown.over fun _ _ h => h.dropStale)

theorem State.TablesOk.resetIsland (h : s.TablesOk) {i} : (s.resetIsland i).TablesOk :=
  .ite h.channelReset (.ite h.tileReset (.ite h.islandDown.frame (.ite h.recorderDown (.ite h.sidebandDown h.islandDown.frame))))

theorem State.TablesOk.queueStateBad (h : s.TablesOk) {p} : (s.queueStateBad p).TablesOk := .ite h.resetController h

theorem NextOk.execUnitDown (h : s.TablesOk) {island why} : NextOk (execUnitDown island why s) := by
  refine .vaultAct (.ite h ?_)
  split
  · exact .ite h.queueStateBad (.ite h.resetIsland h)
  · exact .ite h (.ite (.ite h.updTest h.setIsland) (.ite h.setIsland h))
  · exact h

theorem State.TablesOk.unitBack (h : s.TablesOk) {i} : (s.unitBack i).TablesOk :=
  .ite h.reissueOps (.ite (.ite h.govStart h) (.ite (h.frame.over fun _ _ h => h.accept) (.ite h.sbCleared.emit h)))

theorem NextOk.execUnitUp (h : s.TablesOk) {island} : NextOk (execUnitUp island s) :=
  .vaultAct
    (.ite h.lateEpochs (.via (fun h => .unitBack (.event (.ite h.frame h))) (h.lateEpochs.setIsland.when h.lateEpochs.setIsland.unitTested)))

theorem NextOk.execVaultOperationTimeout (h : s.TablesOk) {channel} : NextOk (execVaultOperationTimeout channel s) :=
  .vaultAct (.ite h.channelReset h)

theorem State.TablesOk.countDroop (h : s.TablesOk) {i deep} : (s.countDroop i deep).TablesOk := .ite h.setIsland h.setIsland.frame

theorem NextOk.execDroopStretch50 (h : s.TablesOk) {island} : NextOk (execDroopStretch50 island s) :=
  .act (.ite h (.ite h.countDroop h.setIsland))

theorem NextOk.execDroopStretch25 (h : s.TablesOk) {island} : NextOk (execDroopStretch25 island s) :=
  .act (.ite h (.ite h.setIsland h.countDroop))

theorem NextOk.execDroopRecover (h : s.TablesOk) {island} : NextOk (execDroopRecover island s) :=
  .act (.ite h (.ite h.countDroop h.setIsland))

theorem NextOk.execRefclkLost (h : s.TablesOk) : NextOk (execRefclkLost s) := .act (.ite h (h.lived (by rfl)).event.failDevice.run)

theorem NextOk.execThermalWarn (h : s.TablesOk) {island temp} : NextOk (execThermalWarn island temp s) := .act (.ite h h.frame.record)

theorem NextOk.execThermalWarnEnd (h : s.TablesOk) : NextOk (execThermalWarnEnd s) := .act (.ite h h.frame)

theorem NextOk.execThermalTrip (h : s.TablesOk) {island temp} : NextOk (execThermalTrip island temp s) :=
  .act (.ite h (.ite (h.updPack.failDevice.lived (by rfl)) (h.updPack.failDevice.lived (by rfl)).dieReset))

end

end Sys2Proof.Machine
end

section
/-! PROOFS. Canonical tables at the start and in the pair. -/

namespace Sys2Proof.Machine

open Sys2Proof

section

variable {s t u v : State}

/-! ### Start-up -/

theorem Store.wf_islandsUp (h : s.TablesOk) {keep} : (s.islandsUp keep).wf = true := by
  unfold State.islandsUp
  extract_lets days old out
  have hold : old.wf = true := Store.wf_keep _ (Store.wf_each _ h.islands)
  exact Store.wf_foldl hold fun _ _ h => Store.wf_put _ _ h

theorem State.TablesOk.outOfReset (h : s.TablesOk) {f} : (s.outOfReset f).TablesOk := by
  unfold State.outOfReset
  extract_lets keep m
  exact { h with
    cmds := by
      dsimp only
      split
      · exact h.cmds
      · rfl
    pools := by dsimp only; exact Store.wf_each _ h.pools
    members := by dsimp only; exact Store.wf_each _ h.members
    volumes := by dsimp only; exact Store.wf_each _ h.volumes
    work := by dsimp only; exact Store.wf_each _ (Store.wf_keep _ h.work)
    frames := .nil
    heads := rfl
    locks := rfl
    tasks := rfl
    table := rfl
    staging := rfl
    parisons := rfl
    streams := rfl
    tiles := by dsimp only; exact Store.wf_each _ h.tiles
    ports := rfl
    islands := Store.wf_islandsUp h
    learned := rfl }

theorem State.TablesOk.startFails (h : s.TablesOk) {step trained} : (s.startFails step trained).TablesOk := h.event.failDevice

theorem State.TablesOk.mapOutUntrained (h : s.TablesOk) : s.mapOutUntrained.TablesOk := h.over fun _ _ h => h.moveShare.islandDown.mapOut

theorem State.TablesOk.countStart (h : s.TablesOk) {copies} : (s.countStart copies).TablesOk :=
  h.countAt.over fun _ _ h => h.countSegments

theorem State.TablesOk.mount (h : s.TablesOk) : s.mount.2.TablesOk := by
  unfold State.mount
  extract_lets +onlyGivenNames v copies v'
  split
  · exact h.countStart.event
  · split
    extract_lets +onlyGivenNames s₁ entries opened loose
    have h₁ : s₁.TablesOk := .ite h.event h
    split
    extract_lets +onlyGivenNames map found taken n percent v'' s₂ s₃ s₄
    have h₂ : s₂.TablesOk := h₁.frame.event
    have h₃ : s₃.TablesOk := h₂.countStart.countAt
    have h₄ : s₄.TablesOk := h₃.countSegments
    dsimp only
    exact .cullBlocks (.ite h₄ h₄.logEntries)

theorem State.TablesOk.recordAt (h : s.TablesOk) {code inst p1 p2 p3 time} : (s.recordAt code inst p1 p2 p3 time).TablesOk := h.accept

theorem State.TablesOk.powerDieReports (h : s.TablesOk) : s.powerDieReports.TablesOk := by
  unfold State.powerDieReports
  extract_lets p s₁ s₂ s₃ s₄ s₅ s₆ s₇ s₈
  have h₁ : s₁.TablesOk := h.over fun _ _ h => .ite h.accept h.holdRecord
  have h₂ : s₂.TablesOk := .ite h₁.alert h₁
  have h₃ : s₃.TablesOk := h₂.over fun _ _ h => h.frame
  have h₄ : s₄.TablesOk := h₃.over fun _ _ h => h.extremeOf
  have h₅ : s₅.TablesOk := by
    unfold s₅
    split
    · exact h₄.event
    · exact h₄
  have h₆ : s₆.TablesOk := by
    unfold s₆
    split
    · exact h₅.record
    · exact h₅
  have h₈ : s₈.TablesOk := h₆.mirrorGauge.updPack
  exact .ite h (.ite h₈ h₈.updPack.storeGauge)

theorem State.TablesOk.loadImage (h : s.TablesOk) {a foreign_ known} : (s.loadImage a foreign_ known).TablesOk :=
  { h with
    templates := Store.wf_foldl rfl fun _ _ h => Store.wf_put _ _ h
    pools := Store.wf_foldl rfl fun _ _ h => Store.wf_put _ _ h
    members := Store.wf_foldl rfl fun _ _ h => Store.wf_put _ _ h
    volumes := Store.wf_foldl (Store.wf_keep _ h.volumes) fun _ _ h => Store.wf_put _ _ h
    regions := Store.wf_foldl rfl fun _ _ h => Store.wf_putD _ _ _ h }

theorem State.TablesOk.owedFound (h : s.TablesOk) : s.owedFound.TablesOk := h.membersEach

theorem State.TablesOk.regionsResume (h : s.TablesOk) : s.regionsResume.TablesOk := by
  refine h.over fun _ _ h => ?_
  dsimp only
  split
  · exact h
  · exact h
  · exact h.recompute
  · exact h.recompute
  · exact h.recompute
  · exact .ite h.abandonMove.recompute (.ite h.replaceAgain h)
  · exact .ite h.regionLost (.ite h.setCrit.updWork.replaceAgain h.setCrit.updWork.furtherLoss)

theorem State.TablesOk.undoInits (h : s.TablesOk) : s.undoInits.TablesOk :=
  h.over fun _ _ h => .noteChange (.volumesDel (.volEvent (h.over fun _ _ h => h.updRegion)))

/-- As `State.TablesOk.moveFrame`, the definition is unfolded as a function. -/
theorem State.TablesOk.restoreFrame (h : s.TablesOk) {x} : (s.restoreFrame x).TablesOk := by
  have hdef : State.restoreFrame = State.restoreFrame := rfl
  conv at hdef => rhs; delta State.restoreFrame
  rw [hdef]
  beta_reduce
  extract_lets +onlyGivenNames old copy data f
  split
  · exact h
  · next n t ht =>
    have ht : t.TablesOk := h.takeFrame ht
    extract_lets s₁ s₂
    have h₁ : s₁.TablesOk := .ite ht ht.chainIn
    have h₂ : s₂.TablesOk := h₁.noteGen
    exact .ite (.ite h₂.volEvent h₂) (.ite h₂.freeFrame h₂.blockLost)

theorem State.TablesOk.restoreParison (h : s.TablesOk) {p} : (s.restoreParison p).TablesOk :=
  { h with parisons := Store.wf_put _ _ h.parisons }

theorem State.TablesOk.restoreEntries (h : s.TablesOk) {l} : (s.restoreEntries l).TablesOk := by
  refine h.over fun s x h => .ite h ?_
  extract_lets n run slot t
  split
  next id s₁ hs =>
    have h₁ : s₁.TablesOk := .ofSnd hs h.newId
    extract_lets s₂ _ s₃
    have h₂ : s₂.TablesOk := by
      unfold s₂
      clear_value run
      split
      · exact h₁.stage
      · exact h₁
    have h₃ : s₃.TablesOk := { h₂ with tasks := Store.wf_put _ _ h₂.tasks }
    clear_value slot
    split
    · exact h₃.tablePut
    · exact h₃

theorem State.TablesOk.restore (h : s.TablesOk) {frames parisons entries} : (s.restore frames parisons entries).TablesOk :=
  State.TablesOk.over (.restoreEntries (State.TablesOk.over (h.over fun _ _ h => h.restoreFrame) fun _ _ h => h.restoreParison))
    (fun _ _ h => h.absorbStripe)

theorem State.TablesOk.scanJournal (h : s.TablesOk) : s.scanJournal.TablesOk := by
  refine .via (fun h => h.countSegments.frame) ?_
  split
  · exact h.event
  · exact h

theorem State.TablesOk.replayBlock (h : s.TablesOk) {q r k} : (s.replayBlock q r k).TablesOk := by
  unfold State.replayBlock
  extract_lets lba old skip s₁
  have h₁ : s₁.TablesOk := by
    unfold s₁
    clear_value old
    split
    · exact h.freeFrame
    · exact h
  refine .ite h ?_
  split
  · exact h₁
  · next ht => exact (h₁.takeFrame ht).chainIn.noteGen.lived (by rfl)

theorem State.TablesOk.replayWrites (h : s.TablesOk) : s.replayWrites.TablesOk :=
  h.over fun _ _ h => (h.noteRefs.lived (by rfl)).over fun _ _ h => h.replayBlock

theorem State.TablesOk.replayChain (h : s.TablesOk) {c} : (s.replayChain c).TablesOk := by
  unfold State.replayChain
  split
  · exact h
  · exact .via (fun h => .ite h.queueRetire h.freeAll.newTask) ((h.lived (by rfl)).over fun _ _ h => h.noteGen)

theorem State.TablesOk.replay (h : s.TablesOk) : s.replay.TablesOk := h.replayWrites.queueRetire.over fun _ _ h => h.replayChain

theorem State.TablesOk.countersResume (h : s.TablesOk) : s.countersResume.TablesOk := h.volumesEach

theorem State.TablesOk.beginReplay (h : s.TablesOk) : s.beginReplay.TablesOk :=
  .startProgress (.lived (.countersResume (.replay (.ite h h.scanJournal))) (by rfl))

theorem State.TablesOk.countersSaved (h : s.TablesOk) : s.countersSaved.TablesOk := by
  unfold State.countersSaved
  split
  · exact h
  · exact h.resumeCounters

theorem State.TablesOk.findDump (h : s.TablesOk) {d} : (s.findDump d).2.TablesOk := .iteSnd h.countSegments.recordAt h.countSegments.event

theorem State.TablesOk.reportReleased (h : s.TablesOk) : s.reportReleased.TablesOk := by
  unfold State.reportReleased
  extract_lets held _ s₁
  have h₁ : s₁.TablesOk := (h.lived (by rfl)).over fun _ _ h => h.accept
  split
  · exact (h₁.lived (by rfl)).event
  · exact h₁

theorem State.TablesOk.findDumps (h : s.TablesOk) : s.findDumps.TablesOk := by
  unfold State.findDumps
  extract_lets s₁
  have h₁ : s₁.TablesOk := by
    unfold s₁
    split
    · split
      next hs => exact .ofSnd hs h.findDump
      next hs => exact .releaseDump (.ofSnd hs h.findDump)
    · exact h
  clear_value s₁
  split
  · next d hd =>
    have h₂ : (s₁.findDump d).2.TablesOk := h₁.findDump
    refine .releaseBlocks (h₂.withLife ?_)
    exact h₁.dump
  · exact h₁

theorem State.TablesOk.releaseJournal (h : s.TablesOk) : s.releaseJournal.TablesOk := h.frame

theorem State.TablesOk.holdDump (h : s.TablesOk) : s.holdDump.TablesOk := h.lived (by rfl)

theorem State.TablesOk.labelsNow (h : s.TablesOk) : s.labelsNow.TablesOk := by
  unfold State.labelsNow
  split
  · exact .ite (h.lived (by rfl)).writeLabels h
  · exact h

theorem State.TablesOk.stepEight (h : s.TablesOk) : s.stepEight.TablesOk :=
  .ite h.labelsNow.beginReplay h.setState.undoInits.regionsResume.assignLogs.beginReplay

theorem State.TablesOk.afterDrives (h : s.TablesOk) : s.afterDrives.TablesOk := .ite h.stepEight (h.lived (by rfl))

theorem State.TablesOk.startOwn (h : s.TablesOk) : s.startOwn.TablesOk := by
  unfold State.startOwn
  refine .afterDrives ?_
  split
  · next d hd =>
    extract_lets s₁ _ _ _ s₂ s₃
    have h₂ : s₂.TablesOk := { h.setState with regions := h.dump d hd }
    have h₃ : s₃.TablesOk := h₂.resumeCounters.restore
    exact h₃.event
  · exact h.countersSaved

theorem State.TablesOk.preemptAll (h : s.TablesOk) : s.preemptAll.TablesOk := h.portsEach.over fun _ _ h => h.preempt

theorem State.TablesOk.takeLabels (h : s.TablesOk) {partner} : (s.takeLabels partner).TablesOk := h.writeLabels

theorem State.TablesOk.beginTakeover (h : s.TablesOk) {a partner} : (s.beginTakeover a partner).TablesOk := by
  unfold State.beginTakeover
  split
  · exact h
  · exact .via (fun h =>
        .emit (.assignLogs (.regionsResume (.undoInits (.ite h.countersSaved h.takeLabels)))))
      (h.setState.lived (by rfl)).preemptAll.loadImage.owedFound

theorem State.TablesOk.rebaseJournal (h : s.TablesOk) {l} : (s.rebaseJournal l).TablesOk := by
  unfold State.rebaseJournal
  dsimp only
  split
  · exact (h.releaseDump.releaseJournal.lived (by rfl)).startCheckpoint
  · exact .startCheckpoint (.flushOpens ((h.releaseDump.releaseJournal.lived (by rfl)).over fun _ _ h => h.programPage))

theorem State.TablesOk.settleEvent (h : s.TablesOk) : s.settleEvent.TablesOk := h.event

theorem State.TablesOk.takeoverGo (h : s.TablesOk) {x} : (s.takeoverGo x).TablesOk := by
  unfold State.takeoverGo
  split
  · exact h
  · exact (h.portsEach.rebaseJournal.settleEvent.lived (by rfl)).resumeCounters.restore.afterDrives
  · exact (h.rebaseJournal.settleEvent.checkMarked.event.lived (by rfl)).afterDrives

theorem State.TablesOk.foreignArray (h : s.TablesOk) {l} : (s.foreignArray l).TablesOk := by
  unfold State.foreignArray
  dsimp only
  split
  · exact ((h.lived (by rfl)).event.raisePfs.setState.lived (by rfl)).event.holdDump
  · exact (h.lived (by rfl)).event.raisePfs.holdDump

theorem State.TablesOk.standby (h : s.TablesOk) {l} : (s.standby l).TablesOk :=
  .setState (.lived (.ite h.releaseDump.releaseJournal h.holdDump) (by rfl))

theorem State.TablesOk.byLabel (h : s.TablesOk) {a} : (s.byLabel a).TablesOk := by
  unfold State.byLabel
  extract_lets own s₁ foreign_ waiting
  have h₁ : s₁.TablesOk := .ite h.loadImage h.loadImage.owedFound
  have hforeign : (foreign_ s₁).TablesOk := h₁.poolsEach
  split
  · split
    · exact .ite h₁.startOwn (h₁.setState.holdDump.lived (by rfl)).startProgress
    · exact (h₁.setState.holdDump.lived (by rfl)).startProgress
  · exact .ite (.ite h₁.beginTakeover h₁.startOwn) (.ite hforeign.standby hforeign.foreignArray)

theorem State.TablesOk.startBackEnd (h : s.TablesOk) {f} : (s.startBackEnd f).TablesOk :=
  .ite h.mapOutUntrained.frame.mount.startFails h.mapOutUntrained.frame.mount.powerDieReports.govRestore.reportReleased.findDumps.byLabel

theorem NextOk.execLogicDieResetExit (h : s.TablesOk) {found} : NextOk (execLogicDieResetExit found s) := by
  refine .vaultAct (.ite h ?_)
  extract_lets lost keep s₁ s₂ s₃ s₄ _ s₅
  have h₁ : s₁.TablesOk := .outOfReset (.ite h.setState h)
  have h₂ : s₂.TablesOk := .ite h₁ h₁.sbCleared
  have h₃ : s₃.TablesOk := h₂.emit
  have h₄ : s₄.TablesOk := .ite h₃ h₃.event
  have h₅ : s₅.TablesOk := by
    unfold s₅
    split
    · exact h₄.startFails
    · exact .via (fun h => .ite h.startFails h.startBackEnd) (.ite (h₄.lived (by rfl)) (h₄.lived (by rfl)).event)
  exact .ite h₅.fence h₅

theorem State.TablesOk.takeoverDone (h : s.TablesOk) : s.takeoverDone.TablesOk := by
  unfold State.takeoverDone
  split
  · exact h
  · exact h.writeLabels.volumesAttached.emit.event.raisePfs.lived (by rfl)

theorem State.TablesOk.removeMissing (h : s.TablesOk) : s.removeMissing.TablesOk :=
  h.over fun _ _ h => .ite h.later (.ite h h.updPort.event)

theorem NextOk.execStartupReady (h : s.TablesOk) : NextOk (execStartupReady s) :=
  .vaultAct
    (.ite h
       (.via (fun h =>
            .via (fun h => .ite h (h.takeoverDone.lived (by rfl)).setState.reclaimJournal.govStart.event) (.ite h.stepEight.run h))
          (.ite h h.removeMissing.run)))

/-! ### The pair -/

theorem NextOk.execPairHeartbeat (h : s.TablesOk) {partner} : NextOk (execPairHeartbeat partner s) := .act (.ite h h.frame)

theorem NextOk.execPartnerLost (h : s.TablesOk) : NextOk (execPartnerLost s) := .act (.ite h h.frame.event.raisePfs)

theorem NextOk.execPairHeartbeatSend (h : s.TablesOk) : NextOk (execPairHeartbeatSend s) := .act (.ite h h.frame.emit)

theorem NextOk.execArbHbToggle (h : s.TablesOk) : NextOk (execArbHbToggle s) := .act (.ite h (h.lived (by rfl)).emit)

theorem NextOk.execArbFenceAssert (h : s.TablesOk) : NextOk (execArbFenceAssert s) := .act (h.lived (by rfl)).fence

theorem NextOk.execArbFenceRelease (h : s.TablesOk) : NextOk (execArbFenceRelease s) :=
  .act (.ite (h.lived (by rfl)) (h.lived (by rfl)).setState.dieReset)

theorem State.TablesOk.takeIgnored (h : s.TablesOk) {st unbound} : (s.takeIgnored st unbound).TablesOk := .ite h.event (h.lived (by rfl))

theorem NextOk.execArbTakeAssert (h : s.TablesOk) {drives} : NextOk (execArbTakeAssert drives s) := by
  refine .vaultAct (.ite h (.ite h.takeIgnored (.ite h (.ite h.takeIgnored (.ite ?_ h)))))
  split
  · exact .ite h.beginTakeover h.takeIgnored
  · exact h.takeIgnored

theorem NextOk.execFenceDrainTimeout (h : s.TablesOk) : NextOk (execFenceDrainTimeout s) := by
  refine .act ?_
  split
  · exact h
  · exact .ite h (.gatePorts (h.over fun _ _ h => h.updPort.emit))

theorem NextOk.execExportRequest (h : s.TablesOk) : NextOk (execExportRequest s) := by
  refine .act ?_
  split
  · exact h
  · exact .ite h h.emit

theorem State.TablesOk.releaseHeld (h : s.TablesOk) : s.releaseHeld.TablesOk := h.releaseDump.releaseJournal.lived (by rfl)

theorem NextOk.execRelease (h : s.TablesOk) : NextOk (execRelease s) := .act (.ite h.releaseHeld h)

theorem NextOk.execExportWait (h : s.TablesOk) : NextOk (execExportWait s) := by
  refine .vaultAct ?_
  split
  · exact h
  · exact .ite h h.event.takeoverGo

theorem NextOk.execDumpImport (h : s.TablesOk) {theSeal content} : NextOk (execDumpImport theSeal content s) := by
  refine .vaultAct ?_
  split
  · exact h
  · exact .ite h.event.takeoverGo h.event.takeoverGo

theorem NextOk.execPairingLinkFailure (h : s.TablesOk) : NextOk (execPairingLinkFailure s) := by
  refine .vaultAct ?_
  split
  · exact h
  · exact .ite (h.lived (by rfl)).emit h.event.takeoverGo

theorem NextOk.execChangeLogFlush (h : s.TablesOk) : NextOk (execChangeLogFlush s) :=
  .act (.ite h (.run (h.frame.over fun _ _ h => h.metaStart)))

theorem NextOk.execMetadataCheckpoint (h : s.TablesOk) : NextOk (execMetadataCheckpoint s) := .act (.ite h.metadataCheckpoint h)

theorem NextOk.execBitmapRewrite (h : s.TablesOk) : NextOk (execBitmapRewrite s) := .act (.ite h h.frame.metaStart.run)

theorem State.TablesOk.pairBound (h : s.TablesOk) {op partner} : (s.pairBound op partner).TablesOk := h.event

theorem NextOk.execPairBind (h : s.TablesOk) {acc} : NextOk (execPairBind acc s) := by
  refine .act (h.start fun _ => ?_)
  split
  · exact h.check h.writeLabels.pairBound.finish
  · exact h.finish

theorem NextOk.execPairUnbind (h : s.TablesOk) {acc} : NextOk (execPairUnbind acc s) :=
  .act (h.start fun _ => h.check h.writeLabels.pairBound.finish)

theorem NextOk.execPairDiscardDump (h : s.TablesOk) {acc} : NextOk (execPairDiscardDump acc s) :=
  .act (h.start fun _ => .finish (.pairBound (.ite h.releaseHeld h)))

theorem State.TablesOk.importState (h : s.TablesOk) : s.importState.TablesOk := .ite (h.setState.lived (by rfl)) h

theorem NextOk.execArrayImport (h : s.TablesOk) {acc} : NextOk (execArrayImport acc s) := by
  refine .vaultAct (h.start fun c => ?_)
  extract_lets discard s₁ a _
  split
  · exact h.finish
  · refine h.check ?_
    extract_lets s₂ s₃ s₄ s₅ s₆
    have h₁ : s₁.TablesOk := .ite h.releaseHeld h
    have h₂ : s₂.TablesOk := h₁.frame
    have h₃ : s₃.TablesOk := h₂.preemptAll.loadImage.owedFound
    have h₄ : s₄.TablesOk := h₃.importState
    have h₅ : s₅.TablesOk := h₄.writeLabels.undoInits
    have h₆ : s₆.TablesOk := h₅.regionsResume.assignLogs.settleEvent
    split
    next marked vols s₇ hs =>
      have h₇ : s₇.TablesOk := .ofSndSnd hs h₆.checkMarked
      extract_lets s₈ s₉
      have h₉ : s₉.TablesOk := h₇.event.updCmd
      exact h₉.frame.importProgress

end

end Sys2Proof.Machine
end

section
/-! PROOFS. Canonical tables in the commands of the host. -/

namespace Sys2Proof.Machine

open Sys2Proof

section

variable {s t u v : State}

/-! ### Commands that manage -/

theorem State.TablesOk.applyItem (h : s.TablesOk) {x} : (s.applyItem x).TablesOk := by
  cases x with
  | template id m => exact h.templatesPut
  | templateDelete id => exact h.templatesDel
  | pool id chunk spare seed ports =>
    exact { h with pools := Store.wf_put _ _ h.pools, members := Store.wf_foldl h.members fun _ _ h => Store.wf_put _ _ h }
  | poolDelete id =>
    unfold State.applyItem
    exact { h with pools := Store.wf_del _ h.pools, members := by dsimp only; exact Store.wf_keep _ h.members }
  | expand id ports spare =>
    refine { h with members := Store.wf_foldl h.members fun _ _ h => ?_ }
    split
    · exact Store.wf_put _ _ h
    · exact Store.wf_put _ _ h
  | governor => exact h
  | pack => exact h

theorem State.TablesOk.stageItem (h : s.TablesOk) {c x} : (s.stageItem c x).TablesOk := h.check h.frame.finish

theorem NextOk.execTemplateDefine (h : s.TablesOk) {acc} : NextOk (execTemplateDefine acc s) := by
  refine .act (h.start fun _ => ?_)
  split
  · exact h.finish
  · exact h.stageItem

theorem NextOk.execTemplateDelete (h : s.TablesOk) {acc} : NextOk (execTemplateDelete acc s) := .act (h.start fun _ => h.stageItem)

theorem NextOk.execPoolCreate (h : s.TablesOk) {acc} : NextOk (execPoolCreate acc s) :=
  .act (h.start fun _ => .stageItem (.ite h.frame h))

theorem NextOk.execPoolDelete (h : s.TablesOk) {acc} : NextOk (execPoolDelete acc s) := .act (h.start fun _ => h.stageItem)

theorem NextOk.execPoolExpand (h : s.TablesOk) {acc} : NextOk (execPoolExpand acc s) := .act (h.start fun _ => h.stageItem)

theorem NextOk.execPoolExpandSpare (h : s.TablesOk) {acc} : NextOk (execPoolExpandSpare acc s) := .act (h.start fun _ => h.stageItem)

theorem State.TablesOk.stageConfig (h : s.TablesOk) {c len item} : (s.stageConfig c len item).TablesOk := by
  refine .ite h.finish (.ite h.finish ?_)
  split
  · exact h.stageItem
  · exact h.finish

theorem NextOk.execConfigStageGovernor (h : s.TablesOk) {acc} : NextOk (execConfigStageGovernor acc s) :=
  .act (h.start fun _ => .ite h (.ite h.finish h.stageConfig))

theorem NextOk.execConfigStagePack (h : s.TablesOk) {acc} : NextOk (execConfigStagePack acc s) :=
  .act (h.start fun _ => .ite h h.stageConfig)

theorem NextOk.execConfigDiscard (h : s.TablesOk) {acc} : NextOk (execConfigDiscard acc s) := .act (h.start fun _ => h.frame.event.finish)

theorem NextOk.execDeviceStop (h : s.TablesOk) {acc} : NextOk (execDeviceStop acc s) :=
  .act (h.start fun _ => .ite h.finish (.settleWaits (.updCmd (.ite h.setState h))))

theorem State.TablesOk.holdMember (h : s.TablesOk) {p} : (s.holdMember p).TablesOk := .ite h h.setPort.emit

theorem State.TablesOk.freeDrive (h : s.TablesOk) {p} : (s.freeDrive p).TablesOk := .ite h h.setPort.emit

theorem State.TablesOk.arrayLabel (h : s.TablesOk) : s.arrayLabel.TablesOk := .ite h.frame (.ite h h.frame)

theorem State.TablesOk.applyNow (h : s.TablesOk) {x} : (s.applyNow x).TablesOk := by
  unfold State.applyNow
  split
  · exact h.applyItem
  · exact h.applyItem
  · exact State.TablesOk.over (.noteChange (.applyItem (h.over fun _ _ h => h.noteChange))) fun _ _ h => h.holdMember
  · exact .noteChange (.applyItem (h.over fun _ _ h => h.freeDrive.noteChange))
  · exact .spareCheck
      (State.TablesOk.over (State.TablesOk.over (.applyItem (h.over fun _ _ h => h.noteChange)) fun _ _ h => h.event)
         (fun _ _ h => h.holdMember))
  · exact h.govStructure
  · exact h.declare

theorem State.TablesOk.startSaves (h : s.TablesOk) : s.startSaves.TablesOk := h.govSave.startCheckpoint.metadataCheckpoint.saveSeries

theorem NextOk.execDeviceStart (h : s.TablesOk) {acc} : NextOk (execDeviceStart acc s) := by
  refine .vaultAct (h.start fun _ => ?_)
  dsimp only
  split
  · exact h.finish
  · exact .finishLogged
      (.setState
         (.ite h.startSaves
            (.record (.startSaves (.writeLabels (.writeConfig (.bringLogs (.frame (.arrayLabel (h.over fun _ _ h => h.applyNow))))))))))

theorem State.TablesOk.zeroStripe (h : s.TablesOk) {acc vol r stripe} : (s.zeroStripe acc vol r stripe).TablesOk := h.newTask

theorem NextOk.execVolumeCreateArray (h : s.TablesOk) {acc} : NextOk (execVolumeCreateArray acc s) := by
  refine .act (.run (h.start fun c => ?_))
  extract_lets +onlyGivenNames e id t p capacity
  refine .ite h.finish ?_
  split
  · exact h.finish
  · exact h.finish
  · refine .ite h.finish ?_
    extract_lets +onlyGivenNames per n limit free
    split
    · exact h.finish
    · refine .ite h.finish ?_
      extract_lets +onlyGivenNames s₁ v s₂ k s₃
      have h₁ : s₁.TablesOk := h.over fun _ _ h => h.updRegion
      have h₃ : s₃.TablesOk := h₁.volumesPut.noteVolume.updCmd
      exact h₃.over fun _ _ h => h.over fun _ _ h => h.zeroStripe

theorem NextOk.execVolumeCreateVault (h : s.TablesOk) {acc} : NextOk (execVolumeCreateVault acc s) :=
  .act (.run (h.start fun _ => h.check h.volumesPut.volEvent.finish))

theorem NextOk.execVolumeDelete (h : s.TablesOk) {acc} : NextOk (execVolumeDelete acc s) := by
  refine .vaultAct (h.start fun _ => ?_)
  dsimp only
  split
  · exact h.finish
  · exact .ite h.finish h.volumesPut.updCmd

theorem NextOk.execVolumeAttach (h : s.TablesOk) {acc} : NextOk (execVolumeAttach acc s) := by
  refine .act (.run (h.start fun _ => .ite h.finish ?_))
  split
  · exact h.finish
  · exact .ite h.finish (.ite h.finish (.ite h.finish h.volumesPut.noteVolume.volEvent.finishLogged))

theorem NextOk.execVolumeDetach (h : s.TablesOk) {acc} : NextOk (execVolumeDetach acc s) := by
  refine .act (.run (h.start fun _ => ?_))
  dsimp only
  split
  · exact h.finish
  · exact .ite h.finish h.volumesPut.updCmd.settleWaits.dropStreams

theorem NextOk.execMemberFail (h : s.TablesOk) {acc} : NextOk (execMemberFail acc s) :=
  .act (.run (h.start fun _ => h.check h.failMember.finishLogged))

theorem NextOk.execMemberReplaceCopyback (h : s.TablesOk) {acc} : NextOk (execMemberReplaceCopyback acc s) :=
  .act (.run (h.start fun _ => h.check h.membersPut.memberTo.holdMember.copybackCheck.finishLogged))

theorem NextOk.execMemberReplaceJoin (h : s.TablesOk) {acc} : NextOk (execMemberReplaceJoin acc s) := by
  refine .act (.run (h.start fun c => h.check ?_))
  extract_lets pool s₁ s₂
  have h₁ : s₁.TablesOk := { h with members := by dsimp only [s₁]; exact Store.wf_upd _ _ (Store.wf_put _ _ h.members) }
  have h₂ : s₂.TablesOk := h₁.noteChange.noteChange.holdMember
  exact h₂.dropMembers.assignLogs.writeLabels.spareCheck.finishLogged

theorem State.TablesOk.setPaused (h : s.TablesOk) {c on} : (s.setPaused c on).TablesOk := h.check h.poolsEach.finish

theorem NextOk.execRebuildPause (h : s.TablesOk) {acc} : NextOk (execRebuildPause acc s) := .act (.run (h.start fun _ => h.setPaused))

theorem NextOk.execRebuildResume (h : s.TablesOk) {acc} : NextOk (execRebuildResume acc s) := .act (.run (h.start fun _ => h.setPaused))

theorem NextOk.execRebuildPromote (h : s.TablesOk) {acc} : NextOk (execRebuildPromote acc s) :=
  .act (.run (h.start fun _ => .finish (.ite h.updWork h)))

theorem NextOk.execRebuildRetry (h : s.TablesOk) {acc} : NextOk (execRebuildRetry acc s) :=
  .act (.run (h.start fun _ => .finish (.ite h.updWork h)))

theorem NextOk.execConsistencyCheck (h : s.TablesOk) {acc} : NextOk (execConsistencyCheck acc s) :=
  .act (.run (h.start fun _ => h.check (.finish (h.over fun _ _ h => h.updRegion.updWork))))

/-! ### Commands that read and write -/

theorem State.TablesOk.gather (h : s.TablesOk) {c} : (s.gather c).TablesOk := .ite h.takeFrames.updCmd.pump h.takeFrames.updCmd.tryCommit

theorem State.TablesOk.gatherOrWait (h : s.TablesOk) {c} : (s.gatherOrWait c).TablesOk := .ite h.gather h.updCmd

theorem State.TablesOk.startWrite (h : s.TablesOk) {c} : (s.startWrite c).TablesOk := .ite h.finish h.gatherOrWait

theorem State.TablesOk.startZeroes (h : s.TablesOk) {c} : (s.startZeroes c).TablesOk :=
  .ite (.ite h.finish (.ite h.updCmd h.updCmd.logEntries)) h.gatherOrWait

theorem State.TablesOk.vaultCommit (h : s.TablesOk) {c} : (s.vaultCommit c).TablesOk :=
  .ite h (.ite h.endVaultWrite (.ite h.updCmd.vprogram h.updCmd.logEntries))

theorem State.TablesOk.lookBlock (h : s.TablesOk) {acc vol v' lba} : (s.lookBlock acc vol v' lba).2.TablesOk := by
  refine .iteSnd h ?_
  split
  · exact h
  · refine .iteSnd h.updFrame.updCmd (.via (fun h => .iteSnd (.iteSnd h.rebuilt.freeFrame h.rebuilt.supersede) ?_) ?_)
    · split
      · exact h.recoverFrame
      · exact h.dropBlock
    · split
      · exact .ite h.markedExit h
      · exact h

theorem State.TablesOk.attachFills (h : s.TablesOk) {c fs} : (s.attachFills c fs).TablesOk := by
  refine h.over fun _ _ h => .ite h.updTask ?_
  split
  · exact h.updTask.streamsUpd
  · exact h.updTask

theorem State.TablesOk.lookupArray (h : s.TablesOk) {c v'} : (s.lookupArray c v').TablesOk :=
  .via (fun h =>
      .via (fun h => .later (.ite h.noteStream h)) (.ite h.updCmd.attachFills h.updCmd.attachFills.startFill))
    (h.updCmd.foldlSnd fun _ _ h => h.lookBlock)

theorem State.TablesOk.lookupVault (h : s.TablesOk) {c} : (s.lookupVault c).TablesOk := h.updCmd.touchMap.startReads.later

theorem State.TablesOk.lookup (h : s.TablesOk) {acc} : (s.lookup acc).TablesOk := by
  unfold State.lookup
  split
  · exact h
  · refine .ite h ?_
    split
    · exact h
    · exact .ite h.lookupVault (.ite h.lookupArray h)

theorem State.TablesOk.startRead (h : s.TablesOk) {c} : (s.startRead c).TablesOk := h.updCmd.lookup

theorem NextOk.execRead (h : s.TablesOk) {acc} : NextOk (execRead acc s) := .act (.run (h.start fun _ => h.startRead))

theorem NextOk.execVerify (h : s.TablesOk) {acc} : NextOk (execVerify acc s) := .act (.run (h.start fun _ => h.startRead))

theorem NextOk.execWrite (h : s.TablesOk) {acc} : NextOk (execWrite acc s) := .act (.run (h.start fun _ => h.startWrite))

theorem NextOk.execWriteZeroes (h : s.TablesOk) {acc} : NextOk (execWriteZeroes acc s) := .act (.run (h.start fun _ => h.startZeroes))

theorem NextOk.execDeallocate (h : s.TablesOk) {acc} : NextOk (execDeallocate acc s) := .act (.run (h.start fun _ => h.startZeroes))

theorem NextOk.execFlush (h : s.TablesOk) {acc} : NextOk (execFlush acc s) :=
  .act (.run (h.start fun _ => .ite h.updCmd.settleWaits h.updCmd.writeCheck))

theorem NextOk.execGatherFramesAvailable (h : s.TablesOk) : NextOk (execGatherFramesAvailable s) := by
  refine .act (.run ?_)
  split
  · exact .ite h.gather h
  · exact h

theorem NextOk.execWriteCommit (h : s.TablesOk) {acc} : NextOk (execWriteCommit acc s) := by
  refine .act (.run ?_)
  split
  · exact .ite h (.ite h.vaultCommit h.tryCommit)
  · exact h

theorem NextOk.execReadLookup (h : s.TablesOk) {acc} : NextOk (execReadLookup acc s) := .act h.lookup.run

theorem NextOk.execAbort (h : s.TablesOk) {acc} : NextOk (execAbort acc s) := by
  refine .act (.run (h.start fun _ => ?_))
  split
  · exact h.finish
  · exact .ite h.freeAll.finish.finish h.finish

/-! ### Service commands -/

theorem State.TablesOk.startTest (h : s.TablesOk) {c kind} : (s.startTest c kind).TablesOk :=
  h.check (.testStep (.finish (h.updTest.over fun _ _ h => h.askIdentify)))

theorem NextOk.execSelfTestShort (h : s.TablesOk) {acc} : NextOk (execSelfTestShort acc s) := .act (h.start fun _ => h.startTest)

theorem NextOk.execSelfTestExtended (h : s.TablesOk) {acc} : NextOk (execSelfTestExtended acc s) := .act (h.start fun _ => h.startTest)

theorem NextOk.execSelfTestAbort (h : s.TablesOk) {acc} : NextOk (execSelfTestAbort acc s) :=
  .act (h.start fun _ => h.selfTestEnds.finish)

theorem State.TablesOk.unitFails (h : s.TablesOk) {i} : (s.unitFails i).TablesOk :=
  .via (fun h => .selfTestEnds (.ite h.beginMapOut h)) (.ite h.updTest.setTile h.updTest)

theorem NextOk.execSelfTestComplete (h : s.TablesOk) {failed} : NextOk (execSelfTestComplete failed s) := by
  refine .act (.ite h ?_)
  split
  · exact h.unitFails.run
  · exact .ite h.selfTestEnds h

theorem State.TablesOk.stageWrite (h : s.TablesOk) {c} : (s.stageWrite c).TablesOk :=
  .via (fun h => .ite h.updCmd.stageDone h.updCmd.vprogram) (.ite h.setSlot.closeUse.cullBlocks h.setSlot)

theorem NextOk.execFwStage (h : s.TablesOk) {acc} : NextOk (execFwStage acc s) := .act (h.start fun _ => .ite h.finish h.stageWrite)

theorem NextOk.execFwActivate (h : s.TablesOk) {acc} : NextOk (execFwActivate acc s) :=
  .act (h.start fun _ => h.check h.frame.event.finish)

theorem NextOk.execEventRead (h : s.TablesOk) {acc} : NextOk (execEventRead acc s) :=
  .act (h.start fun _ => .ite h (.finish (.ite h h.hostWrite)))

theorem NextOk.execEventClear (h : s.TablesOk) {acc} : NextOk (execEventClear acc s) :=
  .act (h.start fun _ => .ite h (.ite h.clearRecords.finish h.setFn.finish))

theorem NextOk.execHistogramRead (h : s.TablesOk) {acc} : NextOk (execHistogramRead acc s) := .act (h.start fun _ => .ite h h.reply)

theorem State.TablesOk.lifeSnapshot (h : s.TablesOk) : s.lifeSnapshot.TablesOk :=
  State.TablesOk.over (.ite h.frame h.frame.extreme) fun _ _ h => h.extreme

theorem NextOk.execHistogramIntervalEnd (h : s.TablesOk) : NextOk (execHistogramIntervalEnd s) :=
  .vaultAct (.ite h h.frame.lifeSnapshot.saveSeries)

theorem NextOk.execHistogramSample (h : s.TablesOk) {sample} : NextOk (execHistogramSample sample s) :=
  .act (.ite h h.frame.countLife.countLife.countLife.countLife.countLife.countLife.countLife.countLife)

theorem State.TablesOk.blockUnnamed (h : s.TablesOk) : s.blockUnnamed.TablesOk := h.over fun _ _ h => h.addLoss

theorem State.TablesOk.gatherBad (h : s.TablesOk) {f} : (s.gatherBad f).TablesOk := by
  unfold State.gatherBad
  split
  · exact h
  · exact .ite h.transferFailed h.updCmd.pump

theorem State.TablesOk.dirtyBad (h : s.TablesOk) {f x} : (s.dirtyBad f x).TablesOk := by
  refine .ite h ?_
  dsimp only
  split
  · exact h.updFrame.recoverFrame
  · exact h.updFrame.dropBlock

theorem State.TablesOk.frameRebuilt (h : s.TablesOk) {f} : (s.frameRebuilt f).TablesOk := by
  unfold State.frameRebuilt
  split
  · exact h
  · split
    · exact h.supersede
    · exact h.freeFrame
    · exact h.gatherBad
    · exact h.dirtyBad
    · exact h.dirtyBad
    · exact .ite h.dirtyBad h
    · exact h

theorem State.TablesOk.structureRebuilt (h : s.TablesOk) {area index} : (s.structureRebuilt area index).TablesOk := by
  unfold State.structureRebuilt
  dsimp only
  split
  · exact h.frame.frameRebuilt
  · exact .ite h.frame.regionLost h.frame
  · exact h.frame.closeParison
  · split
    · split
      · exact h.frame.frameRebuilt
      · exact h.frame.frameRebuilt
      · exact h.frame.frameRebuilt
      · exact .ite h.frame.freeFrame h.frame
      · exact h.frame
    · exact h.frame
  · exact h.frame

theorem State.TablesOk.foundBy (h : s.TablesOk) {code p1 p2 p3} : (s.foundBy code p1 p2 p3).TablesOk :=
  .ite h
    (.ite h.countFixed
       (.ite (.run (.ite h.countBad.channelWindow h.countBad))
          (.ite h.frame (.ite h.structureRebuilt.run (.ite h.alert (.ite h.blockUnnamed.run h))))))

theorem NextOk.execRecordAccept (h : s.TablesOk) {code src p1 p2 p3} : NextOk (execRecordAccept code src p1 p2 p3 s) :=
  .act (.ite h h.foundBy.record)

theorem NextOk.execRecorderCommit (h : s.TablesOk) : NextOk (execRecorderCommit s) := .vaultAct (.ite h h.frame.vprogram)

theorem NextOk.execOperatingSecondsSave (h : s.TablesOk) : NextOk (execOperatingSecondsSave s) :=
  .vaultAct (.ite h (h.lived (by rfl)).vprogram)

theorem NextOk.execClockSet (h : s.TablesOk) {acc} : NextOk (execClockSet acc s) := .act (h.start fun _ => h.frame.event.finish)

end

end Sys2Proof.Machine
end

section
/-! PROOFS. Canonical tables in the rows of destage, rebuild, registers and sideband. -/

namespace Sys2Proof.Machine

open Sys2Proof

section

variable {s t u v : State}

/-! ### Destage rows -/

theorem NextOk.execStripeInterlockGrant (h : s.TablesOk) {region stripe} : NextOk (execStripeInterlockGrant region stripe s) :=
  .act (.ite h h.grantLock.run)

theorem NextOk.execDestageStart (h : s.TablesOk) : NextOk (execDestageStart s) := .act h.destageNext.run

theorem NextOk.execDestageAgeLimit (h : s.TablesOk) {region stripe} : NextOk (execDestageAgeLimit region stripe s) :=
  .act (.ite h h.frame.run)

theorem State.TablesOk.tryRoom (h : s.TablesOk) {id} : (s.tryRoom id).TablesOk := by
  unfold State.tryRoom
  split
  · exact h
  · split
    · exact .ite h.toFull h.beginDestage
    · exact h.startRedestage
    · exact h.beginRepair

theorem NextOk.execDestageEntryFreed (h : s.TablesOk) : NextOk (execDestageEntryFreed s) :=
  .act (.ite h (.run (h.over fun _ _ h => h.tryRoom)))

theorem NextOk.execStagingRunFreed (h : s.TablesOk) : NextOk (execStagingRunFreed s) :=
  .act (.ite h (.run (h.over fun _ _ h => h.tryRoom)))

theorem NextOk.execCommitStall (h : s.TablesOk) : NextOk (execCommitStall s) := by
  refine .act ?_
  split
  · exact h
  · exact .ite h h.frame.event

theorem NextOk.execReclaimSweep (h : s.TablesOk) : NextOk (execReclaimSweep s) :=
  .act (.ite h (.via (fun h => .run (.ite h.sweepList.frame h.sweepList)) (h.frame.over fun _ _ h => h.cancelUnits)))

theorem NextOk.execLrRecompute (h : s.TablesOk) : NextOk (execLrRecompute s) := .act (.ite h h.frame.energyNote.permissionCheck.run)

theorem NextOk.execPermissionReturnFull (h : s.TablesOk) : NextOk (execPermissionReturnFull s) := .act (.ite h h.permissionFull.run)

theorem NextOk.execRetireFlush (h : s.TablesOk) : NextOk (execRetireFlush s) := .vaultAct (.ite h h.retireNow)

theorem NextOk.execJournalSpaceFreed (h : s.TablesOk) : NextOk (execJournalSpaceFreed s) :=
  .vaultAct (.ite h (.ite h.retireNow.journalRetry h.journalRetry))

theorem NextOk.execJournalFull (h : s.TablesOk) : NextOk (execJournalFull s) := .act (.ite h h.frame.event)

theorem State.TablesOk.tileFailures (h : s.TablesOk) {t' before} : (s.tileFailures t' before).TablesOk :=
  .ite h (.ite h.setTile.beginMapOut h.setTile)

theorem State.TablesOk.mismatchEvent (h : s.TablesOk) {tile x o} : (s.mismatchEvent tile x o).TablesOk := by
  unfold State.mismatchEvent
  dsimp only
  split
  · exact .ite h h.event
  · exact .ite h h.event
  · exact h

theorem State.TablesOk.jobDone (h : s.TablesOk) {tile j words} : (s.jobDone tile j words).TablesOk := by
  unfold State.jobDone
  split
  · exact h.absorbed
  · split
    · exact h
    · refine .ite h ?_
      dsimp only
      split
      · exact h.tasksPut.opDone.mismatchEvent.tileFailures
      · exact h.tasksPut.opDone.mismatchEvent
  · exact h

theorem State.TablesOk.badInput (h : s.TablesOk) {tile again frame} : (s.badInput tile again frame).TablesOk := by
  unfold State.badInput
  split
  · exact .ite h h.wordBad
  · exact .ite h h.updFrame.channelWord

theorem State.TablesOk.jobBad (h : s.TablesOk) {tile j input seg} : (s.jobBad tile j input seg).TablesOk := by
  unfold State.jobBad
  dsimp only
  split
  · exact h.event.badInput.absorbFailed
  · exact h.event.badInput.unitFails
  · split
    · exact .ite h.event.badInput.jobFailed h.event.badInput
    · exact h.event.badInput
  · exact h.event.badInput

theorem State.TablesOk.wroteBack (h : s.TablesOk) {j w} : (s.wroteBack j w).TablesOk := by
  unfold State.wroteBack
  split
  · exact h.updFrame
  · exact h

theorem State.TablesOk.jobReply (h : s.TablesOk) {tile j words} : (s.jobReply tile j words).TablesOk := by
  unfold State.jobReply
  extract_lets words marked early seen before_ s₁ s₂
  have h₁ : s₁.TablesOk := h.over fun _ _ h => h.wordFixed.event.wroteBack
  have h₂ : s₂.TablesOk := by
    unfold s₂
    clear_value marked
    split
    · split
      · exact h₁.jobBad
      · exact h₁.jobDone
    · exact h₁.jobBad
  exact h₂.unpin

theorem NextOk.execTileJobComplete (h : s.TablesOk) {tile words} : NextOk (execTileJobComplete tile words s) := by
  refine .vaultAct ?_
  split
  · exact h
  · exact .ite h (h.setTile.replyTo fun _ h => h.jobReply)

theorem State.TablesOk.resend (h : s.TablesOk) {j} : (s.resend j).TablesOk := by
  unfold State.resend
  split
  · split
    · exact h.unpin
    · exact h.takeHome.sendJob
  · exact h.sendJob

theorem NextOk.execTileQueuePlaceFreed (h : s.TablesOk) : NextOk (execTileQueuePlaceFreed s) :=
  .act (.ite h (.run (h.frame.over fun _ _ h => h.resend)))

theorem NextOk.execStreamIdle (h : s.TablesOk) {stream} : NextOk (execStreamIdle stream s) := by
  refine .act ?_
  split
  · exact h
  · exact .ite h h.cancelUnits.streamsUpd.run

theorem NextOk.execRunaheadFramesAvailable (h : s.TablesOk) : NextOk (execRunaheadFramesAvailable s) :=
  .act (.ite h (.run (h.over fun _ _ h => h.feedStream)))

/-! ### Rebuild, move and scrub rows -/

theorem State.TablesOk.takePlace (h : s.TablesOk) {r} : (s.takePlace r).TablesOk := h.updWork

theorem State.TablesOk.beginLost (h : s.TablesOk) {r} : (s.beginLost r).TablesOk := by
  refine .ite (.ite h.startReplace.takePlace h.startReplace) ?_
  split
  · exact h.event.noteWait
  · exact h.updRegion.updWork.takePlace

theorem State.TablesOk.resumeRebuild (h : s.TablesOk) {r} : (s.resumeRebuild r).TablesOk :=
  .via (fun h => .ite h h.takePlace) (.ite (.ite h.updWork.replaceAgain h.updWork) (.ite h.updWork h.updWork.furtherLoss))

theorem State.TablesOk.beginRebuild (h : s.TablesOk) {r} : (s.beginRebuild r).TablesOk := .ite h.resumeRebuild h.beginLost

theorem NextOk.execRebuildRegionStart (h : s.TablesOk) : NextOk (execRebuildRegionStart s) := by
  refine .act (.ite h ?_)
  split
  · exact h
  · refine .ite h.beginRebuild.run (.ite h ?_)
    split
    · exact h
    · exact h.updWork.beginRebuild.run

theorem State.TablesOk.issueStripe (h : s.TablesOk) {r k} : (s.issueStripe r k).TablesOk := h.charge.newTask

theorem NextOk.execRebuildStripeStart (h : s.TablesOk) {region} : NextOk (execRebuildStripeStart region s) := by
  refine .act (.ite h ?_)
  split
  · exact h
  · exact h.issueStripe.run

theorem NextOk.execRebuildRetryTimer (h : s.TablesOk) {region} : NextOk (execRebuildRetryTimer region s) := .act (.ite h h.updWork)

theorem NextOk.execRebuildStarved (h : s.TablesOk) {pool} : NextOk (execRebuildStarved pool s) := by
  refine .act ?_
  split
  · exact h
  · split
    · exact h
    · exact .ite h h.poolsPut.event

theorem State.TablesOk.beginMove (h : s.TablesOk) {r mv} : (s.beginMove r mv).TablesOk := by
  unfold State.beginMove
  exact h.updRegion.updWork

theorem State.TablesOk.startMove (h : s.TablesOk) {r} : (s.startMove r).TablesOk := by
  unfold State.startMove
  dsimp only
  split
  · exact h.beginMove
  · split
    · exact h
    · refine .ite h.startReplace ?_
      split
      · exact h.event.noteWait
      · exact h.beginMove

theorem NextOk.execMoveStart (h : s.TablesOk) : NextOk (execMoveStart s) := by
  refine .act (.ite h ?_)
  split
  · exact h
  · exact .ite h.replaceAgain.run (.ite h h.startMove.run)

theorem NextOk.execScrubPassStart (h : s.TablesOk) {pool} : NextOk (execScrubPassStart pool s) := by
  refine .act ?_
  split
  · exact h
  · exact .ite h h.poolsPut

theorem NextOk.execScrubPeriodEnd (h : s.TablesOk) {pool} : NextOk (execScrubPeriodEnd pool s) := by
  refine .act ?_
  split
  · exact h
  · split
    · exact h
    · exact .ite h h.poolsPut.event

theorem State.TablesOk.scrubTask (h : s.TablesOk) {r k report check' paid} : (s.scrubTask r k report check' paid).TablesOk :=
  .newTask (.ite h.charge h)

theorem State.TablesOk.checkStripe (h : s.TablesOk) {r paid} : (s.checkStripe r paid).TablesOk := h.updWork.scrubTask

theorem State.TablesOk.passStep (h : s.TablesOk) {pool p r k} : (s.passStep pool p r k).TablesOk := by
  unfold State.passStep
  dsimp only
  split
  · exact .ite h h.poolsPut.scrubTask
  · exact .ite h h.poolsPut

theorem NextOk.execScrubStripe (h : s.TablesOk) {pool} : NextOk (execScrubStripe pool s) := by
  refine .act ?_
  split
  · exact h
  · refine .ite h (.ite ?_ (.ite h ?_))
    · split
      · exact h.checkStripe.run
      · exact h
    · split
      · exact h.checkStripe.run
      · split
        · exact .ite h.checkStripe.run h
        · split
          · exact h.passStep.run
          · exact h

/-! ### Registers -/

theorem State.TablesOk.writeControl (h : s.TablesOk) {f v'} : (s.writeControl f v').TablesOk := h.setFn.causeDue

theorem State.TablesOk.writeGlobal (h : s.TablesOk) {f offset v'} : (s.writeGlobal f offset v').TablesOk := by
  unfold State.writeGlobal
  split
  · exact h.writeControl
  · exact .ite h.setFn h
  · exact h.writeCause
  · exact h.writeMask
  · exact h

theorem State.TablesOk.writeFunction (h : s.TablesOk) {f offset v'} : (s.writeFunction f offset v').TablesOk := by
  refine .ite (.via (fun h => .ite h.adminEnable h) (.ite h.setFn h)) (.ite h ?_)
  split
  · exact h.setFn
  · exact h.setFn
  · exact h.setFn
  · exact h.setFn
  · exact h.setFn
  · exact h

theorem State.TablesOk.setLive (h : s.TablesOk) {l} : (s.setLive l).TablesOk := h.frame

theorem State.TablesOk.writeGovernor (h : s.TablesOk) {offset v'} : (s.writeGovernor offset v').TablesOk := by
  unfold State.writeGovernor
  dsimp only
  split
  · exact h.setLive
  · exact h.setLive
  · exact h.setLive
  · exact h.setLive
  · exact h.setLive
  · exact h.setLive
  · exact h.setLive
  · exact h.setLive
  · exact h.frame
  · exact h.setLive
  · exact h.setLive
  · exact h

theorem State.TablesOk.setLoop (h : s.TablesOk) {j f} : (s.setLoop j f).TablesOk := h.setLive

theorem State.TablesOk.writeLoop (h : s.TablesOk) {j offset v'} : (s.writeLoop j offset v').TablesOk := by
  unfold State.writeLoop
  split
  · exact h.setLoop
  · exact h.setLoop
  · exact h.setLoop
  · exact h.setLoop
  · exact h.setLoop
  · exact h.frame
  · exact h

theorem State.TablesOk.writePack (h : s.TablesOk) {offset v'} : (s.writePack offset v').TablesOk := .ite h.updPack h

theorem State.TablesOk.writeDoorbell (h : s.TablesOk) {f offset v'} : (s.writeDoorbell f offset v').TablesOk := by
  unfold State.writeDoorbell
  dsimp only
  split
  · exact h.tailValue.ltrTouch
  · exact h.headValue.ltrTouch
  · exact h

theorem State.TablesOk.writeWord (h : s.TablesOk) {f bar offset v'} : (s.writeWord f bar offset v').TablesOk := by
  unfold State.writeWord
  split
  · exact h
  · exact h.writeGlobal
  · exact h.writeFunction
  · exact h.writeDoorbell
  · exact h.writeGovernor
  · exact h.writeLoop
  · exact h.writePack
  · exact h.writeMsix
  · exact h
  · exact h

theorem State.TablesOk.barWrite (h : s.TablesOk) {f bar offset len v' poisoned} : (s.barWrite f bar offset len v' poisoned).TablesOk :=
  .ite h (.ite (h.mmio h) (.ite h.aer.fnEvent (.ite h (.ite h.badAccess (.ite h.writeWord.writeWord h.writeWord)))))

theorem State.TablesOk.pfSet (h : s.TablesOk) {f g} : (s.pfSet f g).TablesOk := .ite h.setEp h

theorem State.TablesOk.writeLtr (h : s.TablesOk) {f on} : (s.writeLtr f on).TablesOk := .ite h.pfSet.sendLtr h.pfSet

theorem State.TablesOk.writeBar (h : s.TablesOk) {f d v'} : (s.writeBar f d v').TablesOk := by
  refine .ite h ?_
  split
  · exact h.setFn
  · exact h.setFn
  · exact h.setFn
  · exact h.setFn
  · exact .ite h h.pfSet
  · exact .ite h h.pfSet
  · exact .ite h h.pfSet
  · exact .ite h h.pfSet

theorem State.TablesOk.configWrite (h : s.TablesOk) {f field v'} : (s.configWrite f field v').TablesOk := by
  refine .ite h ?_
  split
  · exact h.writeBar
  · exact h.pfSet
  · exact h.pfSet
  · exact h.pfSet
  · exact h.setFn
  · exact h.setFn
  · exact h.setFn
  · exact h.setFn
  · exact h.setFn
  · exact h.setFn.flushPba
  · exact h.setFn.flushPba
  · exact h.writeLtr
  · exact h.pfSet
  · exact h.pfSet
  · exact h.setFn
  · exact h.setFn
  · exact h.setFn
  · exact h.setFn
  · exact h.setFn
  · exact h.setFn
  · exact h.setFn
  · exact h.setFn
  · exact h.setFn
  · exact h.setFn
  · exact h.setFn

/-! ### Sideband -/

theorem State.TablesOk.updSb (h : s.TablesOk) {g} : (s.updSb g).TablesOk := h.frame

theorem State.TablesOk.sbReadClears (h : s.TablesOk) {offset n} : (s.sbReadClears offset n).TablesOk := .ite h.frame h

theorem State.TablesOk.alertSettles (h : s.TablesOk) : s.alertSettles.TablesOk := .ite h.endAlert h

theorem State.TablesOk.raiseIbi (h : s.TablesOk) : s.raiseIbi.TablesOk := .ite h.updSb.emit h

theorem State.TablesOk.alertPending (h : s.TablesOk) : s.alertPending.TablesOk := .raiseIbi (.ite h h.updSb.emit)

theorem State.TablesOk.sbStatusWrite (h : s.TablesOk) {v'} : (s.sbStatusWrite v').TablesOk := h.updSb.alertSettles

theorem State.TablesOk.sbEnableWrite (h : s.TablesOk) {v'} : (s.sbEnableWrite v').TablesOk :=
  .ite h.updSb.alertPending h.updSb.alertSettles

theorem State.TablesOk.sbCommand (h : s.TablesOk) {n} : (s.sbCommand n).TablesOk := .ite h.updSb.event h.updSb

theorem State.TablesOk.sbWrite (h : s.TablesOk) {offset v'} : (s.sbWrite offset v').TablesOk := by
  unfold State.sbWrite
  split
  · exact h.sbStatusWrite
  · exact h.sbEnableWrite
  · exact h.sbCommand
  · exact .ite h.updSb h
  · exact .ite h.updSb h

theorem State.TablesOk.sbWrites (h : s.TablesOk) {offset data} : (s.sbWrites offset data).TablesOk := h.over fun _ _ h => h.sbWrite

theorem State.TablesOk.sbSmbus (h : s.TablesOk) {offset count data pec} : (s.sbSmbus offset count data pec).TablesOk :=
  .ite h (.ite h.updSb.event (.ite h h.sbWrites))

theorem State.TablesOk.sbI3c (h : s.TablesOk) {offset data} : (s.sbI3c offset data).TablesOk := .ite h h.updSb.sbWrites

theorem State.TablesOk.sbBlockRead (h : s.TablesOk) {offset pec} : (s.sbBlockRead offset pec).TablesOk := .ite h h.emit.sbReadClears

theorem State.TablesOk.sbPrivateRead (h : s.TablesOk) {count} : (s.sbPrivateRead count).TablesOk := .ite h h.emit.sbReadClears.updSb

theorem NextOk.execRegisterWrite (h : s.TablesOk) {target} : NextOk (execRegisterWrite target s) := by
  refine .act ?_
  split
  · exact h.barWrite.run
  · exact h.configWrite.run
  · exact .ite h.sbSmbus h
  · exact .ite h.sbI3c h
  · exact .ite h.sbBlockRead h
  · exact .ite h.sbPrivateRead h

theorem State.TablesOk.mailbox (h : s.TablesOk) {n} : (s.mailbox n).TablesOk := .ite h.sbCommand h

theorem NextOk.execGetIdentity (h : s.TablesOk) : NextOk (execGetIdentity s) := .act h.mailbox

theorem NextOk.execGetHealth (h : s.TablesOk) : NextOk (execGetHealth s) := .act h.mailbox

theorem NextOk.execReadLog (h : s.TablesOk) : NextOk (execReadLog s) := .act h.mailbox

theorem NextOk.execReadEvent (h : s.TablesOk) : NextOk (execReadEvent s) := .act h.mailbox

theorem NextOk.execClearEvents (h : s.TablesOk) : NextOk (execClearEvents s) := .act h.mailbox

theorem NextOk.execReadHistogram (h : s.TablesOk) : NextOk (execReadHistogram s) := .act h.mailbox

theorem NextOk.execReadPack (h : s.TablesOk) : NextOk (execReadPack s) := .act h.mailbox

theorem NextOk.execMailboxComplete (h : s.TablesOk) : NextOk (execMailboxComplete s) :=
  .act (.ite h (.alert (.updSb (.ite h.clearRecords h))))

theorem NextOk.execAlertStatusClear (h : s.TablesOk) {value} : NextOk (execAlertStatusClear value s) := .act (.ite h.sbStatusWrite h)

theorem NextOk.execAlertEnableWrite (h : s.TablesOk) {value} : NextOk (execAlertEnableWrite value s) := .act (.ite h.sbEnableWrite h)

theorem NextOk.execPecErrorsRead (h : s.TablesOk) : NextOk (execPecErrorsRead s) := .act (.ite h.updSb.emit h)

theorem NextOk.execAlertResponse (h : s.TablesOk) : NextOk (execAlertResponse s) := .act (.ite h.emit.endAlert h)

theorem NextOk.execIbiRetry (h : s.TablesOk) {acked} : NextOk (execIbiRetry acked s) :=
  .act (.ite h (.ite h.endAlert (.ite h h.raiseIbi)))

theorem State.TablesOk.sbMode (h : s.TablesOk) {i3c address} : (s.sbMode i3c address).TablesOk := h.updSb.event

theorem State.TablesOk.sbAssign (h : s.TablesOk) {address} : (s.sbAssign address).TablesOk := .ite h.sbMode h

theorem NextOk.execEntdaa (h : s.TablesOk) {dynamicAddr} : NextOk (execEntdaa dynamicAddr s) := .act h.sbAssign

theorem NextOk.execSetdasa (h : s.TablesOk) {dynamicAddr} : NextOk (execSetdasa dynamicAddr s) := .act h.sbAssign

theorem NextOk.execRstdaa (h : s.TablesOk) : NextOk (execRstdaa s) := .act (.ite h.sbMode h)

theorem NextOk.execEnec (h : s.TablesOk) : NextOk (execEnec s) := .act (.ite h.updSb.raiseIbi h)

theorem NextOk.execDisec (h : s.TablesOk) : NextOk (execDisec s) := .act (.ite h.updSb h)

theorem State.TablesOk.sbAnswer (h : s.TablesOk) {data} : (s.sbAnswer data).TablesOk := .ite h.emit h

theorem NextOk.execGetpid (h : s.TablesOk) : NextOk (execGetpid s) := .act h.sbAnswer

theorem NextOk.execGetbcr (h : s.TablesOk) : NextOk (execGetbcr s) := .act h.sbAnswer

theorem NextOk.execGetdcr (h : s.TablesOk) : NextOk (execGetdcr s) := .act h.sbAnswer

theorem NextOk.execGetstatus (h : s.TablesOk) : NextOk (execGetstatus s) := .act h.sbAnswer

theorem NextOk.execGetmwl (h : s.TablesOk) : NextOk (execGetmwl s) := .act h.sbAnswer

theorem NextOk.execGetmrl (h : s.TablesOk) : NextOk (execGetmrl s) := .act h.sbAnswer

end

end Sys2Proof.Machine
end

section
/-! PROOFS. Canonical tables at every step, and the statement O7. -/

namespace Sys2Proof.Machine

open Sys2Proof

section

variable {s t u v : State}

theorem NextOk.exec (h : s.TablesOk) (i : Instr) : NextOk (exec i s) := by
  cases i with
  | read => exact .execRead h
  | write => exact .execWrite h
  | flush => exact .execFlush h
  | writeZeroes => exact .execWriteZeroes h
  | deallocate => exact .execDeallocate h
  | verify => exact .execVerify h
  | identifyModule => exact .execIdentifyModule h
  | identifyVolumes => exact .execIdentifyVolumes h
  | identifyTemplate => exact .execIdentifyTemplate h
  | ringCreateSubmission => exact .execRingCreateSubmission h
  | ringCreateCompletion => exact .execRingCreateCompletion h
  | getLog => exact .execGetLog h
  | getFeature => exact .execGetFeature h
  | setFeatureAckMode => exact .execSetFeatureAckMode h
  | setFeatureAgeLimit => exact .execSetFeatureAgeLimit h
  | setFeatureLossAck => exact .execSetFeatureLossAck h
  | setFeatureDirtyLimit => exact .execSetFeatureDirtyLimit h
  | setFeatureHedge => exact .execSetFeatureHedge h
  | setFeatureHardTimeout => exact .execSetFeatureHardTimeout h
  | setFeatureMediaThreshold => exact .execSetFeatureMediaThreshold h
  | setFeatureScrubPeriod => exact .execSetFeatureScrubPeriod h
  | setFeaturePatrolPeriod => exact .execSetFeaturePatrolPeriod h
  | setFeatureRefreshThreshold => exact .execSetFeatureRefreshThreshold h
  | setFeatureTagBudget => exact .execSetFeatureTagBudget h
  | setFeatureClassWeights => exact .execSetFeatureClassWeights h
  | setFeatureMaxClass => exact .execSetFeatureMaxClass h
  | setFeatureRateLimit => exact .execSetFeatureRateLimit h
  | setFeatureStallTimeout => exact .execSetFeatureStallTimeout h
  | setFeatureExportWait => exact .execSetFeatureExportWait h
  | setFeatureTimeBase => exact .execSetFeatureTimeBase h
  | abort => exact .execAbort h
  | templateDefine => exact .execTemplateDefine h
  | templateDelete => exact .execTemplateDelete h
  | poolCreate => exact .execPoolCreate h
  | poolDelete => exact .execPoolDelete h
  | poolExpand => exact .execPoolExpand h
  | poolExpandSpare => exact .execPoolExpandSpare h
  | volumeCreateArray => exact .execVolumeCreateArray h
  | volumeCreateVault => exact .execVolumeCreateVault h
  | volumeDelete => exact .execVolumeDelete h
  | volumeAttach => exact .execVolumeAttach h
  | volumeDetach => exact .execVolumeDetach h
  | memberFail => exact .execMemberFail h
  | memberReplaceCopyback => exact .execMemberReplaceCopyback h
  | memberReplaceJoin => exact .execMemberReplaceJoin h
  | rebuildPause => exact .execRebuildPause h
  | rebuildResume => exact .execRebuildResume h
  | rebuildPromote => exact .execRebuildPromote h
  | rebuildRetry => exact .execRebuildRetry h
  | consistencyCheck => exact .execConsistencyCheck h
  | deviceStop => exact .execDeviceStop h
  | deviceStart => exact .execDeviceStart h
  | configStageGovernor => exact .execConfigStageGovernor h
  | configStagePack => exact .execConfigStagePack h
  | configDiscard => exact .execConfigDiscard h
  | selfTestShort => exact .execSelfTestShort h
  | selfTestExtended => exact .execSelfTestExtended h
  | selfTestAbort => exact .execSelfTestAbort h
  | selfTestComplete => exact .execSelfTestComplete h
  | fwStage => exact .execFwStage h
  | fwActivate => exact .execFwActivate h
  | eventRead => exact .execEventRead h
  | eventClear => exact .execEventClear h
  | histogramRead => exact .execHistogramRead h
  | packReplaced => exact .execPackReplaced h
  | packLearn => exact .execPackLearn h
  | packLearnAbort => exact .execPackLearnAbort h
  | shipModeArm => exact .execShipModeArm h
  | shipModeCancel => exact .execShipModeCancel h
  | arrayImport => exact .execArrayImport h
  | pairBind => exact .execPairBind h
  | pairUnbind => exact .execPairUnbind h
  | pairDiscardDump => exact .execPairDiscardDump h
  | slotPowerOn => exact .execSlotPowerOn h
  | slotPowerOff => exact .execSlotPowerOff h
  | slotLocateOn => exact .execSlotLocateOn h
  | slotLocateOff => exact .execSlotLocateOff h
  | slotAutomaticPower => exact .execSlotAutomaticPower h
  | slotButtonPolicy => exact .execSlotButtonPolicy h
  | clockSet => exact .execClockSet h
  | sqTail => exact .execSqTail h
  | cqHead => exact .execCqHead h
  | shadowPoll => exact .execShadowPoll h
  | adminEn => exact .execAdminEn h
  | causeWrite => exact .execCauseWrite h
  | causeMaskWrite => exact .execCauseMaskWrite h
  | intEnWrite => exact .execIntEnWrite h
  | force => exact .execForce h
  | suppressedTotalRead => exact .execSuppressedTotalRead h
  | overrunsRead => exact .execOverrunsRead h
  | msixEntryWrite => exact .execMsixEntryWrite h
  | registerWrite => exact .execRegisterWrite h
  | ringGrant => exact .execRingGrant h
  | hostCompletion => exact .execHostCompletion h
  | completionTimeout => exact .execCompletionTimeout h
  | tagHoldExpiry => exact .execTagHoldExpiry h
  | coalescingTime => exact .execCoalescingTime h
  | cqStall => exact .execCqStall h
  | stashPoolEmpty => exact .execStashPoolEmpty h
  | ltrIdle => exact .execLtrIdle h
  | hostLinkUp => exact .execHostLinkUp h
  | hostLinkDown => exact .execHostLinkDown h
  | hotReset => exact .execHotReset h
  | flr => exact .execFlr h
  | vfEnableCleared => exact .execVfEnableCleared h
  | busMasterEnableCleared => exact .execBusMasterEnableCleared h
  | busMasterEnableSet => exact .execBusMasterEnableSet h
  | d3hotEntry => exact .execD3hotEntry h
  | d0Return => exact .execD0Return h
  | perstNAssert => exact .execPerstNAssert h
  | perstNDeassert => exact .execPerstNDeassert h
  | gatherFramesAvailable => exact .execGatherFramesAvailable h
  | writeCommit => exact .execWriteCommit h
  | readLookup => exact .execReadLookup h
  | stripeInterlockGrant => exact .execStripeInterlockGrant h
  | destageStart => exact .execDestageStart h
  | destageAgeLimit => exact .execDestageAgeLimit h
  | destageEntryFreed => exact .execDestageEntryFreed h
  | stagingRunFreed => exact .execStagingRunFreed h
  | commitStall => exact .execCommitStall h
  | reclaimSweep => exact .execReclaimSweep h
  | lrRecompute => exact .execLrRecompute h
  | permissionReturnFull => exact .execPermissionReturnFull h
  | retireFlush => exact .execRetireFlush h
  | journalSpaceFreed => exact .execJournalSpaceFreed h
  | journalFull => exact .execJournalFull h
  | tileJobComplete => exact .execTileJobComplete h
  | tileQueuePlaceFreed => exact .execTileQueuePlaceFreed h
  | driveCompletion => exact .execDriveCompletion h
  | hedgeDelay => exact .execHedgeDelay h
  | hedgeHoldTimeout => exact .execHedgeHoldTimeout h
  | hedgeIntervalEnd => exact .execHedgeIntervalEnd h
  | hedgeThresholdUpdate => exact .execHedgeThresholdUpdate h
  | streamIdle => exact .execStreamIdle h
  | runaheadFramesAvailable => exact .execRunaheadFramesAvailable h
  | driveLinkUp => exact .execDriveLinkUp h
  | driveLinkDown => exact .execDriveLinkDown h
  | linkDownHoldExpiry => exact .execLinkDownHoldExpiry h
  | portNoLink => exact .execPortNoLink h
  | drivePerstDeassert => exact .execDrivePerstDeassert h
  | smartPoll => exact .execSmartPoll h
  | asynchronousEvent => exact .execAsynchronousEvent h
  | softTimeout => exact .execSoftTimeout h
  | hardTimeout => exact .execHardTimeout h
  | quarantineTimeout => exact .execQuarantineTimeout h
  | adminCommandTimeout => exact .execAdminCommandTimeout h
  | controllerDisabled => exact .execControllerDisabled h
  | controllerResetTimeout => exact .execControllerResetTimeout h
  | controllerFatalStatus => exact .execControllerFatalStatus h
  | slotScan => exact .execSlotScan h
  | slotPresenceChange => exact .execSlotPresenceChange h
  | slotButtonPress => exact .execSlotButtonPress h
  | buttonWindowEnd => exact .execButtonWindowEnd h
  | slotPowerFault => exact .execSlotPowerFault h
  | slotPowerGood => exact .execSlotPowerGood h
  | slotPowerOffDelay => exact .execSlotPowerOffDelay h
  | rebuildRegionStart => exact .execRebuildRegionStart h
  | rebuildStripeStart => exact .execRebuildStripeStart h
  | rebuildRetryTimer => exact .execRebuildRetryTimer h
  | rebuildStarved => exact .execRebuildStarved h
  | moveStart => exact .execMoveStart h
  | scrubPassStart => exact .execScrubPassStart h
  | scrubPeriodEnd => exact .execScrubPeriodEnd h
  | scrubStripe => exact .execScrubStripe h
  | govSampleInstant => exact .execGovSampleInstant h
  | govComputationDone => exact .execGovComputationDone h
  | pwmInputLost => exact .execPwmInputLost h
  | pwmSteadyHigh => exact .execPwmSteadyHigh h
  | pwmInputRestored => exact .execPwmInputRestored h
  | vaultProgramComplete => exact .execVaultProgramComplete h
  | vaultReadComplete => exact .execVaultReadComplete h
  | vaultEraseComplete => exact .execVaultEraseComplete h
  | vaultCheckpoint => exact .execVaultCheckpoint h
  | wearMoveCheck => exact .execWearMoveCheck h
  | garbageCollectionStart => exact .execGarbageCollectionStart h
  | vaultBlockOpenable => exact .execVaultBlockOpenable h
  | patrolPassStart => exact .execPatrolPassStart h
  | patrolPeriodEnd => exact .execPatrolPeriodEnd h
  | vaultRequestTimeout => exact .execVaultRequestTimeout h
  | percentUsedRecompute => exact .execPercentUsedRecompute h
  | vaultOperationTimeout => exact .execVaultOperationTimeout h
  | statusFrame => exact .execStatusFrame h
  | statusFrameTimeout => exact .execStatusFrameTimeout h
  | packEnergyAvailable => exact .execPackEnergyAvailable h
  | powerFailDetect => exact .execPowerFailDetect h
  | powerFailStrobe => exact .execPowerFailStrobe h
  | dumpCommandFrame => exact .execDumpCommandFrame h
  | lehrSealed => exact .execLehrSealed h
  | lehrTimeout => exact .execLehrTimeout h
  | puntyRelease => exact .execPuntyRelease h
  | vinOvervoltage => exact .execVinOvervoltage h
  | vinReturnInRange => exact .execVinReturnInRange h
  | vinBelowHoldup => exact .execVinBelowHoldup h
  | vinAboveHoldup => exact .execVinAboveHoldup h
  | holdupUvlo => exact .execHoldupUvlo h
  | holdupUvloRecover => exact .execHoldupUvloRecover h
  | packPresenceChange => exact .execPackPresenceChange h
  | identifyComplete => exact .execIdentifyComplete h
  | chargePhaseChange => exact .execChargePhaseChange h
  | chargeTermination => exact .execChargeTermination h
  | rechargeNeeded => exact .execRechargeNeeded h
  | chargeEnd => exact .execChargeEnd h
  | chargeHoldRelease => exact .execChargeHoldRelease h
  | learnDischargeDone => exact .execLearnDischargeDone h
  | learnRestTimeout => exact .execLearnRestTimeout h
  | eavailCompute => exact .execEavailCompute h
  | restPoint => exact .execRestPoint h
  | learnOverdue => exact .execLearnOverdue h
  | gaugeStorePeriodic => exact .execGaugeStorePeriodic h
  | shipCleanReport => exact .execShipCleanReport h
  | shipReconnect => exact .execShipReconnect h
  | powerDieStart => exact .execPowerDieStart h
  | packSample => exact .execPackSample h
  | logicDieResetExit => exact .execLogicDieResetExit h
  | startupReady => exact .execStartupReady h
  | pairHeartbeat => exact .execPairHeartbeat h
  | partnerLost => exact .execPartnerLost h
  | arbHbToggle => exact .execArbHbToggle h
  | fatalCondition => exact .execFatalCondition h
  | watchdogExpiry => exact .execWatchdogExpiry h
  | arbFenceAssert => exact .execArbFenceAssert h
  | arbFenceRelease => exact .execArbFenceRelease h
  | arbTakeAssert => exact .execArbTakeAssert h
  | fenceDrainTimeout => exact .execFenceDrainTimeout h
  | exportRequest => exact .execExportRequest h
  | release => exact .execRelease h
  | exportWait => exact .execExportWait h
  | driveSettle => exact .execDriveSettle h
  | changeLogFlush => exact .execChangeLogFlush h
  | metadataCheckpoint => exact .execMetadataCheckpoint h
  | bitmapRewrite => exact .execBitmapRewrite h
  | unitDown => exact .execUnitDown h
  | unitUp => exact .execUnitUp h
  | routerTimeout => exact .execRouterTimeout h
  | droopStretch50 => exact .execDroopStretch50 h
  | droopStretch25 => exact .execDroopStretch25 h
  | droopRecover => exact .execDroopRecover h
  | supplyFault => exact .execSupplyFault h
  | refclkLost => exact .execRefclkLost h
  | thermalWarn => exact .execThermalWarn h
  | thermalTrip => exact .execThermalTrip h
  | recordAccept => exact .execRecordAccept h
  | recorderCommit => exact .execRecorderCommit h
  | operatingSecondsSave => exact .execOperatingSecondsSave h
  | histogramIntervalEnd => exact .execHistogramIntervalEnd h
  | getIdentity => exact .execGetIdentity h
  | getHealth => exact .execGetHealth h
  | readLog => exact .execReadLog h
  | readEvent => exact .execReadEvent h
  | clearEvents => exact .execClearEvents h
  | readHistogram => exact .execReadHistogram h
  | readPack => exact .execReadPack h
  | mailboxComplete => exact .execMailboxComplete h
  | alertStatusClear => exact .execAlertStatusClear h
  | alertEnableWrite => exact .execAlertEnableWrite h
  | pecErrorsRead => exact .execPecErrorsRead h
  | alertResponse => exact .execAlertResponse h
  | ibiRetry => exact .execIbiRetry h
  | entdaa => exact .execEntdaa h
  | setdasa => exact .execSetdasa h
  | rstdaa => exact .execRstdaa h
  | enec => exact .execEnec h
  | disec => exact .execDisec h
  | getpid => exact .execGetpid h
  | getbcr => exact .execGetbcr h
  | getdcr => exact .execGetdcr h
  | getstatus => exact .execGetstatus h
  | getmwl => exact .execGetmwl h
  | getmrl => exact .execGetmrl h
  | pairHeartbeatSend => exact .execPairHeartbeatSend h
  | dumpImport => exact .execDumpImport h
  | pairingLinkFailure => exact .execPairingLinkFailure h
  | hbmParityError => exact .execHbmParityError h
  | hostLinkError => exact .execHostLinkError h
  | badRegisterRead => exact .execBadRegisterRead h
  | buttonRefusalEnd => exact .execButtonRefusalEnd h
  | vinMainPowerUp => exact .execVinMainPowerUp h
  | chargeCountSample => exact .execChargeCountSample h
  | histogramSample => exact .execHistogramSample h
  | thermalWarnEnd => exact .execThermalWarnEnd h

theorem State.TablesOk.tick (h : s.TablesOk) : s.tick.TablesOk := h.frame

theorem NextOk.step (h : s.TablesOk) : NextOk (step s) := by
  unfold Sys2Proof.Machine.step
  split
  · exact .next h.tick
  · exact .exec h.frame _

end

/-- Settles O7: every operation of the model keeps the tables it is given canonical, and every row is put together from these operations. -/
theorem tablesStayCanonical : Obligations.TablesStayCanonical := by
  intro s t hs ht
  rw [State.tablesOk_iff] at hs ⊢
  exact NextOk.step hs t ht

end Sys2Proof.Machine
end

section
/-! PROOFS. The I/O commands that may start (R151, R160, R231, R610, R612), and the statement O10 put together from these. -/

namespace Sys2Proof.Machine

open Sys2Proof

section

variable {s : State} {acc : Nat} {c : Cmd}

/-! ### READ and VERIFY -/

theorem State.startRead_eq (s : State) (c : Cmd) :
    s.startRead c = (s.updCmd c.acc fun x => { x with phase := .ordered }).lookup c.acc := rfl

theorem execRead_of_start (h : s.startable acc 1 anyForm = some c) :
    execRead acc s = .next (s.keepOwned ((s.updCmd c.acc fun x => { x with phase := .ordered }).lookup c.acc).run) := by
  rw [execRead, State.start_some _ h, act_eq, State.startRead_eq]

theorem execVerify_of_start (h : s.startable acc 6 anyForm = some c) :
    execVerify acc s = .next (s.keepOwned ((s.updCmd c.acc fun x => { x with phase := .ordered }).lookup c.acc).run) := by
  rw [execVerify, State.start_some _ h, act_eq, State.startRead_eq]

/-! ### WRITE, WRITE_ZEROES and DEALLOCATE -/

theorem execWrite_of_start (h : s.startable acc 2 anyForm = some c) :
    execWrite acc s = .next (s.keepOwned (s.startWrite c).run) := by
  rw [execWrite, State.start_some _ h, act_eq]

theorem execWriteZeroes_of_start (h : s.startable acc 4 anyForm = some c) :
    execWriteZeroes acc s = .next (s.keepOwned (s.startZeroes c).run) := by
  rw [execWriteZeroes, State.start_some _ h, act_eq]

theorem execDeallocate_of_start (h : s.startable acc 5 anyForm = some c) :
    execDeallocate acc s = .next (s.keepOwned (s.startZeroes c).run) := by
  rw [execDeallocate, State.start_some _ h, act_eq]

/-! ### FLUSH -/

theorem execFlush_of_array (h : s.startable acc 3 anyForm = some c) (array : s.isVault c.sqe.vol = false) :
    execFlush acc s = .next (s.keepOwned ((s.updCmd acc fun x => { x with phase := .committed }).writeCheck acc).run) := by
  rw [execFlush, State.start_some _ h, act_eq, if_neg (Bool.eq_false_iff.mp array)]

theorem execFlush_of_vault (h : s.startable acc 3 anyForm = some c) (vault : s.isVault c.sqe.vol = true) :
    execFlush acc s = .next (s.keepOwned (s.updCmd acc fun x => { x with phase := .running }).settleWaits.run) := by
  rw [execFlush, State.start_some _ h, act_eq, if_pos vault]

end

/-- Settles O10: each row for a command that may start; FLUSH by the kind of its volume. -/
theorem ioCommandsStart : Obligations.IoCommandsStart := by
  unfold Obligations.IoCommandsStart
  exact fun s acc c => ⟨execRead_of_start, execVerify_of_start, execWrite_of_start, execWriteZeroes_of_start,
    execDeallocate_of_start, execFlush_of_array, execFlush_of_vault⟩

end Sys2Proof.Machine
end

section
/-! PROOFS. Hedging (R242, R247, R250, R253): when a hedged READ's hold ends, the two intervals of 1 s, a member read at its hedge delay, and the
statement O29 put together from these. -/

namespace Sys2Proof.Machine

open Sys2Proof

/-! ### The hold after a delivery (R253) -/

/-- Where no late data has differed the hold ends with the release of the shared interlock. -/
theorem State.holdEnds_of_no_difference {s : State} {k : Nat} {x : Task} (listed : s.tasks.look k = some x) (same : x.late = []) :
    s.holdEnds k = (s.updTask k fun x => { x with stage := .uncompared }).releaseLock k x.region x.stripe := by
  simp [State.holdEnds, listed, same]

theorem execHedgeHoldTimeout_of_due {s : State} {k : Nat} {x : Task} (live : s.live = true) (listed : s.tasks.look k = some x)
    (held : x.stage = .late) (due : x.deliveredAt + 50000 ≤ s.now) :
    execHedgeHoldTimeout k s = .next (s.keepOwned (s.holdEnds k).run) := by
  simp [execHedgeHoldTimeout, listed, live, held, Nat.not_lt.mpr due]

/-! ### The intervals of 1 s (R242, R250) -/

/-- The turn of a listed pool in HEDGE_INTERVAL_END: its refusals are recorded, and its counts start anew. -/
def State.endPoolInterval (s : State) (e : Nat × Pool) : State :=
  let v : State := if e.2.refusedNow > 0
    then s.event Ev.hedgeLimit 0 e.1 (max 1000 (e.2.readsPrev * 5 / 100)) e.2.refusedNow else s
  { v with pools := v.pools.put e.1 { e.2 with hedgesNow := 0, refusedNow := 0, readsPrev := e.2.readsNow, readsNow := 0 } }

section

variable {s : State}

theorem execHedgeIntervalEnd_of_due (live : s.live = true) (due : s.mgmt.hedgeAt + 1000000 ≤ s.now) {u : State}
    (hu : u = s.over s.pools State.endPoolInterval) :
    execHedgeIntervalEnd s = .next (s.keepOwned { u with mgmt := { u.mgmt with hedgeAt := u.now } }) := by
  have guard : ¬ (!s.live || s.now < s.mgmt.hedgeAt + 1000000) = true := by simp [live, due]
  rw [execHedgeIntervalEnd, if_neg guard, act_eq, hu]
  rfl

theorem execHedgeThresholdUpdate_of_due (live : s.live = true) (due : s.mgmt.estimateAt + 1000000 ≤ s.now) {u : State}
    (hu : u = (s.over s.pools.keys fun s id => s.poolEstimate id).over
      (s.over s.pools.keys fun s id => s.poolEstimate id).members.keys (fun s p => s.memberEstimate p)) :
    execHedgeThresholdUpdate s
      = .next (s.keepOwned ({ u with mgmt := { u.mgmt with estimateAt := u.now } } : State).run) := by
  have guard : ¬ (!s.live || s.now < s.mgmt.estimateAt + 1000000) = true := by simp [live, due]
  rw [execHedgeThresholdUpdate, if_neg guard, act_eq, hu]

end

/-! ### The hedge delay (R247, R250) -/

/-- What HEDGE_DELAY finds at request `q` of port `p`: the outstanding read `r` of a member `m`, its task `x` and its pool `y`, where the
read counts as outstanding from `t` and the pool's threshold is `thr`. -/
structure State.HedgeRead (s : State) (p q : Nat) (r : Req) (m : Member) (x : Task) (y : Pool) (t thr : Nat) : Prop where
  request : (s.port p).reqs.look q = some r
  member : s.members.look p = some m
  task : s.tasks.look r.task = some x
  pool : s.pools.look m.pool = some y
  since : x.hedgeFrom r = some t
  threshold : y.threshold? = some thr

/-- The read may be hedged, and is not yet. -/
structure Task.HedgeOpen (x : Task) (q : Nat) (r : Req) : Prop where
  read : r.write = false
  hedgeable : r.hedgeable = true
  inUse : r.quarantined = none
  first : x.hedged.contains q = false
  waits : x.reads.contains (q, r.pos) = true

/-- The hedge delay is over at the threshold, or at half of it for a SLOW or SUSPECT member. -/
theorem hedgeDue_iff {slow : Bool} {thr d : Nat} :
    (if slow then 2 * d ≥ thr else d ≥ thr) ↔ thr ≤ d ∨ (slow = true ∧ thr ≤ 2 * d) := by
  cases slow with
  | false => simp
  | true => simp only [if_true, true_and]; omega

section

variable {s u : State} {p q t thr : Nat} {r : Req} {m : Member} {x : Task} {y : Pool}
  (live : s.live = true) (found : s.HedgeRead p q r m x y t thr) (ok : x.HedgeOpen q r)
  (due : thr ≤ s.now - t ∨ ((m.st = .slow ∨ m.st = .suspect) ∧ thr ≤ 2 * (s.now - t)))
  (hu : u = s.updTask r.task (fun x => { x with hedged := x.hedged ++ [q] }))

include live found ok due hu

theorem execHedgeDelay_of_due :
    execHedgeDelay p q s
      = .next (s.keepOwned
          (if y.hedgesNow ≥ max 1000 (y.readsPrev * 5 / 100) then
            { u with pools := u.pools.upd m.pool fun p => { p with refusedNow := p.refusedNow + 1 },
                     volumes := u.volumes.upd x.vol fun v => { v with hedgesRefused := sat32 v.hedgesRefused } }
          else (u.startHedge p q r x m.pool).run)) := by
  obtain ⟨request, member, task, pool, since, threshold⟩ := found
  obtain ⟨read, hedgeable, inUse, first, waits⟩ := ok
  have elapsed : if (m.st = .slow || m.st = .suspect : Bool) then 2 * (s.now - t) ≥ thr else s.now - t ≥ thr :=
    hedgeDue_iff.mpr (by simpa using due)
  simp only [execHedgeDelay, act_eq, request, member, task, pool, since, threshold, hu]
  rw [if_neg]
  simp only [live, read, hedgeable, inUse, first, waits, elapsed]
  decide

theorem execHedgeDelay_of_below_limit (below : y.hedgesNow < max 1000 (y.readsPrev * 5 / 100)) :
    execHedgeDelay p q s = .next (s.keepOwned (u.startHedge p q r x m.pool).run) := by
  rw [execHedgeDelay_of_due live found ok due hu, if_neg (Nat.not_le.mpr below)]

theorem execHedgeDelay_of_at_limit (limit : max 1000 (y.readsPrev * 5 / 100) ≤ y.hedgesNow) :
    execHedgeDelay p q s
      = .next (s.keepOwned { u with pools := u.pools.upd m.pool fun p => { p with refusedNow := p.refusedNow + 1 },
                                    volumes := u.volumes.upd x.vol fun v => { v with hedgesRefused := sat32 v.hedgesRefused } }) := by
  rw [execHedgeDelay_of_due live found ok due hu, if_pos limit]

end

/-- Settles O29: each row past its guard; the hold by whether late data has differed, the hedge delay by the limit of the interval. -/
theorem hedgeRows : Obligations.HedgeRows := by
  unfold Obligations.HedgeRows
  refine ⟨fun s k x live listed held due => ?hold, fun _ _ live due hu => execHedgeIntervalEnd_of_due live due hu,
    fun _ _ live due hu => execHedgeThresholdUpdate_of_due live due hu,
    fun s u p q t thr r m x y live request member task pool since threshold read hedgeable inUse first waits due hu => ?delay⟩
  case hold =>
    have row := execHedgeHoldTimeout_of_due live listed held due
    exact ⟨fun same => row.trans (by rw [State.holdEnds_of_no_difference listed same]), fun _ => row⟩
  case delay =>
    have found : s.HedgeRead p q r m x y t thr := ⟨request, member, task, pool, since, threshold⟩
    have ok : x.HedgeOpen q r := ⟨read, hedgeable, inUse, first, waits⟩
    exact ⟨execHedgeDelay_of_below_limit live found ok due hu, execHedgeDelay_of_at_limit live found ok due hu⟩

end Sys2Proof.Machine
end

section
/-! PROOFS. Controllers (R276, R290 to R293): what each row does once its guard is met, the completion of a self-test's Identify Controller
(R635), and the statements O27 and O26 settled by these. -/

namespace Sys2Proof.Machine

open Sys2Proof

/-! ### The health log (R276, R293) -/

/-- With a critical warning in it the health log that arrives is handled as one. -/
theorem State.healthRead_critical (s : State) (p : Nat) :
    s.healthRead p true = (((s.adminDone p .health).adminFreed p).criticalWarning p).run := by
  rw [State.healthRead, if_pos rfl]

theorem State.healthRead_good (s : State) (p : Nat) : s.healthRead p false = ((s.adminDone p .health).adminFreed p).run := by
  rw [State.healthRead, if_neg Bool.false_ne_true]

/-- The poll is due: the controller is ready, its 60 s are over, no read of the log runs and the admin queue has room (R276). -/
structure State.PollDue (s : State) (p : Nat) : Prop where
  live : s.live = true
  up : (s.port p).linkUp = true
  ready : (s.port p).ctl = .ready
  due : (s.port p).pollAt + 60000000 ≤ s.now
  idle : (s.port p).admin.any (fun a => a.1 = AdminOp.health) = false
  room : (s.port p).admin.length < 31

/-- The state in which a poll has been sent. -/
def State.pollSent (s : State) (p : Nat) : State :=
  ((s.updPort p fun x => { x with pollAt := s.now }).adminSend p .health).emit (.driveAdmin p 8)

/-- The state after a poll: its log comes later, or at once. -/
def State.polled (s : State) (p : Nat) : Option Bool → State
  | none => s.pollSent p
  | some c => (s.pollSent p).healthRead p c

theorem execSmartPoll_of_due {s : State} {p : Nat} (h : s.PollDue p) (critical : Option Bool) :
    execSmartPoll p critical s = .next (s.keepOwned (s.polled p critical)) := by
  obtain ⟨live, up, ready, due, idle, room⟩ := h
  have free : (s.port p).adminFull = false := by simpa [Port.adminFull, adminEntries] using room
  rw [execSmartPoll, act_eq, if_neg (by simp [live, up, ready, due, free, idle])]
  cases critical <;> rfl

section

variable {s : State} {p : Nat} (live : s.live = true)

include live

/-! ### Controller resets and fatal status (R290 to R292) -/

theorem execControllerDisabled_of_disabling (up : (s.port p).linkUp = true) (off : (s.port p).ctl = .disabling) :
    execControllerDisabled p s = .next (s.keepOwned ((s.dropQuarantine p).adminStep p 1).run) := by
  rw [execControllerDisabled, act_eq, if_pos (by simp [live, up, off])]

theorem execControllerResetTimeout_of_due (up : (s.port p).linkUp = true)
    (waits : (s.port p).ctl = .disabling ∨ (s.port p).ctl = .bringUp 1) (within : (s.port p).resetWhy.isSome = true)
    (due : (s.port p).rdySince + (s.port p).capTo * 500000 ≤ s.now) :
    execControllerResetTimeout p s = .next (s.keepOwned (s.controllerFatal p).run) := by
  rw [execControllerResetTimeout, act_eq, if_pos (by simp [live, up, within, waits, due])]

theorem execControllerFatalStatus_of_on (up : (s.port p).linkUp = true) (on : (s.port p).ctl ≠ .off)
    (used : (s.port p).ctl ≠ .unused) (sound : (s.port p).ctl ≠ .failed) :
    execControllerFatalStatus p s = .next (s.keepOwned (s.controllerFatal p).run) := by
  rw [execControllerFatalStatus, act_eq, if_pos (by simp [live, up, on, used, sound])]

/-! ### Asynchronous events (R293) -/

theorem execAsynchronousEvent_of_ready (up : (s.port p).linkUp = true) (ready : (s.port p).ctl = .ready) (critical : Bool) :
    execAsynchronousEvent p critical s = .next (s.keepOwned (if critical then (s.criticalWarning p).run else s)) := by
  rw [execAsynchronousEvent, act_eq]
  simp [live, up, ready]

end

/-- Settles O27: each row past its guard; the poll by whether its log arrives at once, an event by whether it warns. -/
theorem controllerRows : Obligations.ControllerRows := by
  unfold Obligations.ControllerRows
  intro s p live up
  refine ⟨execControllerDisabled_of_disabling live up, execControllerResetTimeout_of_due live up,
    execControllerFatalStatus_of_on live up, fun ready due idle room u hu => ?poll, fun ready => ?event⟩
  case poll =>
    obtain rfl : u = s.pollSent p := hu
    have row := execSmartPoll_of_due ⟨live, up, ready, due, idle, room⟩
    rw [← State.healthRead_critical, ← State.healthRead_good]
    exact ⟨row none, row (some true), row (some false)⟩
  case event =>
    have row := execAsynchronousEvent_of_ready live up ready
    exact ⟨row true, row false⟩

/-! ### The answer to a self-test's Identify Controller (R635) -/

/-- While a ready controller has an Identify Controller outstanding, an admin completion is taken as its answer, not as a bring-up step's. -/
theorem execDriveCompletion_of_identify {s : State} {p : Nat} (live : s.live = true) (up : (s.port p).linkUp = true)
    (ready : (s.port p).ctl = .ready) (asked : (s.port p).admin.any (fun a => a.1 = AdminOp.identify) = true) (ok : Bool)
    (info : DriveInfo) :
    execDriveCompletion p (.admin ok info) s = .next (s.keepOwned ((s.identified p ok).adminFreed p).run) := by
  simp only [execDriveCompletion, act_eq]
  rw [if_pos (by simp [live, up, ready, asked])]

/-- A completion that finds no bring-up changes nothing. -/
theorem State.adminReply_of_ready {s : State} {p : Nat} (ready : (s.port p).ctl = .ready) (ok : Bool) (info : DriveInfo) :
    s.adminReply p ok info = s := by
  rw [State.adminReply, ready]

@[simp] theorem State.keepOwned_port (s t : State) (p : Nat) : (s.keepOwned t).port p = t.port p := rfl

/-- A drive with a namespace of 4096 byte blocks and no reservations. -/
def plainDrive : DriveInfo :=
  { hasNs1 := true, lbaSize := 4096, metadata := false, nsze := 1, mdts := 0, sgl := false, wrr := false, mqes := 1, nsqa := 1,
    ncqa := 1, vectors := 1, abortLimit := 0, reservations := false }

/-- A module in a self-test that waits for the drive of port 0: its ready controller has the Identify Controller outstanding. -/
def identifyOutstanding : State :=
  { State.reset with life := { st := .ready, inReset := false, perst := false }, mgmt := { selfTest := { status := 1, asks := [0] } },
                     ports := [(0, { linkUp := true, ctl := .ready, perst := false, admin := [(.identify, 0)] })] }

/-- The answer leaves the admin queue. -/
theorem identifyOutstanding_answered :
    ((((identifyOutstanding.identified 0 true).adminFreed 0).run).port 0).admin = [] := by decide +kernel

theorem identifyOutstanding_run : (identifyOutstanding.run.port 0).admin = [(.identify, 0)] := by decide +kernel

/-- Refutes O26: its clause for an admin completion names the bring-up alone, but on a ready controller with a self-test's Identify
Controller outstanding the completion answers that command and takes it out of the admin queue. -/
theorem not_driveRequests : ¬ Obligations.DriveRequests := by
  unfold Obligations.DriveRequests
  rintro ⟨-, completions, -⟩
  obtain ⟨admin, -⟩ := completions identifyOutstanding 0 rfl rfl
  have stated : exec (.driveCompletion 0 (.admin true plainDrive)) identifyOutstanding
      = .next (identifyOutstanding.keepOwned identifyOutstanding.run) := by
    rw [admin true plainDrive, State.adminReply_of_ready rfl]
  have actual : exec (.driveCompletion 0 (.admin true plainDrive)) identifyOutstanding
      = .next (identifyOutstanding.keepOwned ((identifyOutstanding.identified 0 true).adminFreed 0).run) :=
    execDriveCompletion_of_identify rfl rfl rfl rfl true plainDrive
  have queues := congrArg (fun t => (t.port 0).admin) (Host.Outcome.next.inj (actual.symm.trans stated))
  simp only [State.keepOwned_port, identifyOutstanding_answered, identifyOutstanding_run] at queues
  cases queues

end Sys2Proof.Machine
end


section
/-! PROOFS. Drive links (R271 to R274, R292, R295, R301, R519): what a trained link leaves, each row past its guard, and the statement O28
put together from these. -/

namespace Sys2Proof.Machine

open Sys2Proof

variable {s : State} {p : Nat}

/-! ### A link that trains (R271 to R273, R295) -/

/-- What a port takes from a trained link: rate, width and the drive's registers; its hold is over. -/
def Port.trained (g : LinkSpeed) (n : Nat) (far : DriveLink) (x : Port) : Port :=
  { x with linkUp := true, speed := some g, width := n, linkDownAt := none, capTo := far.capTo,
           maxPayload := min rootPort.maxPayload far.maxPayload }

/-- The port has taken its link, and one below 32 GT/s or x2 is recorded (R272). -/
def State.linkTaken (s : State) (p : Nat) (g : LinkSpeed) (n : Nat) (far : DriveLink) : State :=
  let u := s.updPort p (Port.trained g n far)
  if g ≠ .g32 ∨ n < 2 then u.event Ev.portLinkDegraded p p g.gts n else u

/-- The return of a link that went down at `t`, recorded and counted (R295, R312). -/
def State.linkReturned (s : State) (p t : Nat) : State :=
  (s.event Ev.portLinkDown p p ((s.now - t) / 1000) 0).countMember p fun m => { m with linkDowns := sat32 m.linkDowns }

/-- The controller reset that comes with a return; one under way keeps its reason (R295). -/
def State.linkReset (s : State) (p : Nat) : State :=
  (s.dropQuarantine p).updPort p fun x => { x with resetWhy := some (x.resetWhy.getD .linkReturn) }

/-- What follows once the link is up: an endpoint's bring-up, or another device is unusable (R273, R276); a drive that was found unusable
stays so. -/
def State.afterTraining (s : State) (p : Nat) (ctl : CtlSt) (far : DriveLink) : State :=
  if ctl = .unused then s else if far.endpoint = true then s.adminStep p 1 else s.driveUnusable p 0

theorem State.linkTrained_of_first {g : LinkSpeed} {n : Nat} {far : DriveLink} (first : (s.port p).linkDownAt = none) :
    s.linkTrained p g n far = (s.linkTaken p g n far).afterTraining p (s.port p).ctl far := by
  cases h : far.endpoint <;> simp [State.linkTrained, first, State.afterTraining, State.linkTaken, h] <;> rfl

theorem State.linkTrained_of_return {g : LinkSpeed} {n t : Nat} {far : DriveLink} (down : (s.port p).linkDownAt = some t) :
    s.linkTrained p g n far
      = (if (s.port p).ctl = .unused then (s.linkTaken p g n far).linkReturned p t
          else ((s.linkTaken p g n far).linkReturned p t).linkReset p).afterTraining p (s.port p).ctl far := by
  cases h : far.endpoint <;> simp [State.linkTrained, down, State.afterTraining, State.linkTaken, h] <;> rfl

/-! ### The rows of a link that comes up -/

/-- A port whose link may come up: out of reset, its island up, and its drive not one that was found unusable with no hold (R272, R295). -/
structure State.MayTrain (s : State) (p : Nat) : Prop where
  live : s.live = true
  perst : (s.port p).perst = false
  down : (s.port p).linkUp = false
  used : (s.port p).ctl ≠ .unused ∨ (s.port p).linkDownAt.isSome = true
  island : (s.island p).status = 0

section

variable {sp : List LinkSpeed} {wd : List Nat} {far : DriveLink} {g : LinkSpeed} {n : Nat} (h : s.MayTrain p) (speed : bestSpeed sp = some g)
  (width : bestWidth wd = some n)

include h speed width

/-- The link trains, unless it comes back to a hold that is over. -/
theorem execDriveLinkUp_of_mayTrain :
    execDriveLinkUp p sp wd far s
      = .next (s.keepOwned
          (if (s.port p).linkDownAt.any (fun t => s.now > t + 100000) then s.holdOver p else s.linkTrained p g n far).run) := by
  obtain ⟨live, perst, down, used, island⟩ := h
  have comes : ((s.port p).ctl = .unused && (s.port p).linkDownAt.isNone) = false := by
    rcases used with used | held
    · simp [used]
    · simp [Option.isNone_eq_false_iff.mpr held]
  simp only [execDriveLinkUp, act_eq, speed, width]
  rw [if_neg (by simp [live, perst, down, comes, island])]
  cases (s.port p).linkDownAt <;> simp

theorem execDriveLinkUp_in_time (inTime : ∀ t, (s.port p).linkDownAt = some t → s.now ≤ t + 100000) :
    execDriveLinkUp p sp wd far s = .next (s.keepOwned (s.linkTrained p g n far).run) := by
  have within : ¬ (s.port p).linkDownAt.any (fun t => s.now > t + 100000) = true := by
    cases held : (s.port p).linkDownAt with
    | none => simp
    | some t => simp [inTime t held]
  rw [execDriveLinkUp_of_mayTrain h speed width, if_neg within]

theorem execDriveLinkUp_late {t : Nat} (held : (s.port p).linkDownAt = some t) (late : t + 100000 < s.now) :
    execDriveLinkUp p sp wd far s = .next (s.keepOwned (s.holdOver p).run) := by
  rw [execDriveLinkUp_of_mayTrain h speed width, if_pos (by simp [held, late])]

end

/-! ### A link that drops, and the end of its hold (R292, R295, R301) -/

theorem execDriveLinkDown_of_up {u : State} (live : s.live = true) (up : (s.port p).linkUp = true)
    (hu : u = s.updPort p fun x => { x with linkUp := false, linkDownAt := some s.now, admin := [],
                                            ctl := if x.ctl = .unused || x.ctl = .failed then x.ctl else .training }) :
    execDriveLinkDown p s = .next (s.keepOwned (if (s.port p).prsntN = true then u.driveGone p else u).run) := by
  rw [execDriveLinkDown, act_eq, if_neg (by simp [live, up]), hu]

theorem execLinkDownHoldExpiry_of_due {t : Nat} (live : s.live = true) (held : (s.port p).linkDownAt = some t) (due : t + 100000 ≤ s.now) :
    execLinkDownHoldExpiry p s = .next (s.keepOwned (s.holdOver p).run) := by
  simp only [execLinkDownHoldExpiry, act_eq, held]
  rw [if_neg (by simp [live, due])]

/-! ### PERST, a link that does not come up, and the settle time (R274, R519) -/

theorem execPortNoLink_of_due {u : State} (live : s.live = true) (perst : (s.port p).perst = false) (down : (s.port p).linkUp = false)
    (training : (s.port p).ctl = .training) (first : (s.port p).linkDownAt = none) (due : (s.port p).perstAt + 1000000 ≤ s.now)
    (hu : u = (s.updPort p fun x => { x with ctl := .unused, unusable := true, poweringOn := false }).event Ev.portNoLink p p 0 0) :
    execPortNoLink p s = .next (s.keepOwned (if u.memberLive p = true then u.failMember p 2 false else u).run) := by
  rw [execPortNoLink, act_eq, if_neg (by simp [live, perst, down, training, first, due]), hu]

theorem execDrivePerstDeassert_of_due {t : Nat} (live : s.live = true) (good : (s.port p).goodAt = some t) (perst : (s.port p).perst = true)
    (on : (s.port p).pwrEn = true) (high : (s.port p).pwrGood = true) (due : t + 100000 ≤ s.now) :
    execDrivePerstDeassert p s
      = .next (s.keepOwned
          ((s.updPort p fun x => { x with perst := false, perstAt := s.now, goodAt := none, ctl := .training, unusable := false,
                                          linkUp := false, info := none }).emit (.drivePerst p false))) := by
  simp only [execDrivePerstDeassert, act_eq, good]
  rw [if_neg (by simp [live, perst, on, high, due])]

theorem execDriveSettle_of_due {t : Nat} (live : s.live = true) (settles : (s.port p).settle = some t) (due : t + s.hardUs p ≤ s.now) :
    execDriveSettle p s = .next (s.keepOwned ((s.updPort p fun x => { x with settle := none }).pumpPort p).run) := by
  simp only [execDriveSettle, act_eq, settles]
  rw [if_neg (by simp [live, due])]

/-! ### The statement -/

/-- Settles O28: a link that comes up by its hold (none, running, over), and each other row past its guard. -/
theorem driveLinks : Obligations.DriveLinks := by
  unfold Obligations.DriveLinks
  refine ⟨fun s u v w x p sp wd far g n live perst down used island speed width hu hv first returned inTime => ?up,
    fun s p t sp wd far live perst down island speed width held late => ?late,
    fun s u p live up hu => execDriveLinkDown_of_up live up hu,
    fun s u p t live held due hu => ?expiry,
    fun s u p live perst down training first due hu => execPortNoLink_of_due live perst down training first due hu,
    fun s p t live good perst on high due => execDrivePerstDeassert_of_due live good perst on high due,
    fun s p t live settles due => execDriveSettle_of_due live settles due⟩
  case up =>
    have taken : v = s.linkTaken p g n far := by rw [hv, hu]; rfl
    have ends : s.linkTrained p g n far = w.afterTraining p (s.port p).ctl far := by
      cases held : (s.port p).linkDownAt with
      | none => rw [State.linkTrained_of_first held, first held, taken]
      | some t =>
        obtain ⟨counted, reset⟩ := returned t held (inTime t held)
        rw [State.linkTrained_of_return held, reset, counted, taken]
        rfl
    have row := execDriveLinkUp_in_time (far := far) ⟨live, perst, down, used, island⟩ speed width inTime
    rw [ends] at row
    exact row
  case late =>
    obtain ⟨g, speed⟩ := Option.isSome_iff_exists.mp speed
    obtain ⟨n, width⟩ := Option.isSome_iff_exists.mp width
    exact execDriveLinkUp_late ⟨live, perst, down, .inr (by simp [held]), island⟩ speed width held late
  case expiry =>
    have ends : s.holdOver p = if u.memberLive p = true then u.failMember p 2 false else (u.absentAll p).assertPerst p := by
      rw [hu, State.holdOver]
    rw [← ends]
    exact execLinkDownHoldExpiry_of_due live held due

end Sys2Proof.Machine
end

section
/-! PROOFS. The slots (R296 to R306): the scan, accepted levels, the rows of slot power and of the button, each past its guard, and the
statement O31 put together from these. -/

namespace Sys2Proof.Machine

open Sys2Proof

section

variable {s u : State} {n t : Nat} (live : s.live = true)

include live

/-! ### The chain (R296, R297, R300, R301) -/

theorem execSlotScan_of_due {b : BitVec 512} (due : ∀ t, s.mgmt.scanAt = some t → t + 520 ≤ s.now)
    (hu : u = s.over (span 0 64) fun s n => s.scanSlot n (inboundByte b n)) :
    execSlotScan b s
      = .next (s.keepOwned (({ u with mgmt := { u.mgmt with scanAt := some u.now } } : State).emit
          (.slotBits (outboundBits fun n => (u.port n).shifted)))) := by
  rw [execSlotScan, act_eq, if_neg ?early, ← hu]
  case early =>
    cases scan : s.mgmt.scanAt with
    | none => simp [live]
    | some t => simp [live, due t scan]
  rfl

/-- A level of PRSNT_N that has stood is accepted, and an earlier conflict is over; `f` is what follows it. -/
theorem execSlotPresenceChange_of_stood {present : Bool} (before : (s.port n).prsntN = present)
    (stood : (s.port n).prsntRaw = (!present, 39)) (hu : u = s.updPort n fun x => { x with prsntN := !present, conflict := false }) :
    execSlotPresenceChange n present s
      = .next (s.keepOwned
          (if present then
            if (s.port n).conflict && (s.port n).linkUp then u
            else if (s.port n).pwrEn then
              u.updPort n fun x => { x with goodAt := if x.pwrGood && x.perst then some u.now else none, unusable := false }
            else if (s.port n).autoPower && !(s.port n).powerFault then (u.updPort n fun x => { x with unusable := false }).slotOn n else u
          else if (s.port n).linkUp then (u.updPort n fun x => { x with conflict := true }).event Ev.slotPresenceConflict n n 0 0
          else u.driveGone n).run) := by
  rw [execSlotPresenceChange, act_eq, if_neg (by simp [live, before, stood]), hu]

/-! ### Slot power (R303, R304, R306) -/

theorem execSlotPowerGood_of_good (on : (s.port n).pwrEn = true) (applied : (s.port n).pwrOnAt.isSome = true)
    (good : (s.port n).pwrGood = true) (first : (s.port n).sawGood = false)
    (hu : u = s.updPort n fun x => { x with sawGood := true, goodAt := if x.perst then some s.now else none }) :
    execSlotPowerGood n s = .next (s.keepOwned (if (s.port n).offAt = none then u.slotEnd n [0] false 0 else u)) := by
  have guard : ¬ (!s.live || !(s.port n).pwrEn || (s.port n).pwrOnAt.isNone || !(s.port n).pwrGood || (s.port n).sawGood) = true := by
    simp [live, on, Option.isNone_eq_false_iff.mpr applied, good, first]
  rw [execSlotPowerGood, act_eq, if_neg guard, hu]
  cases (s.port n).offAt <;> rfl

theorem execSlotPowerFault_of_due {v : State} (on : (s.port n).pwrEn = true)
    (low : if (s.port n).sawGood = true then (s.port n).pwrRaw.1 = false else (s.port n).pwrGood = false)
    (applied : (s.port n).pwrOnAt = some t) (due : t + 100000 ≤ s.now)
    (hu : u = (((s.absentAll n).assertPerst n).updPort n fun x =>
      { x with pwrEn := false, powerFault := true, faultBit := true, goodAt := none, offAt := none }).event Ev.slotPowerFault n n
      (b2n (s.port n).sawGood) 0)
    (hv : v = if u.memberLive n = true then u.failMember n 6 false else u) :
    execSlotPowerFault n s = .next (s.keepOwned ((v.slotEnd n [0] false 1).slotEnd n [1] false 0).run) := by
  have bad : (if (s.port n).sawGood then !(s.port n).pwrRaw.1 else !(s.port n).pwrGood) = true := by
    split at low <;> simp_all
  simp only [execSlotPowerFault, act_eq, applied]
  rw [if_neg (by simp [live, on, bad, due]), hv, hu]

theorem execSlotPowerOffDelay_of_due (off : (s.port n).offAt = some t) (due : t + 1000 ≤ s.now)
    (hu : u = (s.updPort n fun x => { x with pwrEn := false, offAt := none, sawGood := false, info := none }).slotEnd n [1] false 0) :
    execSlotPowerOffDelay n s
      = .next (s.keepOwned (if ((u.port n).slotCmds.any fun e => u.slotOp e.1 = 0) = true then u.slotOn n else u)) := by
  simp only [execSlotPowerOffDelay, act_eq, off]
  rw [if_neg (by simp [live, due]), State.when, hu]

/-! ### The button (R302, R305) -/

theorem execSlotButtonPress_of_stood (pressed : (s.port n).btnN = true) (stood : (s.port n).btnRaw = (false, 39))
    (hu : u = s.updPort n fun x => { x with btnN := false, buttonBit := true }) :
    execSlotButtonPress n s
      = .next (s.keepOwned
          (if (s.port n).buttonIgnored = true then u
           else if (s.port n).window.isSome = true then u.cancelWindow n
           else u.updPort n fun x => { x with window := some (u.now, x.pwrInd) })) := by
  rw [execSlotButtonPress, act_eq, if_neg (by simp [live, pressed, stood]), hu]

theorem execButtonWindowEnd_of_due {v : Nat} (opened : (s.port n).window = some (t, v)) (due : t + 5000000 ≤ s.now)
    (hu : u = s.updPort n Port.windowOver) :
    execButtonWindowEnd n s
      = .next (s.keepOwned
          (if (s.port n).pwrEn = false then (u.slotOn n).event Ev.slotButton n n 1 (b2n (s.port n).buttonPolicy)
            else if u.slotProtected n = true ∧ (s.port n).buttonPolicy = false then
              (u.updPort n fun x => { x with refusalSince := some u.now }).event Ev.slotButton n n 3 (b2n (s.port n).buttonPolicy)
            else (u.failAndOff n).event Ev.slotButton n n 2 (b2n (s.port n).buttonPolicy)).run) := by
  simp only [execButtonWindowEnd, act_eq, opened]
  rw [if_neg (by simp [live, due]), hu]
  simp only [Bool.and_eq_true, Bool.not_eq_true']

theorem execButtonRefusalEnd_of_due (refused : (s.port n).refusalSince = some t) (due : t + 5000000 ≤ s.now) :
    execButtonRefusalEnd n s = .next (s.keepOwned (s.updPort n fun x => { x with refusalSince := none })) := by
  simp only [execButtonRefusalEnd, act_eq, refused]
  rw [if_pos (by simp [live, due])]

end

/-! ### The statement -/

/-- Settles O31: each row past its guard; an accepted level by whether the drive appears or goes. -/
theorem slotRows : Obligations.SlotRows := by
  unfold Obligations.SlotRows
  refine ⟨fun _ _ _ live due hu => execSlotScan_of_due live due hu,
    fun s u n live before stood hu => ?appears,
    fun s u n live before stood hu => ?goes,
    fun _ _ _ live on applied good first hu => execSlotPowerGood_of_good live on applied good first hu,
    fun _ _ _ _ _ live on low applied due hu hv => execSlotPowerFault_of_due live on low applied due hu hv,
    fun _ _ _ _ live off due hu => execSlotPowerOffDelay_of_due live off due hu,
    fun _ _ _ live pressed stood hu => execSlotButtonPress_of_stood live pressed stood hu,
    fun _ _ _ _ _ live opened due hu => execButtonWindowEnd_of_due live opened due hu,
    fun _ _ _ live refused due => execButtonRefusalEnd_of_due live refused due⟩
  case appears =>
    have row := execSlotPresenceChange_of_stood live before stood hu
    rw [if_pos rfl] at row
    simp only [Bool.and_eq_true (s.port n).conflict, Bool.and_eq_true (s.port n).autoPower, Bool.not_eq_true'] at row
    exact row
  case goes =>
    have row := execSlotPresenceChange_of_stood live before stood hu
    rw [if_neg Bool.false_ne_true] at row
    exact row

end Sys2Proof.Machine
end

section
/-! PROOFS. Rebuild, moves and scrub (R316, R317, R321 to R323, R339, R347 to R351): each row past its guard, what SCRUB_STRIPE takes
first, and the statement O30 put together from these. -/

namespace Sys2Proof.Machine

open Sys2Proof

section

variable {s : State} {r k t id : Nat} {p : Pool}

/-! ### Start of a region's rebuild (R316, R317) -/

/-- REBUILD_REGION_START may go on, and `r` is the region of the queue it takes. -/
structure State.RebuildChoice (s : State) (r : Nat) : Prop where
  tends : s.tends = true
  granted : s.gov.shares.getD 0 0 ≠ 0
  first : s.rebuildQueue.find? (fun r => s.unpaused r && s.maySeek r && !((s.region r).st = .rebuilding && s.haltedNow r)) = some r

theorem State.RebuildChoice.admits (c : s.RebuildChoice r) : ¬ (!s.tends || s.gov.shares.getD 0 0 = 0 : Bool) = true := by
  simp only [c.tends, c.granted]
  decide

theorem execRebuildRegionStart_of_free_place (c : s.RebuildChoice r) (free : s.rebuilding.length < rebuildPlaces) :
    execRebuildRegionStart s = .next (s.keepOwned (s.beginRebuild r).run) := by
  simp only [execRebuildRegionStart, act_eq, c.first]
  rw [if_neg c.admits, if_pos free]

theorem execRebuildRegionStart_of_preempted {q : Nat} (c : s.RebuildChoice r) (full : rebuildPlaces ≤ s.rebuilding.length)
    (urgent : (s.region r).urgentRank = true) (gives : s.preemptible = some q) :
    execRebuildRegionStart s
      = .next (s.keepOwned ((s.updWork q fun w => { w with place := false, queued := true }).beginRebuild r).run) := by
  simp only [execRebuildRegionStart, act_eq, c.first, gives]
  rw [if_neg c.admits, if_neg (Nat.not_lt.mpr full), if_neg (by simp [urgent])]

/-! ### Stripes (R321 to R323) -/

theorem execRebuildStripeStart_of_next (tends : s.tends = true) (unpaused : s.unpaused r = true) (moves : s.moves r = true)
    (goesOn : (s.workOf r).restartAt0 = false) (few : (s.flying r).length < 8) (granted : s.mayStart (s.workClass r) = true)
    (next : s.nextStripe r = some k) : execRebuildStripeStart r s = .next (s.keepOwned (s.issueStripe r k).run) := by
  simp only [execRebuildStripeStart, act_eq, next]
  rw [if_neg (by simp [tends, unpaused, moves, goesOn, few, granted])]

theorem execRebuildRetryTimer_of_due (live : s.live = true) (halted : (k, t) ∈ (s.workOf r).halted) (due : t + 600000000 ≤ s.now) :
    execRebuildRetryTimer r s
      = .next (s.keepOwned (s.updWork r fun w => { w with halted := w.halted.filter fun h => s.now < h.2 + 600000000 })) := by
  have elapsed : ((s.workOf r).halted.any fun h => h.2 + 600000000 ≤ s.now) = true :=
    List.any_eq_true.mpr ⟨(k, t), halted, decide_eq_true due⟩
  rw [execRebuildRetryTimer, act_eq, if_neg (by simp only [live, elapsed]; decide)]

/-! ### Starvation (R351) -/

theorem execRebuildStarved_of_due (live : s.live = true) (listed : s.pools.look id = some p) (since : p.starvedSince = some t)
    (first : p.starvedRecorded = false) (waits : (s.critWaiting id).isEmpty = false) (ungranted : s.gov.shares.getD 0 0 = 0)
    (due : t + 60000000 ≤ s.now) :
    execRebuildStarved id s
      = .next (s.keepOwned (({ s with pools := s.pools.put id { p with starvedRecorded := true } } : State).event Ev.rebuildStarved
          id id (s.critWaiting id).length 0)) := by
  simp only [execRebuildStarved, act_eq, listed, since, first, waits, ungranted, live]
  rw [if_neg (by simp [due])]

/-! ### Moves (R339) -/

section

variable (tends : s.tends = true) (first : s.usedRegions.find? s.owesMove = some r)

include tends first

theorem execMoveStart_of_relocating (again : (s.region r).st = .relocating) :
    execMoveStart s = .next (s.keepOwned (s.replaceAgain r).run) := by
  simp only [execMoveStart, act_eq, first]
  rw [if_neg (by simp [tends]), if_pos again]

theorem execMoveStart_of_normal (new : (s.region r).st ≠ .relocating)
    (few : (s.usedRegions.filter fun r => (s.region r).st = .relocating).length < 256) :
    execMoveStart s = .next (s.keepOwned (s.startMove r).run) := by
  simp only [execMoveStart, act_eq, first]
  rw [if_neg (by simp [tends]), if_neg new, if_neg (Nat.not_le.mpr few)]

end

/-! ### Scrub passes (R347) -/

theorem execScrubPassStart_of_due (tends : s.tends = true) (started : s.life.starting = false) (listed : s.pools.look id = some p)
    (own : p.foreign_ = false) (period : p.scrubDays ≠ 0) (idle : p.scrubAt = none)
    (due : p.scrubStarted = 0 ∨ p.scrubStarted + periodUs p.scrubDays ≤ s.now) :
    execScrubPassStart id s
      = .next (s.keepOwned { s with pools := s.pools.put id { p with scrubAt := some (0, 0), scrubStarted := s.now,
                                                                     scrubBehind := false } }) := by
  simp only [execScrubPassStart, act_eq, listed]
  rw [if_neg (by simpa [tends, started, own, period, idle] using or_iff_not_imp_left.mp due)]

theorem execScrubPeriodEnd_of_due (live : s.live = true) (listed : s.pools.look id = some p) (running : p.scrubAt = some (r, k))
    (first : p.scrubBehind = false) (period : p.scrubDays ≠ 0) (due : p.scrubStarted + periodUs p.scrubDays ≤ s.now) :
    execScrubPeriodEnd id s
      = .next (s.keepOwned (({ s with pools := s.pools.put id { p with scrubBehind := true } } : State).event Ev.scrubBehind id id
          ((s.poolRegions id).filter fun q => r ≤ q).length p.scrubDays)) := by
  simp only [execScrubPeriodEnd, act_eq, listed, running]
  rw [if_neg (by simp [live, first, period, due])]

/-! ### What SCRUB_STRIPE takes first (R348, R350, R635) -/

/-- Regions are checked before READY or for an import (R350). -/
def State.checksEarly (s : State) : Bool :=
  ((s.life.starting && s.life.step ≥ 9) || s.mgmt.importing.isSome) && !s.life.checksFirst.isEmpty

theorem State.checksEarly_iff (s : State) :
    s.checksEarly = true
      ↔ ((s.life.starting = true ∧ 9 ≤ s.life.step) ∨ s.mgmt.importing.isSome = true) ∧ s.life.checksFirst ≠ [] := by
  simp [State.checksEarly]

/-- SCRUB_STRIPE finds the pool, and the array is neither fenced nor failed. -/
structure State.ScrubAdmitted (s : State) (id : Nat) (p : Pool) : Prop where
  live : s.live = true
  unfenced : s.life.st ≠ .fenced
  working : s.life.st ≠ .failed
  listed : s.pools.look id = some p

/-- No check comes before READY, so the work draws on the SCRUB share: the module has started, and the pool is its own. -/
structure State.ScrubShared (s : State) (id : Nat) (p : Pool) : Prop extends s.ScrubAdmitted id p where
  late : s.checksEarly = false
  started : s.life.starting = false
  active : s.life.st ≠ .standby
  own : p.foreign_ = false

/-- The regions with CHECK_PENDING (R348). -/
def State.pendingChecks (s : State) : List Nat := (s.regions.filter fun e => e.2.checkPending).map (·.1)

theorem execScrubStripe_of_early (a : s.ScrubAdmitted id p) (early : s.checksEarly = true)
    (next : s.toCheck id s.life.checksFirst = some r) :
    execScrubStripe id s = .next (s.keepOwned (s.checkStripe r false).run) := by
  simp only [execScrubStripe, act_eq, a.listed, next, ← State.checksEarly.eq_def]
  rw [if_neg (by simp [a.live, a.unfenced, a.working, early]), if_pos early]

theorem State.ScrubShared.notEarly (a : s.ScrubShared id p) : ¬ s.checksEarly = true := Bool.eq_false_iff.mp a.late

theorem State.ScrubShared.admits (a : s.ScrubShared id p) :
    ¬ (!s.live || s.life.st = .fenced || s.life.st = .failed
        || (!s.checksEarly && (s.life.starting || s.life.st = .standby || p.foreign_)) : Bool) = true := by
  simp [a.live, a.unfenced, a.working, a.started, a.active, a.own]

section

variable (a : s.ScrubShared id p)

include a

theorem execScrubStripe_of_pending (next : s.toCheck id s.pendingChecks = some r) (granted : s.mayStart 2 = true) :
    execScrubStripe id s = .next (s.keepOwned (s.checkStripe r true).run) := by
  simp only [execScrubStripe, act_eq, a.listed, ← State.checksEarly.eq_def, ← State.pendingChecks.eq_def, next]
  rw [if_neg a.admits, if_neg a.notEarly, if_neg (by simp [granted])]

theorem execScrubStripe_of_selfTest (noPending : s.toCheck id s.pendingChecks = none) (test : s.testRegions = true)
    (next : s.toCheck id s.mgmt.selfTest.left = some r) (granted : s.mayStart 2 = true) :
    execScrubStripe id s = .next (s.keepOwned (s.checkStripe r true).run) := by
  simp only [execScrubStripe, act_eq, a.listed, ← State.checksEarly.eq_def, ← State.pendingChecks.eq_def, noPending, test, next, if_true]
  rw [if_neg a.admits, if_neg a.notEarly, if_neg (by simp), if_pos granted]

theorem execScrubStripe_of_pass (noPending : s.toCheck id s.pendingChecks = none)
    (noTest : s.testRegions = false ∨ s.toCheck id s.mgmt.selfTest.left = none) (running : p.scrubAt = some (r, k)) :
    execScrubStripe id s = .next (s.keepOwned (s.passStep id p r k).run) := by
  have untested : (if s.testRegions then s.toCheck id s.mgmt.selfTest.left else none) = none := by
    rcases noTest with off | finished
    · simp [off]
    · simp [finished]
  simp only [execScrubStripe, act_eq, a.listed, ← State.checksEarly.eq_def, ← State.pendingChecks.eq_def, noPending, untested, running]
  rw [if_neg a.admits, if_neg a.notEarly, if_neg (by simp)]

end

end

/-! ### The statement -/

/-- Settles O30: each row past its guard; SCRUB_STRIPE by what it finds first. -/
theorem rebuildAndScrubRows : Obligations.RebuildAndScrubRows := by
  unfold Obligations.RebuildAndScrubRows
  refine ⟨⟨fun s r tends granted first => ?rebuild,
      fun _ _ _ tends unpaused moves goesOn few granted next =>
        execRebuildStripeStart_of_next tends unpaused moves goesOn few granted next,
      fun _ _ _ _ live halted due => execRebuildRetryTimer_of_due live halted due,
      fun _ _ _ _ live listed since first waits ungranted due => execRebuildStarved_of_due live listed since first waits ungranted due,
      fun _ _ tends first => ⟨execMoveStart_of_relocating tends first, execMoveStart_of_normal tends first⟩⟩,
    fun _ _ _ tends started listed own period idle due => execScrubPassStart_of_due tends started listed own period idle due,
    fun _ _ _ _ _ live listed running first period due => execScrubPeriodEnd_of_due live listed running first period due,
    fun s id p early pending live unfenced working listed hEarly hPending => ?stripe⟩
  case rebuild =>
    have c : s.RebuildChoice r := ⟨tends, granted, first⟩
    exact ⟨execRebuildRegionStart_of_free_place c, fun _ => execRebuildRegionStart_of_preempted c⟩
  case stripe =>
    have a : s.ScrubAdmitted id p := ⟨live, unfenced, working, listed⟩
    have isEarly : early ↔ s.checksEarly = true := hEarly.trans s.checksEarly_iff.symm
    refine ⟨fun r now next => execScrubStripe_of_early a (isEarly.mp now) next, fun later started active own => ?shared⟩
    have b : s.ScrubShared id p := ⟨a, Bool.eq_false_iff.mpr (mt isEarly.mpr later), started, active, own⟩
    subst hPending
    exact ⟨fun _ => execScrubStripe_of_pending b, fun _ => execScrubStripe_of_selfTest b, fun _ _ => execScrubStripe_of_pass b⟩

end Sys2Proof.Machine
end

section
/-! PROOFS. The block's time and the governor (R358 to R374, R383): the step that idles, each row of the governor past its guard, and the
statements O2 and O32 put together from these. -/

namespace Sys2Proof.Machine

open Sys2Proof

/-! ### The empty queue -/

theorem step_of_idle {s : State} (idle : s.pending = []) : step s = .next s.tick := by rw [step, idle]

/-- Settles O2: a step with an empty queue is one tick. -/
theorem idleStep : Obligations.IdleStep := by
  unfold Obligations.IdleStep
  exact fun _ idle => step_of_idle idle

/-! ### The sample instant (R358, R360) -/

section

variable {s : State}

/-- What a sample instant finds of the computation of the period before: one that still runs is an overrun, the budget of one that has
ended is applied. -/
def State.periodEnds (s : State) : State :=
  if s.gov.computing = true
  then ({ s with gov := { s.gov with overruns := min 65535 (s.gov.overruns + 1) } } : State).event Ev.govOverrun 0
    s.gov.periodCount.toNat s.gov.period 0
  else if s.gov.computed = true then { s with gov := { s.gov with budget := s.gov.budgetNext, winner := s.gov.winnerNext } }
  else s

/-- The live registers are those of the period that begins. -/
def State.latchLive (s : State) : State := { s with gov := { s.gov with latched := s.gov.live } }

theorem execGovSampleInstant_of_due {i : GovInputs} (up : s.govUp = true)
    (due : ∀ t, s.gov.sampledAt = some t → t + s.gov.period ≤ s.now) :
    execGovSampleInstant i s = .next (s.keepOwned (s.periodEnds.splitBudget.starveNote.latchLive.govSample i).run) := by
  rw [execGovSampleInstant, act_eq, if_neg ?early]
  case early =>
    cases sampled : s.gov.sampledAt with
    | none => simp [up]
    | some t => simp [up, due t sampled]
  rfl

/-! ### The end of a computation (R360, R370 to R374, R379) -/

theorem execGovComputationDone_of_late {t : Nat} (up : s.govUp = true) (computing : s.gov.computing = true)
    (sampled : s.gov.sampledAt = some t) (late : t + s.gov.period ≤ s.now) :
    execGovComputationDone s
      = .next (s.keepOwned (({ s with gov := { s.gov with
          overruns := min 65535 (s.gov.overruns + 1), computing := false } } : State).event Ev.govOverrun 0
            s.gov.periodCount.toNat s.gov.period 0)) := by
  rw [execGovComputationDone, act_eq, if_neg (by simp [up, computing]), if_pos (by simp [sampled, late])]

/-- Every loop's step of the period, by the loop's number. -/
def Gov.loopSteps (g : Gov) : List (Nat × LoopCalc) :=
  (g.loops.zipIdx).map fun e => (e.2, g.runLoop (g.latched.loops.getD e.2 {}) e.1)

/-- The winner of the period's computation and its value (R372). -/
def Gov.winning (g : Gov) : Nat × Dyadic := winnerOf g.latched g.rate (g.loopSteps.map fun c => c.2.x)

/-- A loop's state after the computation: the winner's integrator is committed (R373), and a loop whose LOOP_CFG has changed since starts
anew (R379). -/
def Gov.loopAfter (g : Gov) (x : LoopSt) (j : Nat) : LoopSt :=
  let c := g.latched.loops.getD j {}
  let y := if j = g.winning.1 && (g.loops.getD j {}).init && x.commits c then { x with i := x.it } else x
  if (g.live.loops.getD j {}).cfg = c.cfg then y else { y with init := false }

/-- The events that the loops raised are recorded (R362, R363). -/
def State.recordSteps (s : State) (steps : List (Nat × LoopCalc)) : State :=
  s.over steps fun s c => s.over c.2.evs fun s ev => s.event ev.1 c.1 c.1 ev.2.1 (signedField 32 ev.2.2)

/-- The computation of the period is committed. -/
def State.commitPeriod (s : State) : State :=
  let g := s.gov
  let u := s.recordSteps g.loopSteps
  { u with gov := { u.gov with
      loops := ((g.loopSteps.map fun c => c.2.x).zipIdx).map fun e => g.loopAfter e.1 e.2,
      rate := (profileStep g.latched g.rate g.slope).1, slope := (profileStep g.latched g.rate g.slope).2,
      computing := false, computed := true, winnerNext := g.winning.1, budgetNext := (max 0 (Dyadic.floor g.winning.2)).toNat,
      periodCount := g.periodCount + 1 } }

theorem execGovComputationDone_of_in_time (up : s.govUp = true) (computing : s.gov.computing = true)
    (early : ∀ t, s.gov.sampledAt = some t → s.now < t + s.gov.period) :
    execGovComputationDone s = .next (s.keepOwned s.commitPeriod) := by
  have inTime : ¬ (s.gov.sampledAt.any fun t => t + s.gov.period ≤ s.now) = true := by
    simpa [Option.any_eq_true] using early
  rw [execGovComputationDone, act_eq, if_neg (by simp [up, computing]), if_neg inTime]
  simp only [Bool.not_not]
  rfl

/-! ### PWR_CAP_PWM (R368) -/

theorem State.pwmRestored_of_lost (lost : s.gov.lost = true) :
    s.pwmRestored = ({ s with gov := { s.gov with lost := false } } : State).event Ev.govPwm 0 1 s.gov.duty 0 :=
  if_pos lost

theorem State.pwmRestored_of_present (present : s.gov.lost = false) : s.pwmRestored = s :=
  if_neg (Bool.eq_false_iff.mp present)

theorem execPwmInputLost_of_present (on : s.life.inReset = false) (present : s.gov.lost = false) :
    execPwmInputLost s
      = .next (s.keepOwned (({ s with gov := { s.gov with lost := true, lostBit := true } } : State).event Ev.govPwm 0 0 s.gov.duty 0)) := by
  rw [execPwmInputLost, act_eq, if_neg (by simp [on, present])]

theorem execPwmSteadyHigh_of_on {t : State} (on : s.life.inReset = false)
    (restored : ({ s with gov := { s.gov with duty := 1024 } } : State).pwmRestored = t) :
    execPwmSteadyHigh s = .next (s.keepOwned t) := by
  rw [execPwmSteadyHigh, act_eq, if_neg (by simp [on]), restored]

theorem execPwmInputRestored_of_whole_period {t : State} {high period : Nat} (on : s.life.inReset = false) (long : 900 ≤ period)
    (within : high ≤ period) (restored : s.pwmRestored = t) : execPwmInputRestored high period s = .next (s.keepOwned t) := by
  rw [execPwmInputRestored, act_eq, if_neg (by simp [on, long, within]), restored]

/-! ### OVERRUNS (R383) -/

theorem State.mmioOk_iff {f : FnId} :
    s.mmioOk f = true ↔ s.hostOn = true ∧ s.fnExists f = true ∧ (s.ep f.ep).up = true ∧ (s.fn f).d3 = false := by
  simp [State.mmioOk, and_assoc]

theorem State.mmio_of_ok {f : FnId} {read : Bool} {t : State} (ok : s.mmioOk f = true) : s.mmio f read t = t :=
  if_pos ok

theorem execOverrunsRead_of_ok {e : Nat} {wide : Bool} (ok : s.mmioOk ⟨e, 0⟩ = true) :
    execOverrunsRead ⟨⟨e, 0⟩, wide⟩ s
      = .next (s.keepOwned (({ s with gov := { s.gov with overruns := 0 } } : State).emit
          (.registerRead ⟨e, 0⟩ (BitVec.ofNat 64 (s.gov.winner + s.gov.overruns * 2 ^ 16
            + (if wide = true then s.gov.periodCount.toNat * 2 ^ 32 else 0)))))) := by
  rw [execOverrunsRead, act_eq, State.mmio_of_ok ok, if_neg (by simp)]

end

/-! ### The statement -/

/-- Settles O32: each row past its guard; a computation by whether it ends before the next sample instant, PWR_CAP_PWM by whether the
input was lost. -/
theorem governorRows : Obligations.GovernorRows := by
  unfold Obligations.GovernorRows
  refine ⟨fun s u v i up due hu hv => ?sample,
    fun _ _ up computing sampled late => execGovComputationDone_of_late up computing sampled late,
    fun _ up computing early => execGovComputationDone_of_in_time up computing early,
    fun _ on present => execPwmInputLost_of_present on present,
    fun _ on lost => execPwmSteadyHigh_of_on on (State.pwmRestored_of_lost lost),
    fun _ on present => execPwmSteadyHigh_of_on on (State.pwmRestored_of_present present),
    fun _ _ _ on long within lost => execPwmInputRestored_of_whole_period on long within (State.pwmRestored_of_lost lost),
    fun _ _ _ on long within present => execPwmInputRestored_of_whole_period on long within (State.pwmRestored_of_present present),
    fun _ _ listed host link d0 _ => execOverrunsRead_of_ok (State.mmioOk_iff.mpr ⟨host, listed, link, d0⟩)⟩
  case sample =>
    subst hv hu
    exact execGovSampleInstant_of_due up due

end Sys2Proof.Machine
end

section
/-! PROOFS. The vault's upkeep (R377, R396, R408, R411, R413, R417, R425): patrol, checkpoints, wear moves, collection, waiting writes and
PERCENT_USED, each row past its guard, and the statement O34 put together from these. -/

namespace Sys2Proof.Machine

open Sys2Proof

section

variable {s t : State} (on : s.vaultOn = true)

/-! ### What a wear move picks (R396) -/

/-- The FULL block of least life used that no copy empties, after its life used. -/
def State.leastWornFull (s : State) : Option (Nat × Nat) :=
  (sortBy (fun (a b : Nat × Nat) => a.1 < b.1 || (a.1 = b.1 && a.2 ≤ b.2))
    ((s.vault.blocks.filter fun e => e.2.st = .full && !s.inCopy e.1).map fun e => (e.2.life, e.1))).head?

theorem State.wearPick_of_low {l b l2 d : Nat} (full : s.leastWornFull = some (l, b)) (free : s.mostWornFree = some (l2, d))
    (low : s.lifeSum.2 * (l + 5000000) < s.lifeSum.1) : s.wearPick = some (b, d) := by
  simp only [State.wearPick, ← State.leastWornFull.eq_def, full, free]
  exact if_neg (Nat.not_le.mpr low)

theorem State.wearPick_of_none
    (nothing : s.leastWornFull = none ∨ s.mostWornFree = none
      ∨ ∃ l b, s.leastWornFull = some (l, b) ∧ s.lifeSum.1 ≤ s.lifeSum.2 * (l + 5000000)) : s.wearPick = none := by
  simp only [State.wearPick, ← State.leastWornFull.eq_def]
  rcases nothing with noFull | noFree | ⟨l, b, full, near⟩
  · rw [noFull]
  · rw [noFree]
    cases s.leastWornFull <;> rfl
  · rw [full]
    cases s.mostWornFree with
    | none => rfl
    | some e => exact if_pos near

/-! ### What a wear move does (R377, R396) -/

/-- The copy of a wear move from a block. -/
def State.wearCopy (s : State) (b : Nat) : VCopy :=
  { left := s.keepOf b, use := VUse.wear (s.vblk b).triLevel, block := some b }

/-- WEAR_MOVE_CHECK once it is due, `t` being the state in which the instant of the check is noted. -/
def State.wearMove (s t : State) : State :=
  match t.wearPick with
  | none => t
  | some (b, d) =>
    if !s.mayStart 3 then s
    else if (t.keepOf b).isEmpty then t.freeSource (t.wearCopy b)
    else ((t.openBlock d (VUse.wear (t.vblk b).triLevel)).charge 3 (8192 * (t.keepOf b).length)).startCopy (t.wearCopy b)

theorem State.wearMove_of_none (nothing : t.wearPick = none) : s.wearMove t = t := by
  simp only [State.wearMove, nothing]

section

variable {b d : Nat} (pick : t.wearPick = some (b, d))

include pick

theorem State.wearMove_of_held (held : s.mayStart 3 = false) : s.wearMove t = s := by
  simp only [State.wearMove, pick]
  rw [if_pos (by simp [held])]

variable (granted : s.mayStart 3 = true)

include granted

theorem State.wearMove_of_valid (valid : (t.keepOf b).isEmpty = false) :
    s.wearMove t
      = ((t.openBlock d (VUse.wear (t.vblk b).triLevel)).charge 3 (8192 * (t.keepOf b).length)).startCopy (t.wearCopy b) := by
  simp only [State.wearMove, pick]
  rw [if_neg (by simp [granted]), if_neg (by simp only [valid]; decide)]

theorem State.wearMove_of_empty (empty : (t.keepOf b).isEmpty = true) : s.wearMove t = t.freeSource (t.wearCopy b) := by
  simp only [State.wearMove, pick]
  rw [if_neg (by simp [granted]), if_pos empty]

end

/-! ### What collection takes (R411) -/

/-- Empty the block that was found, if any, into the cold stream. -/
def State.emptyFound (s : State) (o : Option Nat) : State := match o with | some b => s.emptyBlock b .cold | none => s

theorem State.migrationDue_iff {free : Nat} :
    s.migrationDue free = true
      ↔ s.writeBuffer < 2 * ((s.vault.blocks.filter fun e => e.2.use = .hot && (e.2.st = .open_ || e.2.st = .full)).length : Int)
        ∨ free < 4096 := by
  simp [State.migrationDue, State.hotBlocks]

/-- What GARBAGE_COLLECTION_START does first: the foreground is set, and blocks whose program failed are emptied. -/
def State.collectionBegun (s : State) : State := ({ s with vault := { s.vault with gcForeground := s.gcOutside } } : State).retireGo

include on

/-! ### The patrol (R417) -/

theorem execPatrolPassStart_of_due (idle : s.vault.patrol = none)
    (due : s.vault.patrolStarted = 0 ∨ s.vault.patrolStarted + s.settings.patrolHours * 3600000000 ≤ s.now ∨ s.testPatrol = true) :
    execPatrolPassStart s
      = .next (s.keepVault
          (({ s with vault := { s.vault with
              patrol := some s.patrolList,
              patrolStarted := if s.vault.patrolStarted = 0 ∨ s.vault.patrolStarted + s.settings.patrolHours * 3600000000 ≤ s.now
                then max 1 s.now else s.vault.patrolStarted } } : State).updTest fun t =>
            if s.testPatrol then { t with patrol := 2 } else t).patrolGo.patrolEnd) := by
  rw [execPatrolPassStart, vaultAct_eq, if_neg (by simp [on]), if_neg (by simp [idle])]
  simp only [Bool.or_eq_true, decide_eq_true_eq, ge_iff_le]
  rw [if_neg ?early]
  case early =>
    simpa [or_assoc, or_iff_not_imp_left] using due

theorem execPatrolPassStart_of_running (running : s.vault.patrol ≠ none) :
    execPatrolPassStart s = .next (s.keepVault s.patrolGo.patrolEnd) := by
  rw [execPatrolPassStart, vaultAct_eq, if_neg (by simp [on]), if_pos (Option.isSome_iff_ne_none.mpr running)]

theorem execPatrolPeriodEnd_of_due {l : List Nat} (running : s.vault.patrol = some l) (first : s.vault.patrolBehind = false)
    (due : s.vault.patrolStarted + s.settings.patrolHours * 3600000000 ≤ s.now) :
    execPatrolPeriodEnd s
      = .next (s.keepOwned (({ s with vault := { s.vault with patrolBehind := true } } : State).event Ev.vaultPatrolBehind 0
          (l.length + s.patrolReads) s.settings.patrolHours 0)) := by
  simp only [execPatrolPeriodEnd, act_eq, running]
  rw [if_neg (by simp [on, first, due])]

/-! ### Checkpoints and PERCENT_USED (R408, R425) -/

theorem execVaultCheckpoint_of_due (whole : s.vault.writing = none) (flushed : s.vault.flushing = [])
    (due : s.vault.checkpointAt + 60000000 ≤ s.now ∨ 65536 ≤ 2 * s.mapLogSegments) :
    execVaultCheckpoint s = .next (s.keepVault s.startCheckpoint) := by
  rw [execVaultCheckpoint, vaultAct_eq, State.when, if_pos (by simpa [on, whole, flushed, mapRing] using due)]

theorem execPercentUsedRecompute_of_due (due : s.vault.percentAt + 60000000 ≤ s.now) :
    execPercentUsedRecompute s = .next (s.keepVault s.percentUpdate) := by
  rw [execPercentUsedRecompute, vaultAct_eq, State.when, if_pos (by simp [on, due])]

/-! ### Writes that wait (R413) -/

theorem execVaultBlockOpenable_of_waiting (waits : s.vault.waiting.isEmpty = false) :
    execVaultBlockOpenable s
      = .next (s.keepVault ((({ s with vault := { s.vault with waiting := [] } } : State).over s.vault.waiting fun s w =>
          s.programPage w.use w.sectors w.why).flushOpens)) := by
  rw [execVaultBlockOpenable, vaultAct_eq, if_neg (by simp only [on, waits]; decide)]

/-! ### Garbage collection (R411, R413) -/

theorem execGarbageCollectionStart_of_on {u v : State} (begun : t = s.collectionBegun)
    (migrated : u = if t.migrationDue s.freeCount = true then t.emptyFound t.migrationSource else t)
    (collected : v = if s.freeCount < 4096 then u.emptyFound u.collectionSource else u) :
    execGarbageCollectionStart s = .next (s.keepVault v) := by
  subst collected migrated begun
  rw [execGarbageCollectionStart, vaultAct_eq, if_neg (by simp [on])]
  rfl

/-! ### Wear moves (R377, R396) -/

theorem execWearMoveCheck_of_due (due : s.vault.wearAt + 14400000000 ≤ s.now)
    (checked : t = { s with vault := { s.vault with wearAt := s.now } }) :
    execWearMoveCheck s = .next (s.keepVault (s.wearMove t)) := by
  subst checked
  rw [execWearMoveCheck, vaultAct_eq, if_neg (by simp [on, State.wearDue, due])]
  rfl

end

/-! ### The statement -/

/-- Settles O34: each row past its guard; a wear move by what it picks and by its allowance, collection by what migration and collection
find. -/
theorem vaultUpkeep : Obligations.VaultUpkeep := by
  unfold Obligations.VaultUpkeep
  refine ⟨fun _ on idle due => execPatrolPassStart_of_due on idle due,
    fun _ on running => execPatrolPassStart_of_running on running,
    fun _ _ on running first due => execPatrolPeriodEnd_of_due on running first due,
    fun _ on whole flushed due => execVaultCheckpoint_of_due on whole flushed due,
    fun s t _ _ on due checked hFull hFree => ?wear,
    fun s t u on begun migrated => ?collection,
    fun _ on waits => execVaultBlockOpenable_of_waiting on waits,
    fun _ on due => execPercentUsedRecompute_of_due on due⟩
  case wear =>
    subst hFull hFree
    have row := execWearMoveCheck_of_due on due checked
    refine ⟨fun l b l2 d full free low => ?picked, fun nothing => ?nothing⟩
    case nothing =>
      rw [State.wearMove_of_none (State.wearPick_of_none nothing)] at row
      exact row
    case picked =>
      have pick := State.wearPick_of_low full free low
      refine ⟨fun held => ?held, fun granted valid => ?copied, fun granted empty => ?freed⟩
      case held =>
        rw [State.wearMove_of_held pick held] at row
        exact row
      case copied =>
        rw [State.wearMove_of_valid pick granted valid, State.wearCopy] at row
        exact row
      case freed =>
        rw [State.wearMove_of_empty pick granted empty, State.wearCopy] at row
        exact row
  case collection =>
    refine execGarbageCollectionStart_of_on on begun
      (migrated.trans (if_congr State.migrationDue_iff.symm ?hot rfl)) (if_congr Iff.rfl ?cold rfl)
    case hot =>
      rw [State.migrationSource]
      split <;> next found => rw [found]; rfl
    case cold =>
      rw [State.collectionSource]
      split <;> next found => rw [found]; rfl

end Sys2Proof.Machine
end

section
/-! PROOFS. What a reading of the pack leaves (R431, R436, R441). -/

namespace Sys2Proof.Machine

open Sys2Proof

/-- A reading of the current as one update: 10 mA or more breaks the rest (R441). -/
theorem Pack.flows_eq (p : Pack) (ma : Int) (now : Nat) :
    p.flows ma now
      = { p with
          termSince := runFrom p.termSince now (p.st = .cv && ma < p.iTerm)
          restTaken := if 10 ≤ ma.natAbs then false else p.restTaken
          movedAt := if 10 ≤ ma.natAbs then now else p.movedAt } := by
  unfold Pack.flows
  dsimp only
  split <;> rfl

section

variable (p : Pack) (x : PackReading) (now : Nat)

theorem Pack.reads_eq :
    p.reads x now
      = { p.volt x.mv now with
          termSince := runFrom p.termSince now (p.st = .cv && x.ma < p.iTerm)
          restTaken := if 10 ≤ x.ma.natAbs then false else p.restTaken
          movedAt := if 10 ≤ x.ma.natAbs then now else p.movedAt
          reading := { x with temp := if p.fetClosed then x.temp else p.reading.temp }
          coolSince := runFrom p.coolSince now (p.fetClosed && 24 ≤ x.temp && x.temp ≤ 336) } := by
  rw [Pack.reads, Pack.flows_eq]
  rfl

@[simp] theorem Pack.reads_counting : (p.reads x now).counting = p.counting := by rw [Pack.reads_eq]; rfl

@[simp] theorem Pack.reads_q : (p.reads x now).q = p.q := by rw [Pack.reads_eq]; rfl

@[simp] theorem Pack.reads_cells : (p.reads x now).cells = p.cells := by rw [Pack.reads_eq]; rfl

@[simp] theorem Pack.reads_v0 : (p.reads x now).v0 = p.v0 := by rw [Pack.reads_eq]; rfl

end

end Sys2Proof.Machine
end

section
/-! PROOFS. The invariant of the power die's outputs (R431, R432, R436), and the steps by which a proof about it follows a definition. -/

namespace Sys2Proof.Machine

open Sys2Proof

/-! ### The outputs of the power die -/

/-- A set-point that the converter may be brought to (R431, R432): off, or one of two while the power die runs. -/
def Pack.mayConvert (p : Pack) (mv : Nat) : Prop := mv = 0 ∨ p.running = true ∧ (mv = 10700 ∨ mv = 13500)

theorem Pack.drivesOk_iff {p : Pack} :
    p.drivesOk = true
      ↔ (p.converter = 0 ∨ p.converter = 10700 ∨ p.converter = 13500) ∧ (p.running = true ∨ p.converter = 0 ∧ p.charger = (0, 0)) := by
  simp [Pack.drivesOk, or_assoc]

theorem Pack.drivesOk_converter {p : Pack} {mv : Nat} (works : p.mayConvert mv) (h : p.drivesOk = true) :
    ({ p with converter := mv } : Pack).drivesOk = true := by
  rw [Pack.drivesOk_iff] at h ⊢
  obtain ⟨-, runs⟩ := h
  rcases works with rfl | ⟨run, set⟩
  · exact ⟨.inl rfl, runs.imp_right fun off => ⟨rfl, off.2⟩⟩
  · exact ⟨.inr set, .inl run⟩

theorem Pack.drivesOk_charger {p : Pack} {x : Nat × Nat} (works : p.running = true ∨ x = (0, 0)) (h : p.drivesOk = true) :
    ({ p with charger := x } : Pack).drivesOk = true := by
  rw [Pack.drivesOk_iff] at h ⊢
  obtain ⟨set, runs⟩ := h
  rcases works with run | rfl
  · exact ⟨set, .inl run⟩
  · exact ⟨set, runs.imp_right fun off => ⟨off.1, rfl⟩⟩

theorem Pack.drivesOk_running {p : Pack} (h : p.drivesOk = true) : ({ p with running := true } : Pack).drivesOk = true := by
  rw [Pack.drivesOk_iff] at h ⊢
  exact ⟨h.1, .inl rfl⟩

theorem Pack.mayConvert_wantsConverter (p : Pack) (pass : Bool) : p.mayConvert (p.wantsConverter pass) := by
  unfold Pack.wantsConverter
  split
  · exact .inl rfl
  · next works =>
    have run : p.running = true := by simp_all
    split
    · exact .inr ⟨run, .inl rfl⟩
    · split
      · exact .inr ⟨run, .inr rfl⟩
      · split
        · exact .inr ⟨run, .inl rfl⟩
        · exact .inl rfl

theorem Pack.wantsCharger_works (p : Pack) : p.running = true ∨ p.wantsCharger = (0, 0) := by
  refine or_iff_not_imp_left.mpr fun stopped => ?_
  unfold Pack.wantsCharger
  split
  · exact if_pos (by simp [stopped])
  · rfl

theorem Pack.drivesOk_flows (p : Pack) (ma : Int) (now : Nat) : (p.flows ma now).drivesOk = p.drivesOk := by
  rw [Pack.flows_eq]
  rfl

theorem Pack.drivesOk_reads (p : Pack) (r : PackReading) (now : Nat) : (p.reads r now).drivesOk = p.drivesOk :=
  (p.volt r.mv now).drivesOk_flows r.ma now

section

variable {s t u v : State}

/-- The converter is off or at a set-point, and a power die that does not run drives neither converter nor charger. -/
structure State.DrivesOk (s : State) : Prop where
  drives : s.pack.drivesOk = true

/-- An update of what stands beside the power die keeps its outputs. -/
theorem State.DrivesOk.frame (h : s.DrivesOk) {pending now choice fresh out nextId nextAcc todo life pair eps fns sqs cqs cmds templates pools
    members volumes regions work settings wp frames heads locks tasks table staging parisons streams tiles tileWait ports journal vault link gov
    islands suspects learned recorder sb mgmt} :
    State.DrivesOk { s with
      pending := pending, now := now, choice := choice, fresh := fresh, out := out, nextId := nextId, nextAcc := nextAcc, todo := todo,
      life := life, pair := pair, eps := eps, fns := fns, sqs := sqs, cqs := cqs, cmds := cmds, templates := templates, pools := pools,
      members := members, volumes := volumes, regions := regions, work := work, settings := settings, wp := wp, frames := frames, heads := heads,
      locks := locks, tasks := tasks, table := table, staging := staging, parisons := parisons, streams := streams, tiles := tiles,
      tileWait := tileWait, ports := ports, journal := journal, vault := vault, link := link, gov := gov, islands := islands,
      suspects := suspects, learned := learned, recorder := recorder, sb := sb, mgmt := mgmt } :=
  ⟨h.drives⟩

theorem State.DrivesOk.ite {c : Prop} [Decidable c] (ht : t.DrivesOk) (hu : u.DrivesOk) : (if c then t else u).DrivesOk := by
  split
  · exact ht
  · exact hu

theorem State.DrivesOk.iteSnd {α : Type} {c : Prop} [Decidable c] {a b : α × State} (ha : a.2.DrivesOk) (hb : b.2.DrivesOk) :
    (if c then a else b).2.DrivesOk := by
  split
  · exact ha
  · exact hb

theorem State.DrivesOk.iteSndSnd {α β : Type} {c : Prop} [Decidable c] {a b : α × β × State} (ha : a.2.2.DrivesOk) (hb : b.2.2.DrivesOk) :
    (if c then a else b).2.2.DrivesOk := by
  split
  · exact ha
  · exact hb

theorem State.DrivesOk.via {P : Prop} (rest : v.DrivesOk → P) (h : v.DrivesOk) : P := rest h

theorem State.DrivesOk.andThen {P : Prop} (h : v.DrivesOk) (rest : v.DrivesOk → P) : P := rest h

theorem State.DrivesOk.over {α : Type} {l : List α} {f : State → α → State} (h : s.DrivesOk)
    (turn : ∀ s a, s.DrivesOk → (f s a).DrivesOk) : (s.over l f).DrivesOk :=
  State.over_keeps f l (fun u a _ hu => turn u a hu) s h

theorem State.DrivesOk.foldl {α : Type} {l : List α} {f : State → α → State} (h : s.DrivesOk)
    (turn : ∀ s a, s.DrivesOk → (f s a).DrivesOk) : (l.foldl f s).DrivesOk := h.over turn

theorem State.DrivesOk.foldlSnd {α β : Type} {l : List α} {f : β × State → α → β × State} {b : β × State} (h : b.2.DrivesOk)
    (turn : ∀ b a, b.2.DrivesOk → (f b a).2.DrivesOk) : (l.foldl f b).2.DrivesOk :=
  List.foldlRecOn l f (motive := fun b => b.2.DrivesOk) h fun b hb a _ => turn b a hb

/-- A turn is given with what it answers, so that the kernel compares the two and does not evaluate the turn. -/
theorem State.DrivesOk.foldlSndTo {α β : Type} {l : List α} {f : β × State → α → β × State} {b : β × State} (h : b.2.DrivesOk)
    (turn : ∀ b a c, b.2.DrivesOk → f b a = c → c.2.DrivesOk) : (l.foldl f b).2.DrivesOk :=
  h.foldlSnd fun b a hb => turn b a _ hb rfl

theorem State.DrivesOk.foldlSndSnd {α β γ : Type} {l : List α} {f : β × γ × State → α → β × γ × State} {b : β × γ × State}
    (h : b.2.2.DrivesOk) (turn : ∀ b a, b.2.2.DrivesOk → (f b a).2.2.DrivesOk) : (l.foldl f b).2.2.DrivesOk :=
  List.foldlRecOn l f (motive := fun b => b.2.2.DrivesOk) h fun b hb a _ => turn b a hb

theorem State.DrivesOk.ofSnd {α : Type} {x : α × State} {a : α} (hx : x = (a, s)) (h : x.2.DrivesOk) : s.DrivesOk := by
  subst hx
  exact h

theorem State.DrivesOk.ofSndSnd {α β : Type} {x : α × β × State} {a : α} {b : β} (hx : x = (a, b, s)) (h : x.2.2.DrivesOk) :
    s.DrivesOk := by
  subst hx
  exact h

/-- A loop on fuel, taken at its recursor: the kernel would evaluate the partition of a list with a head to unfold the loop's equation. -/
theorem State.DrivesOk.brecOn {F : (n : Nat) → Nat.below (motive := fun _ => State → State) n → State → State}
    (zero : ∀ b s, s.DrivesOk → (F 0 b s).DrivesOk)
    (succ : ∀ n (b : Nat.below (motive := fun _ => State → State) (n + 1)), (∀ s, s.DrivesOk → (b.1 s).DrivesOk) →
      ∀ s, s.DrivesOk → (F (n + 1) b s).DrivesOk) (n : Nat) :
    ∀ s, s.DrivesOk → (Nat.brecOn (motive := fun _ => State → State) n F s).DrivesOk := by
  induction n with
  | zero => exact fun s h => zero _ s h
  | succ n ih => exact fun s h => succ n _ ih s h

/-- Every next state of an answer keeps the power die's outputs so. -/
def NextDrives (o : Host.Outcome State Fault Refusal) : Prop := ∀ t, o = .next t → t.DrivesOk

theorem NextDrives.next (h : t.DrivesOk) : NextDrives (.next t) := by
  rintro _ ⟨⟩
  exact h

end

end Sys2Proof.Machine
end

section
/-! PROOFS. The power die's outputs under what all units share. -/

namespace Sys2Proof.Machine

open Sys2Proof

section

variable {s t u v : State}

/-! ### Writing a state -/

theorem State.DrivesOk.emit (h : s.DrivesOk) {o} : (s.emit o).DrivesOk := h.frame

theorem NextDrives.act (h : t.DrivesOk) : NextDrives (act s t) := .next h.frame

theorem NextDrives.actSet {x} (h : t.DrivesOk) : NextDrives (actSet s x t) := .next h.frame

theorem State.DrivesOk.when (h : s.DrivesOk) (ht : t.DrivesOk) {c} : (s.when c t).DrivesOk := .ite ht h

/-! ### Operations of several units -/

theorem State.DrivesOk.setEp (h : s.DrivesOk) {e v'} : (s.setEp e v').DrivesOk := h.frame

theorem State.DrivesOk.setTile (h : s.DrivesOk) {t' v'} : (s.setTile t' v').DrivesOk := h.frame

theorem State.DrivesOk.setIsland (h : s.DrivesOk) {i v'} : (s.setIsland i v').DrivesOk :=
  h.frame

theorem State.DrivesOk.setWork (h : s.DrivesOk) {r v'} : (s.setWork r v').DrivesOk := h.frame

theorem State.DrivesOk.sendVector (h : s.DrivesOk) {f v'} : (s.sendVector f v').DrivesOk := .ite h.frame h.frame

theorem State.DrivesOk.flushPba (h : s.DrivesOk) {f} : (s.flushPba f).DrivesOk := h.over fun _ _ h => .ite h.frame h

theorem State.DrivesOk.raise (h : s.DrivesOk) {f c} : (s.raise f c).DrivesOk := .ite h (.ite h.frame.sendVector h.frame)

theorem State.DrivesOk.raisePfs (h : s.DrivesOk) {c} : (s.raisePfs c).DrivesOk := h.over fun _ _ h => h.raise

theorem State.DrivesOk.raiseAll (h : s.DrivesOk) {c} : (s.raiseAll c).DrivesOk := h.over fun _ _ h => h.raise

theorem State.DrivesOk.alert (h : s.DrivesOk) {a} : (s.alert a).DrivesOk :=
  .ite h (.ite (.via (fun h => .ite h.frame h) (.ite h.frame h.frame)) h.frame)

theorem State.DrivesOk.endAlert (h : s.DrivesOk) : s.endAlert.DrivesOk := .ite h.frame h

theorem State.DrivesOk.sbCleared (h : s.DrivesOk) : s.sbCleared.DrivesOk := h.frame.endAlert.alert

theorem State.DrivesOk.countUnrecorded (h : s.DrivesOk) {code} : (s.countUnrecorded code).DrivesOk := h.frame.over fun _ _ h => h.frame

theorem State.DrivesOk.storeRecord (h : s.DrivesOk) {r} : (s.storeRecord r).DrivesOk := h.frame

theorem State.DrivesOk.accept (h : s.DrivesOk) {r} : (s.accept r).DrivesOk :=
  .ite h.frame (.ite h.countUnrecorded (.via (fun h => .ite h.storeRecord.frame.raisePfs.alert h.storeRecord) (.ite h.frame h)))

theorem State.DrivesOk.holdRecord (h : s.DrivesOk) {r} : (s.holdRecord r).DrivesOk := by
  unfold State.holdRecord
  dsimp only
  split
  · exact .ite h.frame h.frame.countUnrecorded
  · exact h.frame

theorem State.DrivesOk.record (h : s.DrivesOk) {code src p1 p2 p3} : (s.record code src p1 p2 p3).DrivesOk :=
  .ite h (.ite h.accept h.holdRecord)

theorem State.DrivesOk.event (h : s.DrivesOk) {code inst p1 p2 p3} : (s.event code inst p1 p2 p3).DrivesOk := h.record

theorem State.DrivesOk.fnEvent (h : s.DrivesOk) {code f p2 p3} : (s.fnEvent code f p2 p3).DrivesOk := h.record

theorem State.DrivesOk.volEvent (h : s.DrivesOk) {code v' p1 p2 p3} : (s.volEvent code v' p1 p2 p3).DrivesOk := h.record

theorem State.DrivesOk.aerCorrectable (h : s.DrivesOk) {f bit} : (s.aerCorrectable f bit).DrivesOk := .ite h.frame h.frame

theorem State.DrivesOk.countFixed (h : s.DrivesOk) {i} : (s.countFixed i).DrivesOk := h.frame.over fun _ _ h => h.aerCorrectable

theorem State.DrivesOk.wordBad (h : s.DrivesOk) {i area} : (s.wordBad i area).DrivesOk := h.frame.event

theorem State.DrivesOk.wordFixed (h : s.DrivesOk) {i area} : (s.wordFixed i area).DrivesOk := h.countFixed.event

theorem State.DrivesOk.markedExit (h : s.DrivesOk) {i requester exit} : (s.markedExit i requester exit).DrivesOk := h.frame.event

theorem State.DrivesOk.rebuilt (h : s.DrivesOk) {i area index} : (s.rebuilt i area index).DrivesOk := h.frame.event

theorem State.DrivesOk.learnEpoch (h : s.DrivesOk) {requester dest} : (s.learnEpoch requester dest).DrivesOk := h.frame

theorem State.DrivesOk.dropStale (h : s.DrivesOk) {requester responder n} : (s.dropStale requester responder n).DrivesOk :=
  h.over fun _ _ h => h.frame.event

theorem State.DrivesOk.replyTo (h : s.DrivesOk) {requester responder src} {f : State → State}
    (hf : ∀ s, s.DrivesOk → (f s).DrivesOk) :
    (s.replyTo requester responder src f).DrivesOk :=
  .ite (hf _ h) h.dropStale

theorem State.DrivesOk.islandDown (h : s.DrivesOk) {i why} : (s.islandDown i why).DrivesOk := h.frame.event

theorem State.DrivesOk.mapOut (h : s.DrivesOk) {i row} : (s.mapOut i row).DrivesOk :=
  .alert (.raisePfs (.ite h.frame.event h.frame.event.event))

theorem State.DrivesOk.aer (h : s.DrivesOk) {f bit advisory} : (s.aer f bit advisory).DrivesOk :=
  .ite (.ite h.frame h.frame) (.ite h.frame h.frame)

theorem State.DrivesOk.mmio (h : s.DrivesOk) (ht : t.DrivesOk) {f read} : (s.mmio f read t).DrivesOk := .ite ht (.ite h.aer.emit h)

theorem State.DrivesOk.setState (h : s.DrivesOk) {st} : (s.setState st).DrivesOk :=
  .ite h (.ite (.raiseAll (h.frame.raiseAll.alert.over fun _ _ h => h.aer)) h.frame.raiseAll.alert)

/-! ### Rings -/

theorem State.DrivesOk.noteBacked (h : s.DrivesOk) : s.noteBacked.DrivesOk := by
  refine h.over fun _ _ h => ?_
  split
  · exact h
  · split
    · exact h.frame
    · exact .ite h.frame.fnEvent h.frame
    · exact h

theorem State.DrivesOk.stallCheck (h : s.DrivesOk) {k} : (s.stallCheck k).DrivesOk := by
  unfold State.stallCheck
  split
  · exact h
  · split
    · exact h
    · exact .ite h.frame.fnEvent.raise h

theorem State.DrivesOk.cqMessage (h : s.DrivesOk) {k} : (s.cqMessage k).DrivesOk := by
  unfold State.cqMessage
  split
  · exact h
  · exact .ite (.ite h.frame.sendVector h.frame) h

theorem State.DrivesOk.refillStash (h : s.DrivesOk) {k} : (s.refillStash k).DrivesOk := by
  unfold State.refillStash
  split <;> exact h.frame

theorem State.DrivesOk.drainLoop (h : s.DrivesOk) {n k} : (s.drainLoop n k).DrivesOk := by
  induction n generalizing s with
  | zero => exact h
  | succ n ih =>
    rw [State.drainLoop]
    split
    · exact h
    · refine .ite ?_ h
      split
      · exact ih h.frame
      · exact ih h.frame
      · exact h

theorem State.DrivesOk.drainCq (h : s.DrivesOk) {k} : (s.drainCq k).DrivesOk := by
  unfold State.drainCq
  split
  · exact h
  · exact .noteBacked (h.drainLoop.cqMessage.refillStash.over fun _ _ h => h.refillStash)

theorem State.DrivesOk.generate (h : s.DrivesOk) {k e} : (s.generate k e).DrivesOk := by
  unfold State.generate
  split
  · exact h
  · exact .ite h.frame.cqMessage (.ite h.frame.noteBacked h.frame)

theorem State.DrivesOk.countHostLatency (h : s.DrivesOk) {series us} : (s.countHostLatency series us).DrivesOk := by
  refine .ite ?_ h.frame
  split <;> exact h.frame

theorem State.DrivesOk.finishOne (h : s.DrivesOk) {acc st result resultHi} : (s.finishOne acc st result resultHi).DrivesOk := by
  unfold State.finishOne
  split
  · exact h
  · extract_lets s₁ _ s₂ s₃
    have h₂ : s₂.DrivesOk := h.frame
    have h₃ : s₃.DrivesOk := .ite h₂.countHostLatency (.ite h₂.countHostLatency h₂)
    refine .ite h₂ ?_
    split
    · exact h₃
    · exact h₃.generate

theorem State.DrivesOk.noteChange (h : s.DrivesOk) {kind index} : (s.noteChange kind index).DrivesOk := .ite h (.ite h h.frame)

theorem State.DrivesOk.noteVolume (h : s.DrivesOk) {v'} : (s.noteVolume v').DrivesOk := by
  unfold State.noteVolume
  split
  · exact .ite h h.noteChange
  · exact h

theorem State.DrivesOk.answer (h : s.DrivesOk) {acc st result resultHi} : (s.answer acc st result resultHi).DrivesOk :=
  .ite h.frame h.finishOne

theorem State.DrivesOk.settleWaits (h : s.DrivesOk) : s.settleWaits.DrivesOk := by
  refine h.over fun _ _ h => .ite (.ite h.finishOne h) (.ite (.ite (.finishOne (.ite h.setState h)) h) ?_)
  dsimp only
  split
  · exact h.finishOne
  · exact .ite h.finishOne (.ite (.answer (.noteVolume h.volEvent.frame)) h)

theorem State.DrivesOk.finish (h : s.DrivesOk) {acc st result resultHi} : (s.finish acc st result resultHi).DrivesOk :=
  h.finishOne.settleWaits

theorem State.DrivesOk.finishLogged (h : s.DrivesOk) {acc st result resultHi} : (s.finishLogged acc st result resultHi).DrivesOk :=
  h.answer.settleWaits

theorem State.DrivesOk.updCmd (h : s.DrivesOk) {acc f} : (s.updCmd acc f).DrivesOk := h.frame

/-! ### The array -/

theorem State.DrivesOk.updRegion (h : s.DrivesOk) {r f} : (s.updRegion r f).DrivesOk :=
  .ite h (.ite h.frame.noteChange (.ite h.frame.noteChange.event h.frame.noteChange.event))

theorem State.DrivesOk.raiseLoss (h : s.DrivesOk) {v'} : (s.raiseLoss v').DrivesOk := by
  unfold State.raiseLoss
  dsimp only
  split
  · exact .ite h.raisePfs h.raisePfs.raise
  · exact h.raisePfs

theorem State.DrivesOk.addLoss (h : s.DrivesOk) {vol l lost} : (s.addLoss vol l lost).DrivesOk := by
  unfold State.addLoss
  split
  · exact h
  · exact .ite h (.via (fun h => .ite h.alert h) (.ite h.frame.raiseLoss.noteVolume h.frame.raiseLoss))

/-! ### The cache -/

theorem State.DrivesOk.takeFrameBut (h : s.DrivesOk) {not_ x f} (ht : s.takeFrameBut not_ x = some (f, t)) : t.DrivesOk := by
  unfold State.takeFrameBut at ht
  extract_lets room at ht
  split at ht
  next d s₁ hs =>
    have h₁ : s₁.DrivesOk := .ofSnd hs h.frame
    split at ht
    · nomatch ht
    · split at ht
      · obtain ⟨rfl, rfl⟩ := Prod.mk.inj (Option.some.inj ht)
        exact h₁.frame
      · nomatch ht

theorem State.DrivesOk.takeFrame (h : s.DrivesOk) {x f} (ht : s.takeFrame x = some (f, t)) : t.DrivesOk := h.takeFrameBut ht

theorem State.DrivesOk.moveShare (h : s.DrivesOk) {c} : (s.moveShare c).DrivesOk := .ite h h.frame

theorem State.DrivesOk.takeFrames (h : s.DrivesOk) {l} : (s.takeFrames l).2.DrivesOk := by
  refine .foldlSndTo h fun b a c h hc => ?_
  split at hc
  · next ht => exact hc ▸ h.takeFrame ht
  · exact hc ▸ h

theorem State.DrivesOk.setChain (h : s.DrivesOk) {b l} : (s.setChain b l).DrivesOk := h.frame

theorem State.DrivesOk.chainIn (h : s.DrivesOk) {f} : (s.chainIn f).DrivesOk := by
  unfold State.chainIn
  split
  · exact h
  · exact h.setChain

theorem State.DrivesOk.freeFrame (h : s.DrivesOk) {f} : (s.freeFrame f).DrivesOk := by
  unfold State.freeFrame
  split
  · exact h
  · exact .frame (.ite h.setChain h)

theorem State.DrivesOk.freeAll (h : s.DrivesOk) {l} : (s.freeAll l).DrivesOk := h.over fun _ _ h => h.freeFrame

theorem State.DrivesOk.updFrame (h : s.DrivesOk) {f g} : (s.updFrame f g).DrivesOk := h.frame

theorem State.DrivesOk.settleFrame (h : s.DrivesOk) {f} : (s.settleFrame f).DrivesOk := by
  unfold State.settleFrame
  split
  · exact .ite h.freeFrame h
  · exact h

theorem State.DrivesOk.supersede (h : s.DrivesOk) {f} : (s.supersede f).DrivesOk := by
  unfold State.supersede
  split
  · exact h
  · exact .ite h.freeFrame h.frame.settleFrame

theorem State.DrivesOk.pinAll (h : s.DrivesOk) {l} : (s.pinAll l).DrivesOk := h.over fun _ _ h => h.frame

theorem State.DrivesOk.unpin (h : s.DrivesOk) {l} : (s.unpin l).DrivesOk := h.over fun _ _ h => h.frame.settleFrame

theorem State.DrivesOk.holdAll (h : s.DrivesOk) {l} : (s.holdAll l).DrivesOk := h.over fun _ _ h => h.frame

theorem State.DrivesOk.unhold (h : s.DrivesOk) {l} : (s.unhold l).DrivesOk := h.over fun _ _ h => h.frame.settleFrame

theorem State.DrivesOk.noteGen (h : s.DrivesOk) {vol g} : (s.noteGen vol g).DrivesOk := h.frame

theorem State.DrivesOk.fillDone (h : s.DrivesOk) {f data} : (s.fillDone f data).DrivesOk := by
  unfold State.fillDone
  split
  · exact .ite h (.ite h.freeFrame h.frame.chainIn)
  · exact h.freeFrame
  · exact h

theorem State.DrivesOk.sweepFrame (h : s.DrivesOk) {f} : (s.sweepFrame f).DrivesOk := by
  unfold State.sweepFrame
  split
  · exact h
  · exact .ite h (.ite h.frame (.ite h.freeFrame h))

theorem State.DrivesOk.sweepList (h : s.DrivesOk) {l} : (s.sweepList l).DrivesOk := by
  induction l generalizing s with
  | nil => exact h
  | cons f l ih =>
    rw [State.sweepList]
    exact .ite h.frame (ih h.sweepFrame.frame)

theorem State.DrivesOk.demand (h : s.DrivesOk) {l} : (s.demand l).DrivesOk := h.frame

/-! ### Fetching -/

theorem State.DrivesOk.issueRead (h : s.DrivesOk) {f kind addr len} (ht : s.issueRead f kind addr len = some t) : t.DrivesOk := by
  unfold State.issueRead at ht
  split at ht
  · nomatch ht
  · dsimp only at ht
    split at ht
    · nomatch ht
    · exact Option.some.inj ht ▸ h.frame

theorem State.DrivesOk.issueAll (h : s.DrivesOk) {l} : (s.issueAll l).DrivesOk := by
  induction l generalizing s with
  | nil => exact h
  | cons x l ih =>
    rw [State.issueAll]
    split
    · next ht => exact ih (h.issueRead ht)
    · exact h

theorem State.DrivesOk.pumpCmd (h : s.DrivesOk) {n acc} : (s.pumpCmd n acc).DrivesOk := by
  induction n generalizing s with
  | zero => exact h
  | succ n ih =>
    rw [State.pumpCmd]
    split
    · exact h
    · refine .ite h ?_
      split
      · split
        · exact h
        · next ht => exact ih (h.issueRead ht).updCmd
      · dsimp only
        split
        · exact h
        · split
          · exact h
          · next ht => exact ih (h.issueRead ht).updCmd

theorem State.DrivesOk.pump (h : s.DrivesOk) : s.pump.DrivesOk := h.over fun _ _ h => h.pumpCmd

theorem State.DrivesOk.hostWrite (h : s.DrivesOk) {f buffers data} : (s.hostWrite f buffers data).DrivesOk := h.over fun _ _ h => h.frame

theorem State.DrivesOk.afterList (h : s.DrivesOk) {acc} : (s.afterList acc).DrivesOk := by
  unfold State.afterList
  split
  · exact h
  · refine .ite h.finish (.ite h.finish ?_)
    split
    · exact h.finish
    · exact h.frame

theorem State.DrivesOk.askList (h : s.DrivesOk) {acc c} : (s.askList acc c).DrivesOk := h.frame.pumpCmd

theorem State.DrivesOk.acceptEntry (h : s.DrivesOk) {key q bytes} : (s.acceptEntry key q bytes).DrivesOk := by
  unfold State.acceptEntry
  extract_lets e acc admin mode c s₁ s₂
  have h₁ : s₁.DrivesOk := h.frame
  have h₂ : s₂.DrivesOk := .ite h₁ h₁.frame
  clear_value s₂
  split
  · exact h₂.finish
  · refine .ite h₂.askList ?_
    split
    · exact h₂.finish
    · exact .updCmd (.ite h₂.frame h₂)

theorem State.DrivesOk.acceptLoop (h : s.DrivesOk) {n key} : (s.acceptLoop n key).DrivesOk := by
  induction n generalizing s with
  | zero => exact h
  | succ n ih =>
    rw [State.acceptLoop]
    split
    · exact h
    · refine .ite h ?_
      split
      · exact h
      · exact ih h.frame.acceptEntry

theorem State.DrivesOk.fetchBurst (h : s.DrivesOk) {key q} : (s.fetchBurst key q).DrivesOk := h.issueAll

end

end Sys2Proof.Machine
end

section
/-! PROOFS. The power die's outputs in the vault and the journal. -/

namespace Sys2Proof.Machine

open Sys2Proof

section

variable {s t u v : State}

/-! ### The vault -/

theorem State.DrivesOk.setVblk (h : s.DrivesOk) {b x} : (s.setVblk b x).DrivesOk := h.frame

theorem State.DrivesOk.askDie (h : s.DrivesOk) {id op} : (s.askDie id op).DrivesOk := .frame (.ite h h.frame)

theorem State.DrivesOk.issueOp (h : s.DrivesOk) {op} : (s.issueOp op).DrivesOk := h.frame.askDie

theorem State.DrivesOk.reissueOps (h : s.DrivesOk) {d} : (s.reissueOps d).DrivesOk := h.over fun _ _ h => h.askDie

theorem State.DrivesOk.startReads (h : s.DrivesOk) {l why} : (s.startReads l why).DrivesOk := h.over fun _ _ h => h.issueOp

theorem State.DrivesOk.pageFor (h : s.DrivesOk) {use b page} (ht : s.pageFor use = some (b, page, t)) : t.DrivesOk := by
  obtain ⟨⟨d, b', v⟩, hpick, hv⟩ := Option.map_eq_some_iff.mp ht
  have hopen : v.DrivesOk := by
    obtain ⟨e, -, he⟩ := List.exists_of_findSome?_eq_some hpick
    split at he
    · exact (Prod.mk.inj (Prod.mk.inj (Option.some.inj he)).2).2 ▸ h
    · split at he
      · obtain ⟨b'', -, hb⟩ := Option.map_eq_some_iff.mp he
        exact (Prod.mk.inj (Prod.mk.inj hb).2).2 ▸ h.frame
      · nomatch he
  exact (Prod.mk.inj (Prod.mk.inj hv).2).2 ▸ hopen.setVblk.frame

theorem State.DrivesOk.programPage (h : s.DrivesOk) {u' sectors why} : (s.programPage u' sectors why).DrivesOk := by
  refine .ite h.frame ?_
  split
  · exact h.frame
  · next b page t ht =>
    exact (h.pageFor ht).issueOp

theorem State.DrivesOk.storeSectors (h : s.DrivesOk) {b page sectors corrected} : (s.storeSectors b page sectors corrected).DrivesOk :=
  h.over fun _ _ h => h.frame

theorem State.DrivesOk.program (h : s.DrivesOk) {u' content why} : (s.program u' content why).DrivesOk :=
  h.over fun _ _ h => h.programPage

theorem State.DrivesOk.appendRecord (h : s.DrivesOk) {all acc copy} : (s.appendRecord all acc copy).DrivesOk :=
  .ite h.frame.program h.frame

theorem State.DrivesOk.writeHeld (h : s.DrivesOk) : s.writeHeld.DrivesOk := h.over fun _ _ h => .ite h h.frame.program

theorem State.DrivesOk.appendMap (h : s.DrivesOk) {entries acc copy} : (s.appendMap entries acc copy).DrivesOk :=
  .ite h.appendRecord h.appendRecord.appendRecord

theorem State.DrivesOk.flushOpens (h : s.DrivesOk) : s.flushOpens.DrivesOk := .ite h h.appendMap

theorem State.DrivesOk.vprogram (h : s.DrivesOk) {u' content why} : (s.vprogram u' content why).DrivesOk := h.program.flushOpens

theorem State.DrivesOk.logEntries (h : s.DrivesOk) {entries acc copy} : (s.logEntries entries acc copy).DrivesOk :=
  h.over fun _ _ h => h.appendMap

theorem State.DrivesOk.startErases (h : s.DrivesOk) : s.startErases.DrivesOk :=
  h.over fun _ _ h => .issueOp (h.over fun _ _ h => h.frame)

theorem State.DrivesOk.releaseBlocks (h : s.DrivesOk) {d} : (s.releaseBlocks d).DrivesOk :=
  .via (fun h => .ite h.frame.startErases (.ite h.frame.startErases.frame h.frame.startErases.event))
    (h.over fun _ _ h => h.frame)

theorem State.DrivesOk.releaseDump (h : s.DrivesOk) : s.releaseDump.DrivesOk := by
  unfold State.releaseDump
  split
  · exact h
  · exact h.frame.releaseBlocks

theorem State.DrivesOk.cullBlocks (h : s.DrivesOk) : s.cullBlocks.DrivesOk := .startErases (h.over fun _ _ h => h.frame)

theorem State.DrivesOk.dropSectors (h : s.DrivesOk) {b} : (s.dropSectors b).DrivesOk := h.frame

theorem State.DrivesOk.percentUpdate (h : s.DrivesOk) : s.percentUpdate.DrivesOk :=
  .via (fun h => .ite h.frame.event.raisePfs.alert h) (.ite h.frame.event.raisePfs.alert h.frame)

theorem State.DrivesOk.retireBlock (h : s.DrivesOk) {b program} : (s.retireBlock b program).DrivesOk :=
  .percentUpdate (.event (.appendMap (.ite h.frame h.frame)))

theorem State.DrivesOk.startCopy (h : s.DrivesOk) {c} : (s.startCopy c).DrivesOk := h.frame.startReads

theorem State.DrivesOk.closeUse (h : s.DrivesOk) {u'} : (s.closeUse u').DrivesOk := h.over fun _ _ h => h.frame

theorem State.DrivesOk.closeWear (h : s.DrivesOk) {b u'} : (s.closeWear b u').DrivesOk := .ite h h.closeUse.frame

theorem State.DrivesOk.freeSource (h : s.DrivesOk) {c} : (s.freeSource c).DrivesOk := by
  unfold State.freeSource
  split
  · exact h
  · exact .ite h.closeWear.retireBlock (.ite h.closeWear.setVblk.startErases h.closeWear)

theorem State.DrivesOk.moved (h : s.DrivesOk) {l} : (s.moved l).DrivesOk := by
  unfold State.moved
  exact h.frame

theorem State.DrivesOk.copyCopied (h : s.DrivesOk) {id c} : (s.copyCopied id c).DrivesOk := by
  refine .via (fun h => .ite h.appendMap ?_) (.ite h.moved.frame h.moved)
  split
  · exact h.frame
  · exact h.frame.freeSource

theorem State.DrivesOk.mapCommitted (h : s.DrivesOk) {seq} : (s.mapCommitted seq).DrivesOk := by
  unfold State.mapCommitted
  split
  · exact h
  · refine .via (fun h => h.over fun _ _ h => ?_) (h.frame.over fun _ _ h => ?_)
    · split
      · exact h
      · exact h.frame.freeSource
    · split
      · exact h.frame
      · exact h

theorem State.DrivesOk.endVaultWrite (h : s.DrivesOk) {acc st} : (s.endVaultWrite acc st).DrivesOk := by
  unfold State.endVaultWrite
  split
  · exact h
  · exact h.freeAll.finish

theorem State.DrivesOk.commitMaps (h : s.DrivesOk) : s.commitMaps.DrivesOk :=
  .cullBlocks (State.DrivesOk.over (h.over fun _ _ h => h.mapCommitted) fun _ _ h => .ite h h.endVaultWrite)

theorem State.DrivesOk.resumeCounters (h : s.DrivesOk) {c} : (s.resumeCounters c).DrivesOk := by
  unfold State.resumeCounters
  exact h.frame

theorem State.DrivesOk.writeCheckpoint (h : s.DrivesOk) : s.writeCheckpoint.DrivesOk :=
  .ite h h.flushOpens.frame.cullBlocks.appendMap.vprogram

theorem State.DrivesOk.flushMap (h : s.DrivesOk) : s.flushMap.DrivesOk :=
  .ite h.writeCheckpoint (.flushOpens (h.frame.over fun _ _ h => h.program))

theorem State.DrivesOk.startCheckpoint (h : s.DrivesOk) : s.startCheckpoint.DrivesOk := .ite h (.ite h.frame h.flushMap)

theorem State.DrivesOk.mapFlushed (h : s.DrivesOk) {i phys} : (s.mapFlushed i phys).DrivesOk :=
  .ite h (.ite h.frame.appendMap.flushMap h.frame.appendMap)

theorem State.DrivesOk.checkpointDone (h : s.DrivesOk) : s.checkpointDone.DrivesOk := by
  unfold State.checkpointDone
  split
  · exact h
  · exact .via (fun h => .ite h.startCheckpoint h) h.frame.closeUse.writeHeld.cullBlocks

theorem State.DrivesOk.blockGone (h : s.DrivesOk) {vol lba} : (s.blockGone vol lba).DrivesOk := h.appendMap.addLoss

theorem State.DrivesOk.rebuildMapPage (h : s.DrivesOk) {i} : (s.rebuildMapPage i).DrivesOk := .frame (h.over fun _ _ h => h.blockGone)

theorem State.DrivesOk.recordsDrop (h : s.DrivesOk) {k lost} : (s.recordsDrop k lost).DrivesOk := by
  unfold State.recordsDrop
  split
  split
  · exact h
  · exact h.frame.event

theorem State.DrivesOk.recordsLost (h : s.DrivesOk) {k} : (s.recordsLost k).DrivesOk := .ite h h.recordsDrop

theorem State.DrivesOk.recordsCheck (h : s.DrivesOk) {addr} : (s.recordsCheck addr).DrivesOk := by
  unfold State.recordsCheck
  split
  · exact h
  · split
    · exact .ite h h.recordsDrop
    · exact h

theorem State.DrivesOk.vaultLost (h : s.DrivesOk) {addr} : (s.vaultLost addr).DrivesOk := by
  unfold State.vaultLost
  split
  · exact h
  · dsimp only
    split
    · exact .ite h.event.frame.blockGone h.event.frame
    · split
      · exact h.event.frame.demand
      · exact h.event.frame
    · exact h.event.frame
    · exact .ite h.event.frame.rebuildMapPage h.event.frame
    · exact .ite h.event.frame h.event.frame.startCheckpoint
    · exact .ite h.event.frame h.event.frame
    · exact .ite h.event.frame.recordsLost h.event.frame
    · exact h.event.frame
    · exact h.event.frame

/-! ### The journal -/

theorem State.DrivesOk.writeRecs (h : s.DrivesOk) {l} : (s.writeRecs l).2.DrivesOk :=
  .flushOpens (h.frame.over fun _ _ h => h.programPage)

theorem State.DrivesOk.noteRefs (h : s.DrivesOk) {q r} : (s.noteRefs q r).DrivesOk := h.over fun _ _ h => h.frame

theorem State.DrivesOk.putRecs (h : s.DrivesOk) {l acc task} : (s.putRecs l acc task).2.DrivesOk := by
  unfold State.putRecs
  split
  next qs s₁ hs =>
    have h₁ : s₁.DrivesOk := .ofSnd hs h.writeRecs
    extract_lets s₂ s₃
    have h₂ : s₂.DrivesOk := h₁.over fun _ _ h => .ite h.noteRefs h
    have h₃ : s₃.DrivesOk := by
      unfold s₃
      split
      · exact h₂.frame
      · exact h₂
    dsimp only
    split
    · exact h₃.frame
    · exact h₃

theorem State.DrivesOk.appendRecs (h : s.DrivesOk) {l acc task} : (s.appendRecs l acc task).DrivesOk := .ite h.frame h.putRecs

theorem State.DrivesOk.reclaimJournal (h : s.DrivesOk) : s.reclaimJournal.DrivesOk := .ite h h.frame

theorem State.DrivesOk.journalPressure (h : s.DrivesOk) : s.journalPressure.DrivesOk := .ite h (h.over fun _ _ h => h.frame)

theorem State.DrivesOk.flushRetire (h : s.DrivesOk) {n least} : (s.flushRetire n least).DrivesOk := by
  induction n generalizing s with
  | zero => exact h
  | succ n ih =>
    rw [State.flushRetire]
    refine .ite h ?_
    split
    next hs => exact ih (State.DrivesOk.ofSnd hs h.writeRecs).frame

theorem State.DrivesOk.queueRetire (h : s.DrivesOk) {items task} : (s.queueRetire items task).DrivesOk := .ite h h.frame.flushRetire

theorem State.DrivesOk.retireNow (h : s.DrivesOk) : s.retireNow.DrivesOk := h.flushRetire

theorem State.DrivesOk.journalRetry (h : s.DrivesOk) : s.journalRetry.DrivesOk := by
  unfold State.journalRetry
  split
  next left s₁ hs =>
    have h₁ : s₁.DrivesOk := by
      refine .ofSnd hs (h.foldlSnd fun _ _ h => .iteSnd h ?_)
      exact .ite h.putRecs.queueRetire h.putRecs
    exact h₁.frame

theorem State.DrivesOk.recCommitted (h : s.DrivesOk) {q} : (s.recCommitted q).DrivesOk := by
  unfold State.recCommitted
  split
  · exact h
  · extract_lets _ s₁
    have h₁ : s₁.DrivesOk := h.frame
    split
    · exact h₁.frame
    · refine h₁.over fun _ _ h => ?_
      split <;> exact h.frame
    · exact h₁

end

end Sys2Proof.Machine
end

section
/-! PROOFS. The power die's outputs in stripes, members and the engine. -/

namespace Sys2Proof.Machine

open Sys2Proof

section

variable {s t u v : State}

/-! ### Stripes and their interlock -/

theorem State.DrivesOk.later (h : s.DrivesOk) {t'} : (s.later t').DrivesOk := h.frame

theorem State.DrivesOk.charge (h : s.DrivesOk) {cls bytes} : (s.charge cls bytes).DrivesOk := h.frame

theorem State.DrivesOk.requestLock (h : s.DrivesOk) {t' r k excl} : (s.requestLock t' r k excl).DrivesOk := .ite h.frame h.frame

theorem State.DrivesOk.releaseLock (h : s.DrivesOk) {t' r k} : (s.releaseLock t' r k).DrivesOk := h.frame

theorem State.DrivesOk.grantLock (h : s.DrivesOk) {r k} : (s.grantLock r k).DrivesOk := by
  unfold State.grantLock
  dsimp only
  split
  · exact .ite h.frame h
  · split
    · exact h
    · exact .ite h.frame h
    · exact .ite (h.frame.over fun _ _ h => h.frame) h

theorem State.DrivesOk.updTask (h : s.DrivesOk) {t' f} : (s.updTask t' f).DrivesOk := h.frame

theorem State.DrivesOk.newTask (h : s.DrivesOk) {x excl} : (s.newTask x excl).2.DrivesOk := by
  unfold State.newTask
  split
  next id s₁ hs =>
    extract_lets s₂
    have h₂ : s₂.DrivesOk := (State.DrivesOk.ofSnd hs h.frame).frame
    dsimp only
    split
    · exact h₂.requestLock
    · exact h₂.frame

theorem State.DrivesOk.pumpClass (h : s.DrivesOk) {port ids} : (s.pumpClass port ids).DrivesOk := by
  induction ids generalizing s with
  | nil => exact h
  | cons id ids ih =>
    rw [State.pumpClass]
    split
    · exact ih h
    · exact .ite (ih h) (.ite h (ih h.frame))

theorem State.DrivesOk.pumpPort (h : s.DrivesOk) {port} : (s.pumpPort port).DrivesOk := h.pumpClass.pumpClass

theorem State.DrivesOk.pumpAll (h : s.DrivesOk) : s.pumpAll.DrivesOk := h.over fun _ _ h => h.pumpPort

theorem State.DrivesOk.askPort (h : s.DrivesOk) {port r} : (s.askPort port r).2.DrivesOk := .iteSnd h.frame h.frame.pumpPort

theorem State.DrivesOk.spend (h : s.DrivesOk) {t' bytes} : (s.spend t' bytes).DrivesOk := by
  unfold State.spend
  split
  · exact h
  · split
    · exact h
    · exact h.frame

theorem State.DrivesOk.countRebuildBytes (h : s.DrivesOk) {r} : (s.countRebuildBytes r).DrivesOk := by
  unfold State.countRebuildBytes
  split <;> exact h.frame

theorem State.DrivesOk.askCells (h : s.DrivesOk) {t' write pos place cells hedgeable counted} :
    (s.askCells t' write pos place cells hedgeable counted).DrivesOk := by
  unfold State.askCells
  split
  · exact h
  · exact h.over fun _ _ h => h.spend.askPort.updTask

theorem State.DrivesOk.reissue (h : s.DrivesOk) {t' old place r} : (s.reissue t' old place r).DrivesOk :=
  h.spend.askPort.updTask.frame

theorem State.DrivesOk.tileFor (h : s.DrivesOk) {n not_} : (s.tileFor n not_).2.DrivesOk := by
  induction n generalizing s with
  | zero => exact h
  | succ n ih =>
    rw [State.tileFor]
    split
    · exact h
    · exact .iteSnd h (ih h.frame)

theorem State.DrivesOk.sendJob (h : s.DrivesOk) {j home not_} : (s.sendJob j home not_).DrivesOk := by
  unfold State.sendJob
  split
  next target s₁ hs =>
    have h₁ : s₁.DrivesOk := by
      split at hs
      · exact (Prod.mk.inj hs).2 ▸ h
      · exact .ofSnd hs h.tileFor
    split
    · exact h₁.frame
    · exact h₁.frame

theorem State.DrivesOk.freeStaging (h : s.DrivesOk) {r} : (s.freeStaging r).DrivesOk := by
  unfold State.freeStaging
  split <;> exact h.frame

theorem State.DrivesOk.dropJobs (h : s.DrivesOk) {t'} : (s.dropJobs t').DrivesOk := .frame (h.over fun _ _ h => h.unpin)

theorem State.DrivesOk.endTask (h : s.DrivesOk) {t'} : (s.endTask t').DrivesOk := by
  unfold State.endTask
  split
  · exact h
  · refine .via (fun h => h.dropJobs.frame.freeAll.releaseLock) ?_
    split
    · exact h.frame.freeStaging.frame
    · exact h.frame.freeStaging

/-! ### Members -/

theorem State.DrivesOk.spareCheck (h : s.DrivesOk) {pool} : (s.spareCheck pool).DrivesOk := by
  unfold State.spareCheck
  split
  · exact h
  · exact .ite (.ite h h.frame.event) (.ite h.frame h)

theorem State.DrivesOk.updWork (h : s.DrivesOk) {r f} : (s.updWork r f).DrivesOk := h.frame

theorem State.DrivesOk.enqueue (h : s.DrivesOk) {r} : (s.enqueue r).DrivesOk := h.frame

theorem State.DrivesOk.endStripes (h : s.DrivesOk) {r} : (s.endStripes r).DrivesOk := h.over fun _ _ h => h.endTask

theorem State.DrivesOk.regionLost (h : s.DrivesOk) {r} : (s.regionLost r).DrivesOk := by
  unfold State.regionLost
  extract_lets s₁ e s₂ s₃ s₄
  have h₃ : s₃.DrivesOk := h.endStripes.updWork.over fun _ _ h => h.frame
  have h₄ : s₄.DrivesOk := h₃.updRegion
  split
  · exact h₄.volEvent
  · exact h₄.event

theorem State.DrivesOk.noteWait (h : s.DrivesOk) {r} : (s.noteWait r).DrivesOk := by
  unfold State.noteWait
  exact h.frame

theorem State.DrivesOk.startReplace (h : s.DrivesOk) {r} : (s.startReplace r).2.DrivesOk := by
  unfold State.startReplace
  split
  · dsimp only
    exact h.updRegion.updWork
  · exact h.event.noteWait

theorem State.DrivesOk.abandonMove (h : s.DrivesOk) {r} : (s.abandonMove r).DrivesOk := by
  unfold State.abandonMove
  dsimp only
  split <;> exact h.endStripes.updRegion.updWork

theorem State.DrivesOk.recompute (h : s.DrivesOk) {r} : (s.recompute r).DrivesOk :=
  .ite h.regionLost (.ite h.updRegion.updWork.updWork.enqueue h.updRegion.updWork.updWork)

theorem State.DrivesOk.setCrit (h : s.DrivesOk) {r} : (s.setCrit r).DrivesOk := h.updRegion

theorem State.DrivesOk.backToQueue (h : s.DrivesOk) {r} : (s.backToQueue r).DrivesOk := h.frame.noteWait

theorem State.DrivesOk.furtherLoss (h : s.DrivesOk) {r} : (s.furtherLoss r).DrivesOk := by
  refine .ite h.frame
    (.ite h.frame (.ite (.ite h.endStripes.updWork.startReplace.setCrit h.endStripes.updWork.startReplace.backToQueue) ?_))
  split
  · exact h.endStripes.updWork.updRegion.setCrit.updWork
  · exact h.endStripes.updWork.event.backToQueue

theorem State.DrivesOk.replaceAgain (h : s.DrivesOk) {r} : (s.replaceAgain r).DrivesOk := by
  unfold State.replaceAgain
  dsimp only
  split
  · exact h.endStripes.updWork.updRegion.updWork
  · exact .ite h.endStripes.updWork.updRegion.event.backToQueue h.endStripes.updWork.updRegion.event.noteWait

theorem State.DrivesOk.regionHit (h : s.DrivesOk) {r port} : (s.regionHit r port).DrivesOk := by
  unfold State.regionHit
  dsimp only
  split
  · exact h
  · exact h
  · exact .ite h h.recompute
  · exact .ite h h.recompute
  · exact .ite h h.recompute
  · exact .ite h.abandonMove.recompute (.ite h.replaceAgain h)
  · exact .ite (.ite h.regionLost (.ite (.ite h.setCrit.replaceAgain h.setCrit) h.setCrit.furtherLoss)) (.ite h.replaceAgain h)

theorem State.DrivesOk.memberDone (h : s.DrivesOk) : s.memberDone.DrivesOk := h.over fun _ _ h => .ite h h.frame.event

theorem State.DrivesOk.dropMembers (h : s.DrivesOk) : s.dropMembers.DrivesOk := h.frame

theorem State.DrivesOk.writeLabels (h : s.DrivesOk) {f} : (s.writeLabels f).DrivesOk := by
  unfold State.writeLabels
  split
  · exact h
  · exact .ite h (h.frame.over fun _ _ h => h.frame)

theorem State.DrivesOk.writeConfig (h : s.DrivesOk) : s.writeConfig.DrivesOk := .ite h (h.frame.over fun _ _ h => h.frame)

theorem State.DrivesOk.metadataCheckpoint (h : s.DrivesOk) : s.metadataCheckpoint.DrivesOk := .ite h (.frame (h.over fun _ _ h => h.frame))

theorem State.DrivesOk.metaAsk (h : s.DrivesOk) {job port} : (s.metaAsk job port).DrivesOk := by
  unfold State.metaAsk
  split
  · exact h
  · exact h.over fun _ _ h => h.askPort.frame

theorem State.DrivesOk.metaDone (h : s.DrivesOk) {job} : (s.metaDone job).DrivesOk := by
  unfold State.metaDone
  split
  · exact h
  · dsimp only
    split
    · exact .pumpAll (h.frame.over fun _ _ h => h.finish)
    · exact h.frame
    · exact h.frame
    · exact h.frame

theorem State.DrivesOk.metaCheck (h : s.DrivesOk) {job} : (s.metaCheck job).DrivesOk := by
  unfold State.metaCheck
  split
  · exact .ite h.metaDone h
  · exact h

theorem State.DrivesOk.metaStart (h : s.DrivesOk) {k} : (s.metaStart k).DrivesOk := .metaCheck (h.frame.over fun _ _ h => h.metaAsk)

theorem State.DrivesOk.bringLogs (h : s.DrivesOk) : s.bringLogs.DrivesOk :=
  State.DrivesOk.over (h.frame.over fun _ _ h => h.frame.over fun _ _ h => h.metaAsk) fun _ _ h => h.event

theorem State.DrivesOk.assignLogs (h : s.DrivesOk) : s.assignLogs.DrivesOk :=
  .ite h (.via (fun h => .writeLabels (.ite h h.metadataCheckpoint)) (h.bringLogs.over fun _ _ h => h.frame))

theorem State.DrivesOk.memberTo (h : s.DrivesOk) {port st} : (s.memberTo port st).DrivesOk := by
  unfold State.memberTo
  split
  · exact h
  · exact .ite h (.via (fun h => .assignLogs (.ite h.alert h)) (.ite h.frame.noteChange.event.raisePfs h.frame.noteChange.event))

theorem State.DrivesOk.absentAll (h : s.DrivesOk) {port} : (s.absentAll port).DrivesOk := h.frame.over fun _ _ h => .ite h h.frame

theorem State.DrivesOk.assertPerst (h : s.DrivesOk) {port} : (s.assertPerst port).DrivesOk :=
  .via (fun h => .ite h h.frame) (.ite h.frame.event h.frame)

theorem State.DrivesOk.failMember (h : s.DrivesOk) {port cause removed} : (s.failMember port cause removed).DrivesOk := by
  unfold State.failMember
  split
  · exact h
  · exact .ite h
      (.via (fun h =>
           .via (fun h =>
               .ite h (.spareCheck (.memberDone (.frame (h.foldlSnd fun _ _ h => h.regionHit)))))
             (.ite h.memberTo.later h.memberTo))
         h.absentAll.assertPerst.event)

theorem State.DrivesOk.evacuationCheck (h : s.DrivesOk) {port} : (s.evacuationCheck port).DrivesOk := by
  unfold State.evacuationCheck
  split
  · exact h
  · exact .ite h.frame.event h

theorem State.DrivesOk.copybackCheck (h : s.DrivesOk) {port} : (s.copybackCheck port).DrivesOk := by
  unfold State.copybackCheck
  split
  · exact h
  · exact .ite h.memberTo.event h

theorem State.DrivesOk.memberChecks (h : s.DrivesOk) : s.memberChecks.DrivesOk :=
  .ite h (.dropMembers (.memberDone (h.over fun _ _ h => h.evacuationCheck.copybackCheck)))

theorem State.DrivesOk.countMoved (h : s.DrivesOk) {port n} : (s.countMoved port n).DrivesOk := h.frame

theorem State.DrivesOk.countEvacuated (h : s.DrivesOk) {r} : (s.countEvacuated r).DrivesOk := h.over fun _ _ h => h.frame

theorem State.DrivesOk.countResumed (h : s.DrivesOk) {r} : (s.countResumed r).DrivesOk := by
  refine .ite h (h.over fun _ _ h => ?_)
  dsimp only
  split
  · exact .ite h.frame h
  · exact h

theorem State.DrivesOk.regionDone (h : s.DrivesOk) {r} : (s.regionDone r).DrivesOk := by
  unfold State.regionDone
  dsimp only
  split
  · exact .spareCheck (.dropMembers (.memberDone (h.frame.countEvacuated.updRegion.setWork.over fun _ _ h => h.evacuationCheck)))
  · exact h.updRegion.setWork.countMoved.evacuationCheck.copybackCheck.dropMembers.spareCheck
  · exact .spareCheck
      (.dropMembers (.memberDone (h.frame.countResumed.updRegion.setWork.over fun _ _ h => h.evacuationCheck.copybackCheck)))

theorem State.DrivesOk.stripeDone (h : s.DrivesOk) {r stripe} : (s.stripeDone r stripe).DrivesOk :=
  .via (fun h => .ite h.furtherLoss (.ite h.regionDone h)) (h.frame.updRegion.updWork.over fun _ _ h => h.endTask)

/-! ### The engine -/

theorem State.DrivesOk.startFill (h : s.DrivesOk) {acc vol lbas} : (s.startFill acc vol lbas).DrivesOk := by
  unfold State.startFill
  split
  · refine h.over fun _ _ h => .via (fun h => h.newTask) (.foldlSndTo h fun b a c h hc => ?_)
    extract_lets at hc
    split at hc
    · next ht => exact hc ▸ (h.takeFrame ht)
    · exact hc ▸ h
  · exact h

theorem State.DrivesOk.deliver (h : s.DrivesOk) {x cells} : (s.deliver x cells).DrivesOk := by
  refine h.over fun _ _ h => ?_
  split
  · exact h
  · refine .via (fun h => .later (.ite h h.startFill)) (h.over fun _ _ h => ?_)
    dsimp only
    split
    · exact h.frame
    · exact .ite h h.frame

theorem State.DrivesOk.readCheck (h : s.DrivesOk) {acc} : (s.readCheck acc).DrivesOk := by
  unfold State.readCheck
  split
  · exact h
  · extract_lets read s₁ s₂
    have h₁ : s₁.DrivesOk := .ite (h.over fun _ _ h => h.hostWrite) h
    have h₂ : s₂.DrivesOk := h₁.unpin
    refine .ite h (.ite h ?_)
    split
    · exact h₂.finish
    · exact .finish (.ite h₂.frame.volEvent h₂)

theorem State.DrivesOk.closeParison (h : s.DrivesOk) {id} : (s.closeParison id).DrivesOk := by
  unfold State.closeParison
  split
  · exact h
  · exact .unhold (.frame (h.over fun _ _ h => h.frame))

theorem State.DrivesOk.writeCheck (h : s.DrivesOk) {acc} : (s.writeCheck acc).DrivesOk := by
  unfold State.writeCheck
  split
  · exact h
  · refine .ite h ?_
    split <;> exact h.finish

theorem State.DrivesOk.coverDone (h : s.DrivesOk) {vol l} : (s.coverDone vol l).DrivesOk := h.over fun _ _ h => h.frame.writeCheck

theorem State.DrivesOk.coverDropped (h : s.DrivesOk) {vol lba g} : (s.coverDropped vol lba g).DrivesOk :=
  h.over fun _ _ h => h.frame.writeCheck

theorem State.DrivesOk.recoverFrame (h : s.DrivesOk) {f x b} : (s.recoverFrame f x b).DrivesOk := h.frame.volEvent

theorem State.DrivesOk.blockLost (h : s.DrivesOk) {f} : (s.blockLost f).DrivesOk := by
  unfold State.blockLost
  split
  · exact h
  · extract_lets s₁ s₂ s₃ key s₄ s₅
    have h₂ : s₂.DrivesOk := h.volEvent.addLoss
    have h₃ : s₃.DrivesOk := .ite h₂ h₂.frame
    have h₄ : s₄.DrivesOk := by
      unfold s₄
      split
      · exact h₃.closeParison
      · exact h₃
    have h₅ : s₅.DrivesOk := h₄.freeFrame.coverDropped
    split
    · exact h₅.frame
    · exact h₅

theorem State.DrivesOk.issueCells (h : s.DrivesOk) {id cells} : (s.issueCells id cells).DrivesOk := by
  unfold State.issueCells
  split
  · exact h
  · exact h.frame.over fun _ _ h => h.askCells

theorem State.DrivesOk.planWant (h : s.DrivesOk) {id} : (s.planWant id).DrivesOk := by
  unfold State.planWant
  split
  · exact h
  · exact h.frame.issueCells.later

theorem State.DrivesOk.writeEntry (h : s.DrivesOk) {id} : (s.writeEntry id).DrivesOk := by
  unfold State.writeEntry
  split
  · exact h
  · split
    · exact h
    · exact h.frame
    · exact h

theorem State.DrivesOk.takeRoom (h : s.DrivesOk) {id need} : (s.takeRoom id need).2.DrivesOk := by
  unfold State.takeRoom
  split
  · exact h
  · dsimp only
    split <;> exact h.frame

theorem State.DrivesOk.gatherStripe (h : s.DrivesOk) {id} : (s.gatherStripe id).DrivesOk := by
  unfold State.gatherStripe
  split <;> exact h.frame

theorem State.DrivesOk.beginDestage (h : s.DrivesOk) {id} : (s.beginDestage id).DrivesOk := by
  unfold State.beginDestage
  split
  · exact h
  · refine .ite h.endTask ?_
    extract_lets dirty how m some_ segs par s₁ table s₂
    have h₁ : s₁.DrivesOk := by
      unfold s₁
      clear_value par
      split
      · exact .ite h h.closeParison
      · exact h
    have h₂ : s₂.DrivesOk := h₁.frame
    clear_value how s₂
    split
    next ok s₃ hs =>
      have h₃ : s₃.DrivesOk := .ofSnd hs h₂.takeRoom
      refine .ite h₃ ?_
      extract_lets cells st seq _ s₄ s₅ s₆ s₇
      have h₇ : s₇.DrivesOk := h₃.frame.writeEntry.over fun _ _ h => h.frame
      split
      · exact h₇.frame.issueCells.later
      · exact h₇.frame.issueCells.later
      · exact h₇.gatherStripe.planWant
      · exact h₇.frame

theorem State.DrivesOk.restartDestage (h : s.DrivesOk) {id} : (s.restartDestage id).DrivesOk := by
  unfold State.restartDestage
  split
  · exact h
  · extract_lets s₁ s₂ s₃
    have h₁ : s₁.DrivesOk := h.over fun _ _ h => h.frame.settleFrame
    have h₂ : s₂.DrivesOk := h₁.frame.dropJobs.freeStaging
    have h₃ : s₃.DrivesOk := by
      unfold s₃
      split
      · exact h₂.frame
      · exact h₂
    exact h₃.frame.beginDestage

theorem State.DrivesOk.fullLost (h : s.DrivesOk) {id pos} : (s.fullLost id pos).DrivesOk := h.frame.writeEntry

theorem State.DrivesOk.dropRecords (h : s.DrivesOk) {id} : (s.dropRecords id).DrivesOk := by
  unfold State.dropRecords
  split
  · exact h
  · exact h.queueRetire.frame.updTask

theorem State.DrivesOk.toFull (h : s.DrivesOk) {id pos} : (s.toFull id pos).DrivesOk := by
  unfold State.toFull
  split
  · exact h
  · exact .ite h.frame.freeStaging.takeRoom h.frame.freeStaging.takeRoom.updTask.writeEntry.gatherStripe.planWant

theorem State.DrivesOk.exitMarked (h : s.DrivesOk) {id island exit f} : (s.exitMarked id island exit f).DrivesOk := h.markedExit.later

theorem State.DrivesOk.issueWrites (h : s.DrivesOk) {id} : (s.issueWrites id).DrivesOk := by
  unfold State.issueWrites
  split
  · exact h
  · split
    · exact h.exitMarked
    · exact .later (h.frame.over fun _ _ h => h.over fun _ _ h => h.askCells)

theorem State.DrivesOk.readyToWrite (h : s.DrivesOk) {id} : (s.readyToWrite id).DrivesOk := by
  unfold State.readyToWrite
  split
  · exact h
  · extract_lets m staged s₁
    have h₁ : s₁.DrivesOk := by
      unfold s₁
      split <;> exact h.frame
    split
    · exact h₁.exitMarked
    · exact .via (fun h => .ite h.spend.updTask.appendRecs h.issueWrites) (.ite h₁.appendRecs h₁)

theorem State.DrivesOk.beginRepair (h : s.DrivesOk) {id} : (s.beginRepair id).DrivesOk := by
  unfold State.beginRepair
  split
  · exact h
  · exact .ite h.endTask (.ite h.frame.takeRoom h.frame.takeRoom.frame.updTask.writeEntry.readyToWrite)

theorem State.DrivesOk.startRepairs (h : s.DrivesOk) {x} : (s.startRepairs x).DrivesOk := h.over fun _ _ h => .ite h h.newTask

theorem State.DrivesOk.haltStripe (h : s.DrivesOk) {id} : (s.haltStripe id).DrivesOk := by
  unfold State.haltStripe
  split
  · exact h
  · exact .ite h.event.updWork.endTask.furtherLoss h.event.updWork.endTask

theorem State.DrivesOk.startResolve (h : s.DrivesOk) {id} : (s.startResolve id).DrivesOk := by
  unfold State.startResolve
  split
  · exact h
  · split
    · exact h.endTask
    · exact h.frame.issueCells.later

theorem State.DrivesOk.startScrub (h : s.DrivesOk) {id} : (s.startScrub id).DrivesOk := by
  unfold State.startScrub
  split
  · exact h
  · exact h.frame.issueCells.later

theorem State.DrivesOk.startCopy' (h : s.DrivesOk) {id} : (s.startCopy' id).DrivesOk := by
  unfold State.startCopy'
  split
  · exact h
  · exact h.frame.planWant

theorem State.DrivesOk.startRedestage (h : s.DrivesOk) {id} : (s.startRedestage id).DrivesOk := by
  unfold State.startRedestage
  split
  · exact h
  · refine .via (fun h => h.updTask.planWant) ?_
    split
    · exact .ite h.frame h.frame.closeParison
    · exact h.frame

theorem State.DrivesOk.startTask (h : s.DrivesOk) {id} : (s.startTask id).DrivesOk := by
  unfold State.startTask
  split
  · exact h
  · split
    · exact h.planWant
    · exact h.planWant
    · exact h.planWant
    · exact h.beginDestage
    · exact h.startRedestage
    · exact h.beginRepair
    · exact h.startCopy'
    · exact h.startCopy'
    · exact h.startScrub
    · exact h.startResolve
    · exact h.issueWrites

end

end Sys2Proof.Machine
end

section
/-! PROOFS. The power die's outputs while a command settles. -/

namespace Sys2Proof.Machine

open Sys2Proof

section

variable {s t u v : State}

/-! ### Settling -/

theorem State.DrivesOk.regather (h : s.DrivesOk) {id} : (s.regather id).DrivesOk := h.frame.gatherStripe.planWant

theorem State.DrivesOk.nextOp (h : s.DrivesOk) {id x o rest} : (s.nextOp id x o rest).DrivesOk :=
  .ite h.regather (.ite h.frame (.ite h.frame h.frame.pinAll.sendJob))

theorem State.DrivesOk.opDone (h : s.DrivesOk) {id} : (s.opDone id).DrivesOk := by
  unfold State.opDone
  split
  · exact h
  · split
    · exact h
    · refine .via (fun h => h.updTask.later) ?_
      split
      · exact h.wordBad.setTile
      · exact h

theorem State.DrivesOk.requestUpgrade (h : s.DrivesOk) {id} : (s.requestUpgrade id).DrivesOk := by
  unfold State.requestUpgrade
  split
  · exact h
  · dsimp only
    split
    · exact .ite h h.frame.endTask
    · exact h.frame.grantLock

theorem State.DrivesOk.lateOver (h : s.DrivesOk) {id} : (s.lateOver id).DrivesOk := by
  unfold State.lateOver
  split
  · exact h
  · exact .ite h (.ite h.endTask h.requestUpgrade)

theorem State.DrivesOk.holdEnds (h : s.DrivesOk) {id} : (s.holdEnds id).DrivesOk := by
  unfold State.holdEnds
  split
  · exact h
  · exact .ite h.frame h.frame.requestUpgrade

theorem State.DrivesOk.lateAgain (h : s.DrivesOk) {id x r} : (s.lateAgain id x r).DrivesOk := .ite h h.askPort.updTask

theorem State.DrivesOk.lateEnded (h : s.DrivesOk) {id port req pos r res} : (s.lateEnded id port req pos r res).DrivesOk := by
  unfold State.lateEnded
  split
  · exact h
  · refine .via (fun h => h.lateOver) (.ite h.frame.lateAgain ?_)
    split
    · exact .ite h.frame.startRepairs (.ite h.frame (.ite h.frame h.frame.takeFrames.updTask))
    · exact h.frame.startRepairs
    · exact h.frame

theorem State.DrivesOk.leave (h : s.DrivesOk) {id} : (s.leave id).DrivesOk := by
  unfold State.leave
  split
  · exact h
  · exact .ite h.endTask h.frame.lateOver

theorem State.DrivesOk.noteTakers (h : s.DrivesOk) {id x cells} : (s.noteTakers id x cells).DrivesOk := h.frame

theorem State.DrivesOk.fillOver (h : s.DrivesOk) {id x} : (s.fillOver id x).DrivesOk :=
  .leave (.updTask (.startRepairs (.deliver (h.frame.over fun _ _ h => h.fillDone))))

theorem State.DrivesOk.unitOver (h : s.DrivesOk) {id x} : (s.unitOver id x).DrivesOk :=
  .leave (.updTask (.startRepairs (.deliver (.frame (.noteTakers (h.over fun _ _ h => h.fillDone))))))

theorem State.DrivesOk.memberReadLost (h : s.DrivesOk) {id pos segs back} : (s.memberReadLost id pos segs back).DrivesOk := by
  unfold State.memberReadLost
  split
  · exact h
  · dsimp only
    split
    · exact h.frame.planWant
    · exact h.frame.planWant
    · exact h.endTask
    · exact .ite h.fullLost.planWant h.toFull
    · exact h.frame.planWant
    · exact h.frame.planWant
    · exact h.frame.planWant
    · exact h.frame
    · exact h.frame
    · exact h
    · exact h

theorem State.DrivesOk.abandonHedge (h : s.DrivesOk) {id parent req} : (s.abandonHedge id parent req).DrivesOk := by
  unfold State.abandonHedge
  dsimp only
  split
  · exact h.endTask
  · split
    · exact h.endTask.updTask.memberReadLost
    · exact h.endTask

theorem State.DrivesOk.hedgeOver (h : s.DrivesOk) {id parent req pos x} : (s.hedgeOver id parent req pos x).DrivesOk := by
  refine .ite h.abandonHedge ?_
  dsimp only
  split
  · exact h.endTask
  · exact .ite h.endTask h.endTask.frame.updTask.later

theorem State.DrivesOk.endWrite (h : s.DrivesOk) {id x} : (s.endWrite id x).DrivesOk := by
  unfold State.endWrite
  dsimp only
  split
  · exact h.endTask.closeParison
  · exact h.endTask

theorem State.DrivesOk.retireWith (h : s.DrivesOk) {id x items} : (s.retireWith id x items).DrivesOk :=
  .ite h.queueRetire.updTask h.queueRetire.endWrite

theorem State.DrivesOk.retireTask (h : s.DrivesOk) {id x} : (s.retireTask id x).DrivesOk := h.retireWith

theorem State.DrivesOk.zeroLoss (h : s.DrivesOk) {x cause} : (s.zeroLoss x cause).DrivesOk :=
  .ite h (.ite (h.addLoss.over fun _ _ h => h.event) h.addLoss.event)

theorem State.DrivesOk.destageOver (h : s.DrivesOk) {id x} : (s.destageOver id x).DrivesOk :=
  .via (fun h => .coverDone (.retireWith (.ite h.zeroLoss.updWork h.zeroLoss))) (h.over fun _ _ h => h.frame.settleFrame)

theorem State.DrivesOk.freeRestored (h : s.DrivesOk) {of} : (s.freeRestored of).DrivesOk := h.over fun _ _ h => h.frame.settleFrame

theorem State.DrivesOk.checkMarked (h : s.DrivesOk) {marked} : (s.checkMarked marked).2.2.DrivesOk := by
  refine .via (fun h => h.frame) (State.DrivesOk.over (h.over fun _ _ h => h.updRegion) fun _ _ h => ?_)
  split
  · exact h.addLoss
  · exact h

theorem State.DrivesOk.checksWithoutDump (h : s.DrivesOk) : s.checksWithoutDump.DrivesOk := h.checkMarked.event

theorem State.DrivesOk.startProgress (h : s.DrivesOk) : s.startProgress.DrivesOk := by
  refine .ite h
    (.via (fun h =>
         .ite (.demand (.freeRestored (.ite h.frame.event h.frame))) h)
       (.ite (State.DrivesOk.over (.ite h.frame.event h.frame.event.checksWithoutDump) fun _ _ h => ?_) h))
  split
  · exact h.requestLock
  · exact h

theorem State.DrivesOk.redestageOver (h : s.DrivesOk) {id x records} : (s.redestageOver id x records).DrivesOk :=
  .via (fun h =>
      .via (fun h => .startProgress (.coverDone (.endWrite (.queueRetire (.ite h.zeroLoss h.zeroLoss.frame)))))
        (.ite h h.freeRestored))
    (h.over fun _ _ h => h.frame)

theorem State.DrivesOk.zeroOver (h : s.DrivesOk) {id acc} : (s.zeroOver id acc).DrivesOk := by
  unfold State.zeroOver
  dsimp only
  split
  · exact h.endTask
  · exact .ite h.endTask.updCmd.frame.noteVolume.volEvent.finishLogged h.endTask.updCmd

theorem State.DrivesOk.volumesAttached (h : s.DrivesOk) : s.volumesAttached.DrivesOk := by
  refine h.over fun _ _ h => ?_
  split
  · exact h.volEvent
  · exact h

theorem State.DrivesOk.importProgress (h : s.DrivesOk) : s.importProgress.DrivesOk := by
  unfold State.importProgress
  split
  · exact h
  · extract_lets low _ _ s₁ s₂
    have h₁ : s₁.DrivesOk := h.frame
    exact .ite h h₁.writeLabels.volumesAttached.event.finish

theorem State.DrivesOk.scrubOver (h : s.DrivesOk) {id x check} : (s.scrubOver id x check).DrivesOk := by
  unfold State.scrubOver
  extract_lets s₁ left s₂ s₃ _ s₄ t
  have h₁ : s₁.DrivesOk := h.retireTask
  have h₄ : s₄.DrivesOk := h₁.updRegion.updWork.frame
  exact .ite (.ite h₄.frame.importProgress.startProgress h₄.importProgress.startProgress) h₁

theorem State.DrivesOk.noteSuspects (h : s.DrivesOk) {vol e rows} : (s.noteSuspects vol e rows).DrivesOk :=
  h.over fun _ _ h => h.frame

theorem State.DrivesOk.suspectCheck (h : s.DrivesOk) : s.suspectCheck.DrivesOk := by
  refine h.over fun s e h => .volEvent ?_
  exact h.frame

theorem State.DrivesOk.resolveOver (h : s.DrivesOk) {id x} : (s.resolveOver id x).DrivesOk := by
  unfold State.resolveOver
  split
  · exact h.endTask
  · refine .via (fun h =>
        .ite h.queueRetire.endTask (.via (fun h => h.freeStaging.updTask.startResolve) ?_))
      (h.over fun _ _ h => h.noteSuspects.freeAll)
    split
    · exact h.queueRetire.frame
    · exact h.queueRetire

theorem State.DrivesOk.destageComputed (h : s.DrivesOk) {id x} : (s.destageComputed id x).DrivesOk := by
  refine .ite h.frame.readyToWrite ?_
  split
  · exact h.frame.readyToWrite
  · exact h.frame.readyToWrite
  · exact h.frame
  · exact h.frame
  · exact h.frame
  · exact .ite h.regather h.frame

theorem State.DrivesOk.redestageComputed (h : s.DrivesOk) {id x} : (s.redestageComputed id x).DrivesOk :=
  .ite h.frame.issueWrites (.ite h.frame.issueWrites h.frame)

theorem State.DrivesOk.scrubComputed (h : s.DrivesOk) {id x report check'} : (s.scrubComputed id x report check').DrivesOk := by
  refine .ite h.frame
    (.ite h.frame
       (.via (fun h =>
            .ite h.scrubOver h.frame.beginRepair)
          (h.over fun _ _ h => .via (fun h => .ite ?_ h.event) (.ite h.frame h.frame))))
  dsimp only
  split
  · exact h.event.addLoss
  · exact h.event

theorem State.DrivesOk.resolveComputed (h : s.DrivesOk) {id x} : (s.resolveComputed id x).DrivesOk := by
  unfold State.resolveComputed
  split
  · exact h.endTask
  · exact .ite h.frame (.via (fun h => .ite h.frame.resolveOver h.frame.beginRepair) (.ite h.updRegion h))

theorem State.DrivesOk.computed (h : s.DrivesOk) {id x} : (s.computed id x).DrivesOk := by
  unfold State.computed
  split
  · exact h.fillOver
  · exact h.unitOver
  · exact h.hedgeOver
  · exact h.destageComputed
  · exact h.redestageComputed
  · exact h
  · exact .ite h.haltStripe h.frame.issueWrites
  · exact .ite h.haltStripe h.frame.issueWrites
  · exact h.scrubComputed
  · exact h.resolveComputed
  · exact h

theorem State.DrivesOk.written (h : s.DrivesOk) {id x} : (s.written id x).DrivesOk := by
  unfold State.written
  split
  · exact h.destageOver
  · exact h.redestageOver
  · exact .ite h.retireTask h.frame.event.retireTask
  · exact h.startRepairs.stripeDone
  · exact h.startRepairs.stripeDone
  · exact h.scrubOver
  · exact h.resolveOver
  · exact h.zeroOver
  · exact h
  · exact h
  · exact h

theorem State.DrivesOk.advance (h : s.DrivesOk) {id} : (s.advance id).DrivesOk := by
  unfold State.advance
  split
  · exact h
  · refine .ite (.ite h h.dropRecords.restartDestage) ?_
    split
    · refine .ite h ?_
      split
      · exact h.nextOp
      · exact h.computed
    · exact .ite h.frame.writeEntry.written h.frame.writeEntry
    · exact h

theorem State.DrivesOk.endHedges (h : s.DrivesOk) {parent req} : (s.endHedges parent req).DrivesOk := h.over fun _ _ h => h.endTask

theorem State.DrivesOk.readFailed (h : s.DrivesOk) {id req x r back} : (s.readFailed id req x r back).DrivesOk := by
  unfold State.readFailed
  split
  · exact h.abandonHedge
  · exact .ite h.frame h.frame.memberReadLost

theorem State.DrivesOk.readEnded (h : s.DrivesOk) {id x port req r res} : (s.readEnded id x port req r res).DrivesOk := by
  refine .ite (.ite h.readFailed h.frame.endHedges.issueCells) ?_
  split
  · exact .ite (.ite h.readFailed h.frame.reissue) h.frame.endHedges.updTask.later
  · exact h.readFailed
  · exact h.readFailed

theorem State.DrivesOk.writeEnded (h : s.DrivesOk) {id x port req r res} : (s.writeEnded id x port req r res).DrivesOk := by
  refine .ite (.ite h.frame (.later (h.frame.over fun _ _ h => h.askCells))) ?_
  split
  · exact h.frame
  · split
    · refine .ite h.frame (.via (fun h => h.later.later) ?_)
      split
      · exact h.frame
      · exact h.frame
      · exact h.frame.event
    · exact h.frame
  · refine .ite (.via (fun h => h.later.later) ?_) h.frame.reissue.later
    split
    · exact h.frame
    · exact h.frame
    · exact h.frame.event

theorem State.DrivesOk.metaEnded (h : s.DrivesOk) {port req r res} : (s.metaEnded port req r res).DrivesOk := by
  refine .ite h ?_
  split
  · exact h.frame.metaCheck
  · exact h.failMember.frame.metaCheck
  · exact .ite h.failMember.frame.metaCheck h.askPort.frame

theorem State.DrivesOk.reqDone (h : s.DrivesOk) {port req r res} : (s.reqDone port req r res).DrivesOk := by
  unfold State.reqDone
  extract_lets s₁
  have h₁ : s₁.DrivesOk := by
    unfold s₁
    split
    · exact h.countRebuildBytes
    · exact h
  refine .ite h.metaEnded ?_
  split
  · exact h₁
  · exact .ite h₁.writeEnded (.ite h₁.lateEnded (.ite h₁.readEnded h₁))

theorem State.DrivesOk.dropFrom (h : s.DrivesOk) {f} : (s.dropFrom f).DrivesOk := by
  refine h.over fun _ _ h => ?_
  dsimp only
  split
  · exact h.frame.restartDestage
  · exact h.frame.restartDestage
  · exact h.frame.restartDestage
  · exact h.frame.dropRecords.restartDestage
  · exact h.frame

theorem State.DrivesOk.dropBlock (h : s.DrivesOk) {f} : (s.dropBlock f).DrivesOk := h.blockLost.dropFrom

theorem State.DrivesOk.planAgain (h : s.DrivesOk) {id} : (s.planAgain id).DrivesOk := h.frame.planWant

theorem State.DrivesOk.redestageAgain (h : s.DrivesOk) {id} : (s.redestageAgain id).DrivesOk := h.frame.startRedestage

theorem State.DrivesOk.badFrame (h : s.DrivesOk) {id f} : (s.badFrame id f).DrivesOk := by
  unfold State.badFrame
  split
  · exact h.frame
  · split
    · exact h.recoverFrame.updTask.later
    · dsimp only
      split
      · split
        · exact h.frame.dropBlock.redestageAgain
        · exact h.frame.dropBlock
      · exact h.frame.dropBlock

theorem State.DrivesOk.badClean (h : s.DrivesOk) {id f} : (s.badClean id f).DrivesOk := h.rebuilt.supersede.regather

theorem State.DrivesOk.inputLost (h : s.DrivesOk) {id x o rest p} : (s.inputLost id x o rest p).DrivesOk := by
  unfold State.inputLost
  dsimp only
  split
  · exact h.frame
  · exact h.frame
  · split
    · exact .ite h.frame.fullLost.planAgain h.frame.toFull
    · exact h.frame.redestageAgain
    · exact h.frame.abandonHedge
    · exact h.frame
    · exact h.frame.planWant

theorem State.DrivesOk.jobFailed (h : s.DrivesOk) {id tile input seg} : (s.jobFailed id tile input seg).DrivesOk := by
  unfold State.jobFailed
  split
  · exact h
  · split
    · exact h
    · refine .ite h.frame ?_
      dsimp only
      split
      · exact .ite h.event.badClean h.event.badFrame
      · exact h.event.inputLost

theorem State.DrivesOk.markedWrite (h : s.DrivesOk) {id f} : (s.markedWrite id f).DrivesOk := by
  unfold State.markedWrite
  split
  · split
    · exact .ite h.recoverFrame.updTask.issueWrites h.recoverFrame.updTask.readyToWrite
    · exact h.badFrame
  · exact h

theorem State.DrivesOk.follow (h : s.DrivesOk) {x} : (s.follow x).DrivesOk := by
  unfold State.follow
  split
  · exact h.startTask
  · exact h.reqDone
  · exact h.advance
  · exact h.failMember
  · exact h.readCheck
  · exact h.markedWrite

theorem State.DrivesOk.settleLoop (h : s.DrivesOk) {n} : (s.settleLoop n).DrivesOk := by
  induction n generalizing s with
  | zero => exact h
  | succ n ih =>
    rw [State.settleLoop]
    split
    · exact h
    · exact ih h.frame.follow

theorem State.DrivesOk.settle (h : s.DrivesOk) : s.settle.DrivesOk := h.settleLoop

end

end Sys2Proof.Machine
end

section
/-! PROOFS. The power die's outputs on the write path, and the actions that end in a next state. -/

namespace Sys2Proof.Machine

open Sys2Proof

section

variable {s t u v : State}

/-! ### The write path -/

theorem State.DrivesOk.roomInSpill (h : s.DrivesOk) {k n} : (s.roomInSpill k n).DrivesOk := by
  induction k generalizing s with
  | zero => exact h
  | succ k ih =>
    rw [State.roomInSpill]
    refine .ite h ?_
    split
    · exact ih h.closeParison
    · exact h

theorem State.DrivesOk.roomInSram (h : s.DrivesOk) {k n} : (s.roomInSram k n).DrivesOk := by
  induction k generalizing s with
  | zero => exact h
  | succ k ih =>
    rw [State.roomInSram]
    refine .ite h ?_
    split
    · exact ih h.roomInSpill.frame
    · exact h

theorem State.DrivesOk.openParison (h : s.DrivesOk) {vol r k} : (s.openParison vol r k).DrivesOk := by
  unfold State.openParison
  extract_lets +onlyGivenNames m
  refine .ite h ?_
  split
  · exact h
  · extract_lets s₁ id
    have h₁ : s₁.DrivesOk := h.roomInSram
    exact h₁.frame

theorem State.DrivesOk.homeFor (h : s.DrivesOk) {n home} : (s.homeFor n home).2.DrivesOk := by
  induction n generalizing s home with
  | zero => exact h
  | succ n ih =>
    rw [State.homeFor]
    split
    · exact h
    · dsimp only
      split
      · exact ih h.frame
      · exact h.frame

theorem State.DrivesOk.takeHome (h : s.DrivesOk) {id home} : (s.takeHome id home).2.DrivesOk := by
  unfold State.takeHome
  split
  next hs => exact .frame (.ofSnd hs h.homeFor)

theorem State.DrivesOk.absorbIssue (h : s.DrivesOk) {id} : (s.absorbIssue id).DrivesOk := by
  unfold State.absorbIssue
  split
  · exact h
  · split
    · exact .ite h (.ite h.frame h.frame.takeHome.frame.pinAll.sendJob)
    · exact h

theorem State.DrivesOk.absorbEnd (h : s.DrivesOk) {id f old} : (s.absorbEnd id f old).DrivesOk := by
  unfold State.absorbEnd
  extract_lets s₁ s₂
  have h₂ : s₂.DrivesOk := h.frame
  split
  · exact h₂.unhold
  · exact h₂

theorem State.DrivesOk.absorbNext (h : s.DrivesOk) {n id} : (s.absorbNext n id).DrivesOk := by
  induction n generalizing s with
  | zero => exact h
  | succ n ih =>
    rw [State.absorbNext]
    split
    · exact h
    · split
      · exact h
      · extract_lets m begin_
        have hbegin : ∀ s f old pos, s.DrivesOk → (begin_ s f old pos).DrivesOk := fun s f old pos h =>
          .ite (ih h.frame.absorbEnd) h.frame.absorbIssue
        clear_value begin_
        refine .ite h ?_
        split
        · extract_lets s₁
          have h₁ : s₁.DrivesOk := h.frame
          split
          · exact hbegin _ _ _ _ h₁
          · exact ih h₁.unhold
        · refine .ite h (.ite (ih h.frame) ?_)
          split
          · exact .ite h (hbegin _ _ _ _ h)
          · exact h

theorem State.DrivesOk.absorbStripe (h : s.DrivesOk) {vol r k} : (s.absorbStripe vol r k).DrivesOk := by
  unfold State.absorbStripe
  split
  · exact h
  · exact h.absorbNext

theorem State.DrivesOk.absorbAdd (h : s.DrivesOk) {j id f old outs words} : (s.absorbAdd j id f old outs words).DrivesOk := by
  unfold State.absorbAdd
  split
  · refine .ite h ?_
    split
    · exact h
    · dsimp only
      split
      · exact h.frame.absorbEnd
      · exact h.frame
  · exact h

theorem State.DrivesOk.absorbed (h : s.DrivesOk) {j id f old outs words} : (s.absorbed j id f old outs words).DrivesOk := by
  unfold State.absorbed
  dsimp only
  split
  · exact h.absorbAdd
  · exact .ite h.absorbAdd.absorbStripe h.absorbAdd.absorbIssue

theorem State.DrivesOk.absorbFailed (h : s.DrivesOk) {tile id} : (s.absorbFailed tile id).DrivesOk := by
  unfold State.absorbFailed
  split
  · exact h.event.closeParison
  · exact h

theorem State.DrivesOk.urgentCheck (h : s.DrivesOk) : s.urgentCheck.DrivesOk :=
  .via (fun h => .ite h.frame.event (.ite h.frame h)) (.ite h.frame h)

theorem State.DrivesOk.stallNote (h : s.DrivesOk) : s.stallNote.DrivesOk :=
  .via (fun h => .ite (.ite h h.frame) (.ite h h.frame)) (State.DrivesOk.over (h.over fun _ _ h => h.frame) fun _ _ h => h.frame)

theorem State.DrivesOk.permEvent (h : s.DrivesOk) : s.permEvent.DrivesOk := h.event

theorem State.DrivesOk.journalInFlight (h : s.DrivesOk) : s.journalInFlight.DrivesOk := by
  refine h.over fun _ _ h => ?_
  split
  · exact h
  · exact .ite h.frame.appendRecs h.frame

theorem State.DrivesOk.enterJournaled (h : s.DrivesOk) : s.enterJournaled.DrivesOk :=
  .urgentCheck (.journalInFlight (.ite h.frame.permEvent.event h.frame.permEvent))

theorem State.DrivesOk.permissionCheck (h : s.DrivesOk) : s.permissionCheck.DrivesOk := by
  unfold State.permissionCheck
  dsimp only
  split
  · exact .ite (.ite h.frame.permEvent.urgentCheck h.enterJournaled) h
  · exact .ite h.enterJournaled (.ite h.frame.urgentCheck h)
  · exact h

theorem State.DrivesOk.permissionFull (h : s.DrivesOk) : s.permissionFull.DrivesOk := by
  unfold State.permissionFull
  split
  · exact h
  · exact .ite h h.frame.permEvent.urgentCheck

theorem State.DrivesOk.limitApplied (h : s.DrivesOk) : s.limitApplied.DrivesOk := .ite h.permissionCheck.urgentCheck h.frame.urgentCheck

theorem State.DrivesOk.reserveCheck (h : s.DrivesOk) {oldKept} : (s.reserveCheck oldKept).DrivesOk := by
  unfold State.reserveCheck
  extract_lets kept new lowered holds _ s₁ s₂ s₃ s₄
  have h₃ : s₃.DrivesOk := h.frame.event.raisePfs.limitApplied
  exact .ite h (.ite h (.ite (.ite h₃.frame h₃.frame.enterJournaled) h₃))

theorem State.DrivesOk.replaceBy (h : s.DrivesOk) {f vol lba r k} : (s.replaceBy f vol lba r k).DrivesOk := by
  unfold State.replaceBy
  split
  · exact h
  · split
    · exact .ite h.frame.holdAll.updFrame.supersede h.supersede
    · exact h.supersede

theorem State.DrivesOk.installFrame (h : s.DrivesOk) {vol v' gen f} : (s.installFrame vol v' gen f).DrivesOk := by
  unfold State.installFrame
  split
  · exact h
  · exact h.replaceBy.frame.updFrame.chainIn

theorem State.DrivesOk.askBits (h : s.DrivesOk) {rs} : (s.askBits rs).DrivesOk := .ite h h.metaStart

theorem State.DrivesOk.install (h : s.DrivesOk) {vol fs} : (s.install vol fs).2.DrivesOk := by
  unfold State.install
  split
  · exact h
  · exact .frame
      (State.DrivesOk.over
         (State.DrivesOk.over (h.frame.over fun _ _ h => h.installFrame) fun _ _ h => h.openParison)
         (fun _ _ h => h.absorbStripe))

theorem State.DrivesOk.commit (h : s.DrivesOk) {acc} : (s.commit acc).DrivesOk := by
  unfold State.commit
  split
  · exact h
  · split
    · exact h
    · exact .via (fun h => .writeCheck (.ite h.frame h)) (.ite h.install.updCmd.appendRecs h.install.updCmd)

theorem State.DrivesOk.tryCommit (h : s.DrivesOk) {acc} : (s.tryCommit acc).DrivesOk := by
  unfold State.tryCommit
  split
  · exact h
  · exact .ite (.ite h.askBits.commit h.askBits) h

theorem State.DrivesOk.startDestage (h : s.DrivesOk) {d fg} : (s.startDestage d fg).DrivesOk := .newTask (.ite h h.frame)

theorem State.DrivesOk.destageNext (h : s.DrivesOk) : s.destageNext.DrivesOk := by
  refine .ite h ?_
  dsimp only
  split
  · exact h.startDestage
  · split
    · exact h
    · exact .ite h.startDestage h

theorem State.DrivesOk.issueUnit (h : s.DrivesOk) {id vol first} : (s.issueUnit id vol first).DrivesOk := by
  unfold State.issueUnit
  split
  · exact h
  · refine .via (fun h => .ite h.freeAll h.newTask) (.foldlSndTo h fun b a c h hc => ?_)
    extract_lets at hc
    split at hc
    · next ht => exact hc ▸ (h.takeFrame ht)
    · exact hc ▸ h

theorem State.DrivesOk.feedStream (h : s.DrivesOk) {id} : (s.feedStream id).DrivesOk := by
  unfold State.feedStream
  split
  · exact h
  · refine .ite h ?_
    split
    next hs => exact .frame (.ofSnd hs (h.foldlSnd fun _ _ h => .iteSnd h.issueUnit h))

theorem State.DrivesOk.cancelUnits (h : s.DrivesOk) {id} : (s.cancelUnits id).DrivesOk := h.over fun _ _ h => h.endTask.frame.deliver

theorem State.DrivesOk.noteStream (h : s.DrivesOk) {vol lba n} : (s.noteStream vol lba n).DrivesOk := by
  unfold State.noteStream
  dsimp only
  split
  · exact h.frame.feedStream
  · exact .frame (.ite h.cancelUnits h)

theorem State.DrivesOk.dropStream (h : s.DrivesOk) {id} : (s.dropStream id).DrivesOk := h.cancelUnits.frame

theorem State.DrivesOk.dropStreams (h : s.DrivesOk) {vol} : (s.dropStreams vol).DrivesOk := h.over fun _ _ h => h.dropStream

theorem State.DrivesOk.orphanUnits (h : s.DrivesOk) : s.orphanUnits.DrivesOk := h.over fun _ _ h => h.cancelUnits

/-- The definition is unfolded as a function: unfolded at its arguments, it would have the kernel evaluate the search for a frame. -/
theorem State.DrivesOk.moveFrame (h : s.DrivesOk) {f x} : (s.moveFrame f x).DrivesOk := by
  have hdef : State.moveFrame = State.moveFrame := rfl
  conv at hdef => rhs; delta State.moveFrame
  rw [hdef]
  beta_reduce
  split
  · exact h
  · next ht => exact (h.takeFrameBut ht).freeFrame.chainIn

theorem State.DrivesOk.emptyChannel (h : s.DrivesOk) {c} : (s.emptyChannel c).DrivesOk :=
  h.moveShare.over fun _ _ h => .ite h (.ite h.freeFrame h.moveFrame)

theorem State.DrivesOk.selfTestEnds (h : s.DrivesOk) {status} : (s.selfTestEnds status).DrivesOk := .ite h h.frame.event.raisePfs

theorem State.DrivesOk.updTest (h : s.DrivesOk) {f} : (s.updTest f).DrivesOk := h.frame

theorem State.DrivesOk.unitTested (h : s.DrivesOk) {i} : (s.unitTested i).DrivesOk := h.frame

theorem State.DrivesOk.rangeStep (h : s.DrivesOk) : s.rangeStep.DrivesOk := by
  unfold State.rangeStep
  split
  · exact h
  · exact h.frame
  · exact .via (fun h => .ite h h.frame) (h.over fun _ _ h => .ite h (.ite h.freeFrame h.moveFrame))

theorem State.DrivesOk.testReads (h : s.DrivesOk) {n} : (testReads n s).DrivesOk := by
  delta Sys2Proof.Machine.testReads
  refine State.DrivesOk.brecOn (fun _ _ h => h) (fun n b ih s h => ?_) n s h
  have turn : ∀ p,
      (testReads._f (n + 1) b { s with mgmt := { s.mgmt with selfTest := { s.mgmt.selfTest with ckpt := p } } }).DrivesOk := by
    intro p
    match p with
    | none => exact h.frame
    | some (_, []) => exact h.frame
    | some (_, a :: l) =>
      refine .ite h.frame ?_
      split
      exact ih _ (.issueOp (.charge (.updTest (.frame h))))
  exact State.with_ckpt s ▸ turn s.mgmt.selfTest.ckpt

theorem State.DrivesOk.testCheckpoint (h : s.DrivesOk) : s.testCheckpoint.DrivesOk := by
  unfold State.testCheckpoint
  dsimp only
  split
  · exact h
  · refine .ite h ?_
    split
    · exact .ite h.frame (.ite h.testReads (.ite h (.ite h.frame h.frame.selfTestEnds)))
    · exact h.frame.testReads

theorem State.DrivesOk.testStep (h : s.DrivesOk) : s.testStep.DrivesOk := .ite h h.frame.rangeStep.testCheckpoint

theorem State.DrivesOk.lateEpochs (h : s.DrivesOk) : s.lateEpochs.DrivesOk :=
  .ite h (h.over fun _ _ h => .ite h (.ite h.frame.sbCleared h.frame))

theorem State.DrivesOk.testTile (h : s.DrivesOk) {t'} : (s.testTile t').DrivesOk := h.over fun _ _ h => h.frame

theorem State.DrivesOk.nextDrain (h : s.DrivesOk) : s.nextDrain.DrivesOk := by
  refine .ite h ?_
  split <;> exact h.frame

theorem State.DrivesOk.drainCheck (h : s.DrivesOk) : s.drainCheck.DrivesOk :=
  .ite h
    (h.nextDrain.over
       (fun _ _ h => .via (fun h => .ite h (.ite h.islandDown.mapOut (.ite h.islandDown h.islandDown.testTile))) (.ite h.emptyChannel h)))

theorem State.DrivesOk.freeVolume (h : s.DrivesOk) {v' x} : (s.freeVolume v' x).DrivesOk :=
  .via (fun h =>
      .via (fun h => .frame (.ite h.volEvent h.volEvent.noteChange)) (.ite h.frame h.frame.logEntries.frame))
    (State.DrivesOk.over
       (.retireNow (.queueRetire (State.DrivesOk.over (.freeAll (.dropStreams (h.over fun _ _ h => h.endTask))) fun _ _ h => h.closeParison)))
       (fun _ _ h => h.frame.updRegion))

theorem State.DrivesOk.deleteCheck (h : s.DrivesOk) : s.deleteCheck.DrivesOk := by
  refine h.over fun _ _ h => .via (fun h => .ite h h.finish) ?_
  split
  · exact .ite h.freeVolume h
  · exact h

theorem State.DrivesOk.spareChecks (h : s.DrivesOk) : s.spareChecks.DrivesOk := .ite h (h.over fun _ _ h => h.spareCheck)

theorem State.DrivesOk.pinRetry (h : s.DrivesOk) : s.pinRetry.DrivesOk :=
  State.DrivesOk.over (h.over fun _ _ h => h.frame) fun _ _ h => h.absorbIssue

theorem State.DrivesOk.dumpDone (h : s.DrivesOk) : s.dumpDone.DrivesOk := .ite h.releaseDump h

theorem State.DrivesOk.noteActivity (h : s.DrivesOk) : s.noteActivity.DrivesOk := .ite h.frame h.frame.metaStart

theorem State.DrivesOk.starveNote (h : s.DrivesOk) : s.starveNote.DrivesOk := h.frame

theorem State.DrivesOk.slotWatch (h : s.DrivesOk) : s.slotWatch.DrivesOk := h.over fun _ _ h => .ite h.frame h.frame

theorem State.DrivesOk.run (h : s.DrivesOk) : s.run.DrivesOk :=
  h.settle.deleteCheck.orphanUnits.pinRetry.noteActivity.settle.drainCheck.testStep.lateEpochs.pump.dumpDone.memberChecks
    |>.journalPressure.urgentCheck.stallNote.suspectCheck.spareChecks.slotWatch.starveNote

theorem State.DrivesOk.keepVault (h : t.DrivesOk) : (s.keepVault t).DrivesOk := h.reserveCheck.run.frame

theorem NextDrives.vaultAct (h : t.DrivesOk) : NextDrives (vaultAct s t) := .next h.keepVault

/-! ### Starting a command -/

theorem State.DrivesOk.start (h : s.DrivesOk) {acc op sub} {f : Cmd → State} (hf : ∀ b, (f b).DrivesOk) :
    (s.start acc op sub f).DrivesOk := by
  unfold State.start
  split
  · exact hf _
  · exact h

theorem State.DrivesOk.reply (h : s.DrivesOk) {c page result} : (s.reply c page result).DrivesOk := .ite h (.finish (.ite h h.hostWrite))

theorem State.DrivesOk.check (h : s.DrivesOk) (ht : t.DrivesOk) {c bad} : (s.check c bad t).DrivesOk := by
  unfold State.check
  split
  · exact h.finish
  · exact ht

end

end Sys2Proof.Machine
end

section
/-! PROOFS. The power die's outputs in features, gauge and the pass at a power loss. -/

namespace Sys2Proof.Machine

open Sys2Proof

section

variable {s t u v : State}

/-! ### Pages -/

theorem State.DrivesOk.saveSeries (h : s.DrivesOk) : s.saveSeries.DrivesOk := .ite h h.vprogram

theorem NextDrives.execIdentifyModule (h : s.DrivesOk) {acc} : NextDrives (execIdentifyModule acc s) := .act (h.start fun _ => h.reply)

theorem NextDrives.execIdentifyVolumes (h : s.DrivesOk) {acc} : NextDrives (execIdentifyVolumes acc s) := .act (h.start fun _ => h.reply)

theorem NextDrives.execIdentifyTemplate (h : s.DrivesOk) {acc} : NextDrives (execIdentifyTemplate acc s) := by
  refine .act (h.start fun _ => ?_)
  dsimp only
  split
  · exact h.reply
  · exact h.finish

theorem NextDrives.execGetLog (h : s.DrivesOk) {acc} : NextDrives (execGetLog acc s) := .act (h.start fun _ => h.reply)

/-! ### Features -/

theorem State.DrivesOk.setFeature (h : s.DrivesOk) {acc id} {f : Cmd → State} (hf : ∀ b, (f b).DrivesOk) :
    (s.setFeature acc id f).DrivesOk :=
  h.start fun _ => hf _

theorem NextDrives.setDevice (h : s.DrivesOk) {acc id put} {after : State → State} (hafter : ∀ s, s.DrivesOk → (after s).DrivesOk) :
    NextDrives (setDevice acc id s put after) := by
  unfold Sys2Proof.Machine.setDevice
  split
  · exact .next h
  · exact .actSet (hafter _ h.frame).finish.run

theorem State.DrivesOk.setVolume (h : s.DrivesOk) {c f} : (s.setVolume c f).DrivesOk := h.frame.noteVolume.finishLogged

theorem State.DrivesOk.setPool (h : s.DrivesOk) {c f} : (s.setPool c f).DrivesOk := h.frame.noteChange.finishLogged

theorem NextDrives.execSetFeatureAckMode (h : s.DrivesOk) {acc} : NextDrives (execSetFeatureAckMode acc s) :=
  .act (.run (h.setFeature fun _ => h.setVolume))

theorem NextDrives.execSetFeatureAgeLimit (h : s.DrivesOk) {acc} : NextDrives (execSetFeatureAgeLimit acc s) :=
  .act (.run (h.setFeature fun _ => h.setVolume))

theorem NextDrives.execSetFeatureLossAck (h : s.DrivesOk) {acc} : NextDrives (execSetFeatureLossAck acc s) := by
  refine .act (.run (h.setFeature fun _ => ?_))
  dsimp only
  split
  · exact h.finish
  · exact .ite h.finish h.volEvent.frame.noteVolume.finishLogged

theorem NextDrives.execSetFeatureDirtyLimit (h : s.DrivesOk) {acc} : NextDrives (execSetFeatureDirtyLimit acc s) :=
  .setDevice h fun _ h => h.limitApplied

theorem NextDrives.execSetFeatureHedge (h : s.DrivesOk) {acc} : NextDrives (execSetFeatureHedge acc s) :=
  .act (.run (h.setFeature fun _ => h.setPool))

theorem NextDrives.execSetFeatureHardTimeout (h : s.DrivesOk) {acc} : NextDrives (execSetFeatureHardTimeout acc s) :=
  .act (.run (h.setFeature fun _ => h.setPool))

theorem NextDrives.execSetFeatureMediaThreshold (h : s.DrivesOk) {acc} : NextDrives (execSetFeatureMediaThreshold acc s) :=
  .act (.run (h.setFeature fun _ => h.setPool))

theorem NextDrives.execSetFeatureScrubPeriod (h : s.DrivesOk) {acc} : NextDrives (execSetFeatureScrubPeriod acc s) :=
  .act (.run (h.setFeature fun _ => h.setPool))

theorem NextDrives.execSetFeaturePatrolPeriod (h : s.DrivesOk) {acc} : NextDrives (execSetFeaturePatrolPeriod acc s) := .setDevice h fun _ h => h

theorem NextDrives.execSetFeatureRefreshThreshold (h : s.DrivesOk) {acc} : NextDrives (execSetFeatureRefreshThreshold acc s) :=
  .setDevice h fun _ h => h

theorem NextDrives.execSetFeatureTagBudget (h : s.DrivesOk) {acc} : NextDrives (execSetFeatureTagBudget acc s) :=
  .act (.run (h.setFeature fun _ => h.frame.pump.finish))

theorem NextDrives.execSetFeatureClassWeights (h : s.DrivesOk) {acc} : NextDrives (execSetFeatureClassWeights acc s) := .setDevice h fun _ h => h

theorem NextDrives.execSetFeatureMaxClass (h : s.DrivesOk) {acc} : NextDrives (execSetFeatureMaxClass acc s) :=
  .act (.run (h.setFeature fun _ => h.frame.finish))

theorem NextDrives.execSetFeatureRateLimit (h : s.DrivesOk) {acc} : NextDrives (execSetFeatureRateLimit acc s) :=
  .act (.run (h.setFeature fun _ => h.frame.finish))

theorem NextDrives.execSetFeatureStallTimeout (h : s.DrivesOk) {acc} : NextDrives (execSetFeatureStallTimeout acc s) := .setDevice h fun _ h => h

theorem NextDrives.execSetFeatureExportWait (h : s.DrivesOk) {acc} : NextDrives (execSetFeatureExportWait acc s) := .setDevice h fun _ h => h

theorem NextDrives.execSetFeatureTimeBase (h : s.DrivesOk) {acc} : NextDrives (execSetFeatureTimeBase acc s) :=
  .setDevice h fun _ h => .ite h h.frame.event.frame

theorem NextDrives.execGetFeature (h : s.DrivesOk) {acc} : NextDrives (execGetFeature acc s) := .act (.run (h.start fun _ => h.reply))

theorem NextDrives.execRingCreateSubmission (h : s.DrivesOk) {acc} : NextDrives (execRingCreateSubmission acc s) :=
  .act (.run (h.start fun _ => h.check h.frame.finish))

theorem NextDrives.execRingCreateCompletion (h : s.DrivesOk) {acc} : NextDrives (execRingCreateCompletion acc s) :=
  .act (.run (h.start fun _ => h.check h.frame.finish))

/-! ### The gauge -/

/-- A change of the power die that keeps its outputs as they may be. -/
theorem State.DrivesOk.mapPack (h : s.DrivesOk) {f} (keeps : s.pack.drivesOk = true → (f s.pack).drivesOk = true) :
    (s.updPack f).DrivesOk :=
  ⟨keeps h.drives⟩

/-- A change of the power die beside its outputs. -/
theorem State.DrivesOk.updPack (h : s.DrivesOk) {st decl present fetClosed reading vinMv lowVin inputMw limited inputSwitch overVolt uvlo lowSince
    highSince termSince coolSince volts vinGoodSince vinRangeSince vinFell shipCancelled stateAt chargeStart holdCause q counting provisional
    capUnverified learnOverdue learnPending cLearned valid rest restTaken movedAt counted learnTime overdueAt learnCount rejectCount throughput
    fullTime emptyTime dieSeconds dieAt eAvailMj w1 w2 w3 strobe crossing bankA bankB lastBankB mirrorDue storeAt storing supplyFault thermalTrip
    heldSamples heldExtremes episode heldEvents} :
    State.DrivesOk { s with
      pack := { s.pack with
        st := st, decl := decl, present := present, fetClosed := fetClosed, reading := reading, vinMv := vinMv, lowVin := lowVin,
        inputMw := inputMw, limited := limited, inputSwitch := inputSwitch, overVolt := overVolt, uvlo := uvlo, lowSince := lowSince,
        highSince := highSince, termSince := termSince, coolSince := coolSince, volts := volts, vinGoodSince := vinGoodSince,
        vinRangeSince := vinRangeSince, vinFell := vinFell, shipCancelled := shipCancelled, stateAt := stateAt, chargeStart := chargeStart,
        holdCause := holdCause, q := q, counting := counting, provisional := provisional, capUnverified := capUnverified,
        learnOverdue := learnOverdue, learnPending := learnPending, cLearned := cLearned, valid := valid, rest := rest, restTaken := restTaken,
        movedAt := movedAt, counted := counted, learnTime := learnTime, overdueAt := overdueAt, learnCount := learnCount,
        rejectCount := rejectCount, throughput := throughput, fullTime := fullTime, emptyTime := emptyTime, dieSeconds := dieSeconds,
        dieAt := dieAt, eAvailMj := eAvailMj, w1 := w1, w2 := w2, w3 := w3, strobe := strobe, crossing := crossing, bankA := bankA,
        bankB := bankB, lastBankB := lastBankB, mirrorDue := mirrorDue, storeAt := storeAt, storing := storing, supplyFault := supplyFault,
        thermalTrip := thermalTrip, heldSamples := heldSamples, heldExtremes := heldExtremes, episode := episode, heldEvents := heldEvents } } :=
  ⟨h.drives⟩

theorem State.DrivesOk.reads (h : s.DrivesOk) {r now} : (s.updPack fun p => p.reads r now).DrivesOk := h.mapPack (Pack.drivesOk_reads ..).trans

theorem State.DrivesOk.dieEvent (h : s.DrivesOk) {code p1 p2 p3} : (s.dieEvent code p1 p2 p3).DrivesOk := .ite h.updPack h.event

theorem State.DrivesOk.cross (h : s.DrivesOk) {bit} : (s.cross bit).DrivesOk := .ite h h.updPack.raisePfs

theorem State.DrivesOk.packCrossed (h : s.DrivesOk) : s.packCrossed.DrivesOk := h.over fun _ _ h => .ite h.frame h

theorem State.DrivesOk.warn (h : s.DrivesOk) {level asserted} : (s.warn level asserted).DrivesOk :=
  .via (fun h => .ite h h.alert) (.ite h.dieEvent.cross.packCrossed h.dieEvent.cross)

theorem State.DrivesOk.mirrorGauge (h : s.DrivesOk) : s.mirrorGauge.DrivesOk := .ite h (h.updPack.over fun _ _ h => h.vprogram)

theorem State.DrivesOk.storeGauge (h : s.DrivesOk) : s.storeGauge.DrivesOk :=
  .mirrorGauge (h.mapPack fun h => by dsimp only; split <;> exact h)

theorem State.DrivesOk.setFlags (h : s.DrivesOk) {f} (beside : (f s.pack).drivesOk = s.pack.drivesOk) : (s.setFlags f).DrivesOk :=
  .ite (h.mapPack beside.trans) (h.mapPack beside.trans).storeGauge

theorem State.DrivesOk.setPending (h : s.DrivesOk) {x} : (s.setFlags fun p => { p with learnPending := x }).DrivesOk := h.setFlags rfl

theorem State.DrivesOk.setUnverified (h : s.DrivesOk) {x} : (s.setFlags fun p => { p with capUnverified := x }).DrivesOk := h.setFlags rfl

theorem State.DrivesOk.setOverdue (h : s.DrivesOk) {x at_} :
    (s.setFlags fun p => { p with learnOverdue := x, overdueAt := at_ }).DrivesOk :=
  h.setFlags rfl

theorem State.DrivesOk.setConverter (h : s.DrivesOk) {mv} (works : s.pack.mayConvert mv) : (s.setConverter mv).DrivesOk := by
  have h₁ : (s.updPack fun p => { p with converter := mv }).DrivesOk := h.mapPack (Pack.drivesOk_converter works)
  refine .ite h ?_
  dsimp only
  split
  · exact .ite h₁.emit h₁.emit.frame
  · exact h₁.emit

theorem State.setConverter_pack_running (s : State) (mv : Nat) : (s.setConverter mv).pack.running = s.pack.running := by
  unfold State.setConverter
  split
  · rfl
  · dsimp only
    split
    · split <;> rfl
    · rfl

theorem State.DrivesOk.setCharger (h : s.DrivesOk) {x} (works : s.pack.running = true ∨ x = (0, 0)) : (s.setCharger x).DrivesOk :=
  .ite h (.emit (h.mapPack (Pack.drivesOk_charger works)))

theorem State.DrivesOk.converterCheck (h : s.DrivesOk) : s.converterCheck.DrivesOk := by
  refine (h.setConverter ?_).setCharger ((Pack.wantsCharger_works _).imp_left (State.setConverter_pack_running ..).trans)
  split
  · exact Pack.mayConvert_wantsConverter ..
  · exact .inl rfl

theorem State.DrivesOk.packTo (h : s.DrivesOk) {st} : (s.packTo st).DrivesOk := h.updPack.converterCheck

theorem State.DrivesOk.toIdentify (h : s.DrivesOk) : s.toIdentify.DrivesOk := h.packTo

theorem State.DrivesOk.toCharge (h : s.DrivesOk) {st} : (s.toCharge st).DrivesOk := h.updPack.packTo

theorem State.DrivesOk.checkW3 (h : s.DrivesOk) : s.checkW3.DrivesOk := .ite h.updPack.warn (.ite h.updPack.warn h)

theorem State.DrivesOk.learnEnds (h : s.DrivesOk) {result cMeas} : (s.learnEnds result cMeas).DrivesOk :=
  h.updPack.setPending.dieEvent.cross

theorem State.DrivesOk.learnAbort (h : s.DrivesOk) : s.learnAbort.DrivesOk := .ite h.learnEnds h

theorem State.DrivesOk.vinReads (h : s.DrivesOk) {mv} : (s.vinReads mv).DrivesOk :=
  .ite h.updPack.learnAbort.packTo h.updPack.converterCheck

theorem State.DrivesOk.learnStart (h : s.DrivesOk) : s.learnStart.DrivesOk := h.packTo

theorem State.DrivesOk.evaluate (h : s.DrivesOk) : s.evaluate.DrivesOk :=
  .via (fun h =>
      .checkW3 (.ite h.updPack.warn (.ite h.updPack.warn h)))
    (.ite h.updPack.updPack.warn (.ite h.updPack.updPack.warn h.updPack))

theorem State.DrivesOk.countBreak (h : s.DrivesOk) : s.countBreak.DrivesOk := h.updPack

theorem State.DrivesOk.countLife (h : s.DrivesOk) {series v' bin inst} : (s.countLife series v' bin inst).DrivesOk :=
  .ite h.updPack h.frame

theorem State.DrivesOk.countBits (h : s.DrivesOk) {d l} : (s.countBits d l).DrivesOk := by
  refine h.over fun _ _ h => ?_
  split
  · exact h.frame.countLife
  · exact h

theorem State.DrivesOk.countSegments (h : s.DrivesOk) {l after} : (s.countSegments l after).DrivesOk := h.over fun _ _ h => h.countBits

theorem State.DrivesOk.countAt (h : s.DrivesOk) {l} : (s.countAt l).DrivesOk := h.over fun _ _ h => h.countBits

theorem State.DrivesOk.episodeEnds (h : s.DrivesOk) : s.episodeEnds.DrivesOk := by
  unfold State.episodeEnds
  split
  · exact h
  · exact h.updPack.countLife

theorem State.DrivesOk.anchor (h : s.DrivesOk) {empty mc} : (s.anchor empty mc).DrivesOk := h.episodeEnds.updPack.dieEvent.storeGauge

theorem State.DrivesOk.resetLearned (h : s.DrivesOk) : s.resetLearned.DrivesOk := .storeGauge (.updPack (.ite h.learnAbort.toCharge h))

theorem State.DrivesOk.declare (h : s.DrivesOk) {d} : (s.declare d).DrivesOk := by
  refine .ite h ?_
  dsimp only
  split
  · exact .ite h.updPack.resetLearned.updPack.packTo h.updPack.resetLearned.packTo
  · exact h.updPack.resetLearned.packTo
  · exact h.updPack.resetLearned.converterCheck

theorem State.DrivesOk.shipOpen (h : s.DrivesOk) : s.shipOpen.DrivesOk := h.storeGauge.countBreak.updPack.emit.packTo.dieEvent.checkW3

theorem State.DrivesOk.dieCheck (h : s.DrivesOk) : s.dieCheck.DrivesOk := .ite ⟨rfl⟩ h

/-! ### The pass at a power loss -/

theorem State.DrivesOk.hostCleared (h : s.DrivesOk) : s.hostCleared.DrivesOk := by
  unfold State.hostCleared
  exact h.frame

theorem State.DrivesOk.clearRecords (h : s.DrivesOk) {pf} : (s.clearRecords pf).DrivesOk := h.frame.over fun _ _ h => h.frame

theorem State.DrivesOk.clearBegun (h : s.DrivesOk) : s.clearBegun.DrivesOk := .ite h.clearRecords h

theorem State.DrivesOk.discardGather (h : s.DrivesOk) {c reason} : (s.discardGather c reason).DrivesOk :=
  .ite h.frame.unpin.fnEvent h.frame.unpin

theorem State.DrivesOk.hbLow (h : s.DrivesOk) : s.hbLow.DrivesOk := .ite h.frame.emit h

theorem State.DrivesOk.jobsOver (h : s.DrivesOk) : s.jobsOver.DrivesOk := by
  refine .via (fun h => h.over fun _ _ h => .ite h.frame.unhold h.closeParison) (h.over fun _ _ h => ?_)
  split
  · exact h.absorbAdd
  · exact h

theorem State.DrivesOk.unitsOver (h : s.DrivesOk) : s.unitsOver.DrivesOk := h.over fun _ _ h => h.endTask.frame

theorem State.DrivesOk.gateIsland (h : s.DrivesOk) {i status} : (s.gateIsland i status).DrivesOk := .ite h (.ite h.frame h.frame)

theorem State.DrivesOk.gateAll (h : s.DrivesOk) {cause} : (s.gateAll cause).DrivesOk := h.over fun _ _ h => h.gateIsland

theorem State.DrivesOk.startLehr (h : s.DrivesOk) {cause} : (s.startLehr cause).DrivesOk := by
  unfold State.startLehr
  extract_lets s₁ t s₂ s₃ keepHost s₄ sram _ s₅
  have h₂ : s₂.DrivesOk := h.selfTestEnds.over fun _ _ h => .ite h h.discardGather
  have h₃ : s₃.DrivesOk := .jobsOver (.unitsOver h₂.frame)
  have h₄ : s₄.DrivesOk := .ite h₃ h₃.hostCleared
  have h₅ : s₅.DrivesOk := h₄.frame
  exact .ite h (.converterCheck (.gateAll (.hbLow (.ite h₅ h₅.endAlert))))

theorem State.DrivesOk.cutMapLog (h : s.DrivesOk) : s.cutMapLog.DrivesOk := by
  unfold State.cutMapLog
  dsimp only
  split <;> exact h.frame

theorem State.DrivesOk.storeNow (h : s.DrivesOk) {b page content} : (s.storeNow b page content).DrivesOk := h.storeSectors

theorem State.DrivesOk.passPage (h : s.DrivesOk) {fails p fuel n} : (passPage fails p fuel n s).2.2.DrivesOk := by
  induction fuel generalizing s n with
  | zero => exact h
  | succ fuel ih =>
    rw [Sys2Proof.Machine.passPage]
    split
    · exact h
    · next ht => exact .iteSndSnd (ih (h.pageFor ht).setVblk.frame) (h.pageFor ht).storeNow

theorem State.DrivesOk.pagesNow (h : s.DrivesOk) {n fails content} : (State.pagesNow (n, s) fails content).2.2.DrivesOk :=
  State.DrivesOk.foldlSndSnd h fun _ _ h => h.passPage

theorem State.DrivesOk.recordNow (h : s.DrivesOk) {n fails l} : (State.recordNow (n, s) fails l).2.DrivesOk := by
  unfold State.recordNow
  extract_lets v content _ s₁
  have h₁ : s₁.DrivesOk := h.frame
  split
  next n left s₂ hs =>
    have h₂ : s₂.DrivesOk := .ofSndSnd hs h₁.pagesNow
    exact h₂.frame

theorem State.DrivesOk.commitNow (h : s.DrivesOk) {n fails l} : (State.commitNow (n, s) fails l).2.DrivesOk :=
  .iteSnd h.recordNow h.recordNow.recordNow

theorem State.DrivesOk.opensNow (h : s.DrivesOk) {n fails k} : (opensNow fails k (n, s)).2.DrivesOk := by
  induction k generalizing s n with
  | zero => exact h
  | succ k ih =>
    rw [Sys2Proof.Machine.opensNow]
    exact .iteSnd h (ih h.commitNow)

theorem State.DrivesOk.retiredNow (h : s.DrivesOk) {b} : (s.retiredNow b).DrivesOk := h.frame.event.percentUpdate

theorem State.DrivesOk.emptyNow (h : s.DrivesOk) {n fails b} : (State.emptyNow fails (n, s) b).2.DrivesOk := by
  unfold State.emptyNow
  extract_lets src
  split
  next n left s₁ hs =>
    have h₁ : s₁.DrivesOk := .ofSndSnd hs h.pagesNow
    refine .iteSnd h₁ ?_
    extract_lets pages
    split
    next n' s₂ hs₂ =>
      have h₂ : s₂.DrivesOk := .ofSnd hs₂ h₁.commitNow
      exact h₂.retiredNow.dropSectors

theorem State.DrivesOk.retireAllNow (h : s.DrivesOk) {n fails k} : (retireAllNow fails k (n, s)).2.DrivesOk := by
  induction k generalizing s n with
  | zero => exact h
  | succ k ih =>
    rw [Sys2Proof.Machine.retireAllNow]
    split
    · exact h
    · exact ih h.frame.emptyNow

theorem State.DrivesOk.openDump (h : s.DrivesOk) {opened failed logFails} : (s.openDump opened failed logFails).DrivesOk := by
  unfold State.openDump
  extract_lets _ s₁
  have h₁ : s₁.DrivesOk := h.frame
  split
  next n s₂ hs₂ =>
    have h₂ : s₂.DrivesOk := .ofSnd hs₂ (.foldlSnd h₁ fun _ _ h => h.commitNow)
    extract_lets s₃
    have h₃ : s₃.DrivesOk := h₂.over fun _ _ h => h.frame
    split
    next n' s₄ hs₄ =>
      have h₄ : s₄.DrivesOk := .ofSnd hs₄ (.iteSnd h₃ h₃.commitNow)
      extract_lets s₅
      have h₅ : s₅.DrivesOk := h₄.over fun _ _ h => h.frame.retiredNow
      split
      next n'' s₆ hs₆ =>
        have h₆ : s₆.DrivesOk := .ofSnd hs₆ h₅.retireAllNow.opensNow
        exact h₆.frame

theorem State.DrivesOk.storeDump (h : s.DrivesOk) {seq blocks segments} : (s.storeDump seq blocks segments).DrivesOk := by
  refine h.over fun _ _ h => ?_
  split
  · exact h.storeNow
  · exact h

theorem State.DrivesOk.writeDump (h : s.DrivesOk) {l durationUs packMj sealed_ failed} :
    (s.writeDump l durationUs packMj sealed_ failed).DrivesOk := by
  unfold State.writeDump
  extract_lets s₁ s₂ c regions j0 j1 total bad room entries parisons table sections head n kept need order good opened after nextSeq s₃
    seq d₀ all body segments d
  have h₂ : s₂.DrivesOk := h.cutMapLog.frame
  have h₃ : s₃.DrivesOk := h₂.openDump
  clear_value d segments s₃
  exact h₃.storeDump.frame

theorem State.DrivesOk.dieReset (h : s.DrivesOk) {until_} : (s.dieReset until_).DrivesOk := by
  unfold State.dieReset
  extract_lets s₁ keep _ _ s₂
  have h₁ : s₁.DrivesOk := h.selfTestEnds
  have h₂ : s₂.DrivesOk := .ite (h₁.over fun _ _ h => h.gateIsland) h₁.hostCleared.endAlert.frame
  exact .ite h h₂.frame.converterCheck.emit

theorem State.DrivesOk.railsFall (h : s.DrivesOk) : s.railsFall.DrivesOk :=
  .dieCheck ⟨(h.dieReset.hostCleared.setConverter (.inl rfl)).drives⟩

theorem State.DrivesOk.puntyActs (h : s.DrivesOk) {l isSealed} : (s.puntyActs l isSealed).DrivesOk :=
  .via (fun h =>
      .ite h.railsFall
        (.ite h.dieReset
          (.ite (.ite h.setState.dieReset h.frame.converterCheck)
            (.ite h.dieReset h.frame.converterCheck))))
    (.ite h.shipOpen h)

theorem State.DrivesOk.passUnsealed (h : s.DrivesOk) {l} : (s.passUnsealed l).DrivesOk := .ite h.puntyActs h.writeDump.puntyActs

theorem State.DrivesOk.converterLost (h : s.DrivesOk) : s.converterLost.DrivesOk := by
  refine .ite h ?_
  split
  · exact h.passUnsealed
  · exact h.railsFall

theorem State.DrivesOk.failWith (h : s.DrivesOk) {cause} : (s.failWith cause).DrivesOk :=
  .ite h (.via (fun h => .ite h.startLehr h.frame) h.frame.setState.alert.hbLow)

theorem State.DrivesOk.failDevice (h : s.DrivesOk) : s.failDevice.DrivesOk := h.failWith

theorem State.DrivesOk.fatalInternal (h : s.DrivesOk) {cause island} : (s.fatalInternal cause island).DrivesOk :=
  .ite h.event h.event.failWith

theorem State.DrivesOk.beginMapOut (h : s.DrivesOk) {i} : (s.beginMapOut i).DrivesOk :=
  .ite h (.ite h.fatalInternal (.ite h.fatalInternal (.ite h.mapOut h.frame.drainCheck)))

theorem State.DrivesOk.channelWindow (h : s.DrivesOk) {i} : (s.channelWindow i).DrivesOk := .ite h.frame.beginMapOut h.frame

theorem State.DrivesOk.channelWord (h : s.DrivesOk) {c area} : (s.channelWord c area).DrivesOk := h.wordBad.channelWindow

theorem State.DrivesOk.fencePort (h : s.DrivesOk) {p} : (s.fencePort p).DrivesOk := .ite h h.frame

theorem State.DrivesOk.fenceReleased (h : s.DrivesOk) {p ok} : (s.fenceReleased p ok).DrivesOk := .ite h h.frame.gateIsland

theorem State.DrivesOk.fence (h : s.DrivesOk) {by_} : (s.fence by_).DrivesOk := by
  unfold State.fence
  extract_lets st pass s₁ _ s₂ s₃ s₄ _ s₅
  have h₁ : s₁.DrivesOk := .ite h.event.raisePfs h
  have h₃ : s₃.DrivesOk := h₁.frame.setState.hbLow
  have h₄ : s₄.DrivesOk := h₃.startLehr
  have h₅ : s₅.DrivesOk := h₄.frame
  exact .ite h (.ite (h₅.over fun _ _ h => h.fencePort) h₃)

end

end Sys2Proof.Machine
end

section
/-! PROOFS. The power die's outputs in power, governor, drives and slots. -/

namespace Sys2Proof.Machine

open Sys2Proof

section

variable {s t u v : State}

/-! ### Power -/

theorem State.DrivesOk.energyChanged (h : s.DrivesOk) : s.energyChanged.DrivesOk := .ite h h.frame.permissionCheck

theorem NextDrives.execStatusFrame (h : s.DrivesOk) {frame} : NextDrives (execStatusFrame frame s) :=
  .act (.ite h (.ite h.vinReads.updPack h.vinReads.updPack.frame.energyChanged.run))

theorem NextDrives.execStatusFrameTimeout (h : s.DrivesOk) : NextDrives (execStatusFrameTimeout s) := .act (.ite h h.frame.energyChanged.run)

theorem NextDrives.execPackEnergyAvailable (h : s.DrivesOk) : NextDrives (execPackEnergyAvailable s) := by
  refine .act ?_
  split
  · exact h
  · exact .ite h h.frame.energyChanged.run

theorem NextDrives.execPowerFailDetect (h : s.DrivesOk) {vinMv} : NextDrives (execPowerFailDetect vinMv s) :=
  .act (.ite h (.via (fun h => .ite h.converterLost h) h.vinReads.updPack.emit))

theorem NextDrives.execVinOvervoltage (h : s.DrivesOk) {vinMv} : NextDrives (execVinOvervoltage vinMv s) :=
  .act (.ite h h.updPack.emit.converterCheck.dieEvent.emit)

theorem NextDrives.execVinReturnInRange (h : s.DrivesOk) : NextDrives (execVinReturnInRange s) :=
  .act (.ite h (.converterCheck (.ite h.updPack.emit h.updPack.emit.frame)))

theorem NextDrives.execVinBelowHoldup (h : s.DrivesOk) {vinMv} : NextDrives (execVinBelowHoldup vinMv s) := .act (.ite h h.vinReads)

theorem NextDrives.execVinAboveHoldup (h : s.DrivesOk) : NextDrives (execVinAboveHoldup s) :=
  .act (.ite h (.ite h.updPack.packTo h.updPack.converterCheck))

theorem NextDrives.execHoldupUvlo (h : s.DrivesOk) : NextDrives (execHoldupUvlo s) :=
  .act (.ite h h.updPack.converterCheck.dieEvent.checkW3.converterLost)

theorem NextDrives.execHoldupUvloRecover (h : s.DrivesOk) : NextDrives (execHoldupUvloRecover s) := .act (.ite h h.updPack.converterCheck.checkW3)

theorem NextDrives.execPackPresenceChange (h : s.DrivesOk) {present} : NextDrives (execPackPresenceChange present s) :=
  .act
    (.ite h
       (.ite (.via (fun h => .ite h.dieEvent h) (.ite h.updPack.packTo h.updPack))
          (.via (fun h => .dieCheck (.checkW3 (.cross (.dieEvent (.setUnverified (.ite h h.packTo)))))) h.learnAbort.countBreak.updPack)))

theorem NextDrives.execIdentifyComplete (h : s.DrivesOk) {reading} : NextDrives (execIdentifyComplete reading s) :=
  .act
    (.ite h
       (.ite h.reads.packTo.dieEvent.cross
          (.ite h.reads (.via (fun h => .ite h.updPack.packTo (.ite h.toCharge h.toCharge)) (.ite h.reads h.reads.updPack)))))

theorem NextDrives.execChargePhaseChange (h : s.DrivesOk) {reading} : NextDrives (execChargePhaseChange reading s) :=
  .act (.ite h (.ite h.reads.packTo (.ite h.reads.packTo h.reads)))

theorem NextDrives.execChargeTermination (h : s.DrivesOk) : NextDrives (execChargeTermination s) := .act (.ite h h.packTo.anchor.checkW3)

theorem NextDrives.execRechargeNeeded (h : s.DrivesOk) {reading} : NextDrives (execRechargeNeeded reading s) :=
  .act (.ite h (.ite h.reads.toCharge h.reads))

theorem NextDrives.execChargeEnd (h : s.DrivesOk) {cause} : NextDrives (execChargeEnd cause s) := .act (.ite h h.updPack.packTo.warn)

theorem NextDrives.execChargeHoldRelease (h : s.DrivesOk) : NextDrives (execChargeHoldRelease s) := .act (.ite h.packTo h)

theorem NextDrives.execLearnDischargeDone (h : s.DrivesOk) : NextDrives (execLearnDischargeDone s) := .act (.ite h.packTo h)

theorem NextDrives.execLearnRestTimeout (h : s.DrivesOk) : NextDrives (execLearnRestTimeout s) := .act (.ite h.learnEnds.toCharge h)

theorem NextDrives.execEavailCompute (h : s.DrivesOk) {reading} : NextDrives (execEavailCompute reading s) :=
  .act (.ite h (.ite h.reads.evaluate.learnAbort.toCharge h.reads.evaluate))

theorem State.DrivesOk.draws (h : s.DrivesOk) {out} : (s.draws out).DrivesOk := by
  unfold State.draws
  split
  · exact .ite h h.frame
  · exact h

theorem NextDrives.execChargeCountSample (h : s.DrivesOk) {currentMa} : NextDrives (execChargeCountSample currentMa s) :=
  .act (.ite h (h.draws.mapPack (Pack.drivesOk_flows ..).trans))

theorem State.DrivesOk.learnAt (h : s.DrivesOk) {a mv} : (s.learnAt a mv).2.DrivesOk := .iteSnd h (.iteSnd h h.updPack.storeGauge)

theorem NextDrives.execRestPoint (h : s.DrivesOk) {reading} : NextDrives (execRestPoint reading s) := by
  refine .act (.ite h (.ite (h.mapPack (Pack.drivesOk_reads ..).trans) ?_))
  extract_lets s₁
  have h₁ : s₁.DrivesOk := h.episodeEnds.mapPack (Pack.drivesOk_reads ..).trans
  split
  next r s₂ hs =>
    have h₂ : s₂.DrivesOk := by
      split at hs
      · exact .ofSnd hs h₁.learnAt
      · exact (Prod.mk.inj hs).2 ▸ h₁
    extract_lets s₃ s₄ die s₅
    have h₃ : s₃.DrivesOk := by
      unfold s₃
      split
      · exact .ite h₂.learnEnds.toCharge (.dieEvent (.ite h₂.updPack.storeGauge h₂))
      · exact .ite h₂.learnEnds.toCharge h₂
    have h₄ : s₄.DrivesOk := .ite h₃.anchor h₃
    exact .ite h₄.updPack.learnStart h₄.updPack

theorem NextDrives.execLearnOverdue (h : s.DrivesOk) : NextDrives (execLearnOverdue s) := .act (.ite h h.setOverdue.dieEvent)

theorem NextDrives.execGaugeStorePeriodic (h : s.DrivesOk) : NextDrives (execGaugeStorePeriodic s) := .act (.ite h.storeGauge h)

theorem NextDrives.execPackSample (h : s.DrivesOk) {reading} : NextDrives (execPackSample reading s) :=
  .act (.ite h (.ite h.countLife.countLife.countLife h.countLife.countLife))

theorem NextDrives.execPowerDieStart (h : s.DrivesOk) : NextDrives (execPowerDieStart s) :=
  .act
    (.ite h
       (.via (fun h =>
           .via (fun h => .ite h (.ite h.packTo (.ite h.packTo h.packTo)))
             (.ite h.updPack.dieEvent (.ite h.updPack.dieEvent h.updPack.dieEvent)))
         (h.countBreak.mapPack Pack.drivesOk_running)))

theorem NextDrives.execShipCleanReport (h : s.DrivesOk) : NextDrives (execShipCleanReport s) := .act (.ite h.shipOpen.dieCheck h)

theorem NextDrives.execShipReconnect (h : s.DrivesOk) : NextDrives (execShipReconnect s) := by
  refine .act ?_
  split
  · exact h
  · exact .ite h h.updPack.emit.toIdentify.dieEvent

theorem NextDrives.execPackReplaced (h : s.DrivesOk) {acc} : NextDrives (execPackReplaced acc s) :=
  .act (.run (h.start fun _ => .ite h.finish (.finish (.ite h.resetLearned.dieEvent.packTo h.resetLearned.dieEvent))))

theorem NextDrives.execPackLearn (h : s.DrivesOk) {acc} : NextDrives (execPackLearn acc s) :=
  .act (.run (h.start fun _ => .ite h.finish (.finish (.ite h.setPending.learnStart h.setPending))))

theorem NextDrives.execPackLearnAbort (h : s.DrivesOk) {acc} : NextDrives (execPackLearnAbort acc s) :=
  .act (.run (h.start fun _ => .ite h.finish (.finish (.ite h.learnEnds.toCharge h.learnEnds))))

theorem NextDrives.execShipModeArm (h : s.DrivesOk) {acc} : NextDrives (execShipModeArm acc s) :=
  .act (.run (h.start fun _ => .ite h.finish (.ite h.finish h.learnAbort.packTo.dieEvent.updPack.frame.energyChanged.finish)))

theorem NextDrives.execShipModeCancel (h : s.DrivesOk) {acc} : NextDrives (execShipModeCancel acc s) := by
  refine .act (.run (h.start fun _ => ?_))
  split
  · exact h.toIdentify.dieEvent.finish
  · exact h.updPack.dieEvent.finish
  · exact h.finish

/-! ### The governor -/

theorem State.DrivesOk.splitBudget (h : s.DrivesOk) : s.splitBudget.DrivesOk := h.frame

theorem State.DrivesOk.govSample (h : s.DrivesOk) {i} : (s.govSample i).DrivesOk := h.frame

theorem NextDrives.execGovSampleInstant (h : s.DrivesOk) {inputs} : NextDrives (execGovSampleInstant inputs s) :=
  .act (.ite h (.run (.govSample (.frame (.starveNote (.splitBudget (.ite h.frame.event (.ite h.frame h))))))))

theorem NextDrives.execGovComputationDone (h : s.DrivesOk) : NextDrives (execGovComputationDone s) :=
  .act (.ite h (.ite h.frame.event (.frame (h.over fun _ _ h => h.over fun _ _ h => h.event))))

theorem NextDrives.execPwmInputLost (h : s.DrivesOk) : NextDrives (execPwmInputLost s) := .act (.ite h h.frame.event)

theorem State.DrivesOk.pwmRestored (h : s.DrivesOk) : s.pwmRestored.DrivesOk := .ite h.frame.event h

theorem NextDrives.execPwmSteadyHigh (h : s.DrivesOk) : NextDrives (execPwmSteadyHigh s) := .act (.ite h h.frame.pwmRestored)

theorem NextDrives.execPwmInputRestored (h : s.DrivesOk) {high period} : NextDrives (execPwmInputRestored high period s) :=
  .act (.ite h h.pwmRestored)

theorem NextDrives.execOverrunsRead (h : s.DrivesOk) {read} : NextDrives (execOverrunsRead read s) := .act (h.mmio (.ite h h.frame))

theorem State.DrivesOk.govStart (h : s.DrivesOk) : s.govStart.DrivesOk := h.frame

theorem State.DrivesOk.govStructure (h : s.DrivesOk) {period cfgs} : (s.govStructure period cfgs).DrivesOk := .ite h h.frame.event

theorem State.DrivesOk.govRestore (h : s.DrivesOk) : s.govRestore.DrivesOk := h.frame

/-! ### Drives -/

theorem State.DrivesOk.updPort (h : s.DrivesOk) {p f} : (s.updPort p f).DrivesOk := h.frame

theorem State.DrivesOk.countMember (h : s.DrivesOk) {p f} : (s.countMember p f).DrivesOk := .ite h.frame h

theorem State.DrivesOk.suspect (h : s.DrivesOk) {p} : (s.suspect p).DrivesOk := by
  unfold State.suspect
  split
  · exact h
  · exact .ite h (.evacuationCheck (h.frame.memberTo.over fun _ _ h => h.replaceAgain))

theorem State.DrivesOk.criticalWarning (h : s.DrivesOk) {p} : (s.criticalWarning p).DrivesOk := h.suspect

theorem State.DrivesOk.queueSetup (h : s.DrivesOk) {p} : (s.queueSetup p).DrivesOk :=
  State.DrivesOk.over (.ite h.frame h) fun _ _ h => h.frame

theorem State.DrivesOk.adminStep (h : s.DrivesOk) {p step} : (s.adminStep p step).DrivesOk :=
  .via (fun h => .via (fun h => .ite h.frame.queueSetup (.ite h.frame h.frame)) (.ite h.frame h)) (.ite h.frame h.frame)

theorem State.DrivesOk.resetEnds (h : s.DrivesOk) {p ok} : (s.resetEnds p ok).DrivesOk := by
  unfold State.resetEnds
  split
  · exact h
  · exact h.frame.countMember.event

theorem State.DrivesOk.controllerFatal (h : s.DrivesOk) {p} : (s.controllerFatal p).DrivesOk :=
  .ite h.resetEnds.updPort.failMember h.resetEnds.updPort

theorem State.DrivesOk.resetController (h : s.DrivesOk) {p why} : (s.resetController p why).DrivesOk :=
  .ite h.controllerFatal h.frame

theorem State.DrivesOk.dropQuarantine (h : s.DrivesOk) {p} : (s.dropQuarantine p).DrivesOk := h.frame

theorem State.DrivesOk.reissueAll (h : s.DrivesOk) {p} : (s.reissueAll p).DrivesOk := h.frame.pumpClass.pumpPort

theorem State.DrivesOk.driveUnusable (h : s.DrivesOk) {p why} : (s.driveUnusable p why).DrivesOk :=
  .via (fun h => .ite h.frame.event.failMember h.frame.event) (.ite h.resetEnds h)

theorem State.DrivesOk.askHolder (h : s.DrivesOk) {p} : (s.askHolder p).DrivesOk := .ite h.frame h

theorem State.DrivesOk.askIdentify (h : s.DrivesOk) {p} : (s.askIdentify p).DrivesOk := .ite h.frame h

theorem State.DrivesOk.preempt (h : s.DrivesOk) {p} : (s.preempt p).DrivesOk := h.frame.askHolder

theorem State.DrivesOk.holderRead (h : s.DrivesOk) {p key} : (s.holderRead p key).DrivesOk := .ite h h.frame

theorem State.DrivesOk.controllerUp (h : s.DrivesOk) {p} : (s.controllerUp p).DrivesOk := by
  unfold State.controllerUp
  extract_lets res holds take s₁ s₂
  have h₁ : s₁.DrivesOk := h.frame
  have h₂ : s₂.DrivesOk := .ite h₁.preempt (.ite h₁.frame h₁)
  exact h₂.resetEnds.reissueAll.askIdentify

theorem State.DrivesOk.identified (h : s.DrivesOk) {p ok} : (s.identified p ok).DrivesOk :=
  .ite h.frame.askHolder h.frame.selfTestEnds

theorem State.DrivesOk.adminReply (h : s.DrivesOk) {p ok info} : (s.adminReply p ok info).DrivesOk := by
  unfold State.adminReply
  split
  · exact .ite h.controllerFatal
      (.ite h.frame.driveUnusable (.ite h.frame.driveUnusable (.ite h.frame.controllerUp h.frame.adminStep)))
  · exact h

theorem State.DrivesOk.sendAborts (h : s.DrivesOk) {p} : (s.sendAborts p).DrivesOk := by
  refine h.over fun _ _ h => ?_
  split
  · exact h.frame
  · exact h.frame.countMember

theorem State.DrivesOk.adminFreed (h : s.DrivesOk) {p} : (s.adminFreed p).DrivesOk := h.askHolder.sendAborts.askIdentify

theorem State.DrivesOk.abortDone (h : s.DrivesOk) {p id} : (s.abortDone p id).DrivesOk := h.frame.adminFreed

theorem State.DrivesOk.mediaError (h : s.DrivesOk) {p} : (s.mediaError p).DrivesOk := by
  unfold State.mediaError
  split
  · exact h
  · exact .ite h (.ite h.frame (.ite h.frame.suspect h.frame))

theorem State.DrivesOk.countRead (h : s.DrivesOk) {p us} : (s.countRead p us).DrivesOk := by
  unfold State.countRead
  split
  · exact h
  · extract_lets bin bump s₁ k r
    have h₁ : s₁.DrivesOk := h.frame
    exact h₁.frame

theorem State.DrivesOk.portWords (h : s.DrivesOk) {p data} : (s.portWords p data).DrivesOk := by
  refine h.over fun _ _ h => ?_
  split
  · exact h
  · exact h.wordFixed
  · exact h.wordBad

theorem State.DrivesOk.ioReply (h : s.DrivesOk) {p id status data} : (s.ioReply p id status data).DrivesOk := by
  unfold State.ioReply
  dsimp only
  split
  · exact h
  · split
    · exact h
    · exact h.frame.countMember.event.pumpPort
    · split
      · exact h.frame.event.fence
      · refine .pumpPort (.later ?_)
        split
        · exact .via (fun h => .ite h.countRead h) (.ite h.frame h.frame.portWords)
        · exact h.frame.mediaError
        · dsimp only
          exact h.frame

theorem State.DrivesOk.healthRead (h : s.DrivesOk) {port critical} : (s.healthRead port critical).DrivesOk :=
  .run (.ite h.frame.adminFreed.criticalWarning h.frame.adminFreed)

theorem NextDrives.execDriveCompletion (h : s.DrivesOk) {port reply} : NextDrives (execDriveCompletion port reply s) := by
  refine .act ?_
  dsimp only
  split
  · exact .ite h (.ite (.ite h.frame.fencePort h) (.ite h.ioReply.run h))
  · exact .ite h.identified.adminFreed.run (.ite h.adminReply.run (.ite h.fenceReleased h))
  · exact .ite h.healthRead h
  · exact .ite h.abortDone h
  · exact .ite h.holderRead.run h

theorem NextDrives.execSoftTimeout (h : s.DrivesOk) {port req} : NextDrives (execSoftTimeout port req s) := by
  refine .act ?_
  split
  · exact h
  · split
    · exact h
    · exact .ite h h.frame.countMember.event

theorem NextDrives.execHardTimeout (h : s.DrivesOk) {port req} : NextDrives (execHardTimeout port req s) := by
  refine .act ?_
  split
  · exact h
  · split
    · exact h
    · exact .ite h (.run (.ite h.frame.countMember.event.sendAborts.later.later h.frame.countMember.event.sendAborts.later))

theorem NextDrives.execQuarantineTimeout (h : s.DrivesOk) {port req} : NextDrives (execQuarantineTimeout port req s) := by
  refine .act ?_
  split
  · split
    · exact .ite h.resetController.run h
    · exact h
  · exact h

theorem NextDrives.execAdminCommandTimeout (h : s.DrivesOk) {port} : NextDrives (execAdminCommandTimeout port s) :=
  .act (.ite h.resetController.run h)

theorem NextDrives.execControllerDisabled (h : s.DrivesOk) {port} : NextDrives (execControllerDisabled port s) :=
  .act (.ite h.frame.adminStep.run h)

theorem NextDrives.execControllerResetTimeout (h : s.DrivesOk) {port} : NextDrives (execControllerResetTimeout port s) :=
  .act (.ite h.controllerFatal.run h)

theorem NextDrives.execControllerFatalStatus (h : s.DrivesOk) {port} : NextDrives (execControllerFatalStatus port s) :=
  .act (.ite h.controllerFatal.run h)

theorem NextDrives.execSmartPoll (h : s.DrivesOk) {port critical} : NextDrives (execSmartPoll port critical s) := by
  refine .act (.ite h ?_)
  extract_lets s₁
  have h₁ : s₁.DrivesOk := h.frame
  split
  · exact h₁
  · exact h₁.healthRead

theorem NextDrives.execAsynchronousEvent (h : s.DrivesOk) {port critical} : NextDrives (execAsynchronousEvent port critical s) :=
  .act (.ite h.criticalWarning.run h)

theorem State.DrivesOk.holdOver (h : s.DrivesOk) {port} : (s.holdOver port).DrivesOk :=
  .ite h.event.updPort.resetEnds.failMember h.event.updPort.resetEnds.absentAll.assertPerst

theorem State.DrivesOk.linkTrained (h : s.DrivesOk) {port speed width far} : (s.linkTrained port speed width far).DrivesOk := by
  unfold State.linkTrained
  extract_lets down unused s₁ s₂ s₃
  have h₁ : s₁.DrivesOk := h.frame
  have h₂ : s₂.DrivesOk := .ite h₁.event h₁
  have h₃ : s₃.DrivesOk := by
    unfold s₃
    clear_value down
    split
    · exact .ite h₂.event.countMember h₂.event.countMember.dropQuarantine.updPort
    · exact h₂
  exact .ite h₃ (.ite h₃.driveUnusable h₃.adminStep)

theorem NextDrives.execDriveLinkUp (h : s.DrivesOk) {port speeds widths far} : NextDrives (execDriveLinkUp port speeds widths far s) := by
  refine .act (.ite h ?_)
  split
  · exact .run (.ite h.holdOver h.linkTrained)
  · exact h

theorem State.DrivesOk.driveGone (h : s.DrivesOk) {n} : (s.driveGone n).DrivesOk := by
  unfold State.driveGone
  exact .updPort (.ite h.failMember h.absentAll.assertPerst)

theorem NextDrives.execDriveLinkDown (h : s.DrivesOk) {port} : NextDrives (execDriveLinkDown port s) :=
  .act (.ite h (.run (.ite h.frame.driveGone h.frame)))

theorem NextDrives.execLinkDownHoldExpiry (h : s.DrivesOk) {port} : NextDrives (execLinkDownHoldExpiry port s) := by
  refine .act ?_
  split
  · exact h
  · exact .ite h h.holdOver.run

theorem NextDrives.execPortNoLink (h : s.DrivesOk) {port} : NextDrives (execPortNoLink port s) :=
  .act (.ite h (.run (.ite h.frame.event.failMember h.frame.event)))

theorem NextDrives.execDrivePerstDeassert (h : s.DrivesOk) {port} : NextDrives (execDrivePerstDeassert port s) := by
  refine .act ?_
  dsimp only
  split
  · exact h
  · exact .ite h h.frame

theorem NextDrives.execDriveSettle (h : s.DrivesOk) {port} : NextDrives (execDriveSettle port s) := by
  refine .act ?_
  split
  · exact h
  · exact .ite h h.frame.pumpPort.run

theorem State.DrivesOk.startHedge (h : s.DrivesOk) {port req r x pool} : (s.startHedge port req r x pool).DrivesOk := by
  unfold State.startHedge
  extract_lets want lost m pl _ s₁
  have h₁ : s₁.DrivesOk := h.frame
  exact .ite h h₁.newTask

theorem NextDrives.execHedgeDelay (h : s.DrivesOk) {port req} : NextDrives (execHedgeDelay port req s) := by
  refine .act ?_
  split
  · split
    · split
      · extract_lets half due s₁
        have h₁ : s₁.DrivesOk := h.frame
        clear_value s₁
        refine .ite h (.ite ?_ h₁.startHedge.run)
        exact h₁.frame
      · exact h
    · exact h
  · exact h

theorem NextDrives.execHedgeHoldTimeout (h : s.DrivesOk) {task} : NextDrives (execHedgeHoldTimeout task s) := by
  refine .act ?_
  split
  · exact h
  · exact .ite h h.holdEnds.run

theorem NextDrives.execHedgeIntervalEnd (h : s.DrivesOk) : NextDrives (execHedgeIntervalEnd s) :=
  .act (.ite h (.frame (h.over fun _ _ h => .frame (.ite h.event h))))

theorem State.DrivesOk.poolEstimate (h : s.DrivesOk) {id} : (s.poolEstimate id).DrivesOk := by
  unfold State.poolEstimate
  split
  · exact h
  · exact .ite h.frame.event h.frame

theorem State.DrivesOk.memberEstimate (h : s.DrivesOk) {port} : (s.memberEstimate port).DrivesOk := by
  unfold State.memberEstimate
  split
  · exact h
  · split
    · exact h
    · dsimp only
      split
      · exact h.frame
      · exact .ite h.frame.memberTo (.ite (.ite h.frame.memberTo h.frame) h.frame)

theorem NextDrives.execHedgeThresholdUpdate (h : s.DrivesOk) : NextDrives (execHedgeThresholdUpdate s) :=
  .act (.ite h (.run (.frame (State.DrivesOk.over (h.over fun _ _ h => h.poolEstimate) fun _ _ h => h.memberEstimate))))

/-! ### Slots -/

theorem State.DrivesOk.indicate (h : s.DrivesOk) {n} : (s.indicate n).DrivesOk := by
  unfold State.indicate
  exact h.frame

theorem State.DrivesOk.slotEnd (h : s.DrivesOk) {n ops shifted result} : (s.slotEnd n ops shifted result).DrivesOk :=
  h.frame.over fun _ _ h => h.finish

theorem State.DrivesOk.slotOn (h : s.DrivesOk) {n} : (s.slotOn n).DrivesOk := h.frame

theorem State.DrivesOk.slotOff (h : s.DrivesOk) {n} : (s.slotOff n).DrivesOk := h.slotEnd.absentAll.assertPerst.updPort

theorem State.DrivesOk.failAndOff (h : s.DrivesOk) {n} : (s.failAndOff n).DrivesOk := .slotOff (.ite h.failMember h)

theorem State.DrivesOk.cancelWindow (h : s.DrivesOk) {n} : (s.cancelWindow n).DrivesOk := .ite h h.frame.event

theorem State.DrivesOk.scanSlot (h : s.DrivesOk) {n b} : (s.scanSlot n b).DrivesOk := by
  unfold State.scanSlot
  exact h.indicate.updPort.slotEnd.updPort

theorem NextDrives.execSlotScan (h : s.DrivesOk) {inbound} : NextDrives (execSlotScan inbound s) :=
  .act (.ite h (.emit (.frame (h.over fun _ _ h => h.scanSlot))))

theorem NextDrives.execSlotPresenceChange (h : s.DrivesOk) {slot present} : NextDrives (execSlotPresenceChange slot present s) :=
  .act
    (.ite h
       (.run
          (.ite (.ite h.frame (.ite h.frame (.ite h.frame h.frame)))
             (.ite h.frame.event h.frame.driveGone))))

theorem NextDrives.execSlotPowerGood (h : s.DrivesOk) {slot} : NextDrives (execSlotPowerGood slot s) :=
  .act (.ite h (.ite h.frame h.frame.slotEnd))

theorem NextDrives.execSlotPowerFault (h : s.DrivesOk) {slot} : NextDrives (execSlotPowerFault slot s) :=
  .act (.ite h (.via (fun h => .run (.slotEnd (.slotEnd (.ite h.event.failMember h.event)))) h.absentAll.assertPerst.updPort))

theorem NextDrives.execSlotPowerOffDelay (h : s.DrivesOk) {slot} : NextDrives (execSlotPowerOffDelay slot s) := by
  refine .act ?_
  split
  · exact h
  · exact .ite h (h.frame.slotEnd.when h.frame.slotEnd.slotOn)

theorem NextDrives.execSlotButtonPress (h : s.DrivesOk) {slot} : NextDrives (execSlotButtonPress slot s) :=
  .act (.ite h (.ite h.frame (.ite h.frame.cancelWindow h.frame)))

theorem NextDrives.execButtonWindowEnd (h : s.DrivesOk) {slot} : NextDrives (execButtonWindowEnd slot s) := by
  refine .act ?_
  dsimp only
  split
  · exact h
  · exact .ite h (.run (.ite h.frame.event (.ite h.frame.event h.frame.failAndOff.event)))

theorem NextDrives.execButtonRefusalEnd (h : s.DrivesOk) {slot} : NextDrives (execButtonRefusalEnd slot s) := by
  refine .act ?_
  split
  · exact .ite h.frame h
  · exact h

theorem State.DrivesOk.slotControl (h : s.DrivesOk) {acc op} {f : Cmd → ℕ → State} (hf : ∀ b c, (f b c).DrivesOk) :
    (s.slotControl acc op f).DrivesOk :=
  h.start fun _ => hf _ _

theorem State.DrivesOk.slotWait (h : s.DrivesOk) {acc n} : (s.slotWait acc n).DrivesOk := h.frame

theorem NextDrives.execSlotPowerOn (h : s.DrivesOk) {acc} : NextDrives (execSlotPowerOn acc s) :=
  .act (.run (h.slotControl fun _ _ => .ite h.cancelWindow.finish (.slotWait (.ite h.cancelWindow h.cancelWindow.slotOn))))

theorem NextDrives.execSlotPowerOff (h : s.DrivesOk) {acc} : NextDrives (execSlotPowerOff acc s) :=
  .act
    (.run
       (h.slotControl fun _ _ =>
          .ite h.cancelWindow.finish
            (.ite (.finish (.ite h.cancelWindow.failMember h.cancelWindow))
               (.ite h.cancelWindow.slotEnd.slotWait h.cancelWindow.failAndOff.slotWait))))

theorem NextDrives.execSlotLocateOn (h : s.DrivesOk) {acc} : NextDrives (execSlotLocateOn acc s) :=
  .act (.run (h.slotControl fun _ _ => h.frame.indicate.slotWait))

theorem NextDrives.execSlotLocateOff (h : s.DrivesOk) {acc} : NextDrives (execSlotLocateOff acc s) :=
  .act (.run (h.slotControl fun _ _ => h.frame.indicate.slotWait))

theorem NextDrives.execSlotAutomaticPower (h : s.DrivesOk) {acc} : NextDrives (execSlotAutomaticPower acc s) :=
  .act (.run (h.slotControl fun _ _ => h.frame.finish))

theorem NextDrives.execSlotButtonPolicy (h : s.DrivesOk) {acc} : NextDrives (execSlotButtonPolicy acc s) :=
  .act (.run (h.slotControl fun _ _ => h.frame.finish))

end

end Sys2Proof.Machine
end

section
/-! PROOFS. The power die's outputs in host link, power loss, vault rows and islands. -/

namespace Sys2Proof.Machine

open Sys2Proof

section

variable {s t u v : State}

/-! ### The host link -/

theorem State.DrivesOk.sendLtr (h : s.DrivesOk) {e target} : (s.sendLtr e target).DrivesOk := .ite h.frame h

theorem State.DrivesOk.ltrTouch (h : s.DrivesOk) {e} : (s.ltrTouch e).DrivesOk := .ite h.frame h.frame.sendLtr

theorem NextDrives.execLtrIdle (h : s.DrivesOk) {ep} : NextDrives (execLtrIdle ep s) := .act (h.when h.frame.sendLtr)

theorem State.DrivesOk.ringProtocol (h : s.DrivesOk) {f ring kind reason} : (s.ringProtocol f ring kind reason).DrivesOk := h.fnEvent

theorem State.DrivesOk.sqError (h : s.DrivesOk) {k q reason} : (s.sqError k q reason).DrivesOk := h.frame.ringProtocol.raise

theorem State.DrivesOk.cqError (h : s.DrivesOk) {k c reason} : (s.cqError k c reason).DrivesOk := h.frame.ringProtocol.raise

theorem State.DrivesOk.tailValue (h : s.DrivesOk) {f ring value shadow} : (s.tailValue f ring value shadow).DrivesOk := by
  unfold State.tailValue
  dsimp only
  split
  · exact h.ringProtocol
  · exact .ite h.ringProtocol (.ite h.sqError h.frame)

theorem State.DrivesOk.headValue (h : s.DrivesOk) {f ring value shadow} : (s.headValue f ring value shadow).DrivesOk := by
  unfold State.headValue
  dsimp only
  split
  · exact h.ringProtocol
  · exact .ite h.ringProtocol (.ite h.cqError (.ite h.cqError h.frame.drainCq))

theorem NextDrives.execSqTail (h : s.DrivesOk) {fn ring value} : NextDrives (execSqTail fn ring value s) :=
  .act (h.mmio (h.when h.tailValue.ltrTouch))

theorem NextDrives.execCqHead (h : s.DrivesOk) {fn ring value} : NextDrives (execCqHead fn ring value s) :=
  .act (h.mmio (h.when h.headValue.ltrTouch))

theorem NextDrives.execShadowPoll (h : s.DrivesOk) {fn ring} : NextDrives (execShadowPoll fn ring s) := by
  refine .act ?_
  split
  · split
    · refine .ite ?_ h
      split
      · next t ht =>
        exact (h.issueRead ht).frame
      · exact h
    · exact h
  · exact h

theorem State.DrivesOk.shadowValue (h : s.DrivesOk) {k b} : (s.shadowValue k b).DrivesOk := by
  unfold State.shadowValue
  split
  · exact h
  · exact .via (fun h => .ite h.headValue h) (.ite h.frame.tailValue h.frame)

theorem State.DrivesOk.adminEnable (h : s.DrivesOk) {f} : (s.adminEnable f).DrivesOk :=
  .ite h (.ite (.andThen h.frame fun h => h.frame) h.frame)

theorem NextDrives.execAdminEn (h : s.DrivesOk) {fn} : NextDrives (execAdminEn fn s) := .act (h.mmio h.adminEnable)

theorem State.DrivesOk.causeDue (h : s.DrivesOk) {f due} : (s.causeDue f due).DrivesOk := .ite h.sendVector h

theorem State.DrivesOk.writeMask (h : s.DrivesOk) {f v'} : (s.writeMask f v').DrivesOk := h.frame.causeDue

theorem State.DrivesOk.writeIntEn (h : s.DrivesOk) {f v'} : (s.writeIntEn f v').DrivesOk := h.frame.causeDue

theorem State.DrivesOk.writeForce (h : s.DrivesOk) {f v'} : (s.writeForce f v').DrivesOk := h.frame.causeDue

theorem NextDrives.execCauseWrite (h : s.DrivesOk) {fn value} : NextDrives (execCauseWrite fn value s) := .act (h.mmio h.frame)

theorem NextDrives.execCauseMaskWrite (h : s.DrivesOk) {fn value} : NextDrives (execCauseMaskWrite fn value s) := .act (h.mmio h.writeMask)

theorem NextDrives.execIntEnWrite (h : s.DrivesOk) {fn value} : NextDrives (execIntEnWrite fn value s) := .act (h.mmio h.writeIntEn)

theorem NextDrives.execForce (h : s.DrivesOk) {fn value} : NextDrives (execForce fn value s) := .act (h.mmio h.writeForce)

theorem NextDrives.execSuppressedTotalRead (h : s.DrivesOk) {read} : NextDrives (execSuppressedTotalRead read s) :=
  .act (h.mmio (.ite h.frame h.frame))

theorem State.DrivesOk.writeMsix (h : s.DrivesOk) {f vector dword v'} : (s.writeMsix f vector dword v').DrivesOk := h.frame.flushPba

theorem NextDrives.execMsixEntryWrite (h : s.DrivesOk) {fn vector dword value} : NextDrives (execMsixEntryWrite fn vector dword value s) :=
  .act (h.mmio (h.when h.writeMsix))

theorem NextDrives.execRingGrant (h : s.DrivesOk) : NextDrives (execRingGrant s) := by
  refine .act ?_
  split
  · exact h
  · split
    · exact h
    · exact h.frame.fetchBurst

theorem State.DrivesOk.transferFailed (h : s.DrivesOk) {acc} : (s.transferFailed acc).DrivesOk := by
  unfold State.transferFailed
  split
  · exact h
  · exact h.discardGather.finish

theorem State.DrivesOk.endOnReset (h : s.DrivesOk) {c} : (s.endOnReset c).DrivesOk :=
  .ite (.ite h.frame h.discardGather.frame) (.ite h.unpin.frame (.ite h.frame h.frame))

theorem State.DrivesOk.resetFn (h : s.DrivesOk) {note f} : (s.resetFn note f).DrivesOk := by
  unfold State.resetFn
  extract_lets mine x outstanding count s₁ s₂ s₃ s₄ s₅ s₆
  have h₂ : s₂.DrivesOk := (h.over fun _ _ h => h.endOnReset).setEp
  have h₃ : s₃.DrivesOk := h₂.frame
  have h₅ : s₅.DrivesOk := .ite h₃.frame.selfTestEnds h₃.frame
  have h₆ : s₆.DrivesOk := .ite h₅.fnEvent h₅
  exact (h₆.over fun _ _ h => h.refillStash).settleWaits.noteBacked

theorem State.DrivesOk.resetEp (h : s.DrivesOk) {e note} : (s.resetEp e note).DrivesOk := .setEp (h.over fun _ _ h => h.resetFn)

theorem NextDrives.execFlr (h : s.DrivesOk) {fn} : NextDrives (execFlr fn s) := .act (.run (h.when (.ite h.resetEp h.resetFn)))

theorem NextDrives.execVfEnableCleared (h : s.DrivesOk) {ep} : NextDrives (execVfEnableCleared ep s) :=
  .act (.run (h.when (.setEp (h.over fun _ _ h => h.resetFn))))

theorem State.DrivesOk.linkLost (h : s.DrivesOk) {e} : (s.linkLost e).DrivesOk := h.resetEp.fnEvent.setEp

theorem NextDrives.execHostLinkDown (h : s.DrivesOk) {ep} : NextDrives (execHostLinkDown ep s) := .act (.run (h.when h.linkLost))

theorem NextDrives.execHotReset (h : s.DrivesOk) {ep} : NextDrives (execHotReset ep s) := .act (.run (h.when h.fnEvent.linkLost))

theorem NextDrives.execHostLinkUp (h : s.DrivesOk) {ep speed width flit} : NextDrives (execHostLinkUp ep speed width flit s) :=
  .act (h.when h.frame.fnEvent)

theorem State.DrivesOk.stopRequests (h : s.DrivesOk) {f} : (s.stopRequests f).DrivesOk :=
  .fnEvent (h.over fun _ _ h => .finish (.ite h.discardGather h.unpin))

theorem State.DrivesOk.resumeRequests (h : s.DrivesOk) {f} : (s.resumeRequests f).DrivesOk :=
  State.DrivesOk.over (.pump (.flushPba (h.over fun _ _ h => h.drainCq))) fun _ _ h => h.readCheck

theorem NextDrives.execBusMasterEnableCleared (h : s.DrivesOk) {fn} : NextDrives (execBusMasterEnableCleared fn s) :=
  .act (.run (h.when (.ite h.frame h.frame.stopRequests)))

theorem NextDrives.execBusMasterEnableSet (h : s.DrivesOk) {fn} : NextDrives (execBusMasterEnableSet fn s) :=
  .act (.run (h.when h.frame.resumeRequests))

theorem NextDrives.execD3hotEntry (h : s.DrivesOk) {fn} : NextDrives (execD3hotEntry fn s) :=
  .act (.run (h.when (.ite h.frame.stopRequests h.frame)))

theorem NextDrives.execD0Return (h : s.DrivesOk) {fn} : NextDrives (execD0Return fn s) := .act (.run (h.when h.frame.resumeRequests))

theorem State.DrivesOk.entryFailed (h : s.DrivesOk) {k} : (s.entryFailed k).DrivesOk := by
  unfold State.entryFailed
  split
  · exact h
  · exact .ite h.sqError h.frame

theorem State.DrivesOk.entriesArrived (h : s.DrivesOk) {k first count b} : (s.entriesArrived k first count b).DrivesOk := by
  unfold State.entriesArrived
  split
  · exact h
  · exact .ite h.frame h.frame.acceptLoop.ltrTouch.pump

theorem State.DrivesOk.dataArrived (h : s.DrivesOk) {acc off b stored second} : (s.dataArrived acc off b stored second).DrivesOk := by
  unfold State.dataArrived
  split
  · exact h
  · refine .via (fun h =>
        .ite h.transferFailed
          (.via (fun h => .ite (.updCmd (h.over fun _ _ h => h.frame)) h.frame) (h.over fun _ _ h => h.rebuilt)))
      (h.over fun _ _ h => ?_)
    split
    · exact h
    · exact h.wordFixed
    · exact h.channelWord

theorem State.DrivesOk.listArrived (h : s.DrivesOk) {acc off b} : (s.listArrived acc off b).DrivesOk := by
  unfold State.listArrived
  split
  · exact h
  · exact .ite h.frame.afterList.pump h.frame

theorem State.DrivesOk.readLost (h : s.DrivesOk) {k} : (s.readLost k).DrivesOk := by
  unfold State.readLost
  split
  · exact h.entryFailed
  · exact h
  · exact h.transferFailed
  · exact h.transferFailed
  · exact h.transferFailed

theorem State.DrivesOk.readAnswered (h : s.DrivesOk) {ep tag r cpl} : (s.readAnswered ep tag r cpl).DrivesOk := by
  unfold State.readAnswered
  dsimp only
  split
  · refine .ite h.frame.pump (.ite h ?_)
    split
    · exact h.frame.entriesArrived
    · exact h.frame.shadowValue.pump
    · exact h.frame.listArrived
    · exact h.frame.dataArrived.pump
    · exact h.frame.dataArrived.pump
  · refine .ite h.frame.pump ?_
    split
    · exact .pump (.transferFailed (.ite h.frame.aer.fnEvent h.frame))
    · exact h.frame.readLost.pump
  · exact .ite h.frame.pump h.frame.readLost.pump

theorem NextDrives.execHostCompletion (h : s.DrivesOk) {ep tag cpl} : NextDrives (execHostCompletion ep tag cpl s) := by
  refine .act (.ite h ?_)
  split
  · exact h.readAnswered.run
  · split
    · exact .ite h h.aer.fnEvent
    · exact h.aer

theorem NextDrives.execCompletionTimeout (h : s.DrivesOk) {ep tag} : NextDrives (execCompletionTimeout ep tag s) := by
  refine .act ?_
  split
  · exact h
  · exact .ite h (.ite h.frame.pump.run h.frame.aer.fnEvent.readLost.pump.run)

theorem NextDrives.execTagHoldExpiry (h : s.DrivesOk) {ep tag} : NextDrives (execTagHoldExpiry ep tag s) := by
  refine .act ?_
  split
  · exact h
  · exact .ite h.frame.pump h

theorem NextDrives.execCoalescingTime (h : s.DrivesOk) {fn ring} : NextDrives (execCoalescingTime fn ring s) := by
  refine .act ?_
  split
  · exact h
  · exact .ite (.ite h.frame.sendVector h.frame) h

theorem NextDrives.execCqStall (h : s.DrivesOk) {fn ring} : NextDrives (execCqStall fn ring s) := .act (h.when h.stallCheck)

theorem NextDrives.execStashPoolEmpty (h : s.DrivesOk) : NextDrives (execStashPoolEmpty s) := .act (h.when h.frame.event)

theorem NextDrives.execHostLinkError (h : s.DrivesOk) {ep err} : NextDrives (execHostLinkError ep err s) := by
  refine .act (h.when ?_)
  split
  · exact h.aerCorrectable
  · exact h.when h.aerCorrectable
  · exact h.when h.aerCorrectable
  · exact h.aerCorrectable
  · exact h.aerCorrectable
  · exact h.aer
  · exact h.aer
  · exact h.aer
  · exact h.aer
  · exact h.when h.aer

theorem State.DrivesOk.badAccess (h : s.DrivesOk) {f bar len read offset} : (s.badAccess f bar len read offset).DrivesOk :=
  h.aer.emit.fnEvent

theorem NextDrives.execBadRegisterRead (h : s.DrivesOk) {fn bar offset len} : NextDrives (execBadRegisterRead fn bar offset len s) :=
  .act (h.mmio (h.when h.badAccess))

/-! ### Power loss -/

theorem State.DrivesOk.discardStaged (h : s.DrivesOk) {pass} : (s.discardStaged pass).DrivesOk :=
  .ite h (.ite h.frame h.frame.event)

theorem State.DrivesOk.hostReset (h : s.DrivesOk) : s.hostReset.DrivesOk := by
  unfold State.hostReset
  extract_lets s₁ silent _ _ s₂
  have h₁ : s₁.DrivesOk := h.over fun _ _ h => .ite h.linkLost h.resetEp
  have h₂ : s₂.DrivesOk := h₁.hostCleared.frame
  exact h₂.updPack.frame

theorem State.DrivesOk.endExport (h : s.DrivesOk) : s.endExport.DrivesOk := .ite h.frame h

theorem NextDrives.execPerstNAssert (h : s.DrivesOk) : NextDrives (execPerstNAssert s) :=
  .act
    (.ite h
       (.ite (.ite h.hostReset h.frame)
          (.ite h.frame.setState.dieReset
             (.ite (.ite h.endExport.hostReset h.endExport.frame)
                (.via (fun h =>
                     .ite h.clearBegun.startLehr.setState.sbCleared (.ite h.setState.dieReset h))
                   h.discardStaged.endExport.hostReset.selfTestEnds)))))

theorem NextDrives.execPerstNDeassert (h : s.DrivesOk) {hostBif pairSide} : NextDrives (execPerstNDeassert hostBif pairSide s) :=
  .act (.ite h h.frame)

theorem State.DrivesOk.gatePorts (h : s.DrivesOk) : s.gatePorts.DrivesOk := by
  unfold State.gatePorts
  extract_lets s₁
  have h₁ : s₁.DrivesOk := h.over fun _ _ h => h.gateIsland
  clear_value s₁
  exact h₁.frame

theorem NextDrives.execPowerFailStrobe (h : s.DrivesOk) : NextDrives (execPowerFailStrobe s) := by
  refine .act (.ite h ?_)
  dsimp only
  split
  · exact .via (fun h => .ite h.puntyActs h) (.ite h.updPack.gatePorts h.updPack)
  · exact .ite h.updPack.startLehr h.updPack

theorem NextDrives.execDumpCommandFrame (h : s.DrivesOk) : NextDrives (execDumpCommandFrame s) := .act (.ite h h.startLehr)

theorem NextDrives.execLehrSealed (h : s.DrivesOk) {failed unverified} : NextDrives (execLehrSealed failed unverified s) := by
  refine .act ?_
  split
  · exact .ite h h.writeDump.puntyActs
  · exact h

theorem NextDrives.execLehrTimeout (h : s.DrivesOk) : NextDrives (execLehrTimeout s) := by
  refine .act ?_
  split
  · exact .ite h (h.writeDump.setConverter (.inl rfl)).puntyActs
  · exact h

theorem NextDrives.execPuntyRelease (h : s.DrivesOk) : NextDrives (execPuntyRelease s) := by
  refine .act ?_
  split
  · exact .ite h.dieReset h
  · exact .ite h.frame h
  · exact h

theorem NextDrives.execVinMainPowerUp (h : s.DrivesOk) {vinMv} : NextDrives (execVinMainPowerUp vinMv s) :=
  .act (.ite h h.updPack.emit.frame.converterCheck)

theorem NextDrives.execSupplyFault (h : s.DrivesOk) {rail high} : NextDrives (execSupplyFault rail high s) := by
  refine .act (.ite h (.via (fun h => (h.updPack.frame.dieReset.frame)) ?_))
  split
  · exact .ite h h.writeDump
  · exact h

/-! ### Vault rows -/

theorem State.DrivesOk.commitJournal (h : s.DrivesOk) : s.commitJournal.DrivesOk := by
  refine .via (fun h =>
      .via (fun h => h.reclaimJournal) (h.over fun _ _ h => .ite h ?_))
    (State.DrivesOk.over (State.DrivesOk.over (.frame (h.over fun _ _ h => h.recCommitted)) fun _ _ h => h.frame.writeCheck)
       (fun _ _ h => ?_))
  · split
    · exact h.endWrite
    · exact h
  · split
    · exact .ite h h.issueWrites
    · exact h

theorem State.DrivesOk.closeIfFull (h : s.DrivesOk) {b} : (s.closeIfFull b).DrivesOk := .ite h.frame h

theorem State.DrivesOk.writeProgrammed (h : s.DrivesOk) {acc l} : (s.writeProgrammed acc l).DrivesOk := by
  unfold State.writeProgrammed
  split
  · exact h
  · exact .ite h.frame h.frame.logEntries

theorem State.DrivesOk.copyProgrammed (h : s.DrivesOk) {id l} : (s.copyProgrammed id l).DrivesOk := by
  unfold State.copyProgrammed
  split
  · exact h
  · exact .ite h.frame.copyCopied h.frame

theorem State.DrivesOk.stageDone (h : s.DrivesOk) {c} : (s.stageDone c).DrivesOk := .ite h.frame.finish h.frame.closeUse.event.finish

theorem State.DrivesOk.firmwareProgrammed (h : s.DrivesOk) {acc n} : (s.firmwareProgrammed acc n).DrivesOk := by
  unfold State.firmwareProgrammed
  split
  · exact h
  · exact .ite h.frame h.frame.stageDone

theorem State.DrivesOk.pageVerified (h : s.DrivesOk) {sectors x} : (s.pageVerified sectors x).DrivesOk := by
  unfold State.pageVerified
  split
  · exact h.frame.commitJournal
  · exact h.frame.commitMaps
  · exact h.writeProgrammed
  · exact h.copyProgrammed
  · exact h.mapFlushed
  · split
    · exact .ite h.checkpointDone h.frame
    · exact h
  · exact h.firmwareProgrammed
  · exact h.frame
  · exact h.frame
  · exact h.frame

theorem State.DrivesOk.retireGo (h : s.DrivesOk) : s.retireGo.DrivesOk :=
  h.over fun _ _ h => .ite h (.ite h.frame.freeSource h.frame.startCopy)

theorem State.DrivesOk.programFailed (h : s.DrivesOk) {b} : (s.programFailed b).DrivesOk := by
  refine .via (fun h => h.retireGo) (State.DrivesOk.over (.ite h.frame h.frame) fun _ _ h => ?_)
  split
  · exact h.frame.vprogram
  · exact h

theorem State.DrivesOk.opReply (h : s.DrivesOk) {o} {f : State → State} (hf : ∀ s, s.DrivesOk → (f s).DrivesOk) :
    (s.opReply o f).DrivesOk :=
  h.replyTo fun _ h => hf _ h

theorem State.DrivesOk.opOver (h : s.DrivesOk) {op} : (s.opOver op).DrivesOk := h.frame

theorem State.DrivesOk.programmed (h : s.DrivesOk) {op b page sectors why back} : (s.programmed op b page sectors why back).DrivesOk :=
  .ite (.retireGo (h.countBits.opOver.storeSectors.closeIfFull.over fun _ _ h => h.pageVerified)) h.countBits.programFailed

theorem NextDrives.execVaultProgramComplete (h : s.DrivesOk) {op back} : NextDrives (execVaultProgramComplete op back s) := by
  refine .vaultAct ?_
  split
  · split
    · refine .ite h ?_
      split
      · exact h.opReply fun _ h => h.programFailed
      · exact .ite h (h.opReply fun _ h => h.programmed)
    · exact h
    · exact h
  · exact h

theorem State.DrivesOk.refresh (h : s.DrivesOk) {addr} : (s.refresh addr).DrivesOk := .ite h h.frame

theorem State.DrivesOk.refreshIssue (h : s.DrivesOk) {n} : (refreshIssue n s).DrivesOk := by
  induction n generalizing s with
  | zero => exact h
  | succ n ih =>
    rw [Sys2Proof.Machine.refreshIssue]
    split
    · exact h
    · exact .ite h (ih (.ite h.frame h.frame.startCopy))

theorem State.DrivesOk.refreshGo (h : s.DrivesOk) : s.refreshGo.DrivesOk := h.refreshIssue

theorem State.DrivesOk.patrolIssue (h : s.DrivesOk) {n} : (patrolIssue n s).DrivesOk := by
  delta Sys2Proof.Machine.patrolIssue
  refine State.DrivesOk.brecOn (fun _ _ h => h) (fun n b ih s h => ?_) n s h
  have turn : ∀ p, (patrolIssue._f (n + 1) b { s with vault := { s.vault with patrol := p } }).DrivesOk := by
    intro p
    match p with
    | none => exact h.frame
    | some [] => exact h.frame
    | some (a :: l) =>
      refine .ite h.frame ?_
      split
      exact ih _ (.issueOp (.charge (.frame h)))
  exact State.with_patrol s ▸ turn s.vault.patrol

theorem State.DrivesOk.patrolGo (h : s.DrivesOk) : s.patrolGo.DrivesOk := h.refreshGo.patrolIssue

theorem State.DrivesOk.patrolEnd (h : s.DrivesOk) : s.patrolEnd.DrivesOk := by
  unfold State.patrolEnd
  split
  · exact .ite h h.frame
  · exact h

theorem State.DrivesOk.commandRead (h : s.DrivesOk) {acc l} : (s.commandRead acc l).DrivesOk := by
  unfold State.commandRead
  split <;> exact h.frame

theorem State.DrivesOk.copyRead (h : s.DrivesOk) {id l} : (s.copyRead id l).DrivesOk := by
  unfold State.copyRead
  split
  · exact h
  · exact .ite h.frame.copyCopied (.ite h.frame h.frame.vprogram)

theorem State.DrivesOk.scanBits (h : s.DrivesOk) {addr} : (s.scanBits addr).DrivesOk := by
  unfold State.scanBits
  split
  · split
    · exact .ite h h.countAt
    · exact h
  · exact h

theorem State.DrivesOk.sectorsRead (h : s.DrivesOk) {die why l} : (s.sectorsRead die why l).DrivesOk := by
  unfold State.sectorsRead
  extract_lets s₁ s₂ s₃ s₄
  have h₂ : s₂.DrivesOk := by
    refine h.countBits.over fun _ _ h => ?_
    split <;> exact h.frame
  have h₃ : s₃.DrivesOk := by
    unfold s₃
    split
    · exact h₂.commandRead
    · exact h₂.copyRead
    · exact h₂
    · exact h₂
  have h₄ : s₄.DrivesOk := by
    refine h₃.over fun _ _ h => ?_
    split
    · refine .recordsCheck (.ite ?_ h)
      split
      · exact h
      · exact h.refresh
    · exact h.scanBits.vaultLost
  exact .cullBlocks (.retireGo (.ite h₄.patrolGo.patrolEnd h₄.refreshGo))

theorem NextDrives.execVaultReadComplete (h : s.DrivesOk) {op reads} : NextDrives (execVaultReadComplete op reads s) := by
  refine .vaultAct ?_
  split
  · split
    · exact .ite h (h.opReply fun _ h => h.frame.sectorsRead)
    · exact h
    · exact h
  · exact h

theorem NextDrives.execPatrolPassStart (h : s.DrivesOk) : NextDrives (execPatrolPassStart s) :=
  .vaultAct (.ite h (.ite h.patrolGo.patrolEnd (.ite h h.frame.patrolGo.patrolEnd)))

theorem NextDrives.execPatrolPeriodEnd (h : s.DrivesOk) : NextDrives (execPatrolPeriodEnd s) := by
  refine .act ?_
  split
  · exact .ite h h.frame.event
  · exact h

theorem State.DrivesOk.erased (h : s.DrivesOk) {l} : (s.erased l).DrivesOk :=
  .via (fun h => State.DrivesOk.over (.ite h h.appendMap) fun _ _ h => h.retireBlock) (h.over fun _ _ h => h.frame)

theorem NextDrives.execVaultEraseComplete (h : s.DrivesOk) {op ok} : NextDrives (execVaultEraseComplete op ok s) := by
  refine .vaultAct ?_
  split
  · split
    · exact .ite h (h.opReply fun _ h => h.frame.erased)
    · exact h
    · exact h
  · exact h

theorem NextDrives.execVaultCheckpoint (h : s.DrivesOk) : NextDrives (execVaultCheckpoint s) := .vaultAct (h.when h.startCheckpoint)

theorem NextDrives.execWearMoveCheck (h : s.DrivesOk) : NextDrives (execWearMoveCheck s) := by
  refine .vaultAct (.ite h ?_)
  dsimp only
  split
  · exact h.frame
  · exact .ite h (.ite h.frame.freeSource h.frame.startCopy)

theorem State.DrivesOk.emptyBlock (h : s.DrivesOk) {b u'} : (s.emptyBlock b u').DrivesOk :=
  .ite h (.via (fun h => .ite h.freeSource h.startCopy) (.ite h h.frame))

theorem NextDrives.execGarbageCollectionStart (h : s.DrivesOk) : NextDrives (execGarbageCollectionStart s) := by
  refine .vaultAct (.ite h (.via (fun h => .ite ?_ h) (.ite ?_ h.frame.retireGo)))
  · split
    · exact h.emptyBlock
    · exact h
  · split
    · exact h.frame.retireGo.emptyBlock
    · exact h.frame.retireGo

theorem NextDrives.execVaultBlockOpenable (h : s.DrivesOk) : NextDrives (execVaultBlockOpenable s) :=
  .vaultAct (.ite h (.flushOpens (h.frame.over fun _ _ h => h.programPage)))

theorem NextDrives.execPercentUsedRecompute (h : s.DrivesOk) : NextDrives (execPercentUsedRecompute s) := .vaultAct (h.when h.percentUpdate)

theorem NextDrives.execVaultRequestTimeout (h : s.DrivesOk) {acc} : NextDrives (execVaultRequestTimeout acc s) :=
  .vaultAct (h.when h.endVaultWrite)

/-! ### Islands -/

theorem NextDrives.execFatalCondition (h : s.DrivesOk) {cause island} : NextDrives (execFatalCondition cause island s) :=
  .act (.ite h h.fatalInternal.run)

theorem NextDrives.execRouterTimeout (h : s.DrivesOk) {island} : NextDrives (execRouterTimeout island s) := .act (.ite h h.fatalInternal.run)

theorem NextDrives.execWatchdogExpiry (h : s.DrivesOk) : NextDrives (execWatchdogExpiry s) := .act (.ite h h.hbLow.frame.alert)

theorem NextDrives.execHbmParityError (h : s.DrivesOk) {channel} : NextDrives (execHbmParityError channel s) :=
  .act (.ite h (.run (.ite h.frame.beginMapOut h.frame)))

theorem State.DrivesOk.jobAbsent (h : s.DrivesOk) {t' j} : (s.jobAbsent t' j).DrivesOk := by
  unfold State.jobAbsent
  split
  · exact h.unpin.absorbFailed
  · split
    · exact .ite h.sendJob h.unpin
    · exact h.unpin
  · exact h

theorem State.DrivesOk.tileAbsent (h : s.DrivesOk) {t'} : (s.tileAbsent t').DrivesOk :=
  State.DrivesOk.over (.setTile (.ite h h.frame)) fun _ _ h => h.jobAbsent

theorem State.DrivesOk.tileStale (h : s.DrivesOk) {t'} : (s.tileStale t').DrivesOk := by
  unfold State.tileStale
  split
  · exact h
  · exact h.dropStale

theorem State.DrivesOk.tileReset (h : s.DrivesOk) {t'} : (s.tileReset t').DrivesOk :=
  .via (fun h => .ite h.frame.mapOut (.ite h.frame.beginMapOut h.frame)) h.islandDown.tileStale.tileAbsent

theorem State.DrivesOk.channelReset (h : s.DrivesOk) {c} : (s.channelReset c).DrivesOk := by
  unfold State.channelReset
  extract_lets x s₁ s₂ _ s₃
  have h₂ : s₂.DrivesOk := .ite h.islandDown.learnEpoch h.islandDown
  have h₃ : s₃.DrivesOk := h₂.frame
  clear_value x
  split
  · split
    · exact h₃.programFailed
    · exact h₃
    · exact h₃
  · exact h₃

theorem State.DrivesOk.sidebandDown (h : s.DrivesOk) : s.sidebandDown.DrivesOk :=
  .emit (.ite h.clearBegun.islandDown.dropStale h.clearBegun.islandDown)

theorem State.DrivesOk.recorderDown (h : s.DrivesOk) : s.recorderDown.DrivesOk := .frame (h.islandDown.over fun _ _ h => h.dropStale)

theorem State.DrivesOk.resetIsland (h : s.DrivesOk) {i} : (s.resetIsland i).DrivesOk :=
  .ite h.channelReset (.ite h.tileReset (.ite h.islandDown.frame (.ite h.recorderDown (.ite h.sidebandDown h.islandDown.frame))))

theorem State.DrivesOk.queueStateBad (h : s.DrivesOk) {p} : (s.queueStateBad p).DrivesOk := .ite h.resetController h

theorem NextDrives.execUnitDown (h : s.DrivesOk) {island why} : NextDrives (execUnitDown island why s) := by
  refine .vaultAct (.ite h ?_)
  split
  · exact .ite h.queueStateBad (.ite h.resetIsland h)
  · exact .ite h (.ite (.ite h.frame h.frame) (.ite h.frame h))
  · exact h

theorem State.DrivesOk.unitBack (h : s.DrivesOk) {i} : (s.unitBack i).DrivesOk :=
  .ite h.reissueOps (.ite (.ite h.frame h) (.ite (h.frame.over fun _ _ h => h.accept) (.ite h.sbCleared.emit h)))

theorem NextDrives.execUnitUp (h : s.DrivesOk) {island} : NextDrives (execUnitUp island s) :=
  .vaultAct
    (.ite h.lateEpochs (.via (fun h => .unitBack (.event (.ite h.frame h))) (h.lateEpochs.setIsland.when h.lateEpochs.setIsland.unitTested)))

theorem NextDrives.execVaultOperationTimeout (h : s.DrivesOk) {channel} : NextDrives (execVaultOperationTimeout channel s) :=
  .vaultAct (.ite h.channelReset h)

theorem State.DrivesOk.countDroop (h : s.DrivesOk) {i deep} : (s.countDroop i deep).DrivesOk := .ite h.frame h.frame

theorem NextDrives.execDroopStretch50 (h : s.DrivesOk) {island} : NextDrives (execDroopStretch50 island s) :=
  .act (.ite h (.ite h.countDroop h.frame))

theorem NextDrives.execDroopStretch25 (h : s.DrivesOk) {island} : NextDrives (execDroopStretch25 island s) :=
  .act (.ite h (.ite h.frame h.countDroop))

theorem NextDrives.execDroopRecover (h : s.DrivesOk) {island} : NextDrives (execDroopRecover island s) :=
  .act (.ite h (.ite h.countDroop h.frame))

theorem NextDrives.execRefclkLost (h : s.DrivesOk) : NextDrives (execRefclkLost s) := .act (.ite h h.frame.event.failDevice.run)

theorem NextDrives.execThermalWarn (h : s.DrivesOk) {island temp} : NextDrives (execThermalWarn island temp s) := .act (.ite h h.frame.record)

theorem NextDrives.execThermalWarnEnd (h : s.DrivesOk) : NextDrives (execThermalWarnEnd s) := .act (.ite h h.frame)

theorem NextDrives.execThermalTrip (h : s.DrivesOk) {island temp} : NextDrives (execThermalTrip island temp s) :=
  .act (.ite h (.ite h.updPack.failDevice.frame h.updPack.failDevice.frame.dieReset))

end

end Sys2Proof.Machine
end

section
/-! PROOFS. The power die's outputs at the start and in the pair. -/

namespace Sys2Proof.Machine

open Sys2Proof

section

variable {s t u v : State}

/-! ### Start-up -/

theorem State.DrivesOk.outOfReset (h : s.DrivesOk) {f} : (s.outOfReset f).DrivesOk := by
  unfold State.outOfReset
  exact ⟨h.drives⟩

theorem State.DrivesOk.startFails (h : s.DrivesOk) {step trained} : (s.startFails step trained).DrivesOk := h.event.failDevice

theorem State.DrivesOk.mapOutUntrained (h : s.DrivesOk) : s.mapOutUntrained.DrivesOk := h.over fun _ _ h => h.moveShare.islandDown.mapOut

theorem State.DrivesOk.countStart (h : s.DrivesOk) {copies} : (s.countStart copies).DrivesOk :=
  h.countAt.over fun _ _ h => h.countSegments

theorem State.DrivesOk.mount (h : s.DrivesOk) : s.mount.2.DrivesOk := by
  unfold State.mount
  extract_lets +onlyGivenNames v copies v'
  split
  · exact h.countStart.event
  · split
    extract_lets +onlyGivenNames s₁ entries opened loose
    have h₁ : s₁.DrivesOk := .ite h.event h
    split
    extract_lets +onlyGivenNames map found taken n percent v'' s₂ s₃ s₄
    have h₂ : s₂.DrivesOk := h₁.frame.event
    have h₃ : s₃.DrivesOk := h₂.countStart.countAt
    have h₄ : s₄.DrivesOk := h₃.countSegments
    dsimp only
    exact .cullBlocks (.ite h₄ h₄.logEntries)

theorem State.DrivesOk.recordAt (h : s.DrivesOk) {code inst p1 p2 p3 time} : (s.recordAt code inst p1 p2 p3 time).DrivesOk := h.accept

theorem State.DrivesOk.powerDieReports (h : s.DrivesOk) : s.powerDieReports.DrivesOk := by
  unfold State.powerDieReports
  extract_lets p s₁ s₂ s₃ s₄ s₅ s₆ s₇ s₈
  have h₁ : s₁.DrivesOk := h.over fun _ _ h => .ite h.accept h.holdRecord
  have h₂ : s₂.DrivesOk := .ite h₁.alert h₁
  have h₃ : s₃.DrivesOk := h₂.over fun _ _ h => h.frame
  have h₄ : s₄.DrivesOk := h₃.over fun _ _ h => h.frame
  have h₅ : s₅.DrivesOk := by
    unfold s₅
    split
    · exact h₄.event
    · exact h₄
  have h₆ : s₆.DrivesOk := by
    unfold s₆
    split
    · exact h₅.record
    · exact h₅
  have h₈ : s₈.DrivesOk := h₆.mirrorGauge.updPack
  exact .ite h (.ite h₈ h₈.updPack.storeGauge)

theorem State.DrivesOk.loadImage (h : s.DrivesOk) {a foreign_ known} : (s.loadImage a foreign_ known).DrivesOk :=
  h.frame

theorem State.DrivesOk.owedFound (h : s.DrivesOk) : s.owedFound.DrivesOk := h.frame

theorem State.DrivesOk.regionsResume (h : s.DrivesOk) : s.regionsResume.DrivesOk := by
  refine h.over fun _ _ h => ?_
  dsimp only
  split
  · exact h
  · exact h
  · exact h.recompute
  · exact h.recompute
  · exact h.recompute
  · exact .ite h.abandonMove.recompute (.ite h.replaceAgain h)
  · exact .ite h.regionLost (.ite h.setCrit.updWork.replaceAgain h.setCrit.updWork.furtherLoss)

theorem State.DrivesOk.undoInits (h : s.DrivesOk) : s.undoInits.DrivesOk :=
  h.over fun _ _ h => .noteChange (.frame (.volEvent (h.over fun _ _ h => h.updRegion)))

/-- As `State.DrivesOk.moveFrame`, the definition is unfolded as a function. -/
theorem State.DrivesOk.restoreFrame (h : s.DrivesOk) {x} : (s.restoreFrame x).DrivesOk := by
  have hdef : State.restoreFrame = State.restoreFrame := rfl
  conv at hdef => rhs; delta State.restoreFrame
  rw [hdef]
  beta_reduce
  extract_lets +onlyGivenNames old copy data f
  split
  · exact h
  · next n t ht =>
    have ht : t.DrivesOk := h.takeFrame ht
    extract_lets s₁ s₂
    have h₁ : s₁.DrivesOk := .ite ht ht.chainIn
    have h₂ : s₂.DrivesOk := h₁.frame
    exact .ite (.ite h₂.volEvent h₂) (.ite h₂.freeFrame h₂.blockLost)

theorem State.DrivesOk.restoreEntries (h : s.DrivesOk) {l} : (s.restoreEntries l).DrivesOk := by
  refine h.over fun s x h => .ite h ?_
  extract_lets n run slot t
  split
  next id s₁ hs =>
    have h₁ : s₁.DrivesOk := .ofSnd hs h.frame
    extract_lets s₂ _ s₃
    have h₂ : s₂.DrivesOk := by
      unfold s₂
      clear_value run
      split
      · exact h₁.frame
      · exact h₁
    have h₃ : s₃.DrivesOk := h₂.frame
    clear_value slot
    split
    · exact h₃.frame
    · exact h₃

theorem State.DrivesOk.restore (h : s.DrivesOk) {frames parisons entries} : (s.restore frames parisons entries).DrivesOk :=
  State.DrivesOk.over (.restoreEntries (State.DrivesOk.over (h.over fun _ _ h => h.restoreFrame) fun _ _ h => h.frame))
    (fun _ _ h => h.absorbStripe)

theorem State.DrivesOk.scanJournal (h : s.DrivesOk) : s.scanJournal.DrivesOk := by
  refine .via (fun h => h.countSegments.frame) ?_
  split
  · exact h.event
  · exact h

theorem State.DrivesOk.replayBlock (h : s.DrivesOk) {q r k} : (s.replayBlock q r k).DrivesOk := by
  unfold State.replayBlock
  extract_lets lba old skip s₁
  have h₁ : s₁.DrivesOk := by
    unfold s₁
    clear_value old
    split
    · exact h.freeFrame
    · exact h
  refine .ite h ?_
  split
  · exact h₁
  · next ht => exact (h₁.takeFrame ht).chainIn.noteGen.frame

theorem State.DrivesOk.replayWrites (h : s.DrivesOk) : s.replayWrites.DrivesOk :=
  h.over fun _ _ h => h.noteRefs.frame.over fun _ _ h => h.replayBlock

theorem State.DrivesOk.replayChain (h : s.DrivesOk) {c} : (s.replayChain c).DrivesOk := by
  unfold State.replayChain
  split
  · exact h
  · exact .via (fun h => .ite h.queueRetire h.freeAll.newTask) (h.frame.over fun _ _ h => h.frame)

theorem State.DrivesOk.replay (h : s.DrivesOk) : s.replay.DrivesOk := h.replayWrites.queueRetire.over fun _ _ h => h.replayChain

theorem State.DrivesOk.countersResume (h : s.DrivesOk) : s.countersResume.DrivesOk := h.frame

theorem State.DrivesOk.beginReplay (h : s.DrivesOk) : s.beginReplay.DrivesOk :=
  .startProgress (.frame (.countersResume (.replay (.ite h h.scanJournal))))

theorem State.DrivesOk.countersSaved (h : s.DrivesOk) : s.countersSaved.DrivesOk := by
  unfold State.countersSaved
  split
  · exact h
  · exact h.resumeCounters

theorem State.DrivesOk.findDump (h : s.DrivesOk) {d} : (s.findDump d).2.DrivesOk := .iteSnd h.countSegments.recordAt h.countSegments.event

theorem State.DrivesOk.reportReleased (h : s.DrivesOk) : s.reportReleased.DrivesOk := by
  unfold State.reportReleased
  extract_lets held _ s₁
  have h₁ : s₁.DrivesOk := h.frame.over fun _ _ h => h.accept
  split
  · exact h₁.frame.event
  · exact h₁

theorem State.DrivesOk.findDumps (h : s.DrivesOk) : s.findDumps.DrivesOk := by
  unfold State.findDumps
  extract_lets s₁
  have h₁ : s₁.DrivesOk := by
    unfold s₁
    split
    · split
      next hs => exact .ofSnd hs h.findDump
      next hs => exact .releaseDump (.ofSnd hs h.findDump)
    · exact h
  clear_value s₁
  split
  · exact h₁.findDump.frame.releaseBlocks
  · exact h₁

theorem State.DrivesOk.releaseJournal (h : s.DrivesOk) : s.releaseJournal.DrivesOk := h.frame

theorem State.DrivesOk.holdDump (h : s.DrivesOk) : s.holdDump.DrivesOk := h.frame

theorem State.DrivesOk.labelsNow (h : s.DrivesOk) : s.labelsNow.DrivesOk := by
  unfold State.labelsNow
  split
  · exact .ite h.frame.writeLabels h
  · exact h

theorem State.DrivesOk.stepEight (h : s.DrivesOk) : s.stepEight.DrivesOk :=
  .ite h.labelsNow.beginReplay h.setState.undoInits.regionsResume.assignLogs.beginReplay

theorem State.DrivesOk.afterDrives (h : s.DrivesOk) : s.afterDrives.DrivesOk := .ite h.stepEight h.frame

theorem State.DrivesOk.startOwn (h : s.DrivesOk) : s.startOwn.DrivesOk := by
  unfold State.startOwn
  refine .afterDrives ?_
  split
  · next d hd =>
    extract_lets s₁ _ _ _ s₂ s₃
    have h₂ : s₂.DrivesOk := h.setState.frame
    have h₃ : s₃.DrivesOk := h₂.resumeCounters.restore
    exact h₃.event
  · exact h.countersSaved

theorem State.DrivesOk.preemptAll (h : s.DrivesOk) : s.preemptAll.DrivesOk := h.frame.over fun _ _ h => h.preempt

theorem State.DrivesOk.takeLabels (h : s.DrivesOk) {partner} : (s.takeLabels partner).DrivesOk := h.writeLabels

theorem State.DrivesOk.beginTakeover (h : s.DrivesOk) {a partner} : (s.beginTakeover a partner).DrivesOk := by
  unfold State.beginTakeover
  split
  · exact h
  · exact .via (fun h =>
        .emit (.assignLogs (.regionsResume (.undoInits (.ite h.countersSaved h.takeLabels)))))
      h.setState.frame.preemptAll.loadImage.owedFound

theorem State.DrivesOk.rebaseJournal (h : s.DrivesOk) {l} : (s.rebaseJournal l).DrivesOk := by
  unfold State.rebaseJournal
  dsimp only
  split
  · exact h.releaseDump.releaseJournal.frame.startCheckpoint
  · exact .startCheckpoint (.flushOpens (h.releaseDump.releaseJournal.frame.over fun _ _ h => h.programPage))

theorem State.DrivesOk.settleEvent (h : s.DrivesOk) : s.settleEvent.DrivesOk := h.event

theorem State.DrivesOk.takeoverGo (h : s.DrivesOk) {x} : (s.takeoverGo x).DrivesOk := by
  unfold State.takeoverGo
  split
  · exact h
  · exact h.frame.rebaseJournal.settleEvent.frame.resumeCounters.restore.afterDrives
  · exact h.rebaseJournal.settleEvent.checkMarked.event.frame.afterDrives

theorem State.DrivesOk.foreignArray (h : s.DrivesOk) {l} : (s.foreignArray l).DrivesOk := by
  unfold State.foreignArray
  dsimp only
  split
  · exact h.frame.event.raisePfs.setState.frame.event.holdDump
  · exact h.frame.event.raisePfs.holdDump

theorem State.DrivesOk.standby (h : s.DrivesOk) {l} : (s.standby l).DrivesOk :=
  .setState (.frame (.ite h.releaseDump.releaseJournal h.frame))

theorem State.DrivesOk.byLabel (h : s.DrivesOk) {a} : (s.byLabel a).DrivesOk := by
  unfold State.byLabel
  extract_lets own s₁ foreign_ waiting
  have h₁ : s₁.DrivesOk := .ite h.frame h.frame
  have hforeign : (foreign_ s₁).DrivesOk := h₁.frame
  split
  · split
    · exact .ite h₁.startOwn h₁.setState.holdDump.frame.startProgress
    · exact h₁.setState.holdDump.frame.startProgress
  · exact .ite (.ite h₁.beginTakeover h₁.startOwn) (.ite hforeign.standby hforeign.foreignArray)

theorem State.DrivesOk.startBackEnd (h : s.DrivesOk) {f} : (s.startBackEnd f).DrivesOk :=
  .ite h.mapOutUntrained.frame.mount.startFails h.mapOutUntrained.frame.mount.powerDieReports.govRestore.reportReleased.findDumps.byLabel

theorem NextDrives.execLogicDieResetExit (h : s.DrivesOk) {found} : NextDrives (execLogicDieResetExit found s) := by
  refine .vaultAct (.ite h ?_)
  extract_lets lost keep s₁ s₂ s₃ s₄ _ s₅
  have h₁ : s₁.DrivesOk := .outOfReset (.ite h.setState h)
  have h₂ : s₂.DrivesOk := .ite h₁ h₁.sbCleared
  have h₃ : s₃.DrivesOk := h₂.frame
  have h₄ : s₄.DrivesOk := .ite h₃ h₃.event
  have h₅ : s₅.DrivesOk := by
    unfold s₅
    split
    · exact h₄.startFails
    · exact .via (fun h => .ite h.startFails h.startBackEnd) (.ite h₄.frame h₄.frame.event)
  exact .ite h₅.fence h₅

theorem State.DrivesOk.takeoverDone (h : s.DrivesOk) : s.takeoverDone.DrivesOk := by
  unfold State.takeoverDone
  split
  · exact h
  · exact h.writeLabels.volumesAttached.emit.event.raisePfs.frame

theorem State.DrivesOk.removeMissing (h : s.DrivesOk) : s.removeMissing.DrivesOk :=
  h.over fun _ _ h => .ite h.frame (.ite h h.frame.event)

theorem NextDrives.execStartupReady (h : s.DrivesOk) : NextDrives (execStartupReady s) :=
  .vaultAct
    (.ite h
       (.via (fun h =>
            .via (fun h => .ite h h.takeoverDone.frame.setState.reclaimJournal.govStart.event) (.ite h.stepEight.run h))
          (.ite h h.removeMissing.run)))

/-! ### The pair -/

theorem NextDrives.execPairHeartbeat (h : s.DrivesOk) {partner} : NextDrives (execPairHeartbeat partner s) := .act (.ite h h.frame)

theorem NextDrives.execPartnerLost (h : s.DrivesOk) : NextDrives (execPartnerLost s) := .act (.ite h h.frame.event.raisePfs)

theorem NextDrives.execPairHeartbeatSend (h : s.DrivesOk) : NextDrives (execPairHeartbeatSend s) := .act (.ite h h.frame)

theorem NextDrives.execArbHbToggle (h : s.DrivesOk) : NextDrives (execArbHbToggle s) := .act (.ite h h.frame.emit)

theorem NextDrives.execArbFenceAssert (h : s.DrivesOk) : NextDrives (execArbFenceAssert s) := .act h.frame.fence

theorem NextDrives.execArbFenceRelease (h : s.DrivesOk) : NextDrives (execArbFenceRelease s) :=
  .act (.ite h.frame h.frame.setState.dieReset)

theorem State.DrivesOk.takeIgnored (h : s.DrivesOk) {st unbound} : (s.takeIgnored st unbound).DrivesOk := .ite h.event h.frame

theorem NextDrives.execArbTakeAssert (h : s.DrivesOk) {drives} : NextDrives (execArbTakeAssert drives s) := by
  refine .vaultAct (.ite h (.ite h.takeIgnored (.ite h (.ite h.takeIgnored (.ite ?_ h)))))
  split
  · exact .ite h.beginTakeover h.takeIgnored
  · exact h.takeIgnored

theorem NextDrives.execFenceDrainTimeout (h : s.DrivesOk) : NextDrives (execFenceDrainTimeout s) := by
  refine .act ?_
  split
  · exact h
  · exact .ite h (.gatePorts (h.over fun _ _ h => h.frame))

theorem NextDrives.execExportRequest (h : s.DrivesOk) : NextDrives (execExportRequest s) := by
  refine .act ?_
  split
  · exact h
  · exact .ite h h.frame

theorem State.DrivesOk.releaseHeld (h : s.DrivesOk) : s.releaseHeld.DrivesOk := h.releaseDump.releaseJournal.frame

theorem NextDrives.execRelease (h : s.DrivesOk) : NextDrives (execRelease s) := .act (.ite h.releaseHeld h)

theorem NextDrives.execExportWait (h : s.DrivesOk) : NextDrives (execExportWait s) := by
  refine .vaultAct ?_
  split
  · exact h
  · exact .ite h h.event.takeoverGo

theorem NextDrives.execDumpImport (h : s.DrivesOk) {theSeal content} : NextDrives (execDumpImport theSeal content s) := by
  refine .vaultAct ?_
  split
  · exact h
  · exact .ite h.event.takeoverGo h.event.takeoverGo

theorem NextDrives.execPairingLinkFailure (h : s.DrivesOk) : NextDrives (execPairingLinkFailure s) := by
  refine .vaultAct ?_
  split
  · exact h
  · exact .ite h.frame.emit h.event.takeoverGo

theorem NextDrives.execChangeLogFlush (h : s.DrivesOk) : NextDrives (execChangeLogFlush s) :=
  .act (.ite h (.run (h.frame.over fun _ _ h => h.metaStart)))

theorem NextDrives.execMetadataCheckpoint (h : s.DrivesOk) : NextDrives (execMetadataCheckpoint s) := .act (.ite h.metadataCheckpoint h)

theorem NextDrives.execBitmapRewrite (h : s.DrivesOk) : NextDrives (execBitmapRewrite s) := .act (.ite h h.frame.metaStart.run)

theorem State.DrivesOk.pairBound (h : s.DrivesOk) {op partner} : (s.pairBound op partner).DrivesOk := h.event

theorem NextDrives.execPairBind (h : s.DrivesOk) {acc} : NextDrives (execPairBind acc s) := by
  refine .act (h.start fun _ => ?_)
  split
  · exact h.check h.writeLabels.pairBound.finish
  · exact h.finish

theorem NextDrives.execPairUnbind (h : s.DrivesOk) {acc} : NextDrives (execPairUnbind acc s) :=
  .act (h.start fun _ => h.check h.writeLabels.pairBound.finish)

theorem NextDrives.execPairDiscardDump (h : s.DrivesOk) {acc} : NextDrives (execPairDiscardDump acc s) :=
  .act (h.start fun _ => .finish (.pairBound (.ite h.releaseHeld h)))

theorem State.DrivesOk.importState (h : s.DrivesOk) : s.importState.DrivesOk := .ite h.setState.frame h

theorem NextDrives.execArrayImport (h : s.DrivesOk) {acc} : NextDrives (execArrayImport acc s) := by
  refine .vaultAct (h.start fun c => ?_)
  extract_lets discard s₁ a _
  split
  · exact h.finish
  · refine h.check ?_
    extract_lets s₂ s₃ s₄ s₅ s₆
    have h₁ : s₁.DrivesOk := .ite h.releaseHeld h
    have h₂ : s₂.DrivesOk := h₁.frame
    have h₃ : s₃.DrivesOk := h₂.preemptAll.loadImage.owedFound
    have h₄ : s₄.DrivesOk := h₃.importState
    have h₅ : s₅.DrivesOk := h₄.writeLabels.undoInits
    have h₆ : s₆.DrivesOk := h₅.regionsResume.assignLogs.settleEvent
    split
    next marked vols s₇ hs =>
      have h₇ : s₇.DrivesOk := .ofSndSnd hs h₆.checkMarked
      extract_lets s₈ s₉
      have h₉ : s₉.DrivesOk := h₇.event.updCmd
      exact h₉.frame.importProgress

end

end Sys2Proof.Machine
end

section
/-! PROOFS. The power die's outputs in the commands of the host. -/

namespace Sys2Proof.Machine

open Sys2Proof

section

variable {s t u v : State}

/-! ### Commands that manage -/

theorem State.DrivesOk.applyItem (h : s.DrivesOk) {x} : (s.applyItem x).DrivesOk := by
  cases x with
  | template => exact h.frame
  | templateDelete => exact h.frame
  | pool => exact h.frame
  | poolDelete => exact h.frame
  | expand => exact h.frame
  | governor => exact h
  | pack => exact h

theorem State.DrivesOk.stageItem (h : s.DrivesOk) {c x} : (s.stageItem c x).DrivesOk := h.check h.frame.finish

theorem NextDrives.execTemplateDefine (h : s.DrivesOk) {acc} : NextDrives (execTemplateDefine acc s) := by
  refine .act (h.start fun _ => ?_)
  split
  · exact h.finish
  · exact h.stageItem

theorem NextDrives.execTemplateDelete (h : s.DrivesOk) {acc} : NextDrives (execTemplateDelete acc s) := .act (h.start fun _ => h.stageItem)

theorem NextDrives.execPoolCreate (h : s.DrivesOk) {acc} : NextDrives (execPoolCreate acc s) :=
  .act (h.start fun _ => .stageItem (.ite h.frame h))

theorem NextDrives.execPoolDelete (h : s.DrivesOk) {acc} : NextDrives (execPoolDelete acc s) := .act (h.start fun _ => h.stageItem)

theorem NextDrives.execPoolExpand (h : s.DrivesOk) {acc} : NextDrives (execPoolExpand acc s) := .act (h.start fun _ => h.stageItem)

theorem NextDrives.execPoolExpandSpare (h : s.DrivesOk) {acc} : NextDrives (execPoolExpandSpare acc s) := .act (h.start fun _ => h.stageItem)

theorem State.DrivesOk.stageConfig (h : s.DrivesOk) {c len item} : (s.stageConfig c len item).DrivesOk := by
  refine .ite h.finish (.ite h.finish ?_)
  split
  · exact h.stageItem
  · exact h.finish

theorem NextDrives.execConfigStageGovernor (h : s.DrivesOk) {acc} : NextDrives (execConfigStageGovernor acc s) :=
  .act (h.start fun _ => .ite h (.ite h.finish h.stageConfig))

theorem NextDrives.execConfigStagePack (h : s.DrivesOk) {acc} : NextDrives (execConfigStagePack acc s) :=
  .act (h.start fun _ => .ite h h.stageConfig)

theorem NextDrives.execConfigDiscard (h : s.DrivesOk) {acc} : NextDrives (execConfigDiscard acc s) := .act (h.start fun _ => h.frame.event.finish)

theorem NextDrives.execDeviceStop (h : s.DrivesOk) {acc} : NextDrives (execDeviceStop acc s) :=
  .act (h.start fun _ => .ite h.finish (.settleWaits (.updCmd (.ite h.setState h))))

theorem State.DrivesOk.holdMember (h : s.DrivesOk) {p} : (s.holdMember p).DrivesOk := .ite h h.frame

theorem State.DrivesOk.freeDrive (h : s.DrivesOk) {p} : (s.freeDrive p).DrivesOk := .ite h h.frame

theorem State.DrivesOk.arrayLabel (h : s.DrivesOk) : s.arrayLabel.DrivesOk := .ite h.frame (.ite h h.frame)

theorem State.DrivesOk.applyNow (h : s.DrivesOk) {x} : (s.applyNow x).DrivesOk := by
  unfold State.applyNow
  split
  · exact h.applyItem
  · exact h.applyItem
  · exact State.DrivesOk.over (.noteChange (.applyItem (h.over fun _ _ h => h.noteChange))) fun _ _ h => h.holdMember
  · exact .noteChange (.applyItem (h.over fun _ _ h => h.freeDrive.noteChange))
  · exact .spareCheck
      (State.DrivesOk.over (State.DrivesOk.over (.applyItem (h.over fun _ _ h => h.noteChange)) fun _ _ h => h.event)
         (fun _ _ h => h.holdMember))
  · exact h.govStructure
  · exact h.declare

theorem State.DrivesOk.startSaves (h : s.DrivesOk) : s.startSaves.DrivesOk := h.frame.startCheckpoint.metadataCheckpoint.saveSeries

theorem NextDrives.execDeviceStart (h : s.DrivesOk) {acc} : NextDrives (execDeviceStart acc s) := by
  refine .vaultAct (h.start fun _ => ?_)
  dsimp only
  split
  · exact h.finish
  · exact .finishLogged
      (.setState
         (.ite h.startSaves
            (.record (.startSaves (.writeLabels (.writeConfig (.bringLogs (.frame (.arrayLabel (h.over fun _ _ h => h.applyNow))))))))))

theorem State.DrivesOk.zeroStripe (h : s.DrivesOk) {acc vol r stripe} : (s.zeroStripe acc vol r stripe).DrivesOk := h.newTask

theorem NextDrives.execVolumeCreateArray (h : s.DrivesOk) {acc} : NextDrives (execVolumeCreateArray acc s) := by
  refine .act (.run (h.start fun c => ?_))
  extract_lets +onlyGivenNames e id t p capacity
  refine .ite h.finish ?_
  split
  · exact h.finish
  · exact h.finish
  · refine .ite h.finish ?_
    extract_lets +onlyGivenNames per n limit free
    split
    · exact h.finish
    · refine .ite h.finish ?_
      extract_lets +onlyGivenNames s₁ v s₂ k s₃
      have h₁ : s₁.DrivesOk := h.over fun _ _ h => h.updRegion
      have h₃ : s₃.DrivesOk := h₁.frame.noteVolume.updCmd
      exact h₃.over fun _ _ h => h.over fun _ _ h => h.zeroStripe

theorem NextDrives.execVolumeCreateVault (h : s.DrivesOk) {acc} : NextDrives (execVolumeCreateVault acc s) :=
  .act (.run (h.start fun _ => h.check h.frame.volEvent.finish))

theorem NextDrives.execVolumeDelete (h : s.DrivesOk) {acc} : NextDrives (execVolumeDelete acc s) := by
  refine .vaultAct (h.start fun _ => ?_)
  dsimp only
  split
  · exact h.finish
  · exact .ite h.finish h.frame

theorem NextDrives.execVolumeAttach (h : s.DrivesOk) {acc} : NextDrives (execVolumeAttach acc s) := by
  refine .act (.run (h.start fun _ => .ite h.finish ?_))
  split
  · exact h.finish
  · exact .ite h.finish (.ite h.finish (.ite h.finish h.frame.noteVolume.volEvent.finishLogged))

theorem NextDrives.execVolumeDetach (h : s.DrivesOk) {acc} : NextDrives (execVolumeDetach acc s) := by
  refine .act (.run (h.start fun _ => ?_))
  dsimp only
  split
  · exact h.finish
  · exact .ite h.finish h.frame.settleWaits.dropStreams

theorem NextDrives.execMemberFail (h : s.DrivesOk) {acc} : NextDrives (execMemberFail acc s) :=
  .act (.run (h.start fun _ => h.check h.failMember.finishLogged))

theorem NextDrives.execMemberReplaceCopyback (h : s.DrivesOk) {acc} : NextDrives (execMemberReplaceCopyback acc s) :=
  .act (.run (h.start fun _ => h.check h.frame.memberTo.holdMember.copybackCheck.finishLogged))

theorem NextDrives.execMemberReplaceJoin (h : s.DrivesOk) {acc} : NextDrives (execMemberReplaceJoin acc s) := by
  refine .act (.run (h.start fun c => h.check ?_))
  extract_lets pool s₁ s₂
  have h₁ : s₁.DrivesOk := h.frame
  have h₂ : s₂.DrivesOk := h₁.noteChange.noteChange.holdMember
  exact h₂.frame.assignLogs.writeLabels.spareCheck.finishLogged

theorem State.DrivesOk.setPaused (h : s.DrivesOk) {c on} : (s.setPaused c on).DrivesOk := h.check h.frame.finish

theorem NextDrives.execRebuildPause (h : s.DrivesOk) {acc} : NextDrives (execRebuildPause acc s) := .act (.run (h.start fun _ => h.setPaused))

theorem NextDrives.execRebuildResume (h : s.DrivesOk) {acc} : NextDrives (execRebuildResume acc s) := .act (.run (h.start fun _ => h.setPaused))

theorem NextDrives.execRebuildPromote (h : s.DrivesOk) {acc} : NextDrives (execRebuildPromote acc s) :=
  .act (.run (h.start fun _ => .finish (.ite h.frame h)))

theorem NextDrives.execRebuildRetry (h : s.DrivesOk) {acc} : NextDrives (execRebuildRetry acc s) :=
  .act (.run (h.start fun _ => .finish (.ite h.frame h)))

theorem NextDrives.execConsistencyCheck (h : s.DrivesOk) {acc} : NextDrives (execConsistencyCheck acc s) :=
  .act (.run (h.start fun _ => h.check (.finish (h.over fun _ _ h => h.updRegion.updWork))))

/-! ### Commands that read and write -/

theorem State.DrivesOk.gather (h : s.DrivesOk) {c} : (s.gather c).DrivesOk := .ite h.takeFrames.updCmd.pump h.takeFrames.updCmd.tryCommit

theorem State.DrivesOk.gatherOrWait (h : s.DrivesOk) {c} : (s.gatherOrWait c).DrivesOk := .ite h.gather h.frame

theorem State.DrivesOk.startWrite (h : s.DrivesOk) {c} : (s.startWrite c).DrivesOk := .ite h.finish h.gatherOrWait

theorem State.DrivesOk.startZeroes (h : s.DrivesOk) {c} : (s.startZeroes c).DrivesOk :=
  .ite (.ite h.finish (.ite h.frame h.frame.logEntries)) h.gatherOrWait

theorem State.DrivesOk.vaultCommit (h : s.DrivesOk) {c} : (s.vaultCommit c).DrivesOk :=
  .ite h (.ite h.endVaultWrite (.ite h.frame.vprogram h.frame.logEntries))

theorem State.DrivesOk.lookBlock (h : s.DrivesOk) {acc vol v' lba} : (s.lookBlock acc vol v' lba).2.DrivesOk := by
  refine .iteSnd h ?_
  split
  · exact h
  · refine .iteSnd h.frame (.via (fun h => .iteSnd (.iteSnd h.rebuilt.freeFrame h.rebuilt.supersede) ?_) ?_)
    · split
      · exact h.recoverFrame
      · exact h.dropBlock
    · split
      · exact .ite h.markedExit h
      · exact h

theorem State.DrivesOk.attachFills (h : s.DrivesOk) {c fs} : (s.attachFills c fs).DrivesOk := by
  refine h.over fun _ _ h => .ite h.frame ?_
  split <;> exact h.frame

theorem State.DrivesOk.lookupArray (h : s.DrivesOk) {c v'} : (s.lookupArray c v').DrivesOk :=
  .via (fun h =>
      .via (fun h => .later (.ite h.noteStream h)) (.ite h.frame.attachFills h.frame.attachFills.startFill))
    (h.frame.foldlSnd fun _ _ h => h.lookBlock)

theorem State.DrivesOk.lookupVault (h : s.DrivesOk) {c} : (s.lookupVault c).DrivesOk := h.frame.startReads.later

theorem State.DrivesOk.lookup (h : s.DrivesOk) {acc} : (s.lookup acc).DrivesOk := by
  unfold State.lookup
  split
  · exact h
  · refine .ite h ?_
    split
    · exact h
    · exact .ite h.lookupVault (.ite h.lookupArray h)

theorem State.DrivesOk.startRead (h : s.DrivesOk) {c} : (s.startRead c).DrivesOk := h.frame.lookup

theorem NextDrives.execRead (h : s.DrivesOk) {acc} : NextDrives (execRead acc s) := .act (.run (h.start fun _ => h.startRead))

theorem NextDrives.execVerify (h : s.DrivesOk) {acc} : NextDrives (execVerify acc s) := .act (.run (h.start fun _ => h.startRead))

theorem NextDrives.execWrite (h : s.DrivesOk) {acc} : NextDrives (execWrite acc s) := .act (.run (h.start fun _ => h.startWrite))

theorem NextDrives.execWriteZeroes (h : s.DrivesOk) {acc} : NextDrives (execWriteZeroes acc s) := .act (.run (h.start fun _ => h.startZeroes))

theorem NextDrives.execDeallocate (h : s.DrivesOk) {acc} : NextDrives (execDeallocate acc s) := .act (.run (h.start fun _ => h.startZeroes))

theorem NextDrives.execFlush (h : s.DrivesOk) {acc} : NextDrives (execFlush acc s) :=
  .act (.run (h.start fun _ => .ite h.frame.settleWaits h.frame.writeCheck))

theorem NextDrives.execGatherFramesAvailable (h : s.DrivesOk) : NextDrives (execGatherFramesAvailable s) := by
  refine .act (.run ?_)
  split
  · exact .ite h.gather h
  · exact h

theorem NextDrives.execWriteCommit (h : s.DrivesOk) {acc} : NextDrives (execWriteCommit acc s) := by
  refine .act (.run ?_)
  split
  · exact .ite h (.ite h.vaultCommit h.tryCommit)
  · exact h

theorem NextDrives.execReadLookup (h : s.DrivesOk) {acc} : NextDrives (execReadLookup acc s) := .act h.lookup.run

theorem NextDrives.execAbort (h : s.DrivesOk) {acc} : NextDrives (execAbort acc s) := by
  refine .act (.run (h.start fun _ => ?_))
  split
  · exact h.finish
  · exact .ite h.freeAll.finish.finish h.finish

/-! ### Service commands -/

theorem State.DrivesOk.startTest (h : s.DrivesOk) {c kind} : (s.startTest c kind).DrivesOk :=
  h.check (.testStep (.finish (h.frame.over fun _ _ h => h.askIdentify)))

theorem NextDrives.execSelfTestShort (h : s.DrivesOk) {acc} : NextDrives (execSelfTestShort acc s) := .act (h.start fun _ => h.startTest)

theorem NextDrives.execSelfTestExtended (h : s.DrivesOk) {acc} : NextDrives (execSelfTestExtended acc s) := .act (h.start fun _ => h.startTest)

theorem NextDrives.execSelfTestAbort (h : s.DrivesOk) {acc} : NextDrives (execSelfTestAbort acc s) :=
  .act (h.start fun _ => h.selfTestEnds.finish)

theorem State.DrivesOk.unitFails (h : s.DrivesOk) {i} : (s.unitFails i).DrivesOk :=
  .via (fun h => .selfTestEnds (.ite h.beginMapOut h)) (.ite h.frame h.frame)

theorem NextDrives.execSelfTestComplete (h : s.DrivesOk) {failed} : NextDrives (execSelfTestComplete failed s) := by
  refine .act (.ite h ?_)
  split
  · exact h.unitFails.run
  · exact .ite h.selfTestEnds h

theorem State.DrivesOk.stageWrite (h : s.DrivesOk) {c} : (s.stageWrite c).DrivesOk :=
  .via (fun h => .ite h.frame.stageDone h.frame.vprogram) (.ite h.frame.closeUse.cullBlocks h.frame)

theorem NextDrives.execFwStage (h : s.DrivesOk) {acc} : NextDrives (execFwStage acc s) := .act (h.start fun _ => .ite h.finish h.stageWrite)

theorem NextDrives.execFwActivate (h : s.DrivesOk) {acc} : NextDrives (execFwActivate acc s) :=
  .act (h.start fun _ => h.check h.frame.event.finish)

theorem NextDrives.execEventRead (h : s.DrivesOk) {acc} : NextDrives (execEventRead acc s) :=
  .act (h.start fun _ => .ite h (.finish (.ite h h.hostWrite)))

theorem NextDrives.execEventClear (h : s.DrivesOk) {acc} : NextDrives (execEventClear acc s) :=
  .act (h.start fun _ => .ite h (.ite h.clearRecords.finish h.frame.finish))

theorem NextDrives.execHistogramRead (h : s.DrivesOk) {acc} : NextDrives (execHistogramRead acc s) := .act (h.start fun _ => .ite h h.reply)

theorem State.DrivesOk.lifeSnapshot (h : s.DrivesOk) : s.lifeSnapshot.DrivesOk :=
  State.DrivesOk.over (.ite h.frame h.frame) fun _ _ h => h.frame

theorem NextDrives.execHistogramIntervalEnd (h : s.DrivesOk) : NextDrives (execHistogramIntervalEnd s) :=
  .vaultAct (.ite h h.frame.lifeSnapshot.saveSeries)

theorem NextDrives.execHistogramSample (h : s.DrivesOk) {sample} : NextDrives (execHistogramSample sample s) :=
  .act (.ite h h.frame.countLife.countLife.countLife.countLife.countLife.countLife.countLife.countLife)

theorem State.DrivesOk.blockUnnamed (h : s.DrivesOk) : s.blockUnnamed.DrivesOk := h.over fun _ _ h => h.addLoss

theorem State.DrivesOk.gatherBad (h : s.DrivesOk) {f} : (s.gatherBad f).DrivesOk := by
  unfold State.gatherBad
  split
  · exact h
  · exact .ite h.transferFailed h.frame.pump

theorem State.DrivesOk.dirtyBad (h : s.DrivesOk) {f x} : (s.dirtyBad f x).DrivesOk := by
  refine .ite h ?_
  dsimp only
  split
  · exact h.frame.recoverFrame
  · exact h.frame.dropBlock

theorem State.DrivesOk.frameRebuilt (h : s.DrivesOk) {f} : (s.frameRebuilt f).DrivesOk := by
  unfold State.frameRebuilt
  split
  · exact h
  · split
    · exact h.supersede
    · exact h.freeFrame
    · exact h.gatherBad
    · exact h.dirtyBad
    · exact h.dirtyBad
    · exact .ite h.dirtyBad h
    · exact h

theorem State.DrivesOk.structureRebuilt (h : s.DrivesOk) {area index} : (s.structureRebuilt area index).DrivesOk := by
  unfold State.structureRebuilt
  dsimp only
  split
  · exact h.frame.frameRebuilt
  · exact .ite h.frame.regionLost h.frame
  · exact h.frame.closeParison
  · split
    · split
      · exact h.frame.frameRebuilt
      · exact h.frame.frameRebuilt
      · exact h.frame.frameRebuilt
      · exact .ite h.frame.freeFrame h.frame
      · exact h.frame
    · exact h.frame
  · exact h.frame

theorem State.DrivesOk.foundBy (h : s.DrivesOk) {code p1 p2 p3} : (s.foundBy code p1 p2 p3).DrivesOk :=
  .ite h
    (.ite h.countFixed
       (.ite (.run (.ite h.frame.channelWindow h.frame))
          (.ite h.frame (.ite h.structureRebuilt.run (.ite h.alert (.ite h.blockUnnamed.run h))))))

theorem NextDrives.execRecordAccept (h : s.DrivesOk) {code src p1 p2 p3} : NextDrives (execRecordAccept code src p1 p2 p3 s) :=
  .act (.ite h h.foundBy.record)

theorem NextDrives.execRecorderCommit (h : s.DrivesOk) : NextDrives (execRecorderCommit s) := .vaultAct (.ite h h.frame.vprogram)

theorem NextDrives.execOperatingSecondsSave (h : s.DrivesOk) : NextDrives (execOperatingSecondsSave s) :=
  .vaultAct (.ite h h.frame.vprogram)

theorem NextDrives.execClockSet (h : s.DrivesOk) {acc} : NextDrives (execClockSet acc s) := .act (h.start fun _ => h.frame.event.finish)

end

end Sys2Proof.Machine
end

section
/-! PROOFS. The power die's outputs in the rows of destage, rebuild, registers and sideband. -/

namespace Sys2Proof.Machine

open Sys2Proof

section

variable {s t u v : State}

/-! ### Destage rows -/

theorem NextDrives.execStripeInterlockGrant (h : s.DrivesOk) {region stripe} : NextDrives (execStripeInterlockGrant region stripe s) :=
  .act (.ite h h.grantLock.run)

theorem NextDrives.execDestageStart (h : s.DrivesOk) : NextDrives (execDestageStart s) := .act h.destageNext.run

theorem NextDrives.execDestageAgeLimit (h : s.DrivesOk) {region stripe} : NextDrives (execDestageAgeLimit region stripe s) :=
  .act (.ite h h.frame.run)

theorem State.DrivesOk.tryRoom (h : s.DrivesOk) {id} : (s.tryRoom id).DrivesOk := by
  unfold State.tryRoom
  split
  · exact h
  · split
    · exact .ite h.toFull h.beginDestage
    · exact h.startRedestage
    · exact h.beginRepair

theorem NextDrives.execDestageEntryFreed (h : s.DrivesOk) : NextDrives (execDestageEntryFreed s) :=
  .act (.ite h (.run (h.over fun _ _ h => h.tryRoom)))

theorem NextDrives.execStagingRunFreed (h : s.DrivesOk) : NextDrives (execStagingRunFreed s) :=
  .act (.ite h (.run (h.over fun _ _ h => h.tryRoom)))

theorem NextDrives.execCommitStall (h : s.DrivesOk) : NextDrives (execCommitStall s) := by
  refine .act ?_
  split
  · exact h
  · exact .ite h h.frame.event

theorem NextDrives.execReclaimSweep (h : s.DrivesOk) : NextDrives (execReclaimSweep s) :=
  .act (.ite h (.via (fun h => .run (.ite h.sweepList.frame h.sweepList)) (h.frame.over fun _ _ h => h.cancelUnits)))

theorem NextDrives.execLrRecompute (h : s.DrivesOk) : NextDrives (execLrRecompute s) := .act (.ite h h.frame.permissionCheck.run)

theorem NextDrives.execPermissionReturnFull (h : s.DrivesOk) : NextDrives (execPermissionReturnFull s) := .act (.ite h h.permissionFull.run)

theorem NextDrives.execRetireFlush (h : s.DrivesOk) : NextDrives (execRetireFlush s) := .vaultAct (.ite h h.retireNow)

theorem NextDrives.execJournalSpaceFreed (h : s.DrivesOk) : NextDrives (execJournalSpaceFreed s) :=
  .vaultAct (.ite h (.ite h.retireNow.journalRetry h.journalRetry))

theorem NextDrives.execJournalFull (h : s.DrivesOk) : NextDrives (execJournalFull s) := .act (.ite h h.frame.event)

theorem State.DrivesOk.tileFailures (h : s.DrivesOk) {t' before} : (s.tileFailures t' before).DrivesOk :=
  .ite h (.ite h.frame.beginMapOut h.frame)

theorem State.DrivesOk.mismatchEvent (h : s.DrivesOk) {tile x o} : (s.mismatchEvent tile x o).DrivesOk := by
  unfold State.mismatchEvent
  dsimp only
  split
  · exact .ite h h.event
  · exact .ite h h.event
  · exact h

theorem State.DrivesOk.jobDone (h : s.DrivesOk) {tile j words} : (s.jobDone tile j words).DrivesOk := by
  unfold State.jobDone
  split
  · exact h.absorbed
  · split
    · exact h
    · refine .ite h ?_
      dsimp only
      split
      · exact h.frame.opDone.mismatchEvent.tileFailures
      · exact h.frame.opDone.mismatchEvent
  · exact h

theorem State.DrivesOk.badInput (h : s.DrivesOk) {tile again frame} : (s.badInput tile again frame).DrivesOk := by
  unfold State.badInput
  split
  · exact .ite h h.wordBad
  · exact .ite h h.frame.channelWord

theorem State.DrivesOk.jobBad (h : s.DrivesOk) {tile j input seg} : (s.jobBad tile j input seg).DrivesOk := by
  unfold State.jobBad
  dsimp only
  split
  · exact h.event.badInput.absorbFailed
  · exact h.event.badInput.unitFails
  · split
    · exact .ite h.event.badInput.jobFailed h.event.badInput
    · exact h.event.badInput
  · exact h.event.badInput

theorem State.DrivesOk.wroteBack (h : s.DrivesOk) {j w} : (s.wroteBack j w).DrivesOk := by
  unfold State.wroteBack
  split <;> exact h.frame

theorem State.DrivesOk.jobReply (h : s.DrivesOk) {tile j words} : (s.jobReply tile j words).DrivesOk := by
  unfold State.jobReply
  extract_lets words marked early seen before_ s₁ s₂
  have h₁ : s₁.DrivesOk := h.over fun _ _ h => h.wordFixed.event.wroteBack
  have h₂ : s₂.DrivesOk := by
    unfold s₂
    clear_value marked
    split
    · split
      · exact h₁.jobBad
      · exact h₁.jobDone
    · exact h₁.jobBad
  exact h₂.unpin

theorem NextDrives.execTileJobComplete (h : s.DrivesOk) {tile words} : NextDrives (execTileJobComplete tile words s) := by
  refine .vaultAct ?_
  split
  · exact h
  · exact .ite h (h.frame.replyTo fun _ h => h.jobReply)

theorem State.DrivesOk.resend (h : s.DrivesOk) {j} : (s.resend j).DrivesOk := by
  unfold State.resend
  split
  · split
    · exact h.unpin
    · exact h.takeHome.sendJob
  · exact h.sendJob

theorem NextDrives.execTileQueuePlaceFreed (h : s.DrivesOk) : NextDrives (execTileQueuePlaceFreed s) :=
  .act (.ite h (.run (h.frame.over fun _ _ h => h.resend)))

theorem NextDrives.execStreamIdle (h : s.DrivesOk) {stream} : NextDrives (execStreamIdle stream s) := by
  refine .act ?_
  split
  · exact h
  · exact .ite h h.cancelUnits.frame.run

theorem NextDrives.execRunaheadFramesAvailable (h : s.DrivesOk) : NextDrives (execRunaheadFramesAvailable s) :=
  .act (.ite h (.run (h.over fun _ _ h => h.feedStream)))

/-! ### Rebuild, move and scrub rows -/

theorem State.DrivesOk.takePlace (h : s.DrivesOk) {r} : (s.takePlace r).DrivesOk := h.frame

theorem State.DrivesOk.beginLost (h : s.DrivesOk) {r} : (s.beginLost r).DrivesOk := by
  refine .ite (.ite h.startReplace.takePlace h.startReplace) ?_
  split
  · exact h.event.noteWait
  · exact h.updRegion.updWork.takePlace

theorem State.DrivesOk.resumeRebuild (h : s.DrivesOk) {r} : (s.resumeRebuild r).DrivesOk :=
  .via (fun h => .ite h h.frame) (.ite (.ite h.frame.replaceAgain h.frame) (.ite h.frame h.frame.furtherLoss))

theorem State.DrivesOk.beginRebuild (h : s.DrivesOk) {r} : (s.beginRebuild r).DrivesOk := .ite h.resumeRebuild h.beginLost

theorem NextDrives.execRebuildRegionStart (h : s.DrivesOk) : NextDrives (execRebuildRegionStart s) := by
  refine .act (.ite h ?_)
  split
  · exact h
  · refine .ite h.beginRebuild.run (.ite h ?_)
    split
    · exact h
    · exact h.frame.beginRebuild.run

theorem State.DrivesOk.issueStripe (h : s.DrivesOk) {r k} : (s.issueStripe r k).DrivesOk := h.frame.newTask

theorem NextDrives.execRebuildStripeStart (h : s.DrivesOk) {region} : NextDrives (execRebuildStripeStart region s) := by
  refine .act (.ite h ?_)
  split
  · exact h
  · exact h.issueStripe.run

theorem NextDrives.execRebuildRetryTimer (h : s.DrivesOk) {region} : NextDrives (execRebuildRetryTimer region s) := .act (.ite h h.frame)

theorem NextDrives.execRebuildStarved (h : s.DrivesOk) {pool} : NextDrives (execRebuildStarved pool s) := by
  refine .act ?_
  split
  · exact h
  · split
    · exact h
    · exact .ite h h.frame.event

theorem State.DrivesOk.beginMove (h : s.DrivesOk) {r mv} : (s.beginMove r mv).DrivesOk := by
  unfold State.beginMove
  exact h.updRegion.updWork

theorem State.DrivesOk.startMove (h : s.DrivesOk) {r} : (s.startMove r).DrivesOk := by
  unfold State.startMove
  dsimp only
  split
  · exact h.beginMove
  · split
    · exact h
    · refine .ite h.startReplace ?_
      split
      · exact h.event.noteWait
      · exact h.beginMove

theorem NextDrives.execMoveStart (h : s.DrivesOk) : NextDrives (execMoveStart s) := by
  refine .act (.ite h ?_)
  split
  · exact h
  · exact .ite h.replaceAgain.run (.ite h h.startMove.run)

theorem NextDrives.execScrubPassStart (h : s.DrivesOk) {pool} : NextDrives (execScrubPassStart pool s) := by
  refine .act ?_
  split
  · exact h
  · exact .ite h h.frame

theorem NextDrives.execScrubPeriodEnd (h : s.DrivesOk) {pool} : NextDrives (execScrubPeriodEnd pool s) := by
  refine .act ?_
  split
  · exact h
  · split
    · exact h
    · exact .ite h h.frame.event

theorem State.DrivesOk.scrubTask (h : s.DrivesOk) {r k report check' paid} : (s.scrubTask r k report check' paid).DrivesOk :=
  .newTask (.ite h.frame h)

theorem State.DrivesOk.checkStripe (h : s.DrivesOk) {r paid} : (s.checkStripe r paid).DrivesOk := h.frame.scrubTask

theorem State.DrivesOk.passStep (h : s.DrivesOk) {pool p r k} : (s.passStep pool p r k).DrivesOk := by
  unfold State.passStep
  dsimp only
  split
  · exact .ite h h.frame.scrubTask
  · exact .ite h h.frame

theorem NextDrives.execScrubStripe (h : s.DrivesOk) {pool} : NextDrives (execScrubStripe pool s) := by
  refine .act ?_
  split
  · exact h
  · refine .ite h (.ite ?_ (.ite h ?_))
    · split
      · exact h.checkStripe.run
      · exact h
    · split
      · exact h.checkStripe.run
      · split
        · exact .ite h.checkStripe.run h
        · split
          · exact h.passStep.run
          · exact h

/-! ### Registers -/

theorem State.DrivesOk.writeControl (h : s.DrivesOk) {f v'} : (s.writeControl f v').DrivesOk := h.frame.causeDue

theorem State.DrivesOk.writeGlobal (h : s.DrivesOk) {f offset v'} : (s.writeGlobal f offset v').DrivesOk := by
  unfold State.writeGlobal
  split
  · exact h.writeControl
  · exact .ite h.frame h
  · exact h.frame
  · exact h.writeMask
  · exact h

theorem State.DrivesOk.writeFunction (h : s.DrivesOk) {f offset v'} : (s.writeFunction f offset v').DrivesOk := by
  refine .ite (.via (fun h => .ite h.adminEnable h) (.ite h.frame h)) (.ite h ?_)
  split <;> exact h.frame

theorem State.DrivesOk.writeGovernor (h : s.DrivesOk) {offset v'} : (s.writeGovernor offset v').DrivesOk := by
  unfold State.writeGovernor
  dsimp only
  split <;> exact h.frame

theorem State.DrivesOk.writeLoop (h : s.DrivesOk) {j offset v'} : (s.writeLoop j offset v').DrivesOk := by
  unfold State.writeLoop
  split <;> exact h.frame

theorem State.DrivesOk.writePack (h : s.DrivesOk) {offset v'} : (s.writePack offset v').DrivesOk := .ite h.updPack h

theorem State.DrivesOk.writeDoorbell (h : s.DrivesOk) {f offset v'} : (s.writeDoorbell f offset v').DrivesOk := by
  unfold State.writeDoorbell
  dsimp only
  split
  · exact h.tailValue.ltrTouch
  · exact h.headValue.ltrTouch
  · exact h

theorem State.DrivesOk.writeWord (h : s.DrivesOk) {f bar offset v'} : (s.writeWord f bar offset v').DrivesOk := by
  unfold State.writeWord
  split
  · exact h
  · exact h.writeGlobal
  · exact h.writeFunction
  · exact h.writeDoorbell
  · exact h.writeGovernor
  · exact h.writeLoop
  · exact h.writePack
  · exact h.writeMsix
  · exact h
  · exact h

theorem State.DrivesOk.barWrite (h : s.DrivesOk) {f bar offset len v' poisoned} : (s.barWrite f bar offset len v' poisoned).DrivesOk :=
  .ite h (.ite (h.mmio h) (.ite h.aer.fnEvent (.ite h (.ite h.badAccess (.ite h.writeWord.writeWord h.writeWord)))))

theorem State.DrivesOk.pfSet (h : s.DrivesOk) {f g} : (s.pfSet f g).DrivesOk := .ite h.frame h

theorem State.DrivesOk.writeLtr (h : s.DrivesOk) {f on} : (s.writeLtr f on).DrivesOk := .ite h.pfSet.sendLtr h.pfSet

theorem State.DrivesOk.writeBar (h : s.DrivesOk) {f d v'} : (s.writeBar f d v').DrivesOk := by
  refine .ite h ?_
  split
  · exact h.frame
  · exact h.frame
  · exact h.frame
  · exact h.frame
  · exact .ite h h.pfSet
  · exact .ite h h.pfSet
  · exact .ite h h.pfSet
  · exact .ite h h.pfSet

theorem State.DrivesOk.configWrite (h : s.DrivesOk) {f field v'} : (s.configWrite f field v').DrivesOk := by
  refine .ite h ?_
  split
  · exact h.writeBar
  · exact h.pfSet
  · exact h.pfSet
  · exact h.pfSet
  · exact h.frame
  · exact h.frame
  · exact h.frame
  · exact h.frame
  · exact h.frame
  · exact h.frame.flushPba
  · exact h.frame.flushPba
  · exact h.writeLtr
  · exact h.pfSet
  · exact h.pfSet
  · exact h.frame
  · exact h.frame
  · exact h.frame
  · exact h.frame
  · exact h.frame
  · exact h.frame
  · exact h.frame
  · exact h.frame
  · exact h.frame
  · exact h.frame
  · exact h.frame

/-! ### Sideband -/

theorem State.DrivesOk.updSb (h : s.DrivesOk) {g} : (s.updSb g).DrivesOk := h.frame

theorem State.DrivesOk.sbReadClears (h : s.DrivesOk) {offset n} : (s.sbReadClears offset n).DrivesOk := .ite h.frame h

theorem State.DrivesOk.alertSettles (h : s.DrivesOk) : s.alertSettles.DrivesOk := .ite h.endAlert h

theorem State.DrivesOk.raiseIbi (h : s.DrivesOk) : s.raiseIbi.DrivesOk := .ite h.frame h

theorem State.DrivesOk.alertPending (h : s.DrivesOk) : s.alertPending.DrivesOk := .raiseIbi (.ite h h.frame)

theorem State.DrivesOk.sbStatusWrite (h : s.DrivesOk) {v'} : (s.sbStatusWrite v').DrivesOk := h.frame.alertSettles

theorem State.DrivesOk.sbEnableWrite (h : s.DrivesOk) {v'} : (s.sbEnableWrite v').DrivesOk :=
  .ite h.frame.alertPending h.frame.alertSettles

theorem State.DrivesOk.sbCommand (h : s.DrivesOk) {n} : (s.sbCommand n).DrivesOk := .ite h.frame.event h.frame

theorem State.DrivesOk.sbWrite (h : s.DrivesOk) {offset v'} : (s.sbWrite offset v').DrivesOk := by
  unfold State.sbWrite
  split
  · exact h.sbStatusWrite
  · exact h.sbEnableWrite
  · exact h.sbCommand
  · exact .ite h.frame h
  · exact .ite h.frame h

theorem State.DrivesOk.sbWrites (h : s.DrivesOk) {offset data} : (s.sbWrites offset data).DrivesOk := h.over fun _ _ h => h.sbWrite

theorem State.DrivesOk.sbSmbus (h : s.DrivesOk) {offset count data pec} : (s.sbSmbus offset count data pec).DrivesOk :=
  .ite h (.ite h.frame.event (.ite h h.sbWrites))

theorem State.DrivesOk.sbI3c (h : s.DrivesOk) {offset data} : (s.sbI3c offset data).DrivesOk := .ite h h.frame.sbWrites

theorem State.DrivesOk.sbBlockRead (h : s.DrivesOk) {offset pec} : (s.sbBlockRead offset pec).DrivesOk := .ite h h.frame.sbReadClears

theorem State.DrivesOk.sbPrivateRead (h : s.DrivesOk) {count} : (s.sbPrivateRead count).DrivesOk := .ite h h.frame.sbReadClears.updSb

theorem NextDrives.execRegisterWrite (h : s.DrivesOk) {target} : NextDrives (execRegisterWrite target s) := by
  refine .act ?_
  split
  · exact h.barWrite.run
  · exact h.configWrite.run
  · exact .ite h.sbSmbus h
  · exact .ite h.sbI3c h
  · exact .ite h.sbBlockRead h
  · exact .ite h.sbPrivateRead h

theorem State.DrivesOk.mailbox (h : s.DrivesOk) {n} : (s.mailbox n).DrivesOk := .ite h.sbCommand h

theorem NextDrives.execGetIdentity (h : s.DrivesOk) : NextDrives (execGetIdentity s) := .act h.mailbox

theorem NextDrives.execGetHealth (h : s.DrivesOk) : NextDrives (execGetHealth s) := .act h.mailbox

theorem NextDrives.execReadLog (h : s.DrivesOk) : NextDrives (execReadLog s) := .act h.mailbox

theorem NextDrives.execReadEvent (h : s.DrivesOk) : NextDrives (execReadEvent s) := .act h.mailbox

theorem NextDrives.execClearEvents (h : s.DrivesOk) : NextDrives (execClearEvents s) := .act h.mailbox

theorem NextDrives.execReadHistogram (h : s.DrivesOk) : NextDrives (execReadHistogram s) := .act h.mailbox

theorem NextDrives.execReadPack (h : s.DrivesOk) : NextDrives (execReadPack s) := .act h.mailbox

theorem NextDrives.execMailboxComplete (h : s.DrivesOk) : NextDrives (execMailboxComplete s) :=
  .act (.ite h (.alert (.updSb (.ite h.clearRecords h))))

theorem NextDrives.execAlertStatusClear (h : s.DrivesOk) {value} : NextDrives (execAlertStatusClear value s) := .act (.ite h.sbStatusWrite h)

theorem NextDrives.execAlertEnableWrite (h : s.DrivesOk) {value} : NextDrives (execAlertEnableWrite value s) := .act (.ite h.sbEnableWrite h)

theorem NextDrives.execPecErrorsRead (h : s.DrivesOk) : NextDrives (execPecErrorsRead s) := .act (.ite h.frame h)

theorem NextDrives.execAlertResponse (h : s.DrivesOk) : NextDrives (execAlertResponse s) := .act (.ite h.frame.endAlert h)

theorem NextDrives.execIbiRetry (h : s.DrivesOk) {acked} : NextDrives (execIbiRetry acked s) :=
  .act (.ite h (.ite h.endAlert (.ite h h.raiseIbi)))

theorem State.DrivesOk.sbMode (h : s.DrivesOk) {i3c address} : (s.sbMode i3c address).DrivesOk := h.frame.event

theorem State.DrivesOk.sbAssign (h : s.DrivesOk) {address} : (s.sbAssign address).DrivesOk := .ite h.sbMode h

theorem NextDrives.execEntdaa (h : s.DrivesOk) {dynamicAddr} : NextDrives (execEntdaa dynamicAddr s) := .act h.sbAssign

theorem NextDrives.execSetdasa (h : s.DrivesOk) {dynamicAddr} : NextDrives (execSetdasa dynamicAddr s) := .act h.sbAssign

theorem NextDrives.execRstdaa (h : s.DrivesOk) : NextDrives (execRstdaa s) := .act (.ite h.sbMode h)

theorem NextDrives.execEnec (h : s.DrivesOk) : NextDrives (execEnec s) := .act (.ite h.frame.raiseIbi h)

theorem NextDrives.execDisec (h : s.DrivesOk) : NextDrives (execDisec s) := .act (.ite h.frame h)

theorem State.DrivesOk.sbAnswer (h : s.DrivesOk) {data} : (s.sbAnswer data).DrivesOk := .ite h.frame h

theorem NextDrives.execGetpid (h : s.DrivesOk) : NextDrives (execGetpid s) := .act h.sbAnswer

theorem NextDrives.execGetbcr (h : s.DrivesOk) : NextDrives (execGetbcr s) := .act h.sbAnswer

theorem NextDrives.execGetdcr (h : s.DrivesOk) : NextDrives (execGetdcr s) := .act h.sbAnswer

theorem NextDrives.execGetstatus (h : s.DrivesOk) : NextDrives (execGetstatus s) := .act h.sbAnswer

theorem NextDrives.execGetmwl (h : s.DrivesOk) : NextDrives (execGetmwl s) := .act h.sbAnswer

theorem NextDrives.execGetmrl (h : s.DrivesOk) : NextDrives (execGetmrl s) := .act h.sbAnswer

end

end Sys2Proof.Machine
end

section
/-! PROOFS. The power die's outputs at every step, and the statement O8. -/

namespace Sys2Proof.Machine

open Sys2Proof

section

variable {s t u v : State}

theorem NextDrives.exec (h : s.DrivesOk) (i : Instr) : NextDrives (exec i s) := by
  cases i with
  | read => exact .execRead h
  | write => exact .execWrite h
  | flush => exact .execFlush h
  | writeZeroes => exact .execWriteZeroes h
  | deallocate => exact .execDeallocate h
  | verify => exact .execVerify h
  | identifyModule => exact .execIdentifyModule h
  | identifyVolumes => exact .execIdentifyVolumes h
  | identifyTemplate => exact .execIdentifyTemplate h
  | ringCreateSubmission => exact .execRingCreateSubmission h
  | ringCreateCompletion => exact .execRingCreateCompletion h
  | getLog => exact .execGetLog h
  | getFeature => exact .execGetFeature h
  | setFeatureAckMode => exact .execSetFeatureAckMode h
  | setFeatureAgeLimit => exact .execSetFeatureAgeLimit h
  | setFeatureLossAck => exact .execSetFeatureLossAck h
  | setFeatureDirtyLimit => exact .execSetFeatureDirtyLimit h
  | setFeatureHedge => exact .execSetFeatureHedge h
  | setFeatureHardTimeout => exact .execSetFeatureHardTimeout h
  | setFeatureMediaThreshold => exact .execSetFeatureMediaThreshold h
  | setFeatureScrubPeriod => exact .execSetFeatureScrubPeriod h
  | setFeaturePatrolPeriod => exact .execSetFeaturePatrolPeriod h
  | setFeatureRefreshThreshold => exact .execSetFeatureRefreshThreshold h
  | setFeatureTagBudget => exact .execSetFeatureTagBudget h
  | setFeatureClassWeights => exact .execSetFeatureClassWeights h
  | setFeatureMaxClass => exact .execSetFeatureMaxClass h
  | setFeatureRateLimit => exact .execSetFeatureRateLimit h
  | setFeatureStallTimeout => exact .execSetFeatureStallTimeout h
  | setFeatureExportWait => exact .execSetFeatureExportWait h
  | setFeatureTimeBase => exact .execSetFeatureTimeBase h
  | abort => exact .execAbort h
  | templateDefine => exact .execTemplateDefine h
  | templateDelete => exact .execTemplateDelete h
  | poolCreate => exact .execPoolCreate h
  | poolDelete => exact .execPoolDelete h
  | poolExpand => exact .execPoolExpand h
  | poolExpandSpare => exact .execPoolExpandSpare h
  | volumeCreateArray => exact .execVolumeCreateArray h
  | volumeCreateVault => exact .execVolumeCreateVault h
  | volumeDelete => exact .execVolumeDelete h
  | volumeAttach => exact .execVolumeAttach h
  | volumeDetach => exact .execVolumeDetach h
  | memberFail => exact .execMemberFail h
  | memberReplaceCopyback => exact .execMemberReplaceCopyback h
  | memberReplaceJoin => exact .execMemberReplaceJoin h
  | rebuildPause => exact .execRebuildPause h
  | rebuildResume => exact .execRebuildResume h
  | rebuildPromote => exact .execRebuildPromote h
  | rebuildRetry => exact .execRebuildRetry h
  | consistencyCheck => exact .execConsistencyCheck h
  | deviceStop => exact .execDeviceStop h
  | deviceStart => exact .execDeviceStart h
  | configStageGovernor => exact .execConfigStageGovernor h
  | configStagePack => exact .execConfigStagePack h
  | configDiscard => exact .execConfigDiscard h
  | selfTestShort => exact .execSelfTestShort h
  | selfTestExtended => exact .execSelfTestExtended h
  | selfTestAbort => exact .execSelfTestAbort h
  | selfTestComplete => exact .execSelfTestComplete h
  | fwStage => exact .execFwStage h
  | fwActivate => exact .execFwActivate h
  | eventRead => exact .execEventRead h
  | eventClear => exact .execEventClear h
  | histogramRead => exact .execHistogramRead h
  | packReplaced => exact .execPackReplaced h
  | packLearn => exact .execPackLearn h
  | packLearnAbort => exact .execPackLearnAbort h
  | shipModeArm => exact .execShipModeArm h
  | shipModeCancel => exact .execShipModeCancel h
  | arrayImport => exact .execArrayImport h
  | pairBind => exact .execPairBind h
  | pairUnbind => exact .execPairUnbind h
  | pairDiscardDump => exact .execPairDiscardDump h
  | slotPowerOn => exact .execSlotPowerOn h
  | slotPowerOff => exact .execSlotPowerOff h
  | slotLocateOn => exact .execSlotLocateOn h
  | slotLocateOff => exact .execSlotLocateOff h
  | slotAutomaticPower => exact .execSlotAutomaticPower h
  | slotButtonPolicy => exact .execSlotButtonPolicy h
  | clockSet => exact .execClockSet h
  | sqTail => exact .execSqTail h
  | cqHead => exact .execCqHead h
  | shadowPoll => exact .execShadowPoll h
  | adminEn => exact .execAdminEn h
  | causeWrite => exact .execCauseWrite h
  | causeMaskWrite => exact .execCauseMaskWrite h
  | intEnWrite => exact .execIntEnWrite h
  | force => exact .execForce h
  | suppressedTotalRead => exact .execSuppressedTotalRead h
  | overrunsRead => exact .execOverrunsRead h
  | msixEntryWrite => exact .execMsixEntryWrite h
  | registerWrite => exact .execRegisterWrite h
  | ringGrant => exact .execRingGrant h
  | hostCompletion => exact .execHostCompletion h
  | completionTimeout => exact .execCompletionTimeout h
  | tagHoldExpiry => exact .execTagHoldExpiry h
  | coalescingTime => exact .execCoalescingTime h
  | cqStall => exact .execCqStall h
  | stashPoolEmpty => exact .execStashPoolEmpty h
  | ltrIdle => exact .execLtrIdle h
  | hostLinkUp => exact .execHostLinkUp h
  | hostLinkDown => exact .execHostLinkDown h
  | hotReset => exact .execHotReset h
  | flr => exact .execFlr h
  | vfEnableCleared => exact .execVfEnableCleared h
  | busMasterEnableCleared => exact .execBusMasterEnableCleared h
  | busMasterEnableSet => exact .execBusMasterEnableSet h
  | d3hotEntry => exact .execD3hotEntry h
  | d0Return => exact .execD0Return h
  | perstNAssert => exact .execPerstNAssert h
  | perstNDeassert => exact .execPerstNDeassert h
  | gatherFramesAvailable => exact .execGatherFramesAvailable h
  | writeCommit => exact .execWriteCommit h
  | readLookup => exact .execReadLookup h
  | stripeInterlockGrant => exact .execStripeInterlockGrant h
  | destageStart => exact .execDestageStart h
  | destageAgeLimit => exact .execDestageAgeLimit h
  | destageEntryFreed => exact .execDestageEntryFreed h
  | stagingRunFreed => exact .execStagingRunFreed h
  | commitStall => exact .execCommitStall h
  | reclaimSweep => exact .execReclaimSweep h
  | lrRecompute => exact .execLrRecompute h
  | permissionReturnFull => exact .execPermissionReturnFull h
  | retireFlush => exact .execRetireFlush h
  | journalSpaceFreed => exact .execJournalSpaceFreed h
  | journalFull => exact .execJournalFull h
  | tileJobComplete => exact .execTileJobComplete h
  | tileQueuePlaceFreed => exact .execTileQueuePlaceFreed h
  | driveCompletion => exact .execDriveCompletion h
  | hedgeDelay => exact .execHedgeDelay h
  | hedgeHoldTimeout => exact .execHedgeHoldTimeout h
  | hedgeIntervalEnd => exact .execHedgeIntervalEnd h
  | hedgeThresholdUpdate => exact .execHedgeThresholdUpdate h
  | streamIdle => exact .execStreamIdle h
  | runaheadFramesAvailable => exact .execRunaheadFramesAvailable h
  | driveLinkUp => exact .execDriveLinkUp h
  | driveLinkDown => exact .execDriveLinkDown h
  | linkDownHoldExpiry => exact .execLinkDownHoldExpiry h
  | portNoLink => exact .execPortNoLink h
  | drivePerstDeassert => exact .execDrivePerstDeassert h
  | smartPoll => exact .execSmartPoll h
  | asynchronousEvent => exact .execAsynchronousEvent h
  | softTimeout => exact .execSoftTimeout h
  | hardTimeout => exact .execHardTimeout h
  | quarantineTimeout => exact .execQuarantineTimeout h
  | adminCommandTimeout => exact .execAdminCommandTimeout h
  | controllerDisabled => exact .execControllerDisabled h
  | controllerResetTimeout => exact .execControllerResetTimeout h
  | controllerFatalStatus => exact .execControllerFatalStatus h
  | slotScan => exact .execSlotScan h
  | slotPresenceChange => exact .execSlotPresenceChange h
  | slotButtonPress => exact .execSlotButtonPress h
  | buttonWindowEnd => exact .execButtonWindowEnd h
  | slotPowerFault => exact .execSlotPowerFault h
  | slotPowerGood => exact .execSlotPowerGood h
  | slotPowerOffDelay => exact .execSlotPowerOffDelay h
  | rebuildRegionStart => exact .execRebuildRegionStart h
  | rebuildStripeStart => exact .execRebuildStripeStart h
  | rebuildRetryTimer => exact .execRebuildRetryTimer h
  | rebuildStarved => exact .execRebuildStarved h
  | moveStart => exact .execMoveStart h
  | scrubPassStart => exact .execScrubPassStart h
  | scrubPeriodEnd => exact .execScrubPeriodEnd h
  | scrubStripe => exact .execScrubStripe h
  | govSampleInstant => exact .execGovSampleInstant h
  | govComputationDone => exact .execGovComputationDone h
  | pwmInputLost => exact .execPwmInputLost h
  | pwmSteadyHigh => exact .execPwmSteadyHigh h
  | pwmInputRestored => exact .execPwmInputRestored h
  | vaultProgramComplete => exact .execVaultProgramComplete h
  | vaultReadComplete => exact .execVaultReadComplete h
  | vaultEraseComplete => exact .execVaultEraseComplete h
  | vaultCheckpoint => exact .execVaultCheckpoint h
  | wearMoveCheck => exact .execWearMoveCheck h
  | garbageCollectionStart => exact .execGarbageCollectionStart h
  | vaultBlockOpenable => exact .execVaultBlockOpenable h
  | patrolPassStart => exact .execPatrolPassStart h
  | patrolPeriodEnd => exact .execPatrolPeriodEnd h
  | vaultRequestTimeout => exact .execVaultRequestTimeout h
  | percentUsedRecompute => exact .execPercentUsedRecompute h
  | vaultOperationTimeout => exact .execVaultOperationTimeout h
  | statusFrame => exact .execStatusFrame h
  | statusFrameTimeout => exact .execStatusFrameTimeout h
  | packEnergyAvailable => exact .execPackEnergyAvailable h
  | powerFailDetect => exact .execPowerFailDetect h
  | powerFailStrobe => exact .execPowerFailStrobe h
  | dumpCommandFrame => exact .execDumpCommandFrame h
  | lehrSealed => exact .execLehrSealed h
  | lehrTimeout => exact .execLehrTimeout h
  | puntyRelease => exact .execPuntyRelease h
  | vinOvervoltage => exact .execVinOvervoltage h
  | vinReturnInRange => exact .execVinReturnInRange h
  | vinBelowHoldup => exact .execVinBelowHoldup h
  | vinAboveHoldup => exact .execVinAboveHoldup h
  | holdupUvlo => exact .execHoldupUvlo h
  | holdupUvloRecover => exact .execHoldupUvloRecover h
  | packPresenceChange => exact .execPackPresenceChange h
  | identifyComplete => exact .execIdentifyComplete h
  | chargePhaseChange => exact .execChargePhaseChange h
  | chargeTermination => exact .execChargeTermination h
  | rechargeNeeded => exact .execRechargeNeeded h
  | chargeEnd => exact .execChargeEnd h
  | chargeHoldRelease => exact .execChargeHoldRelease h
  | learnDischargeDone => exact .execLearnDischargeDone h
  | learnRestTimeout => exact .execLearnRestTimeout h
  | eavailCompute => exact .execEavailCompute h
  | restPoint => exact .execRestPoint h
  | learnOverdue => exact .execLearnOverdue h
  | gaugeStorePeriodic => exact .execGaugeStorePeriodic h
  | shipCleanReport => exact .execShipCleanReport h
  | shipReconnect => exact .execShipReconnect h
  | powerDieStart => exact .execPowerDieStart h
  | packSample => exact .execPackSample h
  | logicDieResetExit => exact .execLogicDieResetExit h
  | startupReady => exact .execStartupReady h
  | pairHeartbeat => exact .execPairHeartbeat h
  | partnerLost => exact .execPartnerLost h
  | arbHbToggle => exact .execArbHbToggle h
  | fatalCondition => exact .execFatalCondition h
  | watchdogExpiry => exact .execWatchdogExpiry h
  | arbFenceAssert => exact .execArbFenceAssert h
  | arbFenceRelease => exact .execArbFenceRelease h
  | arbTakeAssert => exact .execArbTakeAssert h
  | fenceDrainTimeout => exact .execFenceDrainTimeout h
  | exportRequest => exact .execExportRequest h
  | release => exact .execRelease h
  | exportWait => exact .execExportWait h
  | driveSettle => exact .execDriveSettle h
  | changeLogFlush => exact .execChangeLogFlush h
  | metadataCheckpoint => exact .execMetadataCheckpoint h
  | bitmapRewrite => exact .execBitmapRewrite h
  | unitDown => exact .execUnitDown h
  | unitUp => exact .execUnitUp h
  | routerTimeout => exact .execRouterTimeout h
  | droopStretch50 => exact .execDroopStretch50 h
  | droopStretch25 => exact .execDroopStretch25 h
  | droopRecover => exact .execDroopRecover h
  | supplyFault => exact .execSupplyFault h
  | refclkLost => exact .execRefclkLost h
  | thermalWarn => exact .execThermalWarn h
  | thermalTrip => exact .execThermalTrip h
  | recordAccept => exact .execRecordAccept h
  | recorderCommit => exact .execRecorderCommit h
  | operatingSecondsSave => exact .execOperatingSecondsSave h
  | histogramIntervalEnd => exact .execHistogramIntervalEnd h
  | getIdentity => exact .execGetIdentity h
  | getHealth => exact .execGetHealth h
  | readLog => exact .execReadLog h
  | readEvent => exact .execReadEvent h
  | clearEvents => exact .execClearEvents h
  | readHistogram => exact .execReadHistogram h
  | readPack => exact .execReadPack h
  | mailboxComplete => exact .execMailboxComplete h
  | alertStatusClear => exact .execAlertStatusClear h
  | alertEnableWrite => exact .execAlertEnableWrite h
  | pecErrorsRead => exact .execPecErrorsRead h
  | alertResponse => exact .execAlertResponse h
  | ibiRetry => exact .execIbiRetry h
  | entdaa => exact .execEntdaa h
  | setdasa => exact .execSetdasa h
  | rstdaa => exact .execRstdaa h
  | enec => exact .execEnec h
  | disec => exact .execDisec h
  | getpid => exact .execGetpid h
  | getbcr => exact .execGetbcr h
  | getdcr => exact .execGetdcr h
  | getstatus => exact .execGetstatus h
  | getmwl => exact .execGetmwl h
  | getmrl => exact .execGetmrl h
  | pairHeartbeatSend => exact .execPairHeartbeatSend h
  | dumpImport => exact .execDumpImport h
  | pairingLinkFailure => exact .execPairingLinkFailure h
  | hbmParityError => exact .execHbmParityError h
  | hostLinkError => exact .execHostLinkError h
  | badRegisterRead => exact .execBadRegisterRead h
  | buttonRefusalEnd => exact .execButtonRefusalEnd h
  | vinMainPowerUp => exact .execVinMainPowerUp h
  | chargeCountSample => exact .execChargeCountSample h
  | histogramSample => exact .execHistogramSample h
  | thermalWarnEnd => exact .execThermalWarnEnd h

theorem NextDrives.step (h : s.DrivesOk) : NextDrives (step s) := by
  unfold Sys2Proof.Machine.step
  split
  · exact .next h.frame
  · exact .exec h.frame _

end

/-- Settles O8: each operation keeps the outputs as they may be, since only `converterCheck` and the loss of power set them, the converter
to a set-point that the running die wants. -/
theorem powerDieDrivesItsOutputs : Obligations.PowerDieDrivesItsOutputs := by
  unfold Obligations.PowerDieDrivesItsOutputs
  exact fun _ t h hs => (NextDrives.step ⟨h⟩ t hs).drives

end Sys2Proof.Machine
end

section
/-! PROOFS. The host's pack commands (R445, R446, R449, R454, R640): each for a command that may start, by the pack's state, and the statement
O23 put together from them. -/

namespace Sys2Proof.Machine

open Sys2Proof

section

variable {s t : State} {acc : Nat} {c : Cmd}

/-! ### PACK_REPLACED (R454) -/

section

variable (start : s.startable acc 0xB0 anyForm = some c)

include start

theorem exec_packReplaced_of_undeclared (undeclared : s.pack.st = .notDeclared) :
    exec (.packReplaced acc) s = .next (s.keepOwned ((s.finish c.acc St.packRefused 1).run)) := by
  change execPackReplaced acc s = _
  rw [execPackReplaced, State.start_some _ start, act_eq, if_pos undeclared]

theorem exec_packReplaced_of_declared (declared : s.pack.st ≠ .notDeclared)
    (reset : t = s.resetLearned.dieEvent Ev.packReplaced s.pack.cLearned s.pack.nominal 0) :
    exec (.packReplaced acc) s
      = .next (s.keepOwned
          (((if s.pack.st = .mismatch ∨ s.pack.st = .chargeHold ∧ (s.pack.holdCause = some .overVolt ∨ s.pack.holdCause = some .timer)
              then t.packTo .identify else t).finish c.acc St.success).run)) := by
  change execPackReplaced acc s = _
  rw [execPackReplaced, State.start_some _ start, act_eq, if_neg declared, reset]
  simp only [Bool.or_eq_true, Bool.and_eq_true, decide_eq_true_eq]

end

/-! ### PACK_LEARN (R445, R446) -/

section

variable (start : s.startable acc 0xB1 (fun e => !e.pbit 0 0) = some c)

include start

theorem exec_packLearn_of_refusal (refusal : s.learnRefusal ≠ 0) :
    exec (.packLearn acc) s = .next (s.keepOwned ((s.finish c.acc St.packRefused (w32 s.learnRefusal)).run)) := by
  change execPackLearn acc s = _
  rw [execPackLearn, State.start_some _ start, act_eq, if_pos refusal]

theorem exec_packLearn_of_accepted (accepted : s.learnRefusal = 0) (pending : t = s.setFlags fun p => { p with learnPending := true }) :
    exec (.packLearn acc) s
      = .next (s.keepOwned (((if t.pack.restInFull t.stateDie = true then t.learnStart else t).finish c.acc St.success).run)) := by
  change execPackLearn acc s = _
  rw [execPackLearn, State.start_some _ start, act_eq, if_neg (not_not_intro accepted), pending]

end

section

variable (start : s.startable acc 0xB1 (fun e => e.pbit 0 0) = some c)

include start

theorem exec_packLearnAbort_of_none (none : s.pack.learning = false) :
    exec (.packLearnAbort acc) s = .next (s.keepOwned ((s.finish c.acc St.success 5).run)) := by
  change execPackLearnAbort acc s = _
  rw [execPackLearnAbort, State.start_some _ start, act_eq, if_pos (by simp [none])]

theorem exec_packLearnAbort_of_learning (learning : s.pack.learning = true) :
    exec (.packLearnAbort acc) s
      = .next (s.keepOwned
          (((if s.pack.st = .learnDischarge ∨ s.pack.st = .learnRest then (s.learnEnds 3 0).toCharge .cc else s.learnEnds 3 0).finish c.acc
            St.success).run)) := by
  change execPackLearnAbort acc s = _
  rw [execPackLearnAbort, State.start_some _ start, act_eq, if_neg (by simp [learning])]
  simp only [Bool.or_eq_true, decide_eq_true_eq]

end

/-! ### SHIP_MODE (R449) -/

section

variable (start : s.startable acc 0xB2 (fun e => !e.pbit 0 0) = some c)

include start

theorem exec_shipModeArm_of_armed (armed : s.pack.st = .shipArmed) :
    exec (.shipModeArm acc) s = .next (s.keepOwned ((s.finish c.acc St.success).run)) := by
  change execShipModeArm acc s = _
  rw [execShipModeArm, State.start_some _ start, act_eq, if_pos armed]

theorem exec_shipModeArm_of_noWay (other : s.pack.st ≠ .shipArmed) (noWay : s.pack.st.code < 2 ∨ 10 < s.pack.st.code) :
    exec (.shipModeArm acc) s = .next (s.keepOwned ((s.finish c.acc St.packRefused 1).run)) := by
  change execShipModeArm acc s = _
  rw [execShipModeArm, State.start_some _ start, act_eq, if_neg other, if_pos (by simpa using noWay)]

theorem exec_shipModeArm_of_way (other : s.pack.st ≠ .shipArmed) (low : 2 ≤ s.pack.st.code) (high : s.pack.st.code ≤ 10)
    (armed : t = ((s.learnAbort.packTo .shipArmed).dieEvent Ev.packShip 0 0 0).updPack fun p => { p with eAvailMj := 0 }) :
    exec (.shipModeArm acc) s
      = .next (s.keepOwned ((({ t with link := { t.link with eAvailMj := 0 } } : State).energyChanged.finish c.acc St.success).run)) := by
  change execShipModeArm acc s = _
  rw [execShipModeArm, State.start_some _ start, act_eq, if_neg other, if_neg (by simp; omega), armed]

end

section

variable (start : s.startable acc 0xB2 (fun e => e.pbit 0 0) = some c)

include start

theorem exec_shipModeCancel_of_armed (armed : s.pack.st = .shipArmed) :
    exec (.shipModeCancel acc) s
      = .next (s.keepOwned (((s.toIdentify.dieEvent Ev.packShip 3 0 0).finish c.acc St.success).run)) := by
  change execShipModeCancel acc s = _
  rw [execShipModeCancel, State.start_some _ start, act_eq, armed]

theorem exec_shipModeCancel_of_ship (ship : s.pack.st = .ship) :
    exec (.shipModeCancel acc) s
      = .next (s.keepOwned
          ((((s.updPack fun p => { p with shipCancelled := true }).dieEvent Ev.packShip 3 0 0).finish c.acc St.success).run)) := by
  change execShipModeCancel acc s = _
  rw [execShipModeCancel, State.start_some _ start, act_eq, ship]

theorem exec_shipModeCancel_of_other (notArmed : s.pack.st ≠ .shipArmed) (notShip : s.pack.st ≠ .ship) :
    exec (.shipModeCancel acc) s = .next (s.keepOwned ((s.finish c.acc St.success 1).run)) := by
  change execShipModeCancel acc s = _
  rw [execShipModeCancel, State.start_some _ start, act_eq]
  split
  · next armed => exact absurd armed notArmed
  · next ship => exact absurd ship notShip
  · rfl

end

end

/-! ### The statement -/

/-- Settles O23: each command by the pack's state, PACK_REPLACED by whether it is a hold that the new pack ends, the abort by whether the
run is under way. -/
theorem packCommands : Obligations.PackCommands := by
  unfold Obligations.PackCommands
  refine fun s acc c => ⟨exec_packReplaced_of_undeclared, fun t start declared reset => ?replaced,
    exec_packLearn_of_refusal, fun _ => exec_packLearn_of_accepted,
    exec_packLearnAbort_of_none, fun start learning running => ?running, fun start learning notDischarge notRest => ?pending,
    fun _ start low high other => exec_shipModeArm_of_way start other low high, exec_shipModeArm_of_armed, exec_shipModeArm_of_noWay,
    exec_shipModeCancel_of_armed, exec_shipModeCancel_of_ship, exec_shipModeCancel_of_other⟩
  case replaced =>
    have row := exec_packReplaced_of_declared start declared reset
    refine ⟨fun ends => ?ends, fun notMismatch notHold => ?stays⟩
    case ends => rwa [if_pos ends] at row
    case stays =>
      rwa [if_neg] at row
      rintro (mismatch | ⟨hold, cause⟩)
      · exact notMismatch mismatch
      · rcases notHold with notHold | ⟨notOver, notTimer⟩
        · exact notHold hold
        · exact cause.elim notOver notTimer
  case running => rw [exec_packLearnAbort_of_learning start learning, if_pos running]
  case pending => rw [exec_packLearnAbort_of_learning start learning, if_neg (not_or.mpr ⟨notDischarge, notRest⟩)]

end Sys2Proof.Machine
end

section
/-! PROOFS. The pack's states (R436, R439, R440, R453): presence, IDENTIFY, the phases of a charge and its
ends, each row past its guard, and the statement O36 put together from them. -/

namespace Sys2Proof.Machine

open Sys2Proof

section

variable {s t u v : State} {x : PackReading} (run : s.pack.running = true)

include run

/-! ### Presence -/

theorem exec_packPresenceChange_of_appears (gone : s.pack.present = false)
    (hu : u = s.updPack fun p => { p with present := true, counting := true }) :
    exec (.packPresenceChange true) s
      = .next (s.keepOwned
          (if s.pack.st = .absent then (u.packTo .identify).dieEvent Ev.packPresence 1 2 0
            else if s.pack.returns = true then u.packTo .identify else u)) := by
  have st : u.pack.st = s.pack.st := by rw [hu, State.updPack_pack_st]
  have returns : u.pack.returns = s.pack.returns := by rw [hu]; rfl
  change execPackPresenceChange true s = _
  rw [execPackPresenceChange, act_eq, if_neg (by simp [run, gone]), if_pos rfl, ← hu]
  simp only [st, returns]
  split
  · next absent => rw [if_pos (by simp [Pack.returns, absent])]
  · rfl

theorem exec_packPresenceChange_of_disappears (there : s.pack.present = true)
    (hu : u = s.learnAbort.countBreak.updPack fun p => { p with present := false, eAvailMj := 0 })
    (hv : v = if u.pack.st = .notDeclared ∨ u.pack.st = .shipArmed ∨ u.pack.st = .ship then u else u.packTo .absent)
    (ht : t = v.setFlags fun p => { p with capUnverified := true }) :
    exec (.packPresenceChange false) s
      = .next (s.keepOwned ((t.dieEvent Ev.packPresence 0 t.pack.st.code 0).cross 6).checkW3.dieCheck) := by
  change execPackPresenceChange false s = _
  rw [execPackPresenceChange, act_eq, if_neg (by simp [run, there]), if_neg (by decide), ← hu, ht, hv]
  simp only [List.contains_eq_mem, List.mem_cons, List.not_mem_nil, or_false, decide_eq_true_eq]

/-! ### IDENTIFY -/

omit run in
theorem Pack.returns_iff {p : Pack} (present : p.st ≠ .absent) :
    p.returns = true
      ↔ p.st = .mismatch ∨ p.st = .chargeHold ∧ (p.holdCause = some .overVolt ∨ p.holdCause = some .timer) := by
  simp [Pack.returns, present]

/-- The charge as the resting voltage estimates it: 8/10 of SOC_ocv (R439, R440). -/
def State.estimated (u : State) (mv : Nat) : State :=
  u.updPack fun p =>
    { p with q := some ((8 * (u.pack.socOcv mv).1 * (p.cLearned * qUnit) / (10 * (u.pack.socOcv mv).2) : Nat) : Int),
             counting := true, provisional := true }

/-- What follows IDENTIFY for a pack of the declared kind, `v` being the state in which its charge is known (R436). -/
def State.leavesIdentify (s v : State) (x : PackReading) : State :=
  if outsideWindow x = true then (v.updPack fun p => { p with holdCause := some .overTemp }).packTo .chargeHold
  else if x.mv < s.pack.cells * s.pack.v0 then v.toCharge .precharge else v.toCharge .cc

section

variable (identify : s.pack.st = .identify) (due : s.pack.stateAt + 2000000 ≤ s.now) (hu : u = s.updPack fun p => p.reads x s.now)

include identify due hu

theorem exec_identifyComplete_of_mismatch (outside : s.pack.cells * 4350 < x.mv ∨ x.mv < s.pack.cells * 2500) :
    exec (.identifyComplete x) s
      = .next (s.keepOwned (((u.packTo .mismatch).dieEvent Ev.packMismatch s.pack.cells x.mv 0).cross 8)) := by
  have cells : u.pack.cells = s.pack.cells := hu ▸ Pack.reads_cells ..
  change execIdentifyComplete x s = _
  rw [execIdentifyComplete, act_eq, if_neg (by simp [run, identify, due]), ← hu]
  dsimp only
  rw [cells, if_pos (by simpa using outside)]

variable (low : s.pack.cells * 2500 ≤ x.mv) (high : x.mv ≤ s.pack.cells * 4350)

include low high

theorem exec_identifyComplete_of_kept (counting : s.pack.counting = true) (kept : s.pack.q.isSome = true) :
    exec (.identifyComplete x) s = .next (s.keepOwned (s.leavesIdentify u x)) := by
  have cells : u.pack.cells = s.pack.cells := hu ▸ Pack.reads_cells ..
  have v0 : u.pack.v0 = s.pack.v0 := hu ▸ Pack.reads_v0 ..
  have hkept : (u.pack.counting && u.pack.q.isSome) = true := by simp [hu, State.updPack, counting, kept]
  change execIdentifyComplete x s = _
  rw [execIdentifyComplete, act_eq, if_neg (by simp [run, identify, due]), ← hu]
  dsimp only
  rw [cells, if_neg (by simp [low, high]), if_neg (by simp [hkept]), if_pos hkept, v0, State.leavesIdentify]

theorem exec_identifyComplete_of_resting (notKept : s.pack.counting = false ∨ s.pack.q = none) (resting : x.ma.natAbs < 10) :
    exec (.identifyComplete x) s = .next (s.keepOwned (s.leavesIdentify (u.estimated x.mv) x)) := by
  have cells : u.pack.cells = s.pack.cells := hu ▸ Pack.reads_cells ..
  have v0 : u.pack.v0 = s.pack.v0 := hu ▸ Pack.reads_v0 ..
  have hkept : ¬(u.pack.counting && u.pack.q.isSome) = true := by
    rcases notKept with notCounting | notKept
    · simp [hu, State.updPack, notCounting]
    · simp [hu, State.updPack, notKept]
  change execIdentifyComplete x s = _
  rw [execIdentifyComplete, act_eq, if_neg (by simp [run, identify, due]), ← hu]
  dsimp only
  rw [cells, if_neg (by simp [low, high]), if_neg (by simp [resting]), if_neg hkept, v0, State.leavesIdentify, State.estimated]

end

/-! ### The phases of a charge -/

theorem exec_chargePhaseChange_of_precharge (precharge : s.pack.st = .precharge) (reached : s.pack.cells * s.pack.v0 ≤ x.mv) :
    exec (.chargePhaseChange x) s = .next (s.keepOwned ((s.updPack fun p => p.reads x s.now).packTo .cc)) := by
  change execChargePhaseChange x s = _
  rw [execChargePhaseChange, act_eq, if_neg (by simp [run])]
  simp [precharge, reached]

theorem exec_chargePhaseChange_of_cc (cc : s.pack.st = .cc) (reached : s.pack.cells * s.pack.vcv ≤ x.mv) :
    exec (.chargePhaseChange x) s = .next (s.keepOwned ((s.updPack fun p => p.reads x s.now).packTo .cv)) := by
  change execChargePhaseChange x s = _
  rw [execChargePhaseChange, act_eq, if_neg (by simp [run])]
  simp [cc, reached]

theorem exec_chargeTermination_of_held {at_ : Nat} (cv : s.pack.st = .cv) (since : s.pack.termSince = some at_)
    (held : at_ + 60000000 ≤ s.now) :
    exec .chargeTermination s = .next (s.keepOwned ((s.packTo .full).anchor false s.pack.cLearned).checkW3) := by
  change execChargeTermination s = _
  rw [execChargeTermination, act_eq, if_neg (by simp [run, cv, heldFor_of_le since held])]

omit run in
/-- The charge is below 97 % of C_learned (R436). -/
theorem chargeLow_iff {q : Option Int} {full : Int} :
    (match q with | some q => decide (100 * q < 97 * full) | none => false) = true ↔ ∃ c, q = some c ∧ 100 * c < 97 * full := by
  cases q <;> simp

theorem exec_rechargeNeeded_of_full (full : s.pack.st = .full) (hu : u = s.updPack fun p => p.reads x s.now) :
    exec (.rechargeNeeded x) s
      = .next (s.keepOwned
          (if (∃ q, s.pack.q = some q ∧ 100 * q < 97 * ((s.pack.cLearned * qUnit : Nat) : Int))
              ∨ (x.ma.natAbs < 10 ∧ x.mv + s.pack.cells * 100 < s.pack.cells * s.pack.vcv)
            then u.toCharge .cc else u)) := by
  change execRechargeNeeded x s = _
  rw [execRechargeNeeded, act_eq, if_neg (by simp [run, full]), ← hu]
  refine congrArg (fun t => Host.Outcome.next (s.keepOwned t)) (if_congr ?_ rfl rfl)
  rw [Bool.or_eq_true, Bool.and_eq_true, decide_eq_true_eq, decide_eq_true_eq]
  exact or_congr_left chargeLow_iff

/-! ### The end of a charge -/

omit run in
theorem Pack.endsCharge_of {p : Pack} {now : Nat} {cause : ChargeEnd}
    (ends : (cause = .overTemp ∧ (p.reading.temp < 0 ∨ 360 < p.reading.temp))
      ∨ (cause = .overVolt ∧ p.cells * (p.vcv + 50) < p.reading.mv)
      ∨ (cause = .timer ∧ ((p.st = .precharge ∧ p.stateAt + 3600000000 ≤ now) ∨ p.chargeStart + 36000000000 ≤ now))) :
    p.endsCharge now cause = true := by
  rcases ends with ⟨rfl, temp⟩ | ⟨rfl, volt⟩ | ⟨rfl, time⟩
  · simpa [Pack.endsCharge, outsideWindow] using temp
  · simpa [Pack.endsCharge] using volt
  · simpa [Pack.endsCharge] using time

theorem exec_chargeEnd_of_ends {cause : ChargeEnd} (charging : s.pack.st = .precharge ∨ s.pack.st = .cc ∨ s.pack.st = .cv)
    (ends : s.pack.endsCharge s.now cause = true) :
    exec (.chargeEnd cause) s
      = .next (s.keepOwned (((s.updPack fun p => { p with holdCause := some cause }).packTo .chargeHold).warn (ChargeEnd.level cause)
          true)) := by
  change execChargeEnd cause s = _
  rw [execChargeEnd, act_eq]
  dsimp only
  rw [if_neg (by rcases charging with st | st | st <;> simp [run, st, ends])]

theorem exec_chargeHoldRelease_of_cool {at_ : Nat} (hold : s.pack.st = .chargeHold) (hot : s.pack.holdCause = some .overTemp)
    (since : s.pack.coolSince = some at_) (held : at_ + 60000000 ≤ s.now) :
    exec .chargeHoldRelease s = .next (s.keepOwned (s.packTo .identify)) := by
  change execChargeHoldRelease s = _
  rw [execChargeHoldRelease, act_eq, if_pos (by simp [run, hold, hot, heldFor_of_le since held])]

end

/-! ### The statement -/

/-- Settles O36: each row past its guard; presence by what the pack was, IDENTIFY by the voltage, the window and whether the count was
kept. -/
theorem packStates : Obligations.PackStates := by
  unfold Obligations.PackStates
  refine fun s run => ⟨fun u gone hu => ?appears, fun _ _ _ there hu hv hw => exec_packPresenceChange_of_disappears run there hu hv hw,
    fun _ identify due outside => exec_identifyComplete_of_mismatch run identify due rfl outside,
    fun x u v identify due high low hu charge => ?identified,
    fun _ precharge reached => exec_chargePhaseChange_of_precharge run precharge reached,
    fun _ cc reached => exec_chargePhaseChange_of_cc run cc reached,
    fun _ cv since held => exec_chargeTermination_of_held run cv since held,
    fun _ _ full hu => exec_rechargeNeeded_of_full run full hu,
    fun _ charging ends => exec_chargeEnd_of_ends run charging (Pack.endsCharge_of ends),
    fun _ hold hot since held => exec_chargeHoldRelease_of_cool run hold hot since held⟩
  case appears =>
    rw [exec_packPresenceChange_of_appears run gone hu]
    split
    · rfl
    · next present => rw [if_congr (Pack.returns_iff present) rfl rfl]
  case identified =>
    rcases charge with ⟨counting, kept, rfl⟩ | ⟨notKept, resting, hv⟩
    · exact exec_identifyComplete_of_kept run identify due hu low high counting kept
    · rw [hv]
      exact exec_identifyComplete_of_resting run identify due hu low high notKept resting

end Sys2Proof.Machine
end

section
/-! PROOFS. The gauge (R436, R439 to R448, R456, R459, R748): the learning run's ends, the overdue run, available energy, samples and rest
points, each row past its guard, and the statement O37 put together from them. -/

namespace Sys2Proof.Machine

open Sys2Proof

section

variable {s t u : State} {x : PackReading} (run : s.pack.running = true)

include run

/-! ### The learning run (R436, R447, R448) -/

theorem exec_learnDischargeDone_of_drawn (discharge : s.pack.st = .learnDischarge)
    (drawn : 40 * ((s.pack.cLearned * qUnit : Nat) : Int) ≤ -100 * s.pack.sinceRest) :
    exec .learnDischargeDone s = .next (s.keepOwned (s.packTo .learnRest)) := by
  change execLearnDischargeDone s = _
  rw [execLearnDischargeDone, act_eq]
  dsimp only
  rw [if_pos (by simpa [run, discharge] using drawn)]

theorem exec_learnRestTimeout_of_due (rest : s.pack.st = .learnRest) (due : s.pack.stateAt + 14400000000 ≤ s.now) :
    exec .learnRestTimeout s = .next (s.keepOwned ((s.learnEnds 4 0).toCharge .cc)) := by
  change execLearnRestTimeout s = _
  rw [execLearnRestTimeout, act_eq, if_pos (by simp [run, rest, due])]

theorem exec_learnOverdue_of_due (declared : s.pack.st ≠ .notDeclared)
    (due : if s.pack.learnOverdue = true then s.pack.overdueAt + 2592000 ≤ s.dieNow else s.pack.learnTime + 15552000 ≤ s.dieNow) :
    exec .learnOverdue s
      = .next (s.keepOwned ((s.setFlags fun p => { p with learnOverdue := true, overdueAt := s.dieNow }).dieEvent Ev.packLearnOverdue
          ((s.dieNow - s.pack.learnTime) / 86400) s.pack.cLearned 0)) := by
  change execLearnOverdue s = _
  rw [execLearnOverdue, act_eq]
  dsimp only
  rw [if_neg]
  cases overdue : s.pack.learnOverdue <;> simp_all

/-! ### Available energy (R442, R446) -/

theorem exec_eavailCompute_of_running (hu : u = (s.updPack fun p => p.reads x s.now).evaluate) :
    exec (.eavailCompute x) s
      = .next (s.keepOwned
          (if (u.pack.st = .learnDischarge ∨ u.pack.st = .learnRest) ∧ (u.pack.w1 = true ∨ 400 < x.temp)
            then u.learnAbort.toCharge .cc else u)) := by
  change execEavailCompute x s = _
  rw [execEavailCompute, act_eq, if_neg (by simp [run]), hu]
  simp only [Bool.and_eq_true, Bool.or_eq_true, decide_eq_true_eq, gt_iff_lt]

/-! ### Samples (R439, R459, R748) -/

omit run in
theorem State.draws_now (s : State) (out : Nat) : (s.draws out).now = s.now := by
  unfold State.draws
  split
  · split <;> rfl
  · rfl

theorem exec_chargeCountSample_of_flowing {ma : Int} (there : s.pack.present = true) (closed : s.pack.fetClosed = true) :
    exec (.chargeCountSample ma) s
      = .next (s.keepOwned ((s.draws (-ma).toNat).updPack fun p => { p.flows ma s.now with
          q := p.q.map (· + ma), counted := p.counted + ma, counting := true, reading := { p.reading with ma := ma },
          throughput := p.throughput + (-ma).toNat,
          episode := if ma < -10 then some (p.episode.getD 0 + (-ma).toNat) else p.episode.map (· + ((-ma).toNat : Int)) })) := by
  change execChargeCountSample ma s = _
  rw [execChargeCountSample, act_eq, if_neg (by simp [run, there, closed])]
  dsimp only
  rw [State.draws_now]

theorem exec_packSample_of_present (there : s.pack.present = true)
    (hu : u = (s.countLife 26 ((x.mv / s.pack.cells : Nat) : Int) (binOf ((x.mv / s.pack.cells : Nat) : Int) 2800 50) 0).countLife 27 x.ma
        (binOf x.ma (-16000) 1000) 0) :
    exec (.packSample x) s
      = .next (s.keepOwned (if u.pack.fetClosed = true then u.countLife 28 x.temp (binOf x.temp (-160) 24) 0 else u)) := by
  change execPackSample x s = _
  rw [execPackSample, act_eq, if_neg (by simp [run, there]), hu]

theorem exec_gaugeStorePeriodic_of_due (due : s.pack.storeAt + 21600 ≤ s.dieNow) :
    exec .gaugeStorePeriodic s = .next (s.keepOwned s.storeGauge) := by
  change execGaugeStorePeriodic s = _
  rw [execGaugeStorePeriodic, act_eq, if_pos (by simp [run, due])]

end

/-! ### Rest points (R440, R441, R444, R445, R447) -/

/-- What a rest point learns against the kept one, if any: result and C_meas, and the state (R444). -/
def State.learnFrom (u : State) (kept : Option RestPoint) (mv : Nat) : Option (Nat × Nat) × State :=
  match kept with
  | some a => u.learnAt a mv
  | none => (none, u)

/-- A rejected pair is counted and stored (R444). -/
def State.countRejected (l : State) (k : Nat) : State :=
  if k = 2 then (l.updPack fun p => { p with rejectCount := min 65535 (p.rejectCount + 1) }).storeGauge else l

/-- What follows the learning, in a pack whose state was `st`: a running run ends, with result 5 where nothing was learned, and else what was
learned is recorded (R444, R445, R447). -/
def State.restTold (l : State) (st : PackSt) (r : Option (Nat × Nat)) : State :=
  match r with
  | some (k, c) =>
    if st = .learnRest then (l.learnEnds k c).toCharge .cc
    else (l.countRejected k).dieEvent Ev.packLearn k c (l.countRejected k).pack.cLearned
  | none => if st = .learnRest then (l.learnEnds 5 0).toCharge .cc else l

/-- The rest point becomes the last one. -/
def State.keepRest (f : State) (mv : Nat) : State := f.updPack fun p => { p with rest := some ⟨p.q, mv, f.dieNow, p.counted⟩ }

section

variable {s u l f : State} {x : PackReading} {r : Option (Nat × Nat)}

theorem exec_restPoint_of_rest (run : s.pack.running = true) (still : x.ma.natAbs < 10) (low : 80 ≤ x.temp) (high : x.temp ≤ 320)
    (rested : s.pack.movedAt + 2700000000 ≤ s.now) (first : s.pack.restTaken = false) (counting : s.pack.counting = true)
    (declared : s.pack.decl ≠ none) (steady : (s.pack.reads x s.now).steady s.now = true)
    (hu : u = s.episodeEnds.updPack fun p => { p.reads x s.now with restTaken := true })
    (hl : (r, l) = u.learnFrom s.pack.rest x.mv)
    (hf : f = if x.mv ≤ s.pack.cells * s.pack.v0 then (l.restTold s.pack.st r).anchor true 0 else l.restTold s.pack.st r) :
    exec (.restPoint x) s
      = .next (s.keepOwned
          (if s.pack.st = .full ∧ (f.keepRest x.mv).pack.learnPending = true then (f.keepRest x.mv).learnStart else f.keepRest x.mv)) := by
  obtain ⟨d, hd⟩ := Option.ne_none_iff_exists'.mp declared
  change execRestPoint x s = _
  rw [execRestPoint, act_eq]
  dsimp only
  rw [if_neg (by simp [run, still, low, high, rested, first, counting]), if_neg (by simp [steady]), ← hu, hf]
  simp only [hd, Option.isSome_some, Bool.true_and, Bool.and_eq_true, decide_eq_true_eq]
  cases hk : s.pack.rest with
  | none =>
    rw [hk] at hl
    obtain ⟨rfl, rfl⟩ := Prod.mk.inj hl
    rfl
  | some a =>
    rw [hk] at hl
    replace hl : (r, l) = u.learnAt a x.mv := hl
    simp only [← hl]
    cases r <;> rfl

end

/-! ### The statement -/

/-- Settles O37: each row past its guard; a rest point by what it learns and whether a learning run was resting. -/
theorem gaugeRows : Obligations.GaugeRows := by
  unfold Obligations.GaugeRows
  refine fun s run => ⟨exec_learnDischargeDone_of_drawn run, exec_learnRestTimeout_of_due run, exec_learnOverdue_of_due run,
    fun _ _ hu => exec_eavailCompute_of_running run hu, fun _ there closed => exec_chargeCountSample_of_flowing run there closed,
    fun x u l e f r still low high rested first counting declared steady hu hl he hf => ?rest,
    exec_gaugeStorePeriodic_of_due run, fun _ there _ hu => exec_packSample_of_present run there hu⟩
  case rest =>
    have learned : (r, l) = u.learnFrom s.pack.rest x.mv := by
      rw [hl]
      cases s.pack.rest <;> rfl
    have told : e = l.restTold s.pack.st r := by
      rw [he]
      match r with
      | none => rfl
      | some (k, c) =>
        simp only [State.restTold, State.countRejected]
        split
        · rfl
        · split <;> rfl
    rw [told] at hf
    exact exec_restPoint_of_rest run still low high rested first counting declared steady hu learned hf

end Sys2Proof.Machine
end

section
/-! PROOFS. The start of the power die (R457) and ship mode (R451, R452): each row past its guard, and the statement O38 put together from
them. -/

namespace Sys2Proof.Machine

open Sys2Proof

section

variable {s t u : State}

/-! ### The start of the power die (R457) -/

/-- What the power die starts with before it reads its store, `useB` naming the newer valid bank (R439, R457). -/
def State.dieBegun (s : State) (useB : Bool) : State :=
  s.countBreak.updPack fun p => { p with
    running := true, dieAt := s.now, uvlo := false, overVolt := false, lowVin := p.vinMv < 10700, movedAt := s.now, restTaken := false,
    holdCause := none, provisional := false, vinFell := p.vinFell || p.st = .ship, eAvailMj := 0,
    valid := s.pack.bankA.valid || s.pack.bankB.valid, lastBankB := useB, counting := p.present && p.fetClosed }

theorem exec_powerDieStart_of_stopped {useB : Bool} (stopped : s.pack.running = false)
    (newer : useB = (s.pack.bankB.valid && (!s.pack.bankA.valid || newerGen s.pack.bankB.seq s.pack.bankA.seq)))
    (begun : t = s.dieBegun useB)
    (loaded : u = if useB = true then (t.updPack (·.load s.pack.bankB)).dieEvent Ev.gaugeStore 1 s.pack.bankB.seq.toNat 0
      else if s.pack.bankA.valid = true then (t.updPack (·.load s.pack.bankA)).dieEvent Ev.gaugeStore 0 s.pack.bankA.seq.toNat 0
      else (t.updPack fun p => { p.load {} with capUnverified := true, learnPending := true }).dieEvent Ev.gaugeStore 2 0 0) :
    exec .powerDieStart s
      = .next (s.keepOwned
          (if u.pack.st = .ship then u else if u.pack.decl = none then u.packTo .notDeclared
            else if u.pack.present = true then u.packTo .identify else u.packTo .absent)) := by
  change execPowerDieStart s = _
  rw [execPowerDieStart, act_eq, if_neg (by simp [stopped]), loaded, begun, newer, State.dieBegun]
  simp only [Option.isNone_iff_eq_none]

/-! ### Ship mode (R451, R452) -/

theorem exec_shipCleanReport_of_clean (run : s.pack.running = true) (armed : s.pack.st = .shipArmed) (on : s.life.inReset = false)
    (noPass : s.lehrOn = false) (clean : s.shipClean = true) :
    exec .shipCleanReport s = .next (s.keepOwned s.shipOpen.dieCheck) := by
  change execShipCleanReport s = _
  rw [execShipCleanReport, act_eq, if_pos (by simp [run, armed, on, noPass, clean])]

theorem exec_shipReconnect_of_held {since : Nat} (run : s.pack.running = true) (good : s.pack.vinGoodSince = some since)
    (ship : s.pack.st = .ship) (held : since + 1000000 ≤ s.now) (back : s.pack.shipCancelled = true ∨ s.pack.vinFell = true) :
    exec .shipReconnect s
      = .next (s.keepOwned ((((s.updPack fun p => { p with fetClosed := true, shipCancelled := false, counting := false }).emit
          (.fets true)).toIdentify).dieEvent Ev.packShip 2 0 0)) := by
  change execShipReconnect s = _
  rw [execShipReconnect, act_eq]
  simp only [good]
  rw [if_neg (by rcases back with back | back <;> simp [run, ship, held, back])]

end

/-! ### The statement -/

/-- Settles O38: each row past its guard. -/
theorem powerDieAndShip : Obligations.PowerDieAndShip := by
  unfold Obligations.PowerDieAndShip
  exact ⟨fun _ _ _ _ stopped newer begun loaded => exec_powerDieStart_of_stopped stopped newer begun loaded,
    fun _ => exec_shipCleanReport_of_clean,
    fun _ _ run good ship held back => exec_shipReconnect_of_held run good ship held back⟩

end Sys2Proof.Machine
end

section
/-! PROOFS. Loss of power (R27, R462 to R479, R739, R740, R743, R750): PERST_N, the signals that start a pass, its ends, and the board rails,
each row past its guard, and the statement O39 put together from them. -/

namespace Sys2Proof.Machine

open Sys2Proof

section

variable {s t u v : State}

/-! ### PERST_N (R477 to R479, R750) -/

theorem State.lehrSealed_eq_false (noPass : s.lehrOn = false) : s.lehrSealed = false := by
  have none_ : s.life.lehr = none := by simpa [State.lehrOn] using noPass
  rw [State.lehrSealed, none_]

section

variable (released : s.life.perst = false)

include released

theorem exec_perstNAssert_of_inReset (reset : s.life.inReset = true) :
    exec .perstNAssert s
      = .next (s.keepOwned (if s.life.hostReady = true then s.hostReset else { s with life := { s.life with perst := true } })) := by
  change execPerstNAssert s = _
  rw [execPerstNAssert, act_eq, if_neg (by simp [released]), if_pos reset]

section

variable (works : s.life.inReset = false)

include works

theorem exec_perstNAssert_of_conflict (fenced : s.life.st = .fenced) (conflict : s.life.fencedBy = some .conflict)
    (done : s.lehrSealed = true) :
    exec .perstNAssert s
      = .next (s.keepOwned ((({ s with life := { s.life with perst := true } } : State).setState .booting).dieReset
          (some (s.now + 10000)))) := by
  change execPerstNAssert s = _
  rw [execPerstNAssert, act_eq, if_neg (by simp [released]), if_neg (by simp [works]), if_pos (by simp [fenced, conflict, done])]

theorem exec_perstNAssert_of_pass (pass : s.lehrOn = true) (hu : u = s.endExport)
    (other : s.life.st ≠ .fenced ∨ s.life.fencedBy ≠ some .conflict ∨ s.lehrSealed = false) :
    exec .perstNAssert s
      = .next (s.keepOwned (if s.life.hostReady = true then u.hostReset else { u with life := { u.life with perst := true } })) := by
  have ready : s.endExport.life.hostReady = s.life.hostReady := by
    unfold State.endExport
    split <;> rfl
  change execPerstNAssert s = _
  rw [execPerstNAssert, act_eq, if_neg (by simp [released]), if_neg (by simp [works]),
    if_neg (by rcases other with h | h | h <;> simp [h]), if_pos pass, hu, ← ready]

section

variable (noPass : s.lehrOn = false)

include noPass

theorem exec_perstNAssert_of_serving (serving : s.serving = true) (mounted : s.vault.mounted = true)
    (hu : u = (s.discardStaged true).endExport.hostReset.selfTestEnds 5) :
    exec .perstNAssert s = .next (s.keepOwned ((u.clearBegun.startLehr .perst).setState .booting).sbCleared) := by
  change execPerstNAssert s = _
  rw [execPerstNAssert, act_eq, if_neg (by simp [released]), if_neg (by simp [works]),
    if_neg (by simp [State.lehrSealed_eq_false noPass]), if_neg (by simp [noPass])]
  simp only [serving, mounted, Bool.and_self, if_true, hu]

theorem exec_perstNAssert_of_notServing (idle : s.serving = false ∨ s.vault.mounted = false)
    (hu : u = (s.discardStaged false).endExport.hostReset.selfTestEnds 5)
    (other : u.life.st ≠ .fenced ∨ u.life.fencedBy ≠ some .conflict) :
    exec .perstNAssert s = .next (s.keepOwned u) := by
  have idle : (s.serving && s.vault.mounted) = false := (Bool.and_eq_false_eq_eq_false_or_eq_false ..).mpr idle
  change execPerstNAssert s = _
  rw [execPerstNAssert, act_eq, if_neg (by simp [released]), if_neg (by simp [works]),
    if_neg (by simp [State.lehrSealed_eq_false noPass]), if_neg (by simp [noPass])]
  dsimp only
  rw [idle, if_neg Bool.false_ne_true, ← hu, if_neg (by simpa [imp_iff_not_or] using other)]

end
end
end

theorem exec_perstNDeassert_of_ready {bifurcated side : Bool} (asserted : s.life.perst = true) (ready : s.life.hostReady = true) :
    exec (.perstNDeassert bifurcated side) s
      = .next (s.keepOwned { s with life := { s.life with perst := false, bifurcated := bifurcated, side := side } }) := by
  change execPerstNDeassert bifurcated side s = _
  rw [execPerstNDeassert, act_eq, if_neg (by simp [asserted, ready])]

/-! ### The start of a pass (R27, R462) -/

theorem exec_powerFailStrobe_of_driven (driven : s.pack.strobe = true ∨ s.pack.vinAbsent = true ∨ s.pack.overVolt = true)
    (noPass : s.life.lehr = none) (serving : (s.updPack fun p => { p with strobe := false }).serving = true) :
    exec .powerFailStrobe s
      = .next (s.keepOwned ((s.updPack fun p => { p with strobe := false }).startLehr
          (if s.pack.overVolt = true then .overVolt else .powerFail))) := by
  have none_ : (s.updPack fun p => { p with strobe := false }).life.lehr = none := noPass
  change execPowerFailStrobe s = _
  rw [execPowerFailStrobe, act_eq, if_neg (by rcases driven with h | h | h <;> simp [h])]
  simp only [none_, serving, if_true]
  rfl

theorem exec_dumpCommandFrame_of_serving (noPass : s.lehrOn = false) (serving : s.serving = true) :
    exec .dumpCommandFrame s
      = .next (s.keepOwned (s.startLehr
          (if s.pack.overVolt = true then .overVolt else if s.life.perst = true then .perst else .powerFail))) := by
  change execDumpCommandFrame s = _
  rw [execDumpCommandFrame, act_eq, if_neg (by simp [noPass, serving])]

/-! ### The ends of a pass (R467, R469, R470, R479) -/

section

variable {l : Lehr} (pass : s.life.lehr = some l)

include pass

theorem exec_lehrSealed_of_unsealed {failed unverified : PassPlaces} (unsealed : l.sealed_ = false) :
    exec (.lehrSealed failed unverified) s
      = .next (s.keepOwned
          ((s.writeDump l (s.now - l.at_) l.packMj true
            ⟨failed.blocks ++ unverified.blocks, failed.logPages ++ unverified.logPages, failed.frames ++ unverified.frames⟩).puntyActs
            l true)) := by
  change execLehrSealed failed unverified s = _
  rw [execLehrSealed, act_eq, pass]
  dsimp only
  rw [if_neg (by simp [unsealed])]

theorem exec_lehrTimeout_of_due (unsealed : l.sealed_ = false) (due : l.at_ + 3000000 ≤ s.now) :
    exec .lehrTimeout s
      = .next (s.keepOwned (((s.writeDump l 0 0 false {}).setConverter 0).puntyActs
          { l with cause := if l.cause = .fence then .powerFail else l.cause } false)) := by
  change execLehrTimeout s = _
  rw [execLehrTimeout, act_eq, pass]
  dsimp only
  rw [if_neg (by simp [unsealed, due])]

theorem exec_puntyRelease_of_sealed (done : l.sealed_ = true) (cause : l.cause ≠ .fence) (steady : s.vinSteady = true) :
    exec .puntyRelease s = .next (s.keepOwned (s.dieReset (some (s.now + 10000)))) := by
  change execPuntyRelease s = _
  rw [execPuntyRelease, act_eq, pass]
  dsimp only
  rw [if_pos (by simp [done, cause, steady])]

theorem exec_supplyFault_of_sealed {rail : Nat} (done : l.sealed_ = true) (whole : l.noSeal = false) :
    exec (.supplyFault rail false) s = .next (s.keepOwned s) := by
  change execSupplyFault rail false s = _
  rw [execSupplyFault, act_eq, pass]
  dsimp only
  rw [if_pos (by simp [done, whole])]

end

theorem exec_puntyRelease_of_thermalHold {until_ : Nat} (noPass : s.life.lehr = none) (hold : s.life.thermalHold = some until_)
    (reset : s.life.inReset = true) (past : until_ ≤ s.now) (steady : s.vinSteady = true) :
    exec .puntyRelease s
      = .next (s.keepOwned { s with life := { s.life with thermalHold := none, resetUntil := some (s.now + 10000) } }) := by
  change execPuntyRelease s = _
  rw [execPuntyRelease, act_eq, noPass, hold]
  dsimp only
  rw [if_pos (by simp [reset, past, steady])]

/-! ### The board rails (R739, R740, R743) -/

theorem Pack.vinYoung_eq_false {p : Pack} {now : Nat} (held : ∀ since, p.vinGoodSince = some since → since + 10000 ≤ now) :
    p.vinYoung now = false := by
  unfold Pack.vinYoung
  split
  · next since good => simpa using held since good
  · rfl

theorem exec_vinMainPowerUp_of_held {mv : Nat} (run : s.pack.running = true) (down : s.life.railsUp = false)
    (inRange : s.pack.overVolt = false) (low : 10800 ≤ mv) (high : mv ≤ 14000)
    (held : ∀ since, s.pack.vinGoodSince = some since → since + 10000 ≤ s.now)
    (hu : u = (s.updPack fun p => { p.setVin mv s.now with
      inputSwitch := true, vinGoodSince := some (p.vinGoodSince.getD (s.now - 10000)) }).emit (.inputSwitch true)) :
    exec (.vinMainPowerUp mv) s
      = .next (s.keepOwned ({ u with life := { u.life with railsUp := true, railsSince := u.now } } : State).converterCheck) := by
  change execVinMainPowerUp mv s = _
  rw [execVinMainPowerUp, act_eq, if_neg (by simp [run, down, inRange, low, high, Pack.vinYoung_eq_false held]), hu]

/-- A pass that has not sealed is cut off without a seal (R475, R739). -/
def State.cutPass (s : State) : State :=
  match s.life.lehr with
  | some l => if l.sealed_ = true then s else s.writeDump l 0 0 false {}
  | none => s

/-- A rail may fall after a seal, and may never rise (R739, R743). -/
def State.railMayFall (s : State) (high : Bool) : Bool :=
  match s.life.lehr with
  | some l => l.sealed_ && !l.noSeal && !high
  | none => false

theorem State.railMayFall_eq_false (s : State) {high : Bool}
    (fatal : ∀ l, s.life.lehr = some l → l.sealed_ = true → l.noSeal = true ∨ high = true) : s.railMayFall high = false := by
  unfold State.railMayFall
  split
  · next l pass =>
    cases done : l.sealed_ with
    | false => rfl
    | true => rcases fatal l pass done with h | h <;> simp [h]
  · rfl

theorem exec_supplyFault_of_fatal {rail : Nat} {high : Bool} (works : s.life.inReset = false)
    (fatal : ∀ l, s.life.lehr = some l → l.sealed_ = true → l.noSeal = true ∨ high = true)
    (hu : u = s.cutPass.updPack fun p => { p with supplyFault := if p.running then some (rail, high) else p.supplyFault })
    (hv : v = ({ u with life := { u.life with lehr := none } } : State).dieReset none) :
    exec (.supplyFault rail high) s = .next (s.keepOwned { v with life := { v.life with railsSince := v.now } }) := by
  change execSupplyFault rail high s = _
  rw [execSupplyFault, act_eq]
  dsimp only
  rw [if_neg (by rw [works, Bool.false_or]; exact ne_true_of_eq_false (s.railMayFall_eq_false fatal)), hv, hu]
  rfl

end

/-! ### The statement -/

/-- Settles O39: each row past its guard; PERST_N by whether the logic die is in reset, a pass runs and the module serves, a rail's fault by
whether a seal stands. -/
theorem powerLossRows : Obligations.PowerLossRows := by
  unfold Obligations.PowerLossRows
  exact fun s => ⟨fun _ released works noPass serving mounted hu _ => exec_perstNAssert_of_serving released works noPass serving mounted hu,
    fun _ released works pass hu other => exec_perstNAssert_of_pass released works pass hu other,
    exec_perstNAssert_of_conflict,
    fun _ released works noPass idle _ hu other => exec_perstNAssert_of_notServing released works noPass idle hu other,
    exec_perstNAssert_of_inReset,
    fun _ _ => exec_perstNDeassert_of_ready,
    exec_powerFailStrobe_of_driven,
    exec_dumpCommandFrame_of_serving,
    fun _ _ _ pass unsealed => exec_lehrSealed_of_unsealed pass unsealed,
    fun _ pass unsealed due => exec_lehrTimeout_of_due pass unsealed due,
    fun _ pass done cause steady => exec_puntyRelease_of_sealed pass done cause steady,
    fun _ => exec_puntyRelease_of_thermalHold,
    fun _ _ run down inRange low high held hu => exec_vinMainPowerUp_of_held run down inRange low high held hu,
    fun _ _ _ _ works fatal hu hv => exec_supplyFault_of_fatal works fatal hu hv,
    fun _ _ pass done whole => exec_supplyFault_of_sealed pass done whole⟩

end Sys2Proof.Machine
end

section
/-! PROOFS. Start-up (R480): the exit from reset and STARTUP_READY, each past its guard, and the statement O40 put together from them. -/

namespace Sys2Proof.Machine

open Sys2Proof

/-! ### The exit from reset (R480 to R485, R651) -/

/-- The logic die has left reset: a host side that has stayed up is told of the new STATE, and else the sideband starts anew (R480, R723). -/
def State.leavesReset (s : State) (f : StartFindings) : State :=
  (if s.life.hostReady = true then (s.setState .booting).outOfReset f else (s.outOfReset f).sbCleared).emit (.logicReset false)

/-- A lost staged set is recorded (R478). -/
def State.lostSetRecorded (s : State) (lost : Nat) : State := if lost = 0 then s else s.event Ev.configDiscarded 0 lost 1 0

/-- The firmware slot of a start runs; one that is not the selected slot is a fallback, which is recorded (R480). -/
def State.runsSlot (s : State) (k : Nat) : State :=
  if k = s.mgmt.nextSlot then { s with life := { s.life with fwRunning := k } }
  else ({ s with life := { s.life with fwRunning := k } } : State).event Ev.fwSlotFallback 0 k
    (if (s.slot s.mgmt.nextSlot).valid = true then 0 else 1) 0

/-- The back end starts with enough memory trained, and fails for reason 1 without it (R480). -/
def State.startsTrained (s : State) (f : StartFindings) : State :=
  if s.trained.length < 28 then s.startFails 1 s.trained.length else s.startBackEnd f

/-- The start goes on from the firmware slot found, and fails for reason 0 without one (R480). -/
def State.startsFrom (s : State) (f : StartFindings) : State :=
  match s.firmwareSlot f with
  | none => s.startFails 0 0
  | some k => (s.runsSlot k).startsTrained f

theorem State.startsFrom_of_none {s : State} {f : StartFindings} (noSlot : s.firmwareSlot f = none) :
    s.startsFrom f = s.startFails 0 0 := by
  rw [State.startsFrom, noSlot]

theorem State.startsFrom_of_some {s : State} {f : StartFindings} {k : Nat} (slot : s.firmwareSlot f = some k) :
    s.startsFrom f = (s.runsSlot k).startsTrained f := by
  rw [State.startsFrom, slot]

/-- A fence pin that is asserted fences (R512). -/
def State.heedsPin (s : State) : State := if s.life.fencePin = true then s.fence .pin else s

theorem exec_logicDieResetExit_of_mayLeaveReset {s u : State} {f : StartFindings} (may : s.mayLeaveReset f = true)
    (hu : u = (s.leavesReset f).lostSetRecorded (s.life.stagedLost + s.mgmt.staged.length)) :
    exec (.logicDieResetExit f) s = .next (s.keepVault (u.startsFrom f).heedsPin) := by
  change execLogicDieResetExit f s = _
  rw [execLogicDieResetExit, vaultAct_eq, if_neg (by simp [may])]
  extract_lets lost keep s₁ s₂ s₃ s₄ _ s₅
  have left : s₃ = s.leavesReset f := by
    unfold s₃ s₂ s₁ keep State.leavesReset
    split <;> rfl
  have recorded : s₄ = u := by
    rw [hu, ← left]
    rfl
  have begun : s₅ = s₄.startsFrom f := rfl
  rw [begun, recorded]
  rfl

/-! ### STARTUP_READY (R480, R485, R486) -/

section

variable {s r t v w : State}

theorem exec_startupReady_of_ready (live : s.live = true) (starting : s.life.starting = true)
    (boot : s.life.st = .restoring ∨ ((s.life.foreign_ = true ∨ s.life.step = 6) ∧ s.life.st = .booting))
    (hr : r = if s.life.foreign_ = true then s else s.removeMissing.run)
    (ht : t = if r.life.starting = true ∧ r.life.step = 6 ∧ r.membersSettled = true then r.stepEight.run else r)
    (still : t.life.starting = true)
    (ready : t.life.foreign_ = true ∨ (t.life.step = 10 ∧ t.life.redestages = [] ∧ t.life.checksFirst = [] ∧ t.unjournaledLeft = false
      ∧ t.membersSettled = true))
    (hv : v = t.takeoverDone)
    (hw : w = (({ v with life := { v.life with starting := false } } : State).setState .ready).reclaimJournal.govStart) :
    exec .startupReady s
      = .next (s.keepVault (w.event Ev.ready 0 ((w.now - w.life.opSince) / 1000) (b2n t.life.usableDump)
          (w.volumes.filter fun e => e.2.attached.isSome).length)) := by
  have eight : (if (r.life.starting && r.life.step = 6 && r.membersSettled) = true then r.stepEight.run else r) = t := by
    rw [ht]
    simp only [Bool.and_eq_true, decide_eq_true_eq, and_assoc]
  change execStartupReady s = _
  rw [execStartupReady, vaultAct_eq]
  dsimp only
  rw [if_neg (by simpa [live, starting, Decidable.or_iff_not_imp_left] using boot), ← hr, eight,
    if_neg (by simpa [still, and_assoc, Decidable.or_iff_not_imp_left] using ready), ← hv, ← hw]

end

/-! ### The statement -/

/-- Settles O40: the exit from reset by whether a firmware slot verifies, and STARTUP_READY once nothing that it waits for is left. -/
theorem restartRows : Obligations.RestartRows := by
  unfold Obligations.RestartRows
  refine ⟨fun s t u v w f lost may hlost ht hu noSlot hslot => ?exit,
    fun _ _ _ _ _ live starting boot hr ht still ready hv hw => exec_startupReady_of_ready live starting boot hr ht still ready hv hw⟩
  case exit =>
    have recorded : u = (s.leavesReset f).lostSetRecorded (s.life.stagedLost + s.mgmt.staged.length) := by
      rw [hu, ht, hlost]
      rfl
    have begun : w = u.startsFrom f := by
      cases slot : u.firmwareSlot f with
      | none => rw [noSlot slot, State.startsFrom_of_none slot]
      | some k =>
        obtain ⟨hv, hw⟩ := hslot k slot
        rw [hw, hv, State.startsFrom_of_some slot]
        rfl
    rw [begun]
    exact exec_logicDieResetExit_of_mayLeaveReset may recorded

end Sys2Proof.Machine
end

section
/-! PROOFS. The device settings (R401, R618): what R401 leaves of a limit, the shape of every row's outcome, and the statements O4, O5 and O50
put together from them. -/

namespace Sys2Proof.Machine

open Sys2Proof

/-! ### The limit that the reserve allows (R401) -/

theorem cappedLimit_le (l : Nat) (m : Store VBlock) : cappedLimit l m ≤ l := by
  unfold cappedLimit
  split
  · next less => exact less.le
  · exact le_rfl

/-- A limit in its range stays in it, since the reserve never allows less than 4,096, in steps of 256. -/
theorem cappedLimit_inRange {l : Nat} (m : Store VBlock) (h : 4096 ≤ l ∧ l ≤ 32768 ∧ l % 256 = 0) :
    4096 ≤ cappedLimit l m ∧ cappedLimit l m ≤ 32768 ∧ cappedLimit l m % 256 = 0 := by
  unfold cappedLimit reserveLimit
  split <;> omega

/-! ### The ranges (R618) -/

theorem Settings.ok_iff {x : Settings} :
    x.ok = true ↔ (4096 ≤ x.lCfg ∧ x.lCfg ≤ 32768 ∧ x.lCfg % 256 = 0) ∧ (24 ≤ x.patrolHours ∧ x.patrolHours ≤ 336)
      ∧ (8 ≤ x.refreshBits ∧ x.refreshBits ≤ 64) ∧ (x.high ≤ 255 ∧ x.medium ≤ 255 ∧ x.low ≤ 255)
      ∧ (10 ≤ x.stallTimeout ∧ x.stallTimeout ≤ 60000) ∧ (1 ≤ x.exportWait ∧ x.exportWait ≤ 60) := by
  simp [Settings.ok, and_assoc]

theorem Settings.ok_capped {x : Settings} (h : x.ok = true) (m : Store VBlock) :
    ({ x with lCfg := cappedLimit x.lCfg m } : Settings).ok = true := by
  rw [Settings.ok_iff] at h ⊢
  exact ⟨cappedLimit_inRange m h.1, h.2⟩

theorem field_zero_eight_le (v k : Nat) : field v k 8 ≤ 255 := by
  unfold field
  omega

/-! ### What a row does to the settings -/

/-- Every next state has the settings of `s`, but for a limit that R401 may have lowered. -/
def CapsSettings (s : State) (o : Host.Outcome State Fault Refusal) : Prop :=
  ∀ t, o = .next t → t.settings = s.settings ∨ ∃ m, t.settings = { s.settings with lCfg := cappedLimit s.settings.lCfg m }

theorem capsSettings_act (s t : State) : CapsSettings s (act s t) := by
  rintro _ ⟨⟩
  exact .inl rfl

theorem capsSettings_vaultAct (s t : State) : CapsSettings s (vaultAct s t) := by
  rintro _ ⟨⟩
  exact .inr ⟨_, rfl⟩

/-- Only the rows of SET_FEATURE that own a setting are of another shape. -/
theorem exec_capsSettings (c : Instr) (s : State) (h : setsSettings c = false) : CapsSettings s (exec c s) := by
  cases c
  case setFeatureDirtyLimit | setFeaturePatrolPeriod | setFeatureRefreshThreshold | setFeatureClassWeights
      | setFeatureStallTimeout | setFeatureExportWait | setFeatureTimeBase => nomatch h
  case vaultProgramComplete | vaultReadComplete | vaultEraseComplete | wearMoveCheck | garbageCollectionStart
      | percentUsedRecompute | vaultRequestTimeout | unitDown | unitUp | vaultOperationTimeout
      | logicDieResetExit | startupReady | arbTakeAssert | exportWait | dumpImport | pairingLinkFailure
      | arrayImport | deviceStart | volumeDelete | histogramIntervalEnd | recorderCommit
      | operatingSecondsSave | retireFlush | journalSpaceFreed | tileJobComplete
      | vaultCheckpoint | vaultBlockOpenable | patrolPassStart =>
    exact capsSettings_vaultAct s _
  all_goals exact capsSettings_act s _

/-- Every next state has its settings in their ranges. -/
def NextInRange (o : Host.Outcome State Fault Refusal) : Prop := ∀ t, o = .next t → t.settings.ok = true

theorem CapsSettings.inRange {s : State} {o : Host.Outcome State Fault Refusal} (h : CapsSettings s o) (ok : s.settings.ok = true) :
    NextInRange o := by
  intro t ht
  rcases h t ht with same | ⟨m, capped⟩
  · exact same ▸ ok
  · exact capped ▸ Settings.ok_capped ok m

/-- A row that owns a setting takes a value that R618 admits, or leaves the state. -/
theorem setDevice_inRange {acc id : Nat} {s : State} {put : List Nat → Settings} {after : State → State} (ok : s.settings.ok = true)
    (admits : ∀ e : Sqe, featureValuesOk id e.values = true → (put e.values).ok = true) : NextInRange (setDevice acc id s put after) := by
  intro t ht
  unfold setDevice at ht
  split at ht
  · cases ht
    exact ok
  · next c hc =>
    cases ht
    obtain ⟨-, -, -, form, -⟩ := State.startable_some hc
    exact admits _ (Bool.and_eq_true_iff.mp form).2

section

variable {s : State}

theorem execSetFeatureDirtyLimit_inRange (ok : s.settings.ok = true) (acc : Nat) : NextInRange (execSetFeatureDirtyLimit acc s) := by
  refine setDevice_inRange ok fun e he => ?_
  rw [Settings.ok_iff] at ok ⊢
  exact ⟨cappedLimit_inRange _ (by simpa [featureValuesOk, and_assoc] using he), ok.2⟩

theorem execSetFeaturePatrolPeriod_inRange (ok : s.settings.ok = true) (acc : Nat) : NextInRange (execSetFeaturePatrolPeriod acc s) := by
  refine setDevice_inRange ok fun e he => ?_
  rw [Settings.ok_iff] at ok ⊢
  obtain ⟨limit, -, rest⟩ := ok
  exact ⟨limit, by simpa [featureValuesOk] using he, rest⟩

theorem execSetFeatureRefreshThreshold_inRange (ok : s.settings.ok = true) (acc : Nat) :
    NextInRange (execSetFeatureRefreshThreshold acc s) := by
  refine setDevice_inRange ok fun e he => ?_
  rw [Settings.ok_iff] at ok ⊢
  obtain ⟨limit, patrol, -, rest⟩ := ok
  exact ⟨limit, patrol, by simpa [featureValuesOk] using he, rest⟩

theorem execSetFeatureClassWeights_inRange (ok : s.settings.ok = true) (acc : Nat) : NextInRange (execSetFeatureClassWeights acc s) := by
  refine setDevice_inRange ok fun e he => ?_
  rw [Settings.ok_iff] at ok ⊢
  obtain ⟨limit, patrol, refresh, -, rest⟩ := ok
  exact ⟨limit, patrol, refresh, ⟨field_zero_eight_le .., field_zero_eight_le .., field_zero_eight_le ..⟩, rest⟩

theorem execSetFeatureStallTimeout_inRange (ok : s.settings.ok = true) (acc : Nat) : NextInRange (execSetFeatureStallTimeout acc s) := by
  refine setDevice_inRange ok fun e he => ?_
  rw [Settings.ok_iff] at ok ⊢
  obtain ⟨limit, patrol, refresh, weights, -, wait⟩ := ok
  exact ⟨limit, patrol, refresh, weights, by simpa [featureValuesOk] using he, wait⟩

theorem execSetFeatureExportWait_inRange (ok : s.settings.ok = true) (acc : Nat) : NextInRange (execSetFeatureExportWait acc s) := by
  refine setDevice_inRange ok fun e he => ?_
  rw [Settings.ok_iff] at ok ⊢
  obtain ⟨limit, patrol, refresh, weights, stall, -⟩ := ok
  exact ⟨limit, patrol, refresh, weights, stall, by simpa [featureValuesOk] using he⟩

/-- The time base has no range of its own. -/
theorem execSetFeatureTimeBase_inRange (ok : s.settings.ok = true) (acc : Nat) : NextInRange (execSetFeatureTimeBase acc s) :=
  setDevice_inRange ok fun _ _ => ok

theorem exec_inRange (c : Instr) (ok : s.settings.ok = true) : NextInRange (exec c s) := by
  by_cases owns : setsSettings c = true
  · cases c
    case setFeatureDirtyLimit acc => exact execSetFeatureDirtyLimit_inRange ok acc
    case setFeaturePatrolPeriod acc => exact execSetFeaturePatrolPeriod_inRange ok acc
    case setFeatureRefreshThreshold acc => exact execSetFeatureRefreshThreshold_inRange ok acc
    case setFeatureClassWeights acc => exact execSetFeatureClassWeights_inRange ok acc
    case setFeatureStallTimeout acc => exact execSetFeatureStallTimeout_inRange ok acc
    case setFeatureExportWait acc => exact execSetFeatureExportWait_inRange ok acc
    case setFeatureTimeBase acc => exact execSetFeatureTimeBase_inRange ok acc
    all_goals nomatch owns
  · exact (exec_capsSettings c s (Bool.eq_false_iff.mpr owns)).inRange ok

theorem step_inRange (ok : s.settings.ok = true) : NextInRange (step s) := by
  unfold step
  split
  · rintro _ ⟨⟩
    exact ok
  · exact exec_inRange _ ok

end

/-! ### The statements -/

/-- Settles O4: a row that owns a setting takes a value that R618 admits, and the cap of R401 stays above the range's lower end. -/
theorem settingsStayInRange : Obligations.SettingsStayInRange := by
  unfold Obligations.SettingsStayInRange
  exact fun s t ok h => step_inRange ok t h

/-- Settles O50: every other row keeps the settings as they are, or lowers the limit to what the reserve allows. -/
theorem settingsChangeOnlyBySetFeature : Obligations.SettingsChangeOnlyBySetFeature := by
  unfold Obligations.SettingsChangeOnlyBySetFeature
  intro c s t h notOwner
  rcases exec_capsSettings c s notOwner t h with same | ⟨m, capped⟩
  · rw [same]
    exact ⟨rfl, le_rfl⟩
  · rw [capped]
    exact ⟨rfl, cappedLimit_le _ m⟩

/-- Settles O5: the settings of a new module are in their ranges, and its tables hold no ring and no record out of order. -/
theorem resetMeetsInvariants : Obligations.ResetMeetsInvariants := by
  unfold Obligations.ResetMeetsInvariants
  exact ⟨by decide, by decide, by decide, by decide⟩

end Sys2Proof.Machine
end

section
/-! PROOFS. The invariant of the rings' pointers (R567, R578, R581, R584, R585, R588, R589), and the steps by which a proof about it follows a
definition. -/

namespace Sys2Proof.Machine

open Sys2Proof

/-! ### The pointers of a ring -/

theorem Sq.pointersOk_iff {q : Sq} :
    q.pointersOk = true
      ↔ q.depth = 0 ∨ q.fetch < q.depth ∧ (∀ v ∈ q.tailMmio, v < q.depth) ∧ (∀ v ∈ q.tailShadow, v < q.depth) := by
  simp [Sq.pointersOk, Option.all_eq_true, and_assoc]

theorem Cq.pointersOk_iff {c : Cq} : c.pointersOk = true ↔ c.depth = 0 ∨ c.head < c.depth ∧ c.tail < c.depth := by
  simp [Cq.pointersOk]

/-- A ring as it is made has its pointers at 0. -/
theorem Sq.pointersOk_of_zero {q : Sq} (fetch : q.fetch = 0) (mmio : q.tailMmio = none) (shadow : q.tailShadow = none) :
    q.pointersOk = true := by
  rw [Sq.pointersOk_iff, fetch, mmio, shadow]
  exact q.depth.eq_zero_or_pos.imp_right fun pos => ⟨pos, nofun, nofun⟩

theorem Cq.pointersOk_of_zero {c : Cq} (head : c.head = 0) (tail : c.tail = 0) : c.pointersOk = true := by
  rw [Cq.pointersOk_iff, head, tail]
  exact c.depth.eq_zero_or_pos.imp_right fun pos => ⟨pos, pos⟩

theorem mem_of_mem_stillLive {depth point n v : Nat} {old : Option Nat} (h : v ∈ stillLive depth point n old) : v ∈ old := by
  obtain ⟨x, hx, hv⟩ := Option.mem_bind_iff.mp h
  split at hv
  · nomatch hv
  · exact Option.mem_some.mp hv ▸ hx

/-- The fetch pointer goes round the ring, and a value that stays live is one that was (R588, R589). -/
theorem Sq.pointersOk_advance {q : Sq} {arrived pastMmio pastShadow n} (h : q.pointersOk = true) :
    ({ q with fetch := (q.fetch + 1) % q.depth, arrived := arrived, tailMmio := stillLive q.depth q.fetch n q.tailMmio,
              tailShadow := stillLive q.depth q.fetch n q.tailShadow, pastMmio := pastMmio, pastShadow := pastShadow } : Sq).pointersOk = true := by
  rw [Sq.pointersOk_iff] at h ⊢
  refine q.depth.eq_zero_or_pos.imp_right fun pos => ?_
  obtain ⟨-, mmio, shadow⟩ := h.resolve_left pos.ne'
  exact ⟨Nat.mod_lt _ pos, fun v hv => mmio v (mem_of_mem_stillLive hv), fun v hv => shadow v (mem_of_mem_stillLive hv)⟩

/-- A tail value below the depth may become live (R584, R588). -/
theorem Sq.pointersOk_tailMmio {q : Sq} {v past : Nat} {reached : Bool} (below : v < q.depth) (h : q.pointersOk = true) :
    ({ q with tailMmio := if reached then none else some v, pastMmio := past } : Sq).pointersOk = true := by
  rw [Sq.pointersOk_iff] at h ⊢
  refine h.imp_right fun ⟨fetch, _, shadow⟩ => ⟨fetch, ?_, shadow⟩
  cases reached
  · rintro _ ⟨⟩
    exact below
  · exact nofun

theorem Sq.pointersOk_tailShadow {q : Sq} {v past : Nat} {reached : Bool} (below : v < q.depth) (h : q.pointersOk = true) :
    ({ q with tailShadow := if reached then none else some v, pastShadow := past } : Sq).pointersOk = true := by
  rw [Sq.pointersOk_iff] at h ⊢
  refine h.imp_right fun ⟨fetch, mmio, _⟩ => ⟨fetch, mmio, ?_⟩
  cases reached
  · rintro _ ⟨⟩
    exact below
  · exact nofun

/-- The tail goes round the ring (R578, R579). -/
theorem Cq.pointersOk_post {c : Cq} {phase sinceMsg firstAt} (h : c.pointersOk = true) :
    ({ c with tail := if c.tail + 1 ≥ c.depth then 0 else c.tail + 1, phase := phase, sinceMsg := sinceMsg, firstAt := firstAt }
      : Cq).pointersOk = true := by
  rw [Cq.pointersOk_iff] at h ⊢
  refine h.imp_right fun ⟨head, tail⟩ => ⟨head, ?_⟩
  dsimp only
  split <;> omega

theorem Cq.pointersOk_head {c : Cq} {v : Nat} (below : v < c.depth) (h : c.pointersOk = true) :
    ({ c with head := v } : Cq).pointersOk = true := by
  rw [Cq.pointersOk_iff] at h ⊢
  exact h.imp_right fun ⟨_, tail⟩ => ⟨below, tail⟩

/-! ### The rings of a state -/

theorem Store.mem_vals_of_look {α : Type} {m : Store α} {k : Nat} {v : α} (h : m.look k = some v) : v ∈ m.vals := by
  induction m with
  | nil => nomatch h
  | cons e t ih =>
    rw [Store.look] at h
    split at h
    · exact Option.some.inj h ▸ List.mem_cons_self
    · exact List.mem_cons_of_mem _ (ih h)

theorem Store.forall_vals_put {α : Type} {P : α → Prop} {m : Store α} {k : Nat} {v : α} (hv : P v) (h : ∀ x ∈ m.vals, P x) :
    ∀ x ∈ (m.put k v).vals, P x := by
  intro x hx
  obtain ⟨e, he, rfl⟩ := List.mem_map.mp hx
  rcases Store.mem_put he with rfl | he
  · exact hv
  · exact h e.2 (List.mem_map_of_mem he)

theorem Store.forall_vals_keep {α : Type} {P : α → Prop} {m : Store α} {q : Nat → α → Bool} (h : ∀ x ∈ m.vals, P x) :
    ∀ x ∈ (m.keep q).vals, P x :=
  fun x hx => h x ((List.filter_sublist.map _).subset hx)

/-- Every ring's pointers are indices of the ring. -/
structure State.RingsOk (s : State) : Prop where
  sqs : ∀ q ∈ s.sqs.vals, q.pointersOk = true
  cqs : ∀ c ∈ s.cqs.vals, c.pointersOk = true

theorem State.ringsOk_iff (s : State) : s.ringsOk = true ↔ s.RingsOk := by
  rw [State.ringsOk, Bool.and_eq_true, List.all_eq_true, List.all_eq_true]
  exact ⟨fun ⟨sqs, cqs⟩ => ⟨sqs, cqs⟩, fun ⟨sqs, cqs⟩ => ⟨sqs, cqs⟩⟩

section

variable {s t u v : State}

theorem State.RingsOk.sq (h : s.RingsOk) {k q} (listed : s.sqs.look k = some q) : q.pointersOk = true :=
  h.sqs q (Store.mem_vals_of_look listed)

theorem State.RingsOk.cq (h : s.RingsOk) {k c} (listed : s.cqs.look k = some c) : c.pointersOk = true :=
  h.cqs c (Store.mem_vals_of_look listed)

theorem State.RingsOk.sqsPut (h : s.RingsOk) {k q} (hq : q.pointersOk = true) : State.RingsOk { s with sqs := s.sqs.put k q } :=
  { h with sqs := Store.forall_vals_put hq h.sqs }

theorem State.RingsOk.cqsPut (h : s.RingsOk) {k c} (hc : c.pointersOk = true) : State.RingsOk { s with cqs := s.cqs.put k c } :=
  { h with cqs := Store.forall_vals_put hc h.cqs }

/-- A write of what stands beside the pointers of a listed ring. -/
theorem State.RingsOk.sqsBeside (h : s.RingsOk) {k} {q q' : Sq} (hq : q.pointersOk = true) (same : q'.pointersOk = q.pointersOk) :
    State.RingsOk { s with sqs := s.sqs.put k q' } :=
  h.sqsPut (same.trans hq)

theorem State.RingsOk.cqsBeside (h : s.RingsOk) {j k c c'} (listed : s.cqs.look j = some c) (same : c'.pointersOk = c.pointersOk) :
    State.RingsOk { s with cqs := s.cqs.put k c' } :=
  h.cqsPut (same.trans (h.cq listed))

/-- An update of what stands beside the rings keeps their pointers. -/
theorem State.RingsOk.frame (h : s.RingsOk) {pending now choice fresh out nextId nextAcc todo life pair eps fns cmds templates pools members
    volumes regions work settings wp frames heads locks tasks table staging parisons streams tiles tileWait ports journal vault pack link gov
    islands suspects learned recorder sb mgmt} :
    State.RingsOk { s with
      pending := pending, now := now, choice := choice, fresh := fresh, out := out, nextId := nextId, nextAcc := nextAcc, todo := todo,
      life := life, pair := pair, eps := eps, fns := fns, cmds := cmds, templates := templates, pools := pools,
      members := members, volumes := volumes, regions := regions, work := work, settings := settings, wp := wp, frames := frames, heads := heads,
      locks := locks, tasks := tasks, table := table, staging := staging, parisons := parisons, streams := streams, tiles := tiles,
      tileWait := tileWait, ports := ports, journal := journal, vault := vault, pack := pack, link := link, gov := gov, islands := islands,
      suspects := suspects, learned := learned, recorder := recorder, sb := sb, mgmt := mgmt } :=
  ⟨h.sqs, h.cqs⟩

theorem State.RingsOk.ite {c : Prop} [Decidable c] (ht : t.RingsOk) (hu : u.RingsOk) : (if c then t else u).RingsOk := by
  split
  · exact ht
  · exact hu

theorem State.RingsOk.iteSnd {α : Type} {c : Prop} [Decidable c] {a b : α × State} (ha : a.2.RingsOk) (hb : b.2.RingsOk) :
    (if c then a else b).2.RingsOk := by
  split
  · exact ha
  · exact hb

theorem State.RingsOk.iteSndSnd {α β : Type} {c : Prop} [Decidable c] {a b : α × β × State} (ha : a.2.2.RingsOk) (hb : b.2.2.RingsOk) :
    (if c then a else b).2.2.RingsOk := by
  split
  · exact ha
  · exact hb

theorem State.RingsOk.via {P : Prop} (rest : v.RingsOk → P) (h : v.RingsOk) : P := rest h

theorem State.RingsOk.andThen {P : Prop} (h : v.RingsOk) (rest : v.RingsOk → P) : P := rest h

theorem State.RingsOk.over {α : Type} {l : List α} {f : State → α → State} (h : s.RingsOk)
    (turn : ∀ s a, s.RingsOk → (f s a).RingsOk) : (s.over l f).RingsOk :=
  State.over_keeps f l (fun u a _ hu => turn u a hu) s h

theorem State.RingsOk.foldl {α : Type} {l : List α} {f : State → α → State} (h : s.RingsOk)
    (turn : ∀ s a, s.RingsOk → (f s a).RingsOk) : (l.foldl f s).RingsOk := h.over turn

theorem State.RingsOk.foldlSnd {α β : Type} {l : List α} {f : β × State → α → β × State} {b : β × State} (h : b.2.RingsOk)
    (turn : ∀ b a, b.2.RingsOk → (f b a).2.RingsOk) : (l.foldl f b).2.RingsOk :=
  List.foldlRecOn l f (motive := fun b => b.2.RingsOk) h fun b hb a _ => turn b a hb

/-- A turn is given with what it answers, so that the kernel compares the two and does not evaluate the turn. -/
theorem State.RingsOk.foldlSndTo {α β : Type} {l : List α} {f : β × State → α → β × State} {b : β × State} (h : b.2.RingsOk)
    (turn : ∀ b a c, b.2.RingsOk → f b a = c → c.2.RingsOk) : (l.foldl f b).2.RingsOk :=
  h.foldlSnd fun b a hb => turn b a _ hb rfl

theorem State.RingsOk.foldlSndSnd {α β γ : Type} {l : List α} {f : β × γ × State → α → β × γ × State} {b : β × γ × State}
    (h : b.2.2.RingsOk) (turn : ∀ b a, b.2.2.RingsOk → (f b a).2.2.RingsOk) : (l.foldl f b).2.2.RingsOk :=
  List.foldlRecOn l f (motive := fun b => b.2.2.RingsOk) h fun b hb a _ => turn b a hb

theorem State.RingsOk.ofSnd {α : Type} {x : α × State} {a : α} (hx : x = (a, s)) (h : x.2.RingsOk) : s.RingsOk := by
  subst hx
  exact h

theorem State.RingsOk.ofSndSnd {α β : Type} {x : α × β × State} {a : α} {b : β} (hx : x = (a, b, s)) (h : x.2.2.RingsOk) :
    s.RingsOk := by
  subst hx
  exact h

/-- A loop on fuel, taken at its recursor: the kernel would evaluate the partition of a list with a head to unfold the loop's equation. -/
theorem State.RingsOk.brecOn {F : (n : Nat) → Nat.below (motive := fun _ => State → State) n → State → State}
    (zero : ∀ b s, s.RingsOk → (F 0 b s).RingsOk)
    (succ : ∀ n (b : Nat.below (motive := fun _ => State → State) (n + 1)), (∀ s, s.RingsOk → (b.1 s).RingsOk) →
      ∀ s, s.RingsOk → (F (n + 1) b s).RingsOk) (n : Nat) :
    ∀ s, s.RingsOk → (Nat.brecOn (motive := fun _ => State → State) n F s).RingsOk := by
  induction n with
  | zero => exact fun s h => zero _ s h
  | succ n ih => exact fun s h => succ n _ ih s h

/-- Every next state of an answer keeps the rings so. -/
def NextRings (o : Host.Outcome State Fault Refusal) : Prop := ∀ t, o = .next t → t.RingsOk

theorem NextRings.next (h : t.RingsOk) : NextRings (.next t) := by
  rintro _ ⟨⟩
  exact h

end

end Sys2Proof.Machine
end

section
/-! PROOFS. The rings' pointers under what all units share. -/

namespace Sys2Proof.Machine

open Sys2Proof

section

variable {s t u v : State}

/-! ### Writing a state -/

theorem State.RingsOk.emit (h : s.RingsOk) {o} : (s.emit o).RingsOk := h.frame

theorem NextRings.act (h : t.RingsOk) : NextRings (act s t) := .next h.frame

theorem NextRings.actSet {x} (h : t.RingsOk) : NextRings (actSet s x t) := .next h.frame

theorem State.RingsOk.when (h : s.RingsOk) (ht : t.RingsOk) {c} : (s.when c t).RingsOk := .ite ht h

/-! ### Operations of several units -/

theorem State.RingsOk.setEp (h : s.RingsOk) {e v'} : (s.setEp e v').RingsOk := h.frame

theorem State.RingsOk.setTile (h : s.RingsOk) {t' v'} : (s.setTile t' v').RingsOk := h.frame

theorem State.RingsOk.setIsland (h : s.RingsOk) {i v'} : (s.setIsland i v').RingsOk :=
  h.frame

theorem State.RingsOk.setWork (h : s.RingsOk) {r v'} : (s.setWork r v').RingsOk := h.frame

theorem State.RingsOk.sendVector (h : s.RingsOk) {f v'} : (s.sendVector f v').RingsOk := .ite h.frame h.frame

theorem State.RingsOk.flushPba (h : s.RingsOk) {f} : (s.flushPba f).RingsOk := h.over fun _ _ h => .ite h.frame h

theorem State.RingsOk.raise (h : s.RingsOk) {f c} : (s.raise f c).RingsOk := .ite h (.ite h.frame.sendVector h.frame)

theorem State.RingsOk.raisePfs (h : s.RingsOk) {c} : (s.raisePfs c).RingsOk := h.over fun _ _ h => h.raise

theorem State.RingsOk.raiseAll (h : s.RingsOk) {c} : (s.raiseAll c).RingsOk := h.over fun _ _ h => h.raise

theorem State.RingsOk.alert (h : s.RingsOk) {a} : (s.alert a).RingsOk :=
  .ite h (.ite (.via (fun h => .ite h.frame h) (.ite h.frame h.frame)) h.frame)

theorem State.RingsOk.endAlert (h : s.RingsOk) : s.endAlert.RingsOk := .ite h.frame h

theorem State.RingsOk.sbCleared (h : s.RingsOk) : s.sbCleared.RingsOk := h.frame.endAlert.alert

theorem State.RingsOk.countUnrecorded (h : s.RingsOk) {code} : (s.countUnrecorded code).RingsOk := h.frame.over fun _ _ h => h.frame

theorem State.RingsOk.storeRecord (h : s.RingsOk) {r} : (s.storeRecord r).RingsOk := h.frame

theorem State.RingsOk.accept (h : s.RingsOk) {r} : (s.accept r).RingsOk :=
  .ite h.frame (.ite h.countUnrecorded (.via (fun h => .ite h.storeRecord.frame.raisePfs.alert h.storeRecord) (.ite h.frame h)))

theorem State.RingsOk.holdRecord (h : s.RingsOk) {r} : (s.holdRecord r).RingsOk := by
  unfold State.holdRecord
  dsimp only
  split
  · exact .ite h.frame h.frame.countUnrecorded
  · exact h.frame

theorem State.RingsOk.record (h : s.RingsOk) {code src p1 p2 p3} : (s.record code src p1 p2 p3).RingsOk :=
  .ite h (.ite h.accept h.holdRecord)

theorem State.RingsOk.event (h : s.RingsOk) {code inst p1 p2 p3} : (s.event code inst p1 p2 p3).RingsOk := h.record

theorem State.RingsOk.fnEvent (h : s.RingsOk) {code f p2 p3} : (s.fnEvent code f p2 p3).RingsOk := h.record

theorem State.RingsOk.volEvent (h : s.RingsOk) {code v' p1 p2 p3} : (s.volEvent code v' p1 p2 p3).RingsOk := h.record

theorem State.RingsOk.aerCorrectable (h : s.RingsOk) {f bit} : (s.aerCorrectable f bit).RingsOk := .ite h.frame h.frame

theorem State.RingsOk.countFixed (h : s.RingsOk) {i} : (s.countFixed i).RingsOk := h.frame.over fun _ _ h => h.aerCorrectable

theorem State.RingsOk.wordBad (h : s.RingsOk) {i area} : (s.wordBad i area).RingsOk := h.frame.event

theorem State.RingsOk.wordFixed (h : s.RingsOk) {i area} : (s.wordFixed i area).RingsOk := h.countFixed.event

theorem State.RingsOk.markedExit (h : s.RingsOk) {i requester exit} : (s.markedExit i requester exit).RingsOk := h.frame.event

theorem State.RingsOk.rebuilt (h : s.RingsOk) {i area index} : (s.rebuilt i area index).RingsOk := h.frame.event

theorem State.RingsOk.learnEpoch (h : s.RingsOk) {requester dest} : (s.learnEpoch requester dest).RingsOk := h.frame

theorem State.RingsOk.dropStale (h : s.RingsOk) {requester responder n} : (s.dropStale requester responder n).RingsOk :=
  h.over fun _ _ h => h.frame.event

theorem State.RingsOk.replyTo (h : s.RingsOk) {requester responder src} {f : State → State}
    (hf : ∀ s, s.RingsOk → (f s).RingsOk) :
    (s.replyTo requester responder src f).RingsOk :=
  .ite (hf _ h) h.dropStale

theorem State.RingsOk.islandDown (h : s.RingsOk) {i why} : (s.islandDown i why).RingsOk := h.frame.event

theorem State.RingsOk.mapOut (h : s.RingsOk) {i row} : (s.mapOut i row).RingsOk :=
  .alert (.raisePfs (.ite h.frame.event h.frame.event.event))

theorem State.RingsOk.aer (h : s.RingsOk) {f bit advisory} : (s.aer f bit advisory).RingsOk :=
  .ite (.ite h.frame h.frame) (.ite h.frame h.frame)

theorem State.RingsOk.mmio (h : s.RingsOk) (ht : t.RingsOk) {f read} : (s.mmio f read t).RingsOk := .ite ht (.ite h.aer.emit h)

theorem State.RingsOk.setState (h : s.RingsOk) {st} : (s.setState st).RingsOk :=
  .ite h (.ite (.raiseAll (h.frame.raiseAll.alert.over fun _ _ h => h.aer)) h.frame.raiseAll.alert)

/-! ### Rings -/

theorem State.RingsOk.noteBacked (h : s.RingsOk) : s.noteBacked.RingsOk := by
  refine h.over fun _ _ h => ?_
  split
  · exact h
  · next hc =>
    split
    · exact h.cqsBeside hc rfl
    · exact .via (fun h => .ite h.fnEvent h) (h.cqsBeside hc rfl)
    · exact h

theorem State.RingsOk.stallCheck (h : s.RingsOk) {k} : (s.stallCheck k).RingsOk := by
  unfold State.stallCheck
  split
  · exact h
  · next c hc =>
    split
    · exact h
    · exact .ite (h.cqsBeside (c' := { c with stalled := true }) hc rfl).fnEvent.raise h

theorem State.RingsOk.postEntry (h : s.RingsOk) {k c e} (hc : c.pointersOk = true) : (s.postEntry k c e).RingsOk :=
  h.emit.cqsPut (Cq.pointersOk_post hc)

theorem State.RingsOk.cqMessage (h : s.RingsOk) {k} : (s.cqMessage k).RingsOk := by
  unfold State.cqMessage
  split
  · exact h
  · next hc => exact .ite (.via (fun h => .ite h.sendVector h) (h.cqsBeside hc rfl)) h

theorem State.RingsOk.refillStash (h : s.RingsOk) {k} : (s.refillStash k).RingsOk := by
  unfold State.refillStash
  split
  · exact h
  · next hc => exact h.cqsBeside hc rfl

theorem State.RingsOk.drainLoop (h : s.RingsOk) {n k} : (s.drainLoop n k).RingsOk := by
  induction n generalizing s with
  | zero => exact h
  | succ n ih =>
    rw [State.drainLoop]
    split
    · exact h
    · next hc =>
      refine .ite ?_ h
      split
      · exact ih (h.postEntry (h.cq hc :))
      · exact ih (h.postEntry (h.cq hc :))
      · exact h

theorem State.RingsOk.drainCq (h : s.RingsOk) {k} : (s.drainCq k).RingsOk := by
  unfold State.drainCq
  split
  · exact h
  · exact .noteBacked (h.drainLoop.cqMessage.refillStash.over fun _ _ h => h.refillStash)

theorem State.RingsOk.generate (h : s.RingsOk) {k e} : (s.generate k e).RingsOk := by
  unfold State.generate
  split
  · exact h
  · next hc => exact .ite (h.postEntry (h.cq hc)).cqMessage (.ite (.noteBacked (h.cqsBeside hc rfl)) (h.cqsBeside hc rfl))

theorem State.RingsOk.countHostLatency (h : s.RingsOk) {series us} : (s.countHostLatency series us).RingsOk := by
  refine .ite ?_ h.frame
  split <;> exact h.frame

theorem State.RingsOk.finishOne (h : s.RingsOk) {acc st result resultHi} : (s.finishOne acc st result resultHi).RingsOk := by
  unfold State.finishOne
  split
  · exact h
  · extract_lets s₁ _ s₂ s₃
    have h₂ : s₂.RingsOk := h.frame
    have h₃ : s₃.RingsOk := .ite h₂.countHostLatency (.ite h₂.countHostLatency h₂)
    refine .ite h₂ ?_
    split
    · exact h₃
    · exact h₃.generate

theorem State.RingsOk.noteChange (h : s.RingsOk) {kind index} : (s.noteChange kind index).RingsOk := .ite h (.ite h h.frame)

theorem State.RingsOk.noteVolume (h : s.RingsOk) {v'} : (s.noteVolume v').RingsOk := by
  unfold State.noteVolume
  split
  · exact .ite h h.noteChange
  · exact h

theorem State.RingsOk.answer (h : s.RingsOk) {acc st result resultHi} : (s.answer acc st result resultHi).RingsOk :=
  .ite h.frame h.finishOne

theorem State.RingsOk.settleWaits (h : s.RingsOk) : s.settleWaits.RingsOk := by
  refine h.over fun _ _ h => .ite (.ite h.finishOne h) (.ite (.ite (.finishOne (.ite h.setState h)) h) ?_)
  dsimp only
  split
  · exact h.finishOne
  · exact .ite h.finishOne (.ite (.answer (.noteVolume h.volEvent.frame)) h)

theorem State.RingsOk.finish (h : s.RingsOk) {acc st result resultHi} : (s.finish acc st result resultHi).RingsOk :=
  h.finishOne.settleWaits

theorem State.RingsOk.finishLogged (h : s.RingsOk) {acc st result resultHi} : (s.finishLogged acc st result resultHi).RingsOk :=
  h.answer.settleWaits

theorem State.RingsOk.updCmd (h : s.RingsOk) {acc f} : (s.updCmd acc f).RingsOk := h.frame

/-! ### The array -/

theorem State.RingsOk.updRegion (h : s.RingsOk) {r f} : (s.updRegion r f).RingsOk :=
  .ite h (.ite h.frame.noteChange (.ite h.frame.noteChange.event h.frame.noteChange.event))

theorem State.RingsOk.raiseLoss (h : s.RingsOk) {v'} : (s.raiseLoss v').RingsOk := by
  unfold State.raiseLoss
  dsimp only
  split
  · exact .ite h.raisePfs h.raisePfs.raise
  · exact h.raisePfs

theorem State.RingsOk.addLoss (h : s.RingsOk) {vol l lost} : (s.addLoss vol l lost).RingsOk := by
  unfold State.addLoss
  split
  · exact h
  · exact .ite h (.via (fun h => .ite h.alert h) (.ite h.frame.raiseLoss.noteVolume h.frame.raiseLoss))

/-! ### The cache -/

theorem State.RingsOk.takeFrameBut (h : s.RingsOk) {not_ x f} (ht : s.takeFrameBut not_ x = some (f, t)) : t.RingsOk := by
  unfold State.takeFrameBut at ht
  extract_lets room at ht
  split at ht
  next d s₁ hs =>
    have h₁ : s₁.RingsOk := .ofSnd hs h.frame
    split at ht
    · nomatch ht
    · split at ht
      · obtain ⟨rfl, rfl⟩ := Prod.mk.inj (Option.some.inj ht)
        exact h₁.frame
      · nomatch ht

theorem State.RingsOk.takeFrame (h : s.RingsOk) {x f} (ht : s.takeFrame x = some (f, t)) : t.RingsOk := h.takeFrameBut ht

theorem State.RingsOk.moveShare (h : s.RingsOk) {c} : (s.moveShare c).RingsOk := .ite h h.frame

theorem State.RingsOk.takeFrames (h : s.RingsOk) {l} : (s.takeFrames l).2.RingsOk := by
  refine .foldlSndTo h fun b a c h hc => ?_
  split at hc
  · next ht => exact hc ▸ h.takeFrame ht
  · exact hc ▸ h

theorem State.RingsOk.setChain (h : s.RingsOk) {b l} : (s.setChain b l).RingsOk := h.frame

theorem State.RingsOk.chainIn (h : s.RingsOk) {f} : (s.chainIn f).RingsOk := by
  unfold State.chainIn
  split
  · exact h
  · exact h.setChain

theorem State.RingsOk.freeFrame (h : s.RingsOk) {f} : (s.freeFrame f).RingsOk := by
  unfold State.freeFrame
  split
  · exact h
  · exact .frame (.ite h.setChain h)

theorem State.RingsOk.freeAll (h : s.RingsOk) {l} : (s.freeAll l).RingsOk := h.over fun _ _ h => h.freeFrame

theorem State.RingsOk.updFrame (h : s.RingsOk) {f g} : (s.updFrame f g).RingsOk := h.frame

theorem State.RingsOk.settleFrame (h : s.RingsOk) {f} : (s.settleFrame f).RingsOk := by
  unfold State.settleFrame
  split
  · exact .ite h.freeFrame h
  · exact h

theorem State.RingsOk.supersede (h : s.RingsOk) {f} : (s.supersede f).RingsOk := by
  unfold State.supersede
  split
  · exact h
  · exact .ite h.freeFrame h.frame.settleFrame

theorem State.RingsOk.pinAll (h : s.RingsOk) {l} : (s.pinAll l).RingsOk := h.over fun _ _ h => h.frame

theorem State.RingsOk.unpin (h : s.RingsOk) {l} : (s.unpin l).RingsOk := h.over fun _ _ h => h.frame.settleFrame

theorem State.RingsOk.holdAll (h : s.RingsOk) {l} : (s.holdAll l).RingsOk := h.over fun _ _ h => h.frame

theorem State.RingsOk.unhold (h : s.RingsOk) {l} : (s.unhold l).RingsOk := h.over fun _ _ h => h.frame.settleFrame

theorem State.RingsOk.noteGen (h : s.RingsOk) {vol g} : (s.noteGen vol g).RingsOk := h.frame

theorem State.RingsOk.fillDone (h : s.RingsOk) {f data} : (s.fillDone f data).RingsOk := by
  unfold State.fillDone
  split
  · exact .ite h (.ite h.freeFrame h.frame.chainIn)
  · exact h.freeFrame
  · exact h

theorem State.RingsOk.sweepFrame (h : s.RingsOk) {f} : (s.sweepFrame f).RingsOk := by
  unfold State.sweepFrame
  split
  · exact h
  · exact .ite h (.ite h.frame (.ite h.freeFrame h))

theorem State.RingsOk.sweepList (h : s.RingsOk) {l} : (s.sweepList l).RingsOk := by
  induction l generalizing s with
  | nil => exact h
  | cons f l ih =>
    rw [State.sweepList]
    exact .ite h.frame (ih h.sweepFrame.frame)

theorem State.RingsOk.demand (h : s.RingsOk) {l} : (s.demand l).RingsOk := h.frame

/-! ### Fetching -/

theorem State.RingsOk.issueRead (h : s.RingsOk) {f kind addr len} (ht : s.issueRead f kind addr len = some t) : t.RingsOk := by
  unfold State.issueRead at ht
  split at ht
  · nomatch ht
  · dsimp only at ht
    split at ht
    · nomatch ht
    · exact Option.some.inj ht ▸ h.frame

theorem State.RingsOk.issueAll (h : s.RingsOk) {l} : (s.issueAll l).RingsOk := by
  induction l generalizing s with
  | nil => exact h
  | cons x l ih =>
    rw [State.issueAll]
    split
    · next ht => exact ih (h.issueRead ht)
    · exact h

theorem State.RingsOk.pumpCmd (h : s.RingsOk) {n acc} : (s.pumpCmd n acc).RingsOk := by
  induction n generalizing s with
  | zero => exact h
  | succ n ih =>
    rw [State.pumpCmd]
    split
    · exact h
    · refine .ite h ?_
      split
      · split
        · exact h
        · next ht => exact ih (h.issueRead ht).updCmd
      · dsimp only
        split
        · exact h
        · split
          · exact h
          · next ht => exact ih (h.issueRead ht).updCmd

theorem State.RingsOk.pump (h : s.RingsOk) : s.pump.RingsOk := h.over fun _ _ h => h.pumpCmd

theorem State.RingsOk.hostWrite (h : s.RingsOk) {f buffers data} : (s.hostWrite f buffers data).RingsOk := h.over fun _ _ h => h.frame

theorem State.RingsOk.afterList (h : s.RingsOk) {acc} : (s.afterList acc).RingsOk := by
  unfold State.afterList
  split
  · exact h
  · refine .ite h.finish (.ite h.finish ?_)
    split
    · exact h.finish
    · exact h.frame

theorem State.RingsOk.askList (h : s.RingsOk) {acc c} : (s.askList acc c).RingsOk := h.frame.pumpCmd

theorem State.RingsOk.acceptEntry (h : s.RingsOk) {key q bytes} : (s.acceptEntry key q bytes).RingsOk := by
  unfold State.acceptEntry
  extract_lets e acc admin mode c s₁ s₂
  have h₁ : s₁.RingsOk := h.frame
  have h₂ : s₂.RingsOk := .ite h₁ h₁.frame
  clear_value s₂
  split
  · exact h₂.finish
  · refine .ite h₂.askList ?_
    split
    · exact h₂.finish
    · exact .updCmd (.ite h₂.frame h₂)

theorem State.RingsOk.acceptLoop (h : s.RingsOk) {n key} : (s.acceptLoop n key).RingsOk := by
  induction n generalizing s with
  | zero => exact h
  | succ n ih =>
    rw [State.acceptLoop]
    split
    · exact h
    · next hq =>
      refine .ite h ?_
      split
      · exact h
      · exact ih (.acceptEntry (h.sqsPut (Sq.pointersOk_advance (h.sq hq))))

theorem State.RingsOk.fetchBurst (h : s.RingsOk) {key q} : (s.fetchBurst key q).RingsOk := h.issueAll

end

end Sys2Proof.Machine
end

section
/-! PROOFS. The rings' pointers in the vault and the journal. -/

namespace Sys2Proof.Machine

open Sys2Proof

section

variable {s t u v : State}

/-! ### The vault -/

theorem State.RingsOk.setVblk (h : s.RingsOk) {b x} : (s.setVblk b x).RingsOk := h.frame

theorem State.RingsOk.askDie (h : s.RingsOk) {id op} : (s.askDie id op).RingsOk := .frame (.ite h h.frame)

theorem State.RingsOk.issueOp (h : s.RingsOk) {op} : (s.issueOp op).RingsOk := h.frame.askDie

theorem State.RingsOk.reissueOps (h : s.RingsOk) {d} : (s.reissueOps d).RingsOk := h.over fun _ _ h => h.askDie

theorem State.RingsOk.startReads (h : s.RingsOk) {l why} : (s.startReads l why).RingsOk := h.over fun _ _ h => h.issueOp

theorem State.RingsOk.pageFor (h : s.RingsOk) {use b page} (ht : s.pageFor use = some (b, page, t)) : t.RingsOk := by
  obtain ⟨⟨d, b', v⟩, hpick, hv⟩ := Option.map_eq_some_iff.mp ht
  have hopen : v.RingsOk := by
    obtain ⟨e, -, he⟩ := List.exists_of_findSome?_eq_some hpick
    split at he
    · exact (Prod.mk.inj (Prod.mk.inj (Option.some.inj he)).2).2 ▸ h
    · split at he
      · obtain ⟨b'', -, hb⟩ := Option.map_eq_some_iff.mp he
        exact (Prod.mk.inj (Prod.mk.inj hb).2).2 ▸ h.frame
      · nomatch he
  exact (Prod.mk.inj (Prod.mk.inj hv).2).2 ▸ hopen.setVblk.frame

theorem State.RingsOk.programPage (h : s.RingsOk) {u' sectors why} : (s.programPage u' sectors why).RingsOk := by
  refine .ite h.frame ?_
  split
  · exact h.frame
  · next b page t ht =>
    exact (h.pageFor ht).issueOp

theorem State.RingsOk.storeSectors (h : s.RingsOk) {b page sectors corrected} : (s.storeSectors b page sectors corrected).RingsOk :=
  h.over fun _ _ h => h.frame

theorem State.RingsOk.program (h : s.RingsOk) {u' content why} : (s.program u' content why).RingsOk :=
  h.over fun _ _ h => h.programPage

theorem State.RingsOk.appendRecord (h : s.RingsOk) {all acc copy} : (s.appendRecord all acc copy).RingsOk :=
  .ite h.frame.program h.frame

theorem State.RingsOk.writeHeld (h : s.RingsOk) : s.writeHeld.RingsOk := h.over fun _ _ h => .ite h h.frame.program

theorem State.RingsOk.appendMap (h : s.RingsOk) {entries acc copy} : (s.appendMap entries acc copy).RingsOk :=
  .ite h.appendRecord h.appendRecord.appendRecord

theorem State.RingsOk.flushOpens (h : s.RingsOk) : s.flushOpens.RingsOk := .ite h h.appendMap

theorem State.RingsOk.vprogram (h : s.RingsOk) {u' content why} : (s.vprogram u' content why).RingsOk := h.program.flushOpens

theorem State.RingsOk.logEntries (h : s.RingsOk) {entries acc copy} : (s.logEntries entries acc copy).RingsOk :=
  h.over fun _ _ h => h.appendMap

theorem State.RingsOk.startErases (h : s.RingsOk) : s.startErases.RingsOk :=
  h.over fun _ _ h => .issueOp (h.over fun _ _ h => h.frame)

theorem State.RingsOk.releaseBlocks (h : s.RingsOk) {d} : (s.releaseBlocks d).RingsOk :=
  .via (fun h => .ite h.frame.startErases (.ite h.frame.startErases.frame h.frame.startErases.event))
    (h.over fun _ _ h => h.frame)

theorem State.RingsOk.releaseDump (h : s.RingsOk) : s.releaseDump.RingsOk := by
  unfold State.releaseDump
  split
  · exact h
  · exact h.frame.releaseBlocks

theorem State.RingsOk.cullBlocks (h : s.RingsOk) : s.cullBlocks.RingsOk := .startErases (h.over fun _ _ h => h.frame)

theorem State.RingsOk.dropSectors (h : s.RingsOk) {b} : (s.dropSectors b).RingsOk := h.frame

theorem State.RingsOk.percentUpdate (h : s.RingsOk) : s.percentUpdate.RingsOk :=
  .via (fun h => .ite h.frame.event.raisePfs.alert h) (.ite h.frame.event.raisePfs.alert h.frame)

theorem State.RingsOk.retireBlock (h : s.RingsOk) {b program} : (s.retireBlock b program).RingsOk :=
  .percentUpdate (.event (.appendMap (.ite h.frame h.frame)))

theorem State.RingsOk.startCopy (h : s.RingsOk) {c} : (s.startCopy c).RingsOk := h.frame.startReads

theorem State.RingsOk.closeUse (h : s.RingsOk) {u'} : (s.closeUse u').RingsOk := h.over fun _ _ h => h.frame

theorem State.RingsOk.closeWear (h : s.RingsOk) {b u'} : (s.closeWear b u').RingsOk := .ite h h.closeUse.frame

theorem State.RingsOk.freeSource (h : s.RingsOk) {c} : (s.freeSource c).RingsOk := by
  unfold State.freeSource
  split
  · exact h
  · exact .ite h.closeWear.retireBlock (.ite h.closeWear.setVblk.startErases h.closeWear)

theorem State.RingsOk.moved (h : s.RingsOk) {l} : (s.moved l).RingsOk := by
  unfold State.moved
  exact h.frame

theorem State.RingsOk.copyCopied (h : s.RingsOk) {id c} : (s.copyCopied id c).RingsOk := by
  refine .via (fun h => .ite h.appendMap ?_) (.ite h.moved.frame h.moved)
  split
  · exact h.frame
  · exact h.frame.freeSource

theorem State.RingsOk.mapCommitted (h : s.RingsOk) {seq} : (s.mapCommitted seq).RingsOk := by
  unfold State.mapCommitted
  split
  · exact h
  · refine .via (fun h => h.over fun _ _ h => ?_) (h.frame.over fun _ _ h => ?_)
    · split
      · exact h
      · exact h.frame.freeSource
    · split
      · exact h.frame
      · exact h

theorem State.RingsOk.endVaultWrite (h : s.RingsOk) {acc st} : (s.endVaultWrite acc st).RingsOk := by
  unfold State.endVaultWrite
  split
  · exact h
  · exact h.freeAll.finish

theorem State.RingsOk.commitMaps (h : s.RingsOk) : s.commitMaps.RingsOk :=
  .cullBlocks (State.RingsOk.over (h.over fun _ _ h => h.mapCommitted) fun _ _ h => .ite h h.endVaultWrite)

theorem State.RingsOk.resumeCounters (h : s.RingsOk) {c} : (s.resumeCounters c).RingsOk := by
  unfold State.resumeCounters
  exact h.frame

theorem State.RingsOk.writeCheckpoint (h : s.RingsOk) : s.writeCheckpoint.RingsOk :=
  .ite h h.flushOpens.frame.cullBlocks.appendMap.vprogram

theorem State.RingsOk.flushMap (h : s.RingsOk) : s.flushMap.RingsOk :=
  .ite h.writeCheckpoint (.flushOpens (h.frame.over fun _ _ h => h.program))

theorem State.RingsOk.startCheckpoint (h : s.RingsOk) : s.startCheckpoint.RingsOk := .ite h (.ite h.frame h.flushMap)

theorem State.RingsOk.mapFlushed (h : s.RingsOk) {i phys} : (s.mapFlushed i phys).RingsOk :=
  .ite h (.ite h.frame.appendMap.flushMap h.frame.appendMap)

theorem State.RingsOk.checkpointDone (h : s.RingsOk) : s.checkpointDone.RingsOk := by
  unfold State.checkpointDone
  split
  · exact h
  · exact .via (fun h => .ite h.startCheckpoint h) h.frame.closeUse.writeHeld.cullBlocks

theorem State.RingsOk.blockGone (h : s.RingsOk) {vol lba} : (s.blockGone vol lba).RingsOk := h.appendMap.addLoss

theorem State.RingsOk.rebuildMapPage (h : s.RingsOk) {i} : (s.rebuildMapPage i).RingsOk := .frame (h.over fun _ _ h => h.blockGone)

theorem State.RingsOk.recordsDrop (h : s.RingsOk) {k lost} : (s.recordsDrop k lost).RingsOk := by
  unfold State.recordsDrop
  split
  split
  · exact h
  · exact h.frame.event

theorem State.RingsOk.recordsLost (h : s.RingsOk) {k} : (s.recordsLost k).RingsOk := .ite h h.recordsDrop

theorem State.RingsOk.recordsCheck (h : s.RingsOk) {addr} : (s.recordsCheck addr).RingsOk := by
  unfold State.recordsCheck
  split
  · exact h
  · split
    · exact .ite h h.recordsDrop
    · exact h

theorem State.RingsOk.vaultLost (h : s.RingsOk) {addr} : (s.vaultLost addr).RingsOk := by
  unfold State.vaultLost
  split
  · exact h
  · dsimp only
    split
    · exact .ite h.event.frame.blockGone h.event.frame
    · split
      · exact h.event.frame.demand
      · exact h.event.frame
    · exact h.event.frame
    · exact .ite h.event.frame.rebuildMapPage h.event.frame
    · exact .ite h.event.frame h.event.frame.startCheckpoint
    · exact .ite h.event.frame h.event.frame
    · exact .ite h.event.frame.recordsLost h.event.frame
    · exact h.event.frame
    · exact h.event.frame

/-! ### The journal -/

theorem State.RingsOk.writeRecs (h : s.RingsOk) {l} : (s.writeRecs l).2.RingsOk :=
  .flushOpens (h.frame.over fun _ _ h => h.programPage)

theorem State.RingsOk.noteRefs (h : s.RingsOk) {q r} : (s.noteRefs q r).RingsOk := h.over fun _ _ h => h.frame

theorem State.RingsOk.putRecs (h : s.RingsOk) {l acc task} : (s.putRecs l acc task).2.RingsOk := by
  unfold State.putRecs
  split
  next qs s₁ hs =>
    have h₁ : s₁.RingsOk := .ofSnd hs h.writeRecs
    extract_lets s₂ s₃
    have h₂ : s₂.RingsOk := h₁.over fun _ _ h => .ite h.noteRefs h
    have h₃ : s₃.RingsOk := by
      unfold s₃
      split
      · exact h₂.frame
      · exact h₂
    dsimp only
    split
    · exact h₃.frame
    · exact h₃

theorem State.RingsOk.appendRecs (h : s.RingsOk) {l acc task} : (s.appendRecs l acc task).RingsOk := .ite h.frame h.putRecs

theorem State.RingsOk.reclaimJournal (h : s.RingsOk) : s.reclaimJournal.RingsOk := .ite h h.frame

theorem State.RingsOk.journalPressure (h : s.RingsOk) : s.journalPressure.RingsOk := .ite h (h.over fun _ _ h => h.frame)

theorem State.RingsOk.flushRetire (h : s.RingsOk) {n least} : (s.flushRetire n least).RingsOk := by
  induction n generalizing s with
  | zero => exact h
  | succ n ih =>
    rw [State.flushRetire]
    refine .ite h ?_
    split
    next hs => exact ih (State.RingsOk.ofSnd hs h.writeRecs).frame

theorem State.RingsOk.queueRetire (h : s.RingsOk) {items task} : (s.queueRetire items task).RingsOk := .ite h h.frame.flushRetire

theorem State.RingsOk.retireNow (h : s.RingsOk) : s.retireNow.RingsOk := h.flushRetire

theorem State.RingsOk.journalRetry (h : s.RingsOk) : s.journalRetry.RingsOk := by
  unfold State.journalRetry
  split
  next left s₁ hs =>
    have h₁ : s₁.RingsOk := by
      refine .ofSnd hs (h.foldlSnd fun _ _ h => .iteSnd h ?_)
      exact .ite h.putRecs.queueRetire h.putRecs
    exact h₁.frame

theorem State.RingsOk.recCommitted (h : s.RingsOk) {q} : (s.recCommitted q).RingsOk := by
  unfold State.recCommitted
  split
  · exact h
  · extract_lets _ s₁
    have h₁ : s₁.RingsOk := h.frame
    split
    · exact h₁.frame
    · refine h₁.over fun _ _ h => ?_
      split <;> exact h.frame
    · exact h₁

end

end Sys2Proof.Machine
end

section
/-! PROOFS. The rings' pointers in stripes, members and the engine. -/

namespace Sys2Proof.Machine

open Sys2Proof

section

variable {s t u v : State}

/-! ### Stripes and their interlock -/

theorem State.RingsOk.later (h : s.RingsOk) {t'} : (s.later t').RingsOk := h.frame

theorem State.RingsOk.charge (h : s.RingsOk) {cls bytes} : (s.charge cls bytes).RingsOk := h.frame

theorem State.RingsOk.requestLock (h : s.RingsOk) {t' r k excl} : (s.requestLock t' r k excl).RingsOk := .ite h.frame h.frame

theorem State.RingsOk.releaseLock (h : s.RingsOk) {t' r k} : (s.releaseLock t' r k).RingsOk := h.frame

theorem State.RingsOk.grantLock (h : s.RingsOk) {r k} : (s.grantLock r k).RingsOk := by
  unfold State.grantLock
  dsimp only
  split
  · exact .ite h.frame h
  · split
    · exact h
    · exact .ite h.frame h
    · exact .ite (h.frame.over fun _ _ h => h.frame) h

theorem State.RingsOk.updTask (h : s.RingsOk) {t' f} : (s.updTask t' f).RingsOk := h.frame

theorem State.RingsOk.newTask (h : s.RingsOk) {x excl} : (s.newTask x excl).2.RingsOk := by
  unfold State.newTask
  split
  next id s₁ hs =>
    extract_lets s₂
    have h₂ : s₂.RingsOk := (State.RingsOk.ofSnd hs h.frame).frame
    dsimp only
    split
    · exact h₂.requestLock
    · exact h₂.frame

theorem State.RingsOk.pumpClass (h : s.RingsOk) {port ids} : (s.pumpClass port ids).RingsOk := by
  induction ids generalizing s with
  | nil => exact h
  | cons id ids ih =>
    rw [State.pumpClass]
    split
    · exact ih h
    · exact .ite (ih h) (.ite h (ih h.frame))

theorem State.RingsOk.pumpPort (h : s.RingsOk) {port} : (s.pumpPort port).RingsOk := h.pumpClass.pumpClass

theorem State.RingsOk.pumpAll (h : s.RingsOk) : s.pumpAll.RingsOk := h.over fun _ _ h => h.pumpPort

theorem State.RingsOk.askPort (h : s.RingsOk) {port r} : (s.askPort port r).2.RingsOk := .iteSnd h.frame h.frame.pumpPort

theorem State.RingsOk.spend (h : s.RingsOk) {t' bytes} : (s.spend t' bytes).RingsOk := by
  unfold State.spend
  split
  · exact h
  · split
    · exact h
    · exact h.frame

theorem State.RingsOk.countRebuildBytes (h : s.RingsOk) {r} : (s.countRebuildBytes r).RingsOk := by
  unfold State.countRebuildBytes
  split <;> exact h.frame

theorem State.RingsOk.askCells (h : s.RingsOk) {t' write pos place cells hedgeable counted} :
    (s.askCells t' write pos place cells hedgeable counted).RingsOk := by
  unfold State.askCells
  split
  · exact h
  · exact h.over fun _ _ h => h.spend.askPort.updTask

theorem State.RingsOk.reissue (h : s.RingsOk) {t' old place r} : (s.reissue t' old place r).RingsOk :=
  h.spend.askPort.updTask.frame

theorem State.RingsOk.tileFor (h : s.RingsOk) {n not_} : (s.tileFor n not_).2.RingsOk := by
  induction n generalizing s with
  | zero => exact h
  | succ n ih =>
    rw [State.tileFor]
    split
    · exact h
    · exact .iteSnd h (ih h.frame)

theorem State.RingsOk.sendJob (h : s.RingsOk) {j home not_} : (s.sendJob j home not_).RingsOk := by
  unfold State.sendJob
  split
  next target s₁ hs =>
    have h₁ : s₁.RingsOk := by
      split at hs
      · exact (Prod.mk.inj hs).2 ▸ h
      · exact .ofSnd hs h.tileFor
    split
    · exact h₁.frame
    · exact h₁.frame

theorem State.RingsOk.freeStaging (h : s.RingsOk) {r} : (s.freeStaging r).RingsOk := by
  unfold State.freeStaging
  split <;> exact h.frame

theorem State.RingsOk.dropJobs (h : s.RingsOk) {t'} : (s.dropJobs t').RingsOk := .frame (h.over fun _ _ h => h.unpin)

theorem State.RingsOk.endTask (h : s.RingsOk) {t'} : (s.endTask t').RingsOk := by
  unfold State.endTask
  split
  · exact h
  · refine .via (fun h => h.dropJobs.frame.freeAll.releaseLock) ?_
    split
    · exact h.frame.freeStaging.frame
    · exact h.frame.freeStaging

/-! ### Members -/

theorem State.RingsOk.spareCheck (h : s.RingsOk) {pool} : (s.spareCheck pool).RingsOk := by
  unfold State.spareCheck
  split
  · exact h
  · exact .ite (.ite h h.frame.event) (.ite h.frame h)

theorem State.RingsOk.updWork (h : s.RingsOk) {r f} : (s.updWork r f).RingsOk := h.frame

theorem State.RingsOk.enqueue (h : s.RingsOk) {r} : (s.enqueue r).RingsOk := h.frame

theorem State.RingsOk.endStripes (h : s.RingsOk) {r} : (s.endStripes r).RingsOk := h.over fun _ _ h => h.endTask

theorem State.RingsOk.regionLost (h : s.RingsOk) {r} : (s.regionLost r).RingsOk := by
  unfold State.regionLost
  extract_lets s₁ e s₂ s₃ s₄
  have h₃ : s₃.RingsOk := h.endStripes.updWork.over fun _ _ h => h.frame
  have h₄ : s₄.RingsOk := h₃.updRegion
  split
  · exact h₄.volEvent
  · exact h₄.event

theorem State.RingsOk.noteWait (h : s.RingsOk) {r} : (s.noteWait r).RingsOk := by
  unfold State.noteWait
  exact h.frame

theorem State.RingsOk.startReplace (h : s.RingsOk) {r} : (s.startReplace r).2.RingsOk := by
  unfold State.startReplace
  split
  · dsimp only
    exact h.updRegion.updWork
  · exact h.event.noteWait

theorem State.RingsOk.abandonMove (h : s.RingsOk) {r} : (s.abandonMove r).RingsOk := by
  unfold State.abandonMove
  dsimp only
  split <;> exact h.endStripes.updRegion.updWork

theorem State.RingsOk.recompute (h : s.RingsOk) {r} : (s.recompute r).RingsOk :=
  .ite h.regionLost (.ite h.updRegion.updWork.updWork.enqueue h.updRegion.updWork.updWork)

theorem State.RingsOk.setCrit (h : s.RingsOk) {r} : (s.setCrit r).RingsOk := h.updRegion

theorem State.RingsOk.backToQueue (h : s.RingsOk) {r} : (s.backToQueue r).RingsOk := h.frame.noteWait

theorem State.RingsOk.furtherLoss (h : s.RingsOk) {r} : (s.furtherLoss r).RingsOk := by
  refine .ite h.frame
    (.ite h.frame (.ite (.ite h.endStripes.updWork.startReplace.setCrit h.endStripes.updWork.startReplace.backToQueue) ?_))
  split
  · exact h.endStripes.updWork.updRegion.setCrit.updWork
  · exact h.endStripes.updWork.event.backToQueue

theorem State.RingsOk.replaceAgain (h : s.RingsOk) {r} : (s.replaceAgain r).RingsOk := by
  unfold State.replaceAgain
  dsimp only
  split
  · exact h.endStripes.updWork.updRegion.updWork
  · exact .ite h.endStripes.updWork.updRegion.event.backToQueue h.endStripes.updWork.updRegion.event.noteWait

theorem State.RingsOk.regionHit (h : s.RingsOk) {r port} : (s.regionHit r port).RingsOk := by
  unfold State.regionHit
  dsimp only
  split
  · exact h
  · exact h
  · exact .ite h h.recompute
  · exact .ite h h.recompute
  · exact .ite h h.recompute
  · exact .ite h.abandonMove.recompute (.ite h.replaceAgain h)
  · exact .ite (.ite h.regionLost (.ite (.ite h.setCrit.replaceAgain h.setCrit) h.setCrit.furtherLoss)) (.ite h.replaceAgain h)

theorem State.RingsOk.memberDone (h : s.RingsOk) : s.memberDone.RingsOk := h.over fun _ _ h => .ite h h.frame.event

theorem State.RingsOk.dropMembers (h : s.RingsOk) : s.dropMembers.RingsOk := h.frame

theorem State.RingsOk.writeLabels (h : s.RingsOk) {f} : (s.writeLabels f).RingsOk := by
  unfold State.writeLabels
  split
  · exact h
  · exact .ite h (h.frame.over fun _ _ h => h.frame)

theorem State.RingsOk.writeConfig (h : s.RingsOk) : s.writeConfig.RingsOk := .ite h (h.frame.over fun _ _ h => h.frame)

theorem State.RingsOk.metadataCheckpoint (h : s.RingsOk) : s.metadataCheckpoint.RingsOk := .ite h (.frame (h.over fun _ _ h => h.frame))

theorem State.RingsOk.metaAsk (h : s.RingsOk) {job port} : (s.metaAsk job port).RingsOk := by
  unfold State.metaAsk
  split
  · exact h
  · exact h.over fun _ _ h => h.askPort.frame

theorem State.RingsOk.metaDone (h : s.RingsOk) {job} : (s.metaDone job).RingsOk := by
  unfold State.metaDone
  split
  · exact h
  · dsimp only
    split
    · exact .pumpAll (h.frame.over fun _ _ h => h.finish)
    · exact h.frame
    · exact h.frame
    · exact h.frame

theorem State.RingsOk.metaCheck (h : s.RingsOk) {job} : (s.metaCheck job).RingsOk := by
  unfold State.metaCheck
  split
  · exact .ite h.metaDone h
  · exact h

theorem State.RingsOk.metaStart (h : s.RingsOk) {k} : (s.metaStart k).RingsOk := .metaCheck (h.frame.over fun _ _ h => h.metaAsk)

theorem State.RingsOk.bringLogs (h : s.RingsOk) : s.bringLogs.RingsOk :=
  State.RingsOk.over (h.frame.over fun _ _ h => h.frame.over fun _ _ h => h.metaAsk) fun _ _ h => h.event

theorem State.RingsOk.assignLogs (h : s.RingsOk) : s.assignLogs.RingsOk :=
  .ite h (.via (fun h => .writeLabels (.ite h h.metadataCheckpoint)) (h.bringLogs.over fun _ _ h => h.frame))

theorem State.RingsOk.memberTo (h : s.RingsOk) {port st} : (s.memberTo port st).RingsOk := by
  unfold State.memberTo
  split
  · exact h
  · exact .ite h (.via (fun h => .assignLogs (.ite h.alert h)) (.ite h.frame.noteChange.event.raisePfs h.frame.noteChange.event))

theorem State.RingsOk.absentAll (h : s.RingsOk) {port} : (s.absentAll port).RingsOk := h.frame.over fun _ _ h => .ite h h.frame

theorem State.RingsOk.assertPerst (h : s.RingsOk) {port} : (s.assertPerst port).RingsOk :=
  .via (fun h => .ite h h.frame) (.ite h.frame.event h.frame)

theorem State.RingsOk.failMember (h : s.RingsOk) {port cause removed} : (s.failMember port cause removed).RingsOk := by
  unfold State.failMember
  split
  · exact h
  · exact .ite h
      (.via (fun h =>
           .via (fun h =>
               .ite h (.spareCheck (.memberDone (.frame (h.foldlSnd fun _ _ h => h.regionHit)))))
             (.ite h.memberTo.later h.memberTo))
         h.absentAll.assertPerst.event)

theorem State.RingsOk.evacuationCheck (h : s.RingsOk) {port} : (s.evacuationCheck port).RingsOk := by
  unfold State.evacuationCheck
  split
  · exact h
  · exact .ite h.frame.event h

theorem State.RingsOk.copybackCheck (h : s.RingsOk) {port} : (s.copybackCheck port).RingsOk := by
  unfold State.copybackCheck
  split
  · exact h
  · exact .ite h.memberTo.event h

theorem State.RingsOk.memberChecks (h : s.RingsOk) : s.memberChecks.RingsOk :=
  .ite h (.dropMembers (.memberDone (h.over fun _ _ h => h.evacuationCheck.copybackCheck)))

theorem State.RingsOk.countMoved (h : s.RingsOk) {port n} : (s.countMoved port n).RingsOk := h.frame

theorem State.RingsOk.countEvacuated (h : s.RingsOk) {r} : (s.countEvacuated r).RingsOk := h.over fun _ _ h => h.frame

theorem State.RingsOk.countResumed (h : s.RingsOk) {r} : (s.countResumed r).RingsOk := by
  refine .ite h (h.over fun _ _ h => ?_)
  dsimp only
  split
  · exact .ite h.frame h
  · exact h

theorem State.RingsOk.regionDone (h : s.RingsOk) {r} : (s.regionDone r).RingsOk := by
  unfold State.regionDone
  dsimp only
  split
  · exact .spareCheck (.dropMembers (.memberDone (h.frame.countEvacuated.updRegion.setWork.over fun _ _ h => h.evacuationCheck)))
  · exact h.updRegion.setWork.countMoved.evacuationCheck.copybackCheck.dropMembers.spareCheck
  · exact .spareCheck
      (.dropMembers (.memberDone (h.frame.countResumed.updRegion.setWork.over fun _ _ h => h.evacuationCheck.copybackCheck)))

theorem State.RingsOk.stripeDone (h : s.RingsOk) {r stripe} : (s.stripeDone r stripe).RingsOk :=
  .via (fun h => .ite h.furtherLoss (.ite h.regionDone h)) (h.frame.updRegion.updWork.over fun _ _ h => h.endTask)

/-! ### The engine -/

theorem State.RingsOk.startFill (h : s.RingsOk) {acc vol lbas} : (s.startFill acc vol lbas).RingsOk := by
  unfold State.startFill
  split
  · refine h.over fun _ _ h => .via (fun h => h.newTask) (.foldlSndTo h fun b a c h hc => ?_)
    extract_lets at hc
    split at hc
    · next ht => exact hc ▸ (h.takeFrame ht)
    · exact hc ▸ h
  · exact h

theorem State.RingsOk.deliver (h : s.RingsOk) {x cells} : (s.deliver x cells).RingsOk := by
  refine h.over fun _ _ h => ?_
  split
  · exact h
  · refine .via (fun h => .later (.ite h h.startFill)) (h.over fun _ _ h => ?_)
    dsimp only
    split
    · exact h.frame
    · exact .ite h h.frame

theorem State.RingsOk.readCheck (h : s.RingsOk) {acc} : (s.readCheck acc).RingsOk := by
  unfold State.readCheck
  split
  · exact h
  · extract_lets read s₁ s₂
    have h₁ : s₁.RingsOk := .ite (h.over fun _ _ h => h.hostWrite) h
    have h₂ : s₂.RingsOk := h₁.unpin
    refine .ite h (.ite h ?_)
    split
    · exact h₂.finish
    · exact .finish (.ite h₂.frame.volEvent h₂)

theorem State.RingsOk.closeParison (h : s.RingsOk) {id} : (s.closeParison id).RingsOk := by
  unfold State.closeParison
  split
  · exact h
  · exact .unhold (.frame (h.over fun _ _ h => h.frame))

theorem State.RingsOk.writeCheck (h : s.RingsOk) {acc} : (s.writeCheck acc).RingsOk := by
  unfold State.writeCheck
  split
  · exact h
  · refine .ite h ?_
    split <;> exact h.finish

theorem State.RingsOk.coverDone (h : s.RingsOk) {vol l} : (s.coverDone vol l).RingsOk := h.over fun _ _ h => h.frame.writeCheck

theorem State.RingsOk.coverDropped (h : s.RingsOk) {vol lba g} : (s.coverDropped vol lba g).RingsOk :=
  h.over fun _ _ h => h.frame.writeCheck

theorem State.RingsOk.recoverFrame (h : s.RingsOk) {f x b} : (s.recoverFrame f x b).RingsOk := h.frame.volEvent

theorem State.RingsOk.blockLost (h : s.RingsOk) {f} : (s.blockLost f).RingsOk := by
  unfold State.blockLost
  split
  · exact h
  · extract_lets s₁ s₂ s₃ key s₄ s₅
    have h₂ : s₂.RingsOk := h.volEvent.addLoss
    have h₃ : s₃.RingsOk := .ite h₂ h₂.frame
    have h₄ : s₄.RingsOk := by
      unfold s₄
      split
      · exact h₃.closeParison
      · exact h₃
    have h₅ : s₅.RingsOk := h₄.freeFrame.coverDropped
    split
    · exact h₅.frame
    · exact h₅

theorem State.RingsOk.issueCells (h : s.RingsOk) {id cells} : (s.issueCells id cells).RingsOk := by
  unfold State.issueCells
  split
  · exact h
  · exact h.frame.over fun _ _ h => h.askCells

theorem State.RingsOk.planWant (h : s.RingsOk) {id} : (s.planWant id).RingsOk := by
  unfold State.planWant
  split
  · exact h
  · exact h.frame.issueCells.later

theorem State.RingsOk.writeEntry (h : s.RingsOk) {id} : (s.writeEntry id).RingsOk := by
  unfold State.writeEntry
  split
  · exact h
  · split
    · exact h
    · exact h.frame
    · exact h

theorem State.RingsOk.takeRoom (h : s.RingsOk) {id need} : (s.takeRoom id need).2.RingsOk := by
  unfold State.takeRoom
  split
  · exact h
  · dsimp only
    split <;> exact h.frame

theorem State.RingsOk.gatherStripe (h : s.RingsOk) {id} : (s.gatherStripe id).RingsOk := by
  unfold State.gatherStripe
  split <;> exact h.frame

theorem State.RingsOk.beginDestage (h : s.RingsOk) {id} : (s.beginDestage id).RingsOk := by
  unfold State.beginDestage
  split
  · exact h
  · refine .ite h.endTask ?_
    extract_lets dirty how m some_ segs par s₁ table s₂
    have h₁ : s₁.RingsOk := by
      unfold s₁
      clear_value par
      split
      · exact .ite h h.closeParison
      · exact h
    have h₂ : s₂.RingsOk := h₁.frame
    clear_value how s₂
    split
    next ok s₃ hs =>
      have h₃ : s₃.RingsOk := .ofSnd hs h₂.takeRoom
      refine .ite h₃ ?_
      extract_lets cells st seq _ s₄ s₅ s₆ s₇
      have h₇ : s₇.RingsOk := h₃.frame.writeEntry.over fun _ _ h => h.frame
      split
      · exact h₇.frame.issueCells.later
      · exact h₇.frame.issueCells.later
      · exact h₇.gatherStripe.planWant
      · exact h₇.frame

theorem State.RingsOk.restartDestage (h : s.RingsOk) {id} : (s.restartDestage id).RingsOk := by
  unfold State.restartDestage
  split
  · exact h
  · extract_lets s₁ s₂ s₃
    have h₁ : s₁.RingsOk := h.over fun _ _ h => h.frame.settleFrame
    have h₂ : s₂.RingsOk := h₁.frame.dropJobs.freeStaging
    have h₃ : s₃.RingsOk := by
      unfold s₃
      split
      · exact h₂.frame
      · exact h₂
    exact h₃.frame.beginDestage

theorem State.RingsOk.fullLost (h : s.RingsOk) {id pos} : (s.fullLost id pos).RingsOk := h.frame.writeEntry

theorem State.RingsOk.dropRecords (h : s.RingsOk) {id} : (s.dropRecords id).RingsOk := by
  unfold State.dropRecords
  split
  · exact h
  · exact h.queueRetire.frame.updTask

theorem State.RingsOk.toFull (h : s.RingsOk) {id pos} : (s.toFull id pos).RingsOk := by
  unfold State.toFull
  split
  · exact h
  · exact .ite h.frame.freeStaging.takeRoom h.frame.freeStaging.takeRoom.updTask.writeEntry.gatherStripe.planWant

theorem State.RingsOk.exitMarked (h : s.RingsOk) {id island exit f} : (s.exitMarked id island exit f).RingsOk := h.markedExit.later

theorem State.RingsOk.issueWrites (h : s.RingsOk) {id} : (s.issueWrites id).RingsOk := by
  unfold State.issueWrites
  split
  · exact h
  · split
    · exact h.exitMarked
    · exact .later (h.frame.over fun _ _ h => h.over fun _ _ h => h.askCells)

theorem State.RingsOk.readyToWrite (h : s.RingsOk) {id} : (s.readyToWrite id).RingsOk := by
  unfold State.readyToWrite
  split
  · exact h
  · extract_lets m staged s₁
    have h₁ : s₁.RingsOk := by
      unfold s₁
      split <;> exact h.frame
    split
    · exact h₁.exitMarked
    · exact .via (fun h => .ite h.spend.updTask.appendRecs h.issueWrites) (.ite h₁.appendRecs h₁)

theorem State.RingsOk.beginRepair (h : s.RingsOk) {id} : (s.beginRepair id).RingsOk := by
  unfold State.beginRepair
  split
  · exact h
  · exact .ite h.endTask (.ite h.frame.takeRoom h.frame.takeRoom.frame.updTask.writeEntry.readyToWrite)

theorem State.RingsOk.startRepairs (h : s.RingsOk) {x} : (s.startRepairs x).RingsOk := h.over fun _ _ h => .ite h h.newTask

theorem State.RingsOk.haltStripe (h : s.RingsOk) {id} : (s.haltStripe id).RingsOk := by
  unfold State.haltStripe
  split
  · exact h
  · exact .ite h.event.updWork.endTask.furtherLoss h.event.updWork.endTask

theorem State.RingsOk.startResolve (h : s.RingsOk) {id} : (s.startResolve id).RingsOk := by
  unfold State.startResolve
  split
  · exact h
  · split
    · exact h.endTask
    · exact h.frame.issueCells.later

theorem State.RingsOk.startScrub (h : s.RingsOk) {id} : (s.startScrub id).RingsOk := by
  unfold State.startScrub
  split
  · exact h
  · exact h.frame.issueCells.later

theorem State.RingsOk.startCopy' (h : s.RingsOk) {id} : (s.startCopy' id).RingsOk := by
  unfold State.startCopy'
  split
  · exact h
  · exact h.frame.planWant

theorem State.RingsOk.startRedestage (h : s.RingsOk) {id} : (s.startRedestage id).RingsOk := by
  unfold State.startRedestage
  split
  · exact h
  · refine .via (fun h => h.updTask.planWant) ?_
    split
    · exact .ite h.frame h.frame.closeParison
    · exact h.frame

theorem State.RingsOk.startTask (h : s.RingsOk) {id} : (s.startTask id).RingsOk := by
  unfold State.startTask
  split
  · exact h
  · split
    · exact h.planWant
    · exact h.planWant
    · exact h.planWant
    · exact h.beginDestage
    · exact h.startRedestage
    · exact h.beginRepair
    · exact h.startCopy'
    · exact h.startCopy'
    · exact h.startScrub
    · exact h.startResolve
    · exact h.issueWrites

end

end Sys2Proof.Machine
end

section
/-! PROOFS. The rings' pointers while a command settles. -/

namespace Sys2Proof.Machine

open Sys2Proof

section

variable {s t u v : State}

/-! ### Settling -/

theorem State.RingsOk.regather (h : s.RingsOk) {id} : (s.regather id).RingsOk := h.frame.gatherStripe.planWant

theorem State.RingsOk.nextOp (h : s.RingsOk) {id x o rest} : (s.nextOp id x o rest).RingsOk :=
  .ite h.regather (.ite h.frame (.ite h.frame h.frame.pinAll.sendJob))

theorem State.RingsOk.opDone (h : s.RingsOk) {id} : (s.opDone id).RingsOk := by
  unfold State.opDone
  split
  · exact h
  · split
    · exact h
    · refine .via (fun h => h.updTask.later) ?_
      split
      · exact h.wordBad.setTile
      · exact h

theorem State.RingsOk.requestUpgrade (h : s.RingsOk) {id} : (s.requestUpgrade id).RingsOk := by
  unfold State.requestUpgrade
  split
  · exact h
  · dsimp only
    split
    · exact .ite h h.frame.endTask
    · exact h.frame.grantLock

theorem State.RingsOk.lateOver (h : s.RingsOk) {id} : (s.lateOver id).RingsOk := by
  unfold State.lateOver
  split
  · exact h
  · exact .ite h (.ite h.endTask h.requestUpgrade)

theorem State.RingsOk.holdEnds (h : s.RingsOk) {id} : (s.holdEnds id).RingsOk := by
  unfold State.holdEnds
  split
  · exact h
  · exact .ite h.frame h.frame.requestUpgrade

theorem State.RingsOk.lateAgain (h : s.RingsOk) {id x r} : (s.lateAgain id x r).RingsOk := .ite h h.askPort.updTask

theorem State.RingsOk.lateEnded (h : s.RingsOk) {id port req pos r res} : (s.lateEnded id port req pos r res).RingsOk := by
  unfold State.lateEnded
  split
  · exact h
  · refine .via (fun h => h.lateOver) (.ite h.frame.lateAgain ?_)
    split
    · exact .ite h.frame.startRepairs (.ite h.frame (.ite h.frame h.frame.takeFrames.updTask))
    · exact h.frame.startRepairs
    · exact h.frame

theorem State.RingsOk.leave (h : s.RingsOk) {id} : (s.leave id).RingsOk := by
  unfold State.leave
  split
  · exact h
  · exact .ite h.endTask h.frame.lateOver

theorem State.RingsOk.noteTakers (h : s.RingsOk) {id x cells} : (s.noteTakers id x cells).RingsOk := h.frame

theorem State.RingsOk.fillOver (h : s.RingsOk) {id x} : (s.fillOver id x).RingsOk :=
  .leave (.updTask (.startRepairs (.deliver (h.frame.over fun _ _ h => h.fillDone))))

theorem State.RingsOk.unitOver (h : s.RingsOk) {id x} : (s.unitOver id x).RingsOk :=
  .leave (.updTask (.startRepairs (.deliver (.frame (.noteTakers (h.over fun _ _ h => h.fillDone))))))

theorem State.RingsOk.memberReadLost (h : s.RingsOk) {id pos segs back} : (s.memberReadLost id pos segs back).RingsOk := by
  unfold State.memberReadLost
  split
  · exact h
  · dsimp only
    split
    · exact h.frame.planWant
    · exact h.frame.planWant
    · exact h.endTask
    · exact .ite h.fullLost.planWant h.toFull
    · exact h.frame.planWant
    · exact h.frame.planWant
    · exact h.frame.planWant
    · exact h.frame
    · exact h.frame
    · exact h
    · exact h

theorem State.RingsOk.abandonHedge (h : s.RingsOk) {id parent req} : (s.abandonHedge id parent req).RingsOk := by
  unfold State.abandonHedge
  dsimp only
  split
  · exact h.endTask
  · split
    · exact h.endTask.updTask.memberReadLost
    · exact h.endTask

theorem State.RingsOk.hedgeOver (h : s.RingsOk) {id parent req pos x} : (s.hedgeOver id parent req pos x).RingsOk := by
  refine .ite h.abandonHedge ?_
  dsimp only
  split
  · exact h.endTask
  · exact .ite h.endTask h.endTask.frame.updTask.later

theorem State.RingsOk.endWrite (h : s.RingsOk) {id x} : (s.endWrite id x).RingsOk := by
  unfold State.endWrite
  dsimp only
  split
  · exact h.endTask.closeParison
  · exact h.endTask

theorem State.RingsOk.retireWith (h : s.RingsOk) {id x items} : (s.retireWith id x items).RingsOk :=
  .ite h.queueRetire.updTask h.queueRetire.endWrite

theorem State.RingsOk.retireTask (h : s.RingsOk) {id x} : (s.retireTask id x).RingsOk := h.retireWith

theorem State.RingsOk.zeroLoss (h : s.RingsOk) {x cause} : (s.zeroLoss x cause).RingsOk :=
  .ite h (.ite (h.addLoss.over fun _ _ h => h.event) h.addLoss.event)

theorem State.RingsOk.destageOver (h : s.RingsOk) {id x} : (s.destageOver id x).RingsOk :=
  .via (fun h => .coverDone (.retireWith (.ite h.zeroLoss.updWork h.zeroLoss))) (h.over fun _ _ h => h.frame.settleFrame)

theorem State.RingsOk.freeRestored (h : s.RingsOk) {of} : (s.freeRestored of).RingsOk := h.over fun _ _ h => h.frame.settleFrame

theorem State.RingsOk.checkMarked (h : s.RingsOk) {marked} : (s.checkMarked marked).2.2.RingsOk := by
  refine .via (fun h => h.frame) (State.RingsOk.over (h.over fun _ _ h => h.updRegion) fun _ _ h => ?_)
  split
  · exact h.addLoss
  · exact h

theorem State.RingsOk.checksWithoutDump (h : s.RingsOk) : s.checksWithoutDump.RingsOk := h.checkMarked.event

theorem State.RingsOk.startProgress (h : s.RingsOk) : s.startProgress.RingsOk := by
  refine .ite h
    (.via (fun h =>
         .ite (.demand (.freeRestored (.ite h.frame.event h.frame))) h)
       (.ite (State.RingsOk.over (.ite h.frame.event h.frame.event.checksWithoutDump) fun _ _ h => ?_) h))
  split
  · exact h.requestLock
  · exact h

theorem State.RingsOk.redestageOver (h : s.RingsOk) {id x records} : (s.redestageOver id x records).RingsOk :=
  .via (fun h =>
      .via (fun h => .startProgress (.coverDone (.endWrite (.queueRetire (.ite h.zeroLoss h.zeroLoss.frame)))))
        (.ite h h.freeRestored))
    (h.over fun _ _ h => h.frame)

theorem State.RingsOk.zeroOver (h : s.RingsOk) {id acc} : (s.zeroOver id acc).RingsOk := by
  unfold State.zeroOver
  dsimp only
  split
  · exact h.endTask
  · exact .ite h.endTask.updCmd.frame.noteVolume.volEvent.finishLogged h.endTask.updCmd

theorem State.RingsOk.volumesAttached (h : s.RingsOk) : s.volumesAttached.RingsOk := by
  refine h.over fun _ _ h => ?_
  split
  · exact h.volEvent
  · exact h

theorem State.RingsOk.importProgress (h : s.RingsOk) : s.importProgress.RingsOk := by
  unfold State.importProgress
  split
  · exact h
  · extract_lets low _ _ s₁ s₂
    have h₁ : s₁.RingsOk := h.frame
    exact .ite h h₁.writeLabels.volumesAttached.event.finish

theorem State.RingsOk.scrubOver (h : s.RingsOk) {id x check} : (s.scrubOver id x check).RingsOk := by
  unfold State.scrubOver
  extract_lets s₁ left s₂ s₃ _ s₄ t
  have h₁ : s₁.RingsOk := h.retireTask
  have h₄ : s₄.RingsOk := h₁.updRegion.updWork.frame
  exact .ite (.ite h₄.frame.importProgress.startProgress h₄.importProgress.startProgress) h₁

theorem State.RingsOk.noteSuspects (h : s.RingsOk) {vol e rows} : (s.noteSuspects vol e rows).RingsOk :=
  h.over fun _ _ h => h.frame

theorem State.RingsOk.suspectCheck (h : s.RingsOk) : s.suspectCheck.RingsOk := by
  refine h.over fun s e h => .volEvent ?_
  exact h.frame

theorem State.RingsOk.resolveOver (h : s.RingsOk) {id x} : (s.resolveOver id x).RingsOk := by
  unfold State.resolveOver
  split
  · exact h.endTask
  · refine .via (fun h =>
        .ite h.queueRetire.endTask (.via (fun h => h.freeStaging.updTask.startResolve) ?_))
      (h.over fun _ _ h => h.noteSuspects.freeAll)
    split
    · exact h.queueRetire.frame
    · exact h.queueRetire

theorem State.RingsOk.destageComputed (h : s.RingsOk) {id x} : (s.destageComputed id x).RingsOk := by
  refine .ite h.frame.readyToWrite ?_
  split
  · exact h.frame.readyToWrite
  · exact h.frame.readyToWrite
  · exact h.frame
  · exact h.frame
  · exact h.frame
  · exact .ite h.regather h.frame

theorem State.RingsOk.redestageComputed (h : s.RingsOk) {id x} : (s.redestageComputed id x).RingsOk :=
  .ite h.frame.issueWrites (.ite h.frame.issueWrites h.frame)

theorem State.RingsOk.scrubComputed (h : s.RingsOk) {id x report check'} : (s.scrubComputed id x report check').RingsOk := by
  refine .ite h.frame
    (.ite h.frame
       (.via (fun h =>
            .ite h.scrubOver h.frame.beginRepair)
          (h.over fun _ _ h => .via (fun h => .ite ?_ h.event) (.ite h.frame h.frame))))
  dsimp only
  split
  · exact h.event.addLoss
  · exact h.event

theorem State.RingsOk.resolveComputed (h : s.RingsOk) {id x} : (s.resolveComputed id x).RingsOk := by
  unfold State.resolveComputed
  split
  · exact h.endTask
  · exact .ite h.frame (.via (fun h => .ite h.frame.resolveOver h.frame.beginRepair) (.ite h.updRegion h))

theorem State.RingsOk.computed (h : s.RingsOk) {id x} : (s.computed id x).RingsOk := by
  unfold State.computed
  split
  · exact h.fillOver
  · exact h.unitOver
  · exact h.hedgeOver
  · exact h.destageComputed
  · exact h.redestageComputed
  · exact h
  · exact .ite h.haltStripe h.frame.issueWrites
  · exact .ite h.haltStripe h.frame.issueWrites
  · exact h.scrubComputed
  · exact h.resolveComputed
  · exact h

theorem State.RingsOk.written (h : s.RingsOk) {id x} : (s.written id x).RingsOk := by
  unfold State.written
  split
  · exact h.destageOver
  · exact h.redestageOver
  · exact .ite h.retireTask h.frame.event.retireTask
  · exact h.startRepairs.stripeDone
  · exact h.startRepairs.stripeDone
  · exact h.scrubOver
  · exact h.resolveOver
  · exact h.zeroOver
  · exact h
  · exact h
  · exact h

theorem State.RingsOk.advance (h : s.RingsOk) {id} : (s.advance id).RingsOk := by
  unfold State.advance
  split
  · exact h
  · refine .ite (.ite h h.dropRecords.restartDestage) ?_
    split
    · refine .ite h ?_
      split
      · exact h.nextOp
      · exact h.computed
    · exact .ite h.frame.writeEntry.written h.frame.writeEntry
    · exact h

theorem State.RingsOk.endHedges (h : s.RingsOk) {parent req} : (s.endHedges parent req).RingsOk := h.over fun _ _ h => h.endTask

theorem State.RingsOk.readFailed (h : s.RingsOk) {id req x r back} : (s.readFailed id req x r back).RingsOk := by
  unfold State.readFailed
  split
  · exact h.abandonHedge
  · exact .ite h.frame h.frame.memberReadLost

theorem State.RingsOk.readEnded (h : s.RingsOk) {id x port req r res} : (s.readEnded id x port req r res).RingsOk := by
  refine .ite (.ite h.readFailed h.frame.endHedges.issueCells) ?_
  split
  · exact .ite (.ite h.readFailed h.frame.reissue) h.frame.endHedges.updTask.later
  · exact h.readFailed
  · exact h.readFailed

theorem State.RingsOk.writeEnded (h : s.RingsOk) {id x port req r res} : (s.writeEnded id x port req r res).RingsOk := by
  refine .ite (.ite h.frame (.later (h.frame.over fun _ _ h => h.askCells))) ?_
  split
  · exact h.frame
  · split
    · refine .ite h.frame (.via (fun h => h.later.later) ?_)
      split
      · exact h.frame
      · exact h.frame
      · exact h.frame.event
    · exact h.frame
  · refine .ite (.via (fun h => h.later.later) ?_) h.frame.reissue.later
    split
    · exact h.frame
    · exact h.frame
    · exact h.frame.event

theorem State.RingsOk.metaEnded (h : s.RingsOk) {port req r res} : (s.metaEnded port req r res).RingsOk := by
  refine .ite h ?_
  split
  · exact h.frame.metaCheck
  · exact h.failMember.frame.metaCheck
  · exact .ite h.failMember.frame.metaCheck h.askPort.frame

theorem State.RingsOk.reqDone (h : s.RingsOk) {port req r res} : (s.reqDone port req r res).RingsOk := by
  unfold State.reqDone
  extract_lets s₁
  have h₁ : s₁.RingsOk := by
    unfold s₁
    split
    · exact h.countRebuildBytes
    · exact h
  refine .ite h.metaEnded ?_
  split
  · exact h₁
  · exact .ite h₁.writeEnded (.ite h₁.lateEnded (.ite h₁.readEnded h₁))

theorem State.RingsOk.dropFrom (h : s.RingsOk) {f} : (s.dropFrom f).RingsOk := by
  refine h.over fun _ _ h => ?_
  dsimp only
  split
  · exact h.frame.restartDestage
  · exact h.frame.restartDestage
  · exact h.frame.restartDestage
  · exact h.frame.dropRecords.restartDestage
  · exact h.frame

theorem State.RingsOk.dropBlock (h : s.RingsOk) {f} : (s.dropBlock f).RingsOk := h.blockLost.dropFrom

theorem State.RingsOk.planAgain (h : s.RingsOk) {id} : (s.planAgain id).RingsOk := h.frame.planWant

theorem State.RingsOk.redestageAgain (h : s.RingsOk) {id} : (s.redestageAgain id).RingsOk := h.frame.startRedestage

theorem State.RingsOk.badFrame (h : s.RingsOk) {id f} : (s.badFrame id f).RingsOk := by
  unfold State.badFrame
  split
  · exact h.frame
  · split
    · exact h.recoverFrame.updTask.later
    · dsimp only
      split
      · split
        · exact h.frame.dropBlock.redestageAgain
        · exact h.frame.dropBlock
      · exact h.frame.dropBlock

theorem State.RingsOk.badClean (h : s.RingsOk) {id f} : (s.badClean id f).RingsOk := h.rebuilt.supersede.regather

theorem State.RingsOk.inputLost (h : s.RingsOk) {id x o rest p} : (s.inputLost id x o rest p).RingsOk := by
  unfold State.inputLost
  dsimp only
  split
  · exact h.frame
  · exact h.frame
  · split
    · exact .ite h.frame.fullLost.planAgain h.frame.toFull
    · exact h.frame.redestageAgain
    · exact h.frame.abandonHedge
    · exact h.frame
    · exact h.frame.planWant

theorem State.RingsOk.jobFailed (h : s.RingsOk) {id tile input seg} : (s.jobFailed id tile input seg).RingsOk := by
  unfold State.jobFailed
  split
  · exact h
  · split
    · exact h
    · refine .ite h.frame ?_
      dsimp only
      split
      · exact .ite h.event.badClean h.event.badFrame
      · exact h.event.inputLost

theorem State.RingsOk.markedWrite (h : s.RingsOk) {id f} : (s.markedWrite id f).RingsOk := by
  unfold State.markedWrite
  split
  · split
    · exact .ite h.recoverFrame.updTask.issueWrites h.recoverFrame.updTask.readyToWrite
    · exact h.badFrame
  · exact h

theorem State.RingsOk.follow (h : s.RingsOk) {x} : (s.follow x).RingsOk := by
  unfold State.follow
  split
  · exact h.startTask
  · exact h.reqDone
  · exact h.advance
  · exact h.failMember
  · exact h.readCheck
  · exact h.markedWrite

theorem State.RingsOk.settleLoop (h : s.RingsOk) {n} : (s.settleLoop n).RingsOk := by
  induction n generalizing s with
  | zero => exact h
  | succ n ih =>
    rw [State.settleLoop]
    split
    · exact h
    · exact ih h.frame.follow

theorem State.RingsOk.settle (h : s.RingsOk) : s.settle.RingsOk := h.settleLoop

end

end Sys2Proof.Machine
end

section
/-! PROOFS. The rings' pointers on the write path, and the actions that end in a next state. -/

namespace Sys2Proof.Machine

open Sys2Proof

section

variable {s t u v : State}

/-! ### The write path -/

theorem State.RingsOk.roomInSpill (h : s.RingsOk) {k n} : (s.roomInSpill k n).RingsOk := by
  induction k generalizing s with
  | zero => exact h
  | succ k ih =>
    rw [State.roomInSpill]
    refine .ite h ?_
    split
    · exact ih h.closeParison
    · exact h

theorem State.RingsOk.roomInSram (h : s.RingsOk) {k n} : (s.roomInSram k n).RingsOk := by
  induction k generalizing s with
  | zero => exact h
  | succ k ih =>
    rw [State.roomInSram]
    refine .ite h ?_
    split
    · exact ih h.roomInSpill.frame
    · exact h

theorem State.RingsOk.openParison (h : s.RingsOk) {vol r k} : (s.openParison vol r k).RingsOk := by
  unfold State.openParison
  extract_lets +onlyGivenNames m
  refine .ite h ?_
  split
  · exact h
  · extract_lets s₁ id
    have h₁ : s₁.RingsOk := h.roomInSram
    exact h₁.frame

theorem State.RingsOk.homeFor (h : s.RingsOk) {n home} : (s.homeFor n home).2.RingsOk := by
  induction n generalizing s home with
  | zero => exact h
  | succ n ih =>
    rw [State.homeFor]
    split
    · exact h
    · dsimp only
      split
      · exact ih h.frame
      · exact h.frame

theorem State.RingsOk.takeHome (h : s.RingsOk) {id home} : (s.takeHome id home).2.RingsOk := by
  unfold State.takeHome
  split
  next hs => exact .frame (.ofSnd hs h.homeFor)

theorem State.RingsOk.absorbIssue (h : s.RingsOk) {id} : (s.absorbIssue id).RingsOk := by
  unfold State.absorbIssue
  split
  · exact h
  · split
    · exact .ite h (.ite h.frame h.frame.takeHome.frame.pinAll.sendJob)
    · exact h

theorem State.RingsOk.absorbEnd (h : s.RingsOk) {id f old} : (s.absorbEnd id f old).RingsOk := by
  unfold State.absorbEnd
  extract_lets s₁ s₂
  have h₂ : s₂.RingsOk := h.frame
  split
  · exact h₂.unhold
  · exact h₂

theorem State.RingsOk.absorbNext (h : s.RingsOk) {n id} : (s.absorbNext n id).RingsOk := by
  induction n generalizing s with
  | zero => exact h
  | succ n ih =>
    rw [State.absorbNext]
    split
    · exact h
    · split
      · exact h
      · extract_lets m begin_
        have hbegin : ∀ s f old pos, s.RingsOk → (begin_ s f old pos).RingsOk := fun s f old pos h =>
          .ite (ih h.frame.absorbEnd) h.frame.absorbIssue
        clear_value begin_
        refine .ite h ?_
        split
        · extract_lets s₁
          have h₁ : s₁.RingsOk := h.frame
          split
          · exact hbegin _ _ _ _ h₁
          · exact ih h₁.unhold
        · refine .ite h (.ite (ih h.frame) ?_)
          split
          · exact .ite h (hbegin _ _ _ _ h)
          · exact h

theorem State.RingsOk.absorbStripe (h : s.RingsOk) {vol r k} : (s.absorbStripe vol r k).RingsOk := by
  unfold State.absorbStripe
  split
  · exact h
  · exact h.absorbNext

theorem State.RingsOk.absorbAdd (h : s.RingsOk) {j id f old outs words} : (s.absorbAdd j id f old outs words).RingsOk := by
  unfold State.absorbAdd
  split
  · refine .ite h ?_
    split
    · exact h
    · dsimp only
      split
      · exact h.frame.absorbEnd
      · exact h.frame
  · exact h

theorem State.RingsOk.absorbed (h : s.RingsOk) {j id f old outs words} : (s.absorbed j id f old outs words).RingsOk := by
  unfold State.absorbed
  dsimp only
  split
  · exact h.absorbAdd
  · exact .ite h.absorbAdd.absorbStripe h.absorbAdd.absorbIssue

theorem State.RingsOk.absorbFailed (h : s.RingsOk) {tile id} : (s.absorbFailed tile id).RingsOk := by
  unfold State.absorbFailed
  split
  · exact h.event.closeParison
  · exact h

theorem State.RingsOk.urgentCheck (h : s.RingsOk) : s.urgentCheck.RingsOk :=
  .via (fun h => .ite h.frame.event (.ite h.frame h)) (.ite h.frame h)

theorem State.RingsOk.stallNote (h : s.RingsOk) : s.stallNote.RingsOk :=
  .via (fun h => .ite (.ite h h.frame) (.ite h h.frame)) (State.RingsOk.over (h.over fun _ _ h => h.frame) fun _ _ h => h.frame)

theorem State.RingsOk.permEvent (h : s.RingsOk) : s.permEvent.RingsOk := h.event

theorem State.RingsOk.journalInFlight (h : s.RingsOk) : s.journalInFlight.RingsOk := by
  refine h.over fun _ _ h => ?_
  split
  · exact h
  · exact .ite h.frame.appendRecs h.frame

theorem State.RingsOk.enterJournaled (h : s.RingsOk) : s.enterJournaled.RingsOk :=
  .urgentCheck (.journalInFlight (.ite h.frame.permEvent.event h.frame.permEvent))

theorem State.RingsOk.permissionCheck (h : s.RingsOk) : s.permissionCheck.RingsOk := by
  unfold State.permissionCheck
  dsimp only
  split
  · exact .ite (.ite h.frame.permEvent.urgentCheck h.enterJournaled) h
  · exact .ite h.enterJournaled (.ite h.frame.urgentCheck h)
  · exact h

theorem State.RingsOk.permissionFull (h : s.RingsOk) : s.permissionFull.RingsOk := by
  unfold State.permissionFull
  split
  · exact h
  · exact .ite h h.frame.permEvent.urgentCheck

theorem State.RingsOk.limitApplied (h : s.RingsOk) : s.limitApplied.RingsOk := .ite h.permissionCheck.urgentCheck h.frame.urgentCheck

theorem State.RingsOk.reserveCheck (h : s.RingsOk) {oldKept} : (s.reserveCheck oldKept).RingsOk := by
  unfold State.reserveCheck
  extract_lets kept new lowered holds _ s₁ s₂ s₃ s₄
  have h₃ : s₃.RingsOk := h.frame.event.raisePfs.limitApplied
  exact .ite h (.ite h (.ite (.ite h₃.frame h₃.frame.enterJournaled) h₃))

theorem State.RingsOk.replaceBy (h : s.RingsOk) {f vol lba r k} : (s.replaceBy f vol lba r k).RingsOk := by
  unfold State.replaceBy
  split
  · exact h
  · split
    · exact .ite h.frame.holdAll.updFrame.supersede h.supersede
    · exact h.supersede

theorem State.RingsOk.installFrame (h : s.RingsOk) {vol v' gen f} : (s.installFrame vol v' gen f).RingsOk := by
  unfold State.installFrame
  split
  · exact h
  · exact h.replaceBy.frame.updFrame.chainIn

theorem State.RingsOk.askBits (h : s.RingsOk) {rs} : (s.askBits rs).RingsOk := .ite h h.metaStart

theorem State.RingsOk.install (h : s.RingsOk) {vol fs} : (s.install vol fs).2.RingsOk := by
  unfold State.install
  split
  · exact h
  · exact .frame
      (State.RingsOk.over
         (State.RingsOk.over (h.frame.over fun _ _ h => h.installFrame) fun _ _ h => h.openParison)
         (fun _ _ h => h.absorbStripe))

theorem State.RingsOk.commit (h : s.RingsOk) {acc} : (s.commit acc).RingsOk := by
  unfold State.commit
  split
  · exact h
  · split
    · exact h
    · exact .via (fun h => .writeCheck (.ite h.frame h)) (.ite h.install.updCmd.appendRecs h.install.updCmd)

theorem State.RingsOk.tryCommit (h : s.RingsOk) {acc} : (s.tryCommit acc).RingsOk := by
  unfold State.tryCommit
  split
  · exact h
  · exact .ite (.ite h.askBits.commit h.askBits) h

theorem State.RingsOk.startDestage (h : s.RingsOk) {d fg} : (s.startDestage d fg).RingsOk := .newTask (.ite h h.frame)

theorem State.RingsOk.destageNext (h : s.RingsOk) : s.destageNext.RingsOk := by
  refine .ite h ?_
  dsimp only
  split
  · exact h.startDestage
  · split
    · exact h
    · exact .ite h.startDestage h

theorem State.RingsOk.issueUnit (h : s.RingsOk) {id vol first} : (s.issueUnit id vol first).RingsOk := by
  unfold State.issueUnit
  split
  · exact h
  · refine .via (fun h => .ite h.freeAll h.newTask) (.foldlSndTo h fun b a c h hc => ?_)
    extract_lets at hc
    split at hc
    · next ht => exact hc ▸ (h.takeFrame ht)
    · exact hc ▸ h

theorem State.RingsOk.feedStream (h : s.RingsOk) {id} : (s.feedStream id).RingsOk := by
  unfold State.feedStream
  split
  · exact h
  · refine .ite h ?_
    split
    next hs => exact .frame (.ofSnd hs (h.foldlSnd fun _ _ h => .iteSnd h.issueUnit h))

theorem State.RingsOk.cancelUnits (h : s.RingsOk) {id} : (s.cancelUnits id).RingsOk := h.over fun _ _ h => h.endTask.frame.deliver

theorem State.RingsOk.noteStream (h : s.RingsOk) {vol lba n} : (s.noteStream vol lba n).RingsOk := by
  unfold State.noteStream
  dsimp only
  split
  · exact h.frame.feedStream
  · exact .frame (.ite h.cancelUnits h)

theorem State.RingsOk.dropStream (h : s.RingsOk) {id} : (s.dropStream id).RingsOk := h.cancelUnits.frame

theorem State.RingsOk.dropStreams (h : s.RingsOk) {vol} : (s.dropStreams vol).RingsOk := h.over fun _ _ h => h.dropStream

theorem State.RingsOk.orphanUnits (h : s.RingsOk) : s.orphanUnits.RingsOk := h.over fun _ _ h => h.cancelUnits

/-- The definition is unfolded as a function: unfolded at its arguments, it would have the kernel evaluate the search for a frame. -/
theorem State.RingsOk.moveFrame (h : s.RingsOk) {f x} : (s.moveFrame f x).RingsOk := by
  have hdef : State.moveFrame = State.moveFrame := rfl
  conv at hdef => rhs; delta State.moveFrame
  rw [hdef]
  beta_reduce
  split
  · exact h
  · next ht => exact (h.takeFrameBut ht).freeFrame.chainIn

theorem State.RingsOk.emptyChannel (h : s.RingsOk) {c} : (s.emptyChannel c).RingsOk :=
  h.moveShare.over fun _ _ h => .ite h (.ite h.freeFrame h.moveFrame)

theorem State.RingsOk.selfTestEnds (h : s.RingsOk) {status} : (s.selfTestEnds status).RingsOk := .ite h h.frame.event.raisePfs

theorem State.RingsOk.updTest (h : s.RingsOk) {f} : (s.updTest f).RingsOk := h.frame

theorem State.RingsOk.unitTested (h : s.RingsOk) {i} : (s.unitTested i).RingsOk := h.frame

theorem State.RingsOk.rangeStep (h : s.RingsOk) : s.rangeStep.RingsOk := by
  unfold State.rangeStep
  split
  · exact h
  · exact h.frame
  · exact .via (fun h => .ite h h.frame) (h.over fun _ _ h => .ite h (.ite h.freeFrame h.moveFrame))

theorem State.RingsOk.testReads (h : s.RingsOk) {n} : (testReads n s).RingsOk := by
  delta Sys2Proof.Machine.testReads
  refine State.RingsOk.brecOn (fun _ _ h => h) (fun n b ih s h => ?_) n s h
  have turn : ∀ p,
      (testReads._f (n + 1) b { s with mgmt := { s.mgmt with selfTest := { s.mgmt.selfTest with ckpt := p } } }).RingsOk := by
    intro p
    match p with
    | none => exact h.frame
    | some (_, []) => exact h.frame
    | some (_, a :: l) =>
      refine .ite h.frame ?_
      split
      exact ih _ (.issueOp (.charge (.updTest (.frame h))))
  exact State.with_ckpt s ▸ turn s.mgmt.selfTest.ckpt

theorem State.RingsOk.testCheckpoint (h : s.RingsOk) : s.testCheckpoint.RingsOk := by
  unfold State.testCheckpoint
  dsimp only
  split
  · exact h
  · refine .ite h ?_
    split
    · exact .ite h.frame (.ite h.testReads (.ite h (.ite h.frame h.frame.selfTestEnds)))
    · exact h.frame.testReads

theorem State.RingsOk.testStep (h : s.RingsOk) : s.testStep.RingsOk := .ite h h.frame.rangeStep.testCheckpoint

theorem State.RingsOk.lateEpochs (h : s.RingsOk) : s.lateEpochs.RingsOk :=
  .ite h (h.over fun _ _ h => .ite h (.ite h.frame.sbCleared h.frame))

theorem State.RingsOk.testTile (h : s.RingsOk) {t'} : (s.testTile t').RingsOk := h.over fun _ _ h => h.frame

theorem State.RingsOk.nextDrain (h : s.RingsOk) : s.nextDrain.RingsOk := by
  refine .ite h ?_
  split <;> exact h.frame

theorem State.RingsOk.drainCheck (h : s.RingsOk) : s.drainCheck.RingsOk :=
  .ite h
    (h.nextDrain.over
       (fun _ _ h => .via (fun h => .ite h (.ite h.islandDown.mapOut (.ite h.islandDown h.islandDown.testTile))) (.ite h.emptyChannel h)))

theorem State.RingsOk.freeVolume (h : s.RingsOk) {v' x} : (s.freeVolume v' x).RingsOk :=
  .via (fun h =>
      .via (fun h => .frame (.ite h.volEvent h.volEvent.noteChange)) (.ite h.frame h.frame.logEntries.frame))
    (State.RingsOk.over
       (.retireNow (.queueRetire (State.RingsOk.over (.freeAll (.dropStreams (h.over fun _ _ h => h.endTask))) fun _ _ h => h.closeParison)))
       (fun _ _ h => h.frame.updRegion))

theorem State.RingsOk.deleteCheck (h : s.RingsOk) : s.deleteCheck.RingsOk := by
  refine h.over fun _ _ h => .via (fun h => .ite h h.finish) ?_
  split
  · exact .ite h.freeVolume h
  · exact h

theorem State.RingsOk.spareChecks (h : s.RingsOk) : s.spareChecks.RingsOk := .ite h (h.over fun _ _ h => h.spareCheck)

theorem State.RingsOk.pinRetry (h : s.RingsOk) : s.pinRetry.RingsOk :=
  State.RingsOk.over (h.over fun _ _ h => h.frame) fun _ _ h => h.absorbIssue

theorem State.RingsOk.dumpDone (h : s.RingsOk) : s.dumpDone.RingsOk := .ite h.releaseDump h

theorem State.RingsOk.noteActivity (h : s.RingsOk) : s.noteActivity.RingsOk := .ite h.frame h.frame.metaStart

theorem State.RingsOk.starveNote (h : s.RingsOk) : s.starveNote.RingsOk := h.frame

theorem State.RingsOk.slotWatch (h : s.RingsOk) : s.slotWatch.RingsOk := h.over fun _ _ h => .ite h.frame h.frame

theorem State.RingsOk.run (h : s.RingsOk) : s.run.RingsOk :=
  h.settle.deleteCheck.orphanUnits.pinRetry.noteActivity.settle.drainCheck.testStep.lateEpochs.pump.dumpDone.memberChecks
    |>.journalPressure.urgentCheck.stallNote.suspectCheck.spareChecks.slotWatch.starveNote

theorem State.RingsOk.keepVault (h : t.RingsOk) : (s.keepVault t).RingsOk := h.reserveCheck.run.frame

theorem NextRings.vaultAct (h : t.RingsOk) : NextRings (vaultAct s t) := .next h.keepVault

/-! ### Starting a command -/

theorem State.RingsOk.start (h : s.RingsOk) {acc op sub} {f : Cmd → State} (hf : ∀ b, (f b).RingsOk) :
    (s.start acc op sub f).RingsOk := by
  unfold State.start
  split
  · exact hf _
  · exact h

theorem State.RingsOk.reply (h : s.RingsOk) {c page result} : (s.reply c page result).RingsOk := .ite h (.finish (.ite h h.hostWrite))

theorem State.RingsOk.check (h : s.RingsOk) (ht : t.RingsOk) {c bad} : (s.check c bad t).RingsOk := by
  unfold State.check
  split
  · exact h.finish
  · exact ht

end

end Sys2Proof.Machine
end

section
/-! PROOFS. The rings' pointers in features, gauge and the pass at a power loss. -/

namespace Sys2Proof.Machine

open Sys2Proof

section

variable {s t u v : State}

/-! ### Pages -/

theorem State.RingsOk.saveSeries (h : s.RingsOk) : s.saveSeries.RingsOk := .ite h h.vprogram

theorem NextRings.execIdentifyModule (h : s.RingsOk) {acc} : NextRings (execIdentifyModule acc s) := .act (h.start fun _ => h.reply)

theorem NextRings.execIdentifyVolumes (h : s.RingsOk) {acc} : NextRings (execIdentifyVolumes acc s) := .act (h.start fun _ => h.reply)

theorem NextRings.execIdentifyTemplate (h : s.RingsOk) {acc} : NextRings (execIdentifyTemplate acc s) := by
  refine .act (h.start fun _ => ?_)
  dsimp only
  split
  · exact h.reply
  · exact h.finish

theorem NextRings.execGetLog (h : s.RingsOk) {acc} : NextRings (execGetLog acc s) := .act (h.start fun _ => h.reply)

/-! ### Features -/

theorem State.RingsOk.setFeature (h : s.RingsOk) {acc id} {f : Cmd → State} (hf : ∀ b, (f b).RingsOk) :
    (s.setFeature acc id f).RingsOk :=
  h.start fun _ => hf _

theorem NextRings.setDevice (h : s.RingsOk) {acc id put} {after : State → State} (hafter : ∀ s, s.RingsOk → (after s).RingsOk) :
    NextRings (setDevice acc id s put after) := by
  unfold Sys2Proof.Machine.setDevice
  split
  · exact .next h
  · exact .actSet (hafter _ h.frame).finish.run

theorem State.RingsOk.setVolume (h : s.RingsOk) {c f} : (s.setVolume c f).RingsOk := h.frame.noteVolume.finishLogged

theorem State.RingsOk.setPool (h : s.RingsOk) {c f} : (s.setPool c f).RingsOk := h.frame.noteChange.finishLogged

theorem NextRings.execSetFeatureAckMode (h : s.RingsOk) {acc} : NextRings (execSetFeatureAckMode acc s) :=
  .act (.run (h.setFeature fun _ => h.setVolume))

theorem NextRings.execSetFeatureAgeLimit (h : s.RingsOk) {acc} : NextRings (execSetFeatureAgeLimit acc s) :=
  .act (.run (h.setFeature fun _ => h.setVolume))

theorem NextRings.execSetFeatureLossAck (h : s.RingsOk) {acc} : NextRings (execSetFeatureLossAck acc s) := by
  refine .act (.run (h.setFeature fun _ => ?_))
  dsimp only
  split
  · exact h.finish
  · exact .ite h.finish h.volEvent.frame.noteVolume.finishLogged

theorem NextRings.execSetFeatureDirtyLimit (h : s.RingsOk) {acc} : NextRings (execSetFeatureDirtyLimit acc s) :=
  .setDevice h fun _ h => h.limitApplied

theorem NextRings.execSetFeatureHedge (h : s.RingsOk) {acc} : NextRings (execSetFeatureHedge acc s) :=
  .act (.run (h.setFeature fun _ => h.setPool))

theorem NextRings.execSetFeatureHardTimeout (h : s.RingsOk) {acc} : NextRings (execSetFeatureHardTimeout acc s) :=
  .act (.run (h.setFeature fun _ => h.setPool))

theorem NextRings.execSetFeatureMediaThreshold (h : s.RingsOk) {acc} : NextRings (execSetFeatureMediaThreshold acc s) :=
  .act (.run (h.setFeature fun _ => h.setPool))

theorem NextRings.execSetFeatureScrubPeriod (h : s.RingsOk) {acc} : NextRings (execSetFeatureScrubPeriod acc s) :=
  .act (.run (h.setFeature fun _ => h.setPool))

theorem NextRings.execSetFeaturePatrolPeriod (h : s.RingsOk) {acc} : NextRings (execSetFeaturePatrolPeriod acc s) := .setDevice h fun _ h => h

theorem NextRings.execSetFeatureRefreshThreshold (h : s.RingsOk) {acc} : NextRings (execSetFeatureRefreshThreshold acc s) :=
  .setDevice h fun _ h => h

theorem NextRings.execSetFeatureTagBudget (h : s.RingsOk) {acc} : NextRings (execSetFeatureTagBudget acc s) :=
  .act (.run (h.setFeature fun _ => h.frame.pump.finish))

theorem NextRings.execSetFeatureClassWeights (h : s.RingsOk) {acc} : NextRings (execSetFeatureClassWeights acc s) := .setDevice h fun _ h => h

theorem NextRings.execSetFeatureMaxClass (h : s.RingsOk) {acc} : NextRings (execSetFeatureMaxClass acc s) :=
  .act (.run (h.setFeature fun _ => h.frame.finish))

theorem NextRings.execSetFeatureRateLimit (h : s.RingsOk) {acc} : NextRings (execSetFeatureRateLimit acc s) :=
  .act (.run (h.setFeature fun _ => h.frame.finish))

theorem NextRings.execSetFeatureStallTimeout (h : s.RingsOk) {acc} : NextRings (execSetFeatureStallTimeout acc s) := .setDevice h fun _ h => h

theorem NextRings.execSetFeatureExportWait (h : s.RingsOk) {acc} : NextRings (execSetFeatureExportWait acc s) := .setDevice h fun _ h => h

theorem NextRings.execSetFeatureTimeBase (h : s.RingsOk) {acc} : NextRings (execSetFeatureTimeBase acc s) :=
  .setDevice h fun _ h => .ite h h.frame.event.frame

theorem NextRings.execGetFeature (h : s.RingsOk) {acc} : NextRings (execGetFeature acc s) := .act (.run (h.start fun _ => h.reply))

theorem NextRings.execRingCreateSubmission (h : s.RingsOk) {acc} : NextRings (execRingCreateSubmission acc s) :=
  .act (.run (h.start fun _ => h.check (.finish (h.sqsPut (Sq.pointersOk_of_zero rfl rfl rfl)))))

theorem NextRings.execRingCreateCompletion (h : s.RingsOk) {acc} : NextRings (execRingCreateCompletion acc s) :=
  .act (.run (h.start fun _ => h.check (.finish (h.cqsPut (Cq.pointersOk_of_zero rfl rfl)))))

/-! ### The gauge -/

theorem State.RingsOk.dieEvent (h : s.RingsOk) {code p1 p2 p3} : (s.dieEvent code p1 p2 p3).RingsOk := .ite h.frame h.event

theorem State.RingsOk.cross (h : s.RingsOk) {bit} : (s.cross bit).RingsOk := .ite h h.frame.raisePfs

theorem State.RingsOk.packCrossed (h : s.RingsOk) : s.packCrossed.RingsOk := h.over fun _ _ h => .ite h.frame h

theorem State.RingsOk.warn (h : s.RingsOk) {level asserted} : (s.warn level asserted).RingsOk :=
  .via (fun h => .ite h h.alert) (.ite h.dieEvent.cross.packCrossed h.dieEvent.cross)

theorem State.RingsOk.mirrorGauge (h : s.RingsOk) : s.mirrorGauge.RingsOk := .ite h (h.frame.over fun _ _ h => h.vprogram)

theorem State.RingsOk.storeGauge (h : s.RingsOk) : s.storeGauge.RingsOk :=
  .mirrorGauge h.frame

theorem State.RingsOk.setFlags (h : s.RingsOk) {f} : (s.setFlags f).RingsOk := .ite h.frame h.frame.storeGauge

theorem State.RingsOk.setConverter (h : s.RingsOk) {mv} : (s.setConverter mv).RingsOk := by
  refine .ite h ?_
  dsimp only
  split
  · exact .ite h.frame h.frame
  · exact h.frame

theorem State.RingsOk.setCharger (h : s.RingsOk) {x} : (s.setCharger x).RingsOk := .ite h h.frame

theorem State.RingsOk.converterCheck (h : s.RingsOk) : s.converterCheck.RingsOk := h.setConverter.setCharger

theorem State.RingsOk.packTo (h : s.RingsOk) {st} : (s.packTo st).RingsOk := h.frame.converterCheck

theorem State.RingsOk.toIdentify (h : s.RingsOk) : s.toIdentify.RingsOk := h.packTo

theorem State.RingsOk.toCharge (h : s.RingsOk) {st} : (s.toCharge st).RingsOk := h.frame.packTo

theorem State.RingsOk.checkW3 (h : s.RingsOk) : s.checkW3.RingsOk := .ite h.frame.warn (.ite h.frame.warn h)

theorem State.RingsOk.learnEnds (h : s.RingsOk) {result cMeas} : (s.learnEnds result cMeas).RingsOk :=
  h.frame.setFlags.dieEvent.cross

theorem State.RingsOk.learnAbort (h : s.RingsOk) : s.learnAbort.RingsOk := .ite h.learnEnds h

theorem State.RingsOk.vinReads (h : s.RingsOk) {mv} : (s.vinReads mv).RingsOk :=
  .ite h.frame.learnAbort.packTo h.frame.converterCheck

theorem State.RingsOk.learnStart (h : s.RingsOk) : s.learnStart.RingsOk := h.packTo

theorem State.RingsOk.evaluate (h : s.RingsOk) : s.evaluate.RingsOk :=
  .via (fun h =>
      .checkW3 (.ite h.frame.warn (.ite h.frame.warn h)))
    (.ite h.frame.frame.warn (.ite h.frame.frame.warn h.frame))

theorem State.RingsOk.countBreak (h : s.RingsOk) : s.countBreak.RingsOk := h.frame

theorem State.RingsOk.countLife (h : s.RingsOk) {series v' bin inst} : (s.countLife series v' bin inst).RingsOk :=
  .ite h.frame h.frame

theorem State.RingsOk.countBits (h : s.RingsOk) {d l} : (s.countBits d l).RingsOk := by
  refine h.over fun _ _ h => ?_
  split
  · exact h.frame.countLife
  · exact h

theorem State.RingsOk.countSegments (h : s.RingsOk) {l after} : (s.countSegments l after).RingsOk := h.over fun _ _ h => h.countBits

theorem State.RingsOk.countAt (h : s.RingsOk) {l} : (s.countAt l).RingsOk := h.over fun _ _ h => h.countBits

theorem State.RingsOk.episodeEnds (h : s.RingsOk) : s.episodeEnds.RingsOk := by
  unfold State.episodeEnds
  split
  · exact h
  · exact h.frame.countLife

theorem State.RingsOk.anchor (h : s.RingsOk) {empty mc} : (s.anchor empty mc).RingsOk := h.episodeEnds.frame.dieEvent.storeGauge

theorem State.RingsOk.resetLearned (h : s.RingsOk) : s.resetLearned.RingsOk := .storeGauge (.frame (.ite h.learnAbort.toCharge h))

theorem State.RingsOk.declare (h : s.RingsOk) {d} : (s.declare d).RingsOk := by
  refine .ite h ?_
  dsimp only
  split
  · exact .ite h.frame.resetLearned.frame.packTo h.frame.resetLearned.packTo
  · exact h.frame.resetLearned.packTo
  · exact h.frame.resetLearned.converterCheck

theorem State.RingsOk.shipOpen (h : s.RingsOk) : s.shipOpen.RingsOk := h.storeGauge.countBreak.frame.emit.packTo.dieEvent.checkW3

theorem State.RingsOk.dieCheck (h : s.RingsOk) : s.dieCheck.RingsOk := .ite h.frame h

/-! ### The pass at a power loss -/

/-- In reset no ring stands. -/
theorem State.RingsOk.hostCleared : s.hostCleared.RingsOk := by
  unfold State.hostCleared
  exact ⟨nofun, nofun⟩

theorem State.RingsOk.clearRecords (h : s.RingsOk) {pf} : (s.clearRecords pf).RingsOk := h.frame.over fun _ _ h => h.frame

theorem State.RingsOk.clearBegun (h : s.RingsOk) : s.clearBegun.RingsOk := .ite h.clearRecords h

theorem State.RingsOk.discardGather (h : s.RingsOk) {c reason} : (s.discardGather c reason).RingsOk :=
  .ite h.frame.unpin.fnEvent h.frame.unpin

theorem State.RingsOk.hbLow (h : s.RingsOk) : s.hbLow.RingsOk := .ite h.frame.emit h

theorem State.RingsOk.jobsOver (h : s.RingsOk) : s.jobsOver.RingsOk := by
  refine .via (fun h => h.over fun _ _ h => .ite h.frame.unhold h.closeParison) (h.over fun _ _ h => ?_)
  split
  · exact h.absorbAdd
  · exact h

theorem State.RingsOk.unitsOver (h : s.RingsOk) : s.unitsOver.RingsOk := h.over fun _ _ h => h.endTask.frame

theorem State.RingsOk.gateIsland (h : s.RingsOk) {i status} : (s.gateIsland i status).RingsOk := .ite h (.ite h.frame h.frame)

theorem State.RingsOk.gateAll (h : s.RingsOk) {cause} : (s.gateAll cause).RingsOk := h.over fun _ _ h => h.gateIsland

theorem State.RingsOk.startLehr (h : s.RingsOk) {cause} : (s.startLehr cause).RingsOk := by
  unfold State.startLehr
  extract_lets s₁ t s₂ s₃ keepHost s₄ sram _ s₅
  have h₂ : s₂.RingsOk := h.selfTestEnds.over fun _ _ h => .ite h h.discardGather
  have h₃ : s₃.RingsOk := .jobsOver (.unitsOver h₂.frame)
  have h₄ : s₄.RingsOk := .ite h₃ .hostCleared
  have h₅ : s₅.RingsOk := h₄.frame
  exact .ite h (.converterCheck (.gateAll (.hbLow (.ite h₅ h₅.endAlert))))

theorem State.RingsOk.cutMapLog (h : s.RingsOk) : s.cutMapLog.RingsOk := by
  unfold State.cutMapLog
  dsimp only
  split <;> exact h.frame

theorem State.RingsOk.storeNow (h : s.RingsOk) {b page content} : (s.storeNow b page content).RingsOk := h.storeSectors

theorem State.RingsOk.passPage (h : s.RingsOk) {fails p fuel n} : (passPage fails p fuel n s).2.2.RingsOk := by
  induction fuel generalizing s n with
  | zero => exact h
  | succ fuel ih =>
    rw [Sys2Proof.Machine.passPage]
    split
    · exact h
    · next ht => exact .iteSndSnd (ih (h.pageFor ht).setVblk.frame) (h.pageFor ht).storeNow

theorem State.RingsOk.pagesNow (h : s.RingsOk) {n fails content} : (State.pagesNow (n, s) fails content).2.2.RingsOk :=
  State.RingsOk.foldlSndSnd h fun _ _ h => h.passPage

theorem State.RingsOk.recordNow (h : s.RingsOk) {n fails l} : (State.recordNow (n, s) fails l).2.RingsOk := by
  unfold State.recordNow
  extract_lets v content _ s₁
  have h₁ : s₁.RingsOk := h.frame
  split
  next n left s₂ hs =>
    have h₂ : s₂.RingsOk := .ofSndSnd hs h₁.pagesNow
    exact h₂.frame

theorem State.RingsOk.commitNow (h : s.RingsOk) {n fails l} : (State.commitNow (n, s) fails l).2.RingsOk :=
  .iteSnd h.recordNow h.recordNow.recordNow

theorem State.RingsOk.opensNow (h : s.RingsOk) {n fails k} : (opensNow fails k (n, s)).2.RingsOk := by
  induction k generalizing s n with
  | zero => exact h
  | succ k ih =>
    rw [Sys2Proof.Machine.opensNow]
    exact .iteSnd h (ih h.commitNow)

theorem State.RingsOk.retiredNow (h : s.RingsOk) {b} : (s.retiredNow b).RingsOk := h.frame.event.percentUpdate

theorem State.RingsOk.emptyNow (h : s.RingsOk) {n fails b} : (State.emptyNow fails (n, s) b).2.RingsOk := by
  unfold State.emptyNow
  extract_lets src
  split
  next n left s₁ hs =>
    have h₁ : s₁.RingsOk := .ofSndSnd hs h.pagesNow
    refine .iteSnd h₁ ?_
    extract_lets pages
    split
    next n' s₂ hs₂ =>
      have h₂ : s₂.RingsOk := .ofSnd hs₂ h₁.commitNow
      exact h₂.retiredNow.dropSectors

theorem State.RingsOk.retireAllNow (h : s.RingsOk) {n fails k} : (retireAllNow fails k (n, s)).2.RingsOk := by
  induction k generalizing s n with
  | zero => exact h
  | succ k ih =>
    rw [Sys2Proof.Machine.retireAllNow]
    split
    · exact h
    · exact ih h.frame.emptyNow

theorem State.RingsOk.openDump (h : s.RingsOk) {opened failed logFails} : (s.openDump opened failed logFails).RingsOk := by
  unfold State.openDump
  extract_lets _ s₁
  have h₁ : s₁.RingsOk := h.frame
  split
  next n s₂ hs₂ =>
    have h₂ : s₂.RingsOk := .ofSnd hs₂ (.foldlSnd h₁ fun _ _ h => h.commitNow)
    extract_lets s₃
    have h₃ : s₃.RingsOk := h₂.over fun _ _ h => h.frame
    split
    next n' s₄ hs₄ =>
      have h₄ : s₄.RingsOk := .ofSnd hs₄ (.iteSnd h₃ h₃.commitNow)
      extract_lets s₅
      have h₅ : s₅.RingsOk := h₄.over fun _ _ h => h.frame.retiredNow
      split
      next n'' s₆ hs₆ =>
        have h₆ : s₆.RingsOk := .ofSnd hs₆ h₅.retireAllNow.opensNow
        exact h₆.frame

theorem State.RingsOk.storeDump (h : s.RingsOk) {seq blocks segments} : (s.storeDump seq blocks segments).RingsOk := by
  refine h.over fun _ _ h => ?_
  split
  · exact h.storeNow
  · exact h

theorem State.RingsOk.writeDump (h : s.RingsOk) {l durationUs packMj sealed_ failed} :
    (s.writeDump l durationUs packMj sealed_ failed).RingsOk := by
  unfold State.writeDump
  extract_lets s₁ s₂ c regions j0 j1 total bad room entries parisons table sections head n kept need order good opened after nextSeq s₃
    seq d₀ all body segments d
  have h₂ : s₂.RingsOk := h.cutMapLog.frame
  have h₃ : s₃.RingsOk := h₂.openDump
  clear_value d segments s₃
  exact h₃.storeDump.frame

theorem State.RingsOk.dieReset (h : s.RingsOk) {until_} : (s.dieReset until_).RingsOk := by
  unfold State.dieReset
  extract_lets s₁ keep _ _ s₂
  have h₁ : s₁.RingsOk := h.selfTestEnds
  have h₂ : s₂.RingsOk := .ite (h₁.over fun _ _ h => h.gateIsland) (.frame (.endAlert .hostCleared))
  exact .ite h h₂.frame.converterCheck.emit

theorem State.RingsOk.railsFall : s.railsFall.RingsOk :=
  .dieCheck (.frame (.setConverter .hostCleared))

theorem State.RingsOk.puntyActs (h : s.RingsOk) {l isSealed} : (s.puntyActs l isSealed).RingsOk :=
  .via (fun h =>
      .ite .railsFall
        (.ite h.dieReset
          (.ite (.ite h.setState.dieReset h.frame.converterCheck)
            (.ite h.dieReset h.frame.converterCheck))))
    (.ite h.shipOpen h)

theorem State.RingsOk.passUnsealed (h : s.RingsOk) {l} : (s.passUnsealed l).RingsOk := .ite h.puntyActs h.writeDump.puntyActs

theorem State.RingsOk.converterLost (h : s.RingsOk) : s.converterLost.RingsOk := by
  refine .ite h ?_
  split
  · exact h.passUnsealed
  · exact .railsFall

theorem State.RingsOk.failWith (h : s.RingsOk) {cause} : (s.failWith cause).RingsOk :=
  .ite h (.via (fun h => .ite h.startLehr h.frame) h.frame.setState.alert.hbLow)

theorem State.RingsOk.failDevice (h : s.RingsOk) : s.failDevice.RingsOk := h.failWith

theorem State.RingsOk.fatalInternal (h : s.RingsOk) {cause island} : (s.fatalInternal cause island).RingsOk :=
  .ite h.event h.event.failWith

theorem State.RingsOk.beginMapOut (h : s.RingsOk) {i} : (s.beginMapOut i).RingsOk :=
  .ite h (.ite h.fatalInternal (.ite h.fatalInternal (.ite h.mapOut h.frame.drainCheck)))

theorem State.RingsOk.channelWindow (h : s.RingsOk) {i} : (s.channelWindow i).RingsOk := .ite h.frame.beginMapOut h.frame

theorem State.RingsOk.channelWord (h : s.RingsOk) {c area} : (s.channelWord c area).RingsOk := h.wordBad.channelWindow

theorem State.RingsOk.fencePort (h : s.RingsOk) {p} : (s.fencePort p).RingsOk := .ite h h.frame

theorem State.RingsOk.fenceReleased (h : s.RingsOk) {p ok} : (s.fenceReleased p ok).RingsOk := .ite h h.frame.gateIsland

theorem State.RingsOk.fence (h : s.RingsOk) {by_} : (s.fence by_).RingsOk := by
  unfold State.fence
  extract_lets st pass s₁ _ s₂ s₃ s₄ _ s₅
  have h₁ : s₁.RingsOk := .ite h.event.raisePfs h
  have h₃ : s₃.RingsOk := h₁.frame.setState.hbLow
  have h₄ : s₄.RingsOk := h₃.startLehr
  have h₅ : s₅.RingsOk := h₄.frame
  exact .ite h (.ite (h₅.over fun _ _ h => h.fencePort) h₃)

end

end Sys2Proof.Machine
end

section
/-! PROOFS. The rings' pointers in power, governor, drives and slots. -/

namespace Sys2Proof.Machine

open Sys2Proof

section

variable {s t u v : State}

/-! ### Power -/

theorem State.RingsOk.energyChanged (h : s.RingsOk) : s.energyChanged.RingsOk := .ite h h.frame.permissionCheck

theorem NextRings.execStatusFrame (h : s.RingsOk) {frame} : NextRings (execStatusFrame frame s) :=
  .act (.ite h (.ite h.vinReads.frame h.vinReads.frame.frame.energyChanged.run))

theorem NextRings.execStatusFrameTimeout (h : s.RingsOk) : NextRings (execStatusFrameTimeout s) := .act (.ite h h.frame.energyChanged.run)

theorem NextRings.execPackEnergyAvailable (h : s.RingsOk) : NextRings (execPackEnergyAvailable s) := by
  refine .act ?_
  split
  · exact h
  · exact .ite h h.frame.energyChanged.run

theorem NextRings.execPowerFailDetect (h : s.RingsOk) {vinMv} : NextRings (execPowerFailDetect vinMv s) :=
  .act (.ite h (.via (fun h => .ite h.converterLost h) h.vinReads.frame.emit))

theorem NextRings.execVinOvervoltage (h : s.RingsOk) {vinMv} : NextRings (execVinOvervoltage vinMv s) :=
  .act (.ite h h.frame.emit.converterCheck.dieEvent.emit)

theorem NextRings.execVinReturnInRange (h : s.RingsOk) : NextRings (execVinReturnInRange s) :=
  .act (.ite h (.converterCheck (.ite h.frame.emit h.frame.emit.frame)))

theorem NextRings.execVinBelowHoldup (h : s.RingsOk) {vinMv} : NextRings (execVinBelowHoldup vinMv s) := .act (.ite h h.vinReads)

theorem NextRings.execVinAboveHoldup (h : s.RingsOk) : NextRings (execVinAboveHoldup s) :=
  .act (.ite h (.ite h.frame.packTo h.frame.converterCheck))

theorem NextRings.execHoldupUvlo (h : s.RingsOk) : NextRings (execHoldupUvlo s) :=
  .act (.ite h h.frame.converterCheck.dieEvent.checkW3.converterLost)

theorem NextRings.execHoldupUvloRecover (h : s.RingsOk) : NextRings (execHoldupUvloRecover s) := .act (.ite h h.frame.converterCheck.checkW3)

theorem NextRings.execPackPresenceChange (h : s.RingsOk) {present} : NextRings (execPackPresenceChange present s) :=
  .act
    (.ite h
       (.ite (.via (fun h => .ite h.dieEvent h) (.ite h.frame.packTo h.frame))
          (.via (fun h => .dieCheck (.checkW3 (.cross (.dieEvent (.setFlags (.ite h h.packTo)))))) h.learnAbort.countBreak.frame)))

theorem NextRings.execIdentifyComplete (h : s.RingsOk) {reading} : NextRings (execIdentifyComplete reading s) :=
  .act
    (.ite h
       (.ite h.frame.packTo.dieEvent.cross
          (.ite h.frame (.via (fun h => .ite h.frame.packTo (.ite h.toCharge h.toCharge)) (.ite h.frame h.frame.frame)))))

theorem NextRings.execChargePhaseChange (h : s.RingsOk) {reading} : NextRings (execChargePhaseChange reading s) :=
  .act (.ite h (.ite h.frame.packTo (.ite h.frame.packTo h.frame)))

theorem NextRings.execChargeTermination (h : s.RingsOk) : NextRings (execChargeTermination s) := .act (.ite h h.packTo.anchor.checkW3)

theorem NextRings.execRechargeNeeded (h : s.RingsOk) {reading} : NextRings (execRechargeNeeded reading s) :=
  .act (.ite h (.ite h.frame.toCharge h.frame))

theorem NextRings.execChargeEnd (h : s.RingsOk) {cause} : NextRings (execChargeEnd cause s) := .act (.ite h h.frame.packTo.warn)

theorem NextRings.execChargeHoldRelease (h : s.RingsOk) : NextRings (execChargeHoldRelease s) := .act (.ite h.packTo h)

theorem NextRings.execLearnDischargeDone (h : s.RingsOk) : NextRings (execLearnDischargeDone s) := .act (.ite h.packTo h)

theorem NextRings.execLearnRestTimeout (h : s.RingsOk) : NextRings (execLearnRestTimeout s) := .act (.ite h.learnEnds.toCharge h)

theorem NextRings.execEavailCompute (h : s.RingsOk) {reading} : NextRings (execEavailCompute reading s) :=
  .act (.ite h (.ite h.frame.evaluate.learnAbort.toCharge h.frame.evaluate))

theorem State.RingsOk.draws (h : s.RingsOk) {out} : (s.draws out).RingsOk := by
  unfold State.draws
  split
  · exact .ite h h.frame
  · exact h

theorem NextRings.execChargeCountSample (h : s.RingsOk) {currentMa} : NextRings (execChargeCountSample currentMa s) :=
  .act (.ite h (h.draws.frame))

theorem State.RingsOk.learnAt (h : s.RingsOk) {a mv} : (s.learnAt a mv).2.RingsOk := .iteSnd h (.iteSnd h h.frame.storeGauge)

theorem NextRings.execRestPoint (h : s.RingsOk) {reading} : NextRings (execRestPoint reading s) := by
  refine .act (.ite h (.ite h.frame ?_))
  extract_lets s₁
  have h₁ : s₁.RingsOk := h.episodeEnds.frame
  split
  next r s₂ hs =>
    have h₂ : s₂.RingsOk := by
      split at hs
      · exact .ofSnd hs h₁.learnAt
      · exact (Prod.mk.inj hs).2 ▸ h₁
    extract_lets s₃ s₄ die s₅
    have h₃ : s₃.RingsOk := by
      unfold s₃
      split
      · exact .ite h₂.learnEnds.toCharge (.dieEvent (.ite h₂.frame.storeGauge h₂))
      · exact .ite h₂.learnEnds.toCharge h₂
    have h₄ : s₄.RingsOk := .ite h₃.anchor h₃
    exact .ite h₄.frame.learnStart h₄.frame

theorem NextRings.execLearnOverdue (h : s.RingsOk) : NextRings (execLearnOverdue s) := .act (.ite h h.setFlags.dieEvent)

theorem NextRings.execGaugeStorePeriodic (h : s.RingsOk) : NextRings (execGaugeStorePeriodic s) := .act (.ite h.storeGauge h)

theorem NextRings.execPackSample (h : s.RingsOk) {reading} : NextRings (execPackSample reading s) :=
  .act (.ite h (.ite h.countLife.countLife.countLife h.countLife.countLife))

theorem NextRings.execPowerDieStart (h : s.RingsOk) : NextRings (execPowerDieStart s) :=
  .act
    (.ite h
       (.via (fun h =>
           .via (fun h => .ite h (.ite h.packTo (.ite h.packTo h.packTo)))
             (.ite h.frame.dieEvent (.ite h.frame.dieEvent h.frame.dieEvent)))
         (h.countBreak.frame)))

theorem NextRings.execShipCleanReport (h : s.RingsOk) : NextRings (execShipCleanReport s) := .act (.ite h.shipOpen.dieCheck h)

theorem NextRings.execShipReconnect (h : s.RingsOk) : NextRings (execShipReconnect s) := by
  refine .act ?_
  split
  · exact h
  · exact .ite h h.frame.emit.toIdentify.dieEvent

theorem NextRings.execPackReplaced (h : s.RingsOk) {acc} : NextRings (execPackReplaced acc s) :=
  .act (.run (h.start fun _ => .ite h.finish (.finish (.ite h.resetLearned.dieEvent.packTo h.resetLearned.dieEvent))))

theorem NextRings.execPackLearn (h : s.RingsOk) {acc} : NextRings (execPackLearn acc s) :=
  .act (.run (h.start fun _ => .ite h.finish (.finish (.ite h.setFlags.learnStart h.setFlags))))

theorem NextRings.execPackLearnAbort (h : s.RingsOk) {acc} : NextRings (execPackLearnAbort acc s) :=
  .act (.run (h.start fun _ => .ite h.finish (.finish (.ite h.learnEnds.toCharge h.learnEnds))))

theorem NextRings.execShipModeArm (h : s.RingsOk) {acc} : NextRings (execShipModeArm acc s) :=
  .act (.run (h.start fun _ => .ite h.finish (.ite h.finish h.learnAbort.packTo.dieEvent.frame.frame.energyChanged.finish)))

theorem NextRings.execShipModeCancel (h : s.RingsOk) {acc} : NextRings (execShipModeCancel acc s) := by
  refine .act (.run (h.start fun _ => ?_))
  split
  · exact h.toIdentify.dieEvent.finish
  · exact h.frame.dieEvent.finish
  · exact h.finish

/-! ### The governor -/

theorem State.RingsOk.splitBudget (h : s.RingsOk) : s.splitBudget.RingsOk := h.frame

theorem State.RingsOk.govSample (h : s.RingsOk) {i} : (s.govSample i).RingsOk := h.frame

theorem NextRings.execGovSampleInstant (h : s.RingsOk) {inputs} : NextRings (execGovSampleInstant inputs s) :=
  .act (.ite h (.run (.govSample (.frame (.starveNote (.splitBudget (.ite h.frame.event (.ite h.frame h))))))))

theorem NextRings.execGovComputationDone (h : s.RingsOk) : NextRings (execGovComputationDone s) :=
  .act (.ite h (.ite h.frame.event (.frame (h.over fun _ _ h => h.over fun _ _ h => h.event))))

theorem NextRings.execPwmInputLost (h : s.RingsOk) : NextRings (execPwmInputLost s) := .act (.ite h h.frame.event)

theorem State.RingsOk.pwmRestored (h : s.RingsOk) : s.pwmRestored.RingsOk := .ite h.frame.event h

theorem NextRings.execPwmSteadyHigh (h : s.RingsOk) : NextRings (execPwmSteadyHigh s) := .act (.ite h h.frame.pwmRestored)

theorem NextRings.execPwmInputRestored (h : s.RingsOk) {high period} : NextRings (execPwmInputRestored high period s) :=
  .act (.ite h h.pwmRestored)

theorem NextRings.execOverrunsRead (h : s.RingsOk) {read} : NextRings (execOverrunsRead read s) := .act (h.mmio (.ite h h.frame))

theorem State.RingsOk.govStart (h : s.RingsOk) : s.govStart.RingsOk := h.frame

theorem State.RingsOk.govStructure (h : s.RingsOk) {period cfgs} : (s.govStructure period cfgs).RingsOk := .ite h h.frame.event

theorem State.RingsOk.govRestore (h : s.RingsOk) : s.govRestore.RingsOk := h.frame

/-! ### Drives -/

theorem State.RingsOk.updPort (h : s.RingsOk) {p f} : (s.updPort p f).RingsOk := h.frame

theorem State.RingsOk.countMember (h : s.RingsOk) {p f} : (s.countMember p f).RingsOk := .ite h.frame h

theorem State.RingsOk.suspect (h : s.RingsOk) {p} : (s.suspect p).RingsOk := by
  unfold State.suspect
  split
  · exact h
  · exact .ite h (.evacuationCheck (h.frame.memberTo.over fun _ _ h => h.replaceAgain))

theorem State.RingsOk.criticalWarning (h : s.RingsOk) {p} : (s.criticalWarning p).RingsOk := h.suspect

theorem State.RingsOk.queueSetup (h : s.RingsOk) {p} : (s.queueSetup p).RingsOk :=
  State.RingsOk.over (.ite h.frame h) fun _ _ h => h.frame

theorem State.RingsOk.adminStep (h : s.RingsOk) {p step} : (s.adminStep p step).RingsOk :=
  .via (fun h => .via (fun h => .ite h.frame.queueSetup (.ite h.frame h.frame)) (.ite h.frame h)) (.ite h.frame h.frame)

theorem State.RingsOk.resetEnds (h : s.RingsOk) {p ok} : (s.resetEnds p ok).RingsOk := by
  unfold State.resetEnds
  split
  · exact h
  · exact h.frame.countMember.event

theorem State.RingsOk.controllerFatal (h : s.RingsOk) {p} : (s.controllerFatal p).RingsOk :=
  .ite h.resetEnds.updPort.failMember h.resetEnds.updPort

theorem State.RingsOk.resetController (h : s.RingsOk) {p why} : (s.resetController p why).RingsOk :=
  .ite h.controllerFatal h.frame

theorem State.RingsOk.dropQuarantine (h : s.RingsOk) {p} : (s.dropQuarantine p).RingsOk := h.frame

theorem State.RingsOk.reissueAll (h : s.RingsOk) {p} : (s.reissueAll p).RingsOk := h.frame.pumpClass.pumpPort

theorem State.RingsOk.driveUnusable (h : s.RingsOk) {p why} : (s.driveUnusable p why).RingsOk :=
  .via (fun h => .ite h.frame.event.failMember h.frame.event) (.ite h.resetEnds h)

theorem State.RingsOk.askHolder (h : s.RingsOk) {p} : (s.askHolder p).RingsOk := .ite h.frame h

theorem State.RingsOk.askIdentify (h : s.RingsOk) {p} : (s.askIdentify p).RingsOk := .ite h.frame h

theorem State.RingsOk.preempt (h : s.RingsOk) {p} : (s.preempt p).RingsOk := h.frame.askHolder

theorem State.RingsOk.holderRead (h : s.RingsOk) {p key} : (s.holderRead p key).RingsOk := .ite h h.frame

theorem State.RingsOk.controllerUp (h : s.RingsOk) {p} : (s.controllerUp p).RingsOk := by
  unfold State.controllerUp
  extract_lets res holds take s₁ s₂
  have h₁ : s₁.RingsOk := h.frame
  have h₂ : s₂.RingsOk := .ite h₁.preempt (.ite h₁.frame h₁)
  exact h₂.resetEnds.reissueAll.askIdentify

theorem State.RingsOk.identified (h : s.RingsOk) {p ok} : (s.identified p ok).RingsOk :=
  .ite h.frame.askHolder h.frame.selfTestEnds

theorem State.RingsOk.adminReply (h : s.RingsOk) {p ok info} : (s.adminReply p ok info).RingsOk := by
  unfold State.adminReply
  split
  · exact .ite h.controllerFatal
      (.ite h.frame.driveUnusable (.ite h.frame.driveUnusable (.ite h.frame.controllerUp h.frame.adminStep)))
  · exact h

theorem State.RingsOk.sendAborts (h : s.RingsOk) {p} : (s.sendAborts p).RingsOk := by
  refine h.over fun _ _ h => ?_
  split
  · exact h.frame
  · exact h.frame.countMember

theorem State.RingsOk.adminFreed (h : s.RingsOk) {p} : (s.adminFreed p).RingsOk := h.askHolder.sendAborts.askIdentify

theorem State.RingsOk.abortDone (h : s.RingsOk) {p id} : (s.abortDone p id).RingsOk := h.frame.adminFreed

theorem State.RingsOk.mediaError (h : s.RingsOk) {p} : (s.mediaError p).RingsOk := by
  unfold State.mediaError
  split
  · exact h
  · exact .ite h (.ite h.frame (.ite h.frame.suspect h.frame))

theorem State.RingsOk.countRead (h : s.RingsOk) {p us} : (s.countRead p us).RingsOk := by
  unfold State.countRead
  split
  · exact h
  · extract_lets bin bump s₁ k r
    have h₁ : s₁.RingsOk := h.frame
    exact h₁.frame

theorem State.RingsOk.portWords (h : s.RingsOk) {p data} : (s.portWords p data).RingsOk := by
  refine h.over fun _ _ h => ?_
  split
  · exact h
  · exact h.wordFixed
  · exact h.wordBad

theorem State.RingsOk.ioReply (h : s.RingsOk) {p id status data} : (s.ioReply p id status data).RingsOk := by
  unfold State.ioReply
  dsimp only
  split
  · exact h
  · split
    · exact h
    · exact h.frame.countMember.event.pumpPort
    · split
      · exact h.frame.event.fence
      · refine .pumpPort (.later ?_)
        split
        · exact .via (fun h => .ite h.countRead h) (.ite h.frame h.frame.portWords)
        · exact h.frame.mediaError
        · dsimp only
          exact h.frame

theorem State.RingsOk.healthRead (h : s.RingsOk) {port critical} : (s.healthRead port critical).RingsOk :=
  .run (.ite h.frame.adminFreed.criticalWarning h.frame.adminFreed)

theorem NextRings.execDriveCompletion (h : s.RingsOk) {port reply} : NextRings (execDriveCompletion port reply s) := by
  refine .act ?_
  dsimp only
  split
  · exact .ite h (.ite (.ite h.frame.fencePort h) (.ite h.ioReply.run h))
  · exact .ite h.identified.adminFreed.run (.ite h.adminReply.run (.ite h.fenceReleased h))
  · exact .ite h.healthRead h
  · exact .ite h.abortDone h
  · exact .ite h.holderRead.run h

theorem NextRings.execSoftTimeout (h : s.RingsOk) {port req} : NextRings (execSoftTimeout port req s) := by
  refine .act ?_
  split
  · exact h
  · split
    · exact h
    · exact .ite h h.frame.countMember.event

theorem NextRings.execHardTimeout (h : s.RingsOk) {port req} : NextRings (execHardTimeout port req s) := by
  refine .act ?_
  split
  · exact h
  · split
    · exact h
    · exact .ite h (.run (.ite h.frame.countMember.event.sendAborts.later.later h.frame.countMember.event.sendAborts.later))

theorem NextRings.execQuarantineTimeout (h : s.RingsOk) {port req} : NextRings (execQuarantineTimeout port req s) := by
  refine .act ?_
  split
  · split
    · exact .ite h.resetController.run h
    · exact h
  · exact h

theorem NextRings.execAdminCommandTimeout (h : s.RingsOk) {port} : NextRings (execAdminCommandTimeout port s) :=
  .act (.ite h.resetController.run h)

theorem NextRings.execControllerDisabled (h : s.RingsOk) {port} : NextRings (execControllerDisabled port s) :=
  .act (.ite h.frame.adminStep.run h)

theorem NextRings.execControllerResetTimeout (h : s.RingsOk) {port} : NextRings (execControllerResetTimeout port s) :=
  .act (.ite h.controllerFatal.run h)

theorem NextRings.execControllerFatalStatus (h : s.RingsOk) {port} : NextRings (execControllerFatalStatus port s) :=
  .act (.ite h.controllerFatal.run h)

theorem NextRings.execSmartPoll (h : s.RingsOk) {port critical} : NextRings (execSmartPoll port critical s) := by
  refine .act (.ite h ?_)
  extract_lets s₁
  have h₁ : s₁.RingsOk := h.frame
  split
  · exact h₁
  · exact h₁.healthRead

theorem NextRings.execAsynchronousEvent (h : s.RingsOk) {port critical} : NextRings (execAsynchronousEvent port critical s) :=
  .act (.ite h.criticalWarning.run h)

theorem State.RingsOk.holdOver (h : s.RingsOk) {port} : (s.holdOver port).RingsOk :=
  .ite h.event.updPort.resetEnds.failMember h.event.updPort.resetEnds.absentAll.assertPerst

theorem State.RingsOk.linkTrained (h : s.RingsOk) {port speed width far} : (s.linkTrained port speed width far).RingsOk := by
  unfold State.linkTrained
  extract_lets down unused s₁ s₂ s₃
  have h₁ : s₁.RingsOk := h.frame
  have h₂ : s₂.RingsOk := .ite h₁.event h₁
  have h₃ : s₃.RingsOk := by
    unfold s₃
    clear_value down
    split
    · exact .ite h₂.event.countMember h₂.event.countMember.dropQuarantine.updPort
    · exact h₂
  exact .ite h₃ (.ite h₃.driveUnusable h₃.adminStep)

theorem NextRings.execDriveLinkUp (h : s.RingsOk) {port speeds widths far} : NextRings (execDriveLinkUp port speeds widths far s) := by
  refine .act (.ite h ?_)
  split
  · exact .run (.ite h.holdOver h.linkTrained)
  · exact h

theorem State.RingsOk.driveGone (h : s.RingsOk) {n} : (s.driveGone n).RingsOk := by
  unfold State.driveGone
  exact .updPort (.ite h.failMember h.absentAll.assertPerst)

theorem NextRings.execDriveLinkDown (h : s.RingsOk) {port} : NextRings (execDriveLinkDown port s) :=
  .act (.ite h (.run (.ite h.frame.driveGone h.frame)))

theorem NextRings.execLinkDownHoldExpiry (h : s.RingsOk) {port} : NextRings (execLinkDownHoldExpiry port s) := by
  refine .act ?_
  split
  · exact h
  · exact .ite h h.holdOver.run

theorem NextRings.execPortNoLink (h : s.RingsOk) {port} : NextRings (execPortNoLink port s) :=
  .act (.ite h (.run (.ite h.frame.event.failMember h.frame.event)))

theorem NextRings.execDrivePerstDeassert (h : s.RingsOk) {port} : NextRings (execDrivePerstDeassert port s) := by
  refine .act ?_
  dsimp only
  split
  · exact h
  · exact .ite h h.frame

theorem NextRings.execDriveSettle (h : s.RingsOk) {port} : NextRings (execDriveSettle port s) := by
  refine .act ?_
  split
  · exact h
  · exact .ite h h.frame.pumpPort.run

theorem State.RingsOk.startHedge (h : s.RingsOk) {port req r x pool} : (s.startHedge port req r x pool).RingsOk := by
  unfold State.startHedge
  extract_lets want lost m pl _ s₁
  have h₁ : s₁.RingsOk := h.frame
  exact .ite h h₁.newTask

theorem NextRings.execHedgeDelay (h : s.RingsOk) {port req} : NextRings (execHedgeDelay port req s) := by
  refine .act ?_
  split
  · split
    · split
      · extract_lets half due s₁
        have h₁ : s₁.RingsOk := h.frame
        clear_value s₁
        refine .ite h (.ite ?_ h₁.startHedge.run)
        exact h₁.frame
      · exact h
    · exact h
  · exact h

theorem NextRings.execHedgeHoldTimeout (h : s.RingsOk) {task} : NextRings (execHedgeHoldTimeout task s) := by
  refine .act ?_
  split
  · exact h
  · exact .ite h h.holdEnds.run

theorem NextRings.execHedgeIntervalEnd (h : s.RingsOk) : NextRings (execHedgeIntervalEnd s) :=
  .act (.ite h (.frame (h.over fun _ _ h => .frame (.ite h.event h))))

theorem State.RingsOk.poolEstimate (h : s.RingsOk) {id} : (s.poolEstimate id).RingsOk := by
  unfold State.poolEstimate
  split
  · exact h
  · exact .ite h.frame.event h.frame

theorem State.RingsOk.memberEstimate (h : s.RingsOk) {port} : (s.memberEstimate port).RingsOk := by
  unfold State.memberEstimate
  split
  · exact h
  · split
    · exact h
    · dsimp only
      split
      · exact h.frame
      · exact .ite h.frame.memberTo (.ite (.ite h.frame.memberTo h.frame) h.frame)

theorem NextRings.execHedgeThresholdUpdate (h : s.RingsOk) : NextRings (execHedgeThresholdUpdate s) :=
  .act (.ite h (.run (.frame (State.RingsOk.over (h.over fun _ _ h => h.poolEstimate) fun _ _ h => h.memberEstimate))))

/-! ### Slots -/

theorem State.RingsOk.indicate (h : s.RingsOk) {n} : (s.indicate n).RingsOk := by
  unfold State.indicate
  exact h.frame

theorem State.RingsOk.slotEnd (h : s.RingsOk) {n ops shifted result} : (s.slotEnd n ops shifted result).RingsOk :=
  h.frame.over fun _ _ h => h.finish

theorem State.RingsOk.slotOn (h : s.RingsOk) {n} : (s.slotOn n).RingsOk := h.frame

theorem State.RingsOk.slotOff (h : s.RingsOk) {n} : (s.slotOff n).RingsOk := h.slotEnd.absentAll.assertPerst.updPort

theorem State.RingsOk.failAndOff (h : s.RingsOk) {n} : (s.failAndOff n).RingsOk := .slotOff (.ite h.failMember h)

theorem State.RingsOk.cancelWindow (h : s.RingsOk) {n} : (s.cancelWindow n).RingsOk := .ite h h.frame.event

theorem State.RingsOk.scanSlot (h : s.RingsOk) {n b} : (s.scanSlot n b).RingsOk := by
  unfold State.scanSlot
  exact h.indicate.updPort.slotEnd.updPort

theorem NextRings.execSlotScan (h : s.RingsOk) {inbound} : NextRings (execSlotScan inbound s) :=
  .act (.ite h (.emit (.frame (h.over fun _ _ h => h.scanSlot))))

theorem NextRings.execSlotPresenceChange (h : s.RingsOk) {slot present} : NextRings (execSlotPresenceChange slot present s) :=
  .act
    (.ite h
       (.run
          (.ite (.ite h.frame (.ite h.frame (.ite h.frame h.frame)))
             (.ite h.frame.event h.frame.driveGone))))

theorem NextRings.execSlotPowerGood (h : s.RingsOk) {slot} : NextRings (execSlotPowerGood slot s) :=
  .act (.ite h (.ite h.frame h.frame.slotEnd))

theorem NextRings.execSlotPowerFault (h : s.RingsOk) {slot} : NextRings (execSlotPowerFault slot s) :=
  .act (.ite h (.via (fun h => .run (.slotEnd (.slotEnd (.ite h.event.failMember h.event)))) h.absentAll.assertPerst.updPort))

theorem NextRings.execSlotPowerOffDelay (h : s.RingsOk) {slot} : NextRings (execSlotPowerOffDelay slot s) := by
  refine .act ?_
  split
  · exact h
  · exact .ite h (h.frame.slotEnd.when h.frame.slotEnd.slotOn)

theorem NextRings.execSlotButtonPress (h : s.RingsOk) {slot} : NextRings (execSlotButtonPress slot s) :=
  .act (.ite h (.ite h.frame (.ite h.frame.cancelWindow h.frame)))

theorem NextRings.execButtonWindowEnd (h : s.RingsOk) {slot} : NextRings (execButtonWindowEnd slot s) := by
  refine .act ?_
  dsimp only
  split
  · exact h
  · exact .ite h (.run (.ite h.frame.event (.ite h.frame.event h.frame.failAndOff.event)))

theorem NextRings.execButtonRefusalEnd (h : s.RingsOk) {slot} : NextRings (execButtonRefusalEnd slot s) := by
  refine .act ?_
  split
  · exact .ite h.frame h
  · exact h

theorem State.RingsOk.slotControl (h : s.RingsOk) {acc op} {f : Cmd → ℕ → State} (hf : ∀ b c, (f b c).RingsOk) :
    (s.slotControl acc op f).RingsOk :=
  h.start fun _ => hf _ _

theorem State.RingsOk.slotWait (h : s.RingsOk) {acc n} : (s.slotWait acc n).RingsOk := h.frame

theorem NextRings.execSlotPowerOn (h : s.RingsOk) {acc} : NextRings (execSlotPowerOn acc s) :=
  .act (.run (h.slotControl fun _ _ => .ite h.cancelWindow.finish (.slotWait (.ite h.cancelWindow h.cancelWindow.slotOn))))

theorem NextRings.execSlotPowerOff (h : s.RingsOk) {acc} : NextRings (execSlotPowerOff acc s) :=
  .act
    (.run
       (h.slotControl fun _ _ =>
          .ite h.cancelWindow.finish
            (.ite (.finish (.ite h.cancelWindow.failMember h.cancelWindow))
               (.ite h.cancelWindow.slotEnd.slotWait h.cancelWindow.failAndOff.slotWait))))

theorem NextRings.execSlotLocateOn (h : s.RingsOk) {acc} : NextRings (execSlotLocateOn acc s) :=
  .act (.run (h.slotControl fun _ _ => h.frame.indicate.slotWait))

theorem NextRings.execSlotLocateOff (h : s.RingsOk) {acc} : NextRings (execSlotLocateOff acc s) :=
  .act (.run (h.slotControl fun _ _ => h.frame.indicate.slotWait))

theorem NextRings.execSlotAutomaticPower (h : s.RingsOk) {acc} : NextRings (execSlotAutomaticPower acc s) :=
  .act (.run (h.slotControl fun _ _ => h.frame.finish))

theorem NextRings.execSlotButtonPolicy (h : s.RingsOk) {acc} : NextRings (execSlotButtonPolicy acc s) :=
  .act (.run (h.slotControl fun _ _ => h.frame.finish))

end

end Sys2Proof.Machine
end

section
/-! PROOFS. The rings' pointers in host link, power loss, vault rows and islands. -/

namespace Sys2Proof.Machine

open Sys2Proof

section

variable {s t u v : State}

/-! ### The host link -/

theorem State.RingsOk.sendLtr (h : s.RingsOk) {e target} : (s.sendLtr e target).RingsOk := .ite h.frame h

theorem State.RingsOk.ltrTouch (h : s.RingsOk) {e} : (s.ltrTouch e).RingsOk := .ite h.frame h.frame.sendLtr

theorem NextRings.execLtrIdle (h : s.RingsOk) {ep} : NextRings (execLtrIdle ep s) := .act (h.when h.frame.sendLtr)

theorem State.RingsOk.ringProtocol (h : s.RingsOk) {f ring kind reason} : (s.ringProtocol f ring kind reason).RingsOk := h.fnEvent

theorem State.RingsOk.sqError (h : s.RingsOk) {k q reason} (hq : q.pointersOk = true) : (s.sqError k q reason).RingsOk :=
  (h.sqsBeside (q' := { q with st := .error }) hq rfl).ringProtocol.raise

theorem State.RingsOk.cqError (h : s.RingsOk) {k c reason} (hc : c.pointersOk = true) : (s.cqError k c reason).RingsOk :=
  (h.cqsPut (c := { c with st := .error }) hc).ringProtocol.raise

theorem State.RingsOk.tailValue (h : s.RingsOk) {f ring value shadow} : (s.tailValue f ring value shadow).RingsOk := by
  unfold State.tailValue
  dsimp only
  split
  · exact h.ringProtocol
  · next q hq =>
    refine .ite h.ringProtocol ?_
    split
    · exact h.sqError (h.sq hq)
    · next high =>
      refine h.sqsPut ?_
      split
      · exact Sq.pointersOk_tailShadow (not_le.mp high) (h.sq hq)
      · exact Sq.pointersOk_tailMmio (not_le.mp high) (h.sq hq)

theorem State.RingsOk.headValue (h : s.RingsOk) {f ring value shadow} : (s.headValue f ring value shadow).RingsOk := by
  unfold State.headValue
  dsimp only
  split
  · exact h.ringProtocol
  · next c hc =>
    refine .ite h.ringProtocol ?_
    split
    · exact h.cqError (h.cq hc)
    · next high => exact .ite (h.cqError (h.cq hc)) (.drainCq (h.cqsPut (Cq.pointersOk_head (not_le.mp high) (h.cq hc))))

theorem NextRings.execSqTail (h : s.RingsOk) {fn ring value} : NextRings (execSqTail fn ring value s) :=
  .act (h.mmio (h.when h.tailValue.ltrTouch))

theorem NextRings.execCqHead (h : s.RingsOk) {fn ring value} : NextRings (execCqHead fn ring value s) :=
  .act (h.mmio (h.when h.headValue.ltrTouch))

theorem NextRings.execShadowPoll (h : s.RingsOk) {fn ring} : NextRings (execShadowPoll fn ring s) := by
  refine .act ?_
  split
  · next hq =>
    split
    · refine .ite ?_ h
      split
      · next ht => exact (h.issueRead ht).sqsBeside (h.sq hq) rfl
      · exact h
    · exact h
  · exact h

theorem State.RingsOk.shadowValue (h : s.RingsOk) {k b} : (s.shadowValue k b).RingsOk := by
  unfold State.shadowValue
  split
  · exact h
  · next hq =>
    exact .via (fun h => .ite h.headValue h) (.via (fun h => .ite h.tailValue h) (h.sqsBeside (h.sq hq) rfl))

theorem State.RingsOk.adminEnable (h : s.RingsOk) {f} : (s.adminEnable f).RingsOk :=
  .ite h (.ite ⟨Store.forall_vals_put (Sq.pointersOk_of_zero rfl rfl rfl) h.sqs,
    Store.forall_vals_put (Cq.pointersOk_of_zero rfl rfl) h.cqs⟩ h.frame)

theorem NextRings.execAdminEn (h : s.RingsOk) {fn} : NextRings (execAdminEn fn s) := .act (h.mmio h.adminEnable)

theorem State.RingsOk.causeDue (h : s.RingsOk) {f due} : (s.causeDue f due).RingsOk := .ite h.sendVector h

theorem State.RingsOk.writeMask (h : s.RingsOk) {f v'} : (s.writeMask f v').RingsOk := h.frame.causeDue

theorem State.RingsOk.writeIntEn (h : s.RingsOk) {f v'} : (s.writeIntEn f v').RingsOk := h.frame.causeDue

theorem State.RingsOk.writeForce (h : s.RingsOk) {f v'} : (s.writeForce f v').RingsOk := h.frame.causeDue

theorem NextRings.execCauseWrite (h : s.RingsOk) {fn value} : NextRings (execCauseWrite fn value s) := .act (h.mmio h.frame)

theorem NextRings.execCauseMaskWrite (h : s.RingsOk) {fn value} : NextRings (execCauseMaskWrite fn value s) := .act (h.mmio h.writeMask)

theorem NextRings.execIntEnWrite (h : s.RingsOk) {fn value} : NextRings (execIntEnWrite fn value s) := .act (h.mmio h.writeIntEn)

theorem NextRings.execForce (h : s.RingsOk) {fn value} : NextRings (execForce fn value s) := .act (h.mmio h.writeForce)

theorem NextRings.execSuppressedTotalRead (h : s.RingsOk) {read} : NextRings (execSuppressedTotalRead read s) :=
  .act (h.mmio (.ite h.frame h.frame))

theorem State.RingsOk.writeMsix (h : s.RingsOk) {f vector dword v'} : (s.writeMsix f vector dword v').RingsOk := h.frame.flushPba

theorem NextRings.execMsixEntryWrite (h : s.RingsOk) {fn vector dword value} : NextRings (execMsixEntryWrite fn vector dword value s) :=
  .act (h.mmio (h.when h.writeMsix))

theorem NextRings.execRingGrant (h : s.RingsOk) : NextRings (execRingGrant s) := by
  refine .act ?_
  split
  · exact h
  · split
    · exact h
    · exact h.frame.fetchBurst

theorem State.RingsOk.transferFailed (h : s.RingsOk) {acc} : (s.transferFailed acc).RingsOk := by
  unfold State.transferFailed
  split
  · exact h
  · exact h.discardGather.finish

theorem State.RingsOk.endOnReset (h : s.RingsOk) {c} : (s.endOnReset c).RingsOk :=
  .ite (.ite h.frame h.discardGather.frame) (.ite h.unpin.frame (.ite h.frame h.frame))

theorem State.RingsOk.resetFn (h : s.RingsOk) {note f} : (s.resetFn note f).RingsOk := by
  unfold State.resetFn
  extract_lets mine x outstanding count s₁ s₂ s₃ s₄ s₅ s₆
  have h₂ : s₂.RingsOk := (h.over fun _ _ h => h.endOnReset).setEp
  have h₃ : s₃.RingsOk := { h₂ with
    sqs := Store.forall_vals_keep (q := fun _ q => q.fn ≠ f) h₂.sqs, cqs := Store.forall_vals_keep (q := fun _ c => c.fn ≠ f) h₂.cqs }
  have h₅ : s₅.RingsOk := .ite h₃.frame.selfTestEnds h₃.frame
  have h₆ : s₆.RingsOk := .ite h₅.fnEvent h₅
  exact (h₆.over fun _ _ h => h.refillStash).settleWaits.noteBacked

theorem State.RingsOk.resetEp (h : s.RingsOk) {e note} : (s.resetEp e note).RingsOk := .setEp (h.over fun _ _ h => h.resetFn)

theorem NextRings.execFlr (h : s.RingsOk) {fn} : NextRings (execFlr fn s) := .act (.run (h.when (.ite h.resetEp h.resetFn)))

theorem NextRings.execVfEnableCleared (h : s.RingsOk) {ep} : NextRings (execVfEnableCleared ep s) :=
  .act (.run (h.when (.setEp (h.over fun _ _ h => h.resetFn))))

theorem State.RingsOk.linkLost (h : s.RingsOk) {e} : (s.linkLost e).RingsOk := h.resetEp.fnEvent.setEp

theorem NextRings.execHostLinkDown (h : s.RingsOk) {ep} : NextRings (execHostLinkDown ep s) := .act (.run (h.when h.linkLost))

theorem NextRings.execHotReset (h : s.RingsOk) {ep} : NextRings (execHotReset ep s) := .act (.run (h.when h.fnEvent.linkLost))

theorem NextRings.execHostLinkUp (h : s.RingsOk) {ep speed width flit} : NextRings (execHostLinkUp ep speed width flit s) :=
  .act (h.when h.frame.fnEvent)

theorem State.RingsOk.stopRequests (h : s.RingsOk) {f} : (s.stopRequests f).RingsOk :=
  .fnEvent (h.over fun _ _ h => .finish (.ite h.discardGather h.unpin))

theorem State.RingsOk.resumeRequests (h : s.RingsOk) {f} : (s.resumeRequests f).RingsOk :=
  State.RingsOk.over (.pump (.flushPba (h.over fun _ _ h => h.drainCq))) fun _ _ h => h.readCheck

theorem NextRings.execBusMasterEnableCleared (h : s.RingsOk) {fn} : NextRings (execBusMasterEnableCleared fn s) :=
  .act (.run (h.when (.ite h.frame h.frame.stopRequests)))

theorem NextRings.execBusMasterEnableSet (h : s.RingsOk) {fn} : NextRings (execBusMasterEnableSet fn s) :=
  .act (.run (h.when h.frame.resumeRequests))

theorem NextRings.execD3hotEntry (h : s.RingsOk) {fn} : NextRings (execD3hotEntry fn s) :=
  .act (.run (h.when (.ite h.frame.stopRequests h.frame)))

theorem NextRings.execD0Return (h : s.RingsOk) {fn} : NextRings (execD0Return fn s) := .act (.run (h.when h.frame.resumeRequests))

theorem State.RingsOk.entryFailed (h : s.RingsOk) {k} : (s.entryFailed k).RingsOk := by
  unfold State.entryFailed
  split
  · exact h
  · next hq => exact .ite (h.sqError (h.sq hq :)) (h.sqsBeside (h.sq hq) rfl)

theorem State.RingsOk.entriesArrived (h : s.RingsOk) {k first count b} : (s.entriesArrived k first count b).RingsOk := by
  unfold State.entriesArrived
  split
  · exact h
  · next hq => exact .via (fun h => .ite h h.acceptLoop.ltrTouch.pump) (h.sqsBeside (h.sq hq) rfl)

theorem State.RingsOk.dataArrived (h : s.RingsOk) {acc off b stored second} : (s.dataArrived acc off b stored second).RingsOk := by
  unfold State.dataArrived
  split
  · exact h
  · refine .via (fun h =>
        .ite h.transferFailed
          (.via (fun h => .ite (.updCmd (h.over fun _ _ h => h.frame)) h.frame) (h.over fun _ _ h => h.rebuilt)))
      (h.over fun _ _ h => ?_)
    split
    · exact h
    · exact h.wordFixed
    · exact h.channelWord

theorem State.RingsOk.listArrived (h : s.RingsOk) {acc off b} : (s.listArrived acc off b).RingsOk := by
  unfold State.listArrived
  split
  · exact h
  · exact .ite h.frame.afterList.pump h.frame

theorem State.RingsOk.readLost (h : s.RingsOk) {k} : (s.readLost k).RingsOk := by
  unfold State.readLost
  split
  · exact h.entryFailed
  · exact h
  · exact h.transferFailed
  · exact h.transferFailed
  · exact h.transferFailed

theorem State.RingsOk.readAnswered (h : s.RingsOk) {ep tag r cpl} : (s.readAnswered ep tag r cpl).RingsOk := by
  unfold State.readAnswered
  dsimp only
  split
  · refine .ite h.frame.pump (.ite h ?_)
    split
    · exact h.frame.entriesArrived
    · exact h.frame.shadowValue.pump
    · exact h.frame.listArrived
    · exact h.frame.dataArrived.pump
    · exact h.frame.dataArrived.pump
  · refine .ite h.frame.pump ?_
    split
    · exact .pump (.transferFailed (.ite h.frame.aer.fnEvent h.frame))
    · exact h.frame.readLost.pump
  · exact .ite h.frame.pump h.frame.readLost.pump

theorem NextRings.execHostCompletion (h : s.RingsOk) {ep tag cpl} : NextRings (execHostCompletion ep tag cpl s) := by
  refine .act (.ite h ?_)
  split
  · exact h.readAnswered.run
  · split
    · exact .ite h h.aer.fnEvent
    · exact h.aer

theorem NextRings.execCompletionTimeout (h : s.RingsOk) {ep tag} : NextRings (execCompletionTimeout ep tag s) := by
  refine .act ?_
  split
  · exact h
  · exact .ite h (.ite h.frame.pump.run h.frame.aer.fnEvent.readLost.pump.run)

theorem NextRings.execTagHoldExpiry (h : s.RingsOk) {ep tag} : NextRings (execTagHoldExpiry ep tag s) := by
  refine .act ?_
  split
  · exact h
  · exact .ite h.frame.pump h

theorem NextRings.execCoalescingTime (h : s.RingsOk) {fn ring} : NextRings (execCoalescingTime fn ring s) := by
  refine .act ?_
  split
  · exact h
  · next hc => exact .ite (.via (fun h => .ite h.sendVector h) (h.cqsBeside hc rfl)) h

theorem NextRings.execCqStall (h : s.RingsOk) {fn ring} : NextRings (execCqStall fn ring s) := .act (h.when h.stallCheck)

theorem NextRings.execStashPoolEmpty (h : s.RingsOk) : NextRings (execStashPoolEmpty s) := .act (h.when h.frame.event)

theorem NextRings.execHostLinkError (h : s.RingsOk) {ep err} : NextRings (execHostLinkError ep err s) := by
  refine .act (h.when ?_)
  split
  · exact h.aerCorrectable
  · exact h.when h.aerCorrectable
  · exact h.when h.aerCorrectable
  · exact h.aerCorrectable
  · exact h.aerCorrectable
  · exact h.aer
  · exact h.aer
  · exact h.aer
  · exact h.aer
  · exact h.when h.aer

theorem State.RingsOk.badAccess (h : s.RingsOk) {f bar len read offset} : (s.badAccess f bar len read offset).RingsOk :=
  h.aer.emit.fnEvent

theorem NextRings.execBadRegisterRead (h : s.RingsOk) {fn bar offset len} : NextRings (execBadRegisterRead fn bar offset len s) :=
  .act (h.mmio (h.when h.badAccess))

/-! ### Power loss -/

theorem State.RingsOk.discardStaged (h : s.RingsOk) {pass} : (s.discardStaged pass).RingsOk :=
  .ite h (.ite h.frame h.frame.event)

theorem State.RingsOk.hostReset (h : s.RingsOk) : s.hostReset.RingsOk := by
  unfold State.hostReset
  extract_lets s₁ silent _ _ s₂
  have h₁ : s₁.RingsOk := h.over fun _ _ h => .ite h.linkLost h.resetEp
  have h₂ : s₂.RingsOk := .frame .hostCleared
  exact h₂.frame.frame

theorem State.RingsOk.endExport (h : s.RingsOk) : s.endExport.RingsOk := .ite h.frame h

theorem NextRings.execPerstNAssert (h : s.RingsOk) : NextRings (execPerstNAssert s) :=
  .act
    (.ite h
       (.ite (.ite h.hostReset h.frame)
          (.ite h.frame.setState.dieReset
             (.ite (.ite h.endExport.hostReset h.endExport.frame)
                (.via (fun h =>
                     .ite h.clearBegun.startLehr.setState.sbCleared (.ite h.setState.dieReset h))
                   h.discardStaged.endExport.hostReset.selfTestEnds)))))

theorem NextRings.execPerstNDeassert (h : s.RingsOk) {hostBif pairSide} : NextRings (execPerstNDeassert hostBif pairSide s) :=
  .act (.ite h h.frame)

theorem State.RingsOk.gatePorts (h : s.RingsOk) : s.gatePorts.RingsOk := by
  unfold State.gatePorts
  extract_lets s₁
  have h₁ : s₁.RingsOk := h.over fun _ _ h => h.gateIsland
  clear_value s₁
  exact h₁.frame

theorem NextRings.execPowerFailStrobe (h : s.RingsOk) : NextRings (execPowerFailStrobe s) := by
  refine .act (.ite h ?_)
  dsimp only
  split
  · exact .via (fun h => .ite h.puntyActs h) (.ite h.frame.gatePorts h.frame)
  · exact .ite h.frame.startLehr h.frame

theorem NextRings.execDumpCommandFrame (h : s.RingsOk) : NextRings (execDumpCommandFrame s) := .act (.ite h h.startLehr)

theorem NextRings.execLehrSealed (h : s.RingsOk) {failed unverified} : NextRings (execLehrSealed failed unverified s) := by
  refine .act ?_
  split
  · exact .ite h h.writeDump.puntyActs
  · exact h

theorem NextRings.execLehrTimeout (h : s.RingsOk) : NextRings (execLehrTimeout s) := by
  refine .act ?_
  split
  · exact .ite h h.writeDump.setConverter.puntyActs
  · exact h

theorem NextRings.execPuntyRelease (h : s.RingsOk) : NextRings (execPuntyRelease s) := by
  refine .act ?_
  split
  · exact .ite h.dieReset h
  · exact .ite h.frame h
  · exact h

theorem NextRings.execVinMainPowerUp (h : s.RingsOk) {vinMv} : NextRings (execVinMainPowerUp vinMv s) :=
  .act (.ite h h.frame.emit.frame.converterCheck)

theorem NextRings.execSupplyFault (h : s.RingsOk) {rail high} : NextRings (execSupplyFault rail high s) := by
  refine .act (.ite h (.via (fun h => (h.frame.frame.dieReset.frame)) ?_))
  split
  · exact .ite h h.writeDump
  · exact h

/-! ### Vault rows -/

theorem State.RingsOk.commitJournal (h : s.RingsOk) : s.commitJournal.RingsOk := by
  refine .via (fun h =>
      .via (fun h => h.reclaimJournal) (h.over fun _ _ h => .ite h ?_))
    (State.RingsOk.over (State.RingsOk.over (.frame (h.over fun _ _ h => h.recCommitted)) fun _ _ h => h.frame.writeCheck)
       (fun _ _ h => ?_))
  · split
    · exact h.endWrite
    · exact h
  · split
    · exact .ite h h.issueWrites
    · exact h

theorem State.RingsOk.closeIfFull (h : s.RingsOk) {b} : (s.closeIfFull b).RingsOk := .ite h.frame h

theorem State.RingsOk.writeProgrammed (h : s.RingsOk) {acc l} : (s.writeProgrammed acc l).RingsOk := by
  unfold State.writeProgrammed
  split
  · exact h
  · exact .ite h.frame h.frame.logEntries

theorem State.RingsOk.copyProgrammed (h : s.RingsOk) {id l} : (s.copyProgrammed id l).RingsOk := by
  unfold State.copyProgrammed
  split
  · exact h
  · exact .ite h.frame.copyCopied h.frame

theorem State.RingsOk.stageDone (h : s.RingsOk) {c} : (s.stageDone c).RingsOk := .ite h.frame.finish h.frame.closeUse.event.finish

theorem State.RingsOk.firmwareProgrammed (h : s.RingsOk) {acc n} : (s.firmwareProgrammed acc n).RingsOk := by
  unfold State.firmwareProgrammed
  split
  · exact h
  · exact .ite h.frame h.frame.stageDone

theorem State.RingsOk.pageVerified (h : s.RingsOk) {sectors x} : (s.pageVerified sectors x).RingsOk := by
  unfold State.pageVerified
  split
  · exact h.frame.commitJournal
  · exact h.frame.commitMaps
  · exact h.writeProgrammed
  · exact h.copyProgrammed
  · exact h.mapFlushed
  · split
    · exact .ite h.checkpointDone h.frame
    · exact h
  · exact h.firmwareProgrammed
  · exact h.frame
  · exact h.frame
  · exact h.frame

theorem State.RingsOk.retireGo (h : s.RingsOk) : s.retireGo.RingsOk :=
  h.over fun _ _ h => .ite h (.ite h.frame.freeSource h.frame.startCopy)

theorem State.RingsOk.programFailed (h : s.RingsOk) {b} : (s.programFailed b).RingsOk := by
  refine .via (fun h => h.retireGo) (State.RingsOk.over (.ite h.frame h.frame) fun _ _ h => ?_)
  split
  · exact h.frame.vprogram
  · exact h

theorem State.RingsOk.opReply (h : s.RingsOk) {o} {f : State → State} (hf : ∀ s, s.RingsOk → (f s).RingsOk) :
    (s.opReply o f).RingsOk :=
  h.replyTo fun _ h => hf _ h

theorem State.RingsOk.opOver (h : s.RingsOk) {op} : (s.opOver op).RingsOk := h.frame

theorem State.RingsOk.programmed (h : s.RingsOk) {op b page sectors why back} : (s.programmed op b page sectors why back).RingsOk :=
  .ite (.retireGo (h.countBits.opOver.storeSectors.closeIfFull.over fun _ _ h => h.pageVerified)) h.countBits.programFailed

theorem NextRings.execVaultProgramComplete (h : s.RingsOk) {op back} : NextRings (execVaultProgramComplete op back s) := by
  refine .vaultAct ?_
  split
  · split
    · refine .ite h ?_
      split
      · exact h.opReply fun _ h => h.programFailed
      · exact .ite h (h.opReply fun _ h => h.programmed)
    · exact h
    · exact h
  · exact h

theorem State.RingsOk.refresh (h : s.RingsOk) {addr} : (s.refresh addr).RingsOk := .ite h h.frame

theorem State.RingsOk.refreshIssue (h : s.RingsOk) {n} : (refreshIssue n s).RingsOk := by
  induction n generalizing s with
  | zero => exact h
  | succ n ih =>
    rw [Sys2Proof.Machine.refreshIssue]
    split
    · exact h
    · exact .ite h (ih (.ite h.frame h.frame.startCopy))

theorem State.RingsOk.refreshGo (h : s.RingsOk) : s.refreshGo.RingsOk := h.refreshIssue

theorem State.RingsOk.patrolIssue (h : s.RingsOk) {n} : (patrolIssue n s).RingsOk := by
  delta Sys2Proof.Machine.patrolIssue
  refine State.RingsOk.brecOn (fun _ _ h => h) (fun n b ih s h => ?_) n s h
  have turn : ∀ p, (patrolIssue._f (n + 1) b { s with vault := { s.vault with patrol := p } }).RingsOk := by
    intro p
    match p with
    | none => exact h.frame
    | some [] => exact h.frame
    | some (a :: l) =>
      refine .ite h.frame ?_
      split
      exact ih _ (.issueOp (.charge (.frame h)))
  exact State.with_patrol s ▸ turn s.vault.patrol

theorem State.RingsOk.patrolGo (h : s.RingsOk) : s.patrolGo.RingsOk := h.refreshGo.patrolIssue

theorem State.RingsOk.patrolEnd (h : s.RingsOk) : s.patrolEnd.RingsOk := by
  unfold State.patrolEnd
  split
  · exact .ite h h.frame
  · exact h

theorem State.RingsOk.commandRead (h : s.RingsOk) {acc l} : (s.commandRead acc l).RingsOk := by
  unfold State.commandRead
  split <;> exact h.frame

theorem State.RingsOk.copyRead (h : s.RingsOk) {id l} : (s.copyRead id l).RingsOk := by
  unfold State.copyRead
  split
  · exact h
  · exact .ite h.frame.copyCopied (.ite h.frame h.frame.vprogram)

theorem State.RingsOk.scanBits (h : s.RingsOk) {addr} : (s.scanBits addr).RingsOk := by
  unfold State.scanBits
  split
  · split
    · exact .ite h h.countAt
    · exact h
  · exact h

theorem State.RingsOk.sectorsRead (h : s.RingsOk) {die why l} : (s.sectorsRead die why l).RingsOk := by
  unfold State.sectorsRead
  extract_lets s₁ s₂ s₃ s₄
  have h₂ : s₂.RingsOk := by
    refine h.countBits.over fun _ _ h => ?_
    split <;> exact h.frame
  have h₃ : s₃.RingsOk := by
    unfold s₃
    split
    · exact h₂.commandRead
    · exact h₂.copyRead
    · exact h₂
    · exact h₂
  have h₄ : s₄.RingsOk := by
    refine h₃.over fun _ _ h => ?_
    split
    · refine .recordsCheck (.ite ?_ h)
      split
      · exact h
      · exact h.refresh
    · exact h.scanBits.vaultLost
  exact .cullBlocks (.retireGo (.ite h₄.patrolGo.patrolEnd h₄.refreshGo))

theorem NextRings.execVaultReadComplete (h : s.RingsOk) {op reads} : NextRings (execVaultReadComplete op reads s) := by
  refine .vaultAct ?_
  split
  · split
    · exact .ite h (h.opReply fun _ h => h.frame.sectorsRead)
    · exact h
    · exact h
  · exact h

theorem NextRings.execPatrolPassStart (h : s.RingsOk) : NextRings (execPatrolPassStart s) :=
  .vaultAct (.ite h (.ite h.patrolGo.patrolEnd (.ite h h.frame.patrolGo.patrolEnd)))

theorem NextRings.execPatrolPeriodEnd (h : s.RingsOk) : NextRings (execPatrolPeriodEnd s) := by
  refine .act ?_
  split
  · exact .ite h h.frame.event
  · exact h

theorem State.RingsOk.erased (h : s.RingsOk) {l} : (s.erased l).RingsOk :=
  .via (fun h => State.RingsOk.over (.ite h h.appendMap) fun _ _ h => h.retireBlock) (h.over fun _ _ h => h.frame)

theorem NextRings.execVaultEraseComplete (h : s.RingsOk) {op ok} : NextRings (execVaultEraseComplete op ok s) := by
  refine .vaultAct ?_
  split
  · split
    · exact .ite h (h.opReply fun _ h => h.frame.erased)
    · exact h
    · exact h
  · exact h

theorem NextRings.execVaultCheckpoint (h : s.RingsOk) : NextRings (execVaultCheckpoint s) := .vaultAct (h.when h.startCheckpoint)

theorem NextRings.execWearMoveCheck (h : s.RingsOk) : NextRings (execWearMoveCheck s) := by
  refine .vaultAct (.ite h ?_)
  dsimp only
  split
  · exact h.frame
  · exact .ite h (.ite h.frame.freeSource h.frame.startCopy)

theorem State.RingsOk.emptyBlock (h : s.RingsOk) {b u'} : (s.emptyBlock b u').RingsOk :=
  .ite h (.via (fun h => .ite h.freeSource h.startCopy) (.ite h h.frame))

theorem NextRings.execGarbageCollectionStart (h : s.RingsOk) : NextRings (execGarbageCollectionStart s) := by
  refine .vaultAct (.ite h (.via (fun h => .ite ?_ h) (.ite ?_ h.frame.retireGo)))
  · split
    · exact h.emptyBlock
    · exact h
  · split
    · exact h.frame.retireGo.emptyBlock
    · exact h.frame.retireGo

theorem NextRings.execVaultBlockOpenable (h : s.RingsOk) : NextRings (execVaultBlockOpenable s) :=
  .vaultAct (.ite h (.flushOpens (h.frame.over fun _ _ h => h.programPage)))

theorem NextRings.execPercentUsedRecompute (h : s.RingsOk) : NextRings (execPercentUsedRecompute s) := .vaultAct (h.when h.percentUpdate)

theorem NextRings.execVaultRequestTimeout (h : s.RingsOk) {acc} : NextRings (execVaultRequestTimeout acc s) :=
  .vaultAct (h.when h.endVaultWrite)

/-! ### Islands -/

theorem NextRings.execFatalCondition (h : s.RingsOk) {cause island} : NextRings (execFatalCondition cause island s) :=
  .act (.ite h h.fatalInternal.run)

theorem NextRings.execRouterTimeout (h : s.RingsOk) {island} : NextRings (execRouterTimeout island s) := .act (.ite h h.fatalInternal.run)

theorem NextRings.execWatchdogExpiry (h : s.RingsOk) : NextRings (execWatchdogExpiry s) := .act (.ite h h.hbLow.frame.alert)

theorem NextRings.execHbmParityError (h : s.RingsOk) {channel} : NextRings (execHbmParityError channel s) :=
  .act (.ite h (.run (.ite h.frame.beginMapOut h.frame)))

theorem State.RingsOk.jobAbsent (h : s.RingsOk) {t' j} : (s.jobAbsent t' j).RingsOk := by
  unfold State.jobAbsent
  split
  · exact h.unpin.absorbFailed
  · split
    · exact .ite h.sendJob h.unpin
    · exact h.unpin
  · exact h

theorem State.RingsOk.tileAbsent (h : s.RingsOk) {t'} : (s.tileAbsent t').RingsOk :=
  State.RingsOk.over (.setTile (.ite h h.frame)) fun _ _ h => h.jobAbsent

theorem State.RingsOk.tileStale (h : s.RingsOk) {t'} : (s.tileStale t').RingsOk := by
  unfold State.tileStale
  split
  · exact h
  · exact h.dropStale

theorem State.RingsOk.tileReset (h : s.RingsOk) {t'} : (s.tileReset t').RingsOk :=
  .via (fun h => .ite h.frame.mapOut (.ite h.frame.beginMapOut h.frame)) h.islandDown.tileStale.tileAbsent

theorem State.RingsOk.channelReset (h : s.RingsOk) {c} : (s.channelReset c).RingsOk := by
  unfold State.channelReset
  extract_lets x s₁ s₂ _ s₃
  have h₂ : s₂.RingsOk := .ite h.islandDown.learnEpoch h.islandDown
  have h₃ : s₃.RingsOk := h₂.frame
  clear_value x
  split
  · split
    · exact h₃.programFailed
    · exact h₃
    · exact h₃
  · exact h₃

theorem State.RingsOk.sidebandDown (h : s.RingsOk) : s.sidebandDown.RingsOk :=
  .emit (.ite h.clearBegun.islandDown.dropStale h.clearBegun.islandDown)

theorem State.RingsOk.recorderDown (h : s.RingsOk) : s.recorderDown.RingsOk := .frame (h.islandDown.over fun _ _ h => h.dropStale)

theorem State.RingsOk.resetIsland (h : s.RingsOk) {i} : (s.resetIsland i).RingsOk :=
  .ite h.channelReset (.ite h.tileReset (.ite h.islandDown.frame (.ite h.recorderDown (.ite h.sidebandDown h.islandDown.frame))))

theorem State.RingsOk.queueStateBad (h : s.RingsOk) {p} : (s.queueStateBad p).RingsOk := .ite h.resetController h

theorem NextRings.execUnitDown (h : s.RingsOk) {island why} : NextRings (execUnitDown island why s) := by
  refine .vaultAct (.ite h ?_)
  split
  · exact .ite h.queueStateBad (.ite h.resetIsland h)
  · exact .ite h (.ite (.ite h.frame h.frame) (.ite h.frame h))
  · exact h

theorem State.RingsOk.unitBack (h : s.RingsOk) {i} : (s.unitBack i).RingsOk :=
  .ite h.reissueOps (.ite (.ite h.frame h) (.ite (h.frame.over fun _ _ h => h.accept) (.ite h.sbCleared.emit h)))

theorem NextRings.execUnitUp (h : s.RingsOk) {island} : NextRings (execUnitUp island s) :=
  .vaultAct
    (.ite h.lateEpochs (.via (fun h => .unitBack (.event (.ite h.frame h))) (h.lateEpochs.setIsland.when h.lateEpochs.setIsland.unitTested)))

theorem NextRings.execVaultOperationTimeout (h : s.RingsOk) {channel} : NextRings (execVaultOperationTimeout channel s) :=
  .vaultAct (.ite h.channelReset h)

theorem State.RingsOk.countDroop (h : s.RingsOk) {i deep} : (s.countDroop i deep).RingsOk := .ite h.frame h.frame

theorem NextRings.execDroopStretch50 (h : s.RingsOk) {island} : NextRings (execDroopStretch50 island s) :=
  .act (.ite h (.ite h.countDroop h.frame))

theorem NextRings.execDroopStretch25 (h : s.RingsOk) {island} : NextRings (execDroopStretch25 island s) :=
  .act (.ite h (.ite h.frame h.countDroop))

theorem NextRings.execDroopRecover (h : s.RingsOk) {island} : NextRings (execDroopRecover island s) :=
  .act (.ite h (.ite h.countDroop h.frame))

theorem NextRings.execRefclkLost (h : s.RingsOk) : NextRings (execRefclkLost s) := .act (.ite h h.frame.event.failDevice.run)

theorem NextRings.execThermalWarn (h : s.RingsOk) {island temp} : NextRings (execThermalWarn island temp s) := .act (.ite h h.frame.record)

theorem NextRings.execThermalWarnEnd (h : s.RingsOk) : NextRings (execThermalWarnEnd s) := .act (.ite h h.frame)

theorem NextRings.execThermalTrip (h : s.RingsOk) {island temp} : NextRings (execThermalTrip island temp s) :=
  .act (.ite h (.ite h.frame.failDevice.frame h.frame.failDevice.frame.dieReset))

end

end Sys2Proof.Machine
end

section
/-! PROOFS. The rings' pointers at the start and in the pair. -/

namespace Sys2Proof.Machine

open Sys2Proof

section

variable {s t u v : State}

/-! ### Start-up -/

theorem State.RingsOk.outOfReset (h : s.RingsOk) {f} : (s.outOfReset f).RingsOk := by
  unfold State.outOfReset
  exact ⟨h.sqs, h.cqs⟩

theorem State.RingsOk.startFails (h : s.RingsOk) {step trained} : (s.startFails step trained).RingsOk := h.event.failDevice

theorem State.RingsOk.mapOutUntrained (h : s.RingsOk) : s.mapOutUntrained.RingsOk := h.over fun _ _ h => h.moveShare.islandDown.mapOut

theorem State.RingsOk.countStart (h : s.RingsOk) {copies} : (s.countStart copies).RingsOk :=
  h.countAt.over fun _ _ h => h.countSegments

theorem State.RingsOk.mount (h : s.RingsOk) : s.mount.2.RingsOk := by
  unfold State.mount
  extract_lets +onlyGivenNames v copies v'
  split
  · exact h.countStart.event
  · split
    extract_lets +onlyGivenNames s₁ entries opened loose
    have h₁ : s₁.RingsOk := .ite h.event h
    split
    extract_lets +onlyGivenNames map found taken n percent v'' s₂ s₃ s₄
    have h₂ : s₂.RingsOk := h₁.frame.event
    have h₃ : s₃.RingsOk := h₂.countStart.countAt
    have h₄ : s₄.RingsOk := h₃.countSegments
    dsimp only
    exact .cullBlocks (.ite h₄ h₄.logEntries)

theorem State.RingsOk.recordAt (h : s.RingsOk) {code inst p1 p2 p3 time} : (s.recordAt code inst p1 p2 p3 time).RingsOk := h.accept

theorem State.RingsOk.powerDieReports (h : s.RingsOk) : s.powerDieReports.RingsOk := by
  unfold State.powerDieReports
  extract_lets p s₁ s₂ s₃ s₄ s₅ s₆ s₇ s₈
  have h₁ : s₁.RingsOk := h.over fun _ _ h => .ite h.accept h.holdRecord
  have h₂ : s₂.RingsOk := .ite h₁.alert h₁
  have h₃ : s₃.RingsOk := h₂.over fun _ _ h => h.frame
  have h₄ : s₄.RingsOk := h₃.over fun _ _ h => h.frame
  have h₅ : s₅.RingsOk := by
    unfold s₅
    split
    · exact h₄.event
    · exact h₄
  have h₆ : s₆.RingsOk := by
    unfold s₆
    split
    · exact h₅.record
    · exact h₅
  have h₈ : s₈.RingsOk := h₆.mirrorGauge.frame
  exact .ite h (.ite h₈ h₈.frame.storeGauge)

theorem State.RingsOk.loadImage (h : s.RingsOk) {a foreign_ known} : (s.loadImage a foreign_ known).RingsOk :=
  h.frame

theorem State.RingsOk.owedFound (h : s.RingsOk) : s.owedFound.RingsOk := h.frame

theorem State.RingsOk.regionsResume (h : s.RingsOk) : s.regionsResume.RingsOk := by
  refine h.over fun _ _ h => ?_
  dsimp only
  split
  · exact h
  · exact h
  · exact h.recompute
  · exact h.recompute
  · exact h.recompute
  · exact .ite h.abandonMove.recompute (.ite h.replaceAgain h)
  · exact .ite h.regionLost (.ite h.setCrit.updWork.replaceAgain h.setCrit.updWork.furtherLoss)

theorem State.RingsOk.undoInits (h : s.RingsOk) : s.undoInits.RingsOk :=
  h.over fun _ _ h => .noteChange (.frame (.volEvent (h.over fun _ _ h => h.updRegion)))

/-- As `State.RingsOk.moveFrame`, the definition is unfolded as a function. -/
theorem State.RingsOk.restoreFrame (h : s.RingsOk) {x} : (s.restoreFrame x).RingsOk := by
  have hdef : State.restoreFrame = State.restoreFrame := rfl
  conv at hdef => rhs; delta State.restoreFrame
  rw [hdef]
  beta_reduce
  extract_lets +onlyGivenNames old copy data f
  split
  · exact h
  · next n t ht =>
    have ht : t.RingsOk := h.takeFrame ht
    extract_lets s₁ s₂
    have h₁ : s₁.RingsOk := .ite ht ht.chainIn
    have h₂ : s₂.RingsOk := h₁.frame
    exact .ite (.ite h₂.volEvent h₂) (.ite h₂.freeFrame h₂.blockLost)

theorem State.RingsOk.restoreEntries (h : s.RingsOk) {l} : (s.restoreEntries l).RingsOk := by
  refine h.over fun s x h => .ite h ?_
  extract_lets n run slot t
  split
  next id s₁ hs =>
    have h₁ : s₁.RingsOk := .ofSnd hs h.frame
    extract_lets s₂ _ s₃
    have h₂ : s₂.RingsOk := by
      unfold s₂
      clear_value run
      split
      · exact h₁.frame
      · exact h₁
    have h₃ : s₃.RingsOk := h₂.frame
    clear_value slot
    split
    · exact h₃.frame
    · exact h₃

theorem State.RingsOk.restore (h : s.RingsOk) {frames parisons entries} : (s.restore frames parisons entries).RingsOk :=
  State.RingsOk.over (.restoreEntries (State.RingsOk.over (h.over fun _ _ h => h.restoreFrame) fun _ _ h => h.frame))
    (fun _ _ h => h.absorbStripe)

theorem State.RingsOk.scanJournal (h : s.RingsOk) : s.scanJournal.RingsOk := by
  refine .via (fun h => h.countSegments.frame) ?_
  split
  · exact h.event
  · exact h

theorem State.RingsOk.replayBlock (h : s.RingsOk) {q r k} : (s.replayBlock q r k).RingsOk := by
  unfold State.replayBlock
  extract_lets lba old skip s₁
  have h₁ : s₁.RingsOk := by
    unfold s₁
    clear_value old
    split
    · exact h.freeFrame
    · exact h
  refine .ite h ?_
  split
  · exact h₁
  · next ht => exact (h₁.takeFrame ht).chainIn.noteGen.frame

theorem State.RingsOk.replayWrites (h : s.RingsOk) : s.replayWrites.RingsOk :=
  h.over fun _ _ h => h.noteRefs.frame.over fun _ _ h => h.replayBlock

theorem State.RingsOk.replayChain (h : s.RingsOk) {c} : (s.replayChain c).RingsOk := by
  unfold State.replayChain
  split
  · exact h
  · exact .via (fun h => .ite h.queueRetire h.freeAll.newTask) (h.frame.over fun _ _ h => h.frame)

theorem State.RingsOk.replay (h : s.RingsOk) : s.replay.RingsOk := h.replayWrites.queueRetire.over fun _ _ h => h.replayChain

theorem State.RingsOk.countersResume (h : s.RingsOk) : s.countersResume.RingsOk := h.frame

theorem State.RingsOk.beginReplay (h : s.RingsOk) : s.beginReplay.RingsOk :=
  .startProgress (.frame (.countersResume (.replay (.ite h h.scanJournal))))

theorem State.RingsOk.countersSaved (h : s.RingsOk) : s.countersSaved.RingsOk := by
  unfold State.countersSaved
  split
  · exact h
  · exact h.resumeCounters

theorem State.RingsOk.findDump (h : s.RingsOk) {d} : (s.findDump d).2.RingsOk := .iteSnd h.countSegments.recordAt h.countSegments.event

theorem State.RingsOk.reportReleased (h : s.RingsOk) : s.reportReleased.RingsOk := by
  unfold State.reportReleased
  extract_lets held _ s₁
  have h₁ : s₁.RingsOk := h.frame.over fun _ _ h => h.accept
  split
  · exact h₁.frame.event
  · exact h₁

theorem State.RingsOk.findDumps (h : s.RingsOk) : s.findDumps.RingsOk := by
  unfold State.findDumps
  extract_lets s₁
  have h₁ : s₁.RingsOk := by
    unfold s₁
    split
    · split
      next hs => exact .ofSnd hs h.findDump
      next hs => exact .releaseDump (.ofSnd hs h.findDump)
    · exact h
  clear_value s₁
  split
  · exact h₁.findDump.frame.releaseBlocks
  · exact h₁

theorem State.RingsOk.releaseJournal (h : s.RingsOk) : s.releaseJournal.RingsOk := h.frame

theorem State.RingsOk.holdDump (h : s.RingsOk) : s.holdDump.RingsOk := h.frame

theorem State.RingsOk.labelsNow (h : s.RingsOk) : s.labelsNow.RingsOk := by
  unfold State.labelsNow
  split
  · exact .ite h.frame.writeLabels h
  · exact h

theorem State.RingsOk.stepEight (h : s.RingsOk) : s.stepEight.RingsOk :=
  .ite h.labelsNow.beginReplay h.setState.undoInits.regionsResume.assignLogs.beginReplay

theorem State.RingsOk.afterDrives (h : s.RingsOk) : s.afterDrives.RingsOk := .ite h.stepEight h.frame

theorem State.RingsOk.startOwn (h : s.RingsOk) : s.startOwn.RingsOk := by
  unfold State.startOwn
  refine .afterDrives ?_
  split
  · next d hd =>
    extract_lets s₁ _ _ _ s₂ s₃
    have h₂ : s₂.RingsOk := h.setState.frame
    have h₃ : s₃.RingsOk := h₂.resumeCounters.restore
    exact h₃.event
  · exact h.countersSaved

theorem State.RingsOk.preemptAll (h : s.RingsOk) : s.preemptAll.RingsOk := h.frame.over fun _ _ h => h.preempt

theorem State.RingsOk.takeLabels (h : s.RingsOk) {partner} : (s.takeLabels partner).RingsOk := h.writeLabels

theorem State.RingsOk.beginTakeover (h : s.RingsOk) {a partner} : (s.beginTakeover a partner).RingsOk := by
  unfold State.beginTakeover
  split
  · exact h
  · exact .via (fun h =>
        .emit (.assignLogs (.regionsResume (.undoInits (.ite h.countersSaved h.takeLabels)))))
      h.setState.frame.preemptAll.loadImage.owedFound

theorem State.RingsOk.rebaseJournal (h : s.RingsOk) {l} : (s.rebaseJournal l).RingsOk := by
  unfold State.rebaseJournal
  dsimp only
  split
  · exact h.releaseDump.releaseJournal.frame.startCheckpoint
  · exact .startCheckpoint (.flushOpens (h.releaseDump.releaseJournal.frame.over fun _ _ h => h.programPage))

theorem State.RingsOk.settleEvent (h : s.RingsOk) : s.settleEvent.RingsOk := h.event

theorem State.RingsOk.takeoverGo (h : s.RingsOk) {x} : (s.takeoverGo x).RingsOk := by
  unfold State.takeoverGo
  split
  · exact h
  · exact h.frame.rebaseJournal.settleEvent.frame.resumeCounters.restore.afterDrives
  · exact h.rebaseJournal.settleEvent.checkMarked.event.frame.afterDrives

theorem State.RingsOk.foreignArray (h : s.RingsOk) {l} : (s.foreignArray l).RingsOk := by
  unfold State.foreignArray
  dsimp only
  split
  · exact h.frame.event.raisePfs.setState.frame.event.holdDump
  · exact h.frame.event.raisePfs.holdDump

theorem State.RingsOk.standby (h : s.RingsOk) {l} : (s.standby l).RingsOk :=
  .setState (.frame (.ite h.releaseDump.releaseJournal h.frame))

theorem State.RingsOk.byLabel (h : s.RingsOk) {a} : (s.byLabel a).RingsOk := by
  unfold State.byLabel
  extract_lets own s₁ foreign_ waiting
  have h₁ : s₁.RingsOk := .ite h.frame h.frame
  have hforeign : (foreign_ s₁).RingsOk := h₁.frame
  split
  · split
    · exact .ite h₁.startOwn h₁.setState.holdDump.frame.startProgress
    · exact h₁.setState.holdDump.frame.startProgress
  · exact .ite (.ite h₁.beginTakeover h₁.startOwn) (.ite hforeign.standby hforeign.foreignArray)

theorem State.RingsOk.startBackEnd (h : s.RingsOk) {f} : (s.startBackEnd f).RingsOk :=
  .ite h.mapOutUntrained.frame.mount.startFails h.mapOutUntrained.frame.mount.powerDieReports.govRestore.reportReleased.findDumps.byLabel

theorem NextRings.execLogicDieResetExit (h : s.RingsOk) {found} : NextRings (execLogicDieResetExit found s) := by
  refine .vaultAct (.ite h ?_)
  extract_lets lost keep s₁ s₂ s₃ s₄ _ s₅
  have h₁ : s₁.RingsOk := .outOfReset (.ite h.setState h)
  have h₂ : s₂.RingsOk := .ite h₁ h₁.sbCleared
  have h₃ : s₃.RingsOk := h₂.frame
  have h₄ : s₄.RingsOk := .ite h₃ h₃.event
  have h₅ : s₅.RingsOk := by
    unfold s₅
    split
    · exact h₄.startFails
    · exact .via (fun h => .ite h.startFails h.startBackEnd) (.ite h₄.frame h₄.frame.event)
  exact .ite h₅.fence h₅

theorem State.RingsOk.takeoverDone (h : s.RingsOk) : s.takeoverDone.RingsOk := by
  unfold State.takeoverDone
  split
  · exact h
  · exact h.writeLabels.volumesAttached.emit.event.raisePfs.frame

theorem State.RingsOk.removeMissing (h : s.RingsOk) : s.removeMissing.RingsOk :=
  h.over fun _ _ h => .ite h.frame (.ite h h.frame.event)

theorem NextRings.execStartupReady (h : s.RingsOk) : NextRings (execStartupReady s) :=
  .vaultAct
    (.ite h
       (.via (fun h =>
            .via (fun h => .ite h h.takeoverDone.frame.setState.reclaimJournal.govStart.event) (.ite h.stepEight.run h))
          (.ite h h.removeMissing.run)))

/-! ### The pair -/

theorem NextRings.execPairHeartbeat (h : s.RingsOk) {partner} : NextRings (execPairHeartbeat partner s) := .act (.ite h h.frame)

theorem NextRings.execPartnerLost (h : s.RingsOk) : NextRings (execPartnerLost s) := .act (.ite h h.frame.event.raisePfs)

theorem NextRings.execPairHeartbeatSend (h : s.RingsOk) : NextRings (execPairHeartbeatSend s) := .act (.ite h h.frame)

theorem NextRings.execArbHbToggle (h : s.RingsOk) : NextRings (execArbHbToggle s) := .act (.ite h h.frame.emit)

theorem NextRings.execArbFenceAssert (h : s.RingsOk) : NextRings (execArbFenceAssert s) := .act h.frame.fence

theorem NextRings.execArbFenceRelease (h : s.RingsOk) : NextRings (execArbFenceRelease s) :=
  .act (.ite h.frame h.frame.setState.dieReset)

theorem State.RingsOk.takeIgnored (h : s.RingsOk) {st unbound} : (s.takeIgnored st unbound).RingsOk := .ite h.event h.frame

theorem NextRings.execArbTakeAssert (h : s.RingsOk) {drives} : NextRings (execArbTakeAssert drives s) := by
  refine .vaultAct (.ite h (.ite h.takeIgnored (.ite h (.ite h.takeIgnored (.ite ?_ h)))))
  split
  · exact .ite h.beginTakeover h.takeIgnored
  · exact h.takeIgnored

theorem NextRings.execFenceDrainTimeout (h : s.RingsOk) : NextRings (execFenceDrainTimeout s) := by
  refine .act ?_
  split
  · exact h
  · exact .ite h (.gatePorts (h.over fun _ _ h => h.frame))

theorem NextRings.execExportRequest (h : s.RingsOk) : NextRings (execExportRequest s) := by
  refine .act ?_
  split
  · exact h
  · exact .ite h h.frame

theorem State.RingsOk.releaseHeld (h : s.RingsOk) : s.releaseHeld.RingsOk := h.releaseDump.releaseJournal.frame

theorem NextRings.execRelease (h : s.RingsOk) : NextRings (execRelease s) := .act (.ite h.releaseHeld h)

theorem NextRings.execExportWait (h : s.RingsOk) : NextRings (execExportWait s) := by
  refine .vaultAct ?_
  split
  · exact h
  · exact .ite h h.event.takeoverGo

theorem NextRings.execDumpImport (h : s.RingsOk) {theSeal content} : NextRings (execDumpImport theSeal content s) := by
  refine .vaultAct ?_
  split
  · exact h
  · exact .ite h.event.takeoverGo h.event.takeoverGo

theorem NextRings.execPairingLinkFailure (h : s.RingsOk) : NextRings (execPairingLinkFailure s) := by
  refine .vaultAct ?_
  split
  · exact h
  · exact .ite h.frame.emit h.event.takeoverGo

theorem NextRings.execChangeLogFlush (h : s.RingsOk) : NextRings (execChangeLogFlush s) :=
  .act (.ite h (.run (h.frame.over fun _ _ h => h.metaStart)))

theorem NextRings.execMetadataCheckpoint (h : s.RingsOk) : NextRings (execMetadataCheckpoint s) := .act (.ite h.metadataCheckpoint h)

theorem NextRings.execBitmapRewrite (h : s.RingsOk) : NextRings (execBitmapRewrite s) := .act (.ite h h.frame.metaStart.run)

theorem State.RingsOk.pairBound (h : s.RingsOk) {op partner} : (s.pairBound op partner).RingsOk := h.event

theorem NextRings.execPairBind (h : s.RingsOk) {acc} : NextRings (execPairBind acc s) := by
  refine .act (h.start fun _ => ?_)
  split
  · exact h.check h.writeLabels.pairBound.finish
  · exact h.finish

theorem NextRings.execPairUnbind (h : s.RingsOk) {acc} : NextRings (execPairUnbind acc s) :=
  .act (h.start fun _ => h.check h.writeLabels.pairBound.finish)

theorem NextRings.execPairDiscardDump (h : s.RingsOk) {acc} : NextRings (execPairDiscardDump acc s) :=
  .act (h.start fun _ => .finish (.pairBound (.ite h.releaseHeld h)))

theorem State.RingsOk.importState (h : s.RingsOk) : s.importState.RingsOk := .ite h.setState.frame h

theorem NextRings.execArrayImport (h : s.RingsOk) {acc} : NextRings (execArrayImport acc s) := by
  refine .vaultAct (h.start fun c => ?_)
  extract_lets discard s₁ a _
  split
  · exact h.finish
  · refine h.check ?_
    extract_lets s₂ s₃ s₄ s₅ s₆
    have h₁ : s₁.RingsOk := .ite h.releaseHeld h
    have h₂ : s₂.RingsOk := h₁.frame
    have h₃ : s₃.RingsOk := h₂.preemptAll.loadImage.owedFound
    have h₄ : s₄.RingsOk := h₃.importState
    have h₅ : s₅.RingsOk := h₄.writeLabels.undoInits
    have h₆ : s₆.RingsOk := h₅.regionsResume.assignLogs.settleEvent
    split
    next marked vols s₇ hs =>
      have h₇ : s₇.RingsOk := .ofSndSnd hs h₆.checkMarked
      extract_lets s₈ s₉
      have h₉ : s₉.RingsOk := h₇.event.updCmd
      exact h₉.frame.importProgress

end

end Sys2Proof.Machine
end

section
/-! PROOFS. The rings' pointers in the commands of the host. -/

namespace Sys2Proof.Machine

open Sys2Proof

section

variable {s t u v : State}

/-! ### Commands that manage -/

theorem State.RingsOk.applyItem (h : s.RingsOk) {x} : (s.applyItem x).RingsOk := by
  cases x with
  | template => exact h.frame
  | templateDelete => exact h.frame
  | pool => exact h.frame
  | poolDelete => exact h.frame
  | expand => exact h.frame
  | governor => exact h
  | pack => exact h

theorem State.RingsOk.stageItem (h : s.RingsOk) {c x} : (s.stageItem c x).RingsOk := h.check h.frame.finish

theorem NextRings.execTemplateDefine (h : s.RingsOk) {acc} : NextRings (execTemplateDefine acc s) := by
  refine .act (h.start fun _ => ?_)
  split
  · exact h.finish
  · exact h.stageItem

theorem NextRings.execTemplateDelete (h : s.RingsOk) {acc} : NextRings (execTemplateDelete acc s) := .act (h.start fun _ => h.stageItem)

theorem NextRings.execPoolCreate (h : s.RingsOk) {acc} : NextRings (execPoolCreate acc s) :=
  .act (h.start fun _ => .stageItem (.ite h.frame h))

theorem NextRings.execPoolDelete (h : s.RingsOk) {acc} : NextRings (execPoolDelete acc s) := .act (h.start fun _ => h.stageItem)

theorem NextRings.execPoolExpand (h : s.RingsOk) {acc} : NextRings (execPoolExpand acc s) := .act (h.start fun _ => h.stageItem)

theorem NextRings.execPoolExpandSpare (h : s.RingsOk) {acc} : NextRings (execPoolExpandSpare acc s) := .act (h.start fun _ => h.stageItem)

theorem State.RingsOk.stageConfig (h : s.RingsOk) {c len item} : (s.stageConfig c len item).RingsOk := by
  refine .ite h.finish (.ite h.finish ?_)
  split
  · exact h.stageItem
  · exact h.finish

theorem NextRings.execConfigStageGovernor (h : s.RingsOk) {acc} : NextRings (execConfigStageGovernor acc s) :=
  .act (h.start fun _ => .ite h (.ite h.finish h.stageConfig))

theorem NextRings.execConfigStagePack (h : s.RingsOk) {acc} : NextRings (execConfigStagePack acc s) :=
  .act (h.start fun _ => .ite h h.stageConfig)

theorem NextRings.execConfigDiscard (h : s.RingsOk) {acc} : NextRings (execConfigDiscard acc s) := .act (h.start fun _ => h.frame.event.finish)

theorem NextRings.execDeviceStop (h : s.RingsOk) {acc} : NextRings (execDeviceStop acc s) :=
  .act (h.start fun _ => .ite h.finish (.settleWaits (.updCmd (.ite h.setState h))))

theorem State.RingsOk.holdMember (h : s.RingsOk) {p} : (s.holdMember p).RingsOk := .ite h h.frame

theorem State.RingsOk.freeDrive (h : s.RingsOk) {p} : (s.freeDrive p).RingsOk := .ite h h.frame

theorem State.RingsOk.arrayLabel (h : s.RingsOk) : s.arrayLabel.RingsOk := .ite h.frame (.ite h h.frame)

theorem State.RingsOk.applyNow (h : s.RingsOk) {x} : (s.applyNow x).RingsOk := by
  unfold State.applyNow
  split
  · exact h.applyItem
  · exact h.applyItem
  · exact State.RingsOk.over (.noteChange (.applyItem (h.over fun _ _ h => h.noteChange))) fun _ _ h => h.holdMember
  · exact .noteChange (.applyItem (h.over fun _ _ h => h.freeDrive.noteChange))
  · exact .spareCheck
      (State.RingsOk.over (State.RingsOk.over (.applyItem (h.over fun _ _ h => h.noteChange)) fun _ _ h => h.event)
         (fun _ _ h => h.holdMember))
  · exact h.govStructure
  · exact h.declare

theorem State.RingsOk.startSaves (h : s.RingsOk) : s.startSaves.RingsOk := h.frame.startCheckpoint.metadataCheckpoint.saveSeries

theorem NextRings.execDeviceStart (h : s.RingsOk) {acc} : NextRings (execDeviceStart acc s) := by
  refine .vaultAct (h.start fun _ => ?_)
  dsimp only
  split
  · exact h.finish
  · exact .finishLogged
      (.setState
         (.ite h.startSaves
            (.record (.startSaves (.writeLabels (.writeConfig (.bringLogs (.frame (.arrayLabel (h.over fun _ _ h => h.applyNow))))))))))

theorem State.RingsOk.zeroStripe (h : s.RingsOk) {acc vol r stripe} : (s.zeroStripe acc vol r stripe).RingsOk := h.newTask

theorem NextRings.execVolumeCreateArray (h : s.RingsOk) {acc} : NextRings (execVolumeCreateArray acc s) := by
  refine .act (.run (h.start fun c => ?_))
  extract_lets +onlyGivenNames e id t p capacity
  refine .ite h.finish ?_
  split
  · exact h.finish
  · exact h.finish
  · refine .ite h.finish ?_
    extract_lets +onlyGivenNames per n limit free
    split
    · exact h.finish
    · refine .ite h.finish ?_
      extract_lets +onlyGivenNames s₁ v s₂ k s₃
      have h₁ : s₁.RingsOk := h.over fun _ _ h => h.updRegion
      have h₃ : s₃.RingsOk := h₁.frame.noteVolume.updCmd
      exact h₃.over fun _ _ h => h.over fun _ _ h => h.zeroStripe

theorem NextRings.execVolumeCreateVault (h : s.RingsOk) {acc} : NextRings (execVolumeCreateVault acc s) :=
  .act (.run (h.start fun _ => h.check h.frame.volEvent.finish))

theorem NextRings.execVolumeDelete (h : s.RingsOk) {acc} : NextRings (execVolumeDelete acc s) := by
  refine .vaultAct (h.start fun _ => ?_)
  dsimp only
  split
  · exact h.finish
  · exact .ite h.finish h.frame

theorem NextRings.execVolumeAttach (h : s.RingsOk) {acc} : NextRings (execVolumeAttach acc s) := by
  refine .act (.run (h.start fun _ => .ite h.finish ?_))
  split
  · exact h.finish
  · exact .ite h.finish (.ite h.finish (.ite h.finish h.frame.noteVolume.volEvent.finishLogged))

theorem NextRings.execVolumeDetach (h : s.RingsOk) {acc} : NextRings (execVolumeDetach acc s) := by
  refine .act (.run (h.start fun _ => ?_))
  dsimp only
  split
  · exact h.finish
  · exact .ite h.finish h.frame.settleWaits.dropStreams

theorem NextRings.execMemberFail (h : s.RingsOk) {acc} : NextRings (execMemberFail acc s) :=
  .act (.run (h.start fun _ => h.check h.failMember.finishLogged))

theorem NextRings.execMemberReplaceCopyback (h : s.RingsOk) {acc} : NextRings (execMemberReplaceCopyback acc s) :=
  .act (.run (h.start fun _ => h.check h.frame.memberTo.holdMember.copybackCheck.finishLogged))

theorem NextRings.execMemberReplaceJoin (h : s.RingsOk) {acc} : NextRings (execMemberReplaceJoin acc s) := by
  refine .act (.run (h.start fun c => h.check ?_))
  extract_lets pool s₁ s₂
  have h₁ : s₁.RingsOk := h.frame
  have h₂ : s₂.RingsOk := h₁.noteChange.noteChange.holdMember
  exact h₂.frame.assignLogs.writeLabels.spareCheck.finishLogged

theorem State.RingsOk.setPaused (h : s.RingsOk) {c on} : (s.setPaused c on).RingsOk := h.check h.frame.finish

theorem NextRings.execRebuildPause (h : s.RingsOk) {acc} : NextRings (execRebuildPause acc s) := .act (.run (h.start fun _ => h.setPaused))

theorem NextRings.execRebuildResume (h : s.RingsOk) {acc} : NextRings (execRebuildResume acc s) := .act (.run (h.start fun _ => h.setPaused))

theorem NextRings.execRebuildPromote (h : s.RingsOk) {acc} : NextRings (execRebuildPromote acc s) :=
  .act (.run (h.start fun _ => .finish (.ite h.frame h)))

theorem NextRings.execRebuildRetry (h : s.RingsOk) {acc} : NextRings (execRebuildRetry acc s) :=
  .act (.run (h.start fun _ => .finish (.ite h.frame h)))

theorem NextRings.execConsistencyCheck (h : s.RingsOk) {acc} : NextRings (execConsistencyCheck acc s) :=
  .act (.run (h.start fun _ => h.check (.finish (h.over fun _ _ h => h.updRegion.updWork))))

/-! ### Commands that read and write -/

theorem State.RingsOk.gather (h : s.RingsOk) {c} : (s.gather c).RingsOk := .ite h.takeFrames.updCmd.pump h.takeFrames.updCmd.tryCommit

theorem State.RingsOk.gatherOrWait (h : s.RingsOk) {c} : (s.gatherOrWait c).RingsOk := .ite h.gather h.frame

theorem State.RingsOk.startWrite (h : s.RingsOk) {c} : (s.startWrite c).RingsOk := .ite h.finish h.gatherOrWait

theorem State.RingsOk.startZeroes (h : s.RingsOk) {c} : (s.startZeroes c).RingsOk :=
  .ite (.ite h.finish (.ite h.frame h.frame.logEntries)) h.gatherOrWait

theorem State.RingsOk.vaultCommit (h : s.RingsOk) {c} : (s.vaultCommit c).RingsOk :=
  .ite h (.ite h.endVaultWrite (.ite h.frame.vprogram h.frame.logEntries))

theorem State.RingsOk.lookBlock (h : s.RingsOk) {acc vol v' lba} : (s.lookBlock acc vol v' lba).2.RingsOk := by
  refine .iteSnd h ?_
  split
  · exact h
  · refine .iteSnd h.frame (.via (fun h => .iteSnd (.iteSnd h.rebuilt.freeFrame h.rebuilt.supersede) ?_) ?_)
    · split
      · exact h.recoverFrame
      · exact h.dropBlock
    · split
      · exact .ite h.markedExit h
      · exact h

theorem State.RingsOk.attachFills (h : s.RingsOk) {c fs} : (s.attachFills c fs).RingsOk := by
  refine h.over fun _ _ h => .ite h.frame ?_
  split <;> exact h.frame

theorem State.RingsOk.lookupArray (h : s.RingsOk) {c v'} : (s.lookupArray c v').RingsOk :=
  .via (fun h =>
      .via (fun h => .later (.ite h.noteStream h)) (.ite h.frame.attachFills h.frame.attachFills.startFill))
    (h.frame.foldlSnd fun _ _ h => h.lookBlock)

theorem State.RingsOk.lookupVault (h : s.RingsOk) {c} : (s.lookupVault c).RingsOk := h.frame.startReads.later

theorem State.RingsOk.lookup (h : s.RingsOk) {acc} : (s.lookup acc).RingsOk := by
  unfold State.lookup
  split
  · exact h
  · refine .ite h ?_
    split
    · exact h
    · exact .ite h.lookupVault (.ite h.lookupArray h)

theorem State.RingsOk.startRead (h : s.RingsOk) {c} : (s.startRead c).RingsOk := h.frame.lookup

theorem NextRings.execRead (h : s.RingsOk) {acc} : NextRings (execRead acc s) := .act (.run (h.start fun _ => h.startRead))

theorem NextRings.execVerify (h : s.RingsOk) {acc} : NextRings (execVerify acc s) := .act (.run (h.start fun _ => h.startRead))

theorem NextRings.execWrite (h : s.RingsOk) {acc} : NextRings (execWrite acc s) := .act (.run (h.start fun _ => h.startWrite))

theorem NextRings.execWriteZeroes (h : s.RingsOk) {acc} : NextRings (execWriteZeroes acc s) := .act (.run (h.start fun _ => h.startZeroes))

theorem NextRings.execDeallocate (h : s.RingsOk) {acc} : NextRings (execDeallocate acc s) := .act (.run (h.start fun _ => h.startZeroes))

theorem NextRings.execFlush (h : s.RingsOk) {acc} : NextRings (execFlush acc s) :=
  .act (.run (h.start fun _ => .ite h.frame.settleWaits h.frame.writeCheck))

theorem NextRings.execGatherFramesAvailable (h : s.RingsOk) : NextRings (execGatherFramesAvailable s) := by
  refine .act (.run ?_)
  split
  · exact .ite h.gather h
  · exact h

theorem NextRings.execWriteCommit (h : s.RingsOk) {acc} : NextRings (execWriteCommit acc s) := by
  refine .act (.run ?_)
  split
  · exact .ite h (.ite h.vaultCommit h.tryCommit)
  · exact h

theorem NextRings.execReadLookup (h : s.RingsOk) {acc} : NextRings (execReadLookup acc s) := .act h.lookup.run

theorem NextRings.execAbort (h : s.RingsOk) {acc} : NextRings (execAbort acc s) := by
  refine .act (.run (h.start fun _ => ?_))
  split
  · exact h.finish
  · exact .ite h.freeAll.finish.finish h.finish

/-! ### Service commands -/

theorem State.RingsOk.startTest (h : s.RingsOk) {c kind} : (s.startTest c kind).RingsOk :=
  h.check (.testStep (.finish (h.frame.over fun _ _ h => h.askIdentify)))

theorem NextRings.execSelfTestShort (h : s.RingsOk) {acc} : NextRings (execSelfTestShort acc s) := .act (h.start fun _ => h.startTest)

theorem NextRings.execSelfTestExtended (h : s.RingsOk) {acc} : NextRings (execSelfTestExtended acc s) := .act (h.start fun _ => h.startTest)

theorem NextRings.execSelfTestAbort (h : s.RingsOk) {acc} : NextRings (execSelfTestAbort acc s) :=
  .act (h.start fun _ => h.selfTestEnds.finish)

theorem State.RingsOk.unitFails (h : s.RingsOk) {i} : (s.unitFails i).RingsOk :=
  .via (fun h => .selfTestEnds (.ite h.beginMapOut h)) (.ite h.frame h.frame)

theorem NextRings.execSelfTestComplete (h : s.RingsOk) {failed} : NextRings (execSelfTestComplete failed s) := by
  refine .act (.ite h ?_)
  split
  · exact h.unitFails.run
  · exact .ite h.selfTestEnds h

theorem State.RingsOk.stageWrite (h : s.RingsOk) {c} : (s.stageWrite c).RingsOk :=
  .via (fun h => .ite h.frame.stageDone h.frame.vprogram) (.ite h.frame.closeUse.cullBlocks h.frame)

theorem NextRings.execFwStage (h : s.RingsOk) {acc} : NextRings (execFwStage acc s) := .act (h.start fun _ => .ite h.finish h.stageWrite)

theorem NextRings.execFwActivate (h : s.RingsOk) {acc} : NextRings (execFwActivate acc s) :=
  .act (h.start fun _ => h.check h.frame.event.finish)

theorem NextRings.execEventRead (h : s.RingsOk) {acc} : NextRings (execEventRead acc s) :=
  .act (h.start fun _ => .ite h (.finish (.ite h h.hostWrite)))

theorem NextRings.execEventClear (h : s.RingsOk) {acc} : NextRings (execEventClear acc s) :=
  .act (h.start fun _ => .ite h (.ite h.clearRecords.finish h.frame.finish))

theorem NextRings.execHistogramRead (h : s.RingsOk) {acc} : NextRings (execHistogramRead acc s) := .act (h.start fun _ => .ite h h.reply)

theorem State.RingsOk.lifeSnapshot (h : s.RingsOk) : s.lifeSnapshot.RingsOk :=
  State.RingsOk.over (.ite h.frame h.frame) fun _ _ h => h.frame

theorem NextRings.execHistogramIntervalEnd (h : s.RingsOk) : NextRings (execHistogramIntervalEnd s) :=
  .vaultAct (.ite h h.frame.lifeSnapshot.saveSeries)

theorem NextRings.execHistogramSample (h : s.RingsOk) {sample} : NextRings (execHistogramSample sample s) :=
  .act (.ite h h.frame.countLife.countLife.countLife.countLife.countLife.countLife.countLife.countLife)

theorem State.RingsOk.blockUnnamed (h : s.RingsOk) : s.blockUnnamed.RingsOk := h.over fun _ _ h => h.addLoss

theorem State.RingsOk.gatherBad (h : s.RingsOk) {f} : (s.gatherBad f).RingsOk := by
  unfold State.gatherBad
  split
  · exact h
  · exact .ite h.transferFailed h.frame.pump

theorem State.RingsOk.dirtyBad (h : s.RingsOk) {f x} : (s.dirtyBad f x).RingsOk := by
  refine .ite h ?_
  dsimp only
  split
  · exact h.frame.recoverFrame
  · exact h.frame.dropBlock

theorem State.RingsOk.frameRebuilt (h : s.RingsOk) {f} : (s.frameRebuilt f).RingsOk := by
  unfold State.frameRebuilt
  split
  · exact h
  · split
    · exact h.supersede
    · exact h.freeFrame
    · exact h.gatherBad
    · exact h.dirtyBad
    · exact h.dirtyBad
    · exact .ite h.dirtyBad h
    · exact h

theorem State.RingsOk.structureRebuilt (h : s.RingsOk) {area index} : (s.structureRebuilt area index).RingsOk := by
  unfold State.structureRebuilt
  dsimp only
  split
  · exact h.frame.frameRebuilt
  · exact .ite h.frame.regionLost h.frame
  · exact h.frame.closeParison
  · split
    · split
      · exact h.frame.frameRebuilt
      · exact h.frame.frameRebuilt
      · exact h.frame.frameRebuilt
      · exact .ite h.frame.freeFrame h.frame
      · exact h.frame
    · exact h.frame
  · exact h.frame

theorem State.RingsOk.foundBy (h : s.RingsOk) {code p1 p2 p3} : (s.foundBy code p1 p2 p3).RingsOk :=
  .ite h
    (.ite h.countFixed
       (.ite (.run (.ite h.frame.channelWindow h.frame))
          (.ite h.frame (.ite h.structureRebuilt.run (.ite h.alert (.ite h.blockUnnamed.run h))))))

theorem NextRings.execRecordAccept (h : s.RingsOk) {code src p1 p2 p3} : NextRings (execRecordAccept code src p1 p2 p3 s) :=
  .act (.ite h h.foundBy.record)

theorem NextRings.execRecorderCommit (h : s.RingsOk) : NextRings (execRecorderCommit s) := .vaultAct (.ite h h.frame.vprogram)

theorem NextRings.execOperatingSecondsSave (h : s.RingsOk) : NextRings (execOperatingSecondsSave s) :=
  .vaultAct (.ite h h.frame.vprogram)

theorem NextRings.execClockSet (h : s.RingsOk) {acc} : NextRings (execClockSet acc s) := .act (h.start fun _ => h.frame.event.finish)

end

end Sys2Proof.Machine
end

section
/-! PROOFS. The rings' pointers in the rows of destage, rebuild, registers and sideband. -/

namespace Sys2Proof.Machine

open Sys2Proof

section

variable {s t u v : State}

/-! ### Destage rows -/

theorem NextRings.execStripeInterlockGrant (h : s.RingsOk) {region stripe} : NextRings (execStripeInterlockGrant region stripe s) :=
  .act (.ite h h.grantLock.run)

theorem NextRings.execDestageStart (h : s.RingsOk) : NextRings (execDestageStart s) := .act h.destageNext.run

theorem NextRings.execDestageAgeLimit (h : s.RingsOk) {region stripe} : NextRings (execDestageAgeLimit region stripe s) :=
  .act (.ite h h.frame.run)

theorem State.RingsOk.tryRoom (h : s.RingsOk) {id} : (s.tryRoom id).RingsOk := by
  unfold State.tryRoom
  split
  · exact h
  · split
    · exact .ite h.toFull h.beginDestage
    · exact h.startRedestage
    · exact h.beginRepair

theorem NextRings.execDestageEntryFreed (h : s.RingsOk) : NextRings (execDestageEntryFreed s) :=
  .act (.ite h (.run (h.over fun _ _ h => h.tryRoom)))

theorem NextRings.execStagingRunFreed (h : s.RingsOk) : NextRings (execStagingRunFreed s) :=
  .act (.ite h (.run (h.over fun _ _ h => h.tryRoom)))

theorem NextRings.execCommitStall (h : s.RingsOk) : NextRings (execCommitStall s) := by
  refine .act ?_
  split
  · exact h
  · exact .ite h h.frame.event

theorem NextRings.execReclaimSweep (h : s.RingsOk) : NextRings (execReclaimSweep s) :=
  .act (.ite h (.via (fun h => .run (.ite h.sweepList.frame h.sweepList)) (h.frame.over fun _ _ h => h.cancelUnits)))

theorem NextRings.execLrRecompute (h : s.RingsOk) : NextRings (execLrRecompute s) := .act (.ite h h.frame.permissionCheck.run)

theorem NextRings.execPermissionReturnFull (h : s.RingsOk) : NextRings (execPermissionReturnFull s) := .act (.ite h h.permissionFull.run)

theorem NextRings.execRetireFlush (h : s.RingsOk) : NextRings (execRetireFlush s) := .vaultAct (.ite h h.retireNow)

theorem NextRings.execJournalSpaceFreed (h : s.RingsOk) : NextRings (execJournalSpaceFreed s) :=
  .vaultAct (.ite h (.ite h.retireNow.journalRetry h.journalRetry))

theorem NextRings.execJournalFull (h : s.RingsOk) : NextRings (execJournalFull s) := .act (.ite h h.frame.event)

theorem State.RingsOk.tileFailures (h : s.RingsOk) {t' before} : (s.tileFailures t' before).RingsOk :=
  .ite h (.ite h.frame.beginMapOut h.frame)

theorem State.RingsOk.mismatchEvent (h : s.RingsOk) {tile x o} : (s.mismatchEvent tile x o).RingsOk := by
  unfold State.mismatchEvent
  dsimp only
  split
  · exact .ite h h.event
  · exact .ite h h.event
  · exact h

theorem State.RingsOk.jobDone (h : s.RingsOk) {tile j words} : (s.jobDone tile j words).RingsOk := by
  unfold State.jobDone
  split
  · exact h.absorbed
  · split
    · exact h
    · refine .ite h ?_
      dsimp only
      split
      · exact h.frame.opDone.mismatchEvent.tileFailures
      · exact h.frame.opDone.mismatchEvent
  · exact h

theorem State.RingsOk.badInput (h : s.RingsOk) {tile again frame} : (s.badInput tile again frame).RingsOk := by
  unfold State.badInput
  split
  · exact .ite h h.wordBad
  · exact .ite h h.frame.channelWord

theorem State.RingsOk.jobBad (h : s.RingsOk) {tile j input seg} : (s.jobBad tile j input seg).RingsOk := by
  unfold State.jobBad
  dsimp only
  split
  · exact h.event.badInput.absorbFailed
  · exact h.event.badInput.unitFails
  · split
    · exact .ite h.event.badInput.jobFailed h.event.badInput
    · exact h.event.badInput
  · exact h.event.badInput

theorem State.RingsOk.wroteBack (h : s.RingsOk) {j w} : (s.wroteBack j w).RingsOk := by
  unfold State.wroteBack
  split <;> exact h.frame

theorem State.RingsOk.jobReply (h : s.RingsOk) {tile j words} : (s.jobReply tile j words).RingsOk := by
  unfold State.jobReply
  extract_lets words marked early seen before_ s₁ s₂
  have h₁ : s₁.RingsOk := h.over fun _ _ h => h.wordFixed.event.wroteBack
  have h₂ : s₂.RingsOk := by
    unfold s₂
    clear_value marked
    split
    · split
      · exact h₁.jobBad
      · exact h₁.jobDone
    · exact h₁.jobBad
  exact h₂.unpin

theorem NextRings.execTileJobComplete (h : s.RingsOk) {tile words} : NextRings (execTileJobComplete tile words s) := by
  refine .vaultAct ?_
  split
  · exact h
  · exact .ite h (h.frame.replyTo fun _ h => h.jobReply)

theorem State.RingsOk.resend (h : s.RingsOk) {j} : (s.resend j).RingsOk := by
  unfold State.resend
  split
  · split
    · exact h.unpin
    · exact h.takeHome.sendJob
  · exact h.sendJob

theorem NextRings.execTileQueuePlaceFreed (h : s.RingsOk) : NextRings (execTileQueuePlaceFreed s) :=
  .act (.ite h (.run (h.frame.over fun _ _ h => h.resend)))

theorem NextRings.execStreamIdle (h : s.RingsOk) {stream} : NextRings (execStreamIdle stream s) := by
  refine .act ?_
  split
  · exact h
  · exact .ite h h.cancelUnits.frame.run

theorem NextRings.execRunaheadFramesAvailable (h : s.RingsOk) : NextRings (execRunaheadFramesAvailable s) :=
  .act (.ite h (.run (h.over fun _ _ h => h.feedStream)))

/-! ### Rebuild, move and scrub rows -/

theorem State.RingsOk.takePlace (h : s.RingsOk) {r} : (s.takePlace r).RingsOk := h.frame

theorem State.RingsOk.beginLost (h : s.RingsOk) {r} : (s.beginLost r).RingsOk := by
  refine .ite (.ite h.startReplace.takePlace h.startReplace) ?_
  split
  · exact h.event.noteWait
  · exact h.updRegion.updWork.takePlace

theorem State.RingsOk.resumeRebuild (h : s.RingsOk) {r} : (s.resumeRebuild r).RingsOk :=
  .via (fun h => .ite h h.frame) (.ite (.ite h.frame.replaceAgain h.frame) (.ite h.frame h.frame.furtherLoss))

theorem State.RingsOk.beginRebuild (h : s.RingsOk) {r} : (s.beginRebuild r).RingsOk := .ite h.resumeRebuild h.beginLost

theorem NextRings.execRebuildRegionStart (h : s.RingsOk) : NextRings (execRebuildRegionStart s) := by
  refine .act (.ite h ?_)
  split
  · exact h
  · refine .ite h.beginRebuild.run (.ite h ?_)
    split
    · exact h
    · exact h.frame.beginRebuild.run

theorem State.RingsOk.issueStripe (h : s.RingsOk) {r k} : (s.issueStripe r k).RingsOk := h.frame.newTask

theorem NextRings.execRebuildStripeStart (h : s.RingsOk) {region} : NextRings (execRebuildStripeStart region s) := by
  refine .act (.ite h ?_)
  split
  · exact h
  · exact h.issueStripe.run

theorem NextRings.execRebuildRetryTimer (h : s.RingsOk) {region} : NextRings (execRebuildRetryTimer region s) := .act (.ite h h.frame)

theorem NextRings.execRebuildStarved (h : s.RingsOk) {pool} : NextRings (execRebuildStarved pool s) := by
  refine .act ?_
  split
  · exact h
  · split
    · exact h
    · exact .ite h h.frame.event

theorem State.RingsOk.beginMove (h : s.RingsOk) {r mv} : (s.beginMove r mv).RingsOk := by
  unfold State.beginMove
  exact h.updRegion.updWork

theorem State.RingsOk.startMove (h : s.RingsOk) {r} : (s.startMove r).RingsOk := by
  unfold State.startMove
  dsimp only
  split
  · exact h.beginMove
  · split
    · exact h
    · refine .ite h.startReplace ?_
      split
      · exact h.event.noteWait
      · exact h.beginMove

theorem NextRings.execMoveStart (h : s.RingsOk) : NextRings (execMoveStart s) := by
  refine .act (.ite h ?_)
  split
  · exact h
  · exact .ite h.replaceAgain.run (.ite h h.startMove.run)

theorem NextRings.execScrubPassStart (h : s.RingsOk) {pool} : NextRings (execScrubPassStart pool s) := by
  refine .act ?_
  split
  · exact h
  · exact .ite h h.frame

theorem NextRings.execScrubPeriodEnd (h : s.RingsOk) {pool} : NextRings (execScrubPeriodEnd pool s) := by
  refine .act ?_
  split
  · exact h
  · split
    · exact h
    · exact .ite h h.frame.event

theorem State.RingsOk.scrubTask (h : s.RingsOk) {r k report check' paid} : (s.scrubTask r k report check' paid).RingsOk :=
  .newTask (.ite h.frame h)

theorem State.RingsOk.checkStripe (h : s.RingsOk) {r paid} : (s.checkStripe r paid).RingsOk := h.frame.scrubTask

theorem State.RingsOk.passStep (h : s.RingsOk) {pool p r k} : (s.passStep pool p r k).RingsOk := by
  unfold State.passStep
  dsimp only
  split
  · exact .ite h h.frame.scrubTask
  · exact .ite h h.frame

theorem NextRings.execScrubStripe (h : s.RingsOk) {pool} : NextRings (execScrubStripe pool s) := by
  refine .act ?_
  split
  · exact h
  · refine .ite h (.ite ?_ (.ite h ?_))
    · split
      · exact h.checkStripe.run
      · exact h
    · split
      · exact h.checkStripe.run
      · split
        · exact .ite h.checkStripe.run h
        · split
          · exact h.passStep.run
          · exact h

/-! ### Registers -/

theorem State.RingsOk.writeControl (h : s.RingsOk) {f v'} : (s.writeControl f v').RingsOk := h.frame.causeDue

theorem State.RingsOk.writeGlobal (h : s.RingsOk) {f offset v'} : (s.writeGlobal f offset v').RingsOk := by
  unfold State.writeGlobal
  split
  · exact h.writeControl
  · exact .ite h.frame h
  · exact h.frame
  · exact h.writeMask
  · exact h

theorem State.RingsOk.writeFunction (h : s.RingsOk) {f offset v'} : (s.writeFunction f offset v').RingsOk := by
  refine .ite (.via (fun h => .ite h.adminEnable h) (.ite h.frame h)) (.ite h ?_)
  split <;> exact h.frame

theorem State.RingsOk.writeGovernor (h : s.RingsOk) {offset v'} : (s.writeGovernor offset v').RingsOk := by
  unfold State.writeGovernor
  dsimp only
  split <;> exact h.frame

theorem State.RingsOk.writeLoop (h : s.RingsOk) {j offset v'} : (s.writeLoop j offset v').RingsOk := by
  unfold State.writeLoop
  split <;> exact h.frame

theorem State.RingsOk.writePack (h : s.RingsOk) {offset v'} : (s.writePack offset v').RingsOk := .ite h.frame h

theorem State.RingsOk.writeDoorbell (h : s.RingsOk) {f offset v'} : (s.writeDoorbell f offset v').RingsOk := by
  unfold State.writeDoorbell
  dsimp only
  split
  · exact h.tailValue.ltrTouch
  · exact h.headValue.ltrTouch
  · exact h

theorem State.RingsOk.writeWord (h : s.RingsOk) {f bar offset v'} : (s.writeWord f bar offset v').RingsOk := by
  unfold State.writeWord
  split
  · exact h
  · exact h.writeGlobal
  · exact h.writeFunction
  · exact h.writeDoorbell
  · exact h.writeGovernor
  · exact h.writeLoop
  · exact h.writePack
  · exact h.writeMsix
  · exact h
  · exact h

theorem State.RingsOk.barWrite (h : s.RingsOk) {f bar offset len v' poisoned} : (s.barWrite f bar offset len v' poisoned).RingsOk :=
  .ite h (.ite (h.mmio h) (.ite h.aer.fnEvent (.ite h (.ite h.badAccess (.ite h.writeWord.writeWord h.writeWord)))))

theorem State.RingsOk.pfSet (h : s.RingsOk) {f g} : (s.pfSet f g).RingsOk := .ite h.frame h

theorem State.RingsOk.writeLtr (h : s.RingsOk) {f on} : (s.writeLtr f on).RingsOk := .ite h.pfSet.sendLtr h.pfSet

theorem State.RingsOk.writeBar (h : s.RingsOk) {f d v'} : (s.writeBar f d v').RingsOk := by
  refine .ite h ?_
  split
  · exact h.frame
  · exact h.frame
  · exact h.frame
  · exact h.frame
  · exact .ite h h.pfSet
  · exact .ite h h.pfSet
  · exact .ite h h.pfSet
  · exact .ite h h.pfSet

theorem State.RingsOk.configWrite (h : s.RingsOk) {f field v'} : (s.configWrite f field v').RingsOk := by
  refine .ite h ?_
  split
  · exact h.writeBar
  · exact h.pfSet
  · exact h.pfSet
  · exact h.pfSet
  · exact h.frame
  · exact h.frame
  · exact h.frame
  · exact h.frame
  · exact h.frame
  · exact h.frame.flushPba
  · exact h.frame.flushPba
  · exact h.writeLtr
  · exact h.pfSet
  · exact h.pfSet
  · exact h.frame
  · exact h.frame
  · exact h.frame
  · exact h.frame
  · exact h.frame
  · exact h.frame
  · exact h.frame
  · exact h.frame
  · exact h.frame
  · exact h.frame
  · exact h.frame

/-! ### Sideband -/

theorem State.RingsOk.updSb (h : s.RingsOk) {g} : (s.updSb g).RingsOk := h.frame

theorem State.RingsOk.sbReadClears (h : s.RingsOk) {offset n} : (s.sbReadClears offset n).RingsOk := .ite h.frame h

theorem State.RingsOk.alertSettles (h : s.RingsOk) : s.alertSettles.RingsOk := .ite h.endAlert h

theorem State.RingsOk.raiseIbi (h : s.RingsOk) : s.raiseIbi.RingsOk := .ite h.frame h

theorem State.RingsOk.alertPending (h : s.RingsOk) : s.alertPending.RingsOk := .raiseIbi (.ite h h.frame)

theorem State.RingsOk.sbStatusWrite (h : s.RingsOk) {v'} : (s.sbStatusWrite v').RingsOk := h.frame.alertSettles

theorem State.RingsOk.sbEnableWrite (h : s.RingsOk) {v'} : (s.sbEnableWrite v').RingsOk :=
  .ite h.frame.alertPending h.frame.alertSettles

theorem State.RingsOk.sbCommand (h : s.RingsOk) {n} : (s.sbCommand n).RingsOk := .ite h.frame.event h.frame

theorem State.RingsOk.sbWrite (h : s.RingsOk) {offset v'} : (s.sbWrite offset v').RingsOk := by
  unfold State.sbWrite
  split
  · exact h.sbStatusWrite
  · exact h.sbEnableWrite
  · exact h.sbCommand
  · exact .ite h.frame h
  · exact .ite h.frame h

theorem State.RingsOk.sbWrites (h : s.RingsOk) {offset data} : (s.sbWrites offset data).RingsOk := h.over fun _ _ h => h.sbWrite

theorem State.RingsOk.sbSmbus (h : s.RingsOk) {offset count data pec} : (s.sbSmbus offset count data pec).RingsOk :=
  .ite h (.ite h.frame.event (.ite h h.sbWrites))

theorem State.RingsOk.sbI3c (h : s.RingsOk) {offset data} : (s.sbI3c offset data).RingsOk := .ite h h.frame.sbWrites

theorem State.RingsOk.sbBlockRead (h : s.RingsOk) {offset pec} : (s.sbBlockRead offset pec).RingsOk := .ite h h.frame.sbReadClears

theorem State.RingsOk.sbPrivateRead (h : s.RingsOk) {count} : (s.sbPrivateRead count).RingsOk := .ite h h.frame.sbReadClears.updSb

theorem NextRings.execRegisterWrite (h : s.RingsOk) {target} : NextRings (execRegisterWrite target s) := by
  refine .act ?_
  split
  · exact h.barWrite.run
  · exact h.configWrite.run
  · exact .ite h.sbSmbus h
  · exact .ite h.sbI3c h
  · exact .ite h.sbBlockRead h
  · exact .ite h.sbPrivateRead h

theorem State.RingsOk.mailbox (h : s.RingsOk) {n} : (s.mailbox n).RingsOk := .ite h.sbCommand h

theorem NextRings.execGetIdentity (h : s.RingsOk) : NextRings (execGetIdentity s) := .act h.mailbox

theorem NextRings.execGetHealth (h : s.RingsOk) : NextRings (execGetHealth s) := .act h.mailbox

theorem NextRings.execReadLog (h : s.RingsOk) : NextRings (execReadLog s) := .act h.mailbox

theorem NextRings.execReadEvent (h : s.RingsOk) : NextRings (execReadEvent s) := .act h.mailbox

theorem NextRings.execClearEvents (h : s.RingsOk) : NextRings (execClearEvents s) := .act h.mailbox

theorem NextRings.execReadHistogram (h : s.RingsOk) : NextRings (execReadHistogram s) := .act h.mailbox

theorem NextRings.execReadPack (h : s.RingsOk) : NextRings (execReadPack s) := .act h.mailbox

theorem NextRings.execMailboxComplete (h : s.RingsOk) : NextRings (execMailboxComplete s) :=
  .act (.ite h (.alert (.updSb (.ite h.clearRecords h))))

theorem NextRings.execAlertStatusClear (h : s.RingsOk) {value} : NextRings (execAlertStatusClear value s) := .act (.ite h.sbStatusWrite h)

theorem NextRings.execAlertEnableWrite (h : s.RingsOk) {value} : NextRings (execAlertEnableWrite value s) := .act (.ite h.sbEnableWrite h)

theorem NextRings.execPecErrorsRead (h : s.RingsOk) : NextRings (execPecErrorsRead s) := .act (.ite h.frame h)

theorem NextRings.execAlertResponse (h : s.RingsOk) : NextRings (execAlertResponse s) := .act (.ite h.frame.endAlert h)

theorem NextRings.execIbiRetry (h : s.RingsOk) {acked} : NextRings (execIbiRetry acked s) :=
  .act (.ite h (.ite h.endAlert (.ite h h.raiseIbi)))

theorem State.RingsOk.sbMode (h : s.RingsOk) {i3c address} : (s.sbMode i3c address).RingsOk := h.frame.event

theorem State.RingsOk.sbAssign (h : s.RingsOk) {address} : (s.sbAssign address).RingsOk := .ite h.sbMode h

theorem NextRings.execEntdaa (h : s.RingsOk) {dynamicAddr} : NextRings (execEntdaa dynamicAddr s) := .act h.sbAssign

theorem NextRings.execSetdasa (h : s.RingsOk) {dynamicAddr} : NextRings (execSetdasa dynamicAddr s) := .act h.sbAssign

theorem NextRings.execRstdaa (h : s.RingsOk) : NextRings (execRstdaa s) := .act (.ite h.sbMode h)

theorem NextRings.execEnec (h : s.RingsOk) : NextRings (execEnec s) := .act (.ite h.frame.raiseIbi h)

theorem NextRings.execDisec (h : s.RingsOk) : NextRings (execDisec s) := .act (.ite h.frame h)

theorem State.RingsOk.sbAnswer (h : s.RingsOk) {data} : (s.sbAnswer data).RingsOk := .ite h.frame h

theorem NextRings.execGetpid (h : s.RingsOk) : NextRings (execGetpid s) := .act h.sbAnswer

theorem NextRings.execGetbcr (h : s.RingsOk) : NextRings (execGetbcr s) := .act h.sbAnswer

theorem NextRings.execGetdcr (h : s.RingsOk) : NextRings (execGetdcr s) := .act h.sbAnswer

theorem NextRings.execGetstatus (h : s.RingsOk) : NextRings (execGetstatus s) := .act h.sbAnswer

theorem NextRings.execGetmwl (h : s.RingsOk) : NextRings (execGetmwl s) := .act h.sbAnswer

theorem NextRings.execGetmrl (h : s.RingsOk) : NextRings (execGetmrl s) := .act h.sbAnswer

end

end Sys2Proof.Machine
end

section
/-! PROOFS. The rings' pointers at every step, and the statement O6. -/

namespace Sys2Proof.Machine

open Sys2Proof

section

variable {s t u v : State}

theorem NextRings.exec (h : s.RingsOk) (i : Instr) : NextRings (exec i s) := by
  cases i with
  | read => exact .execRead h
  | write => exact .execWrite h
  | flush => exact .execFlush h
  | writeZeroes => exact .execWriteZeroes h
  | deallocate => exact .execDeallocate h
  | verify => exact .execVerify h
  | identifyModule => exact .execIdentifyModule h
  | identifyVolumes => exact .execIdentifyVolumes h
  | identifyTemplate => exact .execIdentifyTemplate h
  | ringCreateSubmission => exact .execRingCreateSubmission h
  | ringCreateCompletion => exact .execRingCreateCompletion h
  | getLog => exact .execGetLog h
  | getFeature => exact .execGetFeature h
  | setFeatureAckMode => exact .execSetFeatureAckMode h
  | setFeatureAgeLimit => exact .execSetFeatureAgeLimit h
  | setFeatureLossAck => exact .execSetFeatureLossAck h
  | setFeatureDirtyLimit => exact .execSetFeatureDirtyLimit h
  | setFeatureHedge => exact .execSetFeatureHedge h
  | setFeatureHardTimeout => exact .execSetFeatureHardTimeout h
  | setFeatureMediaThreshold => exact .execSetFeatureMediaThreshold h
  | setFeatureScrubPeriod => exact .execSetFeatureScrubPeriod h
  | setFeaturePatrolPeriod => exact .execSetFeaturePatrolPeriod h
  | setFeatureRefreshThreshold => exact .execSetFeatureRefreshThreshold h
  | setFeatureTagBudget => exact .execSetFeatureTagBudget h
  | setFeatureClassWeights => exact .execSetFeatureClassWeights h
  | setFeatureMaxClass => exact .execSetFeatureMaxClass h
  | setFeatureRateLimit => exact .execSetFeatureRateLimit h
  | setFeatureStallTimeout => exact .execSetFeatureStallTimeout h
  | setFeatureExportWait => exact .execSetFeatureExportWait h
  | setFeatureTimeBase => exact .execSetFeatureTimeBase h
  | abort => exact .execAbort h
  | templateDefine => exact .execTemplateDefine h
  | templateDelete => exact .execTemplateDelete h
  | poolCreate => exact .execPoolCreate h
  | poolDelete => exact .execPoolDelete h
  | poolExpand => exact .execPoolExpand h
  | poolExpandSpare => exact .execPoolExpandSpare h
  | volumeCreateArray => exact .execVolumeCreateArray h
  | volumeCreateVault => exact .execVolumeCreateVault h
  | volumeDelete => exact .execVolumeDelete h
  | volumeAttach => exact .execVolumeAttach h
  | volumeDetach => exact .execVolumeDetach h
  | memberFail => exact .execMemberFail h
  | memberReplaceCopyback => exact .execMemberReplaceCopyback h
  | memberReplaceJoin => exact .execMemberReplaceJoin h
  | rebuildPause => exact .execRebuildPause h
  | rebuildResume => exact .execRebuildResume h
  | rebuildPromote => exact .execRebuildPromote h
  | rebuildRetry => exact .execRebuildRetry h
  | consistencyCheck => exact .execConsistencyCheck h
  | deviceStop => exact .execDeviceStop h
  | deviceStart => exact .execDeviceStart h
  | configStageGovernor => exact .execConfigStageGovernor h
  | configStagePack => exact .execConfigStagePack h
  | configDiscard => exact .execConfigDiscard h
  | selfTestShort => exact .execSelfTestShort h
  | selfTestExtended => exact .execSelfTestExtended h
  | selfTestAbort => exact .execSelfTestAbort h
  | selfTestComplete => exact .execSelfTestComplete h
  | fwStage => exact .execFwStage h
  | fwActivate => exact .execFwActivate h
  | eventRead => exact .execEventRead h
  | eventClear => exact .execEventClear h
  | histogramRead => exact .execHistogramRead h
  | packReplaced => exact .execPackReplaced h
  | packLearn => exact .execPackLearn h
  | packLearnAbort => exact .execPackLearnAbort h
  | shipModeArm => exact .execShipModeArm h
  | shipModeCancel => exact .execShipModeCancel h
  | arrayImport => exact .execArrayImport h
  | pairBind => exact .execPairBind h
  | pairUnbind => exact .execPairUnbind h
  | pairDiscardDump => exact .execPairDiscardDump h
  | slotPowerOn => exact .execSlotPowerOn h
  | slotPowerOff => exact .execSlotPowerOff h
  | slotLocateOn => exact .execSlotLocateOn h
  | slotLocateOff => exact .execSlotLocateOff h
  | slotAutomaticPower => exact .execSlotAutomaticPower h
  | slotButtonPolicy => exact .execSlotButtonPolicy h
  | clockSet => exact .execClockSet h
  | sqTail => exact .execSqTail h
  | cqHead => exact .execCqHead h
  | shadowPoll => exact .execShadowPoll h
  | adminEn => exact .execAdminEn h
  | causeWrite => exact .execCauseWrite h
  | causeMaskWrite => exact .execCauseMaskWrite h
  | intEnWrite => exact .execIntEnWrite h
  | force => exact .execForce h
  | suppressedTotalRead => exact .execSuppressedTotalRead h
  | overrunsRead => exact .execOverrunsRead h
  | msixEntryWrite => exact .execMsixEntryWrite h
  | registerWrite => exact .execRegisterWrite h
  | ringGrant => exact .execRingGrant h
  | hostCompletion => exact .execHostCompletion h
  | completionTimeout => exact .execCompletionTimeout h
  | tagHoldExpiry => exact .execTagHoldExpiry h
  | coalescingTime => exact .execCoalescingTime h
  | cqStall => exact .execCqStall h
  | stashPoolEmpty => exact .execStashPoolEmpty h
  | ltrIdle => exact .execLtrIdle h
  | hostLinkUp => exact .execHostLinkUp h
  | hostLinkDown => exact .execHostLinkDown h
  | hotReset => exact .execHotReset h
  | flr => exact .execFlr h
  | vfEnableCleared => exact .execVfEnableCleared h
  | busMasterEnableCleared => exact .execBusMasterEnableCleared h
  | busMasterEnableSet => exact .execBusMasterEnableSet h
  | d3hotEntry => exact .execD3hotEntry h
  | d0Return => exact .execD0Return h
  | perstNAssert => exact .execPerstNAssert h
  | perstNDeassert => exact .execPerstNDeassert h
  | gatherFramesAvailable => exact .execGatherFramesAvailable h
  | writeCommit => exact .execWriteCommit h
  | readLookup => exact .execReadLookup h
  | stripeInterlockGrant => exact .execStripeInterlockGrant h
  | destageStart => exact .execDestageStart h
  | destageAgeLimit => exact .execDestageAgeLimit h
  | destageEntryFreed => exact .execDestageEntryFreed h
  | stagingRunFreed => exact .execStagingRunFreed h
  | commitStall => exact .execCommitStall h
  | reclaimSweep => exact .execReclaimSweep h
  | lrRecompute => exact .execLrRecompute h
  | permissionReturnFull => exact .execPermissionReturnFull h
  | retireFlush => exact .execRetireFlush h
  | journalSpaceFreed => exact .execJournalSpaceFreed h
  | journalFull => exact .execJournalFull h
  | tileJobComplete => exact .execTileJobComplete h
  | tileQueuePlaceFreed => exact .execTileQueuePlaceFreed h
  | driveCompletion => exact .execDriveCompletion h
  | hedgeDelay => exact .execHedgeDelay h
  | hedgeHoldTimeout => exact .execHedgeHoldTimeout h
  | hedgeIntervalEnd => exact .execHedgeIntervalEnd h
  | hedgeThresholdUpdate => exact .execHedgeThresholdUpdate h
  | streamIdle => exact .execStreamIdle h
  | runaheadFramesAvailable => exact .execRunaheadFramesAvailable h
  | driveLinkUp => exact .execDriveLinkUp h
  | driveLinkDown => exact .execDriveLinkDown h
  | linkDownHoldExpiry => exact .execLinkDownHoldExpiry h
  | portNoLink => exact .execPortNoLink h
  | drivePerstDeassert => exact .execDrivePerstDeassert h
  | smartPoll => exact .execSmartPoll h
  | asynchronousEvent => exact .execAsynchronousEvent h
  | softTimeout => exact .execSoftTimeout h
  | hardTimeout => exact .execHardTimeout h
  | quarantineTimeout => exact .execQuarantineTimeout h
  | adminCommandTimeout => exact .execAdminCommandTimeout h
  | controllerDisabled => exact .execControllerDisabled h
  | controllerResetTimeout => exact .execControllerResetTimeout h
  | controllerFatalStatus => exact .execControllerFatalStatus h
  | slotScan => exact .execSlotScan h
  | slotPresenceChange => exact .execSlotPresenceChange h
  | slotButtonPress => exact .execSlotButtonPress h
  | buttonWindowEnd => exact .execButtonWindowEnd h
  | slotPowerFault => exact .execSlotPowerFault h
  | slotPowerGood => exact .execSlotPowerGood h
  | slotPowerOffDelay => exact .execSlotPowerOffDelay h
  | rebuildRegionStart => exact .execRebuildRegionStart h
  | rebuildStripeStart => exact .execRebuildStripeStart h
  | rebuildRetryTimer => exact .execRebuildRetryTimer h
  | rebuildStarved => exact .execRebuildStarved h
  | moveStart => exact .execMoveStart h
  | scrubPassStart => exact .execScrubPassStart h
  | scrubPeriodEnd => exact .execScrubPeriodEnd h
  | scrubStripe => exact .execScrubStripe h
  | govSampleInstant => exact .execGovSampleInstant h
  | govComputationDone => exact .execGovComputationDone h
  | pwmInputLost => exact .execPwmInputLost h
  | pwmSteadyHigh => exact .execPwmSteadyHigh h
  | pwmInputRestored => exact .execPwmInputRestored h
  | vaultProgramComplete => exact .execVaultProgramComplete h
  | vaultReadComplete => exact .execVaultReadComplete h
  | vaultEraseComplete => exact .execVaultEraseComplete h
  | vaultCheckpoint => exact .execVaultCheckpoint h
  | wearMoveCheck => exact .execWearMoveCheck h
  | garbageCollectionStart => exact .execGarbageCollectionStart h
  | vaultBlockOpenable => exact .execVaultBlockOpenable h
  | patrolPassStart => exact .execPatrolPassStart h
  | patrolPeriodEnd => exact .execPatrolPeriodEnd h
  | vaultRequestTimeout => exact .execVaultRequestTimeout h
  | percentUsedRecompute => exact .execPercentUsedRecompute h
  | vaultOperationTimeout => exact .execVaultOperationTimeout h
  | statusFrame => exact .execStatusFrame h
  | statusFrameTimeout => exact .execStatusFrameTimeout h
  | packEnergyAvailable => exact .execPackEnergyAvailable h
  | powerFailDetect => exact .execPowerFailDetect h
  | powerFailStrobe => exact .execPowerFailStrobe h
  | dumpCommandFrame => exact .execDumpCommandFrame h
  | lehrSealed => exact .execLehrSealed h
  | lehrTimeout => exact .execLehrTimeout h
  | puntyRelease => exact .execPuntyRelease h
  | vinOvervoltage => exact .execVinOvervoltage h
  | vinReturnInRange => exact .execVinReturnInRange h
  | vinBelowHoldup => exact .execVinBelowHoldup h
  | vinAboveHoldup => exact .execVinAboveHoldup h
  | holdupUvlo => exact .execHoldupUvlo h
  | holdupUvloRecover => exact .execHoldupUvloRecover h
  | packPresenceChange => exact .execPackPresenceChange h
  | identifyComplete => exact .execIdentifyComplete h
  | chargePhaseChange => exact .execChargePhaseChange h
  | chargeTermination => exact .execChargeTermination h
  | rechargeNeeded => exact .execRechargeNeeded h
  | chargeEnd => exact .execChargeEnd h
  | chargeHoldRelease => exact .execChargeHoldRelease h
  | learnDischargeDone => exact .execLearnDischargeDone h
  | learnRestTimeout => exact .execLearnRestTimeout h
  | eavailCompute => exact .execEavailCompute h
  | restPoint => exact .execRestPoint h
  | learnOverdue => exact .execLearnOverdue h
  | gaugeStorePeriodic => exact .execGaugeStorePeriodic h
  | shipCleanReport => exact .execShipCleanReport h
  | shipReconnect => exact .execShipReconnect h
  | powerDieStart => exact .execPowerDieStart h
  | packSample => exact .execPackSample h
  | logicDieResetExit => exact .execLogicDieResetExit h
  | startupReady => exact .execStartupReady h
  | pairHeartbeat => exact .execPairHeartbeat h
  | partnerLost => exact .execPartnerLost h
  | arbHbToggle => exact .execArbHbToggle h
  | fatalCondition => exact .execFatalCondition h
  | watchdogExpiry => exact .execWatchdogExpiry h
  | arbFenceAssert => exact .execArbFenceAssert h
  | arbFenceRelease => exact .execArbFenceRelease h
  | arbTakeAssert => exact .execArbTakeAssert h
  | fenceDrainTimeout => exact .execFenceDrainTimeout h
  | exportRequest => exact .execExportRequest h
  | release => exact .execRelease h
  | exportWait => exact .execExportWait h
  | driveSettle => exact .execDriveSettle h
  | changeLogFlush => exact .execChangeLogFlush h
  | metadataCheckpoint => exact .execMetadataCheckpoint h
  | bitmapRewrite => exact .execBitmapRewrite h
  | unitDown => exact .execUnitDown h
  | unitUp => exact .execUnitUp h
  | routerTimeout => exact .execRouterTimeout h
  | droopStretch50 => exact .execDroopStretch50 h
  | droopStretch25 => exact .execDroopStretch25 h
  | droopRecover => exact .execDroopRecover h
  | supplyFault => exact .execSupplyFault h
  | refclkLost => exact .execRefclkLost h
  | thermalWarn => exact .execThermalWarn h
  | thermalTrip => exact .execThermalTrip h
  | recordAccept => exact .execRecordAccept h
  | recorderCommit => exact .execRecorderCommit h
  | operatingSecondsSave => exact .execOperatingSecondsSave h
  | histogramIntervalEnd => exact .execHistogramIntervalEnd h
  | getIdentity => exact .execGetIdentity h
  | getHealth => exact .execGetHealth h
  | readLog => exact .execReadLog h
  | readEvent => exact .execReadEvent h
  | clearEvents => exact .execClearEvents h
  | readHistogram => exact .execReadHistogram h
  | readPack => exact .execReadPack h
  | mailboxComplete => exact .execMailboxComplete h
  | alertStatusClear => exact .execAlertStatusClear h
  | alertEnableWrite => exact .execAlertEnableWrite h
  | pecErrorsRead => exact .execPecErrorsRead h
  | alertResponse => exact .execAlertResponse h
  | ibiRetry => exact .execIbiRetry h
  | entdaa => exact .execEntdaa h
  | setdasa => exact .execSetdasa h
  | rstdaa => exact .execRstdaa h
  | enec => exact .execEnec h
  | disec => exact .execDisec h
  | getpid => exact .execGetpid h
  | getbcr => exact .execGetbcr h
  | getdcr => exact .execGetdcr h
  | getstatus => exact .execGetstatus h
  | getmwl => exact .execGetmwl h
  | getmrl => exact .execGetmrl h
  | pairHeartbeatSend => exact .execPairHeartbeatSend h
  | dumpImport => exact .execDumpImport h
  | pairingLinkFailure => exact .execPairingLinkFailure h
  | hbmParityError => exact .execHbmParityError h
  | hostLinkError => exact .execHostLinkError h
  | badRegisterRead => exact .execBadRegisterRead h
  | buttonRefusalEnd => exact .execButtonRefusalEnd h
  | vinMainPowerUp => exact .execVinMainPowerUp h
  | chargeCountSample => exact .execChargeCountSample h
  | histogramSample => exact .execHistogramSample h
  | thermalWarnEnd => exact .execThermalWarnEnd h

theorem NextRings.step (h : s.RingsOk) : NextRings (step s) := by
  unfold Sys2Proof.Machine.step
  split
  · exact .next h.frame
  · exact .exec h.frame _

end

/-- Settles O6: each operation keeps the pointers in range, since the ones that move are taken round the ring, and the values of the host
are admitted only below the depth. -/
theorem ringPointersStayInRange : Obligations.RingPointersStayInRange := by
  unfold Obligations.RingPointersStayInRange
  exact fun s t h hs => t.ringsOk_iff.mpr (NextRings.step (s.ringsOk_iff.mp h) t hs)

end Sys2Proof.Machine
end

section
/-! PROOFS. The grant (R593, R594, R599): what makes a ring eligible, which ring is chosen, and the statement O60 put together from them. -/

namespace Sys2Proof.Machine

open Sys2Proof

section

variable {s : State}

theorem State.isBacked_eq_false_iff {c : Cq} :
    s.isBacked c = false ↔ c.stash.length < 64 ∧ (c.stash = [] ∨ s.stashed < 16384) := by
  simp [State.isBacked, Decidable.imp_iff_not_or]

/-- An eligible ring is active, and its completion ring is there and not backed up. -/
theorem State.eligible_completion {k : Nat} {q : Sq} (h : s.eligible k q = true) :
    q.st = .active ∧ ∃ c, s.cqs.look (ringKey q.fn q.cq) = some c ∧ s.isBacked c = false := by
  simp only [State.eligible, Bool.and_eq_true, decide_eq_true_eq, and_assoc] at h
  obtain ⟨active, -, -, free, -⟩ := h
  split at free
  · next c listed => exact ⟨active, c, listed, by simpa using free⟩
  · nomatch free

/-- The ring served next is one of the eligible rings of the class. -/
theorem State.nextOfClass_some {cls k : Nat} (h : s.nextOfClass cls = some k) : ∃ q, (k, q) ∈ s.sqs ∧ s.eligible k q = true := by
  have listed : k ∈ (s.sqs.filter fun e => e.2.cls = cls && s.eligible e.1 e.2).map (·.1) := by
    unfold State.nextOfClass at h
    dsimp only at h
    split at h
    · exact List.mem_of_head? h
    · split at h
      · next found => exact Option.some.inj h ▸ List.mem_of_find?_eq_some found
      · exact List.mem_of_head? h
  obtain ⟨⟨_, q⟩, hq, rfl⟩ := List.mem_map.mp listed
  obtain ⟨mem, eligible⟩ := List.mem_filter.mp hq
  exact ⟨q, mem, (Bool.and_eq_true_iff.mp eligible).2⟩

/-- Whatever the class that the slot serves, its ring is the class's next. -/
theorem State.choose_some {cls k : Nat} {credits : List Nat} (h : s.choose = some (cls, k, credits)) : s.nextOfClass cls = some k := by
  have ofMap {c : Nat} {cr : List Nat} (h : ((s.nextOfClass c).map fun k => (c, k, cr)) = some (cls, k, credits)) :
      s.nextOfClass cls = some k := by
    obtain ⟨_, next, same⟩ := Option.map_eq_some_iff.mp h
    cases same
    exact next
  unfold State.choose at h
  dsimp only at h
  split at h
  · next admin =>
    cases h
    exact admin
  · split at h
    · next urgent =>
      cases h
      exact urgent
    · split at h
      · nomatch h
      · exact ofMap h
      · split at h
        · nomatch h
        · exact ofMap h

end

/-- Settles O60: a chosen ring is the next of its class, which is eligible. -/
theorem backedUpRingsGetNoGrant : Obligations.BackedUpRingsGetNoGrant := by
  unfold Obligations.BackedUpRingsGetNoGrant
  intro s cls k credits h
  obtain ⟨q, mem, eligible⟩ := State.nextOfClass_some (State.choose_some h)
  obtain ⟨active, c, listed, free⟩ := State.eligible_completion eligible
  exact ⟨q, c, mem, listed, active, State.isBacked_eq_false_iff.mp free⟩

end Sys2Proof.Machine
end

section
/-! PROOFS. RING_CREATE (R569, R570) and the rings over time (R555, R594, R601, R602): each row once its guard is met, and the statements O15
and O46 put together from these. -/

namespace Sys2Proof.Machine

open Sys2Proof

/-! ### The first check that fails -/

@[simp] theorem firstFail_nil : firstFail [] = none := rfl

@[simp] theorem firstFail_cons (b : Bool) (st : Status) (l : List (Bool × Status)) :
    firstFail ((b, st) :: l) = if b = true then some st else firstFail l := by
  cases b <;> rfl

section

variable {s t u : State}

/-! ### RING_CREATE (R569, R570) -/

section

variable {acc k : Nat} {c : Cmd}

theorem exec_ringCreateSubmission_of_free (start : s.startable acc 0x81 (fun e => !e.pbit 0 12) = some c)
    (key : k = ringKey c.fn (c.sqe.pfield 0 0 12)) (free : s.sqs.has k = false) (room : s.hasContext k = true ∨ s.contexts < 4096)
    (permitted : s.maxClassOf c.fn ≤ c.sqe.pfield 0 13 2) :
    exec (.ringCreateSubmission acc) s
      = .next (s.keepOwned
          ((({ s with sqs := s.sqs.put k
                       { fn := c.fn, ring := c.sqe.pfield 0 0 12, base := c.sqe.base, depth := c.sqe.pfield 3 0 17, cq := c.sqe.pfield 4 0 12,
                         cls := c.sqe.pfield 0 13 2, burst := orDefault (c.sqe.pfield 4 16 8) 8,
                         shadow := if c.sqe.pfield 5 0 16 = 0 then none else some (c.sqe.w08, c.sqe.pfield 5 0 16),
                         polledAt := s.now } } : State).finish acc St.success).run)) := by
  subst key
  have crowded : (!s.hasContext (ringKey c.fn (c.sqe.pfield 0 0 12)) && decide (s.contexts ≥ 4096)) = false := by
    simpa [Decidable.or_iff_not_imp_left] using room
  change execRingCreateSubmission acc s = _
  rw [execRingCreateSubmission, State.start_some _ start, act_eq]
  simp [free, crowded, Nat.not_lt.mpr permitted]

theorem exec_ringCreateCompletion_of_free (start : s.startable acc 0x81 (fun e => e.pbit 0 12) = some c)
    (key : k = ringKey c.fn (c.sqe.pfield 0 0 12)) (free : s.cqs.has k = false) (room : s.hasContext k = true ∨ s.contexts < 4096) :
    exec (.ringCreateCompletion acc) s
      = .next (s.keepOwned
          ((({ s with cqs := s.cqs.put k
                       { fn := c.fn, ring := c.sqe.pfield 0 0 12, base := c.sqe.base, depth := c.sqe.pfield 3 0 17,
                         vector := c.sqe.pfield 4 0 11, ien := c.sqe.pbit 0 15, coalCount := orDefault (c.sqe.pfield 4 16 8) 1,
                         coalTime := c.sqe.pfield 5 0 10 } } : State).finish acc St.success).run)) := by
  subst key
  have crowded : (!s.hasContext (ringKey c.fn (c.sqe.pfield 0 0 12)) && decide (s.contexts ≥ 4096)) = false := by
    simpa [Decidable.or_iff_not_imp_left] using room
  change execRingCreateCompletion acc s = _
  rw [execRingCreateCompletion, State.start_some _ start, act_eq]
  simp [free, crowded]

theorem exec_ringCreateSubmission_of_used (start : s.startable acc 0x81 (fun e => !e.pbit 0 12) = some c)
    (used : s.sqs.has (ringKey c.fn (c.sqe.pfield 0 0 12)) = true) :
    exec (.ringCreateSubmission acc) s = .next (s.keepOwned ((s.finish c.acc St.ringExists).run)) := by
  change execRingCreateSubmission acc s = _
  rw [execRingCreateSubmission, State.start_some _ start, act_eq]
  simp [used]

theorem exec_ringCreateCompletion_of_used (start : s.startable acc 0x81 (fun e => e.pbit 0 12) = some c)
    (used : s.cqs.has (ringKey c.fn (c.sqe.pfield 0 0 12)) = true) :
    exec (.ringCreateCompletion acc) s = .next (s.keepOwned ((s.finish c.acc St.ringExists).run)) := by
  change execRingCreateCompletion acc s = _
  rw [execRingCreateCompletion, State.start_some _ start, act_eq]
  simp [used]

end

/-! ### Rings over time -/

theorem exec_ringGrant_of_choice {cls k : Nat} {cr : List Nat} {q : Sq} (chosen : s.choose = some (cls, k, cr))
    (listed : s.sqs.look k = some q) :
    exec .ringGrant s
      = .next (s.keepOwned (({ s with mgmt := { s.mgmt with credits := cr, lastGrant := s.mgmt.lastGrant.put cls k } }
          : State).fetchBurst k q)) := by
  change execRingGrant s = _
  simp only [execRingGrant, chosen, listed, act_eq]

theorem exec_coalescingTime_of_due {f : FnId} {r : Nat} {c : Cq} (listed : s.cqs.look (ringKey f r) = some c) (on : s.hostOn = true)
    (counted : 0 < c.sinceMsg) (due : c.firstAt + c.coalTime ≤ s.now)
    (hu : u = { s with cqs := s.cqs.put (ringKey f r) { c with sinceMsg := 0 } }) :
    exec (.coalescingTime f r) s = .next (s.keepOwned (if c.ien = true then u.sendVector f c.vector else u)) := by
  change execCoalescingTime f r s = _
  simp only [execCoalescingTime, listed, act_eq]
  rw [if_pos (by simp [on, counted, due]), hu]

theorem State.stallCheck_of_due {k t : Nat} {c : Cq} (listed : s.cqs.look k = some c) (backed : c.backedSince = some t)
    (first : c.stalled = false) (due : t + s.settings.stallTimeout * 1000 ≤ s.now) :
    s.stallCheck k
      = (({ s with cqs := s.cqs.put k { c with stalled := true } } : State).fnEvent Ev.cqStall c.fn c.ring
          (c.stash.length + c.waiting.length)).raise c.fn .ringStall := by
  simp only [State.stallCheck, listed, backed]
  rw [if_pos (by simp [first, due])]

theorem exec_cqStall_of_on {f : FnId} {r : Nat} (on : s.hostOn = true) :
    exec (.cqStall f r) s = .next (s.keepOwned (s.stallCheck (ringKey f r))) := by
  change execCqStall f r s = _
  rw [execCqStall, on, State.when_true, act_eq]

theorem exec_stashPoolEmpty_of_due (on : s.hostOn = true) (full : 16384 ≤ s.stashed)
    (due : ∀ t, s.mgmt.stashEmptyAt = some t → t + 1000000 ≤ s.now) :
    exec .stashPoolEmpty s
      = .next (s.keepOwned (({ s with mgmt := { s.mgmt with stashEmptyAt := some s.now } } : State).event Ev.stashPoolEmpty 0 0
          (s.cqs.filter fun (e : Nat × Cq) => !e.2.stash.isEmpty).length 0)) := by
  have again : (match s.mgmt.stashEmptyAt with | some t => decide (s.now ≥ t + 1000000) | none => true) = true := by
    split
    · next t at_ => exact decide_eq_true (due t at_)
    · rfl
  exact congrArg (act s) (if_pos (by rw [on, decide_eq_true full, Bool.and_self, Bool.true_and]; exact again))

theorem exec_ltrIdle_of_due {e : Nat} (on : s.hostOn = true) (active : (s.ep e).ltrActive = true) (idle : s.epBusy e = false)
    (due : (s.ep e).lastActivity + 10000 ≤ s.now) :
    exec (.ltrIdle e) s = .next (s.keepOwned ((s.setEp e { s.ep e with ltrActive := false }).sendLtr e 1000000)) := by
  change execLtrIdle e s = _
  rw [execLtrIdle, on, active, idle, act_eq, State.when, if_pos (by simpa using due)]

end

/-! ### The statements -/

/-- Settles O15: each kind of ring on a free index and on one in use. -/
theorem ringCreate : Obligations.RingCreate := by
  unfold Obligations.RingCreate
  exact fun s acc c => ⟨fun start free room permitted => exec_ringCreateSubmission_of_free start rfl free room permitted,
    fun start free room => exec_ringCreateCompletion_of_free start rfl free room,
    exec_ringCreateSubmission_of_used, exec_ringCreateCompletion_of_used⟩

/-- Settles O46: each row past its guard. -/
theorem ringTimeRows : Obligations.RingTimeRows := by
  unfold Obligations.RingTimeRows
  refine ⟨fun _ _ _ _ _ => exec_ringGrant_of_choice, fun _ _ _ _ _ => exec_coalescingTime_of_due, fun s f r t c on listed backed first due => ?stall,
    fun _ => exec_stashPoolEmpty_of_due, fun _ _ => exec_ltrIdle_of_due⟩
  case stall => rw [exec_cqStall_of_on on, State.stallCheck_of_due listed backed first due]

end Sys2Proof.Machine
end

section
/-! PROOFS. Doorbells, shadow polls, the admin rings and the registers of a function (R550, R584 to R588, R717 to R726, R730), each in a function
whose memory space answers and in one in D3hot, and the statements O43 and O51 put together from these. -/

namespace Sys2Proof.Machine

open Sys2Proof

section

variable {s t u : State}

/-! ### What an event leaves alone -/

/-- What an event leaves alone and proofs ask for: the completion rings, the instant and the module's life. -/
def State.unheard (s : State) : Store Cq × Nat × Life := (s.cqs, s.now, s.life)

theorem State.over_unheard {α : Type} {l : List α} {f : State → α → State} (turn : ∀ u a, (f u a).unheard = u.unheard) :
    (s.over l f).unheard = s.unheard :=
  State.over_keeps (P := fun u => u.unheard = s.unheard) f l (fun u a _ hu => (turn u a).trans hu) s rfl

theorem State.sendVector_unheard {f : FnId} {v : Nat} : (s.sendVector f v).unheard = s.unheard := by
  unfold State.sendVector
  split <;> rfl

theorem State.raise_unheard {f : FnId} {c : Cause} : (s.raise f c).unheard = s.unheard := by
  unfold State.raise
  split
  · rfl
  · dsimp only
    split
    · exact State.sendVector_unheard
    · rfl

theorem State.alert_unheard {a : Alert} : (s.alert a).unheard = s.unheard := by
  unfold State.alert
  repeat' split
  all_goals rfl

theorem State.countUnrecorded_unheard {code : Nat} : (s.countUnrecorded code).unheard = s.unheard := State.over_unheard fun _ _ => rfl

theorem State.accept_unheard {r : RawRecord} : (s.accept r).unheard = s.unheard := by
  unfold State.accept
  split
  · rfl
  · split
    · exact State.countUnrecorded_unheard
    · extract_lets _ _ _ s'
      have same : s'.unheard = s.unheard := by
        unfold s'
        split <;> rfl
      split
      · exact State.alert_unheard.trans ((State.over_unheard fun _ _ => State.raise_unheard).trans same)
      · exact same

theorem State.holdRecord_unheard {r : RawRecord} : (s.holdRecord r).unheard = s.unheard := by
  unfold State.holdRecord
  dsimp only
  split
  · split
    · rfl
    · exact State.countUnrecorded_unheard
  · rfl

theorem State.record_unheard {code : Nat} {src : RecordSrc} {p1 p2 p3 : Word} : (s.record code src p1 p2 p3).unheard = s.unheard := by
  unfold State.record
  split
  · rfl
  · dsimp only
    split
    · exact State.accept_unheard
    · exact State.holdRecord_unheard

@[simp] theorem State.raise_cqs {f : FnId} {c : Cause} : (s.raise f c).cqs = s.cqs := congrArg Prod.fst State.raise_unheard

@[simp] theorem State.record_cqs {code : Nat} {src : RecordSrc} {p1 p2 p3 : Word} : (s.record code src p1 p2 p3).cqs = s.cqs :=
  congrArg Prod.fst State.record_unheard

@[simp] theorem State.record_now {code : Nat} {src : RecordSrc} {p1 p2 p3 : Word} : (s.record code src p1 p2 p3).now = s.now :=
  congrArg (·.2.1) State.record_unheard

@[simp] theorem State.ltrTouch_cqs {e : Nat} : (s.ltrTouch e).cqs = s.cqs := by
  unfold State.ltrTouch State.sendLtr
  dsimp only
  split
  · rfl
  · split <;> rfl

/-! ### A tail value (R584, R586, R588) -/

section

variable {f : FnId} {r v : Nat} {q : Sq} {shadow : Bool}

theorem State.tailValue_of_none (none : s.sqs.look (ringKey f r) = none) : s.tailValue f r v shadow = s.ringProtocol f r 0 4 := by
  simp only [State.tailValue, none]

theorem State.tailValue_of_error (listed : s.sqs.look (ringKey f r) = some q) (error : q.st = .error) :
    s.tailValue f r v shadow = s.ringProtocol f r 0 4 := by
  simp only [State.tailValue, listed, error, if_true]

theorem State.tailValue_of_high (listed : s.sqs.look (ringKey f r) = some q) (alive : q.st ≠ .error) (high : q.depth ≤ v) :
    s.tailValue f r v false = s.sqError (ringKey f r) q 1 := by
  simp only [State.tailValue, listed, if_neg alive, if_pos high, Bool.false_eq_true, if_false, ge_iff_le]

/-- A value by MMIO stands as the live tail, but for one that the fetch pointer has reached or passed since the path's last value. -/
theorem State.tailValue_of_below (listed : s.sqs.look (ringKey f r) = some q) (alive : q.st ≠ .error) (below : v < q.depth)
    {passed : Prop} [Decidable passed]
    (hpassed : passed ↔ q.tailMmio = none ∧ q.pastMmio < q.depth ∧ ahead q.depth (v + q.pastMmio) q.fetch ≤ q.pastMmio) :
    s.tailValue f r v false
      = { s with sqs := s.sqs.put (ringKey f r) { q with
          tailMmio := if passed then none else some v, pastMmio := if passed then ahead q.depth q.fetch v else 0 } } := by
  have reach : (q.tailMmio.isNone && reached q.depth q.fetch q.pastMmio v) = decide passed := by
    rw [Bool.eq_iff_iff]
    simp [hpassed, reached, Option.isNone_iff_eq_none]
  simp [State.tailValue, listed, alive, Nat.not_le.mpr below, reach]

end

/-! ### A head value (R585, R586) -/

section

variable {f : FnId} {r v : Nat} {c : Cq} {shadow : Bool}

theorem State.headValue_of_none (none : s.cqs.look (ringKey f r) = none) : s.headValue f r v shadow = s.ringProtocol f r 1 4 := by
  simp only [State.headValue, none]

theorem State.headValue_of_error (listed : s.cqs.look (ringKey f r) = some c) (error : c.st = .error) :
    s.headValue f r v shadow = s.ringProtocol f r 1 4 := by
  simp only [State.headValue, listed, error, if_true]

theorem State.headValue_of_window (listed : s.cqs.look (ringKey f r) = some c) (alive : c.st ≠ .error) (below : v < c.depth)
    (window : ahead c.depth v c.head ≤ ahead c.depth c.tail c.head) :
    s.headValue f r v shadow
      = ({ s with cqs := s.cqs.put (ringKey f r) { c with head := v } } : State).drainCq (ringKey f r) := by
  simp only [State.headValue, listed, if_neg alive, ge_iff_le, if_neg (Nat.not_le.mpr below), gt_iff_lt, if_neg (Nat.not_lt.mpr window)]

/-- Outside the window a head value puts the ring into ERROR, whatever the reason that its event names. -/
theorem State.headValue_of_outside (listed : s.cqs.look (ringKey f r) = some c) (alive : c.st ≠ .error)
    (outside : ¬ (v < c.depth ∧ ahead c.depth v c.head ≤ ahead c.depth c.tail c.head)) :
    ∃ why, s.headValue f r v shadow = s.cqError (ringKey f r) c why := by
  simp only [State.headValue, listed, if_neg alive]
  split
  · exact ⟨_, rfl⟩
  · next below => exact ⟨3, if_pos (Nat.lt_of_not_le fun window => outside ⟨Nat.lt_of_not_le below, window⟩)⟩

theorem State.cqError_st {k why : Nat} : ((s.cqError k c why).cqs.look k).map (·.st) = some .error := by
  simp [State.cqError, State.ringProtocol, State.fnEvent]

end

/-! ### The rows of a function whose memory space answers -/

section

variable {f : FnId} {r : Nat} {v : Word}

theorem exec_sqTail_of_ok (ok : s.mmioOk f = true) (has : r < maxRings f) :
    exec (.sqTail f r v) s = .next (s.keepOwned ((s.tailValue f r v.toNat false).ltrTouch f.ep)) := by
  change execSqTail f r v s = _
  rw [execSqTail, State.mmio_of_ok ok, decide_eq_true has, State.when_true, act_eq]

theorem exec_cqHead_of_ok (ok : s.mmioOk f = true) (has : r < maxRings f) :
    exec (.cqHead f r v) s = .next (s.keepOwned ((s.headValue f r v.toNat false).ltrTouch f.ep)) := by
  change execCqHead f r v s = _
  rw [execCqHead, State.mmio_of_ok ok, decide_eq_true has, State.when_true, act_eq]

theorem exec_shadowPoll_of_due {q : Sq} {addr us : Nat} (listed : s.sqs.look (ringKey f r) = some q) (shadow : q.shadow = some (addr, us))
    (due : q.polledAt + us ≤ s.now) (issued : s.issueRead f (.shadow (ringKey f r)) addr 8 = some t) :
    exec (.shadowPoll f r) s = .next (s.keepOwned { t with sqs := t.sqs.put (ringKey f r) { q with polledAt := t.now } }) := by
  change execShadowPoll f r s = _
  simp only [execShadowPoll, listed, shadow, if_pos due, issued, act_eq, ge_iff_le]

theorem exec_adminEn_of_ok (ok : s.mmioOk f = true) : exec (.adminEn f) s = .next (s.keepOwned (s.adminEnable f)) := by
  change execAdminEn f s = _
  rw [execAdminEn, State.mmio_of_ok ok, act_eq]

/-- The registers and the contexts that let ADMIN_EN make the admin rings (R730). -/
def State.adminAllowed (s : State) (f : FnId) : Prop :=
  2 ≤ (s.fn f).adminDepth ∧ (s.fn f).adminDepth ≤ 4096 ∧ (s.fn f).adminVector < vectorsOf f ∧ (s.fn f).asqBase ≠ 0 ∧ (s.fn f).acqBase ≠ 0
    ∧ s.contexts < 4096

theorem State.adminEnable_of_active (active : (s.fn f).adminActive = true) : s.adminEnable f = s := if_pos active

theorem State.adminEnable_of_allowed (idle : (s.fn f).adminActive = false) (allowed : s.adminAllowed f) :
    s.adminEnable f
      = { s.setFn f { s.fn f with adminActive := true } with
          sqs := s.sqs.put (ringKey f 0) { fn := f, ring := 0, base := (s.fn f).asqBase.toNat, depth := (s.fn f).adminDepth, cq := 0, cls := 4,
                                           burst := 1, shadow := none },
          cqs := s.cqs.put (ringKey f 0) { fn := f, ring := 0, base := (s.fn f).acqBase.toNat, depth := (s.fn f).adminDepth,
                                           vector := (s.fn f).adminVector, ien := true, coalCount := 1, coalTime := 0 } } := by
  unfold State.adminEnable
  rw [if_neg (by simp [idle]), if_pos (by simpa [State.adminAllowed, and_assoc] using allowed)]

theorem State.adminEnable_of_refused (idle : (s.fn f).adminActive = false) (refused : ¬ s.adminAllowed f) :
    s.adminEnable f = s.setFn f { s.fn f with adminFault := true } := by
  unfold State.adminEnable
  rw [if_neg (by simp [idle]), if_neg (by simpa [State.adminAllowed, and_assoc] using refused)]

theorem exec_suppressedTotalRead_of_ok {wide : Bool} {above : Nat} (ok : s.mmioOk f = true)
    (habove : above = if wide = true then s.recorder.next.toNat * 2 ^ 32 else 0) :
    exec (.suppressedTotalRead ⟨f, wide⟩) s
      = .next (s.keepOwned
          (if f.num = 0 then (s.setFn f { s.fn f with suppressedTotal := 0 }).emit
              (.registerRead f (BitVec.ofNat 64 ((s.fn f).suppressedTotal + above)))
            else s.emit (.registerRead f (BitVec.ofNat 64 above)))) := by
  change execSuppressedTotalRead ⟨f, wide⟩ s = _
  rw [execSuppressedTotalRead, State.mmio_of_ok ok, act_eq, habove]

theorem exec_msixEntryWrite_of_ok {n d : Nat} {x a h y : Word} {m : Bool} (ok : s.mmioOk f = true) (has : n < vectorsOf f)
    (entry : (s.fn f).entry n = (a, h, y, m)) (dword : d < 4) :
    exec (.msixEntryWrite f n d x) s
      = .next (s.keepOwned ((s.setFn f { s.fn f with
          msix := Store.putD (0, 0, 0, true) (s.fn f).msix n
            (if d = 0 then (x &&& 0xFFFFFFFC, h, y, m) else if d = 1 then (a, x, y, m) else if d = 2 then (a, h, x, m)
             else (a, h, y, x.getLsbD 0)) }).flushPba f)) := by
  change execMsixEntryWrite f n d x s = _
  rw [execMsixEntryWrite, State.mmio_of_ok ok, decide_eq_true has, decide_eq_true dword, Bool.and_self, State.when_true, act_eq,
    State.writeMsix]
  dsimp only
  rw [entry]
  interval_cases d <;> rfl

end

/-! ### A function in D3hot (R552) -/

/-- A function in D3hot answers no memory access but with Unsupported Request. -/
theorem State.mmio_of_d3 {f : FnId} {read : Bool} (on : s.hostOn = true) (has : s.fnExists f = true) (up : (s.ep f.ep).up = true)
    (d3 : (s.fn f).d3 = true) : s.mmio f read t = (s.aer f 20 (!read)).emit (.unsupported f) := by
  rw [State.mmio, if_neg (by simp [State.mmioOk, d3]), if_pos (by simp [on, has, up])]

end

/-! ### The statements -/

/-- Settles O51: a head value in the window becomes the head, and any other puts the ring into ERROR, which neither the record nor the cause
takes back. -/
theorem cqHeadRule : Obligations.CqHeadRule := by
  unfold Obligations.CqHeadRule
  intro s f r v c ok has listed alive
  refine ⟨fun ⟨below, window⟩ => ?inside, fun outside => ?outside⟩
  case inside => rw [exec_cqHead_of_ok ok has, State.headValue_of_window listed alive below window]
  case outside =>
    obtain ⟨why, error⟩ := State.headValue_of_outside (shadow := false) listed alive outside
    refine ⟨why, _, exec_cqHead_of_ok ok has, by rw [error]; rfl, ?_⟩
    rw [error]
    simpa using State.cqError_st

/-- Settles O43: each doorbell and register where the memory space answers, and the one answer of a function in D3hot. -/
theorem doorbellsAndRegisters : Obligations.DoorbellsAndRegisters := by
  unfold Obligations.DoorbellsAndRegisters
  refine ⟨fun s f ok => ⟨fun r v has => ⟨fun q listed alive below => ?tail, fun q listed alive high => ?tailHigh, fun none => ?noSq,
      fun q listed error => ?sqInError⟩,
    fun r v has => ⟨fun none => ?noCq, fun c listed error => ?cqInError, fun c listed alive below window => ?head⟩,
    fun r q addr us t listed shadow active due issued => exec_shadowPoll_of_due listed shadow due issued,
    fun x hx => ⟨fun active => ?admin, fun idle deep shallow vector asq acq contexts => ?makes, fun idle refused => ?refuses⟩,
    fun v => ?cause, fun v => ?mask, fun v => ?intEn, fun v => ?force,
    fun wide above habove => ⟨fun pf => ?pfRead, fun vf => ?vfRead⟩,
    fun v d x a h y m has entry dword => exec_msixEntryWrite_of_ok ok has entry dword⟩,
    fun s u f v m on has up d3 hu => ?d3hot⟩
  case tail => rw [exec_sqTail_of_ok ok has, State.tailValue_of_below listed alive below Iff.rfl]
  case tailHigh => rw [exec_sqTail_of_ok ok has, State.tailValue_of_high listed alive high]
  case noSq => rw [exec_sqTail_of_ok ok has, State.tailValue_of_none none]
  case sqInError => rw [exec_sqTail_of_ok ok has, State.tailValue_of_error listed error]
  case noCq => rw [exec_cqHead_of_ok ok has, State.headValue_of_none none]
  case cqInError => rw [exec_cqHead_of_ok ok has, State.headValue_of_error listed error]
  case head => rw [exec_cqHead_of_ok ok has, State.headValue_of_window listed alive below window]
  case admin => rw [exec_adminEn_of_ok ok, State.adminEnable_of_active (hx ▸ active)]
  case makes =>
    subst hx
    rw [exec_adminEn_of_ok ok, State.adminEnable_of_allowed idle ⟨deep, shallow, vector, asq, acq, contexts⟩]
  case refuses =>
    subst hx
    rw [exec_adminEn_of_ok ok, State.adminEnable_of_refused idle]
    rintro ⟨deep, shallow, vector, asq, acq, contexts⟩
    rcases refused with h | h | h | h | h | h
    · exact h.not_ge deep
    · exact h.not_ge shallow
    · exact h.not_gt vector
    · exact asq h
    · exact acq h
    · exact h.not_gt contexts
  case cause | mask | intEn | force => exact congrArg (act s) (State.mmio_of_ok ok)
  case pfRead => rw [exec_suppressedTotalRead_of_ok ok habove, if_pos pf]
  case vfRead => rw [exec_suppressedTotalRead_of_ok ok habove, if_neg vf]
  case d3hot =>
    have posted (t : State) : act s (s.mmio f false t) = .next (s.keepOwned u) := by rw [State.mmio_of_d3 on has up d3, hu, act_eq]; rfl
    exact ⟨fun r => ⟨posted _, posted _⟩, fun b => ⟨posted _, posted _, posted _, posted _⟩,
      fun wide => congrArg (act s) (State.mmio_of_d3 on has up d3)⟩

end Sys2Proof.Machine
end

section
/-! PROOFS. Resets and links of the host side (R530, R537, R552, R557, R558), and bus mastering, power states and completions (R541, R552, R556,
R559 to R563): each row once its guard is met, and the statements O44 and O45 put together from these. -/

namespace Sys2Proof.Machine

open Sys2Proof

section

variable {s t u : State}

theorem State.when_of {b : Bool} (h : b = true) : s.when b t = t := if_pos h

theorem State.when_of_not {b : Bool} (h : b = false) : s.when b t = s := if_neg (by simp [h])

/-! ### Resets and links (R530, R557, R558) -/

theorem exec_flr_of_on {f : FnId} (on : s.hostOn = true) (has : s.fnExists f = true) (up : (s.ep f.ep).up = true) :
    exec (.flr f) s = .next (s.keepOwned ((if f.num = 0 then s.resetEp f.ep true else s.resetFn true f).run)) := by
  change execFlr f s = _
  rw [execFlr, on, has, up, Bool.and_self, Bool.and_self, State.when_true, act_eq]

theorem exec_vfEnableCleared_of_on {e : Nat} (on : s.hostOn = true) (used : s.endpoints.contains e = true)
    (enabled : (s.ep e).vfEnable = true) (hu : u = s.over (s.vfsOf e) fun s f => s.resetFn true f) :
    exec (.vfEnableCleared e) s = .next (s.keepOwned ((u.setEp e { u.ep e with vfEnable := false }).run)) := by
  change execVfEnableCleared e s = _
  rw [execVfEnableCleared, on, used, enabled, Bool.and_self, Bool.and_self, State.when_true, act_eq, hu]

theorem exec_hostLinkDown_of_up {e : Nat} (on : s.hostOn = true) (up : (s.ep e).up = true) :
    exec (.hostLinkDown e) s = .next (s.keepOwned ((s.linkLost e).run)) := by
  change execHostLinkDown e s = _
  rw [execHostLinkDown, on, up, Bool.and_self, State.when_true, act_eq]

theorem exec_hotReset_of_up {e : Nat} (on : s.hostOn = true) (up : (s.ep e).up = true) :
    exec (.hotReset e) s
      = .next (s.keepOwned (((s.fnEvent Ev.hostHotReset ⟨e, 0⟩ (s.functionsOf e).length 0).linkLost e).run)) := by
  change execHotReset e s = _
  rw [execHotReset, on, up, Bool.and_self, State.when_true, act_eq]

theorem exec_hostLinkUp_of_down {e g w : Nat} {flit : Bool} (on : s.hostOn = true) (used : s.endpoints.contains e = true)
    (down : (s.ep e).up = false) (rate : g ∈ [2, 5, 8, 16, 32, 64]) (width : w ∈ [1, 2, 4, 8, 16])
    (lanes : w ≤ 8 ∨ s.life.bifurcated = false) (mode : flit = true ∨ g ≠ 64) :
    exec (.hostLinkUp e g w flit) s
      = .next (s.keepOwned ((s.setEp e { s.ep e with up := true, speed := g, width := w, flit := flit, upAt := s.now }).fnEvent
          Ev.hostLinkUp ⟨e, 0⟩ (g + w * 256 + b2n flit * 65536) 0)) := by
  change execHostLinkUp e g w flit s = _
  rw [execHostLinkUp, State.when_of, act_eq]
  have rate' := List.contains_iff_mem.mpr rate
  have width' := List.contains_iff_mem.mpr width
  simp only [Bool.and_eq_true, Bool.or_eq_true, decide_eq_true_eq, Bool.not_eq_true']
  exact ⟨⟨⟨⟨⟨⟨on, used⟩, down⟩, rate'⟩, width'⟩, lanes⟩, mode⟩

/-! ### Errors of the link and refused reads (R537, R552) -/

/-- What an error of the link logs in the endpoint's PF (R552). -/
def State.linkError (s : State) (e : Nat) : LinkError → State
  | .receiverError => s.aerCorrectable ⟨e, 0⟩ 0
  | .badTlp => if (s.ep e).flit = true then s else s.aerCorrectable ⟨e, 0⟩ 6
  | .badDllp => if (s.ep e).flit = true then s else s.aerCorrectable ⟨e, 0⟩ 7
  | .replayRollover => s.aerCorrectable ⟨e, 0⟩ 8
  | .replayTimeout => s.aerCorrectable ⟨e, 0⟩ 12
  | .dllProtocol => s.aer ⟨e, 0⟩ 4 false
  | .flowControl => s.aer ⟨e, 0⟩ 13 false
  | .overflow => s.aer ⟨e, 0⟩ 17 false
  | .malformedTlp => s.aer ⟨e, 0⟩ 18 false
  | .ecrc => if (s.fn ⟨e, 0⟩).ecrc.1 = true then s.aer ⟨e, 0⟩ 19 false else s

theorem State.when_not (b : Bool) : s.when (!b) t = if b = true then s else t := by
  cases b <;> rfl

theorem exec_hostLinkError_of_on {e : Nat} (on : s.hostOn = true) (used : s.endpoints.contains e = true) (error : LinkError) :
    exec (.hostLinkError e error) s = .next (s.keepOwned (s.linkError e error)) := by
  have guard : (s.hostOn && s.endpoints.contains e) = true := by rw [on, used, Bool.and_self]
  have row : exec (.hostLinkError e error) s = act s (s.linkError e error) := by
    refine congrArg (act s) ((State.when_of guard).trans ?_)
    cases error
    case badTlp | badDllp => exact State.when_not _
    all_goals rfl
  rw [row, act_eq]

theorem exec_badRegisterRead_of_refused {f : FnId} {bar offset len : Nat} (ok : s.mmioOk f = true) (inside : offset + len ≤ barSize f bar)
    (notDdt : ¬ (bar = 0 ∧ offset < 4096 ∧ 1 ≤ len ∧ offset + len ≤ 4096)) (notFine : ¬ ((len = 4 ∨ len = 8) ∧ offset % len = 0)) :
    exec (.badRegisterRead f bar offset len) s
      = .next (s.keepOwned (if unoccupied f bar offset len = true then s else s.badAccess f bar len true offset)) := by
  change execBadRegisterRead f bar offset len s = _
  rw [execBadRegisterRead, State.mmio_of_ok ok, act_eq]
  have ddt : (decide (bar = 0) && decide (offset < 4096) && decide (1 ≤ len) && decide (offset + len ≤ 4096)) = false := by
    simpa [and_assoc] using notDdt
  have fine : ((decide (len = 4) || decide (len = 8)) && decide (offset % len = 0)) = false := by simpa using notFine
  rw [ddt, fine, decide_eq_true inside, Bool.not_false, Bool.and_true, Bool.true_and, Bool.false_or, State.when_not]

/-! ### Bus mastering and power states (R556, R560) -/

section

variable {f : FnId}

theorem exec_busMasterEnableCleared_of_on (on : s.hostOn = true) (has : s.fnExists f = true) (bme : (s.fn f).bme = true) :
    exec (.busMasterEnableCleared f) s
      = .next (s.keepOwned ((if (s.fn f).d3 = true then s.setFn f { s.fn f with bme := false }
          else (s.setFn f { s.fn f with bme := false }).stopRequests f).run)) := by
  change execBusMasterEnableCleared f s = _
  rw [execBusMasterEnableCleared, State.when_of (by rw [on, has, bme]; rfl), act_eq]

theorem exec_busMasterEnableSet_of_on (on : s.hostOn = true) (has : s.fnExists f = true) (off : (s.fn f).bme = false) :
    exec (.busMasterEnableSet f) s
      = .next (s.keepOwned (((s.setFn f { s.fn f with bme := true }).resumeRequests f).run)) := by
  change execBusMasterEnableSet f s = _
  rw [execBusMasterEnableSet, State.when_of (by rw [on, has, off]; rfl), act_eq]

theorem exec_d3hotEntry_of_on (on : s.hostOn = true) (has : s.fnExists f = true) (d0 : (s.fn f).d3 = false) :
    exec (.d3hotEntry f) s
      = .next (s.keepOwned ((if (s.fn f).bme = true then (s.setFn f { s.fn f with d3 := true }).stopRequests f
          else s.setFn f { s.fn f with d3 := true }).run)) := by
  change execD3hotEntry f s = _
  rw [execD3hotEntry, State.when_of (by rw [on, has, d0]; rfl), act_eq]

theorem exec_d0Return_of_on (on : s.hostOn = true) (has : s.fnExists f = true) (d3 : (s.fn f).d3 = true) :
    exec (.d0Return f) s = .next (s.keepOwned (((s.setFn f { s.fn f with d3 := false }).resumeRequests f).run)) := by
  change execD0Return f s = _
  rw [execD0Return, State.when_of (by rw [on, has, d3]; rfl), act_eq]

end

/-! ### Completions and timeouts (R541, R552, R559, R562, R563) -/

section

variable {e tag : Nat}

section

variable {cpl : HostCpl} (on : s.hostOn = true) (up : (s.ep e).up = true)

include on up

theorem exec_hostCompletion_of_read {r : HostRead} (asked : (s.ep e).reads.look tag = some r) :
    exec (.hostCompletion e tag cpl) s = .next (s.keepOwned ((s.readAnswered e tag r cpl).run)) := by
  change execHostCompletion e tag cpl s = _
  simp [execHostCompletion, on, up, asked]

theorem exec_hostCompletion_of_held {h : HeldTag} (answered : (s.ep e).reads.look tag = none) (held : (s.ep e).held.look tag = some h) :
    exec (.hostCompletion e tag cpl) s
      = .next (s.keepOwned (if h.silent = true then s
          else (s.aer h.fn 16 true).fnEvent Ev.hostLateCpl h.fn tag (s.now - h.since))) := by
  change execHostCompletion e tag cpl s = _
  simp [execHostCompletion, on, up, answered, held]

theorem exec_hostCompletion_of_unexpected (answered : (s.ep e).reads.look tag = none) (free : (s.ep e).held.look tag = none) :
    exec (.hostCompletion e tag cpl) s = .next (s.keepOwned (s.aer ⟨e, 0⟩ 16 true)) := by
  change execHostCompletion e tag cpl s = _
  simp [execHostCompletion, on, up, answered, free]

end

theorem exec_completionTimeout_of_due {r : HostRead} (asked : (s.ep e).reads.look tag = some r)
    (due : r.at_ + (s.fn r.fn).timeoutUs ≤ s.now)
    (hu : u = s.setEp e { s.ep e with
      reads := (s.ep e).reads.del tag,
      held := (s.ep e).held.put tag { fn := r.fn, since := s.now, timeout := (s.fn r.fn).timeoutUs, silent := r.orphan } }) :
    exec (.completionTimeout e tag) s
      = .next (s.keepOwned
          (if r.orphan = true then u.pump.run
           else ((((u.aer r.fn 14 false).fnEvent Ev.hostCplTimeout r.fn tag (b2n !r.kind.isEntry)).readLost r.kind).pump).run)) := by
  change execCompletionTimeout e tag s = _
  simp only [execCompletionTimeout, asked, if_neg (Nat.not_lt.mpr due), act_eq, hu]

theorem exec_tagHoldExpiry_of_due {h : HeldTag} (held : (s.ep e).held.look tag = some h) (due : h.since + 2 * h.timeout ≤ s.now) :
    exec (.tagHoldExpiry e tag) s = .next (s.keepOwned (s.setEp e { s.ep e with held := (s.ep e).held.del tag }).pump) := by
  change execTagHoldExpiry e tag s = _
  simp only [execTagHoldExpiry, held, ge_iff_le, if_pos due, act_eq]

end

end

/-! ### The statements -/

/-- Settles O44: each row of the link past its guard, the errors by what each logs. -/
theorem hostLinkRows : Obligations.HostLinkRows := by
  unfold Obligations.HostLinkRows
  refine fun s on => ⟨fun f pf has up => ?pf, fun f vf has up => ?vf, fun _ _ used enabled hu => exec_vfEnableCleared_of_on on used enabled hu,
    fun e u up hu => ?down, fun _ up => exec_hotReset_of_up on up,
    fun _ _ _ _ used down rate width lanes mode => exec_hostLinkUp_of_down on used down rate width lanes mode, fun e used => ?errors,
    fun f bar offset len ok inside notDdt notFine => ?reads⟩
  case pf => rw [exec_flr_of_on on has up, if_pos pf]
  case vf => rw [exec_flr_of_on on has up, if_neg vf]
  case down => rw [exec_hostLinkDown_of_up on up, State.linkLost, hu]
  case errors =>
    have row := exec_hostLinkError_of_on on used
    exact ⟨row _, row _, row _, row _, row _, row _, row _, row _, row _, row _⟩
  case reads =>
    have row := exec_badRegisterRead_of_refused ok inside notDdt notFine
    refine ⟨fun block => ?occupied, fun none => ?none⟩
    case occupied =>
      rw [row, block]
      rfl
    case none => rw [row, if_pos none]

/-- Settles O45: each row past its guard, a completion by what its tag stands for. -/
theorem hostRequestRows : Obligations.HostRequestRows := by
  unfold Obligations.HostRequestRows
  exact fun s on => ⟨fun _ => exec_busMasterEnableCleared_of_on on, fun _ => exec_busMasterEnableSet_of_on on, fun _ => exec_d3hotEntry_of_on on,
    fun _ => exec_d0Return_of_on on, fun _ _ _ _ up asked => exec_hostCompletion_of_read on up asked,
    fun _ _ _ _ up answered held => exec_hostCompletion_of_held on up answered held,
    fun _ _ _ up answered free => exec_hostCompletion_of_unexpected on up answered free,
    fun _ _ _ _ => exec_completionTimeout_of_due, fun _ _ _ => exec_tagHoldExpiry_of_due⟩

end Sys2Proof.Machine
end

section
/-! PROOFS. The management sideband: its transfers, alerts, I3C common commands and mailbox (R697 to R714), the writes of a BAR and of
configuration space (R535, R537), and SUPPRESSED_TOTAL (R722); the statements O48, O49, O52 and O59 put together from these. -/

namespace Sys2Proof.Machine

open Sys2Proof

section

variable {s u : State} {off n : Nat} {data : List Byte}

/-! ### Transfers of the sideband (R702, R703) -/

section

variable (on : s.sbOn = true)

include on

theorem exec_smbus_of_on (pec : Option Bool) :
    exec (.registerWrite (.smbus off n data pec)) s = .next (s.keepOwned (s.sbSmbus off n data pec)) :=
  congrArg (act s) (if_pos on)

theorem exec_i3c_of_on : exec (.registerWrite (.i3c off data)) s = .next (s.keepOwned (s.sbI3c off data)) := congrArg (act s) (if_pos on)

theorem exec_smbusRead_of_on (pec : Bool) :
    exec (.registerWrite (.smbusRead off pec)) s = .next (s.keepOwned (s.sbBlockRead off pec)) :=
  congrArg (act s) (if_pos on)

theorem exec_i3cRead_of_on : exec (.registerWrite (.i3cRead n)) s = .next (s.keepOwned (s.sbPrivateRead n)) := congrArg (act s) (if_pos on)

end

theorem State.sbSmbus_of_wrongPec (smbus : s.sb.i3c = false) (hu : u = s.updSb fun b => { b with pecErrors := min 65535 (b.pecErrors + 1) }) :
    s.sbSmbus off n data (some false) = u.event Ev.sbPecError 0 off u.sb.pecErrors 0 := by
  rw [State.sbSmbus, if_neg (by simp [smbus]), if_pos rfl, hu]

theorem State.sbSmbus_of_registers {pec : Option Bool} (smbus : s.sb.i3c = false) (right : pec ≠ some false) (aligned : off % 4 = 0) (least : 4 ≤ n)
    (most : n ≤ 32) (whole : n % 4 = 0) (len : data.length = n) : s.sbSmbus off n data pec = s.sbWrites off data := by
  have form : ¬ (off % 4 ≠ 0 || n < 4 || 32 < n || n % 4 ≠ 0 || data.length ≠ n) = true := by
    simp [aligned, whole, len, Nat.not_lt.mpr least, Nat.not_lt.mpr most]
  rw [State.sbSmbus, if_neg (by simp [smbus]), if_neg right, if_neg form]

theorem State.sbI3c_of_registers (i3c : s.sb.i3c = true) (aligned : off % 4 = 0) (whole : data.length % 4 = 0) :
    s.sbI3c off data = (s.updSb fun b => { b with lastOffset := off }).sbWrites off data := by
  rw [State.sbI3c, if_neg (by simp [i3c, aligned, whole])]

theorem State.sbBlockRead_of_aligned {a : Byte} {reply : List Byte} (smbus : s.sb.i3c = false) (aligned : off % 4 = 0)
    (ha : a = BitVec.ofNat 8 (2 * s.sbAddress)) (hr : reply = 32#8 :: s.sbBytes off 32) (pec : Bool) :
    s.sbBlockRead off pec
      = (s.emit (.sidebandReply (if pec = true then reply ++ [pecOf (a :: BitVec.ofNat 8 off :: (a + 1) :: reply)] else reply))).sbReadClears off
          32 := by
  rw [State.sbBlockRead, if_neg (by simp [smbus, aligned]), ha, hr]
  rfl

theorem State.sbPrivateRead_of_i3c (i3c : s.sb.i3c = true) :
    s.sbPrivateRead n
      = ((s.emit (.sidebandReply (s.sbBytes s.sb.lastOffset (min 64 n)))).sbReadClears s.sb.lastOffset (min 64 n)).updSb
          fun b => { b with lastOffset := s.sb.lastOffset + min 64 n } := by
  rw [State.sbPrivateRead, if_neg (by simp [i3c])]

/-! ### Alerts (R713) and the mode of the bus (R699) -/

section

variable (on : s.sbOn = true)

include on

theorem exec_alertResponse_of_alert (smbus : s.sb.i3c = false) (alert : s.sb.alert = true) :
    exec .alertResponse s = .next (s.keepOwned (s.emit (.sidebandReply (toLe 1 (2 * s.sbAddress)))).endAlert) :=
  congrArg (act s) (if_pos (by simp [on, smbus, alert]))

theorem exec_ibiRetry_of_alert (i3c : s.sb.i3c = true) (enabled : s.sb.ibiEnabled = true) (alert : s.sb.alert = true) (acked : Bool) :
    exec (.ibiRetry acked) s
      = .next (s.keepOwned (if acked = true then s.endAlert else if s.now < s.sb.ibiAt + 1000 then s else s.raiseIbi)) :=
  congrArg (act s) (if_neg (by simp [on, i3c, enabled, alert]))

theorem State.sbAssign_of_smbus (smbus : s.sb.i3c = false) (a : Nat) :
    s.sbAssign a = (s.updSb fun b => { b with i3c := true, dynAddr := a % 128 }).event Ev.sbMode 0 1 (a % 128) s.sbAddress := by
  rw [State.sbAssign, if_pos (by simp [on, smbus]), State.sbMode]
  simp only [Bool.and_true, b2n, if_true]

theorem exec_rstdaa_of_i3c (i3c : s.sb.i3c = true) (hu : u = s.updSb fun b => { b with i3c := false, dynAddr := 0, ibiEnabled := false }) :
    exec .rstdaa s = .next (s.keepOwned (u.event Ev.sbMode 0 0 0 s.sbAddress)) := by
  refine congrArg (act s) ((if_pos (by simp [on, i3c])).trans ?_)
  rw [State.sbMode, hu]
  simp only [Bool.and_false]
  rfl

theorem exec_enec_of_disabled (i3c : s.sb.i3c = true) (disabled : s.sb.ibiEnabled = false) :
    exec .enec s = .next (s.keepOwned (s.updSb fun b => { b with ibiEnabled := true }).raiseIbi) :=
  congrArg (act s) (if_pos (by simp [on, i3c, disabled]))

theorem exec_disec_of_i3c (i3c : s.sb.i3c = true) :
    exec .disec s = .next (s.keepOwned (s.updSb fun b => { b with ibiEnabled := false })) :=
  congrArg (act s) (if_pos (by simp [on, i3c]))

theorem State.sbAnswer_of_i3c (i3c : s.sb.i3c = true) (data : List Byte) : s.sbAnswer data = s.emit (.sidebandReply data) :=
  if_pos (by simp [on, i3c])

/-! ### The mailbox (R705, R706, R710) -/

theorem exec_mailboxComplete_of_busy {code : Nat} {words : List Word} (busy : s.sb.busy = true)
    (result : s.mailboxResult s.sb.cmd s.sb.cmdArgs = (code, words))
    (hu : u = if s.sb.cmd = 5 ∧ code = 0 then s.clearRecords none else s) :
    exec .mailboxComplete s
      = .next (s.keepOwned ((u.updSb fun b => { b with
          busy := false, stale := false, resultCode := code, cmdSeq := nextCmdSeq b.cmdSeq,
          results := words ++ List.replicate (8 - words.length) 0 }).alert .cmdDone)) := by
  refine congrArg (act s) ((if_neg (by simp [on, busy])).trans ?_)
  rw [result, hu]
  simp only [Bool.and_eq_true, decide_eq_true_eq]

/-- The mailbox commands are the CMD writes of the codes 1 to 7. -/
theorem exec_of_mailboxCommand {c : Instr}
    (code : (c, n) ∈ [(Instr.getIdentity, 1), (.getHealth, 2), (.readLog, 3), (.readEvent, 4), (.clearEvents, 5), (.readHistogram, 6),
      (.readPack, 7)]) : exec c s = .next (s.keepOwned (s.sbCommand n)) := by
  have row : exec c s = act s (s.mailbox n) := by
    simp only [List.mem_cons, List.not_mem_nil, Prod.mk.injEq, or_false] at code
    obtain ⟨rfl, rfl⟩ | ⟨rfl, rfl⟩ | ⟨rfl, rfl⟩ | ⟨rfl, rfl⟩ | ⟨rfl, rfl⟩ | ⟨rfl, rfl⟩ | ⟨rfl, rfl⟩ := code <;> rfl
  rw [row, act_eq, State.mailbox, if_pos on]

end

theorem State.sbWrite_args {v : Word} (low : 0x18 ≤ off) (high : off < 0x28) :
    s.sbWrite off v = s.updSb fun b => { b with args := b.args.zipIdx.map fun e => if e.2 = (off - 0x18) / 4 then v else e.1 } := by
  unfold State.sbWrite
  split
  case h_5 => exact if_pos (by simp [low, high])
  all_goals omega

/-! ### Writes of a BAR (R537) and of base address registers (R535) -/

section

variable {f : FnId} {bar len : Nat} {v : BitVec 64}

theorem State.writeWord_of_empty {w : Word} (empty : blockAt f bar off = .empty) : s.writeWord f bar off w = s := by
  rw [State.writeWord, empty]

theorem blockAt_of_unoccupied (none : unoccupied f bar off len = true) {i : Nat} (inside : i < len) : blockAt f bar (off + i) = .empty :=
  of_decide_eq_true (List.all_eq_true.mp none _ (List.mem_map.mpr ⟨i, List.mem_range.mpr inside, rfl⟩))

theorem State.barWrite_of_unoccupied (ok : s.mmioOk f = true) (inside : off + len ≤ barSize f bar) (none : unoccupied f bar off len = true) :
    s.barWrite f bar off len v false = s := by
  simp [State.barWrite, Nat.not_lt.mpr inside, ok, none]

theorem State.barWrite_of_words (ok : s.mmioOk f = true) (inside : off + len ≤ barSize f bar)
    (size : len = 4 ∨ len = 8 ∧ blockAt f bar off ≠ .doorbell) (aligned : off % len = 0) (hu : u = s.writeWord f bar off (w32 v.toNat)) :
    s.barWrite f bar off len v false = if len = 8 then u.writeWord f bar (off + 4) (w32 (v.toNat / 2 ^ 32)) else u := by
  cases none : unoccupied f bar off len with
  | true =>
    have first : blockAt f bar off = .empty := blockAt_of_unoccupied none (i := 0) (by omega)
    rw [State.barWrite_of_unoccupied ok inside none, hu, State.writeWord_of_empty first]
    split
    · rw [State.writeWord_of_empty (blockAt_of_unoccupied none (by omega))]
    · rfl
  | false =>
    have form : ¬ ((len ≠ 4 && len ≠ 8) || off % len ≠ 0 || (blockAt f bar off = .doorbell && len ≠ 4)) = true := by
      obtain rfl | ⟨rfl, notDoorbell⟩ := size
      · simp [aligned]
      · simp [aligned, notDoorbell]
    rw [State.barWrite, if_neg (Nat.not_lt.mpr inside), if_neg (by simp [ok]), if_neg Bool.false_ne_true, if_neg (by simp [none]), if_neg form, hu]

/-- The low dword of a base holds what is written above the BAR's size. -/
theorem barDword_low {size v : Nat} (b : BitVec 64) (small : v < 2 ^ 32) :
    (barDword size false b v).toNat % 2 ^ 32 = v / size * size := by
  have below : v / size * size ≤ v := Nat.div_mul_le_self v size
  have wide := b.isLt
  simp only [barDword, Bool.false_eq_true, if_false, BitVec.toNat_ofNat, Nat.mod_eq_of_lt small]
  omega

theorem barDword_high {size v : Nat} (b : BitVec 64) (small : v < 2 ^ 32) : (barDword size true b v).toNat / 2 ^ 32 = v := by
  simp only [barDword, if_true, BitVec.toNat_ofNat, Nat.mod_eq_of_lt small]
  omega

@[simp] theorem State.fn_setFn_self (x : Fn) : (s.setFn f x).fn f = x := by
  rw [State.fn, State.setFn_fns, Store.read_putD, if_pos rfl]

theorem State.fn_setFn_other {g : FnId} (x : Fn) (other : fnKey g ≠ fnKey f) : (s.setFn f x).fn g = s.fn g := by
  rw [State.fn, State.setFn_fns, Store.read_putD, if_neg other.symm, State.fn]

/-- A base address register of a PF reads as the base's dword, the low one with the bits for 64-bit and not prefetchable. -/
theorem State.readBar_writeBar (e : Nat) {v : Nat} (small : v < 2 ^ 32) :
    (s.writeBar ⟨e, 0⟩ .low0 v).readBar ⟨e, 0⟩ .low0 = v / 0x1000000 * 0x1000000 + 4
    ∧ (s.writeBar ⟨e, 0⟩ .low2 v).readBar ⟨e, 0⟩ .low2 = v / 0x10000 * 0x10000 + 4
    ∧ (s.writeBar ⟨e, 0⟩ .high0 v).readBar ⟨e, 0⟩ .high0 = v
    ∧ (s.writeBar ⟨e, 0⟩ .high2 v).readBar ⟨e, 0⟩ .high2 = v := by
  simp only [State.writeBar, State.readBar, ne_eq, not_true_eq_false, if_false, State.fn_setFn_self, barDword_low _ small, barDword_high _ small,
    and_self, and_true]
  exact ⟨rfl, rfl⟩

end

/-! ### SUPPRESSED_TOTAL (R722) -/

/-- Counting a record unrecorded over a list of PFs reaches each of the list once. -/
theorem State.over_suppressedTotal {l : List Nat} (distinct : l.Nodup) (s : State) (e : Nat) :
    ((s.over (l.map fun e => (⟨e, 0⟩ : FnId)) fun s f =>
        s.setFn f { s.fn f with suppressedTotal := min 0xFFFFFFFF ((s.fn f).suppressedTotal + 1) }).fn ⟨e, 0⟩).suppressedTotal
      = if e ∈ l then min 0xFFFFFFFF ((s.fn ⟨e, 0⟩).suppressedTotal + 1) else (s.fn ⟨e, 0⟩).suppressedTotal := by
  induction l generalizing s with
  | nil => rfl
  | cons a l ih =>
    obtain ⟨fresh, rest⟩ := List.nodup_cons.mp distinct
    rw [List.map_cons, State.over_cons, ih rest]
    by_cases h : e = a
    · subst h
      rw [if_neg fresh, if_pos List.mem_cons_self, State.fn_setFn_self]
    · have key : fnKey ⟨e, 0⟩ ≠ fnKey ⟨a, 0⟩ := by simpa [fnKey] using h
      rw [State.fn_setFn_other _ key]
      simp only [List.mem_cons, h, false_or]

theorem State.endpoints_nodup (s : State) : s.endpoints.Nodup := by
  unfold State.endpoints
  split <;> decide

end

/-! ### The statements -/

/-- Settles O48: each row of the sideband past its guard. -/
theorem sidebandRows : Obligations.SidebandRows := by
  unfold Obligations.SidebandRows
  refine fun s on => ⟨fun off n data u smbus hu => ?wrongPec, fun off n data pec smbus right aligned least most whole len => ?blockWrite,
    fun off data i3c aligned whole => ?privateWrite, fun off a reply smbus aligned ha hr => ?blockRead, fun n i3c => ?privateRead,
    fun v => ?status, fun v u hu => ?enable, ?pecErrors, exec_alertResponse_of_alert on,
    fun i3c enabled alert => exec_ibiRetry_of_alert on i3c enabled alert true, fun i3c enabled alert late => ?again,
    fun a smbus => ?assign, fun _ => exec_rstdaa_of_i3c on, exec_enec_of_disabled on, exec_disec_of_i3c on,
    fun _ _ _ => exec_mailboxComplete_of_busy on⟩
  case wrongPec => rw [exec_smbus_of_on on, State.sbSmbus_of_wrongPec smbus hu]
  case blockWrite => rw [exec_smbus_of_on on, State.sbSmbus_of_registers smbus right aligned least most whole len]
  case privateWrite => rw [exec_i3c_of_on on, State.sbI3c_of_registers i3c aligned whole]
  case blockRead =>
    have row := State.sbBlockRead_of_aligned smbus aligned ha hr
    exact ⟨by rw [exec_smbusRead_of_on on, row, if_neg Bool.false_ne_true], by rw [exec_smbusRead_of_on on, row, if_pos rfl]⟩
  case privateRead => rw [exec_i3cRead_of_on on, State.sbPrivateRead_of_i3c i3c]
  case status | pecErrors => exact congrArg (act s) (if_pos on)
  case enable =>
    subst hu
    exact congrArg (act s) (if_pos on)
  case again => rw [exec_ibiRetry_of_alert on i3c enabled alert, if_neg Bool.false_ne_true, if_neg (Nat.not_lt.mpr late)]
  case assign =>
    have row := congrArg (act s) (State.sbAssign_of_smbus on smbus a)
    exact ⟨row, row⟩

/-- Settles O49: the answers through `sbAnswer`, the BAR's words by whether a block occupies them. -/
theorem i3cAnswersAndRegisters : Obligations.I3cAnswersAndRegisters := by
  unfold Obligations.I3cAnswersAndRegisters
  refine ⟨fun s on i3c => ?answers, fun s u f bar off len v ok inside size aligned hu => ?words, fun s f bar off len v ok inside none => ?discarded,
    fun s e v small _ => State.readBar_writeBar e small, fun s f x v on has up => ?config⟩
  case answers =>
    have row (data : List Byte) := congrArg (act s) (State.sbAnswer_of_i3c on i3c data)
    exact ⟨row _, row _, row _, row _, row _, row _⟩
  case words => exact congrArg (fun t : State => act s t.run) (State.barWrite_of_words ok inside size aligned hu)
  case discarded => exact congrArg (fun t : State => act s t.run) (State.barWrite_of_unoccupied ok inside none)
  case config => rfl

/-- Settles O52: a CMD write by BUSY, an ARG write by its offset. -/
theorem mailboxCommandStarts : Obligations.MailboxCommandStarts := by
  unfold Obligations.MailboxCommandStarts
  refine ⟨fun s c n on code => ⟨fun idle => ?starts, fun busy => ?rejected⟩, fun s off v low high => ?arg⟩
  case starts =>
    rw [exec_of_mailboxCommand on code, State.sbCommand, if_neg (by simp [idle])]
    rfl
  case rejected =>
    rw [exec_of_mailboxCommand on code, State.sbCommand, if_pos busy]
    rfl
  case arg => rw [State.sbWrite_args low high, State.updSb]

/-- Settles O59: the count goes once to each PF; a PF's read writes its own function alone. -/
theorem suppressedTotalPerPf : Obligations.SuppressedTotalPerPf := by
  unfold Obligations.SuppressedTotalPerPf
  refine ⟨fun s code e has => ?counted, fun s e ok => ⟨_, exec_suppressedTotalRead_of_ok ok rfl, ?cleared, fun f other => ?others⟩⟩
  case counted => exact (State.over_suppressedTotal s.endpoints_nodup _ e).trans (if_pos has)
  case cleared =>
    rw [if_pos rfl]
    exact congrArg Fn.suppressedTotal (State.fn_setFn_self (s := s) { s.fn ⟨e, 0⟩ with suppressedTotal := 0 })
  case others =>
    rw [if_pos rfl]
    exact State.fn_setFn_other { s.fn ⟨e, 0⟩ with suppressedTotal := 0 } other

end Sys2Proof.Machine
end

section
/-! PROOFS. SLOT_CONTROL (R303 to R307, R642), PAIR_CONTROL and ARRAY_IMPORT (R496, R527, R641): each command once it may start, and the
statements O24 and O25 put together from these. -/

namespace Sys2Proof.Machine

open Sys2Proof

section

variable {s t : State} {acc n : Nat} {c : Cmd}

/-! ### SLOT_CONTROL -/

theorem State.slotControl_of_start {op : Nat} (start : s.startable acc 0xC1 (fun e => e.pfield 0 8 3 = op) = some c) (f : Cmd → Nat → State) :
    s.slotControl acc op f = f c c.sqe.slotNo :=
  State.start_some _ start

theorem exec_slotPowerOn_of_start (slot : n = c.sqe.slotNo) (ht : t = s.cancelWindow n)
    (start : s.startable acc 0xC1 (fun e => e.pfield 0 8 3 = 0) = some c) :
    exec (.slotPowerOn acc) s
      = .next (s.keepOwned
          ((if (t.port n).pwrEn = true ∧ (t.port n).sawGood = true ∧ (t.port n).offAt = none then t.finish acc St.success
            else if (t.port n).pwrEn = true then t.slotWait acc n
            else (t.slotOn n).slotWait acc n).run)) := by
  subst slot ht
  refine congrArg (fun u : State => act s u.run) ((State.slotControl_of_start start _).trans ?_)
  dsimp only
  rw [apply_ite (State.slotWait · acc c.sqe.slotNo)]
  simp only [Bool.and_eq_true, Option.isNone_iff_eq_none, and_assoc]

theorem exec_slotPowerOff_of_start (slot : n = c.sqe.slotNo) (ht : t = s.cancelWindow n)
    (start : s.startable acc 0xC1 (fun e => e.pfield 0 8 3 = 1) = some c) :
    exec (.slotPowerOff acc) s
      = .next (s.keepOwned
          ((if t.slotProtected n = true ∧ (t.port n).buttonPolicy = false ∧ c.sqe.pbit 0 16 = false then t.finish acc St.slotRefused
            else if (t.port n).pwrEn = false then (if t.memberLive n = true then t.failMember n 7 false else t).finish acc St.success
            else if (t.port n).offAt ≠ none then (t.slotEnd n [0] false 1).slotWait acc n
            else (t.failAndOff n).slotWait acc n).run)) := by
  subst slot ht
  refine congrArg (fun u : State => act s u.run) ((State.slotControl_of_start start _).trans ?_)
  simp only [Bool.and_eq_true, Bool.not_eq_true', Option.isSome_iff_ne_none, and_assoc]

/-! ### PAIR_CONTROL -/

theorem exec_pairBind_of_partner {p : BitVec 256} (start : s.startable acc 0xB9 (fun e => e.pfield 0 0 2 = 0) = some c)
    (partner : s.pair.partner = some p) (ready : s.life.st = .ready) (present : s.pair.partnerPresent = true)
    (standby : s.pair.partnerStandby = true) (own : s.foreignHere = false) :
    exec (.pairBind acc) s
      = .next (s.keepOwned (((s.writeLabels fun l => { l with partnerId := p }).pairBound 0 p).finish c.acc St.success)) := by
  change execPairBind acc s = _
  rw [execPairBind, State.start_some _ start, partner, act_eq]
  simp [ready, present, standby, own]

theorem exec_pairBind_of_refused (start : s.startable acc 0xB9 (fun e => e.pfield 0 0 2 = 0) = some c)
    (refused : s.pair.partner = none ∨ s.life.st ≠ .ready ∨ s.pair.partnerPresent = false ∨ s.pair.partnerStandby = false
      ∨ s.foreignHere = true) :
    exec (.pairBind acc) s = .next (s.keepOwned (s.finish c.acc St.pairRefused)) := by
  change execPairBind acc s = _
  rw [execPairBind, State.start_some _ start, act_eq]
  cases partner : s.pair.partner with
  | none => rfl
  | some p =>
    have bad : (!(decide (s.life.st = .ready) && s.pair.partnerPresent && s.pair.partnerStandby && !s.foreignHere)) = true := by
      simpa [partner, or_assoc] using refused
    dsimp only
    rw [bad, firstFail_cons, if_pos rfl, State.check_some]

theorem exec_pairUnbind_of_start (start : s.startable acc 0xB9 (fun e => e.pfield 0 0 2 = 1) = some c) :
    exec (.pairUnbind acc) s
      = .next (s.keepOwned (if s.foreignHere = true then s.finish c.acc St.pairRefused
          else ((s.writeLabels fun l => { l with partnerId := 0 }).pairBound 1 s.partnerId).finish c.acc St.success)) := by
  change execPairUnbind acc s = _
  rw [execPairUnbind, State.start_some _ start, act_eq]
  cases s.foreignHere <;> rfl

theorem exec_pairDiscardDump_of_start (start : s.startable acc 0xB9 (fun e => e.pfield 0 0 2 = 2) = some c)
    (ht : t = if s.life.held = true then s.releaseHeld else s) :
    exec (.pairDiscardDump acc) s = .next (s.keepOwned ((t.pairBound 2 s.pairedWith).finish c.acc St.success)) := by
  change execPairDiscardDump acc s = _
  rw [execPairDiscardDump, State.start_some _ start, act_eq, ht]

/-! ### ARRAY_IMPORT -/

theorem exec_arrayImport_of_refused (start : s.startable acc 0xB8 anyForm = some c)
    (refused : s.pair.label = none ∨ s.foreignHere = false ∨ s.life.held = true ∧ c.sqe.pfield 0 0 1 ≠ 1) :
    exec (.arrayImport acc) s = .next (s.keepVault (s.finish c.acc St.importRefused)) := by
  change execArrayImport acc s = _
  rw [execArrayImport, State.start_some _ start, vaultAct_eq]
  cases label : s.pair.label with
  | none => rfl
  | some l =>
    have bad : (!s.foreignHere || s.life.held && !decide (c.sqe.pfield 0 0 1 = 1)) = true := by simpa [label] using refused
    dsimp only
    rw [bad, firstFail_cons, if_pos rfl, State.check_some]

end

/-! ### The statements -/

/-- Settles O24: each operation's arm once its command may start. -/
theorem slotCommands : Obligations.SlotCommands := by
  unfold Obligations.SlotCommands
  refine fun s t acc n c slot ht => ⟨exec_slotPowerOn_of_start slot ht, exec_slotPowerOff_of_start slot ht, fun start => ?locateOn, fun start => ?locateOff,
    fun start => ?automatic, fun start => ?policy⟩
  all_goals
    subst slot
    exact congrArg (fun u : State => act s u.run) (State.slotControl_of_start start _)

/-- Settles O25: BIND, UNBIND and DISCARD_DUMP by their guards; ARRAY_IMPORT by the label and what is held. -/
theorem pairCommands : Obligations.PairCommands := by
  unfold Obligations.PairCommands
  refine fun s acc c => ⟨fun p => exec_pairBind_of_partner, exec_pairBind_of_refused, fun start own => ?unbound, fun start foreign => ?refused,
    fun t => exec_pairDiscardDump_of_start, exec_arrayImport_of_refused, fun l start label foreign allowed => ?imported⟩
  case unbound => rw [exec_pairUnbind_of_start start, if_neg (by simp [own])]
  case refused => rw [exec_pairUnbind_of_start start, if_pos foreign]
  case imported =>
    have passed : firstFail [(!s.foreignHere || (s.life.held && !decide (c.sqe.pfield 0 0 1 = 1)), St.importRefused)] = none := by
      have good : (!s.foreignHere || s.life.held && !decide (c.sqe.pfield 0 0 1 = 1)) = false := by
        simpa [foreign, Decidable.imp_iff_not_or] using allowed
      rw [good, firstFail_cons, firstFail_nil, if_neg Bool.false_ne_true]
    refine congrArg (fun u => Host.Outcome.next (s.keepVault u)) ((State.start_some _ start).trans ?_)
    rw [label]
    change s.check c (firstFail [(!s.foreignHere || (s.life.held && !decide (c.sqe.pfield 0 0 1 = 1)), St.importRefused)]) _ = _
    rw [passed, State.check_none]
    dsimp -zeta only
    unfold State.releaseHeld
    -- the model and the statement name other states of one chain: they agree at the array taken, and from there at the command that waits
    generalize (if s.life.held = true then _ else s) = r
    extract_lets _ _ _ _ _ standing _ resumed _ waiting _ standing' resumed' _ _ waiting' _
    have sameArray : resumed' = resumed := rfl
    clear_value resumed'
    subst sameArray
    clear_value resumed
    have sameWait : waiting' = waiting := rfl
    clear_value waiting'
    subst sameWait
    rfl

end Sys2Proof.Machine
end

section
/-! PROOFS. Pairing, the dump that goes to the partner or comes from it, and the array metadata (R495, R502 to R518, R658): each row
once its guard is met, and the statements O41 and O42 put together from these. -/

namespace Sys2Proof.Machine

open Sys2Proof

section

variable {s t : State}

/-! ### Heartbeats and the arbiter's pins (R495, R510, R512) -/

theorem State.live_eq_true_iff : s.live = true ↔ s.life.inReset = false ∧ s.lehrOn = false := by simp [State.live]

theorem exec_partnerLost_of_due (live : s.live = true) (expects : s.expectsPartner = true) (once : s.pair.partnerLost = false)
    (due : s.pair.lastBeat + 100000 ≤ s.now) :
    exec .partnerLost s
      = .next (s.keepOwned ((({ s with pair := { s.pair with partnerPresent := false, partnerLost := true } } : State).event
          Ev.partnerLost s.sideNo (idLow (s.pair.partner.getD s.pairedWith)) 0 0).raisePfs .pair)) :=
  congrArg (act s) (if_neg (by simp [live, expects, once, due]))

theorem exec_pairHeartbeatSend_of_due (live : s.live = true) (due : s.pair.sentAt + 10000 ≤ s.now) :
    exec .pairHeartbeatSend s
      = .next (s.keepOwned (({ s with pair := { s.pair with sentAt := s.now } } : State).emit (.pairFrame Config.identity
          (s.life.st = DevState.standby)))) :=
  congrArg (act s) (if_neg (by simp [live, due]))

theorem exec_arbHbToggle_of_due (live : s.live = true) (beats : s.life.hbStopped = false) (due : s.life.hbAt + 45000 ≤ s.now)
    (serves : s.life.st ∈ [DevState.ready, .stopping, .stopped, .standby, .restoring]) :
    exec .arbHbToggle s
      = .next (s.keepOwned (({ s with life := { s.life with hb := !s.life.hb, hbAt := s.now } } : State).emit (.arbHb (!s.life.hb)))) := by
  have beating : [DevState.ready, .stopping, .stopped, .standby, .restoring].contains s.life.st = true := List.contains_iff_mem.mpr serves
  exact congrArg (act s) (if_neg (by rw [beating]; simp [live, beats, due]))

/-- A release of ARB_FENCE_N clears the pin, and restarts the module that it fenced once no unsealed pass runs. -/
theorem exec_arbFenceRelease_eq :
    exec .arbFenceRelease s
      = .next (s.keepOwned
          (if s.life.inReset = true ∨ s.life.st ≠ .fenced ∨ s.life.fencedBy ≠ some .pin ∨ s.lehrOn = true ∧ s.lehrSealed = false then
            { s with life := { s.life with fencePin := false } }
          else (({ s with life := { s.life with fencePin := false } } : State).setState .booting).dieReset (some (s.now + 10000)))) := by
  refine congrArg (act s) (if_congr ?_ rfl rfl)
  change (s.life.inReset || decide (s.life.st ≠ .fenced) || decide (s.life.fencedBy ≠ some .pin) || (s.lehrOn && !s.lehrSealed)) = true ↔ _
  simp [or_assoc]

theorem State.takeIgnored_of_running {a b : Nat} (running : s.lehrOn = false) : s.takeIgnored a b = s.event Ev.takeIgnored s.sideNo a b 0 :=
  if_pos (by simp [running])

theorem State.takeIgnored_of_pass {a b : Nat} (pass : s.lehrOn = true) :
    s.takeIgnored a b = { s with life := { s.life with takesIgnored :=
      (if s.life.takesIgnored.length < 16 then s.life.takesIgnored else s.life.takesIgnored.drop 1)
        ++ [⟨Ev.takeIgnored, ⟨none, s.sideNo⟩, w32 a, w32 b, 0, s.stamp.1, s.stamp.2.1, s.stamp.2.2⟩] } } :=
  if_neg (by simp [pass])

/-- A STANDBY module does not serve. -/
theorem State.serving_of_standby (standby : s.life.st = .standby) : s.serving = false := by simp [State.serving, standby]

theorem exec_arbTakeAssert_of_standby {d : List DriveMeta} {l : LabelImage} (live : s.live = true) (released : s.life.fencePin = false)
    (standby : s.life.st = .standby) (label : (readArray d).label = some l) :
    exec (.arbTakeAssert d) s
      = .next (s.keepVault (if l.partnerId = Config.identity then s.beginTakeover (readArray d) l.ownerId
          else s.takeIgnored DevState.standby.code (b2n (l.partnerId = 0)))) := by
  obtain ⟨works, running⟩ := State.live_eq_true_iff.mp live
  refine congrArg (vaultAct s) ?_
  dsimp only
  rw [works, released, standby, running, State.serving_of_standby standby, label]
  rfl

theorem exec_arbTakeAssert_of_ignored {d : List DriveMeta} (works : s.life.inReset = false) (released : s.life.fencePin = false)
    (ignores : s.life.st = .fenced ∨ s.lehrOn = false ∧ s.serving = true) :
    exec (.arbTakeAssert d) s = .next (s.keepVault (s.takeIgnored s.life.st.code (b2n (s.partnerId = 0)))) := by
  refine congrArg (vaultAct s) ?_
  dsimp only
  rw [if_neg (by simp [works, released])]
  by_cases fenced : s.life.st = .fenced
  · rw [if_pos fenced]
  · obtain ⟨running, serves⟩ := ignores.resolve_left fenced
    rw [if_neg fenced, if_neg (by simp [running]), if_pos serves]

theorem exec_fenceDrainTimeout_of_due {at_ : Nat} (drains : s.life.fenceDrain = some at_) (due : at_ + 100000 ≤ s.now) :
    exec .fenceDrainTimeout s
      = .next (s.keepOwned (s.over ((s.ports.keep fun _ (x : Port) => x.reserved && x.ctl = CtlSt.ready).map (·.1)) fun s p =>
          (s.updPort p fun x => { x with reserved := false }).emit (.driveRelease p ownKey)).gatePorts) := by
  refine congrArg (act s) ?_
  rw [drains]
  exact if_neg (Nat.not_lt.mpr due)

/-! ### Export and import (R515, R518) -/

theorem exec_exportRequest_of_held {d : Dump} (held : s.heldForExport = some d) (on : s.life.exportOff = false) :
    exec .exportRequest s
      = .next (s.keepOwned (s.emit (.exportData
          { usable := true, identity := d.identity, dumpSeq := d.seq, drained := s.drainedMask }
          { counters := d.counters, entries := d.entries, parisons := d.parisons, frames := d.frames,
            records := ((s.journal.recs.filter fun e => e.2.committed).map fun e => e.2.img), nextDestageSeq := d.nextDestageSeq }))) := by
  refine congrArg (act s) ?_
  rw [held]
  exact if_neg (by simp [on])

theorem exec_release_of_held (held : s.heldForExport.isSome = true ∨ s.live = true ∧ s.life.st = .standby ∧ s.life.held = true) :
    exec .release s = .next (s.keepOwned s.releaseHeld) :=
  congrArg (act s) (if_pos (by simpa [and_assoc] using held))

section

variable {w : TakeOver} (waits : s.awaitingImport = some w)

include waits

theorem exec_exportWait_of_due (first : w.importFails = 0) (due : w.at_ + s.settings.exportWait * 1000000 ≤ s.now) :
    exec .exportWait s = .next (s.keepVault ((s.event Ev.dumpImport s.sideNo 1 (importFigure s.now) 0).takeoverGo none)) := by
  refine congrArg (vaultAct s) ?_
  rw [waits]
  exact if_neg (by simp [first, due])

theorem exec_dumpImport_of_waiting (x : SealImage) (d : DumpImage) :
    exec (.dumpImport x d) s
      = .next (s.keepVault
          (if x.usable = true ∧ x.identity = w.partner ∧ w.label.importedDumpSeq < x.dumpSeq then
            (s.event Ev.dumpImport s.sideNo 0 (x.dumpSeq % 2 ^ 32) (importMib d)).takeoverGo (some (x, d))
          else (s.event Ev.dumpImport s.sideNo 2 (x.dumpSeq % 2 ^ 32) 0).takeoverGo none)) := by
  refine congrArg (vaultAct s) ?_
  rw [waits]
  refine if_congr ?_ rfl rfl
  simp [and_assoc]

theorem exec_pairingLinkFailure_of_waiting :
    exec .pairingLinkFailure s
      = .next (s.keepVault
          (if w.importFails = 0 then
            ({ s with life := { s.life with takeover := some { w with importFails := 1 } } } : State).emit .exportRequest
          else (s.event Ev.dumpImport s.sideNo 3 (importFigure s.now) 0).takeoverGo none)) := by
  refine congrArg (vaultAct s) ?_
  rw [waits]

end

/-! ### Array metadata (R502 to R509) -/

section

variable (owns : s.ownsArray = true)

include owns

theorem exec_changeLogFlush_of_due {due : List (Nat × Nat × Nat)} {recs : List (List (Nat × Nat × Nat × Region × List Byte))}
    (hd : due = s.changesDue.take (56 * (16384 - s.pair.logUsed))) (some_ : due.isEmpty = false) (late : s.pair.changesAt + 100 ≤ s.now)
    (hr : recs = chunks 56 due.length (due.map fun c =>
      (c.1, c.2.1, c.2.2, (if c.2.1 = 0 || c.2.1 = 4 then s.region c.2.2 else {}), s.changeImage c.2.1 c.2.2)))
    (ht : t = { s with pair := { s.pair with
      loggedAt := ((due.filter fun c => c.2.1 = 4).map (·.2.2)).foldl (fun m r => Store.put m r s.now) s.pair.loggedAt,
      changes := s.pair.changes.filter fun c => !due.contains c, changesAt := s.now,
      changeSeq := s.pair.changeSeq + recs.length } }) :
    exec .changeLogFlush s
      = .next (s.keepOwned (t.over recs.zipIdx fun u e => u.metaStart (.record (s.pair.changeSeq + e.2) e.1)).run) := by
  subst hd hr ht
  refine congrArg (act s) ((if_neg (by simp [owns, some_, late])).trans ?_)
  simp only [List.length_map]

theorem exec_metadataCheckpoint_of_due (due : s.pair.sliceAt + 600000000 ≤ s.now ∨ 12288 ≤ s.pair.logUsed) :
    exec .metadataCheckpoint s = .next (s.keepOwned s.metadataCheckpoint) :=
  congrArg (act s) (if_pos (by simpa [owns] using due))

theorem exec_bitmapRewrite_of_due {ages : Store Nat} {waiting : List Nat} (due : s.pair.bitmapAt + 1000000 ≤ s.now) (free : s.pair.rewriting = false)
    (ha : ages = ((s.activeRegions.foldl (fun m r => Store.put m r s.now) s.pair.activeAt).filter fun e => s.now < e.2 + 60000000))
    (hw : waiting = s.cmds.vals.flatMap fun c => if c.phase = .gathered then s.regionsWritten c else []) :
    exec .bitmapRewrite s
      = .next (s.keepOwned ((({ s with pair := { s.pair with activeAt := ages, bitmapAt := s.now } } : State).metaStart
          (.rewrite (1 - s.pair.bitmapSlot)
            (uniq (ages.map (·.1) ++ (s.bitsComing.filter fun r => !s.pair.bitmap.contains r)
              ++ waiting.filter s.pair.bitmap.contains)) s.pair.bitmap)).run)) := by
  subst ha hw
  exact congrArg (act s) (if_neg (by simp [owns, due, free]))

end

end

/-! ### The statements -/

/-- Settles O41: each row past its guard, ARB_TAKE_N by STATE. -/
theorem pairingRows : Obligations.PairingRows := by
  unfold Obligations.PairingRows
  refine fun s => ⟨fun f live => ?beat, exec_partnerLost_of_due, exec_pairHeartbeatSend_of_due, exec_arbHbToggle_of_due, rfl,
    fun works fenced byPin ended => ?restarts, fun stays => ?stays, fun d l live _ released standby label => ⟨fun own => ?takes, fun other => ?unbound⟩,
    fun d works released running ignores => ?ignored, fun d works released pass fenced => ?held, fun t => exec_fenceDrainTimeout_of_due⟩
  case beat => exact congrArg (act s) (if_neg (by simp [live]))
  case restarts =>
    have go : ¬ (s.life.inReset = true ∨ s.life.st ≠ .fenced ∨ s.life.fencedBy ≠ some .pin ∨ s.lehrOn = true ∧ s.lehrSealed = false) := by
      simpa [works, fenced, byPin, Decidable.imp_iff_not_or] using ended
    rw [exec_arbFenceRelease_eq, if_neg go]
  case stays => rw [exec_arbFenceRelease_eq, if_pos stays]
  case takes => rw [exec_arbTakeAssert_of_standby live released standby label, if_pos own]
  case unbound =>
    have running := (State.live_eq_true_iff.mp live).2
    rw [exec_arbTakeAssert_of_standby live released standby label, if_neg other, State.takeIgnored_of_running running]
  case ignored =>
    rw [exec_arbTakeAssert_of_ignored works released (ignores.imp_right fun serves => ⟨running, serves⟩), State.takeIgnored_of_running running]
  case held => rw [exec_arbTakeAssert_of_ignored works released (.inl fenced), State.takeIgnored_of_pass pass]

/-- Settles O42: each row past its guard, an import by the seal. -/
theorem dumpAndMetadataRows : Obligations.DumpAndMetadataRows := by
  unfold Obligations.DumpAndMetadataRows
  refine ⟨⟨fun s d => exec_exportRequest_of_held, fun s => exec_release_of_held, fun s t => exec_exportWait_of_due,
      fun s t x d waits => ⟨fun usable own newer => ?newer, fun no => ?unusable⟩, fun s t waits first => ?retry, fun s t waits second => ?ends⟩,
    fun s t due recs hd owns => exec_changeLogFlush_of_due owns hd, fun s => exec_metadataCheckpoint_of_due,
    fun s ages waiting owns => exec_bitmapRewrite_of_due owns⟩
  case newer => rw [exec_dumpImport_of_waiting waits, if_pos ⟨usable, own, newer⟩]
  case unusable =>
    have bad : ¬ (x.usable = true ∧ x.identity = t.partner ∧ t.label.importedDumpSeq < x.dumpSeq) := by
      simpa [Decidable.imp_iff_not_or] using no
    rw [exec_dumpImport_of_waiting waits, if_neg bad]
  case retry => rw [exec_pairingLinkFailure_of_waiting waits, if_pos first]
  case ends => rw [exec_pairingLinkFailure_of_waiting waits, if_neg second]

end Sys2Proof.Machine
end

section
/-! PROOFS. The Admin commands that read, the staged set, volumes, members and region work (R352, R420, R607, R616 to R634): each command once
it may start and its checks pass, and the statements O14, O18, O19, O20 and O53 put together from these. -/

namespace Sys2Proof.Machine

open Sys2Proof

/-! ### A meaning that starts a host command -/

/-- A command that may start has the effect that its row states, whatever form the meaning gives it. -/
theorem act_start {s : State} {acc op : Nat} {sub : Sqe → Bool} {c : Cmd} (start : s.startable acc op sub = some c) {f : Cmd → State} {t : State}
    (effect : f c = t) : act s (s.start acc op sub f) = .next (s.keepOwned t) := by
  rw [State.start_some f start, effect, act_eq]

theorem act_start_run {s : State} {acc op : Nat} {sub : Sqe → Bool} {c : Cmd} (start : s.startable acc op sub = some c) {f : Cmd → State} {t : State}
    (effect : f c = t) : act s (s.start acc op sub f).run = .next (s.keepOwned t.run) := by
  rw [State.start_some f start, effect, act_eq]

theorem vaultAct_start {s : State} {acc op : Nat} {sub : Sqe → Bool} {c : Cmd} (start : s.startable acc op sub = some c) {f : Cmd → State} {t : State}
    (effect : f c = t) : vaultAct s (s.start acc op sub f) = .next (s.keepVault t) := by
  rw [State.start_some f start, effect, vaultAct_eq]

/-- The effect where no check fails, and the status where the first one does. -/
theorem State.check_of_passed {s : State} {c : Cmd} {bad : Option Status} {t : State} (passed : bad = none) : s.check c bad t = t := by
  rw [passed, State.check_none]

theorem State.check_of_failed {s : State} {c : Cmd} {bad : Option Status} {st : Status} {t : State} (failed : bad = some st) :
    s.check c bad t = s.finish c.acc st := by
  rw [failed, State.check_some]

section

variable {s t u : State} {acc n : Nat} {c : Cmd}

/-! ### The staged set (R630 to R634) -/

theorem State.stageConfig_of_length {len : Nat} {item : List Byte → Option Staged} {x : Staged} (total : c.total = 8 + len)
    (header : numAt c.bytes 2 2 = len) (body : item (c.bytes.drop 8) = some x) : s.stageConfig c len item = s.stageItem c x := by
  simp only [State.stageConfig, header, total, ne_eq, not_true_eq_false, if_false, body]

theorem exec_configStageGovernor_of_kind (start : s.startable acc 0x9A anyForm = some c) (kind : numAt c.bytes 0 1 = 1) :
    exec (.configStageGovernor acc) s
      = .next (s.keepOwned (s.stageConfig c 36 fun b => (parseGovernor b).map fun g => .governor g.1 g.2)) :=
  act_start start (by simp [kind])

theorem exec_configStageGovernor_of_noKind (start : s.startable acc 0x9A anyForm = some c) (notGovernor : numAt c.bytes 0 1 ≠ 1)
    (notPack : numAt c.bytes 0 1 ≠ 2) (total : c.total = 8 + numAt c.bytes 2 2) :
    exec (.configStageGovernor acc) s = .next (s.keepOwned (s.finish c.acc St.invalidField)) :=
  act_start start (by simp [notGovernor, notPack, total])

theorem exec_configStagePack_of_kind (start : s.startable acc 0x9A anyForm = some c) (kind : numAt c.bytes 0 1 = 2) :
    exec (.configStagePack acc) s = .next (s.keepOwned (s.stageConfig c 56 fun b => (parsePack b).map .pack)) :=
  act_start start (if_neg (by simp [kind]))

theorem exec_deviceStart_of_conflict {i : Nat} (start : s.startable acc 0x99 anyForm = some c) (conflict : firstConflict s.mgmt.staged s 0 = some i) :
    exec (.deviceStart acc) s = .next (s.keepVault (s.finish c.acc St.stageConflict (w32 i))) := by
  refine vaultAct_start start ?_
  dsimp only
  rw [conflict]

theorem exec_deviceStart_of_empty (start : s.startable acc 0x99 anyForm = some c) (empty : s.mgmt.staged = []) :
    exec (.deviceStart acc) s = .next (s.keepVault ((s.startSaves.setState .ready).finishLogged c.acc St.success)) := by
  refine vaultAct_start start ?_
  dsimp only
  rw [empty]
  rfl

theorem exec_deviceStart_of_applied {n : Nat} (start : s.startable acc 0x99 anyForm = some c) (some_ : s.mgmt.staged ≠ [])
    (fits : firstConflict s.mgmt.staged s 0 = none) (ht : t = (s.over s.mgmt.staged fun s x => s.applyNow x).arrayLabel)
    (hn : n = t.pair.configSeq + 1)
    (hu : u = ((({ t with pair := { t.pair with configSeq := n }, mgmt := { t.mgmt with staged := [] } } : State).bringLogs.writeConfig).writeLabels
      fun y => { y with configSeq := n }).startSaves) :
    exec (.deviceStart acc) s
      = .next (s.keepVault (((u.record Ev.configApplied ⟨some c.fn, 0⟩
          (w32 s.mgmt.staged.length) (w32 n) (fnWord c.fn)).setState .ready).finishLogged c.acc St.success)) := by
  subst hn hu ht
  refine vaultAct_start start ?_
  dsimp only
  rw [fits, if_neg (by simpa using some_)]

/-! ### Volumes (R420, R607, R622 to R625) -/

theorem exec_volumeCreateArray_of_used (start : s.startable acc 0x8B (fun e => !e.pbit 0 12) = some c)
    (used : s.volumes.has (c.sqe.pfield 0 0 12) = true) :
    exec (.volumeCreateArray acc) s = .next (s.keepOwned ((s.finish c.acc St.volumeExists).run)) :=
  act_start_run start (if_pos used)

theorem State.over_now {α : Type} {l : List α} {f : State → α → State} (turn : ∀ u a, (f u a).now = u.now) : (s.over l f).now = s.now :=
  State.over_keeps (P := fun u => u.now = s.now) f l (fun u a _ hu => (turn u a).trans hu) s rfl

@[simp] theorem State.noteChange_now {kind index : Nat} : (s.noteChange kind index).now = s.now := by
  simp only [State.noteChange]
  split_ifs <;> rfl

theorem State.updRegion_now {r : Nat} {f : Region → Region} : (s.updRegion r f).now = s.now := by
  simp only [State.updRegion, State.event]
  split_ifs <;> simp

/-- The array volume of an entry once its regions have their indices and places: they stand, the volume with them, and each stripe is zeroed
(R62, R72 to R77, R623). -/
def State.arrayVolumeMade (s : State) (c : Cmd) (m : Template) (x : Pool) (n : Nat) (free : List Nat) (places : List (Nat × Mask)) (born : Nat) : State :=
  let t : State := s.over (free.zip places) fun s y => s.updRegion y.1 fun r =>
    { bitmap := y.2.2, row := y.2.1, gen := r.gen, perm := permId x.seed y.1, template := c.sqe.pfield 1 0 8, chunkCode := x.chunkCode, st := .normal,
      pool := c.sqe.pfield 1 8 4 }
  let v : Volume := { born := born, vault := false, capacity := c.sqe.param 2 + c.sqe.pfield 3 0 8 * 2 ^ 32, template := c.sqe.pfield 1 0 8,
                      pool := c.sqe.pfield 1 8 4, vmap := free, init := true, ackMode := (AckMode.ofCode (c.sqe.pfield 0 13 2)).getD .pwb }
  let u : State := ({ t with volumes := t.volumes.put (c.sqe.pfield 0 0 12) v } : State).noteVolume (c.sqe.pfield 0 0 12)
  let w : State := u.updCmd c.acc fun c => { c with phase := .running, tasksLeft := n * stripesOf x.chunkCode m.stripCode }
  w.over free fun s r => s.over (span 0 (s.stripes r)) fun s j => s.zeroStripe c.acc (c.sqe.pfield 0 0 12) r j

theorem exec_volumeCreateArray_of_room {m : Template} {x : Pool} {free : List Nat} {places : List (Nat × Mask)}
    (start : s.startable acc 0x8B (fun e => !e.pbit 0 12) = some c) (unused : s.volumes.has (c.sqe.pfield 0 0 12) = false)
    (template : s.templates.look (c.sqe.pfield 1 0 8) = some m) (pool : s.pools.look (c.sqe.pfield 1 8 4) = some x) (own : x.foreign_ = false)
    (hn : n = (c.sqe.param 2 + c.sqe.pfield 3 0 8 * 2 ^ 32 + chunkBlocks x.chunkCode * m.data - 1) / (chunkBlocks x.chunkCode * m.data))
    (hf : free = s.freeIndices (offered s.arrayDrives.length) (offered s.arrayDrives.length) n 0) (all : free.length = n)
    (placed : s.placeAll (c.sqe.pfield 1 8 4) m.width n (s.slotsUsed (c.sqe.pfield 1 8 4)) = some places) :
    exec (.volumeCreateArray acc) s = .next (s.keepOwned (s.arrayVolumeMade c m x free.length free places s.now).run) := by
  refine act_start_run start ((if_neg (ne_true_of_eq_false unused)).trans ?_)
  rw [template, pool]
  refine (if_neg (ne_true_of_eq_false own)).trans ?_
  simp only [← hn, ← hf, placed]
  refine (if_neg (Nat.not_lt.mpr all.ge)).trans ?_
  have kept : (s.over (free.zip places) fun s y => s.updRegion y.1 fun r =>
      { bitmap := y.2.2, row := y.2.1, gen := r.gen, perm := permId x.seed y.1, template := c.sqe.pfield 1 0 8, chunkCode := x.chunkCode, st := .normal,
        pool := c.sqe.pfield 1 8 4 }).now = s.now := State.over_now fun _ _ => State.updRegion_now
  rw [all, ← kept]
  rfl

theorem exec_volumeCreateVault_of_room (start : s.startable acc 0x8B (fun e => e.pbit 0 12) = some c)
    (unused : s.volumes.has (c.sqe.pfield 0 0 12) = false)
    (size : s.vaultAllocated + 4096 * (c.sqe.param 2 + c.sqe.pfield 3 0 8 * 2 ^ 32) ≤ 2 ^ 40)
    (spare : 0 ≤ s.spareLeftFor (s.vaultAllocated + 4096 * (c.sqe.param 2 + c.sqe.pfield 3 0 8 * 2 ^ 32))) (writable : s.vault.readOnly = false) :
    exec (.volumeCreateVault acc) s
      = .next (s.keepOwned
          (((({ s with volumes := s.volumes.put (c.sqe.pfield 0 0 12)
                                     { born := s.now, vault := true, capacity := c.sqe.param 2 + c.sqe.pfield 3 0 8 * 2 ^ 32 } } : State).volEvent
            Ev.volume (c.sqe.pfield 0 0 12) (c.sqe.pfield 0 0 12) 0 (fnKey ⟨0, 0⟩)).finish c.acc St.success 0).run)) := by
  refine act_start_run start (State.check_of_passed ?_)
  rw [firstFail_cons, if_neg (ne_true_of_eq_false unused), firstFail_cons, if_neg (by simpa using ⟨size, spare⟩), firstFail_cons,
    if_neg (ne_true_of_eq_false writable), firstFail_nil]

theorem exec_volumeDelete_of_detached {v : Volume} (start : s.startable acc 0x8C anyForm = some c)
    (listed : s.volumes.look (c.sqe.pfield 0 0 12) = some v) (free : v.attached = none) :
    exec (.volumeDelete acc) s
      = .next (s.keepVault (({ s with volumes := s.volumes.put (c.sqe.pfield 0 0 12) { v with deleting := true } } : State).updCmd c.acc
          fun c => { c with phase := .running })) := by
  refine vaultAct_start start ?_
  dsimp only
  rw [listed]
  exact if_neg (by simp [free])

/-- VOLUME_ATTACH of a listed volume to a function that is there goes by the function that holds it. -/
theorem exec_volumeAttach_of_listed {v : Volume} {f : FnId} (start : s.startable acc 0x8D anyForm = some c)
    (hf : f = ⟨c.sqe.pfield 1 8 1, c.sqe.pfield 1 0 8⟩) (there : s.fnExists f = true)
    (listed : s.volumes.look (c.sqe.pfield 0 0 12) = some v) (stays : v.deleting = false) :
    exec (.volumeAttach acc) s
      = .next (s.keepOwned
          (if v.attached = some f ∧ v.detaching = none then s.finish c.acc St.success
           else if v.attached.isSome then s.finish c.acc St.volumeAttached
           else ((({ s with volumes := s.volumes.put (c.sqe.pfield 0 0 12) { v with attached := some f } } : State).noteVolume
             (c.sqe.pfield 0 0 12)).volEvent Ev.volume (c.sqe.pfield 0 0 12) (c.sqe.pfield 0 0 12) 2 (fnKey f)).finishLogged c.acc
               St.success).run) := by
  subst hf
  refine act_start_run start ((if_neg (by simp [there])).trans ?_)
  rw [listed]
  refine (if_neg (ne_true_of_eq_false stays)).trans (if_congr ?_ rfl rfl)
  simp

theorem exec_volumeDetach_of_attached {v : Volume} {f : FnId} (start : s.startable acc 0x8E anyForm = some c)
    (listed : s.volumes.look (c.sqe.pfield 0 0 12) = some v) (attached : v.attached = some f) :
    exec (.volumeDetach acc) s
      = .next (s.keepOwned
          (((({ s with volumes := s.volumes.put (c.sqe.pfield 0 0 12) { v with detaching := some c.acc } } : State).updCmd c.acc
            fun c => { c with phase := .running }).settleWaits.dropStreams (c.sqe.pfield 0 0 12)).run)) := by
  refine act_start_run start ?_
  dsimp only
  rw [listed]
  exact if_neg (by simp [attached])

/-! ### Members (R99, R338, R628) and region work (R352, R629) -/

theorem exec_memberFail_of_live (start : s.startable acc 0x90 anyForm = some c) (member : s.members.has (c.sqe.pfield 0 0 6) = true)
    (live : s.memberGone (c.sqe.pfield 0 0 6) = false) :
    exec (.memberFail acc) s = .next (s.keepOwned (((s.failMember (c.sqe.pfield 0 0 6) 7 false).finishLogged c.acc St.success).run)) := by
  refine act_start_run start (State.check_of_passed ?_)
  rw [firstFail_cons, if_neg (by simp [member, live]), firstFail_nil]

theorem Store.read_of_look {α : Type} {m : Store α} {k : Nat} {v : α} (listed : m.look k = some v) (d : α) : m.read k d = v := by
  rw [Store.read, listed, Option.getD_some]

theorem exec_memberReplaceCopyback_of_good {m : Member} (start : s.startable acc 0x91 (fun e => !e.pbit 0 16) = some c)
    (good : s.replaceBad (c.sqe.pfield 0 0 6) (c.sqe.pfield 0 8 6) true = none) (listed : s.members.look (c.sqe.pfield 0 0 6) = some m) :
    exec (.memberReplaceCopyback acc) s
      = .next (s.keepOwned
          (((((({ s with members := s.members.put (c.sqe.pfield 0 0 6)
                                    { s.newMember m.pool (c.sqe.pfield 0 0 6) .removed with movedSince := s.now } } : State).memberTo
            (c.sqe.pfield 0 0 6) .replacing).holdMember (c.sqe.pfield 0 0 6)).copybackCheck (c.sqe.pfield 0 0 6)).finishLogged c.acc
            St.success).run)) := by
  refine act_start_run start ((State.check_of_passed good).trans ?_)
  rw [Store.read_of_look listed]

theorem exec_memberReplaceJoin_of_good {m : Member} (start : s.startable acc 0x91 (fun e => e.pbit 0 16) = some c)
    (good : s.replaceBad (c.sqe.pfield 0 0 6) (c.sqe.pfield 0 8 6) false = none) (listed : s.members.look (c.sqe.pfield 0 0 6) = some m) :
    exec (.memberReplaceJoin acc) s
      = .next (s.keepOwned
          (((((((({ s with members := (s.members.put (c.sqe.pfield 0 8 6) (s.newMember m.pool (c.sqe.pfield 0 8 6) .online)).upd
                                 (c.sqe.pfield 0 0 6) fun m => { m with dropPending := true } } : State).noteChange 1
            (c.sqe.pfield 0 8 6)).noteChange 1 (c.sqe.pfield 0 0 6)).holdMember (c.sqe.pfield 0 8 6)).dropMembers.assignLogs.writeLabels
            id).spareCheck m.pool).finishLogged c.acc St.success).run)) := by
  refine act_start_run start ((State.check_of_passed good).trans ?_)
  rw [Store.read_of_look listed]

/-- The regions that a CONSISTENCY_CHECK names. -/
def State.checkNamed (s : State) (c : Cmd) : List Nat :=
  if c.sqe.pbit 0 1 = true then s.poolRegions (c.sqe.pfield 0 8 4)
  else s.usedRegions.filter fun r => c.sqe.pfield 1 0 24 ≤ r && r < c.sqe.pfield 1 0 24 + c.sqe.param 2

theorem exec_consistencyCheck_of_start (start : s.startable acc 0x93 anyForm = some c) :
    exec (.consistencyCheck acc) s
      = .next (s.keepOwned
          (if c.sqe.pbit 0 1 = true ∧ s.pools.has (c.sqe.pfield 0 8 4) = false then s.finish c.acc St.poolUnknown
           else (s.over (s.checkNamed c) fun s r => (s.updRegion r fun e => { e with checkPending := true }).updWork r fun w =>
             { w with reportOnly := c.sqe.pbit 0 0 }).finish c.acc St.success (w32 (s.checkNamed c).length)).run) := by
  refine act_start_run start ?_
  by_cases unknown : c.sqe.pbit 0 1 = true ∧ s.pools.has (c.sqe.pfield 0 8 4) = false
  · obtain ⟨whole, none⟩ := unknown
    rw [if_pos ⟨whole, none⟩]
    exact State.check_of_failed (by simp [whole, none])
  · rw [if_neg unknown]
    refine State.check_of_passed ?_
    rw [firstFail_cons, if_neg (by simpa using unknown), firstFail_nil]

theorem State.setPaused_of_known {on : Bool} (known : c.sqe.pbit 0 4 = true ∨ s.pools.has (c.sqe.pfield 0 8 4) = true) :
    s.setPaused c on
      = ({ s with pools := s.pools.each fun k (x : Pool) =>
            if c.sqe.pbit 0 4 || k = c.sqe.pfield 0 8 4 then { x with paused := on } else x } : State).finish c.acc St.success := by
  refine State.check_of_passed ?_
  rw [firstFail_cons, if_neg (by simpa [Decidable.or_iff_not_imp_left] using known), firstFail_nil]

end

/-! ### The statements -/

/-- Settles O14: each page is the arm's own; IDENTIFY of a template goes by whether it is defined. -/
theorem identifyLogFeature : Obligations.IdentifyLogFeature := by
  unfold Obligations.IdentifyLogFeature
  refine fun s acc c => ⟨fun start => act_start start rfl, fun start => act_start start rfl, fun m start defined => ?defined,
    fun start undefined => ?undefined,
    fun start => act_start start rfl, fun start => act_start_run start rfl⟩
  case defined =>
    refine act_start start ?_
    dsimp only
    rw [defined]
  case undefined =>
    refine act_start start ?_
    dsimp only
    rw [undefined]

/-- Settles O18: what is staged by its entry, DEVICE_STOP and DEVICE_START by STATE and the set. -/
theorem stagedSetRows : Obligations.StagedSetRows := by
  unfold Obligations.StagedSetRows
  refine ⟨fun s acc c => ⟨fun id m start parsed => ?define, fun start malformed => ?malformed, fun start => act_start start rfl,
      fun start seeded => ?seeded,
      fun start unseeded => ?unseeded, fun start => act_start start rfl, fun start => act_start start rfl, fun start => act_start start rfl,
      fun g start kind total header body => ?governor, exec_configStageGovernor_of_noKind, fun d start kind total header body => ?pack,
      fun start => act_start start rfl⟩,
    fun s acc c => ⟨fun start ready => ?stops, fun start stopped => act_start start (if_pos stopped), exec_deviceStart_of_empty,
      fun t u n => exec_deviceStart_of_applied, fun i => exec_deviceStart_of_conflict⟩⟩
  case define =>
    refine act_start start ?_
    rw [parsed]
  case malformed =>
    refine act_start start ?_
    rw [malformed]
  case seeded =>
    refine act_start start ?_
    simp only [if_neg seeded]
  case unseeded =>
    refine act_start start ?_
    simp only [if_pos unseeded]
  case governor =>
    rw [exec_configStageGovernor_of_kind start kind, State.stageConfig_of_length total header (by rw [body]; rfl)]
  case pack => rw [exec_configStagePack_of_kind start kind, State.stageConfig_of_length total header (by rw [body]; rfl)]
  case stops =>
    refine act_start start ((if_neg (by simp [ready])).trans ?_)
    rw [if_pos ready]

/-- Settles O19: each command where its checks pass, and the id in use. -/
theorem volumeRows : Obligations.VolumeRows := by
  unfold Obligations.VolumeRows
  refine fun s acc c => ⟨exec_volumeCreateArray_of_used, fun m x free places start unused template pool own room => ?array, exec_volumeCreateVault_of_room,
    fun v => exec_volumeDelete_of_detached, fun v start there listed stays unheld => ?attach, fun v f => exec_volumeDetach_of_attached⟩
  case array =>
    obtain ⟨hf, all, placed⟩ := room _ rfl
    exact exec_volumeCreateArray_of_room start unused template pool own rfl hf all placed
  case attach => rw [exec_volumeAttach_of_listed start rfl there listed stays, if_neg (by simp [unheld]), if_neg (by simp [unheld])]

/-- Settles O20: each command where its checks pass, and the pool that is not there. -/
theorem memberAndRebuildCommands : Obligations.MemberAndRebuildCommands := by
  unfold Obligations.MemberAndRebuildCommands
  refine ⟨fun s acc c => ⟨exec_memberFail_of_live, fun m => exec_memberReplaceCopyback_of_good, fun m => exec_memberReplaceJoin_of_good,
      fun start range => ?range, fun start whole known => ?whole, fun start whole unknown => ?unknown⟩,
    fun s acc c => ⟨fun start known => act_start_run start (State.setPaused_of_known known),
      fun start known => act_start_run start (State.setPaused_of_known known),
      fun start queued => ?promote, fun start idle => ?promoteNone, fun start halted => ?retry⟩⟩
  case range =>
    have named : s.checkNamed c = _ := if_neg (ne_true_of_eq_false range)
    rw [exec_consistencyCheck_of_start start, if_neg (by simp [range]), named]
  case whole =>
    have named : s.checkNamed c = _ := if_pos whole
    rw [exec_consistencyCheck_of_start start, if_neg (by simp [known]), named]
  case unknown => rw [exec_consistencyCheck_of_start start, if_pos ⟨whole, unknown⟩]
  case promote =>
    refine act_start_run start ?_
    dsimp only
    rw [if_pos queued]
  case promoteNone =>
    refine act_start_run start ?_
    dsimp only
    rw [if_neg (ne_true_of_eq_false idle)]
  case retry =>
    refine act_start_run start ?_
    dsimp only
    rw [if_pos (by simp [halted])]

/-- Settles O53: a volume holds one function at most, so the function that holds it decides. -/
theorem attachedAtMostOnce : Obligations.AttachedAtMostOnce := by
  unfold Obligations.AttachedAtMostOnce
  refine fun s acc c v g start there listed stays held => ⟨fun other => ?other, fun own settled => ?own⟩
  case other =>
    rw [exec_volumeAttach_of_listed start rfl there listed stays, if_neg (by simp [held, other]), if_pos (by simp [held])]
  case own => rw [exec_volumeAttach_of_listed start rfl there listed stays, if_pos ⟨own ▸ held, settled⟩]

end Sys2Proof.Machine
end

section
/-! PROOFS. Self-tests, firmware and the recorder (R397, R635 to R643, R671 to R693): each row once its guard is met, and the statements O21 and
O22 put together from these. -/

namespace Sys2Proof.Machine

open Sys2Proof

section

variable {s t u : State} {acc k : Nat} {c : Cmd}

/-! ### Self-tests (R635, R636) -/

theorem mem_span {i a n : Nat} : i ∈ span a n ↔ a ≤ i ∧ i < a + n := by
  simp only [span, List.mem_map, List.mem_range]
  constructor
  · rintro ⟨j, hj, rfl⟩
    omega
  · intro h
    exact ⟨i - a, by omega, by omega⟩

/-- A new test takes every HBM channel and code tile in service as a unit. -/
theorem State.mem_newTest_units {f : FnId} {kind i : Nat} :
    i ∈ (s.newTest f kind).units ↔
      (66 ≤ i ∧ i < 98 ∧ s.life.hbmTrained.getLsbD (i - 66) = true ∧ s.mgmt.hbmOut.getLsbD (i - 66) = false)
        ∨ (114 ≤ i ∧ i < 162 ∧ s.mgmt.tilesOut.getLsbD (i - 114) = false) := by
  have shifted (a n : Nat) (p : Nat → Bool) : i ∈ ((span 0 n).filter p).map (a + ·) ↔ a ≤ i ∧ i < a + n ∧ p (i - a) = true := by
    simp only [List.mem_map, List.mem_filter, mem_span]
    constructor
    · rintro ⟨j, ⟨hj, hp⟩, rfl⟩
      exact ⟨by omega, by omega, by rwa [Nat.add_sub_cancel_left]⟩
    · rintro ⟨low, high, hp⟩
      exact ⟨i - a, ⟨by omega, hp⟩, by omega⟩
  change i ∈ ((span 0 48).filter fun t => !s.mgmt.tilesOut.getLsbD t).map (114 + ·)
    ++ ((span 0 32).filter fun c => s.life.hbmTrained.getLsbD c && !s.mgmt.hbmOut.getLsbD c).map (66 + ·) ↔ _
  rw [List.mem_append, shifted, shifted, or_comm]
  simp only [Bool.and_eq_true, Bool.not_eq_true']

theorem State.selfTestEnds_of_running {st : Nat} {x : SelfTest} (runs : s.mgmt.selfTest.status = 1)
    (hx : x = { s.mgmt.selfTest with status := st, seconds := (s.now - s.mgmt.selfTest.startedAt) / 1000000, units := [], range := none,
                                     marches := [], asks := [], ckpt := none, patrol := 0 }) :
    s.selfTestEnds st
      = (({ s with mgmt := { s.mgmt with selfTest := x } } : State).event Ev.selfTest 0 st x.kind x.failedIsland).raisePfs .selfTestDone := by
  subst hx
  exact if_neg (not_not.mpr runs)

theorem State.selfTestEnds_of_none {st : Nat} (none : s.mgmt.selfTest.status ≠ 1) : s.selfTestEnds st = s := if_pos none

theorem State.startTest_of_idle {kind : Nat} (idle : s.mgmt.selfTest.status ≠ 1) :
    s.startTest c kind
      = ((({ s with mgmt := { s.mgmt with selfTest := s.newTest c.fn kind } } : State).over (s.newTest c.fn kind).asks
          (fun s p => s.askIdentify p)).finish c.acc St.success).testStep := by
  refine State.check_of_passed ?_
  rw [firstFail_cons, if_neg (by simp [idle]), firstFail_nil]

theorem State.startTest_of_running {kind : Nat} (runs : s.mgmt.selfTest.status = 1) :
    s.startTest c kind = s.finish c.acc St.selfTestRunning :=
  State.check_of_failed (by simp [runs])

theorem exec_selfTestAbort_of_start (start : s.startable acc 0xA0 (fun e => e.pfield 0 0 2 = 3) = some c) :
    exec (.selfTestAbort acc) s = .next (s.keepOwned ((s.selfTestEnds 4).finish c.acc St.success)) :=
  act_start start rfl

theorem exec_selfTestComplete_of_over (live : s.live = true) (runs : s.mgmt.selfTest.status = 1) (short : s.shortDone = true)
    (march : s.marchDone = true) (patrol : s.mgmt.selfTest.patrol = 0) (regions : (s.mgmt.selfTest.left.all fun r => (s.region r).st = .free) = true) :
    exec (.selfTestComplete none) s = .next (s.keepOwned (s.selfTestEnds 2)) := by
  refine congrArg (act s) ((if_neg (by simp [live, runs])).trans (if_pos ?_))
  rw [short, march, patrol, regions]
  rfl

theorem exec_selfTestComplete_of_unit {i : Nat} (live : s.live = true) (runs : s.mgmt.selfTest.status = 1) :
    exec (.selfTestComplete (some i)) s = .next (s.keepOwned (s.unitFails i).run) :=
  congrArg (act s) (if_neg (by simp [live, runs]))

theorem State.unitFails_eq {i : Nat} (ht : t = { s with mgmt := { s.mgmt with selfTest := { s.mgmt.selfTest with failedIsland := i } } })
    (hu : u = if 114 ≤ i ∧ i < 162 ∧ (s.island i).status = 1
      then t.setTile (i - 114) { t.tile (i - 114) with running := none, queue := [] } else t) :
    s.unitFails i = (if (66 ≤ i ∧ i < 98) ∨ (114 ≤ i ∧ i < 162) then u.beginMapOut i else u).selfTestEnds 3 := by
  subst ht hu
  unfold State.unitFails
  simp only [Bool.or_eq_true, Bool.and_eq_true, decide_eq_true_eq, and_assoc]
  rfl

/-! ### Firmware (R397, R637, R638) -/

theorem toSegments_ne_nil {b : List Byte} (some_ : b ≠ []) : toSegments b ≠ [] := by
  unfold toSegments segmentsFrom
  simp [some_]

theorem exec_fwStage_of_start (start : s.startable acc 0xA1 anyForm = some c) (hk : k = 1 - s.life.fwRunning) :
    exec (.fwStage acc) s
      = .next (s.keepOwned
          (if c.sqe.param 0 + c.total ≤ 67108864 ∧ (c.sqe.param 0 = 0 ∨ (s.slot k).partialValid = true ∧ c.sqe.param 0 = (s.slot k).staged.length)
           then s.stageWrite c else s.finish c.acc St.invalidField)) := by
  subst hk
  refine act_start start ?_
  refine (if_congr ?_ rfl rfl).trans (ite_not ..)
  rw [← Bool.not_and, Bool.not_eq_true', ← Bool.not_eq_true]
  simp

theorem State.stageWrite_of_bytes (hk : k = 1 - s.life.fwRunning) (some_ : c.bytes ≠ [])
    (ht : t = if c.sqe.param 0 = 0
      then ((s.setSlot k { after := s.vault.programSeq, partialValid := true }).closeUse (.firmware k)).cullBlocks
      else s.setSlot k { s.slot k with partialValid := true }) :
    s.stageWrite c
      = (t.updCmd c.acc fun y => { y with phase := .running, vaultLeft := (toSegments c.bytes).length }).vprogram
          (.firmware k) ((toSegments c.bytes).zipIdx.map fun e => (VLogical.firmware k (c.sqe.param 0 / 4096 + e.2), 0, e.1))
          [.firmwarePart c.acc] := by
  subst hk ht
  exact if_neg (by simpa using toSegments_ne_nil some_)

theorem exec_fwActivate_of_start (start : s.startable acc 0xA2 anyForm = some c) :
    exec (.fwActivate acc) s
      = .next (s.keepOwned
          (if (s.slot (c.sqe.pfield 0 0 1)).valid = true then
            (({ s with mgmt := { s.mgmt with nextSlot := c.sqe.pfield 0 0 1 } } : State).event Ev.fwActivated 0
              (c.sqe.pfield 0 0 1) (s.slot (c.sqe.pfield 0 0 1)).version 0).finish c.acc St.success
              (w32 (s.slot (c.sqe.pfield 0 0 1)).version)
           else s.finish c.acc St.fwSlotInvalid)) := by
  refine act_start start ?_
  cases valid : (s.slot (c.sqe.pfield 0 0 1)).valid with
  | true => exact State.check_of_passed (by simp [valid])
  | false => exact State.check_of_failed (by simp [valid])

/-! ### The recorder's commands (R643, R687 to R692) -/

theorem exec_eventClear_of_up {q : BitVec 32} (hq : q = match s.recorder.records.getLast? with | some r => nextSequence r.seq | none => s.recorder.next)
    (start : s.startable acc 0xA9 anyForm = some c) (up : s.recorder.up = true) :
    exec (.eventClear acc) s
      = .next (s.keepOwned
          (if c.fn.num = 0 then (s.clearRecords (some c.fn)).finish c.acc St.success
           else (s.setFn c.fn { s.fn c.fn with floor := some q }).finish c.acc St.success)) := by
  subst hq
  exact act_start start (if_neg (by simp [up]))

theorem exec_histogramRead_of_up (start : s.startable acc 0xAA anyForm = some c) (up : s.recorder.up = true) :
    exec (.histogramRead acc) s
      = .next (s.keepOwned (s.reply c (if c.sqe.pfield 0 0 8 = 0xFF then s.extremesPage else s.seriesPage (c.sqe.pfield 0 0 8)))) :=
  act_start start (if_neg (by simp [up]))

theorem State.hostWrite_recorder {f : FnId} {buffers : List (Nat × Nat)} {data : List Byte} :
    (s.hostWrite f buffers data).recorder = s.recorder :=
  by
  unfold State.hostWrite
  exact State.over_keeps (P := fun u => u.recorder = s.recorder) _ _ (fun _ _ _ hu => by exact hu) s rfl

theorem exec_eventRead_of_shown {l : List Record} {last : Option Record} {next : BitVec 32}
    (hnext : next = match last with | some r => nextSequence r.seq | none => s.recorder.next)
    (start : s.startable acc 0xA8 anyForm = some c) (may : s.mayReply c = true) (up : s.recorder.up = true)
    (shown : takeShown (s.shows c.fn) (c.total / 32)
      (s.recorder.records.filter fun r => atLeastGen r.seq (BitVec.ofNat 32 (c.sqe.param 0))) = (l, last)) :
    exec (.eventRead acc) s
      = .next (s.keepOwned
          ((if c.silent = true ∨ l = [] then s
            else s.hostWrite c.fn (sliceBuffers (c.buffers.getD []) 0 (l.flatMap Record.bytes).length) (l.flatMap Record.bytes)).finish
            c.acc St.success (w32 l.length) next)) := by
  subst hnext
  refine act_start start ((if_neg (by simp [may, up])).trans ?_)
  simp only [shown, Bool.or_eq_true, List.isEmpty_iff]
  split_ifs
  · rfl
  · cases last with
    | none => rw [State.hostWrite_recorder]
    | some r => rfl

/-! ### The recorder's own work (R675 to R680, R693) -/

theorem exec_histogramIntervalEnd_of_due (live : s.live = true) (up : s.recorder.up = true) (due : s.recorder.intervalAt + 60000000 ≤ s.now)
    (ht : t = ({ s with recorder := { s.recorder with rolling := s.recorder.minute, minute := [], intervalAt := s.now } } : State).lifeSnapshot) :
    exec .histogramIntervalEnd s = .next (s.keepVault t.saveSeries) := by
  subst ht
  exact congrArg (vaultAct s) (if_neg (by simp [live, up, due]))

theorem exec_histogramSample_of_due {x : TempSample} (live : s.live = true) (up : s.recorder.up = true)
    (due : s.recorder.droop50At + 1000000 ≤ s.now)
    (ht : t = { s with recorder := { s.recorder with droop50 := 0, droop25 := 0, droop50At := s.now, hottest := x.hottest } }) :
    exec (.histogramSample x) s
      = .next (s.keepOwned
          ((((((((t.countLife 18 x.hottest (binOf x.hottest 0 32) x.hottestIsland).countLife 19 x.hbm0 (binOf x.hbm0 0 32) 0).countLife
             20 x.hbm1 (binOf x.hbm1 0 32) 0).countLife 21 x.vault (binOf x.vault 0 32) x.vaultDie).countLife 22 x.powerDie
             (binOf x.powerDie 0 32) 0).countLife 23 x.inputMw (binOf x.inputMw 0 5000) 0).countLife 24 s.recorder.droop50
             (entryBin s.recorder.droop50) 0).countLife 25 s.recorder.droop25 (entryBin s.recorder.droop25) 0)) := by
  subst ht
  exact congrArg (act s) (if_neg (by simp [live, up, due]))

theorem exec_recordAccept_of_code {code : Nat} {src : RecordSrc} {p1 p2 p3 : Word} (named : code % 4096 ≠ 0) (below : code < 0xF000) :
    exec (.recordAccept code src p1 p2 p3) s = .next (s.keepOwned ((s.foundBy code p1 p2 p3).record code src p1 p2 p3)) :=
  congrArg (act s) (if_neg (by simp [named, below]))

theorem exec_recorderCommit_of_due {l : Store (List (BitVec 32))} (on : s.vaultOn = true) (up : s.recorder.up = true) (some_ : s.recorder.pending ≠ 0)
    (free : s.recordsBusy = false) (due : s.recorder.commitAt + 100000 ≤ s.now ∨ 512 ≤ s.recorder.pending) (hl : l = s.recorder.nextParts) :
    exec .recorderCommit s
      = .next (s.keepVault
          (({ s with recorder := { s.recorder with commitAt := s.now } } : State).vprogram .journalStream (s.recorder.partContent l)
            [.recordsPart l])) := by
  subst hl
  have wait : (decide (s.now < s.recorder.commitAt + 100000) && decide (s.recorder.pending < 512)) = false := by
    simpa [Decidable.imp_iff_not_or] using due
  exact congrArg (vaultAct s) (if_neg (by rw [wait]; simp [on, up, some_, free]))

theorem exec_operatingSecondsSave_of_due (on : s.vaultOn = true) (due : s.life.opSavedAt + 60000000 ≤ s.now) :
    exec .operatingSecondsSave s
      = .next (s.keepVault (({ s with life := { s.life with opSavedAt := s.now } } : State).vprogram .journalStream
          [(.records 1, 0, trim (toLe 8 s.opSeconds))] [.secondsPart s.opSeconds])) :=
  congrArg (vaultAct s) (if_neg (by simp [on, due]))

end

/-! ### The statements -/

/-- Settles O21: a test by whether one runs, a piece of firmware by whether it fits and follows. -/
theorem selfTestAndFirmware : Obligations.SelfTestAndFirmware := by
  unfold Obligations.SelfTestAndFirmware
  refine ⟨fun s acc c => ⟨fun start idle => act_start start (State.startTest_of_idle idle),
      fun start idle => act_start start (State.startTest_of_idle idle),
      fun kind => ⟨rfl, rfl, rfl, rfl, rfl, fun i => State.mem_newTest_units⟩, fun start runs => act_start start (State.startTest_of_running runs),
      fun start runs => act_start start (State.startTest_of_running runs), fun x start runs hx => ?aborts, fun start none => ?noTest,
      fun k t start fits hk follows some_ ht => ?stages, fun k image _ hk himage => ⟨fun more => ?more, fun last good => ?good, fun last bad => ?bad⟩,
      fun k start hk wrong => ?wrong, fun start valid => ?activates, fun start invalid => ?slotInvalid⟩,
    fun s live runs => ⟨fun x units range asks ckpt link marches patrol left hx => ?passes, fun i t u ht hu => ?fails⟩⟩
  case aborts => rw [exec_selfTestAbort_of_start start, State.selfTestEnds_of_running runs hx]
  case noTest => rw [exec_selfTestAbort_of_start start, State.selfTestEnds_of_none none]
  case stages => rw [exec_fwStage_of_start start hk, if_pos ⟨fits, follows⟩, State.stageWrite_of_bytes hk some_ ht]
  case more =>
    subst hk himage
    exact if_pos (by simp [more])
  case good =>
    subst hk himage
    refine (if_neg (by simp [last])).trans ?_
    simp only [good]
    rfl
  case bad =>
    subst hk himage
    refine (if_neg (by simp [last])).trans ?_
    simp only [bad]
    rfl
  case wrong =>
    have no : ¬ (c.sqe.param 0 + c.total ≤ 67108864
        ∧ (c.sqe.param 0 = 0 ∨ (s.slot k).partialValid = true ∧ c.sqe.param 0 = (s.slot k).staged.length)) := by
      rintro ⟨fits, follows⟩
      rcases wrong with past | ⟨further, gap⟩
      · omega
      · obtain ⟨held, next⟩ := follows.resolve_left further
        exact gap.elim (fun lost => Bool.false_ne_true (lost.symm.trans held)) fun off => off next
    rw [exec_fwStage_of_start start hk, if_neg no]
  case activates => rw [exec_fwActivate_of_start start, if_pos valid]
  case slotInvalid => rw [exec_fwActivate_of_start start, if_neg (ne_true_of_eq_false invalid)]
  case passes =>
    have short : s.shortDone = true := by simp [State.shortDone, units, range, asks, ckpt, link]
    rw [exec_selfTestComplete_of_over live runs short marches patrol left, State.selfTestEnds_of_running runs hx]
  case fails => rw [exec_selfTestComplete_of_unit live runs, State.unitFails_eq ht hu]

/-- Settles O22: the recorder's commands while it is up, and its own work when it is due. -/
theorem recorderRows : Obligations.RecorderRows := by
  unfold Obligations.RecorderRows
  refine ⟨fun s acc c => ⟨fun start up pf => ?pfClears, fun q start up vf hq => ?vfClears, fun start up one => ?series, fun start up all => ?extremes,
      fun prev start hprev => ?clock, fun l last start may up shown => exec_eventRead_of_shown rfl start may up shown⟩,
    fun s t => exec_histogramIntervalEnd_of_due, fun s t x => exec_histogramSample_of_due, fun s code src p1 p2 p3 => exec_recordAccept_of_code,
    fun s l => exec_recorderCommit_of_due, fun s => exec_operatingSecondsSave_of_due⟩
  case pfClears => rw [exec_eventClear_of_up rfl start up, if_pos pf]
  case vfClears =>
    rw [exec_eventClear_of_up hq start up, if_neg vf]
  case series => rw [exec_histogramRead_of_up start up, if_neg one]
  case extremes => rw [exec_histogramRead_of_up start up, if_pos all]
  case clock =>
    subst hprev
    exact act_start start rfl

end Sys2Proof.Machine
end

section
/-! PROOFS. Clock islands and internal units (R38 to R40, R511, R652 to R668, R745, R755, R756): each row once its guard is met, and the statement
O47 put together from these. -/

namespace Sys2Proof.Machine

open Sys2Proof

section

variable {s t u : State} {i : Nat}

/-! ### Fatal conditions (R511, R660) and parity errors (R664) -/

section

variable (live : s.live = true)

include live

theorem exec_fatalCondition_of_cause {cause : Nat} (low : 0 < cause) (high : cause ≤ 6) (hu : u = s.event Ev.fatalInternal (i % 256) cause i 0) :
    exec (.fatalCondition cause i) s = .next (s.keepOwned ((if s.life.st = .failed then u else u.failWith cause).run)) := by
  subst hu
  exact congrArg (act s) (if_neg (by simp [live, Nat.ne_of_gt low, high]))

theorem exec_routerTimeout_of_router (low : 234 ≤ i) (high : i ≤ 249) (hu : u = s.event Ev.fatalInternal (i % 256) 3 i 0) :
    exec (.routerTimeout i) s = .next (s.keepOwned ((if s.life.st = .failed then u else u.failWith 3).run)) := by
  subst hu
  exact congrArg (act s) (if_neg (by simp [live, low, high]))

theorem exec_hbmParityError_of_up {c : Nat} (channel : c < 32) (up : (s.island (66 + c)).status ≠ 1) (kept : (s.island (66 + c)).status ≠ 3)
    (hu : u = s.updIsland (66 + c) fun x => { x with parityTimes := dayWindow s.now (s.island (66 + c)).parityTimes }) :
    exec (.hbmParityError c) s
      = .next (s.keepOwned
          ((if 2 ≤ (dayWindow s.now (s.island (66 + c)).parityTimes).length then u.beginMapOut (66 + c) else u).run)) := by
  subst hu
  exact congrArg (act s) (if_neg (by simp [live, channel, up, kept]))

/-! ### A unit goes down alone (R658, R667, R668) -/

theorem exec_unitDown_of_reset (known : i < 260) (alone : canReset i = true) (works : (s.island i).status = 0 ∨ (s.island i).status = 2) :
    exec (.unitDown i .reset) s = .next (s.keepVault (s.resetIsland i)) := by
  have notPort : ¬ i < 64 := by
    intro port
    simp only [canReset, Bool.or_eq_true, Bool.and_eq_true, decide_eq_true_eq] at alone
    omega
  exact congrArg (vaultAct s) ((if_neg (by simp [live, known])).trans ((if_neg notPort).trans (if_pos (by simpa [alone] using works))))

theorem exec_unitDown_of_port (port : i < 64) (linked : (s.port i).linkUp = true) (calm : (s.port i).resetWhy = none) (on : (s.port i).ctl ≠ .off)
    (used : (s.port i).ctl ≠ .unused) (good : (s.port i).ctl ≠ .failed) :
    exec (.unitDown i .reset) s = .next (s.keepVault (s.resetController i .queueState)) :=
  congrArg (vaultAct s) ((if_neg (by simp only [live, ge_iff_le]; simp; omega)).trans
    ((if_pos port).trans (if_pos (by simp [linked, calm, on, used, good]))))

/-- A drain for the self-test, of a unit that is up while the module drains no other. -/
theorem exec_unitDown_of_test (unit : (66 ≤ i ∧ i < 98) ∨ (114 ≤ i ∧ i < 162)) (runs : s.mgmt.selfTest.status = 1) (up : (s.island i).status = 0)
    (alone : s.unitInTest = false) :
    exec (.unitDown i .drained) s
      = .next (s.keepVault
          (if i ∈ s.mgmt.selfTest.units then
             if i < 98 then s.updTest fun t => { t with range := some (i - 66, false) } else s.setIsland i { s.island i with status := 2 }
           else if i ∈ s.mgmt.selfTest.marches ∧ s.shortDone = true then s.setIsland i { s.island i with status := 2 } else s)) := by
  have known : i < 260 := by omega
  have guard : ¬ ((!(((decide (66 ≤ i) && decide (i < 98)) || (decide (114 ≤ i) && decide (i < 162)))) || decide (s.mgmt.selfTest.status ≠ 1)
      || decide ((s.island i).status ≠ 0) || s.unitInTest) = true) := by
    rw [runs, up, alone]
    simp
    omega
  refine congrArg (vaultAct s) ((if_neg (by simp [live, known])).trans ((if_neg guard).trans ?_))
  simp only [List.contains_iff_mem, Bool.and_eq_true]

end

/-! ### A unit comes up (R652, R657, R667) -/

theorem exec_unitUp_of_ready {x : Island} {e : BitVec 8} (ht : t = s.lateEpochs) (live : t.live = true) (hx : x = t.island i) (down : x.status = 1)
    (idle : 114 ≤ i → i < 162 → (t.tile (i - 114)).running = none)
    (ready : x.advanceDue = true ∨ x.drained = true → ∀ v, x.advancedAt = some v → v + 1000 ≤ t.now)
    (he : e = if (x.advanceDue || x.drained) = true then x.epoch + 1 else x.epoch)
    (hu : u = (t.setIsland i { x with
        epoch := e, advancedAt := if (x.advanceDue || x.drained) = true then some t.now else x.advancedAt, advanceDue := false, drained := false,
        status := 0, upAt := some t.now }).when x.drained
      ((t.setIsland i { x with
        epoch := e, advancedAt := if (x.advanceDue || x.drained) = true then some t.now else x.advancedAt, advanceDue := false, drained := false,
        status := 0, upAt := some t.now }).unitTested i)) :
    exec (.unitUp i) s
      = .next (s.keepVault
          (((if 66 ≤ i ∧ i < 98 then { u with mgmt := { u.mgmt with shares := u.mgmt.shares.del (i - 66) } } else u).event Ev.unitUp
            (i % 256) i e.toNat 0).unitBack i)) := by
  subst hu he hx ht
  refine congrArg (vaultAct s) ((if_neg ?_).trans ?_)
  · intro stays
    simp only [Bool.or_eq_true, Bool.and_eq_true, Bool.not_eq_true', decide_eq_true_eq, Option.isSome_iff_ne_none] at stays
    obtain ((dead | up) | ⟨⟨low, high⟩, busy⟩) | ⟨more, early⟩ := stays
    · exact Bool.false_ne_true (dead.symm.trans live)
    · exact up down
    · exact busy (idle low high)
    · split at early
      · rename_i v hv
        exact absurd (ready more v hv) (of_decide_eq_false early)
      · exact Bool.false_ne_true early.symm
  · simp only [Bool.and_eq_true, decide_eq_true_eq]

/-! ### Clocks and temperature (R38 to R40, R745, R755, R756) -/

section

variable (works : s.life.inReset = false)

include works

theorem exec_droopStretch50_of_island (known : i < 260) :
    exec (.droopStretch50 i) s
      = .next (s.keepOwned (if (s.island i).clock = 0 then s.countDroop i false else s.setIsland i { s.island i with clockAt := s.now })) :=
  congrArg (act s) (if_neg (by simp [works, known]))

theorem exec_droopStretch25_of_island (known : i < 260) :
    exec (.droopStretch25 i) s
      = .next (s.keepOwned (if (s.island i).clock = 2 then s.setIsland i { s.island i with clockAt := s.now } else s.countDroop i true)) :=
  congrArg (act s) (if_neg (by simp [works, known]))

theorem exec_droopRecover_of_due (low : (s.island i).clock ≠ 0) (due : (s.island i).clockAt + 1 ≤ s.now) :
    exec (.droopRecover i) s
      = .next (s.keepOwned (if (s.island i).clock = 2 then s.countDroop i false
          else s.setIsland i { s.island i with clock := 0, clockAt := s.now })) :=
  congrArg (act s) (if_neg (by simp [works, low]; omega))

theorem exec_refclkLost_of_first (first : s.life.refclkLost = false) :
    exec .refclkLost s
      = .next (s.keepOwned (((({ s with life := { s.life with refclkLost := true } } : State).event Ev.refclkLost 0 s.life.st.code 0
          0).failDevice).run)) :=
  congrArg (act s) (if_neg (by simp [works, first]))

theorem exec_thermalTrip_of_first {temp : Int} {v : State} (first : s.life.thermalHold = none) (hot : 920 ≤ temp)
    (hu : u = (s.updPack fun p => { p with thermalTrip := some (i, temp, s.life.st) }).failDevice)
    (hv : v = { u with life := { u.life with thermalHold := some 0 } }) :
    exec (.thermalTrip i temp) s = .next (s.keepOwned (if v.passOpen = true then v else v.dieReset none)) := by
  subst hu hv
  exact congrArg (act s) (if_neg (by simp [works, first, hot]))

end

/-! ### A thermal hold from the reset on (R756) -/

/-- What a hold of the logic die in reset is counted from: the instant, and the hold as it stands. -/
def State.holdClock (s : State) : Nat × Option Nat := (s.now, s.life.thermalHold)

theorem State.holdClock_of_unheard (same : t.unheard = s.unheard) : t.holdClock = s.holdClock :=
  congrArg (fun x : Store Cq × Nat × Life => (x.2.1, x.2.2.thermalHold)) same

theorem State.selfTestEnds_holdClock {status : Nat} : (s.selfTestEnds status).holdClock = s.holdClock := by
  unfold State.selfTestEnds
  dsimp only
  split
  · rfl
  · exact State.holdClock_of_unheard ((State.over_unheard fun _ _ => State.raise_unheard).trans State.record_unheard)

theorem State.gateIsland_holdClock {status : Nat} : (s.gateIsland i status).holdClock = s.holdClock := by
  unfold State.gateIsland
  dsimp only
  repeat' split
  all_goals rfl

theorem State.hostReset_holdClock :
    ({ s.hostCleared.endAlert with life := { s.life with hostReady := false } } : State).holdClock = s.holdClock := by
  unfold State.endAlert
  split <;> rfl

theorem State.setConverter_holdClock {mv : Nat} : (s.setConverter mv).holdClock = s.holdClock := by
  unfold State.setConverter
  dsimp only
  repeat' split
  all_goals rfl

theorem State.setCharger_holdClock {x : Nat × Nat} : (s.setCharger x).holdClock = s.holdClock := by
  unfold State.setCharger
  split <;> rfl

theorem State.converterCheck_holdClock : s.converterCheck.holdClock = s.holdClock :=
  State.setCharger_holdClock.trans State.setConverter_holdClock

/-- The die's reset starts a thermal hold that waits for it. -/
theorem State.dieReset_thermalHold {until_ : Option Nat} (works : s.life.inReset = false) (waits : s.life.thermalHold = some 0) :
    (s.dieReset until_).life.thermalHold = some (s.now + 60000000) := by
  unfold State.dieReset
  rw [if_neg (by simp [works])]
  extract_lets ended keep _ _ gated
  have kept : gated.holdClock = s.holdClock := by
    refine Eq.trans ?_ (State.selfTestEnds_holdClock (status := 5))
    by_cases perst : keep = true
    · refine (congrArg State.holdClock (if_pos perst)).trans ?_
      exact State.over_keeps (P := fun u => u.holdClock = ended.holdClock) _ _ (fun _ _ _ hu => State.gateIsland_holdClock.trans hu) _ rfl
    · exact (congrArg State.holdClock (if_neg perst)).trans State.hostReset_holdClock
  obtain ⟨now, hold⟩ := Prod.mk.inj kept
  refine (congrArg Prod.snd State.converterCheck_holdClock).trans ?_
  change gated.life.thermalHold.map (fun t => if t = 0 then gated.now + 60000000 else t) = _
  rw [hold, waits, now]
  rfl

end

/-! ### The statement -/

/-- Settles O47: each row past its guard, a unit that comes up by whether its epoch advances. -/
theorem internalUnitRows : Obligations.InternalUnitRows := by
  unfold Obligations.InternalUnitRows
  refine fun s live => ?_
  obtain ⟨works, _⟩ := State.live_eq_true_iff.mp live
  refine ⟨fun cause i u => exec_fatalCondition_of_cause live, fun i u => exec_routerTimeout_of_router live, ?watchdog,
    fun c u => exec_hbmParityError_of_up live, fun i => exec_unitDown_of_reset live, fun p => exec_unitDown_of_port live,
    fun i unit runs up range others => ⟨fun tested channel => ?range, fun drains => ?drains⟩,
    fun i t x u ht tlive hx down idle late drained hu => ?comesUp, fun i t x u ht tlive hx down idle more ready hu => ?advances,
    fun i => exec_droopStretch50_of_island works, fun i => exec_droopStretch25_of_island works, fun i => exec_droopRecover_of_due works,
    exec_refclkLost_of_first works, fun i t calm hot => ?warns, ?warnEnds, fun i t u v => exec_thermalTrip_of_first works,
    fun v => State.dieReset_thermalHold⟩
  case watchdog => exact congrArg (act s) (if_neg (by simp [live]))
  case range =>
    rw [exec_unitDown_of_test live unit runs up (by simp [State.unitInTest, range, others]), if_pos tested, if_pos channel]
    rfl
  case drains =>
    rw [exec_unitDown_of_test live unit runs up (by simp [State.unitInTest, range, others])]
    obtain ⟨tested, tile⟩ | ⟨untested, marches, short⟩ := drains
    · rw [if_pos tested, if_neg (by omega)]
    · rw [if_neg untested, if_pos ⟨marches, short⟩]
  case comesUp =>
    rw [exec_unitUp_of_ready ht tlive hx down idle (by simp [late, drained]) rfl rfl]
    simp only [late, drained, Bool.or_false, Bool.false_eq_true, if_false, State.when_false]
    rw [hu]
  case advances =>
    have due : (x.advanceDue || x.drained) = true := by simpa using more
    rw [exec_unitUp_of_ready ht tlive hx down idle (fun _ => ready) rfl rfl]
    simp only [due, if_true]
    rw [hu]
    rfl
  case warns => exact congrArg (act s) (if_neg (by simp [live, calm, hot]))
  case warnEnds => exact congrArg (act s) (if_neg (by simp [live]))

end Sys2Proof.Machine
end
